-- ==== Sys2Proof/Word.lean ====
section
/-! DEFINITION. The words of the X16: its 32-bit registers, its bytes, master identities, and the index
types of its replicated units (R3, R10, R19, R23). -/

namespace Sys2Proof

/-- A register, a descriptor word, a packet word (R10: all registers are 32 bits wide). -/
abbrev Word := BitVec 32

/-- One byte of memory. -/
abbrev Byte := BitVec 8

/-- A master identity (R23). -/
abbrev Mid := BitVec 8

/-- A PCIe function, F0 to F31 (R22). -/
abbrev Fn := Fin 32

/-- A ring of a function (R85). -/
abbrev Ring := Fin 32

/-- A platform, P0 to P15 (R3). -/
abbrev Plat := Fin 16

/-- A calling point, CP0 to CP1023 (R52). -/
abbrev Cp := Fin 1024

/-- A layer unit, V0-V15 then G0-G47 (R204). -/
abbrev Lay := Fin 64

/-- A device GPU context (R145). -/
abbrev Ctx := Fin 256

/-- A physical shader cluster (R177). -/
abbrev Clus := Fin 20

/-- A logical cluster slot (R177). -/
abbrev Slot := Fin 16

/-- A power domain (R19). -/
abbrev Dom := Fin 16

/-- A logical touch panel (R293). -/
abbrev Panel := Fin 8

/-- A haptic channel (R313). -/
abbrev Hap := Fin 12

/-- An audio stream (R348). -/
abbrev Stream := Fin 32

/-- A display port in the numbering of R267: 0-3 DP, 4-11 A-PHY, 12-13 DSI. -/
abbrev Port := Fin 14

/-- A sink, one stream of one port (R267). -/
abbrev Sink := Fin 26

/-- A bell channel (R358). -/
abbrev Bell := Fin 64

/-- A token (R372). -/
abbrev Tok := Fin 128

/-- A sparse map from numbers, in one canonical form: keys strictly rising, no entry equal to what an unlisted key
reads as (Machine/SMap.lean holds its operations). -/
abbrev SMap (α : Type) := List (Nat × α)

end Sys2Proof
end

