-- ==== Sys2Proof/Args.lean ====
section
/-! DEFINITION. The operands of the commands: who accesses a register, what memory outside the device answers, what the
partner of a pair says, what a migrated function brings with it. -/

namespace Sys2Proof

/-- A register access: the master that makes it, whether it is secure-world (R24), and its byte enables (R11, R12). -/
structure Acc where
  mid : Mid
  secure : Bool
  be : BitVec 4
  deriving DecidableEq, Repr

/-- An edge of an input pin that the fabric clock samples: whether it rises, and the length of the pulse that it begins, in ns
(R76, R285). -/
structure Pulse where
  rising : Bool
  lenNs : Nat
  deriving DecidableEq, Repr

/-- A reference edge that framelock samples: the period since the edge before, in ns, and the edge of the pin (R71 to R76). -/
structure RefEdge where
  periodNs : Nat
  pulse : Pulse
  deriving DecidableEq, Repr

/-- A tearing-effect edge: the input pin, and its edge (R285). -/
structure TeIn where
  pin : Fin 4
  pulse : Pulse
  deriving DecidableEq, Repr

/-- Where a register access is made: the PF's register space (R20; in Heritage the extension window, R469), the BAR2 page of a
virtual function (R21), the BAR4 of a function with its MSI-X table and pending-bit array (R115), or the MDH-8 register map of BAR0 in Heritage
(R458). -/
inductive Space where
  | bar0
  | vf (f : Fn)
  | bar4 (f : Fn)
  | mdh
  deriving DecidableEq, Repr

/-- What memory outside the device answers to a read that the device makes: its words, an uncorrectable error
(R483), or a refusal of the ATS translation (R132 type 5). -/
structure MemIn where
  data : List Word
  ecc : Bool
  ats : Bool
  deriving DecidableEq, Repr

/-- The critical section that makes a write (R169): its primitive in the draw, and its pixel and sample. -/
structure Crit where
  prim : Nat
  x : Nat
  y : Nat
  sample : Nat
  deriving DecidableEq, Repr

/-- A write that a shader makes to a buffer or a storage image: shader code is the SDK's (R156), so what it writes comes
with the command, and the critical section it stands in, if any. -/
structure ShaderStore where
  iova : BitVec 64
  bytes : List Byte
  crit : Option Crit
  deriving DecidableEq, Repr

/-- A primitive as the geometry unit finds it, from shaders that are the SDK's: the bins it touches, and the varying vectors of each
vertex that it brings (R158). -/
structure Prim where
  bins : List Nat
  verts : List Nat
  deriving DecidableEq, Repr

/-- A shader object that a draw uses (R156): its IOVA, and what memory outside the device holds there. -/
structure ObjIn where
  iova : BitVec 64
  mem : MemIn
  deriving DecidableEq, Repr

/-- What a draw brings: the shader objects of its first use, and its primitives (R156, R158). -/
structure DrawIn where
  objs : List ObjIn
  prims : List Prim
  deriving DecidableEq, Repr

/-- The straps sampled at PORST_N deassertion (R5, R438, R495). -/
structure Straps where
  heritage : Bool
  seatB : Bool
  bootMode : BitVec 3
  deriving DecidableEq, Repr

/-- What makes a warm reset (R17): the pin with the width of its low pulse in ns (R496), the dead-man timer, or the
host's request through PM_WARM_REQ. -/
inductive WarmCause where
  | pin (lowNs : Nat)
  | deadman
  | host (acc : Acc) (v : Word)
  deriving DecidableEq, Repr

/-- The sections that GL_SECT_RST resets (R27), in the order of its bits. -/
inductive Sect where
  | tt | raster | compose | scanout | media | pair
  deriving DecidableEq, Repr

/-- Why a layer's fetch fails (R250), or that a reserved LBC state was read (R243). -/
inductive FetchCause where
  | dmmu (type : Fin 6)
  | ecc
  | header
  | lbcState (block : Word)
  deriving DecidableEq, Repr

/-- Why a job ends in JOB_FAULT (R175). -/
inductive JobFaultKind where
  | translation (type : Fin 6) (iova : BitVec 64) (wr : Bool)
  | ecc
  deriving DecidableEq, Repr

/-- A fault of a job: why, and the address and length of each write that did not arrive (R175). -/
structure JobFaultIn where
  kind : JobFaultKind
  lost : List (Nat × Nat)
  deriving DecidableEq, Repr

/-- Why a cluster is declared dead (R193). -/
inductive DeathCause where
  | noRetire | tmEcc | portParity
  deriving DecidableEq, Repr

/-- An AUX reply (R276). -/
inductive AuxReply where
  | ack (bytes : List Byte)
  | nack
  | defer
  deriving DecidableEq, Repr

/-- A source pixel that lies outside the device's DRAM: its plane (true is chroma), its place in the plane, and its raw value. -/
structure SrcPix where
  chroma : Bool
  x : Nat
  y : Nat
  raw : Nat
  deriving DecidableEq, Repr

/-- What memory outside the device's DRAM answers to the fetch of a layer for one pixel (R209 stage 1, R215). -/
structure LaySample where
  layer : Lay
  src : List SrcPix
  deriving DecidableEq, Repr

/-- A pixel to compose: its place in the active area and the samples of the layers that cover it. -/
structure PixelIn where
  x : Nat
  y : Nat
  samples : List LaySample
  deriving DecidableEq, Repr

/-- The two memories with a watermark (R381). -/
inductive WmKind where
  | dram | skein
  deriving DecidableEq, Repr

/-- The memories with symbol ECC outside the clusters (R482, R490). -/
inductive EccSource where
  | dram | skein | sysCache
  deriving DecidableEq, Repr

/-- Where a corrected error lies: a memory of R483, or the tile memory, a register file or the local data store of a physical
cluster (R167). -/
inductive CeSource where
  | memory (src : EccSource)
  | cluster (k : Fin 20)
  deriving DecidableEq, Repr

/-- The header fields every Alaurser record carries (R405). -/
structure RecHdr where
  seq : Word
  epoch : BitVec 16
  deriving DecidableEq, Repr

/-- What the safety section and header of a fetched Laniaris image say (R441, R444), as the ROM's checks find it:
the first cause of R440 that its verification meets (0 = none), and the header fields the device keeps. -/
structure ImageInfo where
  cause : Fin 9
  bytes : Nat
  version : Word
  objVersion : BitVec 8
  pairMin : BitVec 16
  pairMax : BitVec 16
  pairEpoch : BitVec 16
  stateFormat : Word
  minRom : BitVec 16
  secVersion : BitVec 16
  heritageLayers : BitVec 64
  heritageRegions : List (Fin 8 × Fin 16)
  deriving DecidableEq, Repr

/-- What wakes the device from HIBERNATE (R436). -/
inductive WakeCause where
  | trigger
  | gpio (n : Fin 32)
  | pmcsr
  | hostRequest
  deriving DecidableEq, Repr

/-- The partner's answer that FORM checks (R408), as its F0 reports it. -/
structure Partner where
  role : Bool
  mode : Fin 6
  seatB : Bool
  devRev : Word
  dramUnits : Nat
  pairMin : BitVec 16
  pairMax : BitVec 16
  pairEpoch : BitVec 16
  stateFormat : Word
  mwin : List Word
  fnStates : List Word
  vfEnable : Bool
  numVfs : Nat
  dt : Nat
  deriving DecidableEq, Repr

/-! ### What a migrated function brings with it (R142) -/

namespace Machine

/-- The basis of a calling point (R53): periodic on a line, once at a frame and line, or once at a device time. -/
inductive Basis where
  | line | frameLine | dt
  deriving DecidableEq, Repr, Inhabited

/-- A calling-point entry (R53). -/
structure CpEntry where
  en : Bool
  basis : Basis
  wake : Bool
  shared : Bool
  event : Bool
  action : Nat
  plat : Nat
  owner : Nat
  line : Nat
  period : Nat
  frame : Nat
  trig : Nat
  arg0 : Word
  arg1 : Word
  fires : Nat
  outcome : Nat
  deriving DecidableEq, Repr, Inhabited

/-- The states of a ring (R89). -/
inductive RState where
  | disabled | active | stalled | draining
  deriving DecidableEq, Repr, Inhabited

/-- An accepted ring table entry (R86). -/
structure RingEntry where
  type : Nat
  size : Nat
  vector : Nat
  arg : Nat
  base : Nat
  dbr : Nat
  cq : Nat
  deriving DecidableEq, Repr, Inhabited

/-- A descriptor that the ring holds: its index, its words, the further slots of its chain, the data outside the device
that came with it, and, once started, the calling point it waits for. `stage` counts what the descriptor has done of an
effect that takes several steps; `link` is the number of its DESC record to the banker (R412); `rel` is the DT at which a
job was released (R186). -/
structure Desc where
  idx : Nat
  words : List Word
  chain : List (List Word)
  mem : List MemIn
  cp : Option Nat
  seq : Nat
  stage : Nat
  link : Option Nat
  rel : Nat := 0
  deriving DecidableEq, Repr, Inhabited

/-- An event that has not been written (R109), and what an event record says (R107): class, code, MID, the DT of its
occurrence, and its 16 payload bytes as one number, byte 0 lowest. -/
structure Ev where
  cls : Nat
  code : Nat
  mid : Nat
  dt : Nat
  pay : Nat
  deriving DecidableEq, Repr, Inhabited

/-- A ring (R87 to R96): `queue` holds the descriptors fetched and not started, `live` those started and not completed;
`partial` the slots of a chain not yet whole; `dead` says that completions or events are discarded since a fault
(R515). -/
structure RingSt where
  state : RState
  entry : RingEntry
  h : Nat
  pi : Nat
  cci : Nat
  c : Nat
  seqSeen : Option Nat
  ignored : Nat
  lastStatus : Nat
  reading : Bool
  again : Bool
  tries : Nat
  queue : List Desc
  part : List (Nat × List Word)
  live : List Desc
  dead : Bool
  held : List Ev
  dropped : Nat
  dropDt : Nat
  deriving DecidableEq, Repr, Inhabited

/-- A moderation entry (R91). -/
structure ModEntry where
  holdoff : Nat
  count : Nat
  cp : Option Nat
  deriving DecidableEq, Repr, Inhabited

/-- One region of a context's tile-list memory (R160). -/
structure Region where
  base : Nat
  pages : Nat
  deriving DecidableEq, Repr, Inhabited

/-- An attachment clear of a pass (R154, R174): the attachment mask, FAST, the rectangle, the value and the depth words. -/
structure ClearOp where
  mask : Nat
  fast : Bool
  x0 : Nat
  y0 : Nat
  x1 : Nat
  y1 : Nat
  val : Nat
  depth : Word
  stencil : Nat
  deriving DecidableEq, Repr, Inhabited

/-- A binned primitive (R159, R169): its number in the pass, the bins it touches, the scissor it was drawn with (none before the first
SCISSOR packet of the pass), and the interlock mode of its pipeline state object: 0 PIXEL_ORDERED, 1 SAMPLE_ORDERED, 2 PIXEL_UNORDERED,
3 SAMPLE_UNORDERED. -/
structure PrimOp where
  n : Nat
  bins : List Nat
  scissor : List Word
  lock : Nat
  deriving DecidableEq, Repr, Inhabited

/-- What a bin's list holds in stream order: an attachment clear, or a primitive. -/
inductive PassOp where
  | clear (o : ClearOp)
  | prim (p : PrimOp)
  deriving DecidableEq, Repr

/-- A render pass that is open (R154 to R164): its attachments, the reserve Q, the pool bytes used, whether the siding is
in the pool, the bins of the entries in the lists, what is to be rendered in stream order, the primitives so far, the scissor, the
number of the pass that its free values go by, and after a split every pixel as it was stored: the samples of the first attachment, then
those of the next. -/
structure PassRun where
  atts : List (List Word)
  colours : Nat
  q : Nat
  used : Nat
  siding : Bool
  lists : List Nat
  ops : List PassOp
  prims : Nat
  scissor : List Word
  key : Nat
  held : Option (List (List Nat))
  deriving DecidableEq, Repr, Inhabited

/-- A called stream (R154): the offset of its CALL, the words taken from it, and its length in words. -/
structure CallRun where
  at0 : Nat
  pos : Nat
  len : Nat
  deriving DecidableEq, Repr, Inhabited

/-- The job that a context runs (R146, R152, R153): where its descriptor stands, its deadline, the place in its stream,
what its completion will say, the regions it wrote, the pipeline state objects it used with their interlock modes, and the shader
objects it used. -/
structure JobRun where
  f : Nat
  r : Nat
  idx : Nat
  compute : Bool
  restartable : Bool
  dlV : Bool
  deadline : Option Nat
  dwords : Nat
  off : Nat
  call : Option CallRun
  splits : Nat
  sidingUsed : Bool
  poolHwm : Nat
  sidingHwm : Nat
  recovered : Bool
  pso : Nat
  lock : Nat
  psos : List (Nat × Nat)
  objs : List Nat
  wrote : List (Nat × Nat)
  binds : List (Nat × Nat)
  pass : Option PassRun
  deriving DecidableEq, Repr, Inhabited

/-- A context (R145 to R150, R160, R183): 0 FREE, 1 IDLE, 2 RUNNING, 3 PREEMPTED; the charge is in slot-nanoseconds;
`told` says that BUDGET_EXHAUSTED was posted in this frame; `saved` lists the cluster records of the save area that preemption wrote
and no resumption has read, in their order: whole ones, or the tile slots and local data of a soft yield (R180, R187). -/
structure GpuCtx where
  state : Nat
  express : Bool
  prio : Nat
  saveBase : Nat
  saveSize : Nat
  budget : Nat
  owner : Nat
  pool : Region
  siding : Region
  scratch : Region
  job : Option JobRun
  charge : Nat
  spent : Bool
  told : Bool
  saved : List Bool := []
  deriving DecidableEq, Repr, Inhabited

/-- A started descriptor that waits: function, ring, index. -/
structure AuWait where
  f : Nat
  r : Nat
  idx : Nat
  deriving DecidableEq, Repr, Inhabited

/-- A host stream (R348 to R351): the words 0x10 to 0x2C of its CONFIG, the function that started it, HW_POS and the last
APPL, the blocks held, the start of its ramp, capture frames dropped in this run, and what waits. -/
structure StreamRun where
  cfg : List Word
  owner : Nat
  hwPos : Nat
  appl : Nat
  blocks : Nat
  rampStart : Nat
  dropping : Bool
  drains : List AuWait
  stops : List AuWait
  deriving DecidableEq, Repr, Inhabited

/-- A RAM effect slot (R327): its owner and words. -/
structure RamEff where
  owner : Nat
  words : List Word
  deriving DecidableEq, Repr, Inhabited

/-- A composed pixel: its place in the active area, and its codes at the platform depth. -/
structure OutPix where
  x : Nat
  y : Nat
  r : Nat
  g : Nat
  b : Nat
  deriving DecidableEq, Repr, Inhabited

end Machine

/-- Where the lead's commit came from, as its COMMIT record names it (R405): a descriptor of a ring, the staged registers, the
island's staging set, the partition window, or the device itself. -/
inductive CommitFrom where
  | desc (f : Fn) (r : Ring) (idx : Nat)
  | staged
  | island
  | window
  | device
  deriving DecidableEq, Repr

/-- What a STATE record mirrors, and what a SYNC record copies (R405, R410): a register, or an item of device state. `ringIdx`,
`ctx` and `stream` come in SYNC records alone. -/
inductive StateItem where
  | reg (off : Word) (v : Word)
  | si (off : Word) (v : Word)
  | fence (f : Fn) (k : Fin 16) (v : BitVec 64)
  | buffer (idx : Fin 8192) (state : Fin 3) (gen : BitVec 8) (owner : Fn) (words : List Word)
  | claim (f : Fn) (cls : Fin 4) (blocks : BitVec 14)
  | partition (f : Fn) (words : List Word)
  | point (c : Cp) (words : List Word)
  | lock (mask : BitVec 6)
  | departure (f : Fn)
  | mode (m : Fin 6)
  | caution (plat : BitVec 16) (others : Bool) (prev : Fin 6) (latch : Bool)
  | ring (f : Fn) (r : Ring) (words : List Word)
  | vectors (f : Fn) (words : List Word)
  | ringIdx (f : Fn) (r : Ring) (h c cci : Word)
  | ctx (c : Ctx) (x : Machine.GpuCtx)
  | stream (st : Stream) (x : Machine.StreamRun)
  deriving DecidableEq, Repr

/-- A ring as SAVE took it. -/
structure BlobRing where
  ring : Nat
  fcb : List Word
  st : Machine.RingSt
  deriving DecidableEq, Repr

/-- A layer as SAVE took it: its body words. -/
structure BlobLayer where
  layer : Nat
  words : List Word
  deriving DecidableEq, Repr

/-- A buffer table entry as SAVE took it: its place, its generation, the words of its BUF_CREATE. -/
structure BlobBuf where
  idx : Nat
  gen : Nat
  words : List Word
  deriving DecidableEq, Repr

/-- A stream as SAVE took it. -/
structure BlobStream where
  stream : Nat
  run : Machine.StreamRun
  deriving DecidableEq, Repr

/-- What the body of a blob that RESTORE reads says (R142), which has no layout in the spec: rings and FCB copy, fences, moderation by
vector, held events (in their rings), held commits (ring and index of their descriptors, in acceptance order), calling points,
contexts by their index within the function, applied layers, buffers, Skein reservations (class, blocks), streams and RAM
effects (by effect number). -/
structure BlobIn where
  rings : List BlobRing
  fences : List Nat
  mods : List (Nat × Machine.ModEntry)
  commits : List (Nat × Nat)
  cps : List (Nat × Machine.CpEntry)
  ctxs : List (Nat × Machine.GpuCtx)
  layers : List BlobLayer
  bufs : List BlobBuf
  claims : List (Nat × Nat)
  streams : List BlobStream
  rams : List (Nat × Machine.RamEff)
  deriving DecidableEq, Repr

end Sys2Proof
end

