-- ==== Sys2Proof/Syntax.lean ====
section
/-! DEFINITION. The commands of the X16: one constructor for each row of spec/opcode_table.json, in its order,
with the operands that the row's rule names: who accesses a register and with what value, which unit an event
concerns, what the outside world answers. -/

namespace Sys2Proof

/-- The commands. -/
inductive Instr where
  | registerWrite (acc : Acc) (sp : Space) (off v : Word)
  | readClear (acc : Acc) (sp : Space) (off : Word)
  | coldReset (st : Straps)
  | warmReset (c : WarmCause)
  | functionReset (f : Fn)
  | sectRstTt (acc : Acc)
  | sectRstRaster (acc : Acc)
  | sectRstCompose (acc : Acc)
  | sectRstScanout (acc : Acc)
  | sectRstMedia (acc : Acc)
  | sectRstPair (acc : Acc)
  | sectionResetDone (x : Sect)
  | lockWrite (acc : Acc) (v : Word)
  | lock (f : Fn) (r : Ring)
  | stageCommit (acc : Acc) (v : Word) (tables : List MemIn)
  | stripComposeBegin (p : Plat) (frame line : Nat) (want : List (Lay × Nat))
  | commitLand (p : Plat) (frame line : Nat)
  | stripComposeDone (p : Plat) (frame line : Nat) (px : List PixelIn)
  | stripCheckpoint (p : Plat) (frame line outstanding : Nat)
  | fallbackStrip (p : Plat) (frame line : Nat)
  | fetchFault (l : Lay) (c : FetchCause) (frame line : Nat) (iova : BitVec 64)
  | dtRead (acc : Acc)
  | rposRead (acc : Acc) (p : Plat)
  | cpSelWrite (acc : Acc) (v : Word)
  | cpStageWrite (acc : Acc) (k : Fin 6) (v : Word)
  | cpStoreWrite (acc : Acc) (v : Word)
  | loaderWalk
  | cpFire (c : Cp)
  | comparatorFree
  | cpFireDeferred (c : Cp)
  | flCtrlWrite (acc : Acc) (p : Plat) (v : Word)
  | framelockRefEdge (p : Plat) (edge : RefEdge)
  | framelockHoldover (p : Plat)
  | framelockHoldoverExpire (p : Plat)
  | convStart (acc : Acc) (v : Word)
  | convDone
  | timingTakeEffect (p : Plat)
  | rasterStart (p : Plat)
  | platformDisable (p : Plat)
  | kick (acc : Acc) (f : Fn) (r : Ring)
  | reloadRing (acc : Acc) (f : Fn) (r : Ring) (m : MemIn)
  | reloadVectors (acc : Acc) (f : Fn) (m : MemIn)
  | doorbellRecordArrive (f : Fn) (r : Ring) (m : MemIn)
  | dbrRetry (f : Fn) (r : Ring)
  | descriptorArrive (f : Fn) (r : Ring) (n : Nat) (m : MemIn)
  | msixHoldoffExpire (f : Fn) (v : Fin 64)
  | nop (f : Fn) (r : Ring)
  | signal (f : Fn) (r : Ring)
  | wait (f : Fn) (r : Ring)
  | cpWrite (f : Fn) (r : Ring)
  | cpRead (f : Fn) (r : Ring)
  | commitHead (f : Fn) (r : Ring) (tables : List MemIn)
  | siCommit (acc : Acc) (v : Word) (tables : List MemIn)
  | cc3AuthWrite (acc : Acc) (v : Word)
  | jobSubmit (f : Fn) (r : Ring)
  | ctxSetup (f : Fn) (r : Ring)
  | ctxDestroy (f : Fn) (r : Ring)
  | jobCancel (f : Fn) (r : Ring)
  | tilePool (f : Fn) (r : Ring)
  | pktNop (c : Ctx) (w : List Word)
  | pktTarget (c : Ctx) (w : List Word)
  | pktState (c : Ctx) (w : List Word) (m : MemIn)
  | pktBind (c : Ctx) (w : List Word)
  | pktDraw (c : Ctx) (w : List Word) (dr : DrawIn) (st : List ShaderStore)
  | pktDrawIndexed (c : Ctx) (w : List Word) (dr : DrawIn) (st : List ShaderStore)
  | pktDrawIndirect (c : Ctx) (w : List Word) (m : MemIn) (dr : DrawIn) (st : List ShaderStore)
  | pktClear (c : Ctx) (w : List Word)
  | pktPassEnd (c : Ctx) (w : List Word)
  | pktDispatch (c : Ctx) (w : List Word) (st : List ShaderStore)
  | pktDispatchIndirect (c : Ctx) (w : List Word) (m : MemIn) (st : List ShaderStore)
  | pktBarrier (c : Ctx) (w : List Word)
  | pktCall (c : Ctx) (w : List Word)
  | pktTimestamp (c : Ctx) (w : List Word)
  | pktScissor (c : Ctx) (w : List Word)
  | jobComplete (c : Ctx)
  | jobFault (c : Ctx) (k : JobFaultIn)
  | clearLine (c : Ctx)
  | softYieldDone (sl : Slot)
  | hardPreempt (sl : Slot)
  | saveFirstPartDone (sl : Slot)
  | budgetExhausted (c : Ctx)
  | budgetReset
  | tpWindowStart (f : Fn)
  | tpWindowEnd (f : Fn)
  | clusterDead (k : Clus) (cause : DeathCause)
  | reliefDone (g : Fin 4)
  | ldsEccError (k : Clus)
  | posthumous (k : Clus) (wr : Bool)
  | bistStart (acc : Acc) (v : Word)
  | bistDone (pass : Bool)
  | bufCreate (f : Fn) (r : Ring)
  | bufDestroy (f : Fn) (r : Ring)
  | bufRelease (f : Fn) (r : Ring)
  | skeinReserve (f : Fn) (r : Ring)
  | bufQuery (f : Fn) (r : Ring)
  | dpllWrite (acc : Acc) (k : Fin 8) (w : Fin 2) (v : Word)
  | dpllLock (k : Fin 8)
  | routeIdle (s : Sink)
  | sinkLive (s : Sink)
  | linkTrainDone (p : Port) (ok : Bool)
  | fenceInAssert
  | fenceInRelease
  | muteWrite (acc : Acc) (v : Word)
  | muteApply (p : Port)
  | auxNativeWrite (acc : Acc) (p : Fin 4) (v : Word)
  | auxNativeRead (acc : Acc) (p : Fin 4) (v : Word)
  | auxI2cWrite (acc : Acc) (p : Fin 4) (v : Word)
  | auxI2cRead (acc : Acc) (p : Fin 4) (v : Word)
  | auxReply (p : Fin 4) (rep : AuxReply)
  | auxTimeout (p : Fin 4)
  | hpdPlug (p : Fin 4)
  | hpdUnplug (p : Fin 4)
  | hpdIrq (p : Fin 4) (lockLost : Bool)
  | aphyAckTimeout (q : Fin 8) (sent : Fin 3)
  | teEdge (t : TeIn)
  | teTimeout (d : Fin 2)
  | underflow (p : Plat) (line x : Nat)
  | signatureResult (p : Plat) (r : Fin 16) (px : List Machine.OutPix)
  | psrEnter (p : Plat)
  | psrExit (p : Plat)
  | touchCfg (f : Fn) (r : Ring)
  | touchBaselineReload (f : Fn) (r : Ring)
  | touchBaselineRebase (f : Fn) (r : Ring)
  | touchBaselineSave (f : Fn) (r : Ring)
  | touchBaselineDump (f : Fn) (r : Ring)
  | touchTestRef (f : Fn) (r : Ring)
  | touchTestOpen (f : Fn) (r : Ring)
  | touchTestShort (f : Fn) (r : Ring)
  | touchTestDone (t : Panel) (raw leaks refs : List Nat)
  | touchFrameProcess (t : Panel) (raw : List Nat) (selfTx selfRx : List Int)
  | spiDrdy (t : Panel)
  | spiDrdyTimeout (t : Panel)
  | tunnelSegment (q : Fin 8) (bytes : List Byte)
  | tunnelFrameTimeout (t : Panel)
  | longContact (t : Panel) (id : Fin 11)
  | forcedRelease (t : Panel) (id : Fin 11)
  | hapticPlay (f : Fn) (r : Ring)
  | hapticLoad (f : Fn) (r : Ring) (m : MemIn)
  | hapticCfgWrite (f : Fn) (r : Ring)
  | hapticCfgClearFault (f : Fn) (r : Ring)
  | senseWindow (h : Hap) (halfPeriodUs : Option Nat) (bemfMv : Nat)
  | hapticSegmentEnd (h : Hap)
  | pendingTriggerTimeout (h : Hap)
  | ampFault (h : Hap)
  | clockLoss (d : Fin 2)
  | audioStreamConfig (f : Fn) (r : Ring)
  | audioStreamStart (f : Fn) (r : Ring)
  | audioStreamStop (f : Fn) (r : Ring)
  | audioStreamDrain (f : Fn) (r : Ring)
  | audioRoute (f : Fn) (r : Ring)
  | audioGain (f : Fn) (r : Ring)
  | audioCoef (f : Fn) (r : Ring) (m : MemIn)
  | audioChimeStart (f : Fn) (r : Ring)
  | audioChimeStop (f : Fn) (r : Ring)
  | safetyChimeStart (acc : Acc) (g : Fin 4) (v : Word)
  | safetyChimeStop (acc : Acc) (g : Fin 4) (v : Word)
  | chimeEnd (g : Fin 4)
  | routeTableChange (d : Fin 3)
  | crossfadeEnd (n : Fin 128)
  | gainRampEnd (target : Fin 3) (index : Fin 128)
  | eqSectionMove (acc : Acc) (m : Fin 16) (k : Fin 8) (v : Word)
  | streamPeriod (st : Stream) (appl : Nat)
  | streamUnderrun (st : Stream)
  | streamRefill (st : Stream) (appl : Nat)
  | streamOverrun (st : Stream)
  | streamFault (st : Stream) (cause : FetchCause)
  | rampDownEnd (st : Stream)
  | bridgeLock (b : Fin 8)
  | bridgeUnlock (b : Fin 8) (ppm : Int)
  | portFrameError (p : Fin 10)
  | bellBindWrite (acc : Acc) (c : Bell) (v : Word)
  | bellPost (acc : Acc) (c : Bell) (v : Word)
  | bellPop (acc : Acc) (c : Bell) (v : Word)
  | doorbellClear (acc : Acc) (v : Word)
  | doorbellMaskWrite (acc : Acc) (v : Word)
  | tokenAcquire (t : Tok) (readers : List Acc)
  | tokenRelease (acc : Acc) (t : Tok) (v : Word)
  | spdmGetVersion (f : Fn)
  | spdmGetCapabilities (f : Fn)
  | spdmNegotiateAlgorithms (f : Fn)
  | spdmGetDigests (f : Fn)
  | spdmGetCertificate (f : Fn) (slot : Fin 8)
  | spdmChallenge (f : Fn) (slot : Fin 8)
  | spdmGetMeasurements (f : Fn) (index : Fin 256)
  | spdmKeyExchange (f : Fn)
  | spdmFinish (f : Fn)
  | spdmKeyUpdate (f : Fn)
  | spdmHeartbeat (f : Fn)
  | spdmEndSession (f : Fn)
  | ideKmKeyProg (f : Fn) (stream : Fin 2)
  | ideKSetGo (f : Fn) (stream : Fin 2)
  | ideFail (stream : Fin 2)
  | watermarkRaise (acc : Acc) (k : WmKind) (v : Word)
  | watermarkLower (acc : Acc) (k : WmKind) (v : Word)
  | scrubDone (k : WmKind)
  | acquirePower (acc : Acc) (d : Dom)
  | releasePower (acc : Acc) (d : Dom)
  | acquireClock (acc : Acc) (d : Dom)
  | releaseClock (acc : Acc) (d : Dom)
  | deadmanKick (acc : Acc) (v : Word)
  | deadmanExpire
  | monitorDetect (k : Fin 9)
  | lockstepFault
  | cautionEnter (acc : Acc) (v : Word)
  | cautionExit (acc : Acc) (v : Word)
  | pairForm (f : Fn) (r : Ring) (partner : Option Partner)
  | pairLeave (f : Fn) (r : Ring)
  | pairSwap (f : Fn) (r : Ring)
  | formTimeout
  | bankerHot
  | swapTakeEffect
  | recDesc (h : RecHdr) (f : Fn) (r : Ring) (slot : Nat) (d : List Word) (tables : List MemIn)
  | recCommit (h : RecHdr) (id : Nat) (origin : CommitFrom) (anchor : Plat) (group : BitVec 16) (land : List (Plat × Nat × Nat))
  | recRestamp (h : RecHdr) (id : Nat) (land : Option (List (Plat × Nat × Nat)))
  | recWrite (h : RecHdr) (addr : Nat) (bytes : List Byte) (mask : BitVec 64)
  | recState (h : RecHdr) (item : StateItem)
  | recOut (h : RecHdr) (f : Fn) (r : Ring) (slot : Nat) (w : List Word)
  | recDone (h : RecHdr) (last : List (Fn × Ring × Nat × Nat))
  | recSig (h : RecHdr) (p : Plat) (r : Fin 16) (frame : Nat) (crc : Word) (subst landIn : Bool)
  | recMedia (h : RecHdr) (baselines : List (Panel × List Nat)) (pos : List (Stream × Nat))
  | recRaster (h : RecHdr) (leadDt : Nat) (rpos : List (Plat × Nat × Nat))
  | recAck (h : RecHdr) (upTo : Word) (rttNs : Nat)
  | recSync (h : RecHdr) (addr : Nat) (bytes : List Byte) (items : List StateItem) (last : Bool)
  | recReject (h : RecHdr) (theirs : BitVec 16)
  | doneRecordSend
  | rasterRecordSend
  | linkRetransmitTimeout
  | linkSilenceTimeout
  | heartbeatLost
  | takeoverDoorbellPoll
  | remapDone (acc : Acc) (v : Word)
  | aliveWrite (acc : Acc) (v : Word)
  | aliveTimeout
  | configDiverge (f : Fn) (flr : Bool)
  | partition (f : Fn) (r : Ring)
  | partitionWindowSubmit (acc : Acc) (v : Word)
  | ptSelWrite (acc : Acc) (v : Word)
  | fnCtrlDepart (f : Fn) (r : Ring)
  | fnCtrlQuiesce (f : Fn) (r : Ring)
  | quiesceDone (f : Fn)
  | quiesceTimeout (f : Fn)
  | fnCtrlResume (f : Fn) (r : Ring)
  | fnCtrlSave (f : Fn) (r : Ring)
  | fnCtrlRestore (f : Fn) (r : Ring) (blob : BlobIn) (m : MemIn)
  | fnCtrlDlStart (f : Fn) (r : Ring)
  | fnCtrlHarvest (f : Fn) (r : Ring)
  | fnCtrlDlStop (f : Fn) (r : Ring)
  | vfEnableSet (num : Fin 32)
  | vfEnableClear (num : Fin 32)
  | functionDeparted (f : Fn)
  | f0DepartureStart
  | mmuRootWrite (acc : Acc) (f : Fn) (v : Word)
  | invalidateFunction (acc : Acc) (v : Word)
  | invalidateRange (acc : Acc) (v : Word)
  | invalidateAll (acc : Acc) (v : Word)
  | invalidationDone
  | atsInvalidate (f : Fn) (iova : BitVec 64) (pages : Nat)
  | modeSetMode (f : Fn) (r : Ring)
  | modeDomain (f : Fn) (r : Ring)
  | modeHibernate (f : Fn) (r : Ring)
  | hibernateWake (c : WakeCause)
  | domainCtrlWrite (acc : Acc) (d : Dom) (v : Word)
  | pmuDepthDecision (d : Dom) (idle : Bool)
  | domainWake (d : Dom)
  | powerEstimate (mw : Nat)
  | thermalSample (tj10 : Int)
  | thermalWarn
  | thermalThrottle
  | thermalTrip
  | thermalCritical
  | bootStart
  | loaderLoad (acc : Acc) (v : Word)
  | imageVerifyDone (img : ImageInfo)
  | storeFormat (acc : Acc) (v : Word)
  | bootTimeout
  | fwStageLoad (f : Fn) (r : Ring) (img : ImageInfo)
  | fwStageDiscard (f : Fn) (r : Ring)
  | fwCutover (f : Fn) (r : Ring)
  | firmwareReady
  | cutoverTimeout
  | storeRwRead (f : Fn) (r : Ring)
  | storeRwWrite (f : Fn) (r : Ring) (m : MemIn)
  | storeRwDelete (f : Fn) (r : Ring)
  | storeRwInfo (f : Fn) (r : Ring)
  | storeWriteDone
  | storeCompaction
  | snapshot (f : Fn) (r : Ring)
  | snapshotDone
  | counterRead (acc : Acc)
  | eccCorrected (src : CeSource) (addr : Nat)
  | eccUncorrectable (src : EccSource) (addr : Nat) (mid : Mid) (partialWrite : Bool)
  | patrolScrub (src : EccSource)
  | errLogged
  | dispUpdate (be : BitVec 4) (d : Fin 8) (v : Word)
  | capture (d : Fin 8)
  | mdhShadowWrite (be : BitVec 4) (off v : Word)
  | softRst (be : BitVec 4) (v : Word)
  | softRstDone
  | extKeyWrite (acc : Acc) (v : Word)
  | apertureAccess (off : BitVec 28) (wr : Option (List Byte)) (len : Nat)
  | frameStart (p : Plat)
  | bootRunning
  | authenticationFail
  deriving DecidableEq, Repr

end Sys2Proof
end

