-- ==== Sys2Proof/Config.lean ====
section
/-! DEFINITION. What a part fixes for itself, and the values that the spec leaves open: constants without a body, so that
nothing can evaluate them and every claim holds whatever they are. -/

namespace Sys2Proof

/-- The grade fuse (R2): false is XZ16-AQ, true is XZ16-IN. -/
opaque Config.gradeIn : Bool

/-- The ROM version of PM_BOOT_STAT.ROM_VER (R438), a constant of the silicon. -/
opaque Config.romVer : BitVec 16

/-- A free value: one for each place that needs one (the counter Dev.freeCtr tells uses apart). -/
opaque Config.freeNat : Nat → Nat

/-- How strong the brake of an LRA is for its back-EMF, in 1/65536 (R319: proportional, by a factor that the spec does not give). -/
opaque Config.brakeGain : Nat

/-- The amplitude in mV at which an ERM is driven in reverse for a measured speed (R319 gives none). -/
opaque Config.ermBrake : Nat → Nat

/-- Does the host refuse the translation of a page that the device asks for, for a write of function n at a DT (R132 type 5)? -/
opaque Config.atsRefuses (n page dt : Nat) : Bool

/-- A byte of the body of a migration blob, by its number: R142 says what a body holds and not how it is laid out. -/
opaque Config.blobByte (key i : Nat) : Byte

/-- What the shading, the tests and the blending of primitive n of a pass make of a pixel, all samples of all attachments: shaders and
pipeline state are the SDK's (R156). -/
opaque Config.shade (key n x y : Nat) (vals : List Nat) : List Nat

/-- What the critical section of primitive n of a pass makes of a pixel in tile memory (R169): the samples of attachments that it
writes. -/
opaque Config.critical (key n x y : Nat) (vals : List Nat) : List Nat

/-- Is the critical section of primitive n before that of primitive m at a pixel and sample, in an unordered mode (R169)? -/
opaque Config.criticalBefore (key x y s n m : Nat) : Bool

/-- The interlock mode in a pipeline state object (R169), whose body the SDK documents. -/
opaque Config.interlock (ws : List (BitVec 32)) : Nat

/-- A pixel of an attachment that nothing gives a value. -/
opaque Config.freePixel (key i s x y : Nat) : Nat

/-- The field of w bits for the depth of a clear, an FP32 number other than 0.0 and 1.0: R154 gives no rounding and no range. -/
opaque Config.unormDepth (w : Nat) (fp : BitVec 32) : Nat

/-- A free byte. -/
opaque Config.freeByte : Nat → Byte

/-- How many segments a ROM effect of R317 has, less one modulo 63; the library is fixed for the part and not in the spec. -/
opaque Config.romSegs (n : Nat) : Nat

/-- Segment i of a ROM effect. -/
opaque Config.romSegment (n i : Nat) : BitVec 32

/-- Where a rule gives a quotient and states no rounding: is the exact value num / den, not whole, taken upwards? -/
opaque Config.roundsUp (num : Int) (den : Nat) : Bool

/-- The field of `width` bits that reports a number which it cannot hold. -/
opaque Config.outOfRange (v : Int) (width : Nat) : Nat

/-- The gain in 0.1 dB that a ramp linear in amplitude has reached after num of den of its way. -/
opaque Config.rampGain (from0 to0 : Int) (num den : Nat) : Int

/-- The wake time of OFF with its break-even time in ns: a full boot, whose length R428 does not give. -/
opaque Config.offNs : Nat

end Sys2Proof
end

