-- ==== Sys2Proof/Machine/Bits.lean ====
section
/-! DEFINITION. Bit fields, saturation, byte order and the little arithmetic that the meanings share. -/

namespace Sys2Proof.Machine

/-- A field of a register or a descriptor word: bits [hi:lo]. -/
abbrev Fld := Nat × Nat

/-- Bits [hi:lo] of a number. -/
def bitsN (n hi lo : Nat) : Nat := (n >>> lo) % 2 ^ (hi + 1 - lo)

/-- Bits [hi:lo] of a word, as a number. -/
def bits (w : Word) (hi lo : Nat) : Nat := bitsN w.toNat hi lo

/-- Bit k of a word. -/
def bit (w : Word) (k : Nat) : Bool := bits w k k == 1

/-- The mask of bits [hi:lo], as a number. -/
def maskN (hi lo : Nat) : Nat := (2 ^ (hi + 1 - lo) - 1) * 2 ^ lo

/-- The word with bits [hi:lo] replaced by v (taken modulo the field's width). -/
def putBits (w : Word) (hi lo : Nat) (v : Nat) : Word :=
  BitVec.ofNat 32 (w.toNat - bits w hi lo * 2 ^ lo + (v % 2 ^ (hi + 1 - lo)) * 2 ^ lo)

/-- Two words as a 64-bit number, the low word first (R96, R97). -/
def lo64 (l h : Word) : Nat := l.toNat + h.toNat * 2 ^ 32

/-- The low word of a number. -/
def loWord (n : Nat) : Word := BitVec.ofNat 32 n

/-- The high word of a number. -/
def hiWord (n : Nat) : Word := BitVec.ofNat 32 (n / 2 ^ 32)

/-- n limited to m: the saturating counters of the register tables. -/
def sat (n m : Nat) : Nat := if n ≤ m then n else m

/-- A two's complement field of w bits, as an integer. -/
def sext (n w : Nat) : Int := if n < 2 ^ (w - 1) then (n : Int) else (n : Int) - ((2 ^ w : Nat) : Int)

/-- An integer as a two's complement field of w bits, saturating. -/
def enc2 (i : Int) (w : Nat) : Nat :=
  let m : Int := ((2 ^ (w - 1) : Nat) : Int)
  let j := if i ≥ m then m - 1 else if i < -m then -m else i
  (if j < 0 then j + 2 * m else j).toNat

/-- Ceiling division. -/
def cdiv (a b : Nat) : Nat := (a + b - 1) / b

/-- Word k of a list of words; a word that is not there reads zero. -/
def wd (ws : List Word) (k : Nat) : Word := ws.getD k 0

/-- A 64-bit operand at words k and k + 1, the low word first (R97). -/
def wd64 (ws : List Word) (k : Nat) : Nat := lo64 (wd ws k) (wd ws (k + 1))

/-- The bytes of a number, little-endian (R10). -/
def leBytes : Nat → Nat → List Byte
  | 0, _ => []
  | n + 1, v => BitVec.ofNat 8 v :: leBytes n (v / 256)

/-- A little-endian number from bytes. -/
def leNat : List Byte → Nat
  | [] => 0
  | b :: bs => b.toNat + 256 * leNat bs

/-- The bytes of a list of words, little-endian. -/
def wordBytes (ws : List Word) : List Byte := ws.flatMap (fun w => leBytes 4 w.toNat)

/-- Does the sequence number a stand behind b, modulo 2^32 (R94)? -/
def seqOlder (a b : Nat) : Bool := decide ((a + 2 ^ 32 - b % 2 ^ 32) % 2 ^ 32 ≥ 2 ^ 31)

/-- Frame comparison of R51: f is later than g. -/
def frameLater (f g : Nat) : Bool :=
  let x := (f % 2 ^ 32 + 2 ^ 32 - g % 2 ^ 32) % 2 ^ 32
  decide (1 ≤ x) && decide (x < 2 ^ 31)

/-- One bit of a reflected CRC. -/
def crcBit (poly r : Nat) : Nat := if r % 2 = 1 then r / 2 ^^^ poly else r / 2

/-- One byte of a reflected 32-bit CRC. -/
def crcByte (poly r : Nat) (b : Byte) : Nat :=
  (List.range 8).foldl (fun x _ => crcBit poly x) (r ^^^ b.toNat)

/-- A reflected 32-bit CRC with initial value and final XOR 0xFFFF_FFFF. -/
def crc32 (poly : Nat) (bs : List Byte) : Nat := bs.foldl (crcByte poly) 0xFFFFFFFF ^^^ 0xFFFFFFFF

/-- CRC-32C: the Castagnoli polynomial. -/
def crc32c (bs : List Byte) : Nat := crc32 0x82F63B78 bs

/-- CRC-32 with the IEEE polynomial (R467). -/
def crc32ieee (bs : List Byte) : Nat := crc32 0xEDB88320 bs

/-- Is bit k set in a bit mask? -/
def hasBit (m k : Nat) : Bool := (m >>> k) % 2 == 1

/-- The numbers below n whose bit is set in a mask, rising. -/
def bitsOf (n m : Nat) : List Nat := (List.range n).filter (hasBit m)

/-- The mask of a list of numbers. -/
def maskOfList (ks : List Nat) : Nat := (ks.eraseDups.map (fun k => 2 ^ k)).sum

/-- How many bits of a mask are set below n. -/
def popN (n m : Nat) : Nat := (bitsOf n m).length

end Sys2Proof.Machine
end

