-- ==== Sys2Proof/Machine/Operands.lean ====
section
/-! DEFINITION. The operands of descriptors, bindings, ring table entries and partition entries, as the tables of R58, R86,
R97, R98 and R118 lay them out. -/

namespace Sys2Proof.Machine

/-! ### The common header (R97, R98) and the binding word (R58) -/

/-- OPCODE. -/
def opcodeOf (ws : List Word) : Nat := bits (wd ws 0) 7 0

/-- FLAGS. -/
def flagsOf (ws : List Word) : Nat := bits (wd ws 0) 15 8

/-- TAG. -/
def tagOf (ws : List Word) : Nat := bits (wd ws 0) 31 16

/-- CHAIN. -/
def chainOf (ws : List Word) : Bool := hasBit (flagsOf ws) 0

/-- STRICT. -/
def strictOf (ws : List Word) : Bool := hasBit (flagsOf ws) 1

/-- IRQ. -/
def irqOf (ws : List Word) : Bool := hasBit (flagsOf ws) 2

/-- BARRIER. -/
def barrierOf (ws : List Word) : Bool := hasBit (flagsOf ws) 3

/-- The binding word. -/
def bindWord (ws : List Word) : Word := wd ws 1

/-- COOKIE. -/
def cookieOf (ws : List Word) : Nat := wd64 ws 2

/-- The word of a descriptor at a byte offset. -/
def at4 (ws : List Word) (off : Nat) : Word := wd ws (off / 4)

/-- The 64-bit operand of a descriptor at a byte offset. -/
def at8 (ws : List Word) (off : Nat) : Nat := wd64 ws (off / 4)

/-- The words of a descriptor from a byte offset on, n of them. -/
def atN (ws : List Word) (off n : Nat) : List Word := (List.range n).map (fun k => wd ws (off / 4 + k))

/-- Are all words of a descriptor from byte offset a up to byte offset b (exclusive) zero? -/
def zeroFrom (ws : List Word) (a b : Nat) : Bool := (atN ws a ((b - a) / 4)).all (fun w => w == 0)

/-- Are bits [hi:lo] of the word at a byte offset zero? -/
def zeroBits (ws : List Word) (off hi lo : Nat) : Bool := bits (at4 ws off) hi lo == 0

/-! ### The status codes (R112) -/

def stOK : Nat := 0x00
def stDEFERRED : Nat := 0x01
def stERR_DOWN : Nat := 0x02
def stERR_PERM : Nat := 0x03
def stERR_FAULT : Nat := 0x04
def stERR_ECC : Nat := 0x05
def stABORTED : Nat := 0x06
def stFENCED : Nat := 0x07
def stLATE : Nat := 0x08
def stBAD_DESC : Nat := 0x09
def stNO_RESOURCE : Nat := 0x0A
def stLOST : Nat := 0x0B
def stSUPERSEDED : Nat := 0x0C

/-! ### The causes of the error log (R487) -/

def ecPARTIAL_WRITE : Nat := 0x01
def ecLOCKED : Nat := 0x02
def ecSECURE_ACCESS : Nat := 0x03
def ecRESERVED_ENCODING : Nat := 0x04
def ecUNOCCUPIED : Nat := 0x05
def ecBUSY : Nat := 0x06
def ecOUT_OF_RANGE : Nat := 0x07
def ecNOT_PERMITTED : Nat := 0x08
def ecCONFLICT : Nat := 0x09
def ecBAD_SEQUENCE : Nat := 0x0A
def ecPOSTHUMOUS : Nat := 0x0B
def ecECC_UE : Nat := 0x0C
def ecBOOT_STRAP : Nat := 0x0D

/-! ### Event classes (R108) -/

def clRING : Nat := 0
def clTIMETABLE : Nat := 1
def clCOMMIT : Nat := 2
def clBUFFER : Nat := 3
def clRASTER : Nat := 4
def clTOUCH : Nat := 5
def clHAPTIC : Nat := 6
def clAUDIO : Nat := 7
def clBELL : Nat := 8
def clSAFETY : Nat := 9
def clFUNCTION : Nat := 10
def clPAIR : Nat := 11
def clPOWER : Nat := 12
def clERROR : Nat := 13

/-- Byte k of an event payload holding v. -/
def pb (k v : Nat) : Nat := (v % 256) * 256 ^ k

/-- Bytes k and k + 1 of a payload. -/
def pw16 (k v : Nat) : Nat := (v % 65536) * 256 ^ k

/-- Bytes k to k + 3 of a payload. -/
def pw32 (k v : Nat) : Nat := (v % 2 ^ 32) * 256 ^ k

/-- Bytes k to k + 5 of a payload: a 48-bit DT. -/
def pw48 (k v : Nat) : Nat := (v % 2 ^ 48) * 256 ^ k

/-- Bytes k to k + 7 of a payload. -/
def pw64 (k v : Nat) : Nat := (v % 2 ^ 64) * 256 ^ k

/-! ### The modes (R4) -/

def mHER : Nat := 0
def mEXP : Nat := 1
def mICY : Nat := 2
def mFRT : Nat := 3
def mSTP : Nat := 4
def mCAU : Nat := 5

/-! ### Master identities of the on-chip masters (R23) -/

def midSEC : Nat := 0x24
def midSI : Nat := 0x25
def midTOUCH : Nat := 0x28
def midHAPTIC : Nat := 0x29
def midAUDIO : Nat := 0x2A
def midRASTER : Nat := 0x2C
def midCOMPOSE : Nat := 0x48
def midSCANOUT : Nat := 0x4A
def midPAIR : Nat := 0x50

end Sys2Proof.Machine
end

