-- ==== Sys2Proof/Machine/RegTable.lean ====
section
/-! DEFINITION. The register table: every register of BAR0, with its place, its fields, their access types and reset
values (R10, R18), and the resets that restore it. Each row is one register table of spec/. -/

namespace Sys2Proof.Machine

/-- The access types of R10. -/
inductive RAcc where
  | rw | ro | wo | w1c | w1s | rc | ra | rwl | rws
  deriving DecidableEq, Repr

/-- A reset value: a number, or one that the spec computes from the register's place, the grade or the boot. -/
inductive RVal where
  | lit (n : Nat)
  | grade | strap | image | rom | index
  | clState | clSlot
  | toneCrc | lutCrc
  | stitch | layer | guardW
  | bank (hi : Nat)
  | skRes | panel | eq
  | tj (d : Int)
  deriving DecidableEq, Repr

/-- The reset types that a register table lists (R17, R18). `d14` is the domain reset of PD14, `fn` the function reset of
the register's own function, `fn0` that of F0; `store` marks what is restored from the persistent store (R199). -/
inductive RTag where
  | cold | warm | tt | raster | compose | scanout | media | pair | d14 | fn | fn0 | store
  deriving DecidableEq, Repr

/-- Who may write a register: any master, the safety island alone (R391), the secure world alone (R14), or in Heritage
through the extension window (R469). -/
inductive RWorld where
  | any | island | secure | extension
  deriving DecidableEq, Repr

/-- A field: its name, bits, access type, reset value, and reserved encodings (R16). -/
structure RFld where
  name : String
  hi : Nat
  lo : Nat
  acc : RAcc
  rst : RVal
  bad : List Nat
  deriving DecidableEq, Repr

/-- A register, or an array of them: `dims` holds (stride, count) from the outermost index in; `lock` is the bit of
GL_LOCK that its RWL fields obey (R13). -/
structure RRow where
  name : String
  base : Nat
  dims : List (Nat × Nat)
  tags : List RTag
  staged : Bool
  lock : Option Nat
  world : RWorld
  fields : List RFld
  deriving DecidableEq, Repr

/-- Registers of GL (01 R1; 01 R13; 01 R2; 01 R27; 01 R28; 01 R4; 01 R40; 17 R469). -/
def rowsGL : List RRow := [
  ⟨"GL_DEV_REV", 0x0, [], [], false, none, .any,
    [⟨"MAJOR", 7, 4, .ro, (.lit 0xB), []⟩,
     ⟨"MINOR", 3, 0, .ro, (.lit 0), []⟩]⟩,
  ⟨"GL_DEV_ID", 0x4, [], [], false, none, .any,
    [⟨"PART", 31, 16, .ro, (.lit 0x16), []⟩,
     ⟨"GRADE", 15, 8, .ro, (.grade), []⟩,
     ⟨"PERSONALITY", 0, 0, .ro, (.strap), []⟩]⟩,
  ⟨"GL_MODE", 0x10, [], [.cold, .warm], false, none, .any,
    [⟨"PENDING", 11, 11, .ro, (.lit 0), []⟩,
     ⟨"PENDING_MODE", 10, 8, .ro, (.lit 0), []⟩,
     ⟨"FENCED", 6, 6, .ro, (.lit 0), []⟩,
     ⟨"ROLE", 5, 5, .ro, (.lit 0), []⟩,
     ⟨"FORMATION", 4, 4, .ro, (.lit 0), []⟩,
     ⟨"MODE", 2, 0, .ro, (.lit 2), []⟩]⟩,
  ⟨"GL_LOCK", 0x20, [], [.cold], false, none, .any,
    [⟨"SO", 5, 5, .w1s, (.lit 0), []⟩,
     ⟨"BL", 4, 4, .w1s, (.lit 0), []⟩,
     ⟨"CM", 3, 3, .w1s, (.lit 0), []⟩,
     ⟨"SK", 2, 2, .w1s, (.lit 0), []⟩,
     ⟨"MM", 1, 1, .w1s, (.lit 0), []⟩,
     ⟨"HS", 0, 0, .w1s, (.lit 0), []⟩]⟩,
  ⟨"GL_SECT_RST", 0x24, [], [.cold, .warm], false, none, .any,
    [⟨"PAIR", 5, 5, .w1s, (.lit 0), []⟩,
     ⟨"MEDIA", 4, 4, .w1s, (.lit 0), []⟩,
     ⟨"SCANOUT", 3, 3, .w1s, (.lit 0), []⟩,
     ⟨"COMPOSE", 2, 2, .w1s, (.lit 0), []⟩,
     ⟨"RASTER", 1, 1, .w1s, (.lit 0), []⟩,
     ⟨"TT", 0, 0, .w1s, (.lit 0), []⟩]⟩,
  ⟨"GL_STAGE_COMMIT", 0x28, [], [.cold, .warm], false, none, .any,
    [⟨"BUSY", 31, 31, .ro, (.lit 0), []⟩,
     ⟨"ANCHOR", 19, 16, .rw, (.lit 0), []⟩,
     ⟨"GROUP", 15, 0, .rw, (.lit 0), []⟩]⟩,
  ⟨"GL_EXT_KEY", 0x30, [], [], false, none, .extension,
    [⟨"KEY", 31, 0, .wo, (.lit 0), []⟩]⟩,
  ⟨"GL_EXT_STAT", 0x34, [], [.cold, .warm, .fn0], false, none, .extension,
    [⟨"STATE", 0, 0, .ro, (.lit 0), []⟩]⟩,
  ⟨"GL_LAND_FRAME_Pn", 0x100, [(8, 16)], [.cold, .warm, .tt], false, none, .any,
    [⟨"FRAME", 31, 0, .ro, (.lit 0), []⟩]⟩,
  ⟨"GL_LAND_LINE_Pn", 0x104, [(8, 16)], [.cold, .warm, .tt], false, none, .any,
    [⟨"COUNT", 31, 16, .ro, (.lit 0), []⟩,
     ⟨"LINE", 15, 0, .ro, (.lit 0), []⟩]⟩]

/-- Registers of TT (02 R49; 02 R50; 02 R514; 02 R60; 02 R68). -/
def rowsTTA : List RRow := [
  ⟨"TT_CTRL", 0x10000, [], [.cold, .warm, .tt], false, none, .any,
    [⟨"LATE_EVT", 1, 1, .rw, (.lit 1), []⟩,
     ⟨"DEFER_EVT", 0, 0, .rw, (.lit 1), []⟩]⟩,
  ⟨"TT_DT_LO", 0x10008, [], [.cold], false, none, .any,
    [⟨"DT_LO", 31, 0, .ro, (.lit 0), []⟩]⟩,
  ⟨"TT_DT_HI", 0x1000C, [], [.cold], false, none, .any,
    [⟨"DT_HI", 31, 0, .ro, (.lit 0), []⟩]⟩,
  ⟨"TT_STATUS", 0x10010, [], [.cold, .warm, .tt], false, none, .any,
    [⟨"DEFERRALS", 31, 16, .rc, (.lit 0), []⟩,
     ⟨"ARMED_HWM", 14, 8, .rc, (.lit 0), []⟩,
     ⟨"ARMED", 6, 0, .ro, (.lit 0), []⟩]⟩,
  ⟨"TT_CP_SEL", 0x10020, [], [.cold, .warm], false, none, .any,
    [⟨"INDEX", 9, 0, .rw, (.lit 0), []⟩]⟩,
  ⟨"TT_CP_Wk", 0x10040, [(4, 7)], [], false, none, .any,
    [⟨"WORD", 31, 0, .rw, (.lit 0), []⟩]⟩,
  ⟨"TT_CP_W7", 0x1005C, [], [], false, none, .any,
    [⟨"STATUS", 31, 0, .ro, (.lit 0), []⟩]⟩,
  ⟨"TT_CONV_LINE", 0x10080, [], [.cold, .warm, .tt], false, none, .any,
    [⟨"PLATFORM", 19, 16, .rw, (.lit 0), []⟩,
     ⟨"LINE", 15, 0, .rw, (.lit 0), []⟩]⟩,
  ⟨"TT_CONV_FRAME", 0x10084, [], [.cold, .warm, .tt], false, none, .any,
    [⟨"FRAME", 31, 0, .rw, (.lit 0), []⟩]⟩,
  ⟨"TT_CONV_DT_LO", 0x10088, [], [.cold, .warm, .tt], false, none, .any,
    [⟨"DT_LO", 31, 0, .ro, (.lit 0), []⟩]⟩,
  ⟨"TT_CONV_DT_HI", 0x1008C, [], [.cold, .warm, .tt], false, none, .any,
    [⟨"DT_HI", 31, 0, .ro, (.lit 0), []⟩]⟩,
  ⟨"TT_RPOS_FRAME_Pn", 0x10100, [(16, 16)], [.cold], false, none, .any,
    [⟨"FRAME", 31, 0, .ro, (.lit 0), []⟩]⟩]

/-- Registers of TT (02 R50; 02 R76). -/
def rowsTTB : List RRow := [
  ⟨"TT_RPOS_LINE_Pn", 0x10104, [(16, 16)], [.cold], false, none, .any,
    [⟨"VIRTUAL", 31, 31, .ro, (.lit 0), []⟩,
     ⟨"NOTIMING", 30, 30, .ro, (.lit 1), []⟩,
     ⟨"LINE", 29, 16, .ro, (.lit 0), []⟩,
     ⟨"PIXEL", 15, 0, .ro, (.lit 0), []⟩]⟩,
  ⟨"TT_RPOS_DT_LO_Pn", 0x10108, [(16, 16)], [.cold], false, none, .any,
    [⟨"DT_LO", 31, 0, .ro, (.lit 0), []⟩]⟩,
  ⟨"TT_RPOS_DT_HI_Pn", 0x1010C, [(16, 16)], [.cold], false, none, .any,
    [⟨"DT_HI", 31, 0, .ro, (.lit 0), []⟩]⟩,
  ⟨"TT_FL_CTRL_Pn", 0x10200, [(8, 16)], [.cold, .warm], false, none, .any,
    [⟨"EN", 31, 31, .rw, (.lit 0), []⟩,
     ⟨"JUMP", 30, 30, .rw, (.lit 0), []⟩,
     ⟨"SRC", 29, 28, .rw, (.lit 0), []⟩,
     ⟨"REF", 27, 24, .rw, (.lit 0), []⟩,
     ⟨"MUL", 23, 22, .rw, (.lit 0), []⟩,
     ⟨"DIV", 21, 20, .rw, (.lit 0), []⟩,
     ⟨"OFFSET", 15, 0, .rw, (.lit 0), []⟩]⟩,
  ⟨"TT_FL_STAT_Pn", 0x10204, [(8, 16)], [.cold, .warm], false, none, .any,
    [⟨"STATE", 31, 30, .ro, (.lit 0), []⟩,
     ⟨"RANGE", 29, 29, .w1c, (.lit 0), []⟩,
     ⟨"ERROR", 23, 0, .ro, (.lit 0), []⟩]⟩,
  ⟨"TT_FL_PIN", 0x10300, [], [.cold, .warm], false, none, .any,
    [⟨"OUT_EN", 15, 15, .rw, (.lit 0), []⟩,
     ⟨"OUT_POL", 14, 14, .rw, (.lit 0), []⟩,
     ⟨"OUT_SRC", 13, 10, .rw, (.lit 0), []⟩,
     ⟨"OUT_WIDTH", 9, 6, .rw, (.lit 0), []⟩,
     ⟨"IN_POL", 5, 5, .rw, (.lit 0), []⟩]⟩]

/-- Registers of HS (03 R92; 04 R121; 04 R129; 04 R136). -/
def rowsHS : List RRow := [
  ⟨"HS_KICK", 0x20000, [], [], false, none, .any,
    [⟨"OP", 31, 30, .wo, (.lit 0), []⟩,
     ⟨"RING", 4, 0, .wo, (.lit 0), []⟩]⟩,
  ⟨"HS_FCB_LO", 0x20008, [], [.cold, .warm, .fn0], false, none, .any,
    [⟨"ADDR_LO", 31, 12, .rw, (.lit 0), []⟩]⟩,
  ⟨"HS_FCB_HI", 0x2000C, [], [.cold, .warm, .fn0], false, none, .any,
    [⟨"ADDR_HI", 31, 0, .rw, (.lit 0), []⟩]⟩,
  ⟨"HS_PT_SEL", 0x20100, [], [.cold, .warm], false, none, .any,
    [⟨"FN", 4, 0, .rw, (.lit 0), []⟩]⟩,
  ⟨"HS_PT_Wk", 0x20140, [(4, 16)], [], false, none, .any,
    [⟨"WORD", 31, 0, .rwl, (.lit 0), []⟩]⟩,
  ⟨"HS_PT_STAT", 0x20180, [], [.cold, .warm], false, none, .any,
    [⟨"BUSY", 31, 31, .ro, (.lit 0), []⟩,
     ⟨"LAST", 23, 16, .ro, (.lit 0), []⟩]⟩,
  ⟨"HS_TP_CTRL", 0x20184, [], [.cold, .warm], false, none, .any,
    [⟨"EN", 31, 31, .rw, (.lit 0), []⟩,
     ⟨"ACTIVE", 30, 30, .ro, (.lit 0), []⟩,
     ⟨"REF", 3, 0, .rw, (.lit 0), []⟩]⟩,
  ⟨"HS_FN_STATE0", 0x20190, [], [.cold, .warm], false, none, .any,
    [⟨"F15_F0", 31, 0, .ro, (.lit 1), []⟩]⟩,
  ⟨"HS_FN_STATE1", 0x20194, [], [.cold, .warm], false, none, .any,
    [⟨"F31_F16", 31, 0, .ro, (.lit 0), []⟩]⟩]

/-- Registers of MM (04 R133; 04 R134). -/
def rowsMM : List RRow := [
  ⟨"MM_ROOT_LO_Fn", 0x30000, [(16, 32)], [.cold, .warm, .fn], false, none, .any,
    [⟨"ROOT_LO", 31, 12, .rw, (.lit 0), []⟩]⟩,
  ⟨"MM_ROOT_HI_Fn", 0x30004, [(16, 32)], [.cold, .warm, .fn], false, none, .any,
    [⟨"ROOT_HI", 31, 0, .rw, (.lit 0), []⟩]⟩,
  ⟨"MM_CTRL_Fn", 0x30008, [(16, 32)], [.cold, .warm, .fn], false, some 1, .any,
    [⟨"SELF", 1, 1, .rwl, (.lit 0), []⟩,
     ⟨"EN", 0, 0, .rw, (.lit 0), []⟩]⟩,
  ⟨"MM_TBL_BASE_LO", 0x30200, [], [.cold], false, some 1, .any,
    [⟨"BASE", 31, 0, .rwl, (.lit 0), []⟩]⟩,
  ⟨"MM_TBL_BASE_HI", 0x30204, [], [.cold], false, some 1, .any,
    [⟨"BASE", 31, 0, .rwl, (.lit 0), []⟩]⟩,
  ⟨"MM_TBL_LIMIT_LO", 0x30208, [], [.cold], false, some 1, .any,
    [⟨"LIMIT", 31, 0, .rwl, (.lit 0), []⟩]⟩,
  ⟨"MM_TBL_LIMIT_HI", 0x3020C, [], [.cold], false, some 1, .any,
    [⟨"LIMIT", 31, 0, .rwl, (.lit 0), []⟩]⟩,
  ⟨"MM_INVAL", 0x30210, [], [], false, none, .any,
    [⟨"SCOPE", 31, 30, .wo, (.lit 0), [3]⟩,
     ⟨"PAGES", 29, 13, .wo, (.lit 0), []⟩,
     ⟨"FN", 4, 0, .wo, (.lit 0), []⟩]⟩,
  ⟨"MM_INVAL_ADDR_LO", 0x30214, [], [.cold, .warm], false, none, .any,
    [⟨"ADDR", 31, 0, .rw, (.lit 0), []⟩]⟩,
  ⟨"MM_INVAL_ADDR_HI", 0x30218, [], [.cold, .warm], false, none, .any,
    [⟨"ADDR", 31, 0, .rw, (.lit 0), []⟩]⟩,
  ⟨"MM_INVAL_STAT", 0x3021C, [], [.cold, .warm], false, none, .any,
    [⟨"DONE", 0, 0, .ro, (.lit 1), []⟩]⟩]

/-- Registers of GX (05 R156; 05 R167; 05 R176; 05 R184; 06 R177; 06 R183; 06 R185; 06 R186; 06 R197; 06 R198; 06 R200). -/
def rowsGXA : List RRow := [
  ⟨"GX_CTRL", 0x40000, [], [.cold, .warm, .raster], false, none, .any,
    [⟨"SPLIT_EVT", 1, 1, .rw, (.lit 0), []⟩,
     ⟨"SIDING_EVT", 0, 0, .rw, (.lit 1), []⟩]⟩,
  ⟨"GX_STATUS", 0x40004, [], [.cold, .warm, .raster], false, none, .any,
    [⟨"JOBS", 24, 16, .ro, (.lit 0), []⟩,
     ⟨"GPU_MHZ", 10, 0, .ro, (.lit 1100), []⟩]⟩,
  ⟨"GX_LIMITS", 0x40008, [], [], false, none, .any,
    [⟨"OBJ_VERSION", 31, 24, .ro, (.image), []⟩,
     ⟨"MAX_DIM", 14, 0, .ro, (.lit 16384), []⟩]⟩,
  ⟨"GX_TM_ECC", 0x40010, [], [.cold, .warm, .raster], false, none, .any,
    [⟨"CORRECTED", 31, 16, .rc, (.lit 0), []⟩,
     ⟨"CLUSTER", 4, 0, .ro, (.lit 0), []⟩]⟩,
  ⟨"GX_SCHED_CTRL", 0x40100, [], [.cold, .warm, .raster], false, none, .any,
    [⟨"BUDGET_PLAT", 23, 20, .rw, (.lit 0), []⟩,
     ⟨"BUDGET_EVT", 16, 16, .rw, (.lit 1), []⟩]⟩,
  ⟨"GX_EXP_CTRL", 0x40104, [], [.cold, .warm, .raster], false, none, .any,
    [⟨"RES_OTHER", 31, 16, .rw, (.lit 0), []⟩,
     ⟨"RES_EXP", 15, 0, .rw, (.lit 3), []⟩]⟩,
  ⟨"GX_EXP_LEAD", 0x40108, [], [.cold, .warm, .raster], false, none, .any,
    [⟨"RESERVE_US", 15, 0, .rw, (.lit 0xFFFF), []⟩]⟩,
  ⟨"GX_CLMAP_g", 0x40110, [(4, 4)], [.store], false, none, .any,
    [⟨"SPARE", 14, 12, .ro, (.lit 4), []⟩,
     ⟨"SLOT3", 11, 9, .ro, (.lit 3), []⟩,
     ⟨"SLOT2", 8, 6, .ro, (.lit 2), []⟩,
     ⟨"SLOT1", 5, 3, .ro, (.lit 1), []⟩,
     ⟨"SLOT0", 2, 0, .ro, (.lit 0), []⟩]⟩,
  ⟨"GX_CL_STAT_n", 0x40120, [(4, 20)], [.store], false, none, .any,
    [⟨"STATE", 31, 30, .ro, (.clState), []⟩,
     ⟨"CAUSE", 29, 27, .ro, (.lit 0), []⟩,
     ⟨"SLOT", 24, 20, .ro, (.clSlot), []⟩,
     ⟨"DEATHS", 15, 0, .ro, (.lit 0), []⟩]⟩,
  ⟨"GX_BIST", 0x40180, [], [.cold, .warm], false, none, .any,
    [⟨"START", 31, 31, .w1s, (.lit 0), []⟩,
     ⟨"RESULT", 30, 29, .ro, (.lit 0), []⟩,
     ⟨"CLUSTER", 4, 0, .rw, (.lit 0), [20, 21, 22, 23, 24, 25, 26, 27, 28, 29, 30, 31]⟩]⟩,
  ⟨"GX_POST_CNT", 0x40190, [], [.cold, .warm], false, none, .any,
    [⟨"COUNT", 31, 0, .rc, (.lit 0), []⟩]⟩,
  ⟨"GX_POST_LAST", 0x40194, [], [.cold, .warm], false, none, .any,
    [⟨"MID", 31, 24, .ro, (.lit 0), []⟩,
     ⟨"WR", 0, 0, .ro, (.lit 0), []⟩]⟩]

/-- Registers of GX (05 R146; 06 R197). -/
def rowsGXB : List RRow := [
  ⟨"GX_POST_DT_LO", 0x40198, [], [.cold, .warm], false, none, .any,
    [⟨"DT_LO", 31, 0, .ro, (.lit 0), []⟩]⟩,
  ⟨"GX_POST_DT_HI", 0x4019C, [], [.cold, .warm], false, none, .any,
    [⟨"DT_HI", 31, 0, .ro, (.lit 0), []⟩]⟩,
  ⟨"GX_CTX_STAT_n", 0x41000, [(4, 256)], [.cold, .warm, .raster], false, none, .any,
    [⟨"STATE", 31, 30, .ro, (.lit 0), []⟩,
     ⟨"EXPRESS", 29, 29, .ro, (.lit 0), []⟩,
     ⟨"POOL", 28, 28, .ro, (.lit 0), []⟩,
     ⟨"SIDING", 27, 27, .ro, (.lit 0), []⟩,
     ⟨"SCRATCH", 26, 26, .ro, (.lit 0), []⟩,
     ⟨"OWNER", 23, 16, .ro, (.lit 0), []⟩,
     ⟨"QUEUED", 8, 0, .ro, (.lit 0), []⟩]⟩]

/-- Registers of CM (07 R220; 07 R228; 07 R230; 07 R232; 07 R235; 07 R236). -/
def rowsCMA : List RRow := [
  ⟨"CM_CTRL", 0x80000, [], [.cold, .warm], false, none, .any,
    [⟨"EXP_H", 16, 16, .rw, (.lit 0), []⟩,
     ⟨"LATE_CHK", 15, 8, .rw, (.lit 8), []⟩,
     ⟨"LATE_LANES", 2, 0, .rw, (.lit 2), [5, 6, 7]⟩]⟩,
  ⟨"CM_STATUS", 0x80004, [], [.cold, .warm, .compose], false, none, .any,
    [⟨"FALLBACK", 31, 24, .rc, (.lit 0), []⟩,
     ⟨"RECOMPOSED", 23, 16, .rc, (.lit 0), []⟩,
     ⟨"STAGE_STATUS", 15, 8, .ro, (.lit 0), []⟩,
     ⟨"SI_STATUS", 7, 0, .ro, (.lit 0), []⟩]⟩,
  ⟨"CM_SI_LAYERS_LO", 0x80010, [], [.cold], false, some 3, .any,
    [⟨"LAYERS", 31, 0, .rwl, (.lit 0), []⟩]⟩,
  ⟨"CM_SI_LAYERS_HI", 0x80014, [], [.cold], false, some 3, .any,
    [⟨"LAYERS", 31, 0, .rwl, (.lit 0), []⟩]⟩,
  ⟨"CM_CC3_AUTH", 0x80018, [], [.cold], false, none, .island,
    [⟨"FN", 31, 0, .rw, (.lit 0), []⟩]⟩,
  ⟨"CM_SI_COMMIT", 0x8001C, [], [.cold, .warm], false, none, .island,
    [⟨"BUSY", 31, 31, .ro, (.lit 0), []⟩,
     ⟨"ANCHOR", 19, 16, .rw, (.lit 0), []⟩,
     ⟨"GROUP", 15, 0, .rw, (.lit 0), []⟩]⟩,
  ⟨"CM_FRT_BASE_LO", 0x80020, [], [.cold], false, some 3, .any,
    [⟨"BASE", 31, 16, .rwl, (.lit 0), []⟩]⟩,
  ⟨"CM_FRT_BASE_HI", 0x80024, [], [.cold], false, some 3, .any,
    [⟨"BASE", 31, 0, .rwl, (.lit 0), []⟩]⟩,
  ⟨"CM_FRT_SIZE", 0x80028, [], [.cold], false, some 3, .any,
    [⟨"SIZE", 31, 0, .rwl, (.lit 0), []⟩]⟩,
  ⟨"CM_PLAT_Pn_W0", 0x80100, [(64, 16)], [.cold, .warm], true, none, .any,
    [⟨"PLATFORM", 27, 24, .ro, (.index), []⟩,
     ⟨"OUT_TF", 23, 20, .rw, (.lit 1), [6, 7, 8, 9, 10, 11, 12, 13, 14, 15]⟩,
     ⟨"DITHER", 19, 18, .rw, (.lit 0), [3]⟩,
     ⟨"LUT_EN", 17, 17, .rw, (.lit 0), []⟩,
     ⟨"TONE_LOAD", 16, 16, .rw, (.lit 0), []⟩,
     ⟨"LUT_LOAD", 15, 15, .rw, (.lit 0), []⟩,
     ⟨"CLEAR_PATCHES", 14, 14, .rw, (.lit 0), []⟩,
     ⟨"WHITE_NITS", 13, 0, .rw, (.lit 203), []⟩]⟩,
  ⟨"CM_PLAT_Pn_BG", 0x80104, [(64, 16)], [.cold, .warm], true, none, .any,
    [⟨"BACKGROUND", 29, 0, .rw, (.lit 0), []⟩]⟩,
  ⟨"CM_PLAT_Pn_DEP", 0x80108, [(64, 16)], [.cold, .warm], true, none, .any,
    [⟨"DEPARTURE", 29, 0, .rw, (.lit 0), []⟩]⟩]

/-- Registers of CM (07 R206; 07 R217; 07 R220; 07 R221; 07 R224; 07 R227; 07 R228; 07 R236). -/
def rowsCMB : List RRow := [
  ⟨"CM_PLAT_Pn_LATE", 0x8010C, [(64, 16)], [.cold, .warm], true, none, .any,
    [⟨"LATE", 29, 0, .rw, (.lit 0), []⟩]⟩,
  ⟨"CM_PLAT_Pn_W4_7", 0x80110, [(64, 16), (4, 4)], [.cold, .warm], true, none, .any,
    [⟨"ADDR", 31, 0, .rw, (.lit 0), []⟩]⟩,
  ⟨"CM_PLAT_Pn_CRC_TONE", 0x80120, [(64, 16)], [.cold, .warm], false, none, .any,
    [⟨"CRC", 31, 0, .ro, (.toneCrc), []⟩]⟩,
  ⟨"CM_PLAT_Pn_CRC_LUT", 0x80124, [(64, 16)], [.cold, .warm], false, none, .any,
    [⟨"CRC", 31, 0, .ro, (.lutCrc), []⟩]⟩,
  ⟨"CM_GD_OWN_Pn", 0x80600, [(16, 16), (4, 4)], [.cold], false, some 3, .any,
    [⟨"OWN", 31, 0, .rwl, (.lit 0), []⟩]⟩,
  ⟨"CM_STITCH_Pn", 0x80800, [(64, 16), (4, 10)], [.cold, .warm, .compose], true, none, .any,
    [⟨"WORD", 31, 0, .rw, (.stitch), []⟩]⟩,
  ⟨"CM_LAYER_k", 0x81000, [(64, 64), (4, 12)], [.cold, .warm, .compose], true, none, .any,
    [⟨"WORD", 31, 0, .rw, (.layer), []⟩]⟩,
  ⟨"CM_LAYER_k_LSTAT", 0x81030, [(64, 64)], [.cold, .warm, .compose], false, none, .any,
    [⟨"STATE", 31, 30, .ro, (.lit 0), []⟩,
     ⟨"EFF_CC", 29, 28, .ro, (.lit 0), []⟩,
     ⟨"FAULTED", 27, 27, .ro, (.lit 0), []⟩,
     ⟨"OWNER", 7, 0, .ro, (.lit 0), []⟩]⟩,
  ⟨"CM_GUARD_Pn_r", 0x82000, [(256, 16), (16, 16), (4, 4)], [.cold, .warm, .compose], true, none, .any,
    [⟨"WORD", 31, 0, .rw, (.guardW), []⟩]⟩,
  ⟨"CM_SCB_k_b", 0x90000, [(4096, 16), (2048, 2), (4, 448)], [.cold, .warm, .compose], false, none, .any,
    [⟨"HI", 25, 16, .rw, (.bank 1), []⟩,
     ⟨"LO", 9, 0, .rw, (.bank 0), []⟩]⟩]

/-- Registers of BF and SK (08 R252; 08 R254; 08 R255; 08 R256; 14 R382; 14 R383). -/
def rowsBF_SK : List RRow := [
  ⟨"BF_STATUS", 0xA0004, [], [.cold, .warm], false, none, .any,
    [⟨"FAULTS", 31, 24, .rc, (.lit 0), []⟩,
     ⟨"LBC_BAD", 23, 16, .rc, (.lit 0), []⟩,
     ⟨"ENTRIES", 13, 0, .ro, (.lit 0), []⟩]⟩,
  ⟨"SK_RES_n", 0xA1000, [(4, 8)], [.cold, .warm], false, some 2, .any,
    [⟨"BLOCKS", 13, 0, .rwl, (.skRes), []⟩]⟩,
  ⟨"SK_USE_n", 0xA1040, [(4, 8)], [.cold, .warm], false, none, .any,
    [⟨"IN_USE", 29, 16, .ro, (.lit 0), []⟩,
     ⟨"LENT", 13, 0, .ro, (.lit 0), []⟩]⟩,
  ⟨"SK_STATUS", 0xA1080, [], [.cold, .warm], false, none, .any,
    [⟨"COMMON_FREE", 29, 16, .ro, (.lit 3008), []⟩,
     ⟨"RECLAIMS", 15, 8, .rc, (.lit 0), []⟩]⟩,
  ⟨"SK_SEC_WM", 0xA1084, [], [.cold], false, none, .secure,
    [⟨"WM", 12, 0, .rws, (.lit 0), []⟩]⟩,
  ⟨"SK_SEC_SCRUB", 0xA1088, [], [], false, none, .secure,
    [⟨"TARGET", 12, 0, .wo, (.lit 0), []⟩]⟩,
  ⟨"SK_SEC_STAT", 0xA108C, [], [.cold, .warm], false, none, .any,
    [⟨"BUSY", 31, 31, .ro, (.lit 0), []⟩]⟩]

/-- Registers of SO (09 R259; 09 R265; 09 R267; 09 R271; 09 R272; 09 R274; 09 R276). -/
def rowsSOA : List RRow := [
  ⟨"SO_STATUS", 0xC0004, [], [.cold, .warm], false, none, .any,
    [⟨"RATE_MHZ", 28, 16, .ro, (.lit 0), []⟩,
     ⟨"STAGE_STATUS", 7, 0, .ro, (.lit 0), []⟩]⟩,
  ⟨"SO_MUTE", 0xC0008, [], [.cold, .warm], false, none, .any,
    [⟨"MUTE", 13, 0, .rw, (.lit 0), []⟩]⟩,
  ⟨"SO_DPLL_k_W0", 0xC0100, [(16, 8)], [.cold, .warm], false, none, .any,
    [⟨"EN", 31, 31, .rw, (.lit 0), []⟩,
     ⟨"POST", 15, 8, .rw, (.lit 2), []⟩,
     ⟨"N", 7, 0, .rw, (.lit 80), []⟩]⟩,
  ⟨"SO_DPLL_k_W1", 0xC0104, [(16, 8)], [.cold, .warm], false, none, .any,
    [⟨"FRAC", 23, 0, .rw, (.lit 0), []⟩]⟩,
  ⟨"SO_DPLL_k_W2", 0xC0108, [(16, 8)], [.cold, .warm], false, none, .any,
    [⟨"LOCK", 31, 31, .ro, (.lit 0), []⟩,
     ⟨"FREQ_KHZ", 20, 0, .ro, (.lit 0), []⟩]⟩,
  ⟨"SO_ROUTE_s", 0xC0400, [(4, 26)], [.cold, .warm, .scanout], true, some 5, .any,
    [⟨"EN", 31, 31, .rwl, (.lit 0), []⟩,
     ⟨"SRC", 27, 24, .rwl, (.lit 0), []⟩,
     ⟨"SPLIT", 21, 20, .rwl, (.lit 0), [3]⟩,
     ⟨"DSC_EN", 16, 16, .rwl, (.lit 0), []⟩,
     ⟨"DSC_ENC", 13, 12, .rwl, (.lit 0), []⟩]⟩,
  ⟨"SO_DP_CFG_p", 0xC0800, [(64, 4)], [.cold, .warm], true, none, .any,
    [⟨"EN", 31, 31, .rw, (.lit 0), []⟩,
     ⟨"EDP", 30, 30, .rw, (.lit 0), []⟩,
     ⟨"MST", 29, 29, .rw, (.lit 0), []⟩,
     ⟨"FEC", 28, 28, .rw, (.lit 0), []⟩,
     ⟨"LANES", 25, 24, .rw, (.lit 2), [3]⟩,
     ⟨"RATE", 19, 16, .rw, (.lit 0), [6, 7, 8, 9, 10, 11, 12, 13, 14, 15]⟩]⟩,
  ⟨"SO_DP_STAT_p", 0xC0804, [(64, 4)], [.cold, .warm, .scanout], false, none, .any,
    [⟨"STATE", 31, 29, .ro, (.lit 0), []⟩,
     ⟨"HPD", 28, 28, .ro, (.lit 0), []⟩,
     ⟨"TRAIN_FAILS", 15, 8, .rc, (.lit 0), []⟩,
     ⟨"SLOTS", 6, 0, .ro, (.lit 0), []⟩]⟩,
  ⟨"SO_AUX_CMD_p", 0xC0808, [(64, 4)], [.cold, .warm, .scanout], false, none, .any,
    [⟨"GO", 31, 31, .w1s, (.lit 0), []⟩,
     ⟨"CMD", 29, 28, .rw, (.lit 0), []⟩,
     ⟨"MOT", 27, 27, .rw, (.lit 0), []⟩,
     ⟨"LEN", 3, 0, .rw, (.lit 0), []⟩]⟩,
  ⟨"SO_AUX_ADDR_p", 0xC080C, [(64, 4)], [.cold, .warm, .scanout], false, none, .any,
    [⟨"ADDR", 19, 0, .rw, (.lit 0), []⟩]⟩,
  ⟨"SO_AUX_DATA_p", 0xC0810, [(64, 4), (4, 4)], [.cold, .warm, .scanout], false, none, .any,
    [⟨"DATA", 31, 0, .rw, (.lit 0), []⟩]⟩,
  ⟨"SO_AUX_STAT_p", 0xC0820, [(64, 4)], [.cold, .warm, .scanout], false, none, .any,
    [⟨"RESULT", 7, 4, .ro, (.lit 0), []⟩,
     ⟨"COUNT", 3, 0, .ro, (.lit 0), []⟩]⟩]

/-- Registers of SO (09 R259; 09 R260; 09 R278; 09 R282; 09 R283; 09 R284; 09 R285; 09 R290). -/
def rowsSOB : List RRow := [
  ⟨"SO_AP_CFG_q", 0xC0A00, [(32, 8)], [.cold, .warm], true, none, .any,
    [⟨"EN", 31, 31, .rw, (.lit 0), []⟩,
     ⟨"GEAR", 2, 0, .rw, (.lit 1), [0, 6, 7]⟩]⟩,
  ⟨"SO_AP_STAT_q", 0xC0A04, [(32, 8)], [.cold, .warm, .scanout], false, none, .any,
    [⟨"STATE", 31, 29, .ro, (.lit 0), []⟩,
     ⟨"DROPS", 28, 16, .rc, (.lit 0), []⟩,
     ⟨"RETRANS", 15, 0, .rc, (.lit 0), []⟩]⟩,
  ⟨"SO_DS_CFG_d", 0xC0B00, [(32, 2)], [.cold, .warm], true, none, .any,
    [⟨"EN", 31, 31, .rw, (.lit 0), []⟩,
     ⟨"PHY", 30, 30, .rw, (.lit 0), []⟩,
     ⟨"MODE", 29, 28, .rw, (.lit 0), []⟩,
     ⟨"LANES", 27, 26, .rw, (.lit 3), []⟩,
     ⟨"TE_SEL", 25, 24, .rw, (.index), []⟩,
     ⟨"TE_MODE", 23, 23, .rw, (.lit 0), []⟩,
     ⟨"TE_POL", 22, 22, .rw, (.lit 0), []⟩,
     ⟨"RATE", 12, 0, .rw, (.lit 1500), []⟩]⟩,
  ⟨"SO_DS_STAT_d", 0xC0B04, [(32, 2)], [.cold, .warm, .scanout], false, none, .any,
    [⟨"STATE", 31, 29, .ro, (.lit 0), []⟩,
     ⟨"TE_EARLY", 28, 16, .rc, (.lit 0), []⟩,
     ⟨"TE_MISSED", 15, 0, .rc, (.lit 0), []⟩]⟩,
  ⟨"SO_DS_TE_d", 0xC0B08, [(32, 2)], [.cold, .warm], true, none, .any,
    [⟨"TE_TIMEOUT", 11, 0, .rw, (.lit 16), [0]⟩]⟩,
  ⟨"SO_DSC_e", 0xC0C00, [(16, 4)], [.cold, .warm], true, none, .any,
    [⟨"SLICES", 31, 30, .rw, (.lit 0), []⟩,
     ⟨"BLOCK_PRED", 29, 29, .rw, (.lit 1), []⟩,
     ⟨"SLICE_H", 24, 12, .rw, (.lit 108), []⟩,
     ⟨"BPP", 9, 0, .rw, (.lit 192), []⟩]⟩,
  ⟨"SO_BKL_k_W0", 0xC0E00, [(8, 16)], [.cold, .warm], false, none, .any,
    [⟨"EN", 31, 31, .rw, (.lit 0), []⟩,
     ⟨"POL", 30, 30, .rw, (.lit 0), []⟩,
     ⟨"LOCK", 29, 29, .rw, (.lit 0), []⟩,
     ⟨"FOLLOW", 28, 28, .rw, (.lit 0), []⟩,
     ⟨"PLATFORM", 27, 24, .rw, (.lit 0), []⟩,
     ⟨"PERIOD", 19, 0, .rw, (.lit 25000), []⟩]⟩,
  ⟨"SO_BKL_k_W1", 0xC0E04, [(8, 16)], [.cold, .warm], false, none, .any,
    [⟨"DUTY", 15, 0, .rw, (.lit 0), []⟩]⟩,
  ⟨"SO_PCTRL_Pn", 0xC1000, [(64, 16)], [.cold, .warm], true, none, .any,
    [⟨"EN", 31, 31, .rw, (.lit 0), []⟩,
     ⟨"STD_EN", 30, 30, .rw, (.lit 0), []⟩,
     ⟨"STD_1001", 29, 29, .rw, (.lit 0), []⟩,
     ⟨"HPOL", 28, 28, .rw, (.lit 0), []⟩,
     ⟨"VPOL", 27, 27, .rw, (.lit 0), []⟩,
     ⟨"DEPTH", 25, 24, .rw, (.lit 1), []⟩,
     ⟨"DPLL", 22, 20, .rw, (.lit 0), []⟩,
     ⟨"STD_INDEX", 5, 0, .rw, (.lit 0), []⟩]⟩,
  ⟨"SO_HTIM0_Pn", 0xC1004, [(64, 16)], [.cold, .warm], true, none, .any,
    [⟨"HFP", 31, 16, .rw, (.lit 0), []⟩,
     ⟨"HACT", 15, 0, .rw, (.lit 0), []⟩]⟩,
  ⟨"SO_HTIM1_Pn", 0xC1008, [(64, 16)], [.cold, .warm], true, none, .any,
    [⟨"HBP", 31, 16, .rw, (.lit 0), []⟩,
     ⟨"HSYNC", 15, 0, .rw, (.lit 0), []⟩]⟩,
  ⟨"SO_VTIM0_Pn", 0xC100C, [(64, 16)], [.cold, .warm], true, none, .any,
    [⟨"VFP", 31, 16, .rw, (.lit 0), []⟩,
     ⟨"VACT", 15, 0, .rw, (.lit 0), []⟩]⟩]

/-- Registers of SO (09 R260; 09 R279; 09 R286; 09 R287; 09 R288; 09 R289). -/
def rowsSOC : List RRow := [
  ⟨"SO_VTIM1_Pn", 0xC1010, [(64, 16)], [.cold, .warm], true, none, .any,
    [⟨"VBP", 31, 16, .rw, (.lit 0), []⟩,
     ⟨"VSYNC", 15, 0, .rw, (.lit 0), []⟩]⟩,
  ⟨"SO_PSR_Pn", 0xC1014, [(64, 16)], [.cold, .warm], true, none, .any,
    [⟨"PSR_EN", 31, 31, .rw, (.lit 0), []⟩,
     ⟨"SU_EN", 30, 30, .rw, (.lit 0), []⟩,
     ⟨"IDLE", 23, 16, .rw, (.lit 4), [0, 1]⟩,
     ⟨"WAKE_US", 11, 0, .rw, (.lit 500), []⟩]⟩,
  ⟨"SO_PSTAT_Pn", 0xC1018, [(64, 16)], [.cold, .warm], false, none, .any,
    [⟨"STATE", 31, 30, .ro, (.lit 0), []⟩,
     ⟨"VTOTAL", 29, 16, .ro, (.lit 0), []⟩,
     ⟨"HTOTAL", 15, 0, .ro, (.lit 0), []⟩]⟩,
  ⟨"SO_UFLOW_Pn", 0xC101C, [(64, 16)], [.cold, .warm, .scanout], false, none, .any,
    [⟨"FRAMES", 31, 16, .rc, (.lit 0), []⟩,
     ⟨"LINES", 15, 0, .rc, (.lit 0), []⟩]⟩,
  ⟨"SO_FCRC_Pn", 0xC1020, [(64, 16)], [.cold, .warm], false, none, .any,
    [⟨"CRC", 31, 0, .ro, (.lit 0), []⟩]⟩,
  ⟨"SO_SIG_BIND_Pn", 0xC2000, [(4, 16)], [.cold, .warm, .scanout], false, some 5, .any,
    [⟨"BIND", 15, 0, .rwl, (.lit 0), []⟩]⟩,
  ⟨"SO_SIG_EXP_Pn_r", 0xC4000, [(512, 16), (32, 16), (4, 4)], [.cold, .warm], true, none, .any,
    [⟨"VALUE", 31, 0, .rw, (.lit 0), []⟩]⟩,
  ⟨"SO_SIG_EXP_VALID", 0xC4010, [(512, 16), (32, 16)], [.cold, .warm], true, none, .any,
    [⟨"VALID", 3, 0, .rw, (.lit 0), []⟩]⟩,
  ⟨"SO_SIG_RES_CRC", 0xC6000, [(256, 16), (16, 16)], [.cold, .warm, .scanout], false, none, .any,
    [⟨"CRC", 31, 0, .ro, (.lit 0), []⟩]⟩,
  ⟨"SO_SIG_RES_FRAME", 0xC6004, [(256, 16), (16, 16)], [.cold, .warm, .scanout], false, none, .any,
    [⟨"FRAME", 31, 0, .ro, (.lit 0), []⟩]⟩,
  ⟨"SO_SIG_RES_OUT", 0xC6008, [(256, 16), (16, 16)], [.cold, .warm, .scanout], false, none, .any,
    [⟨"SUBST", 3, 3, .ro, (.lit 0), []⟩,
     ⟨"LAND_IN", 2, 2, .ro, (.lit 0), []⟩,
     ⟨"OUTCOME", 1, 0, .ro, (.lit 0), []⟩]⟩]

/-- Registers of TC (10 R295; 10 R298; 10 R305; 10 R308; 10 R310; 10 R312). -/
def rowsTC : List RRow := [
  ⟨"TC_STATUS", 0x100004, [], [.cold, .warm, .media, .d14], false, none, .any,
    [⟨"OVERRUNS", 31, 24, .rc, (.lit 0), []⟩,
     ⟨"AFE_ERRS", 23, 16, .rc, (.lit 0), []⟩,
     ⟨"DROPPED", 15, 8, .rc, (.lit 0), []⟩,
     ⟨"TESTING", 7, 0, .ro, (.lit 0), []⟩]⟩,
  ⟨"TC_REF_WIN", 0x100010, [], [.cold, .warm, .d14], false, none, .any,
    [⟨"REF_HI", 31, 16, .rw, (.lit 20400), []⟩,
     ⟨"REF_LO", 15, 0, .rw, (.lit 19600), []⟩]⟩,
  ⟨"TC_OS_CFG", 0x100014, [], [.cold, .warm, .d14], false, none, .any,
    [⟨"OPEN_PCT", 15, 8, .rw, (.lit 50), []⟩,
     ⟨"SHORT_NA", 7, 0, .rw, (.lit 100), []⟩]⟩,
  ⟨"TC_PANEL_t", 0x100100, [(64, 8), (4, 12)], [.cold, .warm, .d14], true, none, .any,
    [⟨"WORD", 31, 0, .rw, (.panel), []⟩]⟩,
  ⟨"TC_PSTAT_t", 0x100130, [(64, 8)], [.cold, .warm, .media, .d14], false, none, .any,
    [⟨"STATE", 31, 30, .ro, (.lit 0), []⟩,
     ⟨"CONTACTS", 29, 26, .ro, (.lit 0), []⟩,
     ⟨"SUSPECT", 25, 13, .ro, (.lit 0), []⟩]⟩,
  ⟨"TC_PFRAME_t", 0x100134, [(64, 8)], [.cold, .warm, .media, .d14], false, none, .any,
    [⟨"TFRAME", 31, 0, .ro, (.lit 0), []⟩]⟩,
  ⟨"TC_KEY_k", 0x101000, [(16, 64), (4, 4)], [.cold, .warm, .d14], true, none, .any,
    [⟨"WORD", 31, 0, .rw, (.lit 0), []⟩]⟩,
  ⟨"TC_KEY_STAT_LO", 0x101400, [], [.cold, .warm, .media, .d14], false, none, .any,
    [⟨"PRESSED", 31, 0, .ro, (.lit 0), []⟩]⟩,
  ⟨"TC_KEY_STAT_HI", 0x101404, [], [.cold, .warm, .media, .d14], false, none, .any,
    [⟨"PRESSED", 31, 0, .ro, (.lit 0), []⟩]⟩,
  ⟨"TC_PICK_k", 0x101500, [(4, 64)], [.cold, .warm, .d14], false, none, .any,
    [⟨"PASS", 31, 31, .rw, (.lit 0), []⟩,
     ⟨"MIN_ALPHA", 7, 0, .rw, (.lit 1), []⟩]⟩,
  ⟨"TC_AP_BKL_q", 0x101600, [(8, 8)], [.cold, .warm, .d14], false, none, .any,
    [⟨"BKL", 31, 0, .ro, (.lit 0), []⟩]⟩,
  ⟨"TC_AP_HEALTH_q", 0x101604, [(8, 8)], [.cold, .warm, .d14], false, none, .any,
    [⟨"HEALTH", 31, 0, .ro, (.lit 0), []⟩]⟩]

/-- Registers of HP (11 R315; 11 R317; 11 R318; 11 R325; 11 R329). -/
def rowsHP : List RRow := [
  ⟨"HP_STATUS", 0x110004, [], [.cold, .warm, .media, .d14], false, none, .any,
    [⟨"DENIED", 31, 24, .rc, (.lit 0), []⟩,
     ⟨"SUPERSEDED", 23, 16, .rc, (.lit 0), []⟩,
     ⟨"FAULT", 11, 0, .ro, (.lit 0), []⟩]⟩,
  ⟨"HP_EFF_SEL", 0x110010, [], [.cold, .warm, .d14], false, none, .any,
    [⟨"EFFECT", 7, 0, .rw, (.lit 0), []⟩]⟩,
  ⟨"HP_EFF_OWN", 0x110014, [], [.cold, .warm, .d14], false, none, .any,
    [⟨"LOADED", 31, 31, .ro, (.lit 0), []⟩,
     ⟨"OWNER", 7, 0, .ro, (.lit 0), []⟩]⟩,
  ⟨"HP_EFF_Wj", 0x110100, [(4, 64)], [.cold, .warm, .d14], false, none, .any,
    [⟨"WORD", 31, 0, .ro, (.lit 0), []⟩]⟩,
  ⟨"HP_CFG_h_W0", 0x111000, [(32, 12)], [.cold, .warm, .d14], true, none, .any,
    [⟨"EN", 31, 31, .rw, (.lit 0), []⟩,
     ⟨"TYPE", 30, 30, .rw, (.lit 0), []⟩,
     ⟨"TRACK", 29, 29, .rw, (.lit 1), []⟩,
     ⟨"KEY_URGENT", 28, 28, .rw, (.lit 0), []⟩,
     ⟨"BRAKE_MAX_MS", 23, 16, .rw, (.lit 20), []⟩,
     ⟨"F0_DHZ", 15, 0, .rw, (.lit 1700), []⟩]⟩,
  ⟨"HP_CFG_h_W1", 0x111004, [(32, 12)], [.cold, .warm, .d14], true, none, .any,
    [⟨"RATED_MV", 31, 16, .rw, (.lit 2000), []⟩,
     ⟨"BEMF_MV", 15, 0, .rw, (.lit 1000), []⟩]⟩,
  ⟨"HP_CFG_h_W2", 0x111008, [(32, 12)], [.cold, .warm, .d14], true, none, .any,
    [⟨"SENSE_US", 31, 22, .rw, (.lit 150), []⟩,
     ⟨"MISSING_PCT", 15, 8, .rw, (.lit 10), []⟩,
     ⟨"STALL_PER", 7, 4, .rw, (.lit 4), []⟩]⟩,
  ⟨"HP_STAT_h", 0x111010, [(32, 12)], [.cold, .warm, .media, .d14], false, none, .any,
    [⟨"STATE", 31, 29, .ro, (.lit 0), []⟩,
     ⟨"CAUSE", 28, 26, .ro, (.lit 0), []⟩,
     ⟨"PENDING", 25, 25, .ro, (.lit 0), []⟩,
     ⟨"REPEAT", 24, 24, .w1c, (.lit 0), []⟩,
     ⟨"EFFECT", 23, 16, .ro, (.lit 0), []⟩,
     ⟨"FREQ_DHZ", 15, 0, .ro, (.lit 0), []⟩]⟩,
  ⟨"HP_PHASE_h", 0x111014, [(32, 12)], [.cold, .warm, .media, .d14], false, none, .any,
    [⟨"LOCKED", 31, 31, .ro, (.lit 0), []⟩,
     ⟨"BEMF_MV", 15, 0, .ro, (.lit 0), []⟩]⟩]

/-- Registers of AU (12 R331; 12 R332; 12 R334; 12 R339; 12 R340; 12 R342; 12 R344; 12 R352; 12 R353; 12 R357). -/
def rowsAUA : List RRow := [
  ⟨"AU_STATUS", 0x120004, [], [.cold, .warm, .media, .d14], false, none, .any,
    [⟨"UNDERRUNS", 31, 24, .rc, (.lit 0), []⟩,
     ⟨"OVERRUNS", 23, 16, .rc, (.lit 0), []⟩,
     ⟨"CLK_LOSS", 15, 8, .rc, (.lit 0), []⟩]⟩,
  ⟨"AU_DOM_d", 0x120010, [(8, 3)], [.cold, .warm, .d14], false, none, .any,
    [⟨"SRC", 31, 30, .rw, (.lit 0), [3]⟩,
     ⟨"REC_PORT", 29, 27, .rw, (.lit 0), []⟩,
     ⟨"RATE", 1, 0, .rw, (.lit 0), []⟩]⟩,
  ⟨"AU_DOM_d_ST", 0x120014, [(8, 3)], [.cold, .warm, .d14], false, none, .any,
    [⟨"STATE", 31, 30, .ro, (.lit 0), []⟩,
     ⟨"PPM", 15, 0, .ro, (.lit 0), []⟩]⟩,
  ⟨"AU_PORT_p", 0x120100, [(16, 10)], [.cold, .warm, .d14], false, none, .any,
    [⟨"EN", 31, 31, .rw, (.lit 0), []⟩,
     ⟨"MASTER", 30, 30, .rw, (.lit 1), []⟩,
     ⟨"DOMAIN", 29, 28, .rw, (.lit 0), [3]⟩,
     ⟨"SLOTS", 27, 24, .rw, (.lit 1), []⟩,
     ⟨"SLOT_W", 23, 22, .rw, (.lit 0), [3]⟩,
     ⟨"BITS", 21, 20, .rw, (.lit 0), [3]⟩,
     ⟨"FS_POL", 19, 19, .rw, (.lit 0), []⟩,
     ⟨"FS_LEN", 18, 18, .rw, (.lit 0), []⟩,
     ⟨"DELAY", 17, 17, .rw, (.lit 0), []⟩,
     ⟨"DC_BLOCK", 16, 16, .rw, (.lit 1), []⟩]⟩,
  ⟨"AU_PORT_p_ST", 0x120104, [(16, 10)], [.cold, .warm, .media, .d14], false, none, .any,
    [⟨"STATE", 31, 30, .ro, (.lit 0), []⟩,
     ⟨"FRAME_ERRS", 15, 0, .rc, (.lit 0), []⟩]⟩,
  ⟨"AU_BUS_m", 0x120200, [(16, 16)], [.cold, .warm, .d14], false, none, .any,
    [⟨"EN", 31, 31, .rw, (.lit 0), []⟩,
     ⟨"LL", 30, 30, .rw, (.lit 0), []⟩,
     ⟨"DOMAIN", 29, 28, .rw, (.lit 0), [3]⟩,
     ⟨"CHANNELS", 27, 25, .rw, (.lit 1), []⟩,
     ⟨"SCALE", 24, 23, .rw, (.lit 0), [3]⟩,
     ⟨"HPF", 22, 20, .rw, (.lit 0), [5, 6, 7]⟩,
     ⟨"RAMP_MS", 19, 13, .rw, (.lit 20), []⟩]⟩,
  ⟨"AU_BUS_m_ST", 0x120204, [(16, 16)], [.cold, .warm, .d14], false, none, .any,
    [⟨"ACTIVE", 31, 24, .ro, (.lit 0), []⟩,
     ⟨"GAIN", 11, 0, .ro, (.lit 0), []⟩]⟩,
  ⟨"AU_BRIDGE_b", 0x120400, [(8, 8)], [.cold, .warm, .d14], false, none, .any,
    [⟨"EN", 31, 31, .rw, (.lit 0), []⟩,
     ⟨"IN_DOM", 30, 29, .rw, (.lit 0), [3]⟩,
     ⟨"OUT_DOM", 28, 27, .rw, (.lit 1), [3]⟩,
     ⟨"CHANNELS", 26, 24, .rw, (.lit 1), []⟩]⟩,
  ⟨"AU_BRIDGE_b_ST", 0x120404, [(8, 8)], [.cold, .warm, .d14], false, none, .any,
    [⟨"LOCK", 31, 31, .ro, (.lit 0), []⟩,
     ⟨"RATIO_PPM", 15, 0, .ro, (.lit 0), []⟩]⟩,
  ⟨"AU_CHIME_g", 0x120800, [(32, 4), (4, 8)], [.cold, .warm], false, none, .any,
    [⟨"WORD", 31, 0, .rw, (.lit 0), []⟩]⟩,
  ⟨"AU_CHIME_STAT", 0x120880, [], [.cold, .warm, .media], false, none, .any,
    [⟨"BLOCKED", 7, 4, .ro, (.lit 0), []⟩,
     ⟨"ACTIVE", 3, 0, .ro, (.lit 0), []⟩]⟩,
  ⟨"AU_EQ_m_k", 0x121000, [(256, 16), (32, 8), (4, 5)], [.cold, .warm, .d14], false, none, .any,
    [⟨"COEF", 31, 0, .rw, (.eq), []⟩]⟩]

/-- Registers of AU (12 R345; 12 R346; 12 R351). -/
def rowsAUB : List RRow := [
  ⟨"AU_RT_n", 0x122000, [(16, 128), (4, 3)], [.cold, .warm, .d14], true, none, .any,
    [⟨"WORD", 31, 0, .rw, (.lit 0), []⟩]⟩,
  ⟨"AU_RT_n_ST", 0x12200C, [(16, 128)], [.cold, .warm, .d14], false, none, .any,
    [⟨"STATE", 31, 30, .ro, (.lit 0), []⟩,
     ⟨"PENDING", 29, 29, .ro, (.lit 0), []⟩]⟩,
  ⟨"AU_ST_s", 0x123000, [(16, 32)], [.cold, .warm, .media, .d14], false, none, .any,
    [⟨"STATE", 31, 29, .ro, (.lit 0), []⟩,
     ⟨"DIR", 28, 28, .ro, (.lit 0), []⟩,
     ⟨"DOMAIN", 27, 26, .ro, (.lit 0), []⟩,
     ⟨"BLOCKS", 7, 0, .ro, (.lit 0), []⟩]⟩]

/-- Registers of BL and TK (13 R358; 13 R362; 13 R372; 13 R374; 13 R375). -/
def rowsBL_TK : List RRow := [
  ⟨"BL_STATUS", 0x140004, [], [.cold, .warm], false, none, .any,
    [⟨"DOWN", 31, 24, .rc, (.lit 0), []⟩,
     ⟨"FULL", 23, 16, .rc, (.lit 0), []⟩,
     ⟨"HELD", 15, 8, .ro, (.lit 0), []⟩,
     ⟨"BAD", 7, 0, .rc, (.lit 0), []⟩]⟩,
  ⟨"TK_STATUS", 0x140008, [], [.cold, .warm], false, none, .any,
    [⟨"FOREIGN", 31, 24, .rc, (.lit 0), []⟩,
     ⟨"DENIED", 23, 16, .rc, (.lit 0), []⟩,
     ⟨"CONTESTED", 15, 8, .rc, (.lit 0), []⟩,
     ⟨"HELD", 7, 0, .ro, (.lit 0), []⟩]⟩,
  ⟨"BL_BIND_c", 0x140100, [(4, 64)], [.cold], false, some 4, .any,
    [⟨"EN", 31, 31, .rwl, (.lit 0), []⟩,
     ⟨"HOLD", 30, 30, .rwl, (.lit 0), []⟩,
     ⟨"NOTE_EMPTY", 29, 29, .rwl, (.lit 0), []⟩,
     ⟨"DEPTH", 28, 22, .rwl, (.lit 0), []⟩,
     ⟨"BIT", 21, 17, .rwl, (.lit 0), []⟩,
     ⟨"SBIT", 16, 12, .rwl, (.lit 0), []⟩,
     ⟨"RECEIVER", 11, 6, .rwl, (.lit 0), []⟩,
     ⟨"SENDER", 5, 0, .rwl, (.lit 0), []⟩]⟩,
  ⟨"TK_BROKEN_w", 0x142200, [(4, 4)], [.cold, .warm], false, none, .any,
    [⟨"BROKEN", 31, 0, .ro, (.lit 0), []⟩]⟩,
  ⟨"TK_ALLOW_FN_t", 0x143000, [(8, 128)], [.cold], false, some 4, .any,
    [⟨"FN", 31, 0, .rwl, (.lit 0xFFFFFFFF), []⟩]⟩,
  ⟨"TK_ALLOW_CORE_t", 0x143004, [(8, 128)], [.cold], false, some 4, .any,
    [⟨"CORE", 5, 0, .rwl, (.lit 0x3F), []⟩]⟩]

/-- Registers of PM (16 R17; 16 R433; 16 R436; 16 R437; 16 R438; 16 R440). -/
def rowsPMA : List RRow := [
  ⟨"PM_STATUS", 0x160000, [], [.cold, .warm], false, none, .any,
    [⟨"THERM", 31, 29, .ro, (.lit 0), []⟩,
     ⟨"POWER_W", 15, 8, .ro, (.lit 0), []⟩,
     ⟨"CAP_W", 7, 0, .ro, (.lit 40), []⟩]⟩,
  ⟨"PM_THERM", 0x160010, [], [.cold, .warm], false, none, .any,
    [⟨"WARN_C", 23, 16, .rw, (.tj (-10)), []⟩,
     ⟨"THROTTLE_C", 15, 8, .rw, (.tj (-3)), []⟩,
     ⟨"TRIP_C", 7, 0, .rw, (.tj 5), []⟩]⟩,
  ⟨"PM_THERM_MASK", 0x160014, [], [.cold, .warm], false, none, .any,
    [⟨"TRIP_MASK", 15, 0, .rw, (.lit 0x0F80), []⟩]⟩,
  ⟨"PM_TJ", 0x160018, [], [.cold], false, none, .any,
    [⟨"TJ", 15, 0, .ro, (.lit 0), []⟩]⟩,
  ⟨"PM_WAKE_GPIO", 0x16001C, [], [.cold, .warm], false, none, .any,
    [⟨"MASK", 31, 0, .rw, (.lit 0), []⟩]⟩,
  ⟨"PM_WARM_REQ", 0x160024, [], [], false, none, .any,
    [⟨"KEY", 31, 16, .wo, (.lit 0), []⟩,
     ⟨"GO", 0, 0, .wo, (.lit 0), []⟩]⟩,
  ⟨"PM_LDR_ADDR_LO", 0x160030, [], [.cold, .warm], false, none, .any,
    [⟨"ADDR", 31, 0, .rw, (.lit 0), []⟩]⟩,
  ⟨"PM_LDR_ADDR_HI", 0x160034, [], [.cold, .warm], false, none, .any,
    [⟨"ADDR", 31, 0, .rw, (.lit 0), []⟩]⟩,
  ⟨"PM_LDR_CNT", 0x160038, [], [.cold, .warm], false, none, .any,
    [⟨"COUNT", 12, 0, .rw, (.lit 0), []⟩]⟩,
  ⟨"PM_LDR_CMD", 0x16003C, [], [], false, none, .any,
    [⟨"OP", 31, 28, .wo, (.lit 0), []⟩]⟩,
  ⟨"PM_LDR_STAT", 0x160040, [], [.cold, .warm], false, none, .any,
    [⟨"STATE", 31, 28, .ro, (.lit 0), []⟩,
     ⟨"ERR", 23, 16, .ro, (.lit 0), []⟩,
     ⟨"FETCHED", 15, 0, .ro, (.lit 0), []⟩]⟩,
  ⟨"PM_BOOT_STAT", 0x160044, [], [.cold], false, none, .any,
    [⟨"BOOT_MODE", 31, 29, .ro, (.lit 0), []⟩,
     ⟨"SLOT", 28, 28, .ro, (.lit 0), []⟩,
     ⟨"FAILS", 27, 24, .ro, (.lit 0), []⟩,
     ⟨"ROM_VER", 15, 0, .ro, (.rom), []⟩]⟩]

/-- Registers of PM (16 R432; 16 R444; 16 R445; 16 R450; 16 R453). -/
def rowsPMB : List RRow := [
  ⟨"PM_FW_VER", 0x160048, [], [.cold, .warm], false, none, .any,
    [⟨"VERSION", 31, 0, .ro, (.image), []⟩]⟩,
  ⟨"PM_FW_SLOT", 0x16004C, [], [.cold, .warm], false, none, .any,
    [⟨"SLOT1", 7, 4, .ro, (.lit 0), []⟩,
     ⟨"SLOT0", 3, 0, .ro, (.lit 0), []⟩]⟩,
  ⟨"PM_STORE_STAT", 0x160060, [], [.cold, .warm], false, none, .any,
    [⟨"PRESENT", 31, 31, .ro, (.lit 0), []⟩,
     ⟨"BUSY", 30, 30, .ro, (.lit 0), []⟩,
     ⟨"FREE", 15, 0, .ro, (.lit 0), []⟩]⟩,
  ⟨"PM_RCL_SEL", 0x160080, [], [.cold, .warm], false, none, .any,
    [⟨"INDEX", 5, 0, .rw, (.lit 0), []⟩]⟩,
  ⟨"PM_RCL_Wj", 0x160090, [(4, 4)], [.cold], false, none, .any,
    [⟨"WORD", 31, 0, .ro, (.lit 0), []⟩]⟩,
  ⟨"PM_DOM_STAT_d", 0x160100, [(4, 16)], [], false, none, .any,
    [⟨"STATE", 31, 29, .ro, (.lit 0), []⟩,
     ⟨"FORCED", 28, 26, .ro, (.lit 0), []⟩,
     ⟨"REQ_STATUS", 15, 8, .ro, (.lit 0), []⟩,
     ⟨"QUEUED", 7, 0, .ro, (.lit 0), []⟩]⟩,
  ⟨"PM_DOM_CTRL_d", 0x160200, [(4, 16)], [.cold, .warm], false, none, .any,
    [⟨"CAP", 7, 4, .rw, (.lit 5), [6, 7, 8, 9, 10, 11, 12, 13, 14, 15]⟩,
     ⟨"FORCE", 3, 0, .rw, (.lit 0), [7, 8, 9, 10, 11, 12, 13, 14, 15]⟩]⟩]

/-- Registers of MC (14 R381; 14 R382; 14 R383; 18 R483; 18 R484). -/
def rowsMC : List RRow := [
  ⟨"MC_ECC_CFG", 0x170000, [], [.cold, .warm], false, none, .any,
    [⟨"SCRUB_H", 31, 24, .rw, (.lit 24), []⟩,
     ⟨"SRAM_MS", 23, 12, .rw, (.lit 1000), []⟩,
     ⟨"CE_THR", 11, 0, .rw, (.lit 64), []⟩]⟩,
  ⟨"MC_ECC_CH_c", 0x170010, [(16, 8)], [.cold, .warm], false, none, .any,
    [⟨"UE", 31, 16, .rc, (.lit 0), []⟩,
     ⟨"CE", 15, 0, .rc, (.lit 0), []⟩]⟩,
  ⟨"MC_ECC_CH_c_ALO", 0x170014, [(16, 8)], [.cold, .warm], false, none, .any,
    [⟨"ADDR_LO", 31, 0, .ro, (.lit 0), []⟩]⟩,
  ⟨"MC_ECC_CH_c_AHI", 0x170018, [(16, 8)], [.cold, .warm], false, none, .any,
    [⟨"ADDR_HI", 31, 0, .ro, (.lit 0), []⟩]⟩,
  ⟨"MC_ECC_SRAM", 0x170090, [], [.cold, .warm], false, none, .any,
    [⟨"SK_UE", 31, 24, .rc, (.lit 0), []⟩,
     ⟨"SC_UE", 23, 16, .rc, (.lit 0), []⟩,
     ⟨"SK_CE", 15, 8, .rc, (.lit 0), []⟩,
     ⟨"SC_CE", 7, 0, .rc, (.lit 0), []⟩]⟩,
  ⟨"MC_SCRUB_STAT", 0x170094, [], [.cold, .warm], false, none, .any,
    [⟨"PASSES", 15, 0, .ro, (.lit 0), []⟩]⟩,
  ⟨"MC_SEC_WM", 0x170100, [], [.cold], false, none, .secure,
    [⟨"WM", 19, 0, .rws, (.lit 0), []⟩]⟩,
  ⟨"MC_SEC_SCRUB", 0x170104, [], [], false, none, .secure,
    [⟨"TARGET", 19, 0, .wo, (.lit 0), []⟩]⟩,
  ⟨"MC_SEC_STAT", 0x170108, [], [.cold, .warm], false, none, .any,
    [⟨"BUSY", 31, 31, .ro, (.lit 0), []⟩,
     ⟨"AT", 19, 0, .ro, (.lit 0), []⟩]⟩]

/-- Registers of SE (14 R380; 14 R384; 14 R385; 14 R386; 14 R388; 14 R389). -/
def rowsSE : List RRow := [
  ⟨"SE_DEADMAN_KICK", 0x180000, [], [], false, none, .secure,
    [⟨"KICK", 15, 0, .wo, (.lit 0), []⟩]⟩,
  ⟨"SE_DEADMAN_CFG", 0x180004, [], [.cold, .warm], false, none, .secure,
    [⟨"TIMEOUT_MS", 12, 0, .rws, (.lit 500), []⟩]⟩,
  ⟨"SE_DEADMAN_STAT", 0x180008, [], [.cold, .warm], false, none, .secure,
    [⟨"BAD_KICKS", 31, 16, .rc, (.lit 0), []⟩,
     ⟨"REMAIN_MS", 12, 0, .ro, (.lit 500), []⟩]⟩,
  ⟨"SE_HOLD_OP", 0x180010, [], [], false, none, .secure,
    [⟨"OP", 31, 30, .wo, (.lit 0), []⟩,
     ⟨"DOMAIN", 3, 0, .wo, (.lit 0), []⟩]⟩,
  ⟨"SE_HOLD_LOST", 0x180014, [], [.cold, .warm], false, none, .secure,
    [⟨"DOMAINS", 15, 0, .w1c, (.lit 0), []⟩]⟩,
  ⟨"SE_CACHE_CFG", 0x180018, [], [.cold, .warm], false, none, .secure,
    [⟨"SEC_WAYS", 4, 0, .rws, (.lit 2), []⟩]⟩,
  ⟨"SE_IDE_STAT", 0x18001C, [], [.cold, .warm], false, none, .secure,
    [⟨"FAILS", 15, 8, .rc, (.lit 0), []⟩,
     ⟨"STATE1", 3, 2, .ro, (.lit 0), []⟩,
     ⟨"STATE0", 1, 0, .ro, (.lit 0), []⟩]⟩,
  ⟨"SE_LOCK", 0x180020, [], [.cold], false, none, .secure,
    [⟨"WM", 0, 0, .w1s, (.lit 0), []⟩]⟩,
  ⟨"SE_HOLD_d", 0x180040, [(4, 16)], [.cold, .warm], false, none, .secure,
    [⟨"CLK", 15, 8, .ro, (.lit 0), []⟩,
     ⟨"PWR", 7, 0, .ro, (.lit 0), []⟩]⟩]

/-- Registers of SF (14 R392; 14 R393; 14 R394; 14 R395; 14 R396; 14 R398). -/
def rowsSF : List RRow := [
  ⟨"SF_STATUS", 0x1A0000, [], [.cold, .warm], false, none, .island,
    [⟨"CAUTION", 31, 31, .ro, (.lit 0), []⟩,
     ⟨"SAFE_STATE", 30, 30, .ro, (.lit 0), []⟩,
     ⟨"ERR", 29, 29, .ro, (.lit 0), []⟩,
     ⟨"LOCKSTEP", 28, 28, .ro, (.lit 0), []⟩,
     ⟨"MON", 9, 0, .ro, (.lit 0), []⟩]⟩,
  ⟨"SF_CAUTION", 0x1A0004, [], [.cold, .warm], false, none, .island,
    [⟨"ENTER", 31, 31, .w1s, (.lit 0), []⟩,
     ⟨"EXIT", 30, 30, .w1s, (.lit 0), []⟩,
     ⟨"OTHERS", 29, 29, .rw, (.lit 0), []⟩,
     ⟨"GPU", 28, 28, .rw, (.lit 0), []⟩,
     ⟨"GROUP", 27, 26, .rw, (.lit 0), []⟩,
     ⟨"PREV_MODE", 25, 23, .ro, (.lit 0), []⟩,
     ⟨"CAU_LATCH", 22, 22, .w1c, (.lit 0), []⟩,
     ⟨"ANCHOR", 3, 0, .rw, (.lit 0), []⟩]⟩,
  ⟨"SF_CAU_PLAT", 0x1A0008, [], [.cold, .warm], false, none, .island,
    [⟨"PLAT", 15, 0, .rw, (.lit 0), []⟩]⟩,
  ⟨"SF_CAU_FN", 0x1A000C, [], [.cold, .warm], false, none, .island,
    [⟨"FN", 31, 0, .rw, (.lit 0), []⟩]⟩,
  ⟨"SF_MON_STAT", 0x1A0010, [], [.cold, .warm], false, none, .island,
    [⟨"LATCH", 9, 0, .w1c, (.lit 0), []⟩]⟩,
  ⟨"SF_MON_CFG", 0x1A0014, [], [.cold, .warm], false, none, .island,
    [⟨"TJ_WARN", 7, 0, .rw, (.tj (-10)), []⟩]⟩,
  ⟨"SF_SIGREACT_Pn_r", 0x1A1000, [(64, 16), (4, 16)], [.cold, .warm], false, none, .island,
    [⟨"ACTION", 31, 28, .rw, (.lit 1), []⟩,
     ⟨"LAND_EXCUSE", 27, 27, .rw, (.lit 1), []⟩,
     ⟨"TOL", 23, 20, .rw, (.lit 2), []⟩,
     ⟨"NOOUT_TOL", 19, 16, .rw, (.lit 0), []⟩,
     ⟨"BAD", 15, 8, .ro, (.lit 0), []⟩,
     ⟨"NOOUT", 7, 0, .ro, (.lit 0), []⟩]⟩,
  ⟨"SF_LATCH_Pn", 0x1A2000, [(4, 16)], [.cold, .warm], false, none, .island,
    [⟨"ERR", 31, 16, .w1c, (.lit 0), []⟩,
     ⟨"FALLBACK", 15, 0, .w1c, (.lit 0), []⟩]⟩]

/-- Registers of DH (15 R404; 15 R409; 15 R411; 15 R413; 15 R417; 15 R418; 15 R420; 15 R421). -/
def rowsDH : List RRow := [
  ⟨"DH_CTRL", 0x1C0000, [], [.cold, .warm, .pair], false, none, .any,
    [⟨"REMAP_DONE", 0, 0, .w1s, (.lit 0), []⟩]⟩,
  ⟨"DH_STATUS", 0x1C0004, [], [.cold, .warm, .pair], false, none, .any,
    [⟨"STATE", 31, 29, .ro, (.lit 0), []⟩,
     ⟨"ROLE", 28, 28, .ro, (.lit 0), []⟩,
     ⟨"SEAT", 27, 27, .ro, (.lit 0), []⟩,
     ⟨"HB_ALIVE", 26, 26, .ro, (.lit 0), []⟩,
     ⟨"LINK_UP", 25, 25, .ro, (.lit 0), []⟩,
     ⟨"CREW_EPOCH", 15, 0, .ro, (.lit 0), []⟩]⟩,
  ⟨"DH_HB_CFG", 0x1C0008, [], [.cold, .warm], false, none, .any,
    [⟨"TIMEOUT_US", 25, 16, .rw, (.lit 40), []⟩,
     ⟨"ALIVE_MS", 7, 0, .rw, (.lit 0), []⟩]⟩,
  ⟨"DH_LINK_STAT", 0x1C0010, [], [.cold, .warm, .pair], false, none, .any,
    [⟨"RETRIES", 31, 24, .rc, (.lit 0), []⟩,
     ⟨"AUTH_FAILS", 23, 16, .rc, (.lit 0), []⟩,
     ⟨"RTT_NS", 15, 0, .ro, (.lit 0), []⟩]⟩,
  ⟨"DH_FWD_STAT", 0x1C0014, [], [.cold, .warm, .pair], false, none, .any,
    [⟨"STALLS", 31, 16, .rc, (.lit 0), []⟩,
     ⟨"QUEUE_KIB", 11, 0, .ro, (.lit 0), []⟩]⟩,
  ⟨"DH_DT_ERR", 0x1C0018, [], [.cold, .warm], false, none, .any,
    [⟨"ERR", 15, 0, .ro, (.lit 0), []⟩]⟩,
  ⟨"DH_DIVERGE", 0x1C001C, [], [.cold, .warm], false, none, .any,
    [⟨"COUNT", 31, 16, .rc, (.lit 0), []⟩,
     ⟨"REGION", 7, 4, .ro, (.lit 0), []⟩,
     ⟨"PLATFORM", 3, 0, .ro, (.lit 0), []⟩]⟩,
  ⟨"DH_REJECT", 0x1C0020, [], [.cold, .warm], false, none, .any,
    [⟨"COUNT", 31, 0, .rc, (.lit 0), []⟩]⟩,
  ⟨"DH_ALIVE", 0x1C0024, [], [], false, none, .any,
    [⟨"ALIVE", 31, 0, .wo, (.lit 0), []⟩]⟩,
  ⟨"DH_MWIN_k", 0x1C0100, [(8, 16)], [.cold, .warm], false, none, .any,
    [⟨"EN", 31, 31, .rw, (.lit 0), []⟩,
     ⟨"BASE", 13, 0, .rw, (.lit 0), []⟩]⟩,
  ⟨"DH_MWIN_k_SIZE", 0x1C0104, [(8, 16)], [.cold, .warm], false, none, .any,
    [⟨"SIZE", 13, 0, .rw, (.lit 0), []⟩]⟩]

/-- Registers of CT (18 R477; 18 R478; 18 R480). -/
def rowsCT : List RRow := [
  ⟨"CT_SEL", 0x1E0000, [], [.cold, .warm], false, none, .any,
    [⟨"SHADOW", 10, 10, .rw, (.lit 0), []⟩,
     ⟨"INDEX", 9, 0, .rw, (.lit 0), []⟩]⟩,
  ⟨"CT_VAL_LO", 0x1E0004, [], [.cold, .warm], false, none, .any,
    [⟨"VAL", 31, 0, .ro, (.lit 0), []⟩]⟩,
  ⟨"CT_VAL_HI", 0x1E0008, [], [.cold, .warm], false, none, .any,
    [⟨"VAL", 31, 0, .ro, (.lit 0), []⟩]⟩,
  ⟨"CT_SNAP_STAT", 0x1E0010, [], [.cold, .warm], false, none, .any,
    [⟨"BUSY", 31, 31, .ro, (.lit 0), []⟩,
     ⟨"LAST_STATUS", 23, 16, .ro, (.lit 0), []⟩,
     ⟨"SEQ", 15, 0, .ro, (.lit 0), []⟩]⟩,
  ⟨"CT_FREEZE_DT_LO", 0x1E0014, [], [.cold, .warm], false, none, .any,
    [⟨"T", 31, 0, .ro, (.lit 0), []⟩]⟩,
  ⟨"CT_FREEZE_DT_HI", 0x1E0018, [], [.cold, .warm], false, none, .any,
    [⟨"T", 31, 0, .ro, (.lit 0), []⟩]⟩]

/-- Registers of ER (18 R485). -/
def rowsER : List RRow := [
  ⟨"ER_STATUS", 0x1F0000, [], [.cold, .warm], false, none, .any,
    [⟨"OVERWRITTEN", 31, 16, .rc, (.lit 0), []⟩,
     ⟨"FILL", 8, 0, .ro, (.lit 0), []⟩]⟩,
  ⟨"ER_SEL", 0x1F0004, [], [.cold, .warm], false, none, .any,
    [⟨"INDEX", 7, 0, .rw, (.lit 0), []⟩]⟩,
  ⟨"ER_CTRL", 0x1F0008, [], [.cold, .warm], false, none, .any,
    [⟨"EVT_EN", 0, 0, .rw, (.lit 1), []⟩]⟩,
  ⟨"ER_Wj", 0x1F0010, [(4, 8)], [], false, none, .any,
    [⟨"WORD", 31, 0, .ro, (.lit 0), []⟩]⟩]

/-- The rows that may hold an offset, by its section (R20). -/
def rowsAt (off : Nat) : List RRow :=
  match off / 65536 with
  | 0 => rowsGL
  | 1 => rowsTTA ++ rowsTTB
  | 2 => rowsHS
  | 3 => rowsMM
  | 4 => rowsGXA ++ rowsGXB
  | 8 => rowsCMA ++ rowsCMB
  | 9 => rowsCMA ++ rowsCMB
  | 10 => rowsBF_SK
  | 12 => rowsSOA ++ rowsSOB ++ rowsSOC
  | 16 => rowsTC
  | 17 => rowsHP
  | 18 => rowsAUA ++ rowsAUB
  | 20 => rowsBL_TK
  | 22 => rowsPMA ++ rowsPMB
  | 23 => rowsMC
  | 24 => rowsSE
  | 26 => rowsSF
  | 28 => rowsDH
  | 30 => rowsCT
  | 31 => rowsER
  | _ => []
/-- The indices of an offset in an array of registers, or none when the offset is not one of them. -/
def dimIdx : List (Nat × Nat) → Nat → Option (List Nat)
  | [], x => if x = 0 then some [] else none
  | (s, n) :: ds, x =>
    if x / s < n then (dimIdx ds (x % s)).map (fun is => x / s :: is) else none

/-- The indices of an offset in a row. -/
def rowIdx (r : RRow) (off : Nat) : Option (List Nat) :=
  if r.base ≤ off then dimIdx r.dims (off - r.base) else none

/-- The row that holds an offset, and the indices of the register in it; none is an unoccupied offset (R20). -/
def findRow : List RRow → Nat → Option (RRow × List Nat)
  | [], _ => none
  | r :: rs, off =>
    match rowIdx r off with
    | some is => some (r, is)
    | none => findRow rs off

/-- The register at an offset of BAR0. -/
def rowOf (off : Nat) : Option (RRow × List Nat) := findRow (rowsAt off) off

/-- Tj max in degrees Celsius (R2). -/
def tjMax : Nat := if Config.gradeIn then 110 else 125

/-- Coefficient entry e of the default scaler bank (R217). -/
def bankDefault (e : Nat) : Nat :=
  if e < 512 then
    (if e % 8 = 3 then 256 - 4 * (e / 8) else if e % 8 = 4 then 4 * (e / 8) else 0)
  else
    (if (e - 512) % 6 = 2 then 256 - 4 * ((e - 512) / 6)
     else if (e - 512) % 6 = 3 then 4 * ((e - 512) / 6) else 0)

/-- Word w of a panel record at reset (R295). -/
def panelReset (w : Nat) : Nat :=
  match w with
  | 0 => 1 * 2 ^ 8 + 1
  | 2 => 0x0100 * 2 ^ 16 + 0x0100
  | 3 => 60 * 2 ^ 16 + 120
  | 4 => 120 * 2 ^ 16 + 60
  | 5 => 20 * 2 ^ 16 + 40
  | 6 => 300
  | 7 => 250 * 2 ^ 22 + 16 * 2 ^ 16 + 6 * 2 ^ 12 + 4 * 2 ^ 8 + 15
  | 8 => 8 * 2 ^ 16
  | 9 => 63 * 2 ^ 26 + 1000 * 2 ^ 16 + 10 * 2 ^ 8
  | _ => 0

/-- The reset size of Skein reserve n (R254). -/
def skReset (n : Nat) : Nat := [2048, 768, 256, 64, 1024, 512, 256, 256].getD n 0

/-- A reset value, for the register with these indices. -/
def rvalAt (v : RVal) (is : List Nat) : Nat :=
  let i := is.getD 0 0
  let last := is.getLastD 0
  match v with
  | .lit n => n
  | .grade => if Config.gradeIn then 2 else 1
  | .strap => 0
  | .image => 0
  | .rom => Config.romVer.toNat
  | .index => i
  | .clState => if i % 5 = 4 then 1 else 0
  | .clSlot => if i % 5 = 4 then 31 else 4 * (i / 5) + i % 5
  | .toneCrc => 0xEFDC1DE4
  | .lutCrc => 0x07348171
  | .stitch => if last = 0 then i * 2 ^ 16 else 0
  | .layer => if last = 0 then i else 0
  | .guardW => if last = 0 then i * 2 ^ 24 + is.getD 1 0 else 0
  | .bank h => bankDefault (2 * last + h) % 1024
  | .skRes => skReset i
  | .panel => panelReset last
  | .eq => if last = 0 then 0x40000000 else 0
  | .tj d => ((tjMax : Int) + d).toNat

/-- The reset value of a row's register. -/
def rowReset (r : RRow) (is : List Nat) : Nat :=
  r.fields.foldl (fun a f => a + rvalAt f.rst is * 2 ^ f.lo) 0

/-- The reset value of the register at an offset; an unoccupied offset reads zero (R20). -/
def regReset (off : Nat) : Word :=
  match rowOf off with
  | some (r, is) => BitVec.ofNat 32 (rowReset r is)
  | none => 0

end Sys2Proof.Machine
end

