-- ==== Sys2Proof/Machine/Regs.lean ====
section
/-! DEFINITION. The names of the registers of BAR0 (their offsets; an array takes its indices, outermost first) and of
their fields, as the register tables of spec/ give them. -/

namespace Sys2Proof.Machine

/-- GL_DEV_REV (01 R1). -/
def GL_DEV_REV : Nat := 0x0

/-- GL_DEV_REV.MAJOR. -/
def GL_DEV_REV_MAJOR : Fld := (7, 4)

/-- GL_DEV_REV.MINOR. -/
def GL_DEV_REV_MINOR : Fld := (3, 0)

/-- GL_DEV_ID (01 R2). -/
def GL_DEV_ID : Nat := 0x4

/-- GL_DEV_ID.PART. -/
def GL_DEV_ID_PART : Fld := (31, 16)

/-- GL_DEV_ID.GRADE. -/
def GL_DEV_ID_GRADE : Fld := (15, 8)

/-- GL_DEV_ID.PERSONALITY. -/
def GL_DEV_ID_PERSONALITY : Fld := (0, 0)

/-- GL_MODE (01 R4). -/
def GL_MODE : Nat := 0x10

/-- GL_MODE.PENDING. -/
def GL_MODE_PENDING : Fld := (11, 11)

/-- GL_MODE.PENDING_MODE. -/
def GL_MODE_PENDING_MODE : Fld := (10, 8)

/-- GL_MODE.FENCED. -/
def GL_MODE_FENCED : Fld := (6, 6)

/-- GL_MODE.ROLE. -/
def GL_MODE_ROLE : Fld := (5, 5)

/-- GL_MODE.FORMATION. -/
def GL_MODE_FORMATION : Fld := (4, 4)

/-- GL_MODE.MODE. -/
def GL_MODE_MODE : Fld := (2, 0)

/-- GL_LOCK (01 R13). -/
def GL_LOCK : Nat := 0x20

/-- GL_LOCK.SO. -/
def GL_LOCK_SO : Fld := (5, 5)

/-- GL_LOCK.BL. -/
def GL_LOCK_BL : Fld := (4, 4)

/-- GL_LOCK.CM. -/
def GL_LOCK_CM : Fld := (3, 3)

/-- GL_LOCK.SK. -/
def GL_LOCK_SK : Fld := (2, 2)

/-- GL_LOCK.MM. -/
def GL_LOCK_MM : Fld := (1, 1)

/-- GL_LOCK.HS. -/
def GL_LOCK_HS : Fld := (0, 0)

/-- GL_SECT_RST (01 R27). -/
def GL_SECT_RST : Nat := 0x24

/-- GL_SECT_RST.PAIR. -/
def GL_SECT_RST_PAIR : Fld := (5, 5)

/-- GL_SECT_RST.MEDIA. -/
def GL_SECT_RST_MEDIA : Fld := (4, 4)

/-- GL_SECT_RST.SCANOUT. -/
def GL_SECT_RST_SCANOUT : Fld := (3, 3)

/-- GL_SECT_RST.COMPOSE. -/
def GL_SECT_RST_COMPOSE : Fld := (2, 2)

/-- GL_SECT_RST.RASTER. -/
def GL_SECT_RST_RASTER : Fld := (1, 1)

/-- GL_SECT_RST.TT. -/
def GL_SECT_RST_TT : Fld := (0, 0)

/-- GL_STAGE_COMMIT (01 R28). -/
def GL_STAGE_COMMIT : Nat := 0x28

/-- GL_STAGE_COMMIT.BUSY. -/
def GL_STAGE_COMMIT_BUSY : Fld := (31, 31)

/-- GL_STAGE_COMMIT.ANCHOR. -/
def GL_STAGE_COMMIT_ANCHOR : Fld := (19, 16)

/-- GL_STAGE_COMMIT.GROUP. -/
def GL_STAGE_COMMIT_GROUP : Fld := (15, 0)

/-- GL_EXT_KEY (17 R469). -/
def GL_EXT_KEY : Nat := 0x30

/-- GL_EXT_KEY.KEY. -/
def GL_EXT_KEY_KEY : Fld := (31, 0)

/-- GL_EXT_STAT (17 R469). -/
def GL_EXT_STAT : Nat := 0x34

/-- GL_EXT_STAT.STATE. -/
def GL_EXT_STAT_STATE : Fld := (0, 0)

/-- GL_LAND_FRAME_Pn (01 R40). -/
def GL_LAND_FRAME (i : Nat) : Nat := 0x100 + 8 * i

/-- GL_LAND_FRAME_Pn.FRAME. -/
def GL_LAND_FRAME_FRAME : Fld := (31, 0)

/-- GL_LAND_LINE_Pn (01 R40). -/
def GL_LAND_LINE (i : Nat) : Nat := 0x104 + 8 * i

/-- GL_LAND_LINE_Pn.COUNT. -/
def GL_LAND_LINE_COUNT : Fld := (31, 16)

/-- GL_LAND_LINE_Pn.LINE. -/
def GL_LAND_LINE_LINE : Fld := (15, 0)

/-- TT_CTRL (02 R68). -/
def TT_CTRL : Nat := 0x10000

/-- TT_CTRL.LATE_EVT. -/
def TT_CTRL_LATE_EVT : Fld := (1, 1)

/-- TT_CTRL.DEFER_EVT. -/
def TT_CTRL_DEFER_EVT : Fld := (0, 0)

/-- TT_DT_LO (02 R49). -/
def TT_DT_LO : Nat := 0x10008

/-- TT_DT_LO.DT_LO. -/
def TT_DT_LO_DT_LO : Fld := (31, 0)

/-- TT_DT_HI (02 R49). -/
def TT_DT_HI : Nat := 0x1000C

/-- TT_DT_HI.DT_HI. -/
def TT_DT_HI_DT_HI : Fld := (31, 0)

/-- TT_STATUS (02 R68). -/
def TT_STATUS : Nat := 0x10010

/-- TT_STATUS.DEFERRALS. -/
def TT_STATUS_DEFERRALS : Fld := (31, 16)

/-- TT_STATUS.ARMED_HWM. -/
def TT_STATUS_ARMED_HWM : Fld := (14, 8)

/-- TT_STATUS.ARMED. -/
def TT_STATUS_ARMED : Fld := (6, 0)

/-- TT_CP_SEL (02 R60). -/
def TT_CP_SEL : Nat := 0x10020

/-- TT_CP_SEL.INDEX. -/
def TT_CP_SEL_INDEX : Fld := (9, 0)

/-- TT_CP_Wk (02 R60). -/
def TT_CP_W (i : Nat) : Nat := 0x10040 + 4 * i

/-- TT_CP_Wk.WORD. -/
def TT_CP_W_WORD : Fld := (31, 0)

/-- TT_CP_W7 (02 R60). -/
def TT_CP_W7 : Nat := 0x1005C

/-- TT_CP_W7.STATUS. -/
def TT_CP_W7_STATUS : Fld := (31, 0)

/-- TT_CONV_LINE (02 R514). -/
def TT_CONV_LINE : Nat := 0x10080

/-- TT_CONV_LINE.PLATFORM. -/
def TT_CONV_LINE_PLATFORM : Fld := (19, 16)

/-- TT_CONV_LINE.LINE. -/
def TT_CONV_LINE_LINE : Fld := (15, 0)

/-- TT_CONV_FRAME (02 R514). -/
def TT_CONV_FRAME : Nat := 0x10084

/-- TT_CONV_FRAME.FRAME. -/
def TT_CONV_FRAME_FRAME : Fld := (31, 0)

/-- TT_CONV_DT_LO (02 R514). -/
def TT_CONV_DT_LO : Nat := 0x10088

/-- TT_CONV_DT_LO.DT_LO. -/
def TT_CONV_DT_LO_DT_LO : Fld := (31, 0)

/-- TT_CONV_DT_HI (02 R514). -/
def TT_CONV_DT_HI : Nat := 0x1008C

/-- TT_CONV_DT_HI.DT_HI. -/
def TT_CONV_DT_HI_DT_HI : Fld := (31, 0)

/-- TT_RPOS_FRAME_Pn (02 R50). -/
def TT_RPOS_FRAME (i : Nat) : Nat := 0x10100 + 16 * i

/-- TT_RPOS_FRAME_Pn.FRAME. -/
def TT_RPOS_FRAME_FRAME : Fld := (31, 0)

/-- TT_RPOS_LINE_Pn (02 R50). -/
def TT_RPOS_LINE (i : Nat) : Nat := 0x10104 + 16 * i

/-- TT_RPOS_LINE_Pn.VIRTUAL. -/
def TT_RPOS_LINE_VIRTUAL : Fld := (31, 31)

/-- TT_RPOS_LINE_Pn.NOTIMING. -/
def TT_RPOS_LINE_NOTIMING : Fld := (30, 30)

/-- TT_RPOS_LINE_Pn.LINE. -/
def TT_RPOS_LINE_LINE : Fld := (29, 16)

/-- TT_RPOS_LINE_Pn.PIXEL. -/
def TT_RPOS_LINE_PIXEL : Fld := (15, 0)

/-- TT_RPOS_DT_LO_Pn (02 R50). -/
def TT_RPOS_DT_LO (i : Nat) : Nat := 0x10108 + 16 * i

/-- TT_RPOS_DT_LO_Pn.DT_LO. -/
def TT_RPOS_DT_LO_DT_LO : Fld := (31, 0)

/-- TT_RPOS_DT_HI_Pn (02 R50). -/
def TT_RPOS_DT_HI (i : Nat) : Nat := 0x1010C + 16 * i

/-- TT_RPOS_DT_HI_Pn.DT_HI. -/
def TT_RPOS_DT_HI_DT_HI : Fld := (31, 0)

/-- TT_FL_CTRL_Pn (02 R76). -/
def TT_FL_CTRL (i : Nat) : Nat := 0x10200 + 8 * i

/-- TT_FL_CTRL_Pn.EN. -/
def TT_FL_CTRL_EN : Fld := (31, 31)

/-- TT_FL_CTRL_Pn.JUMP. -/
def TT_FL_CTRL_JUMP : Fld := (30, 30)

/-- TT_FL_CTRL_Pn.SRC. -/
def TT_FL_CTRL_SRC : Fld := (29, 28)

/-- TT_FL_CTRL_Pn.REF. -/
def TT_FL_CTRL_REF : Fld := (27, 24)

/-- TT_FL_CTRL_Pn.MUL. -/
def TT_FL_CTRL_MUL : Fld := (23, 22)

/-- TT_FL_CTRL_Pn.DIV. -/
def TT_FL_CTRL_DIV : Fld := (21, 20)

/-- TT_FL_CTRL_Pn.OFFSET. -/
def TT_FL_CTRL_OFFSET : Fld := (15, 0)

/-- TT_FL_STAT_Pn (02 R76). -/
def TT_FL_STAT (i : Nat) : Nat := 0x10204 + 8 * i

/-- TT_FL_STAT_Pn.STATE. -/
def TT_FL_STAT_STATE : Fld := (31, 30)

/-- TT_FL_STAT_Pn.RANGE. -/
def TT_FL_STAT_RANGE : Fld := (29, 29)

/-- TT_FL_STAT_Pn.ERROR. -/
def TT_FL_STAT_ERROR : Fld := (23, 0)

/-- TT_FL_PIN (02 R76). -/
def TT_FL_PIN : Nat := 0x10300

/-- TT_FL_PIN.OUT_EN. -/
def TT_FL_PIN_OUT_EN : Fld := (15, 15)

/-- TT_FL_PIN.OUT_POL. -/
def TT_FL_PIN_OUT_POL : Fld := (14, 14)

/-- TT_FL_PIN.OUT_SRC. -/
def TT_FL_PIN_OUT_SRC : Fld := (13, 10)

/-- TT_FL_PIN.OUT_WIDTH. -/
def TT_FL_PIN_OUT_WIDTH : Fld := (9, 6)

/-- TT_FL_PIN.IN_POL. -/
def TT_FL_PIN_IN_POL : Fld := (5, 5)

/-- HS_KICK (03 R92). -/
def HS_KICK : Nat := 0x20000

/-- HS_KICK.OP. -/
def HS_KICK_OP : Fld := (31, 30)

/-- HS_KICK.RING. -/
def HS_KICK_RING : Fld := (4, 0)

/-- HS_FCB_LO (03 R92). -/
def HS_FCB_LO : Nat := 0x20008

/-- HS_FCB_LO.ADDR_LO. -/
def HS_FCB_LO_ADDR_LO : Fld := (31, 12)

/-- HS_FCB_HI (03 R92). -/
def HS_FCB_HI : Nat := 0x2000C

/-- HS_FCB_HI.ADDR_HI. -/
def HS_FCB_HI_ADDR_HI : Fld := (31, 0)

/-- HS_PT_SEL (04 R121). -/
def HS_PT_SEL : Nat := 0x20100

/-- HS_PT_SEL.FN. -/
def HS_PT_SEL_FN : Fld := (4, 0)

/-- HS_PT_Wk (04 R121). -/
def HS_PT_W (i : Nat) : Nat := 0x20140 + 4 * i

/-- HS_PT_Wk.WORD. -/
def HS_PT_W_WORD : Fld := (31, 0)

/-- HS_PT_STAT (04 R121). -/
def HS_PT_STAT : Nat := 0x20180

/-- HS_PT_STAT.BUSY. -/
def HS_PT_STAT_BUSY : Fld := (31, 31)

/-- HS_PT_STAT.LAST. -/
def HS_PT_STAT_LAST : Fld := (23, 16)

/-- HS_TP_CTRL (04 R136). -/
def HS_TP_CTRL : Nat := 0x20184

/-- HS_TP_CTRL.EN. -/
def HS_TP_CTRL_EN : Fld := (31, 31)

/-- HS_TP_CTRL.ACTIVE. -/
def HS_TP_CTRL_ACTIVE : Fld := (30, 30)

/-- HS_TP_CTRL.REF. -/
def HS_TP_CTRL_REF : Fld := (3, 0)

/-- HS_FN_STATE0 (04 R129). -/
def HS_FN_STATE0 : Nat := 0x20190

/-- HS_FN_STATE0.F15_F0. -/
def HS_FN_STATE0_F15_F0 : Fld := (31, 0)

/-- HS_FN_STATE1 (04 R129). -/
def HS_FN_STATE1 : Nat := 0x20194

/-- HS_FN_STATE1.F31_F16. -/
def HS_FN_STATE1_F31_F16 : Fld := (31, 0)

/-- MM_ROOT_LO_Fn (04 R134). -/
def MM_ROOT_LO (i : Nat) : Nat := 0x30000 + 16 * i

/-- MM_ROOT_LO_Fn.ROOT_LO. -/
def MM_ROOT_LO_ROOT_LO : Fld := (31, 12)

/-- MM_ROOT_HI_Fn (04 R134). -/
def MM_ROOT_HI (i : Nat) : Nat := 0x30004 + 16 * i

/-- MM_ROOT_HI_Fn.ROOT_HI. -/
def MM_ROOT_HI_ROOT_HI : Fld := (31, 0)

/-- MM_CTRL_Fn (04 R133). -/
def MM_CTRL (i : Nat) : Nat := 0x30008 + 16 * i

/-- MM_CTRL_Fn.SELF. -/
def MM_CTRL_SELF : Fld := (1, 1)

/-- MM_CTRL_Fn.EN. -/
def MM_CTRL_EN : Fld := (0, 0)

/-- MM_TBL_BASE_LO (04 R134). -/
def MM_TBL_BASE_LO : Nat := 0x30200

/-- MM_TBL_BASE_LO.BASE. -/
def MM_TBL_BASE_LO_BASE : Fld := (31, 0)

/-- MM_TBL_BASE_HI (04 R134). -/
def MM_TBL_BASE_HI : Nat := 0x30204

/-- MM_TBL_BASE_HI.BASE. -/
def MM_TBL_BASE_HI_BASE : Fld := (31, 0)

/-- MM_TBL_LIMIT_LO (04 R134). -/
def MM_TBL_LIMIT_LO : Nat := 0x30208

/-- MM_TBL_LIMIT_LO.LIMIT. -/
def MM_TBL_LIMIT_LO_LIMIT : Fld := (31, 0)

/-- MM_TBL_LIMIT_HI (04 R134). -/
def MM_TBL_LIMIT_HI : Nat := 0x3020C

/-- MM_TBL_LIMIT_HI.LIMIT. -/
def MM_TBL_LIMIT_HI_LIMIT : Fld := (31, 0)

/-- MM_INVAL (04 R134). -/
def MM_INVAL : Nat := 0x30210

/-- MM_INVAL.SCOPE. -/
def MM_INVAL_SCOPE : Fld := (31, 30)

/-- MM_INVAL.PAGES. -/
def MM_INVAL_PAGES : Fld := (29, 13)

/-- MM_INVAL.FN. -/
def MM_INVAL_FN : Fld := (4, 0)

/-- MM_INVAL_ADDR_LO (04 R134). -/
def MM_INVAL_ADDR_LO : Nat := 0x30214

/-- MM_INVAL_ADDR_LO.ADDR. -/
def MM_INVAL_ADDR_LO_ADDR : Fld := (31, 0)

/-- MM_INVAL_ADDR_HI (04 R134). -/
def MM_INVAL_ADDR_HI : Nat := 0x30218

/-- MM_INVAL_ADDR_HI.ADDR. -/
def MM_INVAL_ADDR_HI_ADDR : Fld := (31, 0)

/-- MM_INVAL_STAT (04 R134). -/
def MM_INVAL_STAT : Nat := 0x3021C

/-- MM_INVAL_STAT.DONE. -/
def MM_INVAL_STAT_DONE : Fld := (0, 0)

/-- GX_CTRL (05 R176). -/
def GX_CTRL : Nat := 0x40000

/-- GX_CTRL.SPLIT_EVT. -/
def GX_CTRL_SPLIT_EVT : Fld := (1, 1)

/-- GX_CTRL.SIDING_EVT. -/
def GX_CTRL_SIDING_EVT : Fld := (0, 0)

/-- GX_STATUS (05 R184). -/
def GX_STATUS : Nat := 0x40004

/-- GX_STATUS.JOBS. -/
def GX_STATUS_JOBS : Fld := (24, 16)

/-- GX_STATUS.GPU_MHZ. -/
def GX_STATUS_GPU_MHZ : Fld := (10, 0)

/-- GX_LIMITS (05 R156). -/
def GX_LIMITS : Nat := 0x40008

/-- GX_LIMITS.OBJ_VERSION. -/
def GX_LIMITS_OBJ_VERSION : Fld := (31, 24)

/-- GX_LIMITS.MAX_DIM. -/
def GX_LIMITS_MAX_DIM : Fld := (14, 0)

/-- GX_TM_ECC (05 R167). -/
def GX_TM_ECC : Nat := 0x40010

/-- GX_TM_ECC.CORRECTED. -/
def GX_TM_ECC_CORRECTED : Fld := (31, 16)

/-- GX_TM_ECC.CLUSTER. -/
def GX_TM_ECC_CLUSTER : Fld := (4, 0)

/-- GX_SCHED_CTRL (06 R183). -/
def GX_SCHED_CTRL : Nat := 0x40100

/-- GX_SCHED_CTRL.BUDGET_PLAT. -/
def GX_SCHED_CTRL_BUDGET_PLAT : Fld := (23, 20)

/-- GX_SCHED_CTRL.BUDGET_EVT. -/
def GX_SCHED_CTRL_BUDGET_EVT : Fld := (16, 16)

/-- GX_EXP_CTRL (06 R185). -/
def GX_EXP_CTRL : Nat := 0x40104

/-- GX_EXP_CTRL.RES_OTHER. -/
def GX_EXP_CTRL_RES_OTHER : Fld := (31, 16)

/-- GX_EXP_CTRL.RES_EXP. -/
def GX_EXP_CTRL_RES_EXP : Fld := (15, 0)

/-- GX_EXP_LEAD (06 R186). -/
def GX_EXP_LEAD : Nat := 0x40108

/-- GX_EXP_LEAD.RESERVE_US. -/
def GX_EXP_LEAD_RESERVE_US : Fld := (15, 0)

/-- GX_CLMAP_g (06 R177). -/
def GX_CLMAP (i : Nat) : Nat := 0x40110 + 4 * i

/-- GX_CLMAP_g.SPARE. -/
def GX_CLMAP_SPARE : Fld := (14, 12)

/-- GX_CLMAP_g.SLOT3. -/
def GX_CLMAP_SLOT3 : Fld := (11, 9)

/-- GX_CLMAP_g.SLOT2. -/
def GX_CLMAP_SLOT2 : Fld := (8, 6)

/-- GX_CLMAP_g.SLOT1. -/
def GX_CLMAP_SLOT1 : Fld := (5, 3)

/-- GX_CLMAP_g.SLOT0. -/
def GX_CLMAP_SLOT0 : Fld := (2, 0)

/-- GX_CL_STAT_n (06 R200). -/
def GX_CL_STAT (i : Nat) : Nat := 0x40120 + 4 * i

/-- GX_CL_STAT_n.STATE. -/
def GX_CL_STAT_STATE : Fld := (31, 30)

/-- GX_CL_STAT_n.CAUSE. -/
def GX_CL_STAT_CAUSE : Fld := (29, 27)

/-- GX_CL_STAT_n.SLOT. -/
def GX_CL_STAT_SLOT : Fld := (24, 20)

/-- GX_CL_STAT_n.DEATHS. -/
def GX_CL_STAT_DEATHS : Fld := (15, 0)

/-- GX_BIST (06 R198). -/
def GX_BIST : Nat := 0x40180

/-- GX_BIST.START. -/
def GX_BIST_START : Fld := (31, 31)

/-- GX_BIST.RESULT. -/
def GX_BIST_RESULT : Fld := (30, 29)

/-- GX_BIST.CLUSTER. -/
def GX_BIST_CLUSTER : Fld := (4, 0)

/-- GX_POST_CNT (06 R197). -/
def GX_POST_CNT : Nat := 0x40190

/-- GX_POST_CNT.COUNT. -/
def GX_POST_CNT_COUNT : Fld := (31, 0)

/-- GX_POST_LAST (06 R197). -/
def GX_POST_LAST : Nat := 0x40194

/-- GX_POST_LAST.MID. -/
def GX_POST_LAST_MID : Fld := (31, 24)

/-- GX_POST_LAST.WR. -/
def GX_POST_LAST_WR : Fld := (0, 0)

/-- GX_POST_DT_LO (06 R197). -/
def GX_POST_DT_LO : Nat := 0x40198

/-- GX_POST_DT_LO.DT_LO. -/
def GX_POST_DT_LO_DT_LO : Fld := (31, 0)

/-- GX_POST_DT_HI (06 R197). -/
def GX_POST_DT_HI : Nat := 0x4019C

/-- GX_POST_DT_HI.DT_HI. -/
def GX_POST_DT_HI_DT_HI : Fld := (31, 0)

/-- GX_CTX_STAT_n (05 R146). -/
def GX_CTX_STAT (i : Nat) : Nat := 0x41000 + 4 * i

/-- GX_CTX_STAT_n.STATE. -/
def GX_CTX_STAT_STATE : Fld := (31, 30)

/-- GX_CTX_STAT_n.EXPRESS. -/
def GX_CTX_STAT_EXPRESS : Fld := (29, 29)

/-- GX_CTX_STAT_n.POOL. -/
def GX_CTX_STAT_POOL : Fld := (28, 28)

/-- GX_CTX_STAT_n.SIDING. -/
def GX_CTX_STAT_SIDING : Fld := (27, 27)

/-- GX_CTX_STAT_n.SCRATCH. -/
def GX_CTX_STAT_SCRATCH : Fld := (26, 26)

/-- GX_CTX_STAT_n.OWNER. -/
def GX_CTX_STAT_OWNER : Fld := (23, 16)

/-- GX_CTX_STAT_n.QUEUED. -/
def GX_CTX_STAT_QUEUED : Fld := (8, 0)

/-- CM_CTRL (07 R230). -/
def CM_CTRL : Nat := 0x80000

/-- CM_CTRL.EXP_H. -/
def CM_CTRL_EXP_H : Fld := (16, 16)

/-- CM_CTRL.LATE_CHK. -/
def CM_CTRL_LATE_CHK : Fld := (15, 8)

/-- CM_CTRL.LATE_LANES. -/
def CM_CTRL_LATE_LANES : Fld := (2, 0)

/-- CM_STATUS (07 R235). -/
def CM_STATUS : Nat := 0x80004

/-- CM_STATUS.FALLBACK. -/
def CM_STATUS_FALLBACK : Fld := (31, 24)

/-- CM_STATUS.RECOMPOSED. -/
def CM_STATUS_RECOMPOSED : Fld := (23, 16)

/-- CM_STATUS.STAGE_STATUS. -/
def CM_STATUS_STAGE_STATUS : Fld := (15, 8)

/-- CM_STATUS.SI_STATUS. -/
def CM_STATUS_SI_STATUS : Fld := (7, 0)

/-- CM_SI_LAYERS_LO (07 R228). -/
def CM_SI_LAYERS_LO : Nat := 0x80010

/-- CM_SI_LAYERS_LO.LAYERS. -/
def CM_SI_LAYERS_LO_LAYERS : Fld := (31, 0)

/-- CM_SI_LAYERS_HI (07 R228). -/
def CM_SI_LAYERS_HI : Nat := 0x80014

/-- CM_SI_LAYERS_HI.LAYERS. -/
def CM_SI_LAYERS_HI_LAYERS : Fld := (31, 0)

/-- CM_CC3_AUTH (07 R228). -/
def CM_CC3_AUTH : Nat := 0x80018

/-- CM_CC3_AUTH.FN. -/
def CM_CC3_AUTH_FN : Fld := (31, 0)

/-- CM_SI_COMMIT (07 R236). -/
def CM_SI_COMMIT : Nat := 0x8001C

/-- CM_SI_COMMIT.BUSY. -/
def CM_SI_COMMIT_BUSY : Fld := (31, 31)

/-- CM_SI_COMMIT.ANCHOR. -/
def CM_SI_COMMIT_ANCHOR : Fld := (19, 16)

/-- CM_SI_COMMIT.GROUP. -/
def CM_SI_COMMIT_GROUP : Fld := (15, 0)

/-- CM_FRT_BASE_LO (07 R232). -/
def CM_FRT_BASE_LO : Nat := 0x80020

/-- CM_FRT_BASE_LO.BASE. -/
def CM_FRT_BASE_LO_BASE : Fld := (31, 16)

/-- CM_FRT_BASE_HI (07 R232). -/
def CM_FRT_BASE_HI : Nat := 0x80024

/-- CM_FRT_BASE_HI.BASE. -/
def CM_FRT_BASE_HI_BASE : Fld := (31, 0)

/-- CM_FRT_SIZE (07 R232). -/
def CM_FRT_SIZE : Nat := 0x80028

/-- CM_FRT_SIZE.SIZE. -/
def CM_FRT_SIZE_SIZE : Fld := (31, 0)

/-- CM_PLAT_Pn_W0 (07 R220). -/
def CM_PLAT_W0 (i : Nat) : Nat := 0x80100 + 64 * i

/-- CM_PLAT_Pn_W0.PLATFORM. -/
def CM_PLAT_W0_PLATFORM : Fld := (27, 24)

/-- CM_PLAT_Pn_W0.OUT_TF. -/
def CM_PLAT_W0_OUT_TF : Fld := (23, 20)

/-- CM_PLAT_Pn_W0.DITHER. -/
def CM_PLAT_W0_DITHER : Fld := (19, 18)

/-- CM_PLAT_Pn_W0.LUT_EN. -/
def CM_PLAT_W0_LUT_EN : Fld := (17, 17)

/-- CM_PLAT_Pn_W0.TONE_LOAD. -/
def CM_PLAT_W0_TONE_LOAD : Fld := (16, 16)

/-- CM_PLAT_Pn_W0.LUT_LOAD. -/
def CM_PLAT_W0_LUT_LOAD : Fld := (15, 15)

/-- CM_PLAT_Pn_W0.CLEAR_PATCHES. -/
def CM_PLAT_W0_CLEAR_PATCHES : Fld := (14, 14)

/-- CM_PLAT_Pn_W0.WHITE_NITS. -/
def CM_PLAT_W0_WHITE_NITS : Fld := (13, 0)

/-- CM_PLAT_Pn_BG (07 R220). -/
def CM_PLAT_BG (i : Nat) : Nat := 0x80104 + 64 * i

/-- CM_PLAT_Pn_BG.BACKGROUND. -/
def CM_PLAT_BG_BACKGROUND : Fld := (29, 0)

/-- CM_PLAT_Pn_DEP (07 R220). -/
def CM_PLAT_DEP (i : Nat) : Nat := 0x80108 + 64 * i

/-- CM_PLAT_Pn_DEP.DEPARTURE. -/
def CM_PLAT_DEP_DEPARTURE : Fld := (29, 0)

/-- CM_PLAT_Pn_LATE (07 R220). -/
def CM_PLAT_LATE (i : Nat) : Nat := 0x8010C + 64 * i

/-- CM_PLAT_Pn_LATE.LATE. -/
def CM_PLAT_LATE_LATE : Fld := (29, 0)

/-- CM_PLAT_Pn_W4_7 (07 R220). -/
def CM_PLAT_W4 (i : Nat) (j : Nat) : Nat := 0x80110 + 64 * i + 4 * j

/-- CM_PLAT_Pn_W4_7.ADDR. -/
def CM_PLAT_W4_ADDR : Fld := (31, 0)

/-- CM_PLAT_Pn_CRC_TONE (07 R221). -/
def CM_PLAT_CRC_TONE (i : Nat) : Nat := 0x80120 + 64 * i

/-- CM_PLAT_Pn_CRC_TONE.CRC. -/
def CM_PLAT_CRC_TONE_CRC : Fld := (31, 0)

/-- CM_PLAT_Pn_CRC_LUT (07 R221). -/
def CM_PLAT_CRC_LUT (i : Nat) : Nat := 0x80124 + 64 * i

/-- CM_PLAT_Pn_CRC_LUT.CRC. -/
def CM_PLAT_CRC_LUT_CRC : Fld := (31, 0)

/-- CM_GD_OWN_Pn (07 R228). -/
def CM_GD_OWN (i : Nat) (j : Nat) : Nat := 0x80600 + 16 * i + 4 * j

/-- CM_GD_OWN_Pn.OWN. -/
def CM_GD_OWN_OWN : Fld := (31, 0)

/-- CM_STITCH_Pn (07 R224). -/
def CM_STITCH (i : Nat) (j : Nat) : Nat := 0x80800 + 64 * i + 4 * j

/-- CM_STITCH_Pn.WORD. -/
def CM_STITCH_WORD : Fld := (31, 0)

/-- CM_LAYER_k (07 R236). -/
def CM_LAYER (i : Nat) (j : Nat) : Nat := 0x81000 + 64 * i + 4 * j

/-- CM_LAYER_k.WORD. -/
def CM_LAYER_WORD : Fld := (31, 0)

/-- CM_LAYER_k_LSTAT (07 R206). -/
def CM_LAYER_LSTAT (i : Nat) : Nat := 0x81030 + 64 * i

/-- CM_LAYER_k_LSTAT.STATE. -/
def CM_LAYER_LSTAT_STATE : Fld := (31, 30)

/-- CM_LAYER_k_LSTAT.EFF_CC. -/
def CM_LAYER_LSTAT_EFF_CC : Fld := (29, 28)

/-- CM_LAYER_k_LSTAT.FAULTED. -/
def CM_LAYER_LSTAT_FAULTED : Fld := (27, 27)

/-- CM_LAYER_k_LSTAT.OWNER. -/
def CM_LAYER_LSTAT_OWNER : Fld := (7, 0)

/-- CM_GUARD_Pn_r (07 R227). -/
def CM_GUARD (i : Nat) (j : Nat) (k : Nat) : Nat := 0x82000 + 256 * i + 16 * j + 4 * k

/-- CM_GUARD_Pn_r.WORD. -/
def CM_GUARD_WORD : Fld := (31, 0)

/-- CM_SCB_k_b (07 R217). -/
def CM_SCB (i : Nat) (j : Nat) (k : Nat) : Nat := 0x90000 + 4096 * i + 2048 * j + 4 * k

/-- CM_SCB_k_b.HI. -/
def CM_SCB_HI : Fld := (25, 16)

/-- CM_SCB_k_b.LO. -/
def CM_SCB_LO : Fld := (9, 0)

/-- BF_STATUS (08 R252). -/
def BF_STATUS : Nat := 0xA0004

/-- BF_STATUS.FAULTS. -/
def BF_STATUS_FAULTS : Fld := (31, 24)

/-- BF_STATUS.LBC_BAD. -/
def BF_STATUS_LBC_BAD : Fld := (23, 16)

/-- BF_STATUS.ENTRIES. -/
def BF_STATUS_ENTRIES : Fld := (13, 0)

/-- SK_RES_n (08 R254). -/
def SK_RES (i : Nat) : Nat := 0xA1000 + 4 * i

/-- SK_RES_n.BLOCKS. -/
def SK_RES_BLOCKS : Fld := (13, 0)

/-- SK_USE_n (08 R255). -/
def SK_USE (i : Nat) : Nat := 0xA1040 + 4 * i

/-- SK_USE_n.IN_USE. -/
def SK_USE_IN_USE : Fld := (29, 16)

/-- SK_USE_n.LENT. -/
def SK_USE_LENT : Fld := (13, 0)

/-- SK_STATUS (08 R256). -/
def SK_STATUS : Nat := 0xA1080

/-- SK_STATUS.COMMON_FREE. -/
def SK_STATUS_COMMON_FREE : Fld := (29, 16)

/-- SK_STATUS.RECLAIMS. -/
def SK_STATUS_RECLAIMS : Fld := (15, 8)

/-- SK_SEC_WM (14 R382). -/
def SK_SEC_WM : Nat := 0xA1084

/-- SK_SEC_WM.WM. -/
def SK_SEC_WM_WM : Fld := (12, 0)

/-- SK_SEC_SCRUB (14 R383). -/
def SK_SEC_SCRUB : Nat := 0xA1088

/-- SK_SEC_SCRUB.TARGET. -/
def SK_SEC_SCRUB_TARGET : Fld := (12, 0)

/-- SK_SEC_STAT (14 R382). -/
def SK_SEC_STAT : Nat := 0xA108C

/-- SK_SEC_STAT.BUSY. -/
def SK_SEC_STAT_BUSY : Fld := (31, 31)

/-- SO_STATUS (09 R259). -/
def SO_STATUS : Nat := 0xC0004

/-- SO_STATUS.RATE_MHZ. -/
def SO_STATUS_RATE_MHZ : Fld := (28, 16)

/-- SO_STATUS.STAGE_STATUS. -/
def SO_STATUS_STAGE_STATUS : Fld := (7, 0)

/-- SO_MUTE (09 R272). -/
def SO_MUTE : Nat := 0xC0008

/-- SO_MUTE.MUTE. -/
def SO_MUTE_MUTE : Fld := (13, 0)

/-- SO_DPLL_k_W0 (09 R265). -/
def SO_DPLL_W0 (i : Nat) : Nat := 0xC0100 + 16 * i

/-- SO_DPLL_k_W0.EN. -/
def SO_DPLL_W0_EN : Fld := (31, 31)

/-- SO_DPLL_k_W0.POST. -/
def SO_DPLL_W0_POST : Fld := (15, 8)

/-- SO_DPLL_k_W0.N. -/
def SO_DPLL_W0_N : Fld := (7, 0)

/-- SO_DPLL_k_W1 (09 R265). -/
def SO_DPLL_W1 (i : Nat) : Nat := 0xC0104 + 16 * i

/-- SO_DPLL_k_W1.FRAC. -/
def SO_DPLL_W1_FRAC : Fld := (23, 0)

/-- SO_DPLL_k_W2 (09 R265). -/
def SO_DPLL_W2 (i : Nat) : Nat := 0xC0108 + 16 * i

/-- SO_DPLL_k_W2.LOCK. -/
def SO_DPLL_W2_LOCK : Fld := (31, 31)

/-- SO_DPLL_k_W2.FREQ_KHZ. -/
def SO_DPLL_W2_FREQ_KHZ : Fld := (20, 0)

/-- SO_ROUTE_s (09 R267). -/
def SO_ROUTE (i : Nat) : Nat := 0xC0400 + 4 * i

/-- SO_ROUTE_s.EN. -/
def SO_ROUTE_EN : Fld := (31, 31)

/-- SO_ROUTE_s.SRC. -/
def SO_ROUTE_SRC : Fld := (27, 24)

/-- SO_ROUTE_s.SPLIT. -/
def SO_ROUTE_SPLIT : Fld := (21, 20)

/-- SO_ROUTE_s.DSC_EN. -/
def SO_ROUTE_DSC_EN : Fld := (16, 16)

/-- SO_ROUTE_s.DSC_ENC. -/
def SO_ROUTE_DSC_ENC : Fld := (13, 12)

/-- SO_DP_CFG_p (09 R274). -/
def SO_DP_CFG (i : Nat) : Nat := 0xC0800 + 64 * i

/-- SO_DP_CFG_p.EN. -/
def SO_DP_CFG_EN : Fld := (31, 31)

/-- SO_DP_CFG_p.EDP. -/
def SO_DP_CFG_EDP : Fld := (30, 30)

/-- SO_DP_CFG_p.MST. -/
def SO_DP_CFG_MST : Fld := (29, 29)

/-- SO_DP_CFG_p.FEC. -/
def SO_DP_CFG_FEC : Fld := (28, 28)

/-- SO_DP_CFG_p.LANES. -/
def SO_DP_CFG_LANES : Fld := (25, 24)

/-- SO_DP_CFG_p.RATE. -/
def SO_DP_CFG_RATE : Fld := (19, 16)

/-- SO_DP_STAT_p (09 R271). -/
def SO_DP_STAT (i : Nat) : Nat := 0xC0804 + 64 * i

/-- SO_DP_STAT_p.STATE. -/
def SO_DP_STAT_STATE : Fld := (31, 29)

/-- SO_DP_STAT_p.HPD. -/
def SO_DP_STAT_HPD : Fld := (28, 28)

/-- SO_DP_STAT_p.TRAIN_FAILS. -/
def SO_DP_STAT_TRAIN_FAILS : Fld := (15, 8)

/-- SO_DP_STAT_p.SLOTS. -/
def SO_DP_STAT_SLOTS : Fld := (6, 0)

/-- SO_AUX_CMD_p (09 R276). -/
def SO_AUX_CMD (i : Nat) : Nat := 0xC0808 + 64 * i

/-- SO_AUX_CMD_p.GO. -/
def SO_AUX_CMD_GO : Fld := (31, 31)

/-- SO_AUX_CMD_p.CMD. -/
def SO_AUX_CMD_CMD : Fld := (29, 28)

/-- SO_AUX_CMD_p.MOT. -/
def SO_AUX_CMD_MOT : Fld := (27, 27)

/-- SO_AUX_CMD_p.LEN. -/
def SO_AUX_CMD_LEN : Fld := (3, 0)

/-- SO_AUX_ADDR_p (09 R276). -/
def SO_AUX_ADDR (i : Nat) : Nat := 0xC080C + 64 * i

/-- SO_AUX_ADDR_p.ADDR. -/
def SO_AUX_ADDR_ADDR : Fld := (19, 0)

/-- SO_AUX_DATA_p (09 R276). -/
def SO_AUX_DATA (i : Nat) (j : Nat) : Nat := 0xC0810 + 64 * i + 4 * j

/-- SO_AUX_DATA_p.DATA. -/
def SO_AUX_DATA_DATA : Fld := (31, 0)

/-- SO_AUX_STAT_p (09 R276). -/
def SO_AUX_STAT (i : Nat) : Nat := 0xC0820 + 64 * i

/-- SO_AUX_STAT_p.RESULT. -/
def SO_AUX_STAT_RESULT : Fld := (7, 4)

/-- SO_AUX_STAT_p.COUNT. -/
def SO_AUX_STAT_COUNT : Fld := (3, 0)

/-- SO_AP_CFG_q (09 R282). -/
def SO_AP_CFG (i : Nat) : Nat := 0xC0A00 + 32 * i

/-- SO_AP_CFG_q.EN. -/
def SO_AP_CFG_EN : Fld := (31, 31)

/-- SO_AP_CFG_q.GEAR. -/
def SO_AP_CFG_GEAR : Fld := (2, 0)

/-- SO_AP_STAT_q (09 R283). -/
def SO_AP_STAT (i : Nat) : Nat := 0xC0A04 + 32 * i

/-- SO_AP_STAT_q.STATE. -/
def SO_AP_STAT_STATE : Fld := (31, 29)

/-- SO_AP_STAT_q.DROPS. -/
def SO_AP_STAT_DROPS : Fld := (28, 16)

/-- SO_AP_STAT_q.RETRANS. -/
def SO_AP_STAT_RETRANS : Fld := (15, 0)

/-- SO_DS_CFG_d (09 R284). -/
def SO_DS_CFG (i : Nat) : Nat := 0xC0B00 + 32 * i

/-- SO_DS_CFG_d.EN. -/
def SO_DS_CFG_EN : Fld := (31, 31)

/-- SO_DS_CFG_d.PHY. -/
def SO_DS_CFG_PHY : Fld := (30, 30)

/-- SO_DS_CFG_d.MODE. -/
def SO_DS_CFG_MODE : Fld := (29, 28)

/-- SO_DS_CFG_d.LANES. -/
def SO_DS_CFG_LANES : Fld := (27, 26)

/-- SO_DS_CFG_d.TE_SEL. -/
def SO_DS_CFG_TE_SEL : Fld := (25, 24)

/-- SO_DS_CFG_d.TE_MODE. -/
def SO_DS_CFG_TE_MODE : Fld := (23, 23)

/-- SO_DS_CFG_d.TE_POL. -/
def SO_DS_CFG_TE_POL : Fld := (22, 22)

/-- SO_DS_CFG_d.RATE. -/
def SO_DS_CFG_RATE : Fld := (12, 0)

/-- SO_DS_STAT_d (09 R285). -/
def SO_DS_STAT (i : Nat) : Nat := 0xC0B04 + 32 * i

/-- SO_DS_STAT_d.STATE. -/
def SO_DS_STAT_STATE : Fld := (31, 29)

/-- SO_DS_STAT_d.TE_EARLY. -/
def SO_DS_STAT_TE_EARLY : Fld := (28, 16)

/-- SO_DS_STAT_d.TE_MISSED. -/
def SO_DS_STAT_TE_MISSED : Fld := (15, 0)

/-- SO_DS_TE_d (09 R285). -/
def SO_DS_TE (i : Nat) : Nat := 0xC0B08 + 32 * i

/-- SO_DS_TE_d.TE_TIMEOUT. -/
def SO_DS_TE_TE_TIMEOUT : Fld := (11, 0)

/-- SO_DSC_e (09 R278). -/
def SO_DSC (i : Nat) : Nat := 0xC0C00 + 16 * i

/-- SO_DSC_e.SLICES. -/
def SO_DSC_SLICES : Fld := (31, 30)

/-- SO_DSC_e.BLOCK_PRED. -/
def SO_DSC_BLOCK_PRED : Fld := (29, 29)

/-- SO_DSC_e.SLICE_H. -/
def SO_DSC_SLICE_H : Fld := (24, 12)

/-- SO_DSC_e.BPP. -/
def SO_DSC_BPP : Fld := (9, 0)

/-- SO_BKL_k_W0 (09 R290). -/
def SO_BKL_W0 (i : Nat) : Nat := 0xC0E00 + 8 * i

/-- SO_BKL_k_W0.EN. -/
def SO_BKL_W0_EN : Fld := (31, 31)

/-- SO_BKL_k_W0.POL. -/
def SO_BKL_W0_POL : Fld := (30, 30)

/-- SO_BKL_k_W0.LOCK. -/
def SO_BKL_W0_LOCK : Fld := (29, 29)

/-- SO_BKL_k_W0.FOLLOW. -/
def SO_BKL_W0_FOLLOW : Fld := (28, 28)

/-- SO_BKL_k_W0.PLATFORM. -/
def SO_BKL_W0_PLATFORM : Fld := (27, 24)

/-- SO_BKL_k_W0.PERIOD. -/
def SO_BKL_W0_PERIOD : Fld := (19, 0)

/-- SO_BKL_k_W1 (09 R290). -/
def SO_BKL_W1 (i : Nat) : Nat := 0xC0E04 + 8 * i

/-- SO_BKL_k_W1.DUTY. -/
def SO_BKL_W1_DUTY : Fld := (15, 0)

/-- SO_PCTRL_Pn (09 R259). -/
def SO_PCTRL (i : Nat) : Nat := 0xC1000 + 64 * i

/-- SO_PCTRL_Pn.EN. -/
def SO_PCTRL_EN : Fld := (31, 31)

/-- SO_PCTRL_Pn.STD_EN. -/
def SO_PCTRL_STD_EN : Fld := (30, 30)

/-- SO_PCTRL_Pn.STD_1001. -/
def SO_PCTRL_STD_1001 : Fld := (29, 29)

/-- SO_PCTRL_Pn.HPOL. -/
def SO_PCTRL_HPOL : Fld := (28, 28)

/-- SO_PCTRL_Pn.VPOL. -/
def SO_PCTRL_VPOL : Fld := (27, 27)

/-- SO_PCTRL_Pn.DEPTH. -/
def SO_PCTRL_DEPTH : Fld := (25, 24)

/-- SO_PCTRL_Pn.DPLL. -/
def SO_PCTRL_DPLL : Fld := (22, 20)

/-- SO_PCTRL_Pn.STD_INDEX. -/
def SO_PCTRL_STD_INDEX : Fld := (5, 0)

/-- SO_HTIM0_Pn (09 R260). -/
def SO_HTIM0 (i : Nat) : Nat := 0xC1004 + 64 * i

/-- SO_HTIM0_Pn.HFP. -/
def SO_HTIM0_HFP : Fld := (31, 16)

/-- SO_HTIM0_Pn.HACT. -/
def SO_HTIM0_HACT : Fld := (15, 0)

/-- SO_HTIM1_Pn (09 R260). -/
def SO_HTIM1 (i : Nat) : Nat := 0xC1008 + 64 * i

/-- SO_HTIM1_Pn.HBP. -/
def SO_HTIM1_HBP : Fld := (31, 16)

/-- SO_HTIM1_Pn.HSYNC. -/
def SO_HTIM1_HSYNC : Fld := (15, 0)

/-- SO_VTIM0_Pn (09 R260). -/
def SO_VTIM0 (i : Nat) : Nat := 0xC100C + 64 * i

/-- SO_VTIM0_Pn.VFP. -/
def SO_VTIM0_VFP : Fld := (31, 16)

/-- SO_VTIM0_Pn.VACT. -/
def SO_VTIM0_VACT : Fld := (15, 0)

/-- SO_VTIM1_Pn (09 R260). -/
def SO_VTIM1 (i : Nat) : Nat := 0xC1010 + 64 * i

/-- SO_VTIM1_Pn.VBP. -/
def SO_VTIM1_VBP : Fld := (31, 16)

/-- SO_VTIM1_Pn.VSYNC. -/
def SO_VTIM1_VSYNC : Fld := (15, 0)

/-- SO_PSR_Pn (09 R279). -/
def SO_PSR (i : Nat) : Nat := 0xC1014 + 64 * i

/-- SO_PSR_Pn.PSR_EN. -/
def SO_PSR_PSR_EN : Fld := (31, 31)

/-- SO_PSR_Pn.SU_EN. -/
def SO_PSR_SU_EN : Fld := (30, 30)

/-- SO_PSR_Pn.IDLE. -/
def SO_PSR_IDLE : Fld := (23, 16)

/-- SO_PSR_Pn.WAKE_US. -/
def SO_PSR_WAKE_US : Fld := (11, 0)

/-- SO_PSTAT_Pn (09 R279). -/
def SO_PSTAT (i : Nat) : Nat := 0xC1018 + 64 * i

/-- SO_PSTAT_Pn.STATE. -/
def SO_PSTAT_STATE : Fld := (31, 30)

/-- SO_PSTAT_Pn.VTOTAL. -/
def SO_PSTAT_VTOTAL : Fld := (29, 16)

/-- SO_PSTAT_Pn.HTOTAL. -/
def SO_PSTAT_HTOTAL : Fld := (15, 0)

/-- SO_UFLOW_Pn (09 R286). -/
def SO_UFLOW (i : Nat) : Nat := 0xC101C + 64 * i

/-- SO_UFLOW_Pn.FRAMES. -/
def SO_UFLOW_FRAMES : Fld := (31, 16)

/-- SO_UFLOW_Pn.LINES. -/
def SO_UFLOW_LINES : Fld := (15, 0)

/-- SO_FCRC_Pn (09 R287). -/
def SO_FCRC (i : Nat) : Nat := 0xC1020 + 64 * i

/-- SO_FCRC_Pn.CRC. -/
def SO_FCRC_CRC : Fld := (31, 0)

/-- SO_SIG_BIND_Pn (09 R288). -/
def SO_SIG_BIND (i : Nat) : Nat := 0xC2000 + 4 * i

/-- SO_SIG_BIND_Pn.BIND. -/
def SO_SIG_BIND_BIND : Fld := (15, 0)

/-- SO_SIG_EXP_Pn_r (09 R288). -/
def SO_SIG_EXP (i : Nat) (j : Nat) (k : Nat) : Nat := 0xC4000 + 512 * i + 32 * j + 4 * k

/-- SO_SIG_EXP_Pn_r.VALUE. -/
def SO_SIG_EXP_VALUE : Fld := (31, 0)

/-- SO_SIG_EXP_VALID (09 R288). -/
def SO_SIG_EXP_VALID (i : Nat) (j : Nat) : Nat := 0xC4010 + 512 * i + 32 * j

/-- SO_SIG_EXP_VALID.VALID. -/
def SO_SIG_EXP_VALID_VALID : Fld := (3, 0)

/-- SO_SIG_RES_CRC (09 R289). -/
def SO_SIG_RES_CRC (i : Nat) (j : Nat) : Nat := 0xC6000 + 256 * i + 16 * j

/-- SO_SIG_RES_CRC.CRC. -/
def SO_SIG_RES_CRC_CRC : Fld := (31, 0)

/-- SO_SIG_RES_FRAME (09 R289). -/
def SO_SIG_RES_FRAME (i : Nat) (j : Nat) : Nat := 0xC6004 + 256 * i + 16 * j

/-- SO_SIG_RES_FRAME.FRAME. -/
def SO_SIG_RES_FRAME_FRAME : Fld := (31, 0)

/-- SO_SIG_RES_OUT (09 R289). -/
def SO_SIG_RES_OUT (i : Nat) (j : Nat) : Nat := 0xC6008 + 256 * i + 16 * j

/-- SO_SIG_RES_OUT.SUBST. -/
def SO_SIG_RES_OUT_SUBST : Fld := (3, 3)

/-- SO_SIG_RES_OUT.LAND_IN. -/
def SO_SIG_RES_OUT_LAND_IN : Fld := (2, 2)

/-- SO_SIG_RES_OUT.OUTCOME. -/
def SO_SIG_RES_OUT_OUTCOME : Fld := (1, 0)

/-- TC_STATUS (10 R312). -/
def TC_STATUS : Nat := 0x100004

/-- TC_STATUS.OVERRUNS. -/
def TC_STATUS_OVERRUNS : Fld := (31, 24)

/-- TC_STATUS.AFE_ERRS. -/
def TC_STATUS_AFE_ERRS : Fld := (23, 16)

/-- TC_STATUS.DROPPED. -/
def TC_STATUS_DROPPED : Fld := (15, 8)

/-- TC_STATUS.TESTING. -/
def TC_STATUS_TESTING : Fld := (7, 0)

/-- TC_REF_WIN (10 R310). -/
def TC_REF_WIN : Nat := 0x100010

/-- TC_REF_WIN.REF_HI. -/
def TC_REF_WIN_REF_HI : Fld := (31, 16)

/-- TC_REF_WIN.REF_LO. -/
def TC_REF_WIN_REF_LO : Fld := (15, 0)

/-- TC_OS_CFG (10 R310). -/
def TC_OS_CFG : Nat := 0x100014

/-- TC_OS_CFG.OPEN_PCT. -/
def TC_OS_CFG_OPEN_PCT : Fld := (15, 8)

/-- TC_OS_CFG.SHORT_NA. -/
def TC_OS_CFG_SHORT_NA : Fld := (7, 0)

/-- TC_PANEL_t (10 R295). -/
def TC_PANEL (i : Nat) (j : Nat) : Nat := 0x100100 + 64 * i + 4 * j

/-- TC_PANEL_t.WORD. -/
def TC_PANEL_WORD : Fld := (31, 0)

/-- TC_PSTAT_t (10 R312). -/
def TC_PSTAT (i : Nat) : Nat := 0x100130 + 64 * i

/-- TC_PSTAT_t.STATE. -/
def TC_PSTAT_STATE : Fld := (31, 30)

/-- TC_PSTAT_t.CONTACTS. -/
def TC_PSTAT_CONTACTS : Fld := (29, 26)

/-- TC_PSTAT_t.SUSPECT. -/
def TC_PSTAT_SUSPECT : Fld := (25, 13)

/-- TC_PFRAME_t (10 R312). -/
def TC_PFRAME (i : Nat) : Nat := 0x100134 + 64 * i

/-- TC_PFRAME_t.TFRAME. -/
def TC_PFRAME_TFRAME : Fld := (31, 0)

/-- TC_KEY_k (10 R308). -/
def TC_KEY (i : Nat) (j : Nat) : Nat := 0x101000 + 16 * i + 4 * j

/-- TC_KEY_k.WORD. -/
def TC_KEY_WORD : Fld := (31, 0)

/-- TC_KEY_STAT_LO (10 R308). -/
def TC_KEY_STAT_LO : Nat := 0x101400

/-- TC_KEY_STAT_LO.PRESSED. -/
def TC_KEY_STAT_LO_PRESSED : Fld := (31, 0)

/-- TC_KEY_STAT_HI (10 R308). -/
def TC_KEY_STAT_HI : Nat := 0x101404

/-- TC_KEY_STAT_HI.PRESSED. -/
def TC_KEY_STAT_HI_PRESSED : Fld := (31, 0)

/-- TC_PICK_k (10 R305). -/
def TC_PICK (i : Nat) : Nat := 0x101500 + 4 * i

/-- TC_PICK_k.PASS. -/
def TC_PICK_PASS : Fld := (31, 31)

/-- TC_PICK_k.MIN_ALPHA. -/
def TC_PICK_MIN_ALPHA : Fld := (7, 0)

/-- TC_AP_BKL_q (10 R298). -/
def TC_AP_BKL (i : Nat) : Nat := 0x101600 + 8 * i

/-- TC_AP_BKL_q.BKL. -/
def TC_AP_BKL_BKL : Fld := (31, 0)

/-- TC_AP_HEALTH_q (10 R298). -/
def TC_AP_HEALTH (i : Nat) : Nat := 0x101604 + 8 * i

/-- TC_AP_HEALTH_q.HEALTH. -/
def TC_AP_HEALTH_HEALTH : Fld := (31, 0)

/-- HP_STATUS (11 R329). -/
def HP_STATUS : Nat := 0x110004

/-- HP_STATUS.DENIED. -/
def HP_STATUS_DENIED : Fld := (31, 24)

/-- HP_STATUS.SUPERSEDED. -/
def HP_STATUS_SUPERSEDED : Fld := (23, 16)

/-- HP_STATUS.FAULT. -/
def HP_STATUS_FAULT : Fld := (11, 0)

/-- HP_EFF_SEL (11 R317). -/
def HP_EFF_SEL : Nat := 0x110010

/-- HP_EFF_SEL.EFFECT. -/
def HP_EFF_SEL_EFFECT : Fld := (7, 0)

/-- HP_EFF_OWN (11 R317). -/
def HP_EFF_OWN : Nat := 0x110014

/-- HP_EFF_OWN.LOADED. -/
def HP_EFF_OWN_LOADED : Fld := (31, 31)

/-- HP_EFF_OWN.OWNER. -/
def HP_EFF_OWN_OWNER : Fld := (7, 0)

/-- HP_EFF_Wj (11 R317). -/
def HP_EFF_W (i : Nat) : Nat := 0x110100 + 4 * i

/-- HP_EFF_Wj.WORD. -/
def HP_EFF_W_WORD : Fld := (31, 0)

/-- HP_CFG_h_W0 (11 R315). -/
def HP_CFG_W0 (i : Nat) : Nat := 0x111000 + 32 * i

/-- HP_CFG_h_W0.EN. -/
def HP_CFG_W0_EN : Fld := (31, 31)

/-- HP_CFG_h_W0.TYPE. -/
def HP_CFG_W0_TYPE : Fld := (30, 30)

/-- HP_CFG_h_W0.TRACK. -/
def HP_CFG_W0_TRACK : Fld := (29, 29)

/-- HP_CFG_h_W0.KEY_URGENT. -/
def HP_CFG_W0_KEY_URGENT : Fld := (28, 28)

/-- HP_CFG_h_W0.BRAKE_MAX_MS. -/
def HP_CFG_W0_BRAKE_MAX_MS : Fld := (23, 16)

/-- HP_CFG_h_W0.F0_DHZ. -/
def HP_CFG_W0_F0_DHZ : Fld := (15, 0)

/-- HP_CFG_h_W1 (11 R315). -/
def HP_CFG_W1 (i : Nat) : Nat := 0x111004 + 32 * i

/-- HP_CFG_h_W1.RATED_MV. -/
def HP_CFG_W1_RATED_MV : Fld := (31, 16)

/-- HP_CFG_h_W1.BEMF_MV. -/
def HP_CFG_W1_BEMF_MV : Fld := (15, 0)

/-- HP_CFG_h_W2 (11 R315). -/
def HP_CFG_W2 (i : Nat) : Nat := 0x111008 + 32 * i

/-- HP_CFG_h_W2.SENSE_US. -/
def HP_CFG_W2_SENSE_US : Fld := (31, 22)

/-- HP_CFG_h_W2.MISSING_PCT. -/
def HP_CFG_W2_MISSING_PCT : Fld := (15, 8)

/-- HP_CFG_h_W2.STALL_PER. -/
def HP_CFG_W2_STALL_PER : Fld := (7, 4)

/-- HP_STAT_h (11 R325). -/
def HP_STAT (i : Nat) : Nat := 0x111010 + 32 * i

/-- HP_STAT_h.STATE. -/
def HP_STAT_STATE : Fld := (31, 29)

/-- HP_STAT_h.CAUSE. -/
def HP_STAT_CAUSE : Fld := (28, 26)

/-- HP_STAT_h.PENDING. -/
def HP_STAT_PENDING : Fld := (25, 25)

/-- HP_STAT_h.REPEAT. -/
def HP_STAT_REPEAT : Fld := (24, 24)

/-- HP_STAT_h.EFFECT. -/
def HP_STAT_EFFECT : Fld := (23, 16)

/-- HP_STAT_h.FREQ_DHZ. -/
def HP_STAT_FREQ_DHZ : Fld := (15, 0)

/-- HP_PHASE_h (11 R318). -/
def HP_PHASE (i : Nat) : Nat := 0x111014 + 32 * i

/-- HP_PHASE_h.LOCKED. -/
def HP_PHASE_LOCKED : Fld := (31, 31)

/-- HP_PHASE_h.BEMF_MV. -/
def HP_PHASE_BEMF_MV : Fld := (15, 0)

/-- AU_STATUS (12 R357). -/
def AU_STATUS : Nat := 0x120004

/-- AU_STATUS.UNDERRUNS. -/
def AU_STATUS_UNDERRUNS : Fld := (31, 24)

/-- AU_STATUS.OVERRUNS. -/
def AU_STATUS_OVERRUNS : Fld := (23, 16)

/-- AU_STATUS.CLK_LOSS. -/
def AU_STATUS_CLK_LOSS : Fld := (15, 8)

/-- AU_DOM_d (12 R331). -/
def AU_DOM (i : Nat) : Nat := 0x120010 + 8 * i

/-- AU_DOM_d.SRC. -/
def AU_DOM_SRC : Fld := (31, 30)

/-- AU_DOM_d.REC_PORT. -/
def AU_DOM_REC_PORT : Fld := (29, 27)

/-- AU_DOM_d.RATE. -/
def AU_DOM_RATE : Fld := (1, 0)

/-- AU_DOM_d_ST (12 R332). -/
def AU_DOM_ST (i : Nat) : Nat := 0x120014 + 8 * i

/-- AU_DOM_d_ST.STATE. -/
def AU_DOM_ST_STATE : Fld := (31, 30)

/-- AU_DOM_d_ST.PPM. -/
def AU_DOM_ST_PPM : Fld := (15, 0)

/-- AU_PORT_p (12 R334). -/
def AU_PORT (i : Nat) : Nat := 0x120100 + 16 * i

/-- AU_PORT_p.EN. -/
def AU_PORT_EN : Fld := (31, 31)

/-- AU_PORT_p.MASTER. -/
def AU_PORT_MASTER : Fld := (30, 30)

/-- AU_PORT_p.DOMAIN. -/
def AU_PORT_DOMAIN : Fld := (29, 28)

/-- AU_PORT_p.SLOTS. -/
def AU_PORT_SLOTS : Fld := (27, 24)

/-- AU_PORT_p.SLOT_W. -/
def AU_PORT_SLOT_W : Fld := (23, 22)

/-- AU_PORT_p.BITS. -/
def AU_PORT_BITS : Fld := (21, 20)

/-- AU_PORT_p.FS_POL. -/
def AU_PORT_FS_POL : Fld := (19, 19)

/-- AU_PORT_p.FS_LEN. -/
def AU_PORT_FS_LEN : Fld := (18, 18)

/-- AU_PORT_p.DELAY. -/
def AU_PORT_DELAY : Fld := (17, 17)

/-- AU_PORT_p.DC_BLOCK. -/
def AU_PORT_DC_BLOCK : Fld := (16, 16)

/-- AU_PORT_p_ST (12 R334). -/
def AU_PORT_ST (i : Nat) : Nat := 0x120104 + 16 * i

/-- AU_PORT_p_ST.STATE. -/
def AU_PORT_ST_STATE : Fld := (31, 30)

/-- AU_PORT_p_ST.FRAME_ERRS. -/
def AU_PORT_ST_FRAME_ERRS : Fld := (15, 0)

/-- AU_BUS_m (12 R339). -/
def AU_BUS (i : Nat) : Nat := 0x120200 + 16 * i

/-- AU_BUS_m.EN. -/
def AU_BUS_EN : Fld := (31, 31)

/-- AU_BUS_m.LL. -/
def AU_BUS_LL : Fld := (30, 30)

/-- AU_BUS_m.DOMAIN. -/
def AU_BUS_DOMAIN : Fld := (29, 28)

/-- AU_BUS_m.CHANNELS. -/
def AU_BUS_CHANNELS : Fld := (27, 25)

/-- AU_BUS_m.SCALE. -/
def AU_BUS_SCALE : Fld := (24, 23)

/-- AU_BUS_m.HPF. -/
def AU_BUS_HPF : Fld := (22, 20)

/-- AU_BUS_m.RAMP_MS. -/
def AU_BUS_RAMP_MS : Fld := (19, 13)

/-- AU_BUS_m_ST (12 R340). -/
def AU_BUS_ST (i : Nat) : Nat := 0x120204 + 16 * i

/-- AU_BUS_m_ST.ACTIVE. -/
def AU_BUS_ST_ACTIVE : Fld := (31, 24)

/-- AU_BUS_m_ST.GAIN. -/
def AU_BUS_ST_GAIN : Fld := (11, 0)

/-- AU_BRIDGE_b (12 R342). -/
def AU_BRIDGE (i : Nat) : Nat := 0x120400 + 8 * i

/-- AU_BRIDGE_b.EN. -/
def AU_BRIDGE_EN : Fld := (31, 31)

/-- AU_BRIDGE_b.IN_DOM. -/
def AU_BRIDGE_IN_DOM : Fld := (30, 29)

/-- AU_BRIDGE_b.OUT_DOM. -/
def AU_BRIDGE_OUT_DOM : Fld := (28, 27)

/-- AU_BRIDGE_b.CHANNELS. -/
def AU_BRIDGE_CHANNELS : Fld := (26, 24)

/-- AU_BRIDGE_b_ST (12 R342). -/
def AU_BRIDGE_ST (i : Nat) : Nat := 0x120404 + 8 * i

/-- AU_BRIDGE_b_ST.LOCK. -/
def AU_BRIDGE_ST_LOCK : Fld := (31, 31)

/-- AU_BRIDGE_b_ST.RATIO_PPM. -/
def AU_BRIDGE_ST_RATIO_PPM : Fld := (15, 0)

/-- AU_CHIME_g (12 R352). -/
def AU_CHIME (i : Nat) (j : Nat) : Nat := 0x120800 + 32 * i + 4 * j

/-- AU_CHIME_g.WORD. -/
def AU_CHIME_WORD : Fld := (31, 0)

/-- AU_CHIME_STAT (12 R353). -/
def AU_CHIME_STAT : Nat := 0x120880

/-- AU_CHIME_STAT.BLOCKED. -/
def AU_CHIME_STAT_BLOCKED : Fld := (7, 4)

/-- AU_CHIME_STAT.ACTIVE. -/
def AU_CHIME_STAT_ACTIVE : Fld := (3, 0)

/-- AU_EQ_m_k (12 R344). -/
def AU_EQ (i : Nat) (j : Nat) (k : Nat) : Nat := 0x121000 + 256 * i + 32 * j + 4 * k

/-- AU_EQ_m_k.COEF. -/
def AU_EQ_COEF : Fld := (31, 0)

/-- AU_RT_n (12 R345). -/
def AU_RT (i : Nat) (j : Nat) : Nat := 0x122000 + 16 * i + 4 * j

/-- AU_RT_n.WORD. -/
def AU_RT_WORD : Fld := (31, 0)

/-- AU_RT_n_ST (12 R346). -/
def AU_RT_ST (i : Nat) : Nat := 0x12200C + 16 * i

/-- AU_RT_n_ST.STATE. -/
def AU_RT_ST_STATE : Fld := (31, 30)

/-- AU_RT_n_ST.PENDING. -/
def AU_RT_ST_PENDING : Fld := (29, 29)

/-- AU_ST_s (12 R351). -/
def AU_ST (i : Nat) : Nat := 0x123000 + 16 * i

/-- AU_ST_s.STATE. -/
def AU_ST_STATE : Fld := (31, 29)

/-- AU_ST_s.DIR. -/
def AU_ST_DIR : Fld := (28, 28)

/-- AU_ST_s.DOMAIN. -/
def AU_ST_DOMAIN : Fld := (27, 26)

/-- AU_ST_s.BLOCKS. -/
def AU_ST_BLOCKS : Fld := (7, 0)

/-- BL_STATUS (13 R362). -/
def BL_STATUS : Nat := 0x140004

/-- BL_STATUS.DOWN. -/
def BL_STATUS_DOWN : Fld := (31, 24)

/-- BL_STATUS.FULL. -/
def BL_STATUS_FULL : Fld := (23, 16)

/-- BL_STATUS.HELD. -/
def BL_STATUS_HELD : Fld := (15, 8)

/-- BL_STATUS.BAD. -/
def BL_STATUS_BAD : Fld := (7, 0)

/-- TK_STATUS (13 R372). -/
def TK_STATUS : Nat := 0x140008

/-- TK_STATUS.FOREIGN. -/
def TK_STATUS_FOREIGN : Fld := (31, 24)

/-- TK_STATUS.DENIED. -/
def TK_STATUS_DENIED : Fld := (23, 16)

/-- TK_STATUS.CONTESTED. -/
def TK_STATUS_CONTESTED : Fld := (15, 8)

/-- TK_STATUS.HELD. -/
def TK_STATUS_HELD : Fld := (7, 0)

/-- BL_BIND_c (13 R358). -/
def BL_BIND (i : Nat) : Nat := 0x140100 + 4 * i

/-- BL_BIND_c.EN. -/
def BL_BIND_EN : Fld := (31, 31)

/-- BL_BIND_c.HOLD. -/
def BL_BIND_HOLD : Fld := (30, 30)

/-- BL_BIND_c.NOTE_EMPTY. -/
def BL_BIND_NOTE_EMPTY : Fld := (29, 29)

/-- BL_BIND_c.DEPTH. -/
def BL_BIND_DEPTH : Fld := (28, 22)

/-- BL_BIND_c.BIT. -/
def BL_BIND_BIT : Fld := (21, 17)

/-- BL_BIND_c.SBIT. -/
def BL_BIND_SBIT : Fld := (16, 12)

/-- BL_BIND_c.RECEIVER. -/
def BL_BIND_RECEIVER : Fld := (11, 6)

/-- BL_BIND_c.SENDER. -/
def BL_BIND_SENDER : Fld := (5, 0)

/-- TK_BROKEN_w (13 R375). -/
def TK_BROKEN (i : Nat) : Nat := 0x142200 + 4 * i

/-- TK_BROKEN_w.BROKEN. -/
def TK_BROKEN_BROKEN : Fld := (31, 0)

/-- TK_ALLOW_FN_t (13 R374). -/
def TK_ALLOW_FN (i : Nat) : Nat := 0x143000 + 8 * i

/-- TK_ALLOW_FN_t.FN. -/
def TK_ALLOW_FN_FN : Fld := (31, 0)

/-- TK_ALLOW_CORE_t (13 R374). -/
def TK_ALLOW_CORE (i : Nat) : Nat := 0x143004 + 8 * i

/-- TK_ALLOW_CORE_t.CORE. -/
def TK_ALLOW_CORE_CORE : Fld := (5, 0)

/-- PM_STATUS (16 R433). -/
def PM_STATUS : Nat := 0x160000

/-- PM_STATUS.THERM. -/
def PM_STATUS_THERM : Fld := (31, 29)

/-- PM_STATUS.POWER_W. -/
def PM_STATUS_POWER_W : Fld := (15, 8)

/-- PM_STATUS.CAP_W. -/
def PM_STATUS_CAP_W : Fld := (7, 0)

/-- PM_THERM (16 R437). -/
def PM_THERM : Nat := 0x160010

/-- PM_THERM.WARN_C. -/
def PM_THERM_WARN_C : Fld := (23, 16)

/-- PM_THERM.THROTTLE_C. -/
def PM_THERM_THROTTLE_C : Fld := (15, 8)

/-- PM_THERM.TRIP_C. -/
def PM_THERM_TRIP_C : Fld := (7, 0)

/-- PM_THERM_MASK (16 R437). -/
def PM_THERM_MASK : Nat := 0x160014

/-- PM_THERM_MASK.TRIP_MASK. -/
def PM_THERM_MASK_TRIP_MASK : Fld := (15, 0)

/-- PM_TJ (16 R437). -/
def PM_TJ : Nat := 0x160018

/-- PM_TJ.TJ. -/
def PM_TJ_TJ : Fld := (15, 0)

/-- PM_WAKE_GPIO (16 R436). -/
def PM_WAKE_GPIO : Nat := 0x16001C

/-- PM_WAKE_GPIO.MASK. -/
def PM_WAKE_GPIO_MASK : Fld := (31, 0)

/-- PM_WARM_REQ (16 R17). -/
def PM_WARM_REQ : Nat := 0x160024

/-- PM_WARM_REQ.KEY. -/
def PM_WARM_REQ_KEY : Fld := (31, 16)

/-- PM_WARM_REQ.GO. -/
def PM_WARM_REQ_GO : Fld := (0, 0)

/-- PM_LDR_ADDR_LO (16 R440). -/
def PM_LDR_ADDR_LO : Nat := 0x160030

/-- PM_LDR_ADDR_LO.ADDR. -/
def PM_LDR_ADDR_LO_ADDR : Fld := (31, 0)

/-- PM_LDR_ADDR_HI (16 R440). -/
def PM_LDR_ADDR_HI : Nat := 0x160034

/-- PM_LDR_ADDR_HI.ADDR. -/
def PM_LDR_ADDR_HI_ADDR : Fld := (31, 0)

/-- PM_LDR_CNT (16 R440). -/
def PM_LDR_CNT : Nat := 0x160038

/-- PM_LDR_CNT.COUNT. -/
def PM_LDR_CNT_COUNT : Fld := (12, 0)

/-- PM_LDR_CMD (16 R440). -/
def PM_LDR_CMD : Nat := 0x16003C

/-- PM_LDR_CMD.OP. -/
def PM_LDR_CMD_OP : Fld := (31, 28)

/-- PM_LDR_STAT (16 R440). -/
def PM_LDR_STAT : Nat := 0x160040

/-- PM_LDR_STAT.STATE. -/
def PM_LDR_STAT_STATE : Fld := (31, 28)

/-- PM_LDR_STAT.ERR. -/
def PM_LDR_STAT_ERR : Fld := (23, 16)

/-- PM_LDR_STAT.FETCHED. -/
def PM_LDR_STAT_FETCHED : Fld := (15, 0)

/-- PM_BOOT_STAT (16 R438). -/
def PM_BOOT_STAT : Nat := 0x160044

/-- PM_BOOT_STAT.BOOT_MODE. -/
def PM_BOOT_STAT_BOOT_MODE : Fld := (31, 29)

/-- PM_BOOT_STAT.SLOT. -/
def PM_BOOT_STAT_SLOT : Fld := (28, 28)

/-- PM_BOOT_STAT.FAILS. -/
def PM_BOOT_STAT_FAILS : Fld := (27, 24)

/-- PM_BOOT_STAT.ROM_VER. -/
def PM_BOOT_STAT_ROM_VER : Fld := (15, 0)

/-- PM_FW_VER (16 R444). -/
def PM_FW_VER : Nat := 0x160048

/-- PM_FW_VER.VERSION. -/
def PM_FW_VER_VERSION : Fld := (31, 0)

/-- PM_FW_SLOT (16 R445). -/
def PM_FW_SLOT : Nat := 0x16004C

/-- PM_FW_SLOT.SLOT1. -/
def PM_FW_SLOT_SLOT1 : Fld := (7, 4)

/-- PM_FW_SLOT.SLOT0. -/
def PM_FW_SLOT_SLOT0 : Fld := (3, 0)

/-- PM_STORE_STAT (16 R450). -/
def PM_STORE_STAT : Nat := 0x160060

/-- PM_STORE_STAT.PRESENT. -/
def PM_STORE_STAT_PRESENT : Fld := (31, 31)

/-- PM_STORE_STAT.BUSY. -/
def PM_STORE_STAT_BUSY : Fld := (30, 30)

/-- PM_STORE_STAT.FREE. -/
def PM_STORE_STAT_FREE : Fld := (15, 0)

/-- PM_RCL_SEL (16 R453). -/
def PM_RCL_SEL : Nat := 0x160080

/-- PM_RCL_SEL.INDEX. -/
def PM_RCL_SEL_INDEX : Fld := (5, 0)

/-- PM_RCL_Wj (16 R453). -/
def PM_RCL_W (i : Nat) : Nat := 0x160090 + 4 * i

/-- PM_RCL_Wj.WORD. -/
def PM_RCL_W_WORD : Fld := (31, 0)

/-- PM_DOM_STAT_d (16 R432). -/
def PM_DOM_STAT (i : Nat) : Nat := 0x160100 + 4 * i

/-- PM_DOM_STAT_d.STATE. -/
def PM_DOM_STAT_STATE : Fld := (31, 29)

/-- PM_DOM_STAT_d.FORCED. -/
def PM_DOM_STAT_FORCED : Fld := (28, 26)

/-- PM_DOM_STAT_d.REQ_STATUS. -/
def PM_DOM_STAT_REQ_STATUS : Fld := (15, 8)

/-- PM_DOM_STAT_d.QUEUED. -/
def PM_DOM_STAT_QUEUED : Fld := (7, 0)

/-- PM_DOM_CTRL_d (16 R432). -/
def PM_DOM_CTRL (i : Nat) : Nat := 0x160200 + 4 * i

/-- PM_DOM_CTRL_d.CAP. -/
def PM_DOM_CTRL_CAP : Fld := (7, 4)

/-- PM_DOM_CTRL_d.FORCE. -/
def PM_DOM_CTRL_FORCE : Fld := (3, 0)

/-- MC_ECC_CFG (18 R483). -/
def MC_ECC_CFG : Nat := 0x170000

/-- MC_ECC_CFG.SCRUB_H. -/
def MC_ECC_CFG_SCRUB_H : Fld := (31, 24)

/-- MC_ECC_CFG.SRAM_MS. -/
def MC_ECC_CFG_SRAM_MS : Fld := (23, 12)

/-- MC_ECC_CFG.CE_THR. -/
def MC_ECC_CFG_CE_THR : Fld := (11, 0)

/-- MC_ECC_CH_c (18 R483). -/
def MC_ECC_CH (i : Nat) : Nat := 0x170010 + 16 * i

/-- MC_ECC_CH_c.UE. -/
def MC_ECC_CH_UE : Fld := (31, 16)

/-- MC_ECC_CH_c.CE. -/
def MC_ECC_CH_CE : Fld := (15, 0)

/-- MC_ECC_CH_c_ALO (18 R483). -/
def MC_ECC_CH_ALO (i : Nat) : Nat := 0x170014 + 16 * i

/-- MC_ECC_CH_c_ALO.ADDR_LO. -/
def MC_ECC_CH_ALO_ADDR_LO : Fld := (31, 0)

/-- MC_ECC_CH_c_AHI (18 R483). -/
def MC_ECC_CH_AHI (i : Nat) : Nat := 0x170018 + 16 * i

/-- MC_ECC_CH_c_AHI.ADDR_HI. -/
def MC_ECC_CH_AHI_ADDR_HI : Fld := (31, 0)

/-- MC_ECC_SRAM (18 R483). -/
def MC_ECC_SRAM : Nat := 0x170090

/-- MC_ECC_SRAM.SK_UE. -/
def MC_ECC_SRAM_SK_UE : Fld := (31, 24)

/-- MC_ECC_SRAM.SC_UE. -/
def MC_ECC_SRAM_SC_UE : Fld := (23, 16)

/-- MC_ECC_SRAM.SK_CE. -/
def MC_ECC_SRAM_SK_CE : Fld := (15, 8)

/-- MC_ECC_SRAM.SC_CE. -/
def MC_ECC_SRAM_SC_CE : Fld := (7, 0)

/-- MC_SCRUB_STAT (18 R484). -/
def MC_SCRUB_STAT : Nat := 0x170094

/-- MC_SCRUB_STAT.PASSES. -/
def MC_SCRUB_STAT_PASSES : Fld := (15, 0)

/-- MC_SEC_WM (14 R381). -/
def MC_SEC_WM : Nat := 0x170100

/-- MC_SEC_WM.WM. -/
def MC_SEC_WM_WM : Fld := (19, 0)

/-- MC_SEC_SCRUB (14 R383). -/
def MC_SEC_SCRUB : Nat := 0x170104

/-- MC_SEC_SCRUB.TARGET. -/
def MC_SEC_SCRUB_TARGET : Fld := (19, 0)

/-- MC_SEC_STAT (14 R382). -/
def MC_SEC_STAT : Nat := 0x170108

/-- MC_SEC_STAT.BUSY. -/
def MC_SEC_STAT_BUSY : Fld := (31, 31)

/-- MC_SEC_STAT.AT. -/
def MC_SEC_STAT_AT : Fld := (19, 0)

/-- SE_DEADMAN_KICK (14 R389). -/
def SE_DEADMAN_KICK : Nat := 0x180000

/-- SE_DEADMAN_KICK.KICK. -/
def SE_DEADMAN_KICK_KICK : Fld := (15, 0)

/-- SE_DEADMAN_CFG (14 R389). -/
def SE_DEADMAN_CFG : Nat := 0x180004

/-- SE_DEADMAN_CFG.TIMEOUT_MS. -/
def SE_DEADMAN_CFG_TIMEOUT_MS : Fld := (12, 0)

/-- SE_DEADMAN_STAT (14 R389). -/
def SE_DEADMAN_STAT : Nat := 0x180008

/-- SE_DEADMAN_STAT.BAD_KICKS. -/
def SE_DEADMAN_STAT_BAD_KICKS : Fld := (31, 16)

/-- SE_DEADMAN_STAT.REMAIN_MS. -/
def SE_DEADMAN_STAT_REMAIN_MS : Fld := (12, 0)

/-- SE_HOLD_OP (14 R386). -/
def SE_HOLD_OP : Nat := 0x180010

/-- SE_HOLD_OP.OP. -/
def SE_HOLD_OP_OP : Fld := (31, 30)

/-- SE_HOLD_OP.DOMAIN. -/
def SE_HOLD_OP_DOMAIN : Fld := (3, 0)

/-- SE_HOLD_LOST (14 R388). -/
def SE_HOLD_LOST : Nat := 0x180014

/-- SE_HOLD_LOST.DOMAINS. -/
def SE_HOLD_LOST_DOMAINS : Fld := (15, 0)

/-- SE_CACHE_CFG (14 R385). -/
def SE_CACHE_CFG : Nat := 0x180018

/-- SE_CACHE_CFG.SEC_WAYS. -/
def SE_CACHE_CFG_SEC_WAYS : Fld := (4, 0)

/-- SE_IDE_STAT (14 R380). -/
def SE_IDE_STAT : Nat := 0x18001C

/-- SE_IDE_STAT.FAILS. -/
def SE_IDE_STAT_FAILS : Fld := (15, 8)

/-- SE_IDE_STAT.STATE1. -/
def SE_IDE_STAT_STATE1 : Fld := (3, 2)

/-- SE_IDE_STAT.STATE0. -/
def SE_IDE_STAT_STATE0 : Fld := (1, 0)

/-- SE_LOCK (14 R384). -/
def SE_LOCK : Nat := 0x180020

/-- SE_LOCK.WM. -/
def SE_LOCK_WM : Fld := (0, 0)

/-- SE_HOLD_d (14 R386). -/
def SE_HOLD (i : Nat) : Nat := 0x180040 + 4 * i

/-- SE_HOLD_d.CLK. -/
def SE_HOLD_CLK : Fld := (15, 8)

/-- SE_HOLD_d.PWR. -/
def SE_HOLD_PWR : Fld := (7, 0)

/-- SF_STATUS (14 R393). -/
def SF_STATUS : Nat := 0x1A0000

/-- SF_STATUS.CAUTION. -/
def SF_STATUS_CAUTION : Fld := (31, 31)

/-- SF_STATUS.SAFE_STATE. -/
def SF_STATUS_SAFE_STATE : Fld := (30, 30)

/-- SF_STATUS.ERR. -/
def SF_STATUS_ERR : Fld := (29, 29)

/-- SF_STATUS.LOCKSTEP. -/
def SF_STATUS_LOCKSTEP : Fld := (28, 28)

/-- SF_STATUS.MON. -/
def SF_STATUS_MON : Fld := (9, 0)

/-- SF_CAUTION (14 R395). -/
def SF_CAUTION : Nat := 0x1A0004

/-- SF_CAUTION.ENTER. -/
def SF_CAUTION_ENTER : Fld := (31, 31)

/-- SF_CAUTION.EXIT. -/
def SF_CAUTION_EXIT : Fld := (30, 30)

/-- SF_CAUTION.OTHERS. -/
def SF_CAUTION_OTHERS : Fld := (29, 29)

/-- SF_CAUTION.GPU. -/
def SF_CAUTION_GPU : Fld := (28, 28)

/-- SF_CAUTION.GROUP. -/
def SF_CAUTION_GROUP : Fld := (27, 26)

/-- SF_CAUTION.PREV_MODE. -/
def SF_CAUTION_PREV_MODE : Fld := (25, 23)

/-- SF_CAUTION.CAU_LATCH. -/
def SF_CAUTION_CAU_LATCH : Fld := (22, 22)

/-- SF_CAUTION.ANCHOR. -/
def SF_CAUTION_ANCHOR : Fld := (3, 0)

/-- SF_CAU_PLAT (14 R396). -/
def SF_CAU_PLAT : Nat := 0x1A0008

/-- SF_CAU_PLAT.PLAT. -/
def SF_CAU_PLAT_PLAT : Fld := (15, 0)

/-- SF_CAU_FN (14 R398). -/
def SF_CAU_FN : Nat := 0x1A000C

/-- SF_CAU_FN.FN. -/
def SF_CAU_FN_FN : Fld := (31, 0)

/-- SF_MON_STAT (14 R394). -/
def SF_MON_STAT : Nat := 0x1A0010

/-- SF_MON_STAT.LATCH. -/
def SF_MON_STAT_LATCH : Fld := (9, 0)

/-- SF_MON_CFG (14 R394). -/
def SF_MON_CFG : Nat := 0x1A0014

/-- SF_MON_CFG.TJ_WARN. -/
def SF_MON_CFG_TJ_WARN : Fld := (7, 0)

/-- SF_SIGREACT_Pn_r (14 R392). -/
def SF_SIGREACT (i : Nat) (j : Nat) : Nat := 0x1A1000 + 64 * i + 4 * j

/-- SF_SIGREACT_Pn_r.ACTION. -/
def SF_SIGREACT_ACTION : Fld := (31, 28)

/-- SF_SIGREACT_Pn_r.LAND_EXCUSE. -/
def SF_SIGREACT_LAND_EXCUSE : Fld := (27, 27)

/-- SF_SIGREACT_Pn_r.TOL. -/
def SF_SIGREACT_TOL : Fld := (23, 20)

/-- SF_SIGREACT_Pn_r.NOOUT_TOL. -/
def SF_SIGREACT_NOOUT_TOL : Fld := (19, 16)

/-- SF_SIGREACT_Pn_r.BAD. -/
def SF_SIGREACT_BAD : Fld := (15, 8)

/-- SF_SIGREACT_Pn_r.NOOUT. -/
def SF_SIGREACT_NOOUT : Fld := (7, 0)

/-- SF_LATCH_Pn (14 R392). -/
def SF_LATCH (i : Nat) : Nat := 0x1A2000 + 4 * i

/-- SF_LATCH_Pn.ERR. -/
def SF_LATCH_ERR : Fld := (31, 16)

/-- SF_LATCH_Pn.FALLBACK. -/
def SF_LATCH_FALLBACK : Fld := (15, 0)

/-- DH_CTRL (15 R421). -/
def DH_CTRL : Nat := 0x1C0000

/-- DH_CTRL.REMAP_DONE. -/
def DH_CTRL_REMAP_DONE : Fld := (0, 0)

/-- DH_STATUS (15 R411). -/
def DH_STATUS : Nat := 0x1C0004

/-- DH_STATUS.STATE. -/
def DH_STATUS_STATE : Fld := (31, 29)

/-- DH_STATUS.ROLE. -/
def DH_STATUS_ROLE : Fld := (28, 28)

/-- DH_STATUS.SEAT. -/
def DH_STATUS_SEAT : Fld := (27, 27)

/-- DH_STATUS.HB_ALIVE. -/
def DH_STATUS_HB_ALIVE : Fld := (26, 26)

/-- DH_STATUS.LINK_UP. -/
def DH_STATUS_LINK_UP : Fld := (25, 25)

/-- DH_STATUS.CREW_EPOCH. -/
def DH_STATUS_CREW_EPOCH : Fld := (15, 0)

/-- DH_HB_CFG (15 R418). -/
def DH_HB_CFG : Nat := 0x1C0008

/-- DH_HB_CFG.TIMEOUT_US. -/
def DH_HB_CFG_TIMEOUT_US : Fld := (25, 16)

/-- DH_HB_CFG.ALIVE_MS. -/
def DH_HB_CFG_ALIVE_MS : Fld := (7, 0)

/-- DH_LINK_STAT (15 R404). -/
def DH_LINK_STAT : Nat := 0x1C0010

/-- DH_LINK_STAT.RETRIES. -/
def DH_LINK_STAT_RETRIES : Fld := (31, 24)

/-- DH_LINK_STAT.AUTH_FAILS. -/
def DH_LINK_STAT_AUTH_FAILS : Fld := (23, 16)

/-- DH_LINK_STAT.RTT_NS. -/
def DH_LINK_STAT_RTT_NS : Fld := (15, 0)

/-- DH_FWD_STAT (15 R413). -/
def DH_FWD_STAT : Nat := 0x1C0014

/-- DH_FWD_STAT.STALLS. -/
def DH_FWD_STAT_STALLS : Fld := (31, 16)

/-- DH_FWD_STAT.QUEUE_KIB. -/
def DH_FWD_STAT_QUEUE_KIB : Fld := (11, 0)

/-- DH_DT_ERR (15 R409). -/
def DH_DT_ERR : Nat := 0x1C0018

/-- DH_DT_ERR.ERR. -/
def DH_DT_ERR_ERR : Fld := (15, 0)

/-- DH_DIVERGE (15 R417). -/
def DH_DIVERGE : Nat := 0x1C001C

/-- DH_DIVERGE.COUNT. -/
def DH_DIVERGE_COUNT : Fld := (31, 16)

/-- DH_DIVERGE.REGION. -/
def DH_DIVERGE_REGION : Fld := (7, 4)

/-- DH_DIVERGE.PLATFORM. -/
def DH_DIVERGE_PLATFORM : Fld := (3, 0)

/-- DH_REJECT (15 R420). -/
def DH_REJECT : Nat := 0x1C0020

/-- DH_REJECT.COUNT. -/
def DH_REJECT_COUNT : Fld := (31, 0)

/-- DH_ALIVE (15 R418). -/
def DH_ALIVE : Nat := 0x1C0024

/-- DH_ALIVE.ALIVE. -/
def DH_ALIVE_ALIVE : Fld := (31, 0)

/-- DH_MWIN_k (15 R413). -/
def DH_MWIN (i : Nat) : Nat := 0x1C0100 + 8 * i

/-- DH_MWIN_k.EN. -/
def DH_MWIN_EN : Fld := (31, 31)

/-- DH_MWIN_k.BASE. -/
def DH_MWIN_BASE : Fld := (13, 0)

/-- DH_MWIN_k_SIZE (15 R413). -/
def DH_MWIN_SIZE (i : Nat) : Nat := 0x1C0104 + 8 * i

/-- DH_MWIN_k_SIZE.SIZE. -/
def DH_MWIN_SIZE_SIZE : Fld := (13, 0)

/-- CT_SEL (18 R477). -/
def CT_SEL : Nat := 0x1E0000

/-- CT_SEL.SHADOW. -/
def CT_SEL_SHADOW : Fld := (10, 10)

/-- CT_SEL.INDEX. -/
def CT_SEL_INDEX : Fld := (9, 0)

/-- CT_VAL_LO (18 R477). -/
def CT_VAL_LO : Nat := 0x1E0004

/-- CT_VAL_LO.VAL. -/
def CT_VAL_LO_VAL : Fld := (31, 0)

/-- CT_VAL_HI (18 R477). -/
def CT_VAL_HI : Nat := 0x1E0008

/-- CT_VAL_HI.VAL. -/
def CT_VAL_HI_VAL : Fld := (31, 0)

/-- CT_SNAP_STAT (18 R480). -/
def CT_SNAP_STAT : Nat := 0x1E0010

/-- CT_SNAP_STAT.BUSY. -/
def CT_SNAP_STAT_BUSY : Fld := (31, 31)

/-- CT_SNAP_STAT.LAST_STATUS. -/
def CT_SNAP_STAT_LAST_STATUS : Fld := (23, 16)

/-- CT_SNAP_STAT.SEQ. -/
def CT_SNAP_STAT_SEQ : Fld := (15, 0)

/-- CT_FREEZE_DT_LO (18 R478). -/
def CT_FREEZE_DT_LO : Nat := 0x1E0014

/-- CT_FREEZE_DT_LO.T. -/
def CT_FREEZE_DT_LO_T : Fld := (31, 0)

/-- CT_FREEZE_DT_HI (18 R478). -/
def CT_FREEZE_DT_HI : Nat := 0x1E0018

/-- CT_FREEZE_DT_HI.T. -/
def CT_FREEZE_DT_HI_T : Fld := (31, 0)

/-- ER_STATUS (18 R485). -/
def ER_STATUS : Nat := 0x1F0000

/-- ER_STATUS.OVERWRITTEN. -/
def ER_STATUS_OVERWRITTEN : Fld := (31, 16)

/-- ER_STATUS.FILL. -/
def ER_STATUS_FILL : Fld := (8, 0)

/-- ER_SEL (18 R485). -/
def ER_SEL : Nat := 0x1F0004

/-- ER_SEL.INDEX. -/
def ER_SEL_INDEX : Fld := (7, 0)

/-- ER_CTRL (18 R485). -/
def ER_CTRL : Nat := 0x1F0008

/-- ER_CTRL.EVT_EN. -/
def ER_CTRL_EVT_EN : Fld := (0, 0)

/-- ER_Wj (18 R485). -/
def ER_W (i : Nat) : Nat := 0x1F0010 + 4 * i

/-- ER_Wj.WORD. -/
def ER_W_WORD : Fld := (31, 0)

end Sys2Proof.Machine
end

