-- ==== Sys2Proof/Machine/SMap.lean ====
section
/-! DEFINITION. The operations of the sparse maps that hold the registers, the memory and the replicated units. -/

namespace Sys2Proof

/-- The entry at a key, if the map lists one. -/
def SMap.find? {α : Type} : SMap α → Nat → Option α
  | [], _ => none
  | (k, v) :: m, i => if i = k then some v else SMap.find? m i

/-- What the map holds at a key. -/
def SMap.get {α : Type} [Inhabited α] (m : SMap α) (i : Nat) : α := (SMap.find? m i).getD default

/-- The map without an entry at a key. -/
def SMap.erase {α : Type} : SMap α → Nat → SMap α
  | [], _ => []
  | (k, v) :: m, i => if i = k then m else (k, v) :: SMap.erase m i

/-- The map with an entry at a key, in its place. -/
def SMap.insert {α : Type} : SMap α → Nat → α → SMap α
  | [], i, a => [(i, a)]
  | (k, v) :: m, i, a =>
    if i = k then (i, a) :: m
    else if i < k then (i, a) :: (k, v) :: m
    else (k, v) :: SMap.insert m i a

/-- The map with a value at a key: an entry equal to what an unlisted key reads as is not listed. -/
def SMap.set {α : Type} [Inhabited α] [DecidableEq α] (m : SMap α) (i : Nat) (a : α) : SMap α :=
  if a = default then SMap.erase m i else SMap.insert m i a

/-- The map with the value at a key changed by a function. -/
def SMap.mod {α : Type} [Inhabited α] [DecidableEq α] (m : SMap α) (i : Nat) (g : α → α) : SMap α :=
  SMap.set m i (g (SMap.get m i))

/-- The map with its keys from lo up to hi (exclusive) replaced by a segment. -/
def SMap.splice {α : Type} (m : SMap α) (lo hi : Nat) (seg : SMap α) : SMap α :=
  m.filter (fun p => decide (p.1 < lo)) ++ seg ++ m.filter (fun p => decide (hi ≤ p.1))

/-- The canonical form: keys strictly rising, no entry equal to the default. -/
def SMap.wf {α : Type} [Inhabited α] [DecidableEq α] : SMap α → Bool
  | [] => true
  | [(_, v)] => decide (v ≠ default)
  | (k, v) :: (k', v') :: m => decide (v ≠ default) && decide (k < k') && SMap.wf ((k', v') :: m)

end Sys2Proof
end

