-- ==== Sys2Proof/Machine/State.lean ====
section
/-! DEFINITION. The state of the X16, as plain data: its registers, its memories and replicated units, its rings and
queues, and the commands that are waiting. Registers whose fields software reads are held in `Dev.regs`, keyed by their
BAR0 offset (Machine/RegTable.lean gives every one its fields and reset value); what a unit keeps beside them is held in
the structures below. Replicated units are sparse maps keyed by their number. -/

namespace Sys2Proof.Machine

/-! ### The Timetable (R46 to R84, R514) -/

/-- What the Timetable keeps of a point beside its entry: when it was last written, whether it holds a comparator
(R62), whether its trigger passed while it waited (R64), the trigger it waits for, whether a walk found it late (R65), and the
DT of the new line 0 at which a jump makes it fire (R75). -/
structure CpRun where
  written : Nat
  armed : Bool
  deferred : Bool
  waiting : Bool
  due : Nat
  late : Bool := false
  clampDt : Option Nat := none
  deriving DecidableEq, Repr, Inhabited

/-- The raster of a platform, real or virtual (R50, R77, R80): a reference line start and the timing in force. A pixel
lasts pxNum / pxDen ns, exactly (R265). `hold` is the absolute line at whose start it waits for a tearing-effect edge
(R285); `corr` the pixel clocks that framelock adds to the frame of the reference, spread over its lines (R72). -/
structure Raster where
  had : Bool
  virt : Bool
  fRef : Nat
  lRef : Nat
  dtRef : Nat
  vtot : Nat
  htot : Nat
  vact : Nat
  hact : Nat
  pxNum : Nat
  pxDen : Nat := 1
  hold : Option Nat := none
  corr : Int := 0
  deriving DecidableEq, Repr, Inhabited

/-- What framelock keeps of a platform (R72 to R74): the edges in or out of tolerance in a row, the last reference edge,
its period, the correction in pixel clocks a frame, the edges counted for DIV, and whether the reference was out of range. -/
structure FlRun where
  good : Nat
  bad : Nat
  lastEdge : Nat
  period : Nat
  corr : Int
  edges : Nat
  out : Bool
  deriving DecidableEq, Repr, Inhabited

/-- A latch pair of one master (R49). -/
structure Latch where
  hi : Nat
  deriving DecidableEq, Repr, Inhabited

/-- The Timetable: the store, the windows of each master (R60), the rasters, framelock, the latches of R49, the result of the
conversion that runs (R514), and since when the device's own points are gone (R83). -/
structure Timetable where
  cps : SMap CpEntry
  run : SMap CpRun
  sel : SMap Nat
  stage : SMap (SMap (Option Word))
  cooling : Nat
  raster : SMap Raster
  fl : SMap FlRun
  dtHi : SMap Nat
  ctHi : SMap Nat
  convBusy : Bool
  convRes : Nat
  ownLost : Option Nat
  deriving DecidableEq, Repr, Inhabited

/-! ### Rings (R85 to R114, R515, R516) -/

/-- The pending reports of a vector (R110), and its entry of the MSI-X table (R115): the message address and data, the mask bit,
and its bit of the pending-bit array. -/
structure VecRun where
  pending : Nat
  oldest : Nat
  masked : Bool
  pba : Bool
  addrLo : Word := 0
  addrHi : Word := 0
  data : Word := 0
  deriving DecidableEq, Repr, Inhabited

/-- The fault summary of a function (R135). -/
structure FaultSum where
  count : Nat
  mid : Nat
  type : Nat
  wr : Bool
  iova : Nat
  dt : Nat
  deriving DecidableEq, Repr, Inhabited

/-! ### Functions (R115 to R144) -/

/-- A departure that is running (R127 to R129): its cause, its start, its counts, and the DEPART descriptors that
complete with it (ring and index on F0). -/
structure Departure where
  on : Bool
  cause : Nat
  t0 : Nat
  descs : Nat
  jobs : Nat
  commits : Nat
  writes : Nat
  tokens : Nat
  streams : Nat
  haptics : Nat
  layers : Nat
  ignored : Nat
  waiters : List (Nat × Nat)
  deriving DecidableEq, Repr, Inhabited

/-- A migration operation that is running on a function (R138, R141): its descriptor on F0, the limit of QUIESCE, the DT and the frames
at which it was quiesced or restored, and the free values that say how long the body of its blob is and what its bytes are (R142). -/
structure Quiesce where
  on : Bool
  ring : Nat
  idx : Nat
  limit : Nat
  done : Bool
  dtQ : Nat
  frames : List Nat
  blobLen : Nat := 0
  blobKey : Nat := 0
  deriving DecidableEq, Repr, Inhabited

/-- Dirty-page logging (R140): the two bitmaps, the range, and which bitmap is active. -/
structure DirtyLog where
  on : Bool
  mapA : Nat
  mapB : Nat
  base : Nat
  pages : Nat
  activeB : Bool
  deriving DecidableEq, Repr, Inhabited

/-- A word of the dirty cache (R140): its function, its number in that function's bitmap, and the bits gathered. -/
structure DirtyWord where
  f : Nat
  word : Nat
  bits : Nat
  deriving DecidableEq, Repr, Inhabited

/-- What RESTORE loaded and RESUME lands (R143, R144): layers, and the ring and index of each held commit. -/
structure Restored where
  on : Bool
  layers : List BlobLayer
  commits : List (Nat × Nat)
  deriving DecidableEq, Repr, Inhabited

/-- A function (R22, R116): its rings, fences, moderation, fault summary and what the function manager runs on it. -/
structure FnSt where
  rings : SMap RingSt
  fences : SMap Nat
  noRoute : Nat
  fault : FaultSum
  mods : SMap ModEntry
  vecs : SMap VecRun
  fcbCopy : SMap (List Word)
  dep : Departure
  qui : Quiesce
  dl : DirtyLog
  restored : Restored
  deriving DecidableEq, Repr, Inhabited

/-- A RESTORE that waits for its calling point, with the blob that it reads (R143): its ring and index on F0. -/
structure ParkedBlob where
  ring : Nat
  idx : Nat
  blob : BlobIn
  deriving DecidableEq, Repr

/-! ### Commits (R28 to R43) -/

/-- Where a commit came from: a descriptor of a ring, the staged registers, the island's staging set, the partition
window, or the device itself (RESUME). -/
inductive CommitSrc where
  | desc (f r idx : Nat)
  | staged
  | island
  | window (mid : Nat)
  | device
  deriving DecidableEq, Repr

/-- A node of a 3D LUT (R220). -/
structure Node where
  r : Nat
  g : Nat
  b : Nat
  deriving DecidableEq, Repr, Inhabited

/-- One part of a commit's change. `losing` keeps, once a partition change has landed on its anchor, the REVEAL of the entry
that it replaced; `leave` is a layer whose owner departs, with the REVEAL of its entry (R127), `demote` one whose owner loses class 3 (R228). -/
inductive CommitItem where
  | reg (off : Nat) (v : Word)
  | layer (k : Nat) (owner : Nat) (ws : List Word)
  | stitch (p : Nat) (ws : List Word)
  | guardR (p r : Nat) (ws : List Word)
  | colour (p : Nat) (ws : List Word) (toneCrc lutCrc : Option Word) (tone : List Nat) (lut : List Node)
  | bank (k b : Nat) (first : Nat) (coeffs : List Nat)
  | partition (f : Nat) (entry : List Word)
  | losing (f : Nat) (reveal : Bool)
  | mode (m : Nat)
  | swap
  | touch (t : Nat) (ws : List (Nat × Word))
  | touchKeys (k : Nat) (ws : List Word)
  | haptic (h : Nat) (ws : List Word)
  | route (n : Nat) (ws : List Word)
  | leave (k : Nat) (reveal : Bool)
  | demote (k : Nat)
  | cautionExit (m : Nat)
  | capture (d : Nat) (ws : List Word)
  deriving DecidableEq, Repr

/-- A commit that is accepted and has not landed everywhere (R29 to R43). `apply` is the apply point on the anchor
(frame, line); `land` the landing of each platform (platform, frame, line, DT); `landed` the platforms landed. -/
structure Commit where
  id : Nat
  fn : Nat
  src : CommitSrc
  anchor : Nat
  group : Nat
  cp : Option Nat
  strict : Bool
  devWide : Bool
  held : Bool
  bound : Bool
  items : List CommitItem
  land : List (Nat × Nat × Nat × Nat)
  landed : List Nat
  link : Option Nat
  deriving DecidableEq, Repr

/-! ### Counters and the error log (R477 to R490) -/

/-- An error-log record (R485); `secure` marks what R486 hides; `last` is its latest occurrence. -/
structure ErrRec where
  cause : Nat
  mid : Nat
  count : Nat
  addr : Nat
  data : Word
  dt : Nat
  last : Nat
  seq : Nat
  secure : Bool
  deriving DecidableEq, Repr, Inhabited

/-- The error log (newest first), the records written since the last ERR_LOGGED, and when that was; the DRAM lines whose
code is deliberately invalid (R483), and the line that the patrol reads next (R484). -/
structure ErrLog where
  recs : List ErrRec
  seq : Nat
  unreported : Nat
  lastPost : Option Nat
  badLines : SMap Bool
  patrol : Nat
  deriving DecidableEq, Repr, Inhabited

/-- The row counters, their shadows, and the snapshot that is being written (R477 to R481): the ring on F0, index and
destination of each of its descriptors, and its point. `ceRun` holds, for each source of corrected errors, the second and
the count of R483. -/
structure Counters where
  now : SMap Nat
  shadow : SMap Nat
  freezeDt : Nat
  seq : Nat
  busy : Bool
  jobs : List (Nat × Nat × Nat)
  fromCp : Nat
  openBase : Nat
  ceRun : SMap (Nat × Nat)
  deriving DecidableEq, Repr, Inhabited

/-! ### Platforms: what composition and scan-out keep of each (R30, R32, R38, R262, R279) -/

/-- `mode` and `expH` give the strip height and lead in force, `nextMode` and `nextExpH` those that take over at the next
frame start (R38); `psr` is panel self-refresh, `psrFrame` the next refreshed frame (R280); `openStrips` the
strips whose composition has begun and not completed, by absolute boundary, `late` those abandoned, with the lane cycles
outstanding (R233); `depth` is the output depth in force in bits and `dpll` its DPLL (R262). `timingFrame`, `enFrame` and
`disFrame` are the frames at whose start a landed timing, enabling or disabling takes effect at the soonest (R262, R78,
R263); `lands` the absolute lines of the latest landings; `started` the last frame started; `uflow` the frame of the last
underflow (R286); `psrExit` the frame that last left self-refresh (R281), `psrLast` the last frame sent before it was entered
(R305); `form` the porches, syncs and polarities in force (R261), `same` the frames in a row whose CRC was that of the one before (R279),
`gaps` the absolute lines that lack their pixels from a place on (R286). -/
structure PlatRun where
  mode : Nat := 2
  nextMode : Option Nat := none
  expH : Bool := false
  nextExpH : Option Bool := none
  psr : Bool := false
  psrFrame : Option Nat := none
  openStrips : List Nat := []
  late : List (Nat × Nat) := []
  depth : Nat := 8
  dpll : Nat := 0
  timingFrame : Option Nat := none
  enFrame : Option Nat := none
  disFrame : Option Nat := none
  lands : List Nat := []
  started : Option Nat := none
  uflow : Option Nat := none
  psrExit : Option Nat := none
  psrLast : Option Nat := none
  lanes : List (Nat × Nat) := []
  form : List Nat := []
  same : Nat := 0
  gaps : List (Nat × Nat) := []
  deriving DecidableEq, Repr, Inhabited

/-! ### Scan-out (R267 to R290) -/

/-- A landed route change that has not reached its port (R269): the old source, the first line of it that may end it, and
whether the port retrains. -/
structure RouteRun where
  on : Bool
  old : Option Nat
  from0 : Nat
  retrain : Bool
  deriving DecidableEq, Repr, Inhabited

/-- The drops of an A-PHY port in one frame of its source (R283). -/
structure DropRun where
  frame : Nat
  n : Nat
  deriving DecidableEq, Repr, Inhabited

/-- Expected signature values that a landing replaced (R288): its absolute line, and the words before it. -/
structure SigSet where
  abs : Nat
  ws : List Word
  deriving DecidableEq, Repr, Inhabited

/-- A backlight output (R290): when its period counter last restarted, the duty before the register's value takes effect,
and when that is (none: at the next frame start of its platform). -/
structure BklRun where
  start : Nat
  old : Nat
  from0 : Option Nat
  deriving DecidableEq, Repr, Inhabited

/-- Scan-out: the sinks that are LIVE, route changes under way, training attempts of a port, retries of an AUX transfer,
A-PHY drops, replaced signature sets (key 16 × platform + region), backlight outputs, and the platforms with a LIVE sink
since a DT, newest first, as masks (R305). -/
structure Scan where
  live : List Nat
  routes : SMap RouteRun
  attempts : SMap Nat
  auxTries : SMap Nat
  drops : SMap DropRun
  sigs : SMap (List SigSet)
  bkl : SMap BklRun
  lit : List (Nat × Nat)
  deriving DecidableEq, Repr, Inhabited

/-! ### Haptics (R313 to R329) -/

/-- Where a trigger came from (R320): a descriptor, a calling point, or a key, with its function. -/
inductive HapSrc where
  | desc (f r idx : Nat)
  | point (c owner : Nat)
  | key (k owner : Nat)
  deriving DecidableEq, Repr

/-- A trigger: effect, gain, URGENT, its source, and when it arrived. -/
structure HapTrig where
  effect : Nat
  gain : Nat
  urgent : Bool
  src : HapSrc
  dt : Nat
  deriving DecidableEq, Repr

/-- A haptic channel: the configuration words of the running effect, the effect that plays, its words, the segment in
progress with its start, the counts of its loops, when the brake began and its length in quarter milliseconds, quiet windows
in a row; the last crossing, the half-period in ns, windows without a crossing, at the clamp, and in this segment with their
back-EMF; the pending trigger; whether the channel goes OFF after its brake, and whether a
normal trigger sent the effect to its brake; and the last clear of a fault. -/
structure HapRun where
  cfg : List Word
  play : Option HapTrig
  words : List Word
  seg : Nat
  segStart : Nat
  loops : SMap Nat
  braking : Bool
  final : Bool
  brakeStart : Nat
  brakeLen : Nat
  quiet : Nat
  cross : Nat
  half : Nat
  missed : Nat
  clamped : Nat
  windows : Nat
  bemfSum : Nat
  pend : Option HapTrig
  goOff : Bool
  jumped : Bool
  lastCause : Nat
  clearDt : Option Nat
  deriving DecidableEq, Repr, Inhabited

/-- A HAPTIC_LOAD that waits while its slot plays (R327); no words: it frees the slot. -/
structure HapLoad where
  f : Nat
  r : Nat
  idx : Nat
  effect : Nat
  words : List Word
  deriving DecidableEq, Repr, Inhabited

/-- The haptic engine: its channels, RAM slots (by effect number) and waiting loads. -/
structure Haptics where
  ch : SMap HapRun
  ram : SMap RamEff
  loads : List HapLoad
  deriving DecidableEq, Repr, Inhabited

/-! ### Touch (R293 to R312) -/

/-- A node of a panel: its baseline × 256, the frames below −NEG_THR in a row (R300), and whether it is suspect (R301). -/
structure TNode where
  base : Int
  neg : Nat
  susp : Bool
  deriving DecidableEq, Repr, Inhabited

/-- What a contact or a key was picked on (R305): the owner's MID, the layer if any with its destination origin, and the
flag bits NO_LAYER, DARK and STALE. -/
structure Picked where
  owner : Nat
  layer : Option Nat
  ox : Int
  oy : Int
  flags : Nat
  deriving DecidableEq, Repr, Inhabited

/-- A contact (R302 to R307): its centroid in nodes as un / den and vn / den, its peak delta × 256, its nodes, the flags of
its blob, what it was picked on, whether it is reported, its last reported state, the DT of its DOWN and the LONG_CONTACTs
posted. -/
structure Contact where
  id : Nat
  un : Nat
  vn : Nat
  den : Nat
  peak : Int
  nodes : List Nat
  glove : Bool
  hover : Bool
  pick : Picked
  told : Bool
  state : Nat
  down : Nat
  longs : Nat
  deriving DecidableEq, Repr, Inhabited

/-- A glove candidate of the last frame (R303): its centroid. -/
structure GloveCand where
  un : Nat
  vn : Nat
  den : Nat
  deriving DecidableEq, Repr, Inhabited

/-- A TOUCH_TEST under way or waiting for the one before it (R310). -/
structure TTest where
  f : Nat
  r : Nat
  idx : Nat
  kind : Nat
  iova : Nat
  prev : Nat
  deriving DecidableEq, Repr, Inhabited

/-- A TOUCH_BASELINE DUMP that waits for the next frame (R309). -/
structure TDump where
  f : Nat
  r : Nat
  idx : Nat
  iova : Nat
  deriving DecidableEq, Repr, Inhabited

/-- A panel: the frame that is scanned or read with the record it was begun under, its start and sample time, whether its
values are there; whether a landing made it void; the nodes with the grid they belong to; contacts; glove candidates; whether
the next frame is a START frame, or becomes the baseline; whether the baseline outlasts EN = 0 (R312); failures in a row, the
last valid frame, the last raw values, the values of a tunnel frame; dumps and tests. -/
structure PanelRun where
  scanning : Bool
  words : List Word
  t0 : Nat
  sample : Nat
  ready : Bool
  void : Bool
  nodes : List TNode
  tx : Nat
  rx : Nat
  contacts : List Contact
  gloves : List GloveCand
  start : Bool
  rebase : Bool
  kept : Bool
  fails : Nat
  lastValid : Nat
  lastRaw : List Nat
  tunRaw : List Nat
  dumps : List TDump
  tests : List TTest
  deriving DecidableEq, Repr, Inhabited

/-- A key (R308): frames at or above THR, and below THR − HYST, in a row, and whether it is suppressed. -/
structure KeyRun where
  on : Nat
  off : Nat
  supp : Bool
  deriving DecidableEq, Repr, Inhabited

/-- A tunnel message in assembly on an A-PHY port (R297): its SEQ, its bytes so far, and the DT of its first segment. -/
structure TunRun where
  busy : Bool
  seq : Nat
  bytes : List Byte
  t0 : Nat
  deriving DecidableEq, Repr, Inhabited

/-- The touch engine. -/
structure Touch where
  panels : SMap PanelRun
  keys : SMap KeyRun
  tun : SMap TunRun
  deriving DecidableEq, Repr, Inhabited

/-! ### Audio (R330 to R357) -/

/-- A gain ramp (R343): from one gain to another, in 0.1 dB, over ms from its start; the AUDIO_GAIN that waits for it. -/
structure GainRamp where
  on : Bool
  start : Nat
  ms : Nat
  from0 : Int
  to0 : Int
  wait : Option AuWait
  deriving DecidableEq, Repr, Inhabited

/-- A route beside its entry (R345 to R347): the words of its old path with the start of the crossfade, the pending change,
and the change that landed and waits for a frame boundary; no words: none. -/
structure RouteFade where
  old : List Word
  start : Nat
  pend : List Word
  due : List Word
  deriving DecidableEq, Repr, Inhabited

/-- A chime generator (R352, R353): its words, when it began, and the AUDIO_CHIME that waits. -/
structure ChimeRun where
  on : Bool
  words : List Word
  start : Nat
  wait : Option AuWait
  deriving DecidableEq, Repr, Inhabited

/-- The audio engine: gains in force in 0.1 dB and ramps by target (128 × kind + index; kinds 0 stream, 1 route, 2 bus),
routes, streams, chimes, and the coefficients in force of biquad section k of bus m (at 8 m + k; none: those at reset). -/
structure Audio where
  gains : SMap Int
  ramps : SMap GainRamp
  routes : SMap RouteFade
  streams : SMap StreamRun
  chimes : SMap ChimeRun
  eq : SMap (List Word)
  deriving DecidableEq, Repr, Inhabited

/-! ### Bells and tokens (R358 to R376) -/

/-- A message of a channel: its words, sequence number, the sender epoch it records, and whether it waits for a receiver that
is powered down (R366). -/
structure BellMsg where
  words : List Word
  seq : Nat
  epoch : Nat
  waits : Bool
  deriving DecidableEq, Repr, Inhabited

/-- A bell channel beside its binding: the staging copy, the unread messages, the next sequence number, SEND_STAT, the epochs,
and what an on-chip sender is told (R371). -/
structure BellChan where
  stage : SMap Word
  msgs : List BellMsg
  seq : Nat
  status : Nat
  lastSeq : Nat
  sendEpoch : Nat
  recvEpoch : Nat
  emptied : Bool
  undeliv : Bool
  undCount : Nat
  undSeq : Nat
  deriving DecidableEq, Repr, Inhabited

/-- A token (R372, R373): its holder's MID if it is held, and its pointer. -/
structure TokRun where
  holder : Option Nat
  ptr : Nat
  deriving DecidableEq, Repr, Inhabited

/-- The bells and tokens; doorbell bits and masks by MID. -/
structure Bells where
  chans : SMap BellChan
  pend : SMap Nat
  mask : SMap Nat
  toks : SMap TokRun
  deriving DecidableEq, Repr, Inhabited

/-! ### Power, boot and firmware (R428 to R454) -/

/-- A record of the reset-cause log (R453). -/
structure RclRec where
  cause : Nat
  arg0 : Nat
  arg1 : Nat
  dt : Nat
  count : Nat
  deriving DecidableEq, Repr, Inhabited

/-- A request that waits behind secure holds (R387): the domains it concerns, as a mask, and those that queue it; its CAP
and FORCE, or that Stopping holds the domains off (R178); and the TAG of its descriptor, if it came from one. -/
structure DomReq where
  doms : Nat
  on : Nat
  cap : Nat
  force : Nat
  modeOff : Bool
  tag : Option Nat
  deriving DecidableEq, Repr, Inhabited

/-- A record of the persistent parameter store (R449), by type and key: its payload with its length in bytes, whether it is a
DELETE, and the sector it stands in. -/
structure StoreRec where
  type : Nat
  key : Nat
  seq : Nat
  dt : Nat
  payload : List Word
  len : Nat
  deleted : Bool
  sector : Nat
  deriving DecidableEq, Repr, Inhabited

/-- A store write that runs: its record, and the descriptor that waits for it (function, ring, index). -/
structure StoreJob where
  item : StoreRec
  waiter : Option (Nat × Nat × Nat)
  deriving DecidableEq, Repr, Inhabited

/-- A firmware image in a slot (R444). -/
structure FwImage where
  version : Word := 0
  objVersion : Nat := 0
  pairMin : Nat := 0
  pairMax : Nat := 0
  pairEpoch : Nat := 0
  stateFormat : Word := 0
  secVersion : Nat := 0
  herLayers : Nat := 0
  herRegions : List (Nat × Nat) := []
  deriving DecidableEq, Repr, Inhabited

/-- A cutover that is under way (R446 to R448): the slot it goes to, the DT of its window, the descriptor that waits,
whether it is the second window, and the platform whose frame start it waits for. -/
structure Cutover where
  window : Bool
  pendingOn : Option Nat
  slot : Nat
  tc : Nat
  rollback : Bool
  desc : Option (Nat × Nat)
  deriving DecidableEq, Repr, Inhabited

/-- A staged image load that is bound to a calling point: its descriptor on F0, the cause with which its verification
fails, and the image. -/
structure StagedLoad where
  ring : Nat
  idx : Nat
  cause : Nat
  img : FwImage
  deriving DecidableEq, Repr, Inhabited

/-- Since when the junction is above a threshold (R437): 0 WARN_C, 1 THROTTLE_C, 2 TRIP_C, 3 Tj max + 15. -/
structure TjOver where
  level : Nat
  since : Nat
  deriving DecidableEq, Repr, Inhabited

/-- The PMU and the boot engine. `waking` is the mask of domains whose wake runs; `hib` says the device is in HIBERNATE;
`off` that everything but PD0 is off (R437); `ests` the last ten power estimates, newest first; `gpuCapMhz` and `removed`
what R433 leaves of the GPU clock and takes of the slots; `therm` the thermal states (bit 0 warn, 1 throttle, 2 trip) and
`tripCut` the domains that a trip holds off; `begun` that the ROM runs, `recovery` R443; `rclCopied` the count of reset-cause
records that are in RESET_LOG. -/
structure Power where
  waking : Nat := 0
  reqs : List DomReq := []
  hib : Bool := false
  off : Bool := false
  begun : Bool := false
  booted : Bool := false
  recovery : Bool := false
  ests : List Nat := []
  lastEst : Nat := 0
  underSince : Option Nat := none
  capEpisode : Bool := false
  gpuCapMhz : Nat := 1300
  removed : Nat := 0
  therm : Nat := 0
  tripCut : Nat := 0
  tjOver : List TjOver := []
  rcl : List RclRec := []
  rclCount : Nat := 0
  rclCopied : Nat := 0
  store : List StoreRec := []
  storeSeq : Nat := 0
  storeJobs : List StoreJob := []
  storePresent : Bool := true
  storeSectors : Nat := 256
  storeHead : Nat := 1
  storePos : Nat := 16
  storeErases : SMap Nat := []
  slots : SMap FwImage := []
  running : Nat := 0
  loading : Bool := false
  verifyDt : Nat := 0
  cut : Cutover := default
  stagedLoads : List StagedLoad := []
  deriving DecidableEq, Repr, Inhabited

/-! ### The secure world and the safety island (R377 to R402) -/

/-- A write of the secure function to host memory that an insecure IDE stream holds back (R380). -/
structure HeldWrite where
  f : Nat
  iova : Nat
  bytes : List Byte
  deriving DecidableEq, Repr, Inhabited

/-- A scrub of R382 or R383: its range in units of the watermark, when it began, and whether the watermark follows it. -/
structure Scrub where
  lo : Nat
  hi : Nat
  t0 : Nat
  lower : Bool
  deriving DecidableEq, Repr, Inhabited

/-- The strips of a platform that Caution composes (R396, R399): from an absolute line on, to the landing that ends it. -/
structure CauSpan where
  plat : Nat
  from0 : Nat
  to0 : Option Nat
  deriving DecidableEq, Repr, Inhabited

/-- The secure world and the safety island beside their registers: the SPDM connection (0 none, 1 version, 2 capabilities, 3
algorithms) and session (0 none, 1 handshake, 2 established) of each function, the IDE streams whose keys are programmed and
not yet in use, the writes that are held; the scrubs by memory (0 DRAM, 1 Skein); the first word of a refresh and the DT from
which the dead-man timer counts, with the time it was loaded with; the platforms that Caution darkened, and the spans of those it
composes; the regions (16 ×
platform + region) whose run of NO_OUTPUT was posted; and whether the island has halted. -/
structure Safe where
  conn : SMap Nat
  sess : SMap Nat
  ideKeys : Nat
  held : List HeldWrite
  scrubs : SMap Scrub
  kick : Option Nat
  dmFrom : Option Nat
  dmMs : Nat
  dark : Nat
  cau : List CauSpan
  noOut : SMap Bool
  halted : Bool
  deriving DecidableEq, Repr, Inhabited

/-! ### The pair (R403 to R427) -/

/-- A FORM that waits for the partner (R408): its descriptor on F0, the role asked for, and when it began. -/
structure FormJob where
  ring : Nat
  idx : Nat
  role : Nat
  t0 : Nat
  deriving DecidableEq, Repr, Inhabited

/-- A slot of a ring with its words: a descriptor, a completion or an event that crossed the link. -/
structure SlotRec where
  f : Nat
  r : Nat
  slot : Nat
  words : List Word
  deriving DecidableEq, Repr, Inhabited

/-- A commit that the lead stamped: its landing lines (R415). -/
structure LandRec where
  id : Nat
  src : CommitSrc
  anchor : Nat
  group : Nat
  land : List (Nat × Nat × Nat)
  deriving DecidableEq, Repr

/-- A region's CRC of one frame (R417). -/
structure SigRec where
  plat : Nat
  region : Nat
  frame : Nat
  crc : Word
  deriving DecidableEq, Repr, Inhabited

/-- A completion that a banker does not write (R415): the lead writes it, or this device after a takeover. -/
structure OwedDone where
  f : Nat
  r : Nat
  desc : Desc
  status : Nat
  detail : Nat
  detail2 : Nat
  stamp : Nat
  deriving DecidableEq, Repr

/-- The last completion and event slot of a ring that the lead wrote (R405, DONE). -/
structure DoneRec where
  f : Nat
  r : Nat
  comp : Nat
  evt : Nat
  deriving DecidableEq, Repr, Inhabited

/-- The pair section: the sequence numbers of the records sent, acknowledged and applied (R405, R406), failures in a row
(R404), the FORM that waits, fences, what the DONE records and the mirrored state hold for a takeover (R412,
R422, `owed` the completions that this banker left to the lead, `outs` those of the lead that this banker has not come to, `downs`
the touch contacts reported DOWN), the raster positions of the lead (platform, frame, line; R410), and a
swap that is under way (R423); `fwd` the WRITE records that the forward queue holds, by sequence number (R413), and the DT of the
last panel baselines sent (R405). -/
structure Pair where
  seqOut : Nat := 0
  acked : Nat := 0
  seqIn : Nat := 0
  retries : Nat := 0
  authRun : Nat := 0
  form : Option FormJob := none
  fenceOut : Bool := false
  fenceOutDt : Nat := 0
  fenceIn : Bool := false
  hbOut : Bool := false
  copyDone : Bool := false
  pendingOut : List SlotRec := []
  owed : List OwedDone := []
  outs : List SlotRec := []
  downs : List SlotRec := []
  doneMarks : List DoneRec := []
  heldDescs : List SlotRec := []
  bankCommits : List LandRec := []
  media : List (Nat × List Nat) := []
  streamPos : List (Nat × Nat) := []
  leadDt : Nat := 0
  leadPos : List (Nat × Nat × Nat) := []
  leadSig : List SigRec := []
  mySig : List SigRec := []
  swapping : Bool := false
  polling : Bool := false
  aliveDt : Nat := 0
  fwd : List Nat := []
  mediaDt : Nat := 0
  deriving DecidableEq, Repr, Inhabited

/-! ### The MDH-8 map of Heritage (R455 to R476) -/

/-- The MDH-8 register map: its shadow and global registers by offset (those that are not zero); the words that the last
capture of a display landed; the frame of its platform in which a display was enabled; the DT of the first key write (R469);
when a soft reset completes (R468). -/
structure Mdh where
  regs : SMap Word
  applied : SMap (List Word)
  frame0 : SMap Nat
  key : Option Nat
  softAt : Option Nat
  deriving DecidableEq, Repr, Inhabited

/-! ### Buffers and the Skein pool (R238 to R258) -/

/-- A BUF_RELEASE or BUF_DESTROY that waits for the references that existed at its start, those below `upto` (R247,
R248). -/
structure BufWait where
  fn : Nat
  ring : Nat
  idx : Nat
  upto : Nat
  destroy : Bool
  dt : Nat
  deriving DecidableEq, Repr, Inhabited

/-- An entry of the buffer table (R239): 0 FREE, 1 LIVE, 2 DYING; the words of its BUF_CREATE; what waits on it; whether it
is referenced, and where its last reference stood (layer, platform, reason, frame, line), for the cast-off record. -/
structure BufEntry where
  state : Nat
  gen : Nat
  owner : Nat
  words : List Word
  waits : List BufWait
  refd : Bool
  lastLayer : Nat
  lastPlat : Nat
  lastReason : Nat
  lastFrame : Nat
  lastLine : Nat
  lastDt : Nat
  deriving DecidableEq, Repr, Inhabited

/-- A reference that a layer's applied state holds (R244): the commit that made it, the entry, the layer, its platform, and,
once a bound commit ends it, the reason and the landing boundary. -/
structure BufRef where
  id : Nat
  idx : Nat
  layer : Nat
  plat : Nat
  ending : Option (Nat × Nat)
  deriving DecidableEq, Repr, Inhabited

/-- A run of Skein blocks that one consumer holds (R254): the reserve it counts in (0 to 7, 8 the common remainder), whether
it is lent (R255), and its user: a platform, a layer, a stream or a bell, with its function. -/
structure SkRun where
  start : Nat
  len : Nat
  pool : Nat
  lent : Bool
  user : Nat
  fn : Nat
  deriving DecidableEq, Repr, Inhabited

/-- A layer as a configuration holds it: its body words, effective class, state (1 ACTIVE, 2 PATCH) and owner. -/
structure LaySnap where
  layer : Nat
  words : List Word
  cc : Nat
  st : Nat
  owner : Nat
  out : Bool
  deriving DecidableEq, Repr, Inhabited

/-- A configuration of a platform from an absolute line on (R305, R306): its layers, its blend order with operators, and the
words of its guard regions. -/
structure CfgSnap where
  plat : Nat
  abs : Nat
  layers : List LaySnap
  order : List (Nat × Nat)
  guards : List Word
  deriving DecidableEq, Repr, Inhabited

/-- What became of a strip (R305): 1 re-composed, 2 fallback, 3 one line substituted under R286, at an absolute line. -/
structure StripOut where
  plat : Nat
  abs : Nat
  kind : Nat
  deriving DecidableEq, Repr, Inhabited

/-- A layer left blending at an absolute line of a platform (R250). -/
structure FaultAt where
  layer : Nat
  plat : Nat
  abs : Nat
  deriving DecidableEq, Repr, Inhabited

/-- A layer that moved to another platform and still stands on the one it leaves (R206). -/
structure Ghost where
  plat : Nat
  lay : LaySnap
  deriving DecidableEq, Repr, Inhabited

/-- CLEAR_VALUE of the header of an LBC buffer as a platform reads it in one frame (R243); none without CLEAR_VALID, or where the header lies
outside DRAM. -/
structure LbcHdr where
  plat : Nat
  idx : Nat
  frame : Nat
  clear : Option Nat
  deriving DecidableEq, Repr, Inhabited

/-- What composition keeps beside its registers: the layers that a STICKY fault keeps out until they name a handle again
(R251), the layers whose LBC_STATE was posted, with the frame (R243), the tone curve and the LUT in force on a platform (R221;
empty is the identity), layers between two platforms (R206: `away` have left the old one only, `ghosts` not yet), and the
configurations, strip outcomes and faults of the last frames (R306); `lastBank` is one more than the bank that the layer's most recently
accepted LAYER with EN = 1 selects (R218). -/
structure Comp where
  sticky : List Nat
  lbcTold : List (Nat × Nat)
  tone : SMap (List Nat)
  lut : SMap (List Node)
  away : List Nat
  ghosts : List Ghost
  cfgs : List CfgSnap
  outs : List StripOut
  faults : List FaultAt
  hdrs : List LbcHdr
  lastBank : SMap Nat
  deriving DecidableEq, Repr, Inhabited

/-- The buffer table, the references of layers, the Skein pool (runs of held blocks, rising) and the claims of R257 (key
4 × function + class). -/
structure Bufs where
  tab : SMap BufEntry
  refs : List BufRef
  runs : List SkRun
  claims : SMap Nat
  deriving DecidableEq, Repr, Inhabited
/-! ### The raster section (R145 to R203) -/

/-- A logical slot (R177, R187, R195): the context that holds it and since when it is charged, whether it yields, the end of the
grace, when its save began, and the context whose save still runs on its cluster after the slot has passed on, with the DT of its
end. -/
structure SlotRun where
  ctx : Option Nat
  since : Nat
  yields : Bool
  graceEnd : Nat
  saving : Option Nat
  tail : Option (Nat × Nat) := none
  deriving DecidableEq, Repr, Inhabited

/-- The raster section: contexts, slots, the slots that a clear keeps from other work (by Express context), the functions
whose window is open (R192), the slot that a relief fills (by group), and the clusters whose first posthumous drop is
reported. -/
structure Gpu where
  ctxs : SMap GpuCtx
  slots : SMap SlotRun
  clears : SMap Nat
  windows : List Nat
  relief : SMap (Option Nat)
  posted : List Nat
  deriving DecidableEq, Repr, Inhabited

/-- A range of DRAM whose bytes are free values (what shaders render, what a save area holds): its place, length, and the
number of its first free byte. -/
structure FreeRange where
  lo : Nat
  len : Nat
  key : Nat
  deriving DecidableEq, Repr, Inhabited


/-! ### What leaves the device -/

/-- What the device gives to the outside, newest first in `Dev.out`. `sound` tells what the audio engine begins: kind 0 a bus scale,
1 a ramp of a stream, 2 a crossfade of a route (source and destination ID, frames), 3 a chime that starts or ends with PORT and SLOTS,
4 a bridge's output ramping up from silence (a = 1) or down to it in b ns, 5 the attenuation of a port's slot (16 × port + slot, dB, ns). -/
inductive Out where
  | completion (f r slot idx tag status dt detail cookie detail2 : Nat)
  | event (f r slot : Nat) (e : Ev) (seq : Nat)
  | msi (f v : Nat)
  | hostWrite (f iova : Nat) (bytes : List Byte)
  | hostOpaque (f iova len : Nat)
  | hostSet (f iova bits : Nat)
  | hostRead (f iova len : Nat)
  | readData (mid off : Nat) (v : Word)
  | pulse (pin : Nat) (level : Nat) (lenNs : Nat)
  | island (kind : Nat) (arg : Nat)
  | link (kind : Nat) (ws : List Nat)
  | aux (port cmd addr : Nat) (data : List Byte)
  | spdm (f code : Nat) (arg : Nat)
  | atsDone (f iova pages : Nat)
  | aperture (off : Nat) (bytes : List Byte)
  | panel (kind port arg : Nat)
  | line (sink : Nat) (ws : List Nat)
  | update (p frame line : Nat)
  | spi (port : Nat) (bytes : List Byte)
  | drive (ch : Nat) (mv : Int) (halfNs : Nat)
  | sound (kind idx a b : Nat)
  | pdm (pair hz ratio : Nat) (dcBlock : Bool)
  | strip (p frame line : Nat) (px : List OutPix)
  | pin (name level : Nat)
  deriving DecidableEq, Repr

/-! ### The whole device -/

/-- The device. `dt` is device time in ns (R46); `regs` the register values that differ from reset; `stg` and `stgSI`
the staging copies of R28 and R236 that are written; `dram` the device-local DRAM (`dramFree` its ranges of free bytes); `pt` the landed partition table
(word k of Fn at 16 n + k), `dirty` the dirty cache, newest word first, `ptSel` and `ptStage` the selection and the staged words of each master's window (R121); `blobs` what RESTOREs read that wait for a point; `gpio` the levels that GPIO actions drive; `freeCtr` counts the free values taken. -/
structure Dev where
  dt : Nat
  heritage : Bool
  seatB : Bool
  bootMode : Nat
  dramUnits : Nat
  regs : SMap Word
  stg : SMap (Option Word)
  stgSI : SMap (Option Word)
  dram : SMap Byte
  dramFree : List FreeRange
  tt : Timetable
  fns : SMap FnSt
  dirty : List DirtyWord
  pt : SMap Word
  ptSel : SMap Nat
  ptStage : SMap (SMap (Option Word))
  blobs : List ParkedBlob
  vfEnable : Bool
  numVfs : Nat
  plat : SMap PlatRun
  commits : List Commit
  nextCommit : Nat
  accept : Nat
  err : ErrLog
  ctr : Counters
  buf : Bufs
  gpu : Gpu
  comp : Comp
  scan : Scan
  hap : Haptics
  touch : Touch
  audio : Audio
  bells : Bells
  pm : Power
  safe : Safe
  pair : Pair
  mdh : Mdh
  gpio : Nat
  freeCtr : Nat
  out : List Out
  deriving DecidableEq, Repr

/-- The faults of a step. The spec gives every command of the table an effect, so no meaning raises one. -/
inductive Fault where
  /-- Reserved for an access that the spec would forbid and give no effect; raised by no meaning. Safe: the machine
  would stop. -/
  | noEffectGiven
  deriving DecidableEq, Repr

/-- The refusals of a step. -/
inductive Refusal where
  /-- The command has no meaning in this model yet; raised by the arms of exec alone. Safe: the machine stops. -/
  | notModelled (mnemonic : String)
  deriving DecidableEq, Repr

/-- The state of the block: the device, and the commands that wait, first in first out. -/
structure State where
  pending : List Instr
  dev : Dev
  deriving DecidableEq, Repr

/-- The device right after cold reset with the HERITAGE strap low (R6, R18): every register at its reset value, nothing
in memory, no ring, no timing. -/
def Dev.reset : Dev where
  dt := 0
  heritage := false
  seatB := false
  bootMode := 0
  dramUnits := 491520
  regs := []
  stg := []
  stgSI := []
  dram := []
  dramFree := []
  tt := default
  fns := []
  dirty := []
  pt := []
  ptSel := []
  ptStage := []
  blobs := []
  vfEnable := false
  numVfs := 0
  plat := []
  commits := []
  nextCommit := 0
  accept := 0
  err := default
  ctr := default
  buf := default
  gpu := default
  comp := default
  scan := default
  hap := default
  touch := default
  audio := default
  bells := default
  pm := default
  safe := default
  pair := default
  mdh := default
  gpio := 0
  freeCtr := 0
  out := []

/-- The machine right after reset: no command waits. -/
def State.reset : State where
  pending := []
  dev := Dev.reset

end Sys2Proof.Machine
end

