-- ==== Sys2Proof/Machine/Ops.lean ====
section
/-! DEFINITION. The operations that every family of commands shares: reading and writing registers, device time, the error
log, the device MMU and memory, events and completions, power domains. -/

namespace Sys2Proof.Machine

/-! ### Registers -/

/-- What the register at an offset holds: its reset value while nothing else is listed. -/
def rd (d : Dev) (off : Nat) : Word := (SMap.find? d.regs off).getD (regReset off)

/-- The device with a register's value changed. -/
def wr (d : Dev) (off : Nat) (v : Word) : Dev :=
  { d with regs := if v = regReset off then SMap.erase d.regs off else SMap.insert d.regs off v }

/-- A field of a register. -/
def fg (d : Dev) (off : Nat) (f : Fld) : Nat := bits (rd d off) f.1 f.2

/-- Is a field not zero? -/
def fb (d : Dev) (off : Nat) (f : Fld) : Bool := fg d off f != 0

/-- The device with a field of a register changed. -/
def fs (d : Dev) (off : Nat) (f : Fld) (v : Nat) : Dev := wr d off (putBits (rd d off) f.1 f.2 v)

/-- A counter field counts n more, saturating at its width. -/
def bump (d : Dev) (off : Nat) (f : Fld) (n : Nat := 1) : Dev :=
  fs d off f (sat (fg d off f + n) (2 ^ (f.1 + 1 - f.2) - 1))

/-- Several registers written, one after another, at rising word offsets. -/
def wrs (d : Dev) (off : Nat) : List Word → Dev
  | [] => d
  | w :: ws => wrs (wr d off w) (off + 4) ws

/-- n words of registers, at rising word offsets. -/
def rds (d : Dev) (off n : Nat) : List Word := (List.range n).map (fun k => rd d (off + 4 * k))

/-- A 64-bit value in two registers, the low word at off. -/
def wr64 (d : Dev) (off v : Nat) : Dev := wr (wr d off (loWord v)) (off + 4) (hiWord v)

/-- The 64-bit value in two registers. -/
def rd64 (d : Dev) (off : Nat) : Nat := lo64 (rd d off) (rd d (off + 4))

/-- Is bit k of GL_LOCK set (R13)? -/
def locked (d : Dev) (k : Nat) : Bool := hasBit (rd d GL_LOCK).toNat k

/-- The mode in force (R4). -/
def modeOf (d : Dev) : Nat := fg d GL_MODE GL_MODE_MODE

/-! ### Time -/

/-- A row counter counts up by n, its shadow by m. -/
def addCounter (c : Counters) (i n m : Nat) : Counters :=
  { c with now := SMap.mod c.now i (fun x => (x + n) % 2 ^ 64)
           shadow := if m = 0 then c.shadow else SMap.mod c.shadow i (fun x => (x + m) % 2 ^ 64) }

/-- A row counter counts up (R477). Up to the instant T of the last freeze its shadow holds the event too (R478). -/
def count (d : Dev) (i : Nat) (n : Nat := 1) : Dev :=
  { d with ctr := addCounter d.ctr i n (if d.dt ≤ d.ctr.freezeDt ∧ d.ctr.freezeDt ≠ 0 then n else 0) }

/-- The next n nanoseconds are counted for the domains that spend them in RUN (R477); the shadows take those up to T. -/
def countRun (d : Dev) (n : Nat) : Dev :=
  (List.range 16).foldl (fun d k =>
    if fg d (PM_DOM_STAT k) PM_DOM_STAT_STATE = 0 then
      { d with ctr := addCounter d.ctr (620 + k) n (min n (d.ctr.freezeDt - d.dt)) }
    else d) d

/-- Does the fabric clock stand still: PD4 not in RUN, or the device in HIBERNATE (R46, R428)? DESIGN CHOICE
(notes/assumptions/124): the clocks of R428's GATE count as stopped too. -/
def clockStopped (d : Dev) : Bool := d.pm.hib || fg d (PM_DOM_STAT 4) PM_DOM_STAT_STATE != 0

/-- The value that DT shows at the time t: while the fabric clock stands still, the keeper's steps of 40 ns (R46, R47). -/
def keeperDt (d : Dev) (t : Nat) : Nat := if clockStopped d then (t + 39) / 40 * 40 else t

/-- Device time comes to t; it never decreases (R47). -/
def advance (t : Nat) (d : Dev) : Dev :=
  if t ≤ d.dt then d else { countRun d (keeperDt d t - d.dt) with dt := keeperDt d t }

/-- Something leaves the device. -/
def emit (d : Dev) (o : Out) : Dev := { d with out := o :: d.out }

/-- A number for a free value, and the device with the counter moved on. -/
def takeFree (d : Dev) : Nat × Dev := (Config.freeNat d.freeCtr, { d with freeCtr := d.freeCtr + 1 })

/-! ### Functions and rings -/

/-- The state of function n beside its registers. -/
def fnSt (d : Dev) (n : Nat) : FnSt := SMap.get d.fns n

/-- The device with a function changed. -/
def onFn (d : Dev) (n : Nat) (g : FnSt → FnSt) : Dev := { d with fns := SMap.mod d.fns n g }

/-- A ring of a function. -/
def ringSt (d : Dev) (n r : Nat) : RingSt := SMap.get (fnSt d n).rings r

/-- The device with a ring changed. -/
def onRing (d : Dev) (n r : Nat) (g : RingSt → RingSt) : Dev :=
  onFn d n (fun x => { x with rings := SMap.mod x.rings r g })

/-- The register that holds the state of function n (R129), and its field. -/
def fnStateReg (n : Nat) : Nat := if n < 16 then HS_FN_STATE0 else HS_FN_STATE1

def fnStateFld (n : Nat) : Fld := (2 * (n % 16) + 1, 2 * (n % 16))

/-- 0 DISABLED, 1 ENABLED, 2 DEPARTING, 3 QUIESCED (R129). -/
def fnState (d : Dev) (n : Nat) : Nat := fg d (fnStateReg n) (fnStateFld n)

def setFnState (d : Dev) (n v : Nat) : Dev := fs d (fnStateReg n) (fnStateFld n) v

/-! ### The partition table (R118, R119) -/

/-- Word k of an entry at cold reset (R119). -/
def ptReset (n k : Nat) : Word :=
  if n = 0 then
    match k with
    | 0 => BitVec.ofNat 32 (2 ^ 31 + 2 ^ 30 + 2 * 2 ^ 28 + 64 * 2 ^ 16)
    | 1 => BitVec.ofNat 32 (256 * 2 ^ 16)
    | 2 => BitVec.ofNat 32 (1008 * 2 ^ 16)
    | 3 => BitVec.ofNat 32 (384 * 2 ^ 16 + 8192)
    | 4 => 0xFFFFFFFF
    | 5 => 0xFFFFFFFF
    | 6 => BitVec.ofNat 32 (0xFFFF * 2 ^ 16 + 8191)
    | 7 => BitVec.ofNat 32 (0xFF * 2 ^ 24 + 0xFFF * 2 ^ 12)
    | 8 => 0xFFFFFFFF
    | _ => 0
  else 0

/-- Word k of the landed entry of function n. -/
def ptWord (d : Dev) (n k : Nat) : Word := (SMap.find? d.pt (16 * n + k)).getD (ptReset n k)

/-- The landed entry of function n. -/
def ptEntry (d : Dev) (n : Nat) : List Word := (List.range 16).map (ptWord d n)

/-- The table with an entry landed. -/
def setPt (d : Dev) (n : Nat) (ws : List Word) : Dev :=
  { d with pt := (List.range 16).foldl (fun m k =>
      if wd ws k = ptReset n k then SMap.erase m (16 * n + k) else SMap.insert m (16 * n + k) (wd ws k)) d.pt }

/-- Does the entry hold resources (VALID)? -/
def ptValid (d : Dev) (n : Nat) : Bool := bit (ptWord d n 0) 31

/-- Is this the secure function (R24)? -/
def ptSecure (d : Dev) (n : Nat) : Bool := ptValid d n && bit (ptWord d n 0) 30

def ptCcMax (d : Dev) (n : Nat) : Nat := bits (ptWord d n 0) 29 28

def ptReveal (d : Dev) (n : Nat) : Bool := bit (ptWord d n 0) 27

def ptTimePart (d : Dev) (n : Nat) : Bool := ptValid d n && bit (ptWord d n 0) 26

/-- In Heritage the function holds one vector (R470). -/
def ptVectors (d : Dev) (n : Nat) : Nat :=
  if d.heritage then 1 else if ptValid d n then bits (ptWord d n 0) 22 16 else 0

def ptCtxCount (d : Dev) (n : Nat) : Nat := if ptValid d n then bits (ptWord d n 1) 24 16 else 0

def ptCtxBase (d : Dev) (n : Nat) : Nat := bits (ptWord d n 1) 7 0

def ptCpCount (d : Dev) (n : Nat) : Nat := if ptValid d n then bits (ptWord d n 2) 25 16 else 0

def ptCpBase (d : Dev) (n : Nat) : Nat := bits (ptWord d n 2) 9 0

def ptJobMax (d : Dev) (n : Nat) : Nat := if ptValid d n then bits (ptWord d n 3) 24 16 else 0

def ptBufMax (d : Dev) (n : Nat) : Nat := if ptValid d n then bits (ptWord d n 3) 15 0 else 0

/-- Is layer ID k granted to function n? -/
def ptLayer (d : Dev) (n k : Nat) : Bool :=
  ptValid d n && (if k < 32 then bit (ptWord d n 4) k else bit (ptWord d n 5) (k - 32))

/-- The platforms on which function n may place layers, as a mask. -/
def ptPlatforms (d : Dev) (n : Nat) : Nat := if ptValid d n then bits (ptWord d n 6) 31 16 else 0

def ptSkeinMax (d : Dev) (n : Nat) : Nat := if ptValid d n then bits (ptWord d n 6) 13 0 else 0

def ptTouch (d : Dev) (n t : Nat) : Bool := ptValid d n && bit (ptWord d n 7) (24 + t)

def ptHaptic (d : Dev) (n h : Nat) : Bool := ptValid d n && bit (ptWord d n 7) (12 + h)

def ptAudio (d : Dev) (n s : Nat) : Bool := ptValid d n && bit (ptWord d n 8) s

/-- Is calling point c in the allotment of function n (R52)? -/
def ptOwnsCp (d : Dev) (n c : Nat) : Bool :=
  decide (ptCpBase d n ≤ c) && decide (c < ptCpBase d n + ptCpCount d n)

/-- The FCB address of a function (R85): registers for F0, the partition entry for a VF. -/
def fcbAddr (d : Dev) (n : Nat) : Nat :=
  if n = 0 then (rd64 d HS_FCB_LO / 4096) * 4096 else lo64 (ptWord d n 9) (ptWord d n 10)

/-! ### The error log (R485) -/

/-- An error is recorded: merged into the newest record, or written as a new one. -/
def logErr (d : Dev) (cause mid addr : Nat) (data : Word) (secure : Bool := false) : Dev :=
  let n := (d.err.seq + 1) % 2 ^ 32
  let fresh : ErrRec := { cause := cause, mid := mid, count := 1, addr := addr, data := data, dt := d.dt,
                          last := d.dt, seq := n, secure := secure }
  let write : Dev :=
    let d1 := { d with err := { d.err with recs := (fresh :: d.err.recs).take 256, seq := n,
                                           unreported := d.err.unreported + 1 } }
    let d2 := if d.err.recs.length ≥ 256 then bump d1 ER_STATUS ER_STATUS_OVERWRITTEN else d1
    fs d2 ER_STATUS ER_STATUS_FILL (min 256 (d.err.recs.length + 1))
  match d.err.recs with
  | [] => write
  | e :: es =>
    if e.cause = cause ∧ e.mid = mid ∧ e.addr = addr ∧ d.dt - e.last ≤ 1000 ∧ e.count < 255 then
      { d with err := { d.err with recs := { e with count := e.count + 1, last := d.dt } :: es } }
    else write

/-! ### The pair (R405, R411, R412, R416) -/

/-- DH_STATUS.STATE: 0 STANDALONE, 1 LINKING, 2 SYNC, 3 PAIRED, 4 HOT, 5 ALONE, 6 COLD, 7 FENCED. -/
def dhState (d : Dev) : Nat := fg d DH_STATUS DH_STATUS_STATE

/-- Is the role banker? -/
def dhBanker (d : Dev) : Bool := fb d DH_STATUS DH_STATUS_ROLE

/-- Does the device keep to the rules of R416: a banker outside STANDALONE and PAIRED, or a fenced device (R420)? -/
def bankerLike (d : Dev) : Bool :=
  (dhBanker d && decide (dhState d ≠ 0) && decide (dhState d ≠ 3)) || decide (dhState d = 7)

/-- Does the lead send records: while a pair stands, or while it is copied (R410, R412)? -/
def mirroring (d : Dev) : Bool := decide (dhState d = 3) || (decide (dhState d = 2) && !dhBanker d)

/-- A record of a type goes to the banker (R405, R406). -/
def linkSend (d : Dev) (kind : Nat) (ws : List Nat) : Dev :=
  if mirroring d then
    count (emit { d with pair := { d.pair with seqOut := d.pair.seqOut + 1 } }
      (.link kind (d.pair.seqOut % 2 ^ 32 :: fg d DH_STATUS DH_STATUS_CREW_EPOCH :: ws))) 636
  else d

/-! ### Power domains (R428) -/

/-- The state code of a domain. -/
def domState (d : Dev) (k : Nat) : Nat := fg d (PM_DOM_STAT k) PM_DOM_STAT_STATE

/-- Is the domain in RUN or GATE? -/
def domUp (d : Dev) (k : Nat) : Bool := decide (domState d k ≤ 1)

/-- Is the domain in RUN? -/
def domRun (d : Dev) (k : Nat) : Bool := decide (domState d k = 0)

/-! ### The device MMU (R130 to R135) -/

/-- What an unlisted byte of DRAM reads as: zero, or a free byte where the raster section left its own data. -/
def dramUnlisted (d : Dev) (a : Nat) : Byte :=
  match d.dramFree.find? (fun r => decide (r.lo ≤ a) && decide (a < r.lo + r.len)) with
  | some r => Config.freeByte (r.key + (a - r.lo))
  | none => 0

/-- The byte of device-local DRAM at a physical address. -/
def dramByte (d : Dev) (a : Nat) : Byte := (SMap.find? d.dram a).getD (dramUnlisted d a)

/-- n bytes of DRAM. -/
def dramBytes (d : Dev) (a n : Nat) : List Byte := (List.range n).map (fun k => dramByte d (a + k))

/-- The cells that a list of bytes makes from an address on: those that differ from what an unlisted byte reads as. -/
def dramSeg (d : Dev) (a : Nat) : List Byte → SMap Byte
  | [] => []
  | b :: bs => if b = dramUnlisted d a then dramSeg d (a + 1) bs else (a, b) :: dramSeg d (a + 1) bs

/-- Bytes stored in DRAM. -/
def dramStore (d : Dev) (a : Nat) (bs : List Byte) : Dev :=
  { d with dram := SMap.splice d.dram a (a + bs.length) (dramSeg d a bs) }

/-- A range of DRAM takes free bytes. -/
def dramRelease (d : Dev) (a len : Nat) : Dev :=
  { d with dram := SMap.splice d.dram a (a + len) []
           dramFree := { lo := a, len := len, key := d.freeCtr } :: d.dramFree
           freeCtr := d.freeCtr + len }

/-- The installed DRAM in bytes. -/
def dramSize (d : Dev) : Nat := d.dramUnits * 65536

/-- The DRAM region of the secure world, in 64 KiB units below the watermark (R381). -/
def dramSecureTop (d : Dev) : Nat := fg d MC_SEC_WM MC_SEC_WM_WM * 65536

/-- Does the Freight region hold this DRAM address (R232)? -/
def inFreight (d : Dev) (a : Nat) : Bool :=
  let b := (rd64 d CM_FRT_BASE_LO / 65536) * 65536
  decide (b ≤ a) && decide (a < b + (rd d CM_FRT_SIZE).toNat * 65536)

/-- Where an access goes: DRAM, or the host with the address kept. -/
inductive Place where
  | dram (a : Nat)
  | host (a : Nat)
  deriving DecidableEq, Repr

/-- The fault types of R132. -/
inductive MmuRes where
  | ok (p : Place)
  | fault (type : Nat)
  deriving DecidableEq, Repr

/-- May a table of function n lie at this DRAM address (R133)? DESIGN CHOICE (notes/assumptions/134): a read of a table beyond the
installed DRAM is outside the region too. -/
def tableOk (d : Dev) (n a : Nat) : Bool :=
  decide (a + 8 ≤ dramSize d) &&
  ((fb d (MM_CTRL n) MM_CTRL_SELF && !locked d 1) ||
   (decide (rd64 d MM_TBL_BASE_LO ≤ a) && decide (a + 8 ≤ rd64 d MM_TBL_LIMIT_LO)))

/-- A leaf entry at a level (R131): its checks, and the place of the access. -/
def leaf (d : Dev) (e level iova : Nat) (isWr secure ats : Bool) : MmuRes :=
  let page := 2 ^ (12 + 9 * (3 - level))
  let addr := bitsN e 51 12 * 4096
  let target := bitsN e 62 61
  let out := addr + iova % page
  if bitsN e 63 63 ≠ 0 ∨ bitsN e 60 52 ≠ 0 ∨ bitsN e 11 5 ≠ 0 ∨ target = 3 ∨ addr % page ≠ 0 then .fault 4
  else if (isWr && !hasBit e 3) || (!isWr && !hasBit e 2) || (hasBit e 4 && !secure) then .fault 1
  else if target = 2 ∧ ats then .fault 5
  else if target = 0 then
    if out ≥ dramSize d then .fault 3
    else if inFreight d out then .fault 1
    else if out < dramSecureTop d ∧ !secure then .fault 1
    else .ok (.dram out)
  else .ok (.host out)

/-- The walk of R130 from a table at a level. DESIGN CHOICE (notes/assumptions/135): the bits that R131 gives to leaves alone are
reserved in an entry that points to a next table. -/
def walk (d : Dev) (n : Nat) (iova : Nat) (isWr secure ats : Bool) : Nat → Nat → Nat → MmuRes
  | 0, _, _ => .fault 4
  | fuel + 1, level, table =>
    let a := table + 8 * bitsN iova (47 - 9 * level) (39 - 9 * level)
    if !tableOk d n a then .fault 2
    else
      let e := leNat (dramBytes d a 8)
      if !hasBit e 0 then .fault 0
      else if hasBit e 1 then
        if level = 3 then leaf d e 3 iova isWr secure ats
        else if bitsN e 63 52 ≠ 0 ∨ bitsN e 11 2 ≠ 0 then .fault 4
        else walk d n iova isWr secure ats fuel (level + 1) (bitsN e 51 12 * 4096)
      else if level = 1 ∨ level = 2 then leaf d e level iova isWr secure ats
      else .fault 4

/-- The translation of an IOVA of function n (R130 to R133). Whether the host refuses an ATS translation comes with a read; for a write
it is free (notes/assumptions/133). -/
def translate (d : Dev) (n iova : Nat) (isWr : Bool) (ats : Bool := false) : MmuRes :=
  if !fb d (MM_CTRL n) MM_CTRL_EN then .fault 0
  else if iova ≥ 2 ^ 48 then .fault 3
  else walk d n iova isWr (ptSecure d n) (if isWr then Config.atsRefuses n (iova / 4096) d.dt else ats) 4 0 ((rd64 d (MM_ROOT_LO n) / 4096) * 4096)

/-- A translation fault is counted in the function's summary (R135). -/
def noteFault (d : Dev) (n mid type iova : Nat) (isWr : Bool) : Dev :=
  onFn d n (fun x => { x with fault :=
    { count := sat (x.fault.count + 1) (2 ^ 32 - 1), mid := mid, type := type, wr := isWr, iova := iova, dt := d.dt } })

/-- The first page of a range that faults, as the fault type and its IOVA. -/
def firstFault (d : Dev) (n : Nat) (isWr ats : Bool) : List Nat → Option (Nat × Nat)
  | [] => none
  | a :: as =>
    match translate d n a isWr ats with
    | .fault t => some (t, a)
    | .ok _ => firstFault d n isWr ats as

/-- The addresses at which a range of len bytes enters a page. -/
def pagesOf (iova len : Nat) : List Nat :=
  iova :: ((List.range ((iova + len - 1) / 4096 - iova / 4096)).map (fun k => (iova / 4096 + k + 1) * 4096))

/-- Lines of 64 bytes that a write covers whole have a valid code again (R483). -/
def cleanLines (d : Dev) (a len : Nat) : Dev :=
  if d.err.badLines = [] then d
  else
    let keep := d.err.badLines.filter (fun p => !(decide (a ≤ 64 * p.1) && decide (64 * p.1 + 64 ≤ a + len)))
    { d with err := { d.err with badLines := keep } }

/-- Does a range of DRAM meet a line with an invalid code (R483)? -/
def meetsBad (d : Dev) (a len : Nat) : Bool :=
  d.err.badLines.any (fun p => decide (64 * p.1 < a + len) && decide (a < 64 * p.1 + 64))

/-- Does an insecure IDE stream stop the host writes of function n (R380)? -/
def ideStops (d : Dev) (n : Nat) : Bool :=
  ptSecure d n && (decide (fg d SE_IDE_STAT SE_IDE_STAT_STATE0 = 2) || decide (fg d SE_IDE_STAT SE_IDE_STAT_STATE1 = 2))

/-- Does a mirror window, or the table region of the DMMU, hold a DRAM address (R413)? -/
def inWindow (d : Dev) (a : Nat) : Bool :=
  (decide (rd64 d MM_TBL_BASE_LO ≤ a) && decide (a < rd64 d MM_TBL_LIMIT_LO)) ||
  (List.range 16).any (fun k => fb d (DH_MWIN k) DH_MWIN_EN &&
    decide (fg d (DH_MWIN k) DH_MWIN_BASE * 2 ^ 21 ≤ a) &&
    decide (a < (fg d (DH_MWIN k) DH_MWIN_BASE + fg d (DH_MWIN_SIZE k) DH_MWIN_SIZE_SIZE) * 2 ^ 21))

/-- The forward queue holds these records (R413): QUEUE_KIB counts 64 bytes for each. -/
def setForward (d : Dev) (l : List Nat) : Dev :=
  fs { d with pair := { d.pair with fwd := l } } DH_FWD_STAT DH_FWD_STAT_QUEUE_KIB (sat ((l.length * 64 + 1023) / 1024) 2048)

/-- A line that a window holds goes to the banker: it waits in the forward queue of 2 MiB until it is acknowledged, and a write
that finds the queue full counts a stall (R413). -/
def forwardLine (d : Dev) (ws : List Nat) : Dev :=
  let d1 := if d.pair.fwd.length * 64 ≥ 2 ^ 21 then bump d DH_FWD_STAT DH_FWD_STAT_STALLS else d
  linkSend (setForward d1 (d1.pair.fwd ++ [d1.pair.seqOut])) 0x04 ws

/-- What a write left in mirror windows goes to the banker, a line of 64 bytes a record with its byte mask (R405, R413). -/
def mirrorLines (d : Dev) (a len : Nat) : Dev :=
  if mirroring d ∧ len ≠ 0 then
    (List.range ((a + len - 1) / 64 - a / 64 + 1)).foldl (fun d k =>
      let l := (a / 64 + k) * 64
      let lo := max a l
      let hi := min (a + len) (l + 64)
      if inWindow d l then forwardLine d (l :: (2 ^ (hi - l) - 2 ^ (lo - l)) :: (dramBytes d l 64).map (fun b => b.toNat))
      else d) d
  else d

/-- Bits are set in a word of memory of F0's space; what the host holds there takes them too (R140). -/
def setMemBits (d : Dev) (iova v : Nat) : Dev × Bool :=
  match translate d 0 iova true with
  | .fault t => (noteFault d 0 0 t iova true, false)
  | .ok (.dram a) => (mirrorLines (dramStore d a (leBytes 8 (leNat (dramBytes d a 8) ||| v))) a 8, true)
  | .ok (.host _) => (emit d (.hostSet 0 iova v), true)

/-- The bitmap of function n that is active (R140). -/
def dirtyMap (d : Dev) (n : Nat) : Nat := if (fnSt d n).dl.activeB then (fnSt d n).dl.mapB else (fnSt d n).dl.mapA

/-- A word of the dirty cache goes to its bitmap. -/
def writeDirty (d : Dev) (x : DirtyWord) : Dev × Bool :=
  if (fnSt d x.f).dl.on then setMemBits d (dirtyMap d x.f + 8 * x.word) x.bits else (d, true)

/-- The cache holds 512 words; the oldest makes room (R140, notes/assumptions/100). -/
def evictDirty (d : Dev) : Dev :=
  match d.dirty.getLast? with
  | some x => if d.dirty.length > 512 then (writeDirty { d with dirty := d.dirty.dropLast } x).1 else d
  | none => d

/-- A page that the device writes is logged dirty (R140). -/
def logDirty (d : Dev) (n iova : Nat) : Dev :=
  let l := (fnSt d n).dl
  if l.on ∧ l.base ≤ iova ∧ iova < l.base + 4096 * l.pages then
    let p := (iova - l.base) / 4096
    let mine (x : DirtyWord) : Bool := decide (x.f = n) && decide (x.word = p / 64)
    if d.dirty.any mine then
      { d with dirty := d.dirty.map (fun x => if mine x then { x with bits := x.bits ||| 2 ^ (p % 64) } else x) }
    else evictDirty { d with dirty := { f := n, word := p / 64, bits := 2 ^ (p % 64) } :: d.dirty }
  else d

/-- Bytes go to their place: DRAM keeps them, the host receives them, at once or when its IDE stream is secure again. -/
def place (d : Dev) (n iova : Nat) (p : Place) (bs : List Byte) : Dev :=
  match p with
  | .dram a => mirrorLines (dramStore (cleanLines d a bs.length) a bs) a bs.length
  | .host _ =>
    if ideStops d n then
      { d with safe := { d.safe with held := d.safe.held ++ [{ f := n, iova := iova, bytes := bs }] } }
    else emit d (.hostWrite n iova bs)

/-- A write inside one page by the device for function n: translated, logged, placed. False on a fault, which the summary then
holds. -/
def memWritePage (d : Dev) (n mid iova : Nat) (bs : List Byte) : Dev × Bool :=
  match translate d n iova true with
  | .fault t => (noteFault d n mid t iova true, false)
  | .ok p => (count (logDirty (place d n iova p bs) n iova) (4 * n + 3) bs.length, true)

/-- The first `k` bytes of a list, and the rest. -/
def splitBytes (k : Nat) (bs : List Byte) : List Byte × List Byte := (bs.take k, bs.drop k)

/-- A long write, page by page; it stops at the first page that faults, and what was written before stays (R481). -/
def memWritePages : Nat → Dev → Nat → Nat → Nat → List Byte → Dev × Bool
  | 0, d, _, _, _, bs => (d, decide (bs = []))
  | fuel + 1, d, n, mid, iova, bs =>
    if bs = [] then (d, true)
    else
      let s := splitBytes (4096 - iova % 4096) bs
      let w := memWritePage d n mid iova s.1
      if w.2 then memWritePages fuel w.1 n mid (iova + s.1.length) s.2 else w

/-- The fuel that a range needs: its pages. -/
def pagesFuel (len : Nat) : Nat := len / 4096 + 2

/-- A write by the device for function n that happens whole or not at all: each page it touches is translated first. -/
def memWrite (d : Dev) (n mid iova : Nat) (bs : List Byte) : Dev × Bool :=
  match firstFault d n true false (pagesOf iova bs.length) with
  | some (t, a) => (noteFault d n mid t a true, false)
  | none =>
    if iova % 4096 + bs.length ≤ 4096 then memWritePage d n mid iova bs
    else memWritePages (pagesFuel bs.length) d n mid iova bs

/-- A record of 32 bytes is written in two ordered writes, its second half first (R105). -/
def writeSlot (d : Dev) (n iova : Nat) (bs : List Byte) : Dev × Bool :=
  let w := memWrite d n n (iova + 16) (bs.drop 16)
  if w.2 then memWrite w.1 n n iova (bs.take 16) else w

/-- One page of a write whose bytes the spec leaves open. -/
def memFreePage (d : Dev) (n mid iova len : Nat) : Dev × Bool :=
  match translate d n iova true with
  | .fault t => (noteFault d n mid t iova true, false)
  | .ok (.dram a) => (logDirty (mirrorLines (dramRelease (cleanLines d a len) a len) a len) n iova, true)
  | .ok (.host _) => (logDirty (emit d (.hostOpaque n iova len)) n iova, true)

/-- A write of len bytes that the spec leaves open, page by page up to the first fault. -/
def memFree : Nat → Dev → Nat → Nat → Nat → Nat → Dev × Bool
  | 0, d, _, _, _, _ => (d, true)
  | fuel + 1, d, n, mid, iova, len =>
    if len = 0 then (d, true)
    else
      let k := min len (4096 - iova % 4096)
      let w := memFreePage d n mid iova k
      if w.2 then memFree fuel w.1 n mid (iova + k) (len - k) else w

/-- A range takes free bytes, all but the pages that fault, which nothing records: what a failed job leaves undefined (R175). -/
def memFreeQuiet : Nat → Dev → Nat → Nat → Nat → Nat → Dev
  | 0, d, _, _, _, _ => d
  | fuel + 1, d, n, mid, iova, len =>
    if len = 0 then d
    else
      let k := min len (4096 - iova % 4096)
      let w := memFreePage d n mid iova k
      memFreeQuiet fuel (if w.2 then w.1 else d) n mid (iova + k) (len - k)

/-- What a read by the device answers. -/
inductive ReadRes where
  | words (ws : List Word)
  | fault
  | ecc
  deriving DecidableEq, Repr

/-- The words of a list of bytes. -/
def wordsOfBytes : List Byte → List Word
  | b0 :: b1 :: b2 :: b3 :: bs => BitVec.ofNat 32 (leNat [b0, b1, b2, b3]) :: wordsOfBytes bs
  | _ => []

/-- The bytes of a read, page by page; none at a line with an invalid code. The host's come with the command, by their place in the
read. -/
def readPages : Nat → Dev → Nat → Nat → Nat → Nat → List Byte → Option (List Byte)
  | 0, _, _, _, _, _, _ => some []
  | fuel + 1, d, n, iova, pos, len, host =>
    if len = 0 then some []
    else
      let k := min len (4096 - iova % 4096)
      let here : Option (List Byte) :=
        match translate d n iova false with
        | .ok (.dram a) => if meetsBad d a k then none else some (dramBytes d a k)
        | _ => some ((List.range k).map (fun i => host.getD (pos + i) 0))
      match here, readPages fuel d n (iova + k) (pos + k) (len - k) host with
      | some a, some b => some (a ++ b)
      | _, _ => none

/-- A read that goes over more than one page. -/
def readWide (d : Dev) (n iova len : Nat) (m : MemIn) : Dev × ReadRes :=
  match (if m.ecc then none else readPages (pagesFuel (4 * len)) d n iova 0 (4 * len) (m.data.flatMap (fun w => leBytes 4 w.toNat))) with
  | some bs => (d, .words (wordsOfBytes bs))
  | none => (d, .ecc)

/-- A read by the device for function n, of a number of words: DRAM answers itself, the host answers what came with the
command. -/
def memRead (d : Dev) (n mid iova len : Nat) (m : MemIn) : Dev × ReadRes :=
  match firstFault d n false m.ats (pagesOf iova (4 * len)) with
  | some (t, a) => (noteFault d n mid t a false, .fault)
  | none =>
    match translate d n iova false m.ats with
    | .fault t => (noteFault d n mid t iova false, .fault)
    | .ok (.dram a) =>
      if iova % 4096 + 4 * len ≤ 4096 then
        (d, if m.ecc || meetsBad d a (4 * len) then .ecc else .words (wordsOfBytes (dramBytes d a (4 * len))))
      else readWide d n iova len m
    | .ok (.host _) =>
      if iova % 4096 + 4 * len ≤ 4096 then (d, if m.ecc then .ecc else .words ((List.range len).map (wd m.data)))
      else readWide d n iova len m

/-! ### MSI-X (R110) -/

/-- The moderation entry of a vector. -/
def modEntry (d : Dev) (n v : Nat) : ModEntry := SMap.get (fnSt d n).mods v

def onVec (d : Dev) (n v : Nat) (g : VecRun → VecRun) : Dev :=
  onFn d n (fun x => { x with vecs := SMap.mod x.vecs v g })

/-- A register of the MDH-8 map. -/
def mdhReg (d : Dev) (off : Nat) : Word := SMap.get d.mdh.regs off

def setMdh (d : Dev) (off : Nat) (v : Word) : Dev := { d with mdh := { d.mdh with regs := SMap.set d.mdh.regs off v } }

/-- A bit of MDH_IRQ_STAT sets, and raises the interrupt where it is enabled (R470). -/
def mdhIrq (d : Dev) (k : Nat) : Dev :=
  let d1 := setMdh d 0x0C (putBits (mdhReg d 0x0C) k k 1)
  if bit (mdhReg d1 0x10) k && bit (mdhReg d1 0x08) 1 then emit d1 (.msi 0 0) else d1

/-- A vector sends its message, or keeps it pending while masked; the count and the holdoff reset. In Heritage the one
line INT_N carries it (R470). -/
def sendMsi (d : Dev) (n v : Nat) : Dev :=
  let m := (SMap.get (fnSt d n).vecs v).masked
  let d1 := onVec d n v (fun x => { x with pending := 0, oldest := 0, pba := m || x.pba })
  if d.heritage then mdhIrq d1 24 else if m then d1 else emit d1 (.msi n v)

/-- A report is pending on a vector: at once when `now`, else under the moderation. -/
def report (d : Dev) (n v : Nat) (now : Bool) : Dev :=
  let x := SMap.get (fnSt d n).vecs v
  let d1 := onVec d n v (fun y => { y with pending := y.pending + 1,
                                           oldest := if y.pending = 0 then d.dt else y.oldest })
  if now || decide (x.pending + 1 ≥ (modEntry d n v).count) then sendMsi d1 n v else d1

/-- The vector of a ring: vectors above the partition's count go to vector 0 (R125). -/
def vecOf (d : Dev) (n r : Nat) : Nat :=
  let v := (ringSt d n r).entry.vector
  if v < ptVectors d n then v else 0

/-! ### Events (R107 to R109, R515, R516) -/

/-- The entries of a ring (R86). -/
def ringN (x : RingSt) : Nat := 2 ^ (x.entry.size + 4)

/-- Does the ring take events of a class? -/
def evtTakes (x : RingSt) (cls : Nat) : Bool :=
  decide (x.state = .active) && decide (x.entry.type = 4) && hasBit x.entry.arg cls && !x.dead

/-- The lowest-numbered ACTIVE EVT ring that accepts a class (R108). -/
def evtRing (d : Dev) (n cls : Nat) : Option Nat :=
  (List.range 32).find? (fun r => evtTakes (ringSt d n r) cls)

/-- The 32 bytes of an event record (R107). -/
def eventBytes (x : RingSt) (e : Ev) : List Byte :=
  let phase := 1 - (x.c / (2 * ringN x)) % 2
  leBytes 4 (phase * 2 ^ 31 + e.cls % 256 * 2 ^ 16 + e.code % 65536) ++ leBytes 4 e.dt ++
  leBytes 4 (e.mid % 256 * 2 ^ 24 + e.dt / 2 ^ 32 % 65536) ++ leBytes 4 x.c ++ leBytes 16 e.pay

/-- An event that no ring accepts is counted (R108). -/
def noRoute (d : Dev) (n : Nat) (k : Nat := 1) : Dev :=
  onFn d n (fun x => { x with noRoute := sat (x.noRoute + k) (2 ^ 32 - 1) })

/-- The RING event of R516. DESIGN CHOICE (notes/assumptions/128): where the spec names no status code the byte is 0. -/
def ringEv (d : Dev) (n r code status flags : Nat) (extra : Nat := 0) : Ev :=
  { cls := clRING, code := code, mid := n, dt := d.dt, pay := pb 0 r + pb 1 status + pb 2 flags + extra }

/-- The OUT record of a slot, before it is written (R405): what the slot receives, as words. -/
def sendOut (d : Dev) (n r slot : Nat) (bs : List Byte) : Dev :=
  linkSend d 0x06 ([n, r, slot] ++ (wordsOfBytes bs).map (fun w => w.toNat))

/-- Does a banker leave what a ring of function n reports to the lead (R415, R416)? Its own host hears of its MGT ring. -/
def mutedRing (d : Dev) (n r : Nat) : Bool :=
  bankerLike d && !(decide (n = 0) && decide ((ringSt d n r).entry.type = 5))

/-- Events go to their function. A ring without room holds 32 and counts the rest (R109); a fault on a slot stalls the
ring, discards the record and routes again what the ring held (R515). The first argument bounds the rings that may fault
one after another. -/
def postList : Nat → Dev → Nat → List Ev → Dev
  | 0, d, n, es => noRoute d n es.length
  | fuel + 1, d, n, es =>
    es.foldl (fun d e =>
      match evtRing d n e.cls with
      | none => noRoute d n
      | some r =>
        let x := ringSt d n r
        if x.held.length > 0 ∨ x.dropped > 0 ∨ (x.c + 2 ^ 32 - x.cci) % 2 ^ 32 ≥ 2 * ringN x ∨ fnState d n = 3 ∨
           (fnSt d n).qui.on then
          if x.held.length < 32 ∧ x.dropped = 0 then
            onRing d n r (fun y => { y with held := y.held ++ [e] })
          else
            onRing d n r (fun y => { y with dropped := y.dropped + 1,
                                            dropDt := if y.dropped = 0 then e.dt else y.dropDt })
        else
          let d0 := sendOut d n r (x.c % (2 * ringN x)) (eventBytes x e)
          let w := memWrite d0 n n (x.entry.base + 32 * (x.c % (2 * ringN x))) (eventBytes x e)
          if w.2 then
            let d1 := emit w.1 (.event n r (x.c % (2 * ringN x)) e x.c)
            let d2 := onRing d1 n r (fun y => { y with c := (y.c + 1) % 2 ^ 32 })
            report (count d2 (4 * n + 2)) n (vecOf d n r) false
          else
            let d1 := onRing w.1 n r (fun y => { y with state := .stalled, dead := true, held := [], dropped := 0 })
            postList fuel d1 n (ringEv d n r 2 stERR_FAULT 0 :: x.held)) d

/-- An event for function n. A function that is DISABLED or DEPARTING gets none (R113), and a banker posts to F0 alone
(R416). -/
def post (d : Dev) (n cls code mid pay : Nat) : Dev :=
  if bankerLike d ∧ n ≠ 0 then d
  else if fnState d n = 1 ∨ fnState d n = 3 then
    postList 33 d n [{ cls := cls, code := code, mid := mid, dt := d.dt, pay := pay }]
  else d

/-- A RING event for function n (R516). -/
def postRing (d : Dev) (n r code status flags : Nat) (extra : Nat := 0) : Dev :=
  post d n clRING code n (pb 0 r + pb 1 status + pb 2 flags + extra)

/-- The count of dropped events as EVT_DROPPED, with a DT (R109, R516); none when there are none. -/
def dropEv (x : RingSt) (n r dt : Nat) : List Ev :=
  if x.dropped = 0 then []
  else [{ cls := clRING, code := 5, mid := n, dt := dt, pay := pb 0 r + pw32 4 x.dropped + pw48 8 x.dropDt }]

/-- A ring leaves ACTIVE: the events it holds are routed again, and the count of dropped ones goes as EVT_DROPPED with the DT
of the first (R109). -/
def rerouteHeld (d : Dev) (n r : Nat) : Dev :=
  let x := ringSt d n r
  let d1 := onRing d n r (fun y => { y with held := [], dropped := 0 })
  postList 33 d1 n (x.held ++ dropEv x n r x.dropDt)

/-- A ring goes to STALLED (R89, R515): no further fetch; RING_OVERRUN (code 1) or RING_FAULT (code 2). -/
def stallRing (d : Dev) (n r code status : Nat) : Dev :=
  let d1 := onRing d n r (fun y => { y with state := .stalled })
  let d2 := if (ringSt d n r).entry.type = 4 then rerouteHeld d1 n r else d1
  postRing d2 n r code status 0

/-! ### Completions (R105, R106, R110) -/

/-- The 32 bytes of a completion-queue slot (R105). -/
def completionBytes (x : RingSt) (r tag status dt detail cookie detail2 : Nat) : List Byte :=
  let phase := 1 - (x.c / ringN x) % 2
  leBytes 4 (phase * 2 ^ 31 + status * 2 ^ 16 + tag) ++ leBytes 4 dt ++
  leBytes 4 (r * 2 ^ 16 + dt / 2 ^ 32 % 65536) ++ leBytes 4 detail ++ leBytes 8 cookie ++ leBytes 8 detail2

/-- The completion record of one descriptor is written (R105, R106), or discarded on a ring whose queue faulted (R515)
and for a function that departs (R113); a banker leaves it to the lead (R415). A fault stalls an ACTIVE ring, and a chain that was
not wholly fetched ends with ABORTED inside the device. -/
def writeCompletion (d : Dev) (n r : Nat) (q : Desc) (status detail detail2 stamp : Nat) : Dev :=
  let x := ringSt d n r
  let d0 := if status = stOK then d else onRing d n r (fun y => { y with lastStatus := status })
  if x.dead || decide (x.state = .disabled) || decide (fnState d n = 2) then d0
  else if mutedRing d n r then
    match d0.pair.outs.find? (fun s => decide (s.f = n) && decide (s.r = r) && decide (bits (wd s.words 0) 15 0 = tagOf q.words)) with
    | some s => { d0 with pair := { d0.pair with outs := d0.pair.outs.erase s } }
    | none =>
      { d0 with pair := { d0.pair with owed := d0.pair.owed ++
        [{ f := n, r := r, desc := q, status := status, detail := detail, detail2 := detail2, stamp := stamp }] } }
  else
    let tag := tagOf q.words
    let cookie := cookieOf q.words
    let bs := completionBytes x r tag status stamp detail cookie detail2
    let w := writeSlot (sendOut d0 n r (x.c % ringN x) bs) n (x.entry.cq + 32 * (x.c % ringN x)) bs
    if w.2 then
      let d1 := emit w.1 (.completion n r (x.c % ringN x) q.idx tag status stamp detail cookie detail2)
      let d2 := onRing d1 n r (fun y => { y with c := (y.c + 1) % 2 ^ 32 })
      report (count d2 (4 * n + 1)) n (vecOf d n r) (irqOf q.words || status != stOK)
    else
      let cut := decide (x.state = .active) && decide (x.part ≠ [])
      let d1 := onRing w.1 n r (fun y => { y with dead := true, part := if cut then [] else y.part,
                                                  lastStatus := if cut then stABORTED else y.lastStatus })
      if x.state = .active then stallRing d1 n r 2 stERR_FAULT else d1

/-- A started descriptor leaves the ring. -/
def dropLive (d : Dev) (n r idx : Nat) : Dev :=
  onRing d n r (fun y => { y with live := y.live.filter (fun q => q.idx != idx) })

/-- The last started descriptor of a DRAINING ring has completed: the ring is DISABLED (R89). -/
def drainDone (d : Dev) (n r : Nat) : Dev :=
  let x := ringSt d n r
  if x.state = .draining ∧ x.live = [] then
    onRing d n r (fun _ => { (default : RingSt) with ignored := x.ignored, lastStatus := x.lastStatus, h := x.h,
                                                     c := x.c, entry := x.entry })
  else d

/-- A started descriptor, by its index. -/
def liveDesc (d : Dev) (n r idx : Nat) : Option Desc := (ringSt d n r).live.find? (fun q => q.idx == idx)

/-- The body of a SIGNAL acts on its fence (R102); a banker has the fence from its STATE record. -/
def signalFence (d : Dev) (n : Nat) (ws : List Word) : Dev :=
  let k := bits (at4 ws 0x10) 3 0
  let v := SMap.get (fnSt d n).fences k
  let new := if bit (at4 ws 0x10) 8 then (v + at8 ws 0x18) % 2 ^ 64 else at8 ws 0x18
  if bankerLike d then d else onFn (linkSend d 0x05 [2 ^ 32, n, k, new]) n (fun x => { x with fences := SMap.set x.fences k new })

/-- LOCK sets its bits of GL_LOCK (R26); DETAIL is the value after it. -/
def lockBits (d : Dev) (ws : List Word) : Dev :=
  let v := (rd d GL_LOCK).toNat ||| bits (at4 ws 0x10) 5 0
  linkSend (wr d GL_LOCK (BitVec.ofNat 32 v)) 0x05 [GL_LOCK, v]

/-- The next started SIGNAL or LOCK of a ring that may act: it is not parked and nothing earlier is incomplete (R26,
R102). -/
def readySignal (d : Dev) (n r : Nat) : Option Desc :=
  (ringSt d n r).live.find? (fun q =>
    (decide (opcodeOf q.words = 0x01) || decide (opcodeOf q.words = 0x67)) && q.cp.isNone &&
    (ringSt d n r).live.all (fun p => decide (p.seq ≥ q.seq)))

/-- The effect of a SIGNAL or a LOCK whose turn has come, with its DETAIL. -/
def orderedAct (d : Dev) (n : Nat) (q : Desc) : Dev × Nat :=
  if opcodeOf q.words = 0x01 then (signalFence d n q.words, 0)
  else (lockBits d q.words, (rd (lockBits d q.words) GL_LOCK).toNat)

/-- The next waiting WAIT of function n whose fence is high enough (R102), as its ring and descriptor. -/
def readyWait (d : Dev) (n : Nat) : Option (Nat × Desc) :=
  (List.range 32).findSome? (fun r =>
    ((ringSt d n r).live.find? (fun q =>
      decide (opcodeOf q.words = 0x02) &&
      decide (SMap.get (fnSt d n).fences (bits (at4 q.words 0x10) 3 0) ≥ at8 q.words 0x18))).map (fun q => (r, q)))

/-- A descriptor is done: it leaves the ring and its completion is written. -/
def finish (d : Dev) (n r : Nat) (q : Desc) (status detail detail2 stamp : Nat) : Dev :=
  drainDone (writeCompletion (dropLive d n r q.idx) n r q status detail detail2 stamp) n r

/-- The started SIGNALs and LOCKs whose turn has come act, and the WAITs that their fences release complete, one after another. -/
def settle : Nat → Dev → Nat → Dev
  | 0, d, _ => d
  | fuel + 1, d, n =>
    match (List.range 32).findSome? (fun r => (readySignal d n r).map (fun q => (r, q))) with
    | some (r, q) => settle fuel (finish (orderedAct d n q).1 n r q stOK (orderedAct d n q).2 0 d.dt) n
    | none =>
      match readyWait d n with
      | some (r, q) => settle fuel (finish d n r q stOK 0 0 d.dt) n
      | none => d

/-- How many descriptors of a function are started and not done. -/
def liveCount (d : Dev) (n : Nat) : Nat := ((List.range 32).map (fun r => (ringSt d n r).live.length)).sum

/-- A started descriptor completes with a status, and what waited for it follows. -/
def completeAt (d : Dev) (n r idx status detail detail2 stamp : Nat) : Dev :=
  match liveDesc d n r idx with
  | none => d
  | some q =>
    let d1 := finish d n r q status detail detail2 stamp
    settle (liveCount d1 n) d1 n

/-- A started descriptor completes now. -/
def complete (d : Dev) (n r idx status : Nat) (detail : Nat := 0) (detail2 : Nat := 0) : Dev :=
  completeAt d n r idx status detail detail2 d.dt

/-! ### Rasters (R50, R51, R69, R70, R77, R80) -/

/-- The raster of a platform. -/
def raster (d : Dev) (p : Nat) : Raster := SMap.get d.tt.raster p

def setRaster (d : Dev) (p : Nat) (x : Raster) : Dev :=
  { d with tt := { d.tt with raster := SMap.set d.tt.raster p x } }

/-- The pixel clocks from the reference line to the n-th line start after it: framelock's correction is spread evenly over
the lines of the reference frame, in whole pixel clocks (R72). -/
def lineClocks (x : Raster) (n : Int) : Int :=
  n * (x.htot : Int) +
    (if x.corr = 0 ∨ n ≤ 0 then 0 else if n < (x.vtot : Int) then x.corr * n / (x.vtot : Int) else x.corr)

/-- The DT at which an absolute line (frame × vtot + line) starts, rounded down (R72, R80). -/
def dtOfAbs (x : Raster) (a : Nat) : Nat :=
  ((x.dtRef : Int) + lineClocks x ((a : Int) - (x.fRef * x.vtot + x.lRef : Nat)) * (x.pxNum : Int) / (x.pxDen : Int)).toNat

/-- The device-time equivalent of line l of frame f (R80). -/
def dtOf (x : Raster) (f l : Nat) : Nat := dtOfAbs x (f * x.vtot + l)

/-- The pixel clocks that have begun since the reference line start, at DT t: clock j begins at j × pxNum / pxDen, rounded
down. -/
def clocksAt (x : Raster) (t : Nat) : Nat := ((t - x.dtRef + 1) * x.pxDen - 1) / x.pxNum

/-- The lines that have begun since the reference line, when n pixel clocks have: the greatest whose `lineClocks` is at most n. -/
def linesIn (x : Raster) (n : Nat) : Nat :=
  if x.corr = 0 then n / x.htot
  else
    let k := ((((n + 1) * x.vtot : Nat) : Int) - 1) / ((x.htot : Int) * (x.vtot : Int) + x.corr)
    (if k < (x.vtot : Int) then k else ((n : Int) - x.corr) / (x.htot : Int)).toNat

/-- The absolute line in progress at DT t: the last whose start is not after t. -/
def absAt (x : Raster) (t : Nat) : Nat :=
  let ref := x.fRef * x.vtot + x.lRef
  let a := if t < x.dtRef then ref - 1 else ref + linesIn x (clocksAt x t)
  match x.hold with
  | some h => min a h
  | none => a

/-- The first absolute line that starts at or after DT t. -/
def absFrom (x : Raster) (t : Nat) : Nat := if t = 0 then x.fRef * x.vtot + x.lRef else
  if dtOfAbs x (absAt x t) = t then absAt x t else absAt x t + 1

/-- The pixel in progress at DT t: the clocks since its line began. A line that framelock stretches stays at its last pixel, and a
line at which the timing generator holds (R285) at its first. -/
def pixelAt (x : Raster) (t : Nat) : Nat :=
  let k := linesIn x (clocksAt x t)
  if t < x.dtRef ∨ x.hold.any (fun h => decide (h ≤ x.fRef * x.vtot + x.lRef + k)) then 0
  else min ((clocksAt x t : Int) - lineClocks x k).toNat (x.htot - 1)

/-- A raster whose reference is the line in progress at DT t, without framelock's correction from there on (R77). -/
def uncorrected (x : Raster) (t : Nat) : Raster :=
  if x.corr = 0 then x
  else
    let a := absAt x t
    { x with fRef := a / x.vtot, lRef := a % x.vtot, dtRef := dtOfAbs x a, corr := 0 }

/-- What the platform keeps of composition and scan-out. -/
def platRun (d : Dev) (p : Nat) : PlatRun := SMap.get d.plat p

def onPlat (d : Dev) (p : Nat) (g : PlatRun → PlatRun) : Dev := { d with plat := SMap.mod d.plat p g }

/-- The strip height of a platform (R4, R30): the whole frame in Freight and Heritage. -/
def stripH (d : Dev) (p : Nat) : Nat :=
  let x := platRun d p
  if x.mode = 1 then (if x.expH then 16 else 32)
  else if x.mode = 3 ∨ x.mode = 0 then (raster d p).vact
  else 64

/-- The lead of composition in lines (R32): one strip in Express, two in Intercity and Stopping, one frame in Freight and
Heritage; none on a virtual raster, which composes nothing. -/
def leadLines (d : Dev) (p : Nat) : Nat :=
  let x := platRun d p
  if (raster d p).virt then 0
  else if x.mode = 1 then stripH d p
  else if x.mode = 3 ∨ x.mode = 0 then (raster d p).vtot
  else 2 * stripH d p

/-- The first strip boundary at or after an absolute line (R70). -/
def boundaryFrom (x : Raster) (h a : Nat) : Nat :=
  let f := a / x.vtot
  let l := a % x.vtot
  let last := ((x.vact - 1) / h) * h
  if l ≤ last then f * x.vtot + cdiv l h * h else (f + 1) * x.vtot

/-- The boundary before a boundary. -/
def boundaryBefore (x : Raster) (h b : Nat) : Nat :=
  let l := b % x.vtot
  if l ≥ h then b - h
  else if b < x.vtot then 0
  else (b / x.vtot - 1) * x.vtot + ((x.vact - 1) / h) * h

/-- The first boundary of a platform whose composition has not begun now (R32, R33). In panel self-refresh it is line 0
of the next refreshed frame (R30, R280). -/
def openFrom (d : Dev) (p : Nat) : Nat :=
  let x := raster d p
  let b := boundaryFrom x (stripH d p) (absAt x d.dt + leadLines d p + 1)
  if (platRun d p).psr then
    match (platRun d p).psrFrame with
    | some f => f * x.vtot
    | none =>
      let a := absFrom x (d.dt + fg d (SO_PSR p) SO_PSR_WAKE_US * 1000)
      cdiv (max a b) x.vtot * x.vtot
  else b

end Sys2Proof.Machine
end

