-- ==== Sys2Proof/Machine/Descs.lean ====
section
/-! DEFINITION. How a descriptor starts: the header checks of R97 to R101, the binding of R58 and R59, what holds a ring
back (R98, R102, R111), and the parking of bound descriptors. -/

namespace Sys2Proof.Machine

/-- The bits of an opcode's operation field, where one opcode holds several rows of the table, and the codes it may have
(R138, R309, R310, R326, R355, R407, R434, R445, R452). -/
def subOp (op : Nat) (ws : List Word) : Option Nat :=
  let s := bits (at4 ws 0x10) 31 28
  let upTo (n : Nat) : Option Nat := if s ≤ n then some s else none
  match op with
  | 0x41 => upTo 3
  | 0x42 => upTo 2
  | 0x46 => upTo 1
  | 0x48 => upTo 3
  | 0x4C => upTo 1
  | 0x61 =>
    let o := bits (at4 ws 0x10) 31 24
    if 1 ≤ o ∧ o ≤ 8 then some o else none
  | 0x62 => upTo 2
  | 0x63 => upTo 1
  | 0x65 => upTo 2
  | 0x68 => upTo 3
  | _ => some 0

/-- Is an opcode allowed on a ring type (R100)? The descriptors 0x21 to 0x27 stand inside a chain only. -/
def opAllowed (op type : Nat) : Bool :=
  if op ≤ 0x04 then type != 4
  else if 0x10 ≤ op ∧ op ≤ 0x14 then type == 0
  else if op = 0x20 then type == 1
  else if 0x30 ≤ op ∧ op ≤ 0x34 then type == 2
  else if (0x40 ≤ op ∧ op ≤ 0x42) ∨ (0x44 ≤ op ∧ op ≤ 0x46) ∨ (0x48 ≤ op ∧ op ≤ 0x4C) then type == 3
  else if 0x60 ≤ op ∧ op ≤ 0x68 then type == 5
  else false

/-- The row of the table that a descriptor is, as 16 × opcode + operation; none when its opcode or operation is reserved or
not allowed on the ring's type. -/
def descKey (type : Nat) (ws : List Word) : Option Nat :=
  if opAllowed (opcodeOf ws) type then (subOp (opcodeOf ws) ws).map (fun s => 16 * opcodeOf ws + s) else none

/-- May the opcode carry CHAIN (R98)? -/
def chainOp (op : Nat) : Bool :=
  op == 0x20 || (decide (0x21 ≤ op) && decide (op ≤ 0x27)) || op == 0x60 || op == 0x49

/-- May the opcode carry STRICT (R98)? A commit chain, and the MED configuration descriptors, which are commits. -/
def strictOp (op : Nat) : Bool := op == 0x20 || op == 0x40 || op == 0x46 || op == 0x49

/-- The flags of a descriptor break a rule (R98, R99); a chain that was cut at its limit still ends with CHAIN set. -/
def flagsBad (q : Desc) : Bool :=
  let f := flagsOf q.words
  let op := opcodeOf q.words
  decide (f ≥ 16) || (chainOf q.words && !chainOp op) || (strictOf q.words && !strictOp op) ||
  q.chain.any (fun ws => decide (flagsOf ws ≥ 16) || strictOf ws || (chainOf ws && !chainOp (opcodeOf ws))) ||
  chainOf (q.chain.getLastD (if q.chain = [] then (if chainOf q.words then q.words else []) else []))

/-- A calling point of the store (R53). -/
def cpEntry (d : Dev) (c : Nat) : CpEntry := SMap.get d.tt.cps c

/-- May function n bind to point c (R59)? -/
def mayBind (d : Dev) (n c : Nat) : Bool :=
  let e := cpEntry d c
  decide (e.owner = n) || e.shared || decide (e.owner = 0)

/-- The binding of a descriptor as the checks of R58, R59 and R101 find it: a status, or the point if any. -/
inductive BindRes where
  | bad (status : Nat)
  | free
  | bound (c : Nat)
  deriving DecidableEq, Repr

/-- The checks of a binding word (R58, R59), shared by descriptors and moderation entries. -/
def bindCheck (d : Dev) (n : Nat) (w : Word) : BindRes :=
  if w = 0 then .free
  else if !bit w 31 ∨ bits w 30 10 ≠ 0 then .bad stBAD_DESC
  else
    let c := bits w 9 0
    if !mayBind d n c then .bad stERR_PERM
    else if !(cpEntry d c).en then .bad stBAD_DESC
    else .bound c

/-- The header checks of a descriptor, in the order opcode and flags, then binding. -/
def hdrCheck (d : Dev) (n : Nat) (q : Desc) : BindRes :=
  if flagsBad q then .bad stBAD_DESC
  else if bindWord q.words ≠ 0 ∧ (opcodeOf q.words = 2 ∨ opcodeOf q.words = 3 ∨ opcodeOf q.words = 4) then .bad stBAD_DESC
  else bindCheck d n (bindWord q.words)

/-- The domain that a descriptor's work needs (R431): the raster front end, composition, or media. -/
def needDom (op : Nat) : Option Nat :=
  if 0x10 ≤ op ∧ op ≤ 0x14 then some 7
  else if 0x20 ≤ op ∧ op ≤ 0x27 then some 12
  else if 0x40 ≤ op ∧ op ≤ 0x4F then some 14
  else none

/-- The descriptors that a banker's MGT ring takes (R416): PAIR, SNAPSHOT, STORE_RW, FW_STAGE and FW_CUTOVER. -/
def bankerOp (op : Nat) : Bool := op == 0x65 || op == 0x66 || op == 0x68 || op == 0x63 || op == 0x64

/-- A domain starts to wake (R430, R431), unless it is held down by FORCE. -/
def startWake (d : Dev) (k : Nat) : Dev :=
  if domState d k = 0 ∨ fg d (PM_DOM_STAT k) PM_DOM_STAT_FORCED > 1 ∨ hasBit d.pm.waking k then d
  else { d with pm := { d.pm with waking := d.pm.waking + 2 ^ k } }

/-- Is this started descriptor a job? -/
def isJob (q : Desc) : Bool := decide (opcodeOf q.words = 0x10)

/-- The jobs in flight of a function (R184). -/
def jobsOf (d : Dev) (f : Nat) : Nat := ((fnSt d f).rings.map (fun p => (p.2.live.filter isJob).length)).sum

/-- At JOB_MAX jobs in flight the GFX rings of a function are not fetched (R184). -/
def jobHold (d : Dev) (f r : Nat) : Bool := decide ((ringSt d f r).entry.type = 0) && decide (jobsOf d f ≥ ptJobMax d f)

/-- Is an incomplete WAIT holding the ring (R102)? -/
def waitHolds (d : Dev) (n r : Nat) : Bool := (ringSt d n r).live.any (fun q => decide (opcodeOf q.words = 2))

/-- May the oldest descriptor of a ring start now: the ring fetches or is stalled (R515), the function runs (R128) and is not being quiesced (R141),
no cutover window is open (R447), no WAIT holds it, a BARRIER finds nothing before it (R98), and in a pair the banker has
acknowledged its DESC record (R412)? -/
def canStart (d : Dev) (n r : Nat) (q : Desc) : Bool :=
  (decide ((ringSt d n r).state = .active) || decide ((ringSt d n r).state = .stalled)) &&
  decide (fnState d n = 1) && !(fnSt d n).qui.on && !d.pm.cut.window && !d.pm.hib && !d.pm.off && !waitHolds d n r &&
  (!barrierOf q.words || decide ((ringSt d n r).live = [])) &&
  (decide (dhState d ≠ 3) || decide ((q.link.getD 0) < d.pair.acked) || q.link.isNone)

/-- A descriptor leaves the queue and is started, in acceptance order. -/
def beginDesc (d : Dev) (n r : Nat) (q : Desc) : Dev :=
  let d1 := onRing d n r (fun x => { x with queue := x.queue.tail, live := x.live ++ [q] })
  { d1 with accept := d1.accept + 1 }

/-- A started descriptor is changed. -/
def onLive (d : Dev) (n r idx : Nat) (g : Desc → Desc) : Dev :=
  onRing d n r (fun x => { x with live := x.live.map (fun q => if q.idx = idx then g q else q) })

/-- Descriptors at the front that no row of the table names (a reserved or disallowed opcode or operation) complete with
BAD_DESC in their turn (R100). -/
def purge : Nat → Dev → Nat → Nat → Dev
  | 0, d, _, _ => d
  | fuel + 1, d, n, r =>
    match (ringSt d n r).queue with
    | [] => d
    | q :: _ =>
      if (descKey (ringSt d n r).entry.type q.words).isNone && canStart d n r q then
        let q' := { q with seq := d.accept }
        purge fuel (complete (beginDesc d n r q') n r q.idx stBAD_DESC) n r
      else d

def purgeRing (d : Dev) (n r : Nat) : Dev := purge (ringSt d n r).queue.length d n r

/-- The data that comes with a starting descriptor joins what came with its slot. -/
def withMem (q : Desc) (m : List MemIn) : Desc := if m = [] then q else { q with mem := m }

/-- The point that a descriptor's binding word names, if it has one (R58). -/
def boundTo (q : Desc) : Option Nat := if bindWord q.words = 0 then none else some (bits (bindWord q.words) 9 0)

/-- The status and DETAIL with which a starting descriptor is refused: by the rules for a banker's own ring (R416), its header, its body;
none when it runs. -/
def descRefusal (d : Dev) (n r : Nat) (q : Desc) (chk : Dev → Nat → Nat → Desc → Option (Nat × Nat)) : Option (Nat × Nat) :=
  if bankerLike d && !mutedRing d n r && !bankerOp (opcodeOf q.words) then some (stERR_PERM, 0)
  else
    match hdrCheck d n q with
    | .bad st => some (st, 0)
    | _ => chk d n r q

/-- How a descriptor starts. Its row is `key`; `chk` checks its body and answers a status with DETAIL, or none; `act` is
its effect. A bound descriptor is parked until its point fires, but for a commit (`park` false), whose point only sets the
apply point. A descriptor that is not there, or may not start, leaves the device as it is, but for those at the front that no row
names (R100). -/
def startDesc (d : Dev) (n r key : Nat) (m : List MemIn) (park : Bool)
    (chk : Dev → Nat → Nat → Desc → Option (Nat × Nat)) (act : Nat → Nat → Desc → Dev → Dev) : Dev :=
  match (ringSt d n r).queue with
  | [] => d
  | q0 :: _ =>
    if descKey (ringSt d n r).entry.type q0.words ≠ some key ∨ canStart d n r q0 = false then purgeRing d n r
    else
      match (needDom (opcodeOf q0.words)).filter (fun k => !domUp d k) with
      | some k => startWake d k
      | none =>
        let q := { withMem q0 m with seq := d.accept }
        let d1 := beginDesc d n r q
        let d2 :=
          match descRefusal d1 n r q chk with
          | some (st, detail) => complete d1 n r q.idx st detail
          | none =>
            match boundTo q with
            | none => act n r q d1
            | some c =>
              let d3 := onLive d1 n r q.idx (fun x => { x with cp := some c })
              if park then d3 else act n r { q with cp := some c } d3
        purgeRing d2 n r

/-- The check that body words are zero: the reserved bits of a body, as pairs of a byte offset and a mask of defined bits;
words from `tail` on are reserved whole. -/
def bodyOk (ws : List Word) (defd : List (Nat × Nat)) : Bool :=
  (List.range 12).all (fun k =>
    let off := 0x10 + 4 * k
    let m := ((defd.find? (fun p => p.1 == off)).map (fun p => p.2)).getD 0
    (wd ws (4 + k)).toNat &&& (2 ^ 32 - 1 - m) == 0)

/-- A whole word is defined. -/
def full : Nat := 2 ^ 32 - 1

end Sys2Proof.Machine
end

