-- ==== Sys2Proof/Machine/Access.lean ====
section
/-! DEFINITION. A register access (R10 to R16, R20, R431): what a write leaves in a register under its access types, what
it discards and records, and what a read answers and clears. Rows of the table with an effect of their own use these first. -/

namespace Sys2Proof.Machine

/-- The power domain that holds the registers at an offset (R19, R20). -/
def domOf (off : Nat) : Nat :=
  match off / 65536 with
  | 0x01 => 4
  | 0x02 => 6
  | 0x03 => 6
  | 0x04 => 7
  | 0x05 => 7
  | 0x06 => 7
  | 0x07 => 7
  | 0x08 => 12
  | 0x09 => 12
  | 0x0A => 4
  | 0x0B => 4
  | 0x0C => 13
  | 0x0D => 13
  | 0x0E => 13
  | 0x0F => 13
  | 0x10 => 14
  | 0x11 => 14
  | 0x12 => 14
  | 0x13 => 14
  | 0x14 => 3
  | 0x15 => 3
  | 0x17 => 5
  | 0x18 => 1
  | 0x19 => 1
  | 0x1A => 2
  | 0x1B => 2
  | 0x1C => 15
  | 0x1D => 15
  | 0x1E => 4
  | 0x1F => 4
  | _ => 0

/-- Is this a master that reaches BAR0: F0 or an on-chip master (R21)? -/
def reachesBar0 (a : Acc) : Bool := decide (a.mid.toNat = 0) || decide (a.mid.toNat ≥ 0x20)

/-- A domain below RUN answers an access: GATE and NAP wake and serve it, DOZE, HIBERNATE and OFF answer ERR_DOWN and
start to wake (R431, R436). True when the access is served. -/
def serveDomain (d : Dev) (k : Nat) : Dev × Bool :=
  if domState d k = 0 then (d, true)
  else if domState d k ≤ 2 ∧ fg d (PM_DOM_STAT k) PM_DOM_STAT_FORCED ≤ 1 then
    let w := if domState d k = 2 ∧ !hasBit d.pm.waking k then d.pm.waking + 2 ^ k else d.pm.waking
    (fs { d with pm := { d.pm with waking := w } } (PM_DOM_STAT k) PM_DOM_STAT_STATE 0, true)
  else (startWake d k, false)

/-- The secure-only range (R20). -/
def inSecureRange (off : Nat) : Bool := decide (0x180000 ≤ off) && decide (off < 0x1A0000)

/-- The value that a write leaves in a field (R10, R13): the stored one is `old`, the written one `new`. -/
def fieldNew (isLocked : Bool) (acc : RAcc) (old new : Nat) : Nat :=
  match acc with
  | .rw => new
  | .ro => old
  | .wo => 0
  | .w1c => old - (old &&& new)
  | .w1s => old ||| new
  | .rc => old
  | .ra => old
  | .rwl => if isLocked then old else new
  | .rws => new

/-- The word that a write leaves, field by field; reserved bits stay zero (R15). -/
def writeFields (isLocked : Bool) (old v : Word) : List RFld → Nat
  | [] => 0
  | f :: fs => fieldNew isLocked f.acc (bits old f.hi f.lo) (bits v f.hi f.lo) * 2 ^ f.lo + writeFields isLocked old v fs

/-- Does a write carry a reserved encoding (R16)? -/
def badEncoding (r : RRow) (v : Word) : Bool :=
  r.fields.any (fun f => f.acc != .ro && f.acc != .rc && f.bad.contains (bits v f.hi f.lo))

/-- Does a write try to change a locked field (R13)? -/
def lockedChange (r : RRow) (old v : Word) : Bool :=
  r.fields.any (fun f => f.acc == .rwl && bits v f.hi f.lo != bits old f.hi f.lo)

/-- Is the row's lock set? -/
def rowLocked (d : Dev) (r : RRow) : Bool := (r.lock.map (locked d)).getD false

/-- The registers that masters write on a banker (R416): the DH_, CT_, ER_, SF_ and SE_ ranges, and F0's kick register,
without which its MGT ring could not run. -/
def bankerRange (off : Nat) : Bool := decide (0x180000 ≤ off) || decide (off = 0x20000)

/-- Do the registers at an offset respond while the extension window is closed (R469)? -/
def closedResponds (off : Nat) : Bool :=
  (decide (PM_LDR_ADDR_LO ≤ off) && decide (off ≤ PM_LDR_STAT)) || off == PM_BOOT_STAT || off == GL_DEV_REV ||
  off == GL_DEV_ID || off == GL_EXT_KEY || off == GL_EXT_STAT

/-- Does the closed extension window keep the host from a register (R469)? -/
def windowShut (d : Dev) (a : Acc) (off : Nat) : Bool :=
  d.heritage && decide (a.mid.toNat < 0x20) && !fb d GL_EXT_STAT GL_EXT_STAT_STATE && !closedResponds off

/-- The registers that F0 may not write in Heritage (R471): CM_, SO_PCTRL to SO_PSR, SO_DPLL. -/
def heritageOwned (d : Dev) (a : Acc) (off : Nat) : Bool :=
  d.heritage && decide (a.mid.toNat < 0x20) &&
  ((decide (0x80000 ≤ off) && decide (off < 0xA0000)) || (decide (SO_DPLL_W0 0 ≤ off) && decide (off ≤ SO_DPLL_W2 7)) ||
   (decide (SO_PCTRL 0 ≤ off) && decide (off ≤ SO_PSTAT 15)))

/-- A register write of the lead goes to the banker (R405, R412), but for those ranges that each device keeps of its own. -/
def mirrorReg (d : Dev) (off : Nat) (v : Word) : Dev :=
  if bankerRange off then d else linkSend d 0x05 [off, v.toNat]

/-- What becomes of a register write. -/
inductive WriteRes where
  | discarded
  | staged
  | done (v : Word)
  deriving DecidableEq, Repr

/-- Why a served register write is turned away: the cause that is recorded (R487), and whether the record is one of the
secure world; none where the write is taken (R10, R12, R14, R16, R20, R28, R391). The first case that holds decides. -/
def regRefusal (a : Acc) (off : Nat) (v : Word) (d : Dev) : Option (Nat × Bool) :=
  let mid := a.mid.toNat
  if windowShut d a off then some (ecUNOCCUPIED, a.secure)
  else if inSecureRange off && !a.secure then some (ecSECURE_ACCESS, true)
  else if heritageOwned d a off then some (ecNOT_PERMITTED, a.secure)
  else if bankerLike d && decide (mid ≠ midPAIR) && !bankerRange off then some (ecNOT_PERMITTED, a.secure)
  else
    match rowOf off with
    | none => some (ecUNOCCUPIED, a.secure)
    | some (r, _) =>
      if r.world = .extension ∧ !d.heritage then some (ecUNOCCUPIED, a.secure)
      else if a.be ≠ 0xF then some (ecPARTIAL_WRITE, a.secure)
      else if r.world = .secure ∧ r.fields.any (fun f => f.acc != .ro && f.acc != .rc) ∧ !a.secure then
        some (ecSECURE_ACCESS, false)
      else if r.world = .island ∧ mid ≠ midSI ∧ mid ≠ midPAIR then some (ecNOT_PERMITTED, a.secure)
      else if badEncoding r v then some (ecRESERVED_ENCODING, a.secure)
      else none

/-- The word that a write of v leaves in register `off` of row r (R10, R13). -/
def regNew (d : Dev) (off : Nat) (v : Word) (r : RRow) : Word :=
  BitVec.ofNat 32 (writeFields (rowLocked d r && !r.staged) (rd d off) v r.fields)

/-- The record of a write that carries another value for a locked field (R13). -/
def noteLocked (a : Acc) (off : Nat) (v : Word) (d : Dev) (r : RRow) : Dev :=
  if rowLocked d r && lockedChange r (rd d off) v then logErr d ecLOCKED a.mid.toNat off v a.secure else d

/-- A register of which every writable field is write-only. -/
def rowWriteOnly (r : RRow) : Bool :=
  r.fields.all (fun f => f.acc == .wo || f.acc == .ro) && r.fields.any (fun f => f.acc == .wo)

/-- A write that is taken: into the writer's staging copy for a staged register (R28, R236), else into the register. -/
def regTake (a : Acc) (off : Nat) (v : Word) (d : Dev) (r : RRow) : Dev × WriteRes :=
  let d1 := noteLocked a off v d r
  let new := regNew d off v r
  if r.staged then
    if a.mid.toNat = midSI then
      (linkSend { d1 with stgSI := SMap.insert d1.stgSI off (some new) } 0x05 [2 ^ 32 + 10, off, v.toNat], .staged)
    else (mirrorReg { d1 with stg := SMap.insert d1.stg off (some new) } off v, .staged)
  else if rowWriteOnly r then (d1, .done v)
  else (mirrorReg (wr d1 off new) off v, .done new)

/-- A register write in BAR0 (R10 to R16, R20, R28): discarded and recorded, put into a staging copy, or done, with the
word that it leaves (for a write-only register the word written). -/
def regWrite (a : Acc) (off : Nat) (v : Word) (d0 : Dev) : Dev × WriteRes :=
  if !reachesBar0 a then (d0, .discarded)
  else if !(serveDomain d0 (domOf off)).2 then ((serveDomain d0 (domOf off)).1, .discarded)
  else
    let d := (serveDomain d0 (domOf off)).1
    match regRefusal a off v d with
    | some c => (logErr d c.1 a.mid.toNat off v c.2, .discarded)
    | none =>
      match rowOf off with
      | some (r, _) => regTake a off v d r
      | none => (d, .discarded)

/-- A register write that a rule of its register may turn away: `bad` answers the cause for which a word is discarded. -/
def guardWrite (a : Acc) (off : Nat) (v : Word) (bad : Word → Option Nat) (d : Dev) : Dev × WriteRes :=
  let w := regWrite a off v d
  match w.2 with
  | .done n =>
    match bad n with
    | some c => (logErr (serveDomain d (domOf off)).1 c a.mid.toNat off v a.secure, .discarded)
    | none => w
  | _ => w

/-- The bytes of a word that a partial read addresses (R11). -/
def maskBytes (be : BitVec 4) (v : Word) : Word :=
  BitVec.ofNat 32 ((List.range 4).foldl (fun x k =>
    if hasBit be.toNat k then x + bits v (8 * k + 7) (8 * k) * 2 ^ (8 * k) else x) 0)

/-- A word with the RC fields of its row cleared (R10). -/
def clearRc (v : Word) : List RFld → Word
  | [] => v
  | f :: fs => clearRc (if f.acc = .rc then putBits v f.hi f.lo 0 else v) fs

/-- A register read in BAR0 of the value `val` that it shows (R10, R11, R14, R20): what it answers, and what it clears. -/
def regRead (a : Acc) (off : Nat) (val : Word) (d0 : Dev) : Dev :=
  let mid := a.mid.toNat
  if !reachesBar0 a then d0
  else
    let sv := serveDomain d0 (domOf off)
    let d := sv.1
    if !sv.2 then d
    else if windowShut d a off then emit d (.readData mid off 0)
    else if inSecureRange off && !a.secure then emit (logErr d ecSECURE_ACCESS mid off 0 true) (.readData mid off 0)
    else
      match rowOf off with
      | none => emit (logErr d ecUNOCCUPIED mid off 0 a.secure) (.readData mid off 0)
      | some (r, _) =>
        if r.world = .extension ∧ !d.heritage then emit (logErr d ecUNOCCUPIED mid off 0 a.secure) (.readData mid off 0)
        else if r.world = .secure ∧ r.fields.any (fun f => f.acc == .rws) ∧ !a.secure then
          emit (logErr d ecSECURE_ACCESS mid off 0) (.readData mid off 0)
        else if a.be = 0xF then emit (wr d off (clearRc (rd d off) r.fields)) (.readData mid off val)
        else emit d (.readData mid off (maskBytes a.be val))

end Sys2Proof.Machine
end

