-- ==== Sys2Proof/Machine/Refs.lean ====
section
/-! DEFINITION. Buffer references and cast-off (R239, R242, R244 to R248), and the blocks of the Skein pool (R254 to R256),
which commits, composition and the media engines share. -/

namespace Sys2Proof.Machine

/-! ### Handles and references -/

/-- An entry of the buffer table. -/
def bufEntry (d : Dev) (i : Nat) : BufEntry := SMap.get d.buf.tab i

def onBuf (d : Dev) (i : Nat) (g : BufEntry → BufEntry) : Dev :=
  { d with buf := { d.buf with tab := SMap.mod d.buf.tab i g } }

/-- The table index of a handle (R239). -/
def handleIdx (h : Word) : Nat := bits h 12 0

/-- The handle of a table entry. -/
def handleOf (d : Dev) (i : Nat) : Word := BitVec.ofNat 32 ((bufEntry d i).gen % 256 * 2 ^ 24 + i)

/-- The checks of a handle for a function (R242): a status, or none. -/
def handleBad (d : Dev) (n : Nat) (h : Word) : Option Nat :=
  let e := bufEntry d (handleIdx h)
  if bits h 23 13 ≠ 0 ∨ e.state ≠ 1 ∨ bits h 31 24 ≠ e.gen % 256 then some stBAD_DESC
  else if e.owner ≠ n then some stERR_PERM
  else none

/-- Does a commit item name table entry i with EN = 1? -/
def itemNames (i : Nat) (it : CommitItem) : Bool :=
  match it with
  | .layer _ _ ws => bit (wd ws 0) 31 && decide (handleIdx (wd ws 1) = i)
  | _ => false

/-- The platform of a layer item. -/
def itemPlat (it : CommitItem) : Nat :=
  match it with
  | .layer _ _ ws => bits (wd ws 0) 27 24
  | _ => 0

/-- The references that accepted commits hold on an entry and no landing has taken over: their commit numbers (R244). -/
def pendingRefs (d : Dev) (i : Nat) : List Nat :=
  d.commits.flatMap (fun c =>
    (c.items.filter (fun it => itemNames i it && !c.landed.contains (itemPlat it))).map (fun _ => c.id))

/-- The references of layers on an entry: the commits that made them. -/
def layerRefs (d : Dev) (i : Nat) : List Nat := (d.buf.refs.filter (fun r => r.idx == i)).map (fun r => r.id)

/-- All references of an entry. -/
def refsOf (d : Dev) (i : Nat) : List Nat := layerRefs d i ++ pendingRefs d i

/-- An accepted commit marks the buffers that it names as referenced, and where their last reference would stand. A release that started
at this DT waits for it too (R247). -/
def markRefs (d : Dev) (items : List CommitItem) : Dev :=
  items.foldl (fun d it =>
    match it with
    | .layer k _ ws =>
      if bit (wd ws 0) 31 then
        onBuf d (handleIdx (wd ws 1)) (fun e0 =>
          let e := { e0 with waits := e0.waits.map (fun w => if w.dt = d.dt then { w with upto := d.nextCommit } else w) }
          if e.refd then e
          else { e with refd := true, lastLayer := k, lastPlat := itemPlat it, lastReason := 5,
                        lastFrame := 0, lastLine := 0 })
      else d
    | _ => d) d

/-- The number of table entries that are LIVE or DYING (R252's BF_STATUS). -/
def showEntries (d : Dev) : Dev :=
  fs d BF_STATUS BF_STATUS_ENTRIES (d.buf.tab.filter (fun p => p.2.state != 0)).length

/-- An entry of the buffer table goes to the banker (R405). -/
def sendBuf (d : Dev) (i : Nat) : Dev :=
  let e := bufEntry d i
  linkSend d 0x05 ([2 ^ 32 + 1, i, e.state, e.gen, e.owner] ++ e.words.map (fun w => w.toNat))

/-- An entry becomes FREE and its GEN advances (R239); a banker has it from its STATE record. -/
def freeEntry (d : Dev) (i : Nat) : Dev :=
  if bankerLike d then d
  else showEntries (sendBuf (onBuf d i (fun e => { (default : BufEntry) with gen := (e.gen + 1) % 256 })) i)

/-- A waiting release or destroy completes with DETAIL 0; a destroy frees the entry (R247, R248). -/
def endWait (d : Dev) (i : Nat) (w : BufWait) : Dev :=
  let d1 := complete d w.fn w.ring w.idx stOK 0
  if w.destroy then freeEntry d1 i else d1

/-- The cast-off record of R245. -/
def castOffPay (d : Dev) (i releases : Nat) : Nat :=
  let e := bufEntry d i
  pw32 0 (handleOf d i).toNat + pw32 4 e.lastFrame +
  pw32 8 (e.lastLine % 65536 * 65536 + e.lastPlat * 4096 + e.lastReason * 256 + e.lastLayer) + pw32 12 releases

/-- What follows when references of an entry have ended: the waits whose references are all gone complete, after the
cast-off record when no reference is left (R245, R247). -/
def settleBuf (d : Dev) (i : Nat) : Dev :=
  let e := bufEntry d i
  let rs := refsOf d i
  let ready := e.waits.filter (fun w => rs.all (fun r => decide (r ≥ w.upto)))
  let d0 := onBuf d i (fun x => { x with waits := x.waits.filter (fun w => !ready.contains w) })
  let d1 :=
    if e.refd ∧ rs = [] then
      onBuf (post d0 e.owner clBUFFER 1 midCOMPOSE (castOffPay d0 i (ready.filter (fun w => !w.destroy)).length)) i
        (fun x => { x with refd := false })
    else d0
  ready.foldl (fun d w => endWait d i w) d1

/-- Every entry that was referenced, or on which something waits, is looked at. -/
def castOffSweep (d : Dev) : Dev :=
  ((d.buf.tab.filter (fun p => p.2.refd || decide (p.2.waits ≠ []))).map (fun p => p.1)).foldl
    (fun d i => if (refsOf d i = [] ∧ (bufEntry d i).refd) ∨ (bufEntry d i).waits ≠ [] then settleBuf d i else d) d

/-! ### The Skein pool (R254) -/

/-- The watermark of the secure part of the pool, in blocks. -/
def skWm (d : Dev) : Nat := fg d SK_SEC_WM SK_SEC_WM_WM

/-- The size of reserve n. -/
def skRes (d : Dev) (n : Nat) : Nat := fg d (SK_RES n) SK_RES_BLOCKS

/-- The common remainder, which may not be negative (R254). -/
def skCommon (d : Dev) : Int := 8192 - (skWm d : Int) - (((List.range 8).map (skRes d)).sum : Nat)

/-- The blocks that a test of the runs counts. -/
def skCount (d : Dev) (p : SkRun → Bool) : Nat := ((d.buf.runs.filter p).map (fun r => r.len)).sum

/-- The blocks that the consumers of reserve n use. -/
def skUsed (d : Dev) (n : Nat) : Nat := skCount d (fun r => decide (r.pool = n) && !r.lent)

/-- The free runs at or above a block number, rising, as start and length. -/
def freeRuns : List SkRun → Nat → List (Nat × Nat)
  | [], a => if a < 8192 then [(a, 8192 - a)] else []
  | r :: rs, a =>
    if r.start + r.len ≤ a then freeRuns rs a
    else if a < r.start then (a, r.start - a) :: freeRuns rs (r.start + r.len)
    else freeRuns rs (r.start + r.len)

/-- A run in its place among the held ones. -/
def insertRun (x : SkRun) : List SkRun → List SkRun
  | [] => [x]
  | r :: rs => if x.start < r.start then x :: r :: rs else r :: insertRun x rs

/-- k blocks from the free runs in the order given: from the top of each run, or from its bottom. -/
def takeBlocks (top : Bool) (mk : Nat → Nat → SkRun) : Nat → List (Nat × Nat) → List SkRun → List SkRun
  | _, [], runs => runs
  | k, (a, n) :: fr, runs =>
    if k = 0 then runs
    else if k ≤ n then insertRun (mk (if top then a + n - k else a) k) runs
    else takeBlocks top mk (k - n) fr (insertRun (mk a n) runs)

/-- The Skein registers show what is used and lent (R255, R256). -/
def showSkein (d : Dev) : Dev :=
  let d1 := (List.range 8).foldl (fun d n =>
    fs (fs d (SK_USE n) SK_USE_IN_USE (skUsed d n)) (SK_USE n) SK_USE_LENT
      (skCount d (fun r => decide (r.pool = n) && r.lent))) d
  fs d1 SK_STATUS SK_STATUS_COMMON_FREE (skCommon d1 - (skCount d1 (fun r => r.pool == 8) : Nat)).toNat

/-- A consumer that cannot be reclaimed takes k blocks of its reserve, the highest-numbered free ones (R254). -/
def skTakeHigh (d : Dev) (n k user fn : Nat) : Dev :=
  let mk (a l : Nat) : SkRun := { start := a, len := l, pool := n, lent := false, user := user, fn := fn }
  let d1 := count d (610 + n)
  let rs := takeBlocks true mk k (freeRuns d1.buf.runs (skWm d1)).reverse d1.buf.runs
  showSkein { d1 with buf := { d1.buf with runs := rs } }

/-- A layer takes k blocks for prefetch, the lowest-numbered free ones (R254), in a pool, lent or not. -/
def skTakeLow (d : Dev) (pool k user fn : Nat) (lent : Bool) : Dev :=
  let mk (a l : Nat) : SkRun := { start := a, len := l, pool := pool, lent := lent, user := user, fn := fn }
  let d1 := if pool < 8 then count d (610 + pool) else d
  { d1 with buf := { d1.buf with runs := takeBlocks false mk k (freeRuns d1.buf.runs (skWm d1)) d1.buf.runs } }

/-- A consumer gives back its blocks. -/
def skGive (d : Dev) (p : SkRun → Bool) : Dev :=
  showSkein { d with buf := { d.buf with runs := d.buf.runs.filter (fun r => !p r) } }

end Sys2Proof.Machine
end

