-- ==== Sys2Proof/Machine/Commits.lean ====
section
/-! DEFINITION. The commit model (R29 to R43): triggers of calling points, apply points, landings, acceptance, binding and
restamping. What a landing applies is in Machine/Landing.lean. -/

namespace Sys2Proof.Machine

/-! ### Triggers (R54, R55, R62, R79) -/

/-- The next trigger of a point: its DT, and for a raster point its platform and absolute line. -/
structure Trig where
  dt : Nat
  plat : Option Nat
  abs : Nat
  deriving DecidableEq, Repr, Inhabited

/-- The line at which a raster point fires: its own, or the last line of a shorter timing (R79). -/
def clampLine (x : Raster) (l : Nat) : Nat := if l < x.vtot then l else x.vtot - 1

/-- The first frame from f on that a BASIS LINE point takes (R51, R54). -/
def lineFrame (e : CpEntry) (f : Nat) : Nat :=
  let ahead := (f % 2 ^ 32 + 2 ^ 32 - e.frame % 2 ^ 32) % 2 ^ 32
  if ahead ≥ 2 ^ 31 then f + (2 ^ 32 - ahead)
  else
    let per := max e.period 1
    f + (per - ahead % per) % per

/-- The trigger of a point that comes after DT t, or none: a one-shot point whose trigger is past, or a raster point of a
platform that has no timing (R54, R55). -/
def nextTrig (d : Dev) (e : CpEntry) (t : Nat) : Option Trig :=
  match e.basis with
  | .dt => if e.trig > t then some { dt := e.trig, plat := none, abs := 0 } else none
  | .line =>
    let x := raster d e.plat
    if !x.had ∨ x.vtot = 0 then none
    else
      let l := clampLine x e.line
      let now := absAt x t
      let f := now / x.vtot
      let f1 := if now % x.vtot < l then f else f + 1
      let f2 := lineFrame e f1
      some { dt := dtOf x f2 l, plat := some e.plat, abs := f2 * x.vtot + l }
  | .frameLine =>
    let x := raster d e.plat
    if !x.had ∨ x.vtot = 0 then none
    else
      let l := clampLine x e.line
      let now := absAt x t
      let f := now / x.vtot
      let ahead := (e.frame % 2 ^ 32 + 2 ^ 32 - f % 2 ^ 32) % 2 ^ 32
      if ahead < 2 ^ 31 ∧ (f + ahead) * x.vtot + l > now then
        some { dt := dtOf x (f + ahead) l, plat := some e.plat, abs := (f + ahead) * x.vtot + l }
      else none

/-! ### Landings (R29 to R33, R39, R69, R70, R262, R280) -/

/-- A landing: platform, frame, line, DT. -/
abbrev Land := Nat × Nat × Nat × Nat

/-- The landing of a platform at an absolute boundary. -/
def landAt (x : Raster) (p b : Nat) : Land := (p, b / x.vtot, b % x.vtot, dtOfAbs x b)

/-- The landing on a group platform, given the DT at which the anchor's landing line starts (R31); a platform without a
timing lands at that DT (R262). -/
def landOther (d : Dev) (t p : Nat) : Land :=
  let x := raster d p
  if x.had then landAt x p (boundaryFrom x (stripH d p) (absFrom x t)) else (p, 0, 0, t)

/-- The earliest anchor DT for which a group platform lands on a boundary whose composition has not begun (R33): just
after the boundary before its first open one. -/
def openTime (d : Dev) (p : Nat) : Nat :=
  let x := raster d p
  if !x.had then 0
  else
    let b := boundaryBefore x (stripH d p) (openFrom d p)
    if openFrom d p = 0 then 0 else dtOfAbs x b + 1

/-- The apply point on the anchor as an absolute line (R29, R69): the trigger's line, the first line that starts at or
after the trigger, or without a binding the first line after now whose composition has not begun. -/
def applyAbs (d : Dev) (anchor : Nat) (cp : Option Nat) (t : Nat) : Nat :=
  let x := raster d anchor
  match cp.bind (fun c => nextTrig d (cpEntry d c) t) with
  | some g => if g.plat = some anchor then g.abs else absFrom x g.dt
  | none => openFrom d anchor

/-- The landings of a commit accepted at DT t with this anchor, group and binding, and whether a boundary had to be passed
over because its composition has begun (R29 to R33, R262). -/
def landings (d : Dev) (anchor group : Nat) (cp : Option Nat) (t : Nat) : List Land × Bool :=
  let x := raster d anchor
  let others := (bitsOf 16 group).filter (fun p => p != anchor)
  if !x.had then
    let t0 := match cp.bind (fun c => nextTrig d (cpEntry d c) t) with
      | some g => g.dt
      | none => t
    ((anchor, 0, 0, t0) :: others.map (landOther d t0), false)
  else
    let h := stripH d anchor
    let want := boundaryFrom x h (applyAbs d anchor cp t)
    let need := (others.map (openTime d)).foldl max 0
    let got := boundaryFrom x h (max (max want (openFrom d anchor)) (absFrom x need))
    let a := landAt x anchor got
    (a :: others.map (landOther d a.2.2.2), got != want)

/-- A commit by its number. -/
def commitById (d : Dev) (i : Nat) : Option Commit := d.commits.find? (fun c => c.id == i)

def onCommit (d : Dev) (i : Nat) (g : Commit → Commit) : Dev :=
  { d with commits := d.commits.map (fun c => if c.id = i then g c else c) }

def dropCommit (d : Dev) (i : Nat) : Dev := { d with commits := d.commits.filter (fun c => c.id != i) }

/-- The landing of a commit on a platform. -/
def landOf (c : Commit) (p : Nat) : Option Land := c.land.find? (fun l => l.1 == p)

/-- The DT stamp of a commit: the DT of the anchor's landing (R35). -/
def stampOf (c : Commit) : Nat := ((landOf c c.anchor).map (fun l => l.2.2.2)).getD 0

/-- GL_MODE shows the mode commit accepted last that has not landed (R41). -/
def showPending (d : Dev) : Dev :=
  let ms := d.commits.flatMap (fun c => c.items.filterMap (fun it => match it with
    | .mode m => some m
    | _ => none))
  match ms.getLast? with
  | some m => fs (fs d GL_MODE GL_MODE_PENDING 1) GL_MODE GL_MODE_PENDING_MODE m
  | none => fs (fs d GL_MODE GL_MODE_PENDING 0) GL_MODE GL_MODE_PENDING_MODE 0

/-- A commit leaves: a mode that it was to bring is pending no more (R41), and a reference that it held and that no landing
took over ends with it (R244), which may cast a buffer off. -/
def leaveCommit (d : Dev) (i : Nat) : Dev := castOffSweep (showPending (dropCommit d i))

/-- Is this part one of composition's staged registers (R236)? -/
def isComp (it : CommitItem) : Bool :=
  match it with
  | .layer _ _ _ => true
  | .stitch _ _ => true
  | .guardR _ _ _ => true
  | .colour _ _ _ _ _ _ => true
  | .reg o _ => decide (0x80000 ≤ o) && decide (o < 0xA0000)
  | _ => false

/-- Is this part one of scan-out's staged registers (R259)? -/
def isScan (it : CommitItem) : Bool :=
  match it with
  | .reg o _ => decide (0xC0000 ≤ o) && decide (o < 0x100000)
  | _ => false

/-- The status of a staged commit goes to the section whose registers it held, and to both when it held neither's (R236,
R259). -/
def stageStatus (d : Dev) (comp scan : Bool) (status : Nat) : Dev :=
  let d1 := if comp || !scan then fs d CM_STATUS CM_STATUS_STAGE_STATUS status else d
  if scan || !comp then fs d1 SO_STATUS SO_STATUS_STAGE_STATUS status else d1

/-- What a commit's source hears of its end (R35, R236, R259, R121): the completion of a descriptor, the status fields of
the staged registers, or the status of the partition window. -/
def endCommit (d : Dev) (c : Commit) (status : Nat) : Dev :=
  let d1 := leaveCommit d c.id
  match c.src with
  | .desc f r idx => completeAt d1 f r idx status 0 0 (if status = stOK then stampOf c else d1.dt)
  | .staged =>
    stageStatus (fs d1 GL_STAGE_COMMIT GL_STAGE_COMMIT_BUSY 0) (c.items.any isComp) (c.items.any isScan) status
  | .island => fs (fs d1 CM_SI_COMMIT CM_SI_COMMIT_BUSY 0) CM_STATUS CM_STATUS_SI_STATUS status
  | .window _ =>
    let more := d1.commits.any (fun c => match c.src with
      | .window _ => true
      | _ => false)
    fs (fs d1 HS_PT_STAT HS_PT_STAT_BUSY more.toNat) HS_PT_STAT HS_PT_STAT_LAST status
  | .device => d1

/-- The landing of one unbound commit is computed again (R33). A STRICT commit whose strip has begun ends LATE. -/
def restampOne (d : Dev) (i : Nat) : Dev :=
  match commitById d i with
  | none => d
  | some c =>
    if c.bound ∨ c.held ∨ c.landed ≠ [] then d
    else
      let l := landings d c.anchor c.group c.cp d.dt
      if l.2 && c.strict then endCommit (linkSend d 0x03 [i]) c stLATE
      else
        let d1 := onCommit d i (fun c => { c with land := l.1 })
        if l.1 = c.land then d1 else linkSend d1 0x03 (i :: l.1.flatMap (fun x => [x.1, x.2.1, x.2.2.1]))

/-- Composition of a strip begins while the banker has not acknowledged the COMMIT record of a commit that lands there: the
landing moves to the next boundary (R415). -/
def restampUnacked (d : Dev) (p f l : Nat) : Dev :=
  if dhState d ≠ 3 then d
  else
    ((d.commits.filter (fun c => decide (c.anchor = p) && c.link.any (fun s => decide (s ≥ d.pair.acked)) &&
      (landOf c p).any (fun x => decide (x.2.1 % 2 ^ 32 = f % 2 ^ 32) && decide (x.2.2.1 = l)))).map
        (fun c => c.id)).foldl restampOne d

/-- Does the landing of a commit depend on a platform's raster: through its group, or through its calling point (R33, R69)? -/
def touchesPlat (d : Dev) (p : Nat) (c : Commit) : Bool :=
  hasBit c.group p ||
  c.cp.any (fun k => decide ((cpEntry d k).basis ≠ .dt) && decide ((cpEntry d k).plat = p))

/-- Every unbound commit that a change of a platform's raster touches is computed again (R33). -/
def restampAll (d : Dev) (p : Nat) : Dev :=
  ((d.commits.filter (touchesPlat d p)).map (fun c => c.id)).foldl restampOne d

/-- In panel self-refresh an accepted commit wakes the link: the next refreshed frame is fixed (R280). -/
def psrWake (d : Dev) (p : Nat) : Dev :=
  if (platRun d p).psr ∧ (platRun d p).psrFrame = none then
    let f := openFrom d p / (raster d p).vtot
    emit (onPlat d p (fun x => { x with psrFrame := some f })) (.panel 0 p f)
  else d

/-- How many accepted commits of a function have not landed on a platform (R37). -/
def openCommits (d : Dev) (n p : Nat) : Nat :=
  (d.commits.filter (fun c => decide (c.fn = n) && hasBit c.group p && !c.landed.contains p)).length

/-- Is a function at the limit of 8 on a platform of the group (R37)? -/
def commitLimit (d : Dev) (n group : Nat) : Bool := (bitsOf 16 group).any (fun p => decide (openCommits d n p ≥ 8))

/-- Is this the island's commit out of Caution (R399)? -/
def isCautionExit (it : CommitItem) : Bool :=
  match it with
  | .cautionExit _ => true
  | _ => false

/-- Does Caution keep a commit from the platforms it designates (R396)? -/
def cautionRefuses (d : Dev) (c : Commit) : Bool :=
  decide (modeOf d = mCAU) && decide (c.group &&& fg d SF_CAU_PLAT SF_CAU_PLAT_PLAT ≠ 0) && decide (c.src ≠ .island) &&
  !c.items.any isCautionExit

/-- A landing that the lead stamped, on this device's raster (R41, R415). -/
def stamped (d : Dev) (l : Nat × Nat × Nat) : Land := (l.1, l.2.1, l.2.2, dtOf (raster d l.1) l.2.1 l.2.2)

/-- The numbers by which a record names where a commit came from. -/
def srcWords : CommitSrc → List Nat
  | .desc f r i => [0, f, r, i]
  | .staged => [1]
  | .island => [2]
  | .window _ => [3]
  | .device => [4]

/-- A commit takes another identity, and the references that it made with it. -/
def renumber (d : Dev) (old new : Nat) : Dev :=
  { d with commits := d.commits.map (fun c => if c.id = old then { c with id := new } else c),
           buf := { d.buf with refs := d.buf.refs.map (fun r => if r.id = old then { r with id := new } else r) } }

/-- An identity is free for a record of the lead: the commit of this device that has it takes another. -/
def yieldId (d : Dev) (i : Nat) : Dev :=
  let n := max d.nextCommit (i + 1)
  { renumber d i n with nextCommit := n + 1 }

/-- A commit of a banker takes the identity and the landing of its COMMIT record (R415); with no landing left it was
cancelled. -/
def takeRecord (d : Dev) (old : Nat) (r : LandRec) : Dev :=
  let d1 := if old = r.id then d else renumber (yieldId d r.id) old r.id
  let d2 := onCommit d1 r.id (fun c => { c with land := r.land.map (stamped d1), link := some r.id })
  if r.land ≠ [] then d2
  else match commitById d2 r.id with
    | some c => endCommit d2 c stLATE
    | none => d2

/-- A commit is accepted on a banker (R415). -/
def bankerCommit (d : Dev) (c : Commit) : Dev :=
  let d1 := { d with commits := d.commits ++ [c], nextCommit := d.nextCommit + 1 }
  match d.pair.bankCommits.find? (fun r => decide (r.src = c.src)) with
  | some r =>
    takeRecord { d1 with pair := { d1.pair with bankCommits := d1.pair.bankCommits.filter (fun x => x.id != r.id) } } c.id r
  | none => d1

/-- The banks of the LAYERs with EN = 1 that are accepted (R218). -/
def noteBanks (d : Dev) (items : List CommitItem) : Dev :=
  items.foldl (fun d it => match it with
    | .layer k _ ws =>
      if bit (wd ws 0) 31 then { d with comp := { d.comp with lastBank := SMap.set d.comp.lastBank k (bits (wd ws 0) 28 28 + 1) } }
      else d
    | _ => d) d

/-- A commit is accepted (R29, R33, R34): its landing is computed now; a STRICT one whose strip has begun ends LATE; one
whose anchor has no timing is bound at once (R262). -/
def acceptCommit (d : Dev) (fn : Nat) (src : CommitSrc) (anchor group : Nat) (cp : Option Nat) (strict devWide : Bool)
    (items : List CommitItem) : Dev :=
  let l := landings d anchor group cp d.dt
  let c : Commit :=
    { id := d.nextCommit, fn := fn, src := src, anchor := anchor, group := group, cp := cp, strict := strict,
      devWide := devWide, held := false, bound := !(raster d anchor).had, items := items, land := l.1, landed := [],
      link := none }
  let d1 := { d with nextCommit := d.nextCommit + 1 }
  if bankerLike d then bankerCommit (noteBanks (markRefs d items) items) c
  else if cautionRefuses d c then endCommit { d1 with commits := d1.commits ++ [c] } c stERR_DOWN
  else if l.2 && strict then endCommit { d1 with commits := d1.commits ++ [c] } c stLATE
  else
    let d2 := linkSend d1 0x02 ([c.id, anchor, group] ++ srcWords src ++ l.1.flatMap (fun x => [x.1, x.2.1, x.2.2.1]))
    let c' := { c with link := if dhState d = 3 then some d1.pair.seqOut else none }
    noteBanks (markRefs ((bitsOf 16 group).foldl psrWake { d2 with commits := d2.commits ++ [c'] }) items) items

/-- A change of the device on one platform, bound at once: it applies at the next boundary whose composition has not begun. -/
def deviceCommit (d : Dev) (f p : Nat) (items : List CommitItem) : Dev :=
  let x := raster d p
  let c : Commit :=
    { id := d.nextCommit, fn := f, src := .device, anchor := p, group := 2 ^ p, cp := none, strict := false, devWide := false,
      held := false, bound := true, items := items, land := [landAt x p (boundaryFrom x (stripH d p) (openFrom d p))],
      landed := [], link := none }
  { d with commits := d.commits ++ [c], nextCommit := d.nextCommit + 1 }

/-- Commits that are not bound and have not begun to land end with a status (R90, R59): the ones that a test picks. -/
def abortCommits (d : Dev) (status : Nat) (pick : Commit → Bool) : Dev :=
  (d.commits.filter (fun c => pick c && !c.bound && decide (c.landed = []))).foldl (fun d c => endCommit d c status) d

/-- Composition of a strip begins on a platform: the commits whose anchor lands there are bound (R32), but for those that a
cutover window keeps from landing (R447). -/
def bindCommits (d : Dev) (p f l : Nat) : Dev :=
  if d.pm.cut.window then d
  else { d with commits := d.commits.map (fun c =>
      if c.anchor = p ∧ !c.held ∧ (landOf c p).any (fun x => decide (x.2.1 % 2 ^ 32 = f % 2 ^ 32) && decide (x.2.2.1 = l))
      then { c with bound := true } else c) }

/-- The commits that land on a platform at a boundary, device-wide ones first, then in acceptance order (R36); in a cutover
window the bound ones alone (R447). -/
def landingNow (d : Dev) (p f l : Nat) : List Commit :=
  let due := d.commits.filter (fun c => !c.held && !c.landed.contains p && (c.bound || !d.pm.cut.window) &&
    (landOf c p).any (fun x => decide (x.2.1 % 2 ^ 32 = f % 2 ^ 32) && decide (x.2.2.1 = l)))
  due.filter (fun c => c.devWide) ++ due.filter (fun c => !c.devWide)

/-- The landing tag of a platform (R40): the registers and the count. -/
def tagLanding (d : Dev) (p f l : Nat) : Dev :=
  let d1 := wr d (GL_LAND_FRAME p) (BitVec.ofNat 32 f)
  let n := (fg d (GL_LAND_LINE p) GL_LAND_LINE_COUNT + 1) % 65536
  wr d1 (GL_LAND_LINE p) (BitVec.ofNat 32 (n * 65536 + l % 65536))

/-- A platform has landed: when it was the last of the group, the commit completes with OK (R35). A role swap completes when
it takes effect (R423). -/
def landedOn (d : Dev) (i p : Nat) : Dev :=
  let d1 := onCommit d i (fun c => { c with landed := c.landed ++ [p], bound := true })
  match commitById d1 i with
  | none => d1
  | some c => if (bitsOf 16 c.group).all (fun q => c.landed.contains q) && !c.items.contains .swap then endCommit d1 c stOK else d1

end Sys2Proof.Machine
end

