-- ==== Sys2Proof/Machine/Timetable.lean ====
section
/-! DEFINITION. The Timetable (R46 to R84, R514): device time and raster reads, the windows of the calling-point store,
comparators and the loader, framelock, the conversion unit. What a point does when it fires is in Machine/Firing.lean. -/

namespace Sys2Proof.Machine

/-! ### Entries (R53) -/

/-- An entry from words 0 to 6; a write resets FIRES and OUTCOME (R60). -/
def cpOfWords (ws : List Word) : CpEntry :=
  let w0 := wd ws 0
  { en := bit w0 31
    basis := if bits w0 30 29 = 0 then .line else if bits w0 30 29 = 1 then .frameLine else .dt
    wake := bit w0 28, shared := bit w0 27, event := bit w0 26
    action := bits w0 23 16, plat := bits w0 15 12, owner := bits w0 7 0
    line := bits (wd ws 1) 31 16, period := bits (wd ws 1) 15 0
    frame := (wd ws 2).toNat, trig := lo64 (wd ws 3) (wd ws 4)
    arg0 := wd ws 5, arg1 := wd ws 6, fires := 0, outcome := 0 }

/-- The basis code of R53. -/
def basisCode (b : Basis) : Nat :=
  match b with
  | .line => 0
  | .frameLine => 1
  | .dt => 2

/-- The eight words of an entry. -/
def cpWords (e : CpEntry) : List Word :=
  [BitVec.ofNat 32 (e.en.toNat * 2 ^ 31 + basisCode e.basis * 2 ^ 29 + e.wake.toNat * 2 ^ 28 + e.shared.toNat * 2 ^ 27
      + e.event.toNat * 2 ^ 26 + e.action * 2 ^ 16 + e.plat * 2 ^ 12 + e.owner),
   BitVec.ofNat 32 (e.line * 2 ^ 16 + e.period), BitVec.ofNat 32 e.frame, loWord e.trig, hiWord e.trig, e.arg0, e.arg1,
   BitVec.ofNat 32 (e.fires * 2 ^ 16 + e.outcome)]

/-- A reserved encoding in word 0 (R53, R57): basis 3, an action not listed, or an owner that is no function. -/
def cpReserved (w0 : Word) : Bool :=
  decide (bits w0 30 29 = 3) || decide (bits w0 23 16 > 9) || decide (bits w0 7 0 ≥ 0x20)

/-- An armed raster point needs a timing with its line (R56). -/
def cpLineBad (d : Dev) (e : CpEntry) : Bool :=
  e.en && decide (e.basis ≠ .dt) && (!(raster d e.plat).had || decide (e.line ≥ (raster d e.plat).vtot))

/-- Actions that only the PF writes (R57). -/
def cpPfAction (a : Nat) : Bool := decide (6 ≤ a) && decide (a ≤ 9)

/-- What the Timetable keeps of a point. -/
def cpRun (d : Dev) (c : Nat) : CpRun := SMap.get d.tt.run c

def setCp (d : Dev) (c : Nat) (e : CpEntry) : Dev := { d with tt := { d.tt with cps := SMap.set d.tt.cps c e } }

def onCpRun (d : Dev) (c : Nat) (g : CpRun → CpRun) : Dev :=
  { d with tt := { d.tt with run := SMap.mod d.tt.run c g } }

/-- How many comparators are armed. -/
def armedCount (d : Dev) : Nat := (d.tt.run.filter (fun p => p.2.armed)).length

/-- TT_STATUS shows the comparators armed now and their highest number (R68). -/
def showArmed (d : Dev) : Dev :=
  let n := armedCount d
  let d1 := fs d TT_STATUS TT_STATUS_ARMED n
  if n > fg d1 TT_STATUS TT_STATUS_ARMED_HWM then fs d1 TT_STATUS TT_STATUS_ARMED_HWM n else d1

/-- The functions that have any state. -/
def fnKeys (d : Dev) : List Nat := d.fns.map (fun p => p.1)

/-- A started descriptor in its place among others, by acceptance. -/
def insertLive (x : Nat × Nat × Desc) : List (Nat × Nat × Desc) → List (Nat × Nat × Desc)
  | [] => [x]
  | y :: ys => if x.2.2.seq ≤ y.2.2.seq then x :: y :: ys else y :: insertLive x ys

/-- Every started descriptor with its function and ring, in acceptance order (R111). -/
def allLive (d : Dev) : List (Nat × Nat × Desc) :=
  let l := d.fns.flatMap (fun f => f.2.rings.flatMap (fun r => r.2.live.map (fun q => (f.1, r.1, q))))
  l.foldr insertLive []

/-- Is a started descriptor the source of an accepted commit? -/
def isCommit (d : Dev) (f r idx : Nat) : Bool := d.commits.any (fun c => decide (c.src = .desc f r idx))

/-- The descriptors parked on a point, in acceptance order; commits are not among them. -/
def parkedOn (d : Dev) (c : Nat) : List (Nat × Nat × Desc) :=
  (allLive d).filter (fun x => decide (x.2.2.cp = some c) && !isCommit d x.1 x.2.1 x.2.2.idx)

/-- Everything bound to a point ends with a status, but for commits already bound under R32 (R59). `pick` says which
functions it concerns. -/
def endBound (d : Dev) (c status : Nat) (pick : Nat → Bool) : Dev :=
  let d1 := abortCommits d status (fun k => decide (k.cp = some c) && pick k.fn)
  (parkedOn d1 c).foldl (fun d x => if pick x.1 then complete d x.1 x.2.1 x.2.2.idx status else d) d1

/-- A point takes a comparator, or waits for one. A point whose trigger passed while it waited is deferred (R64), unless the walk
found it late already (R65). -/
def armPoint (d : Dev) (c : Nat) : Dev :=
  if armedCount d + d.tt.cooling < 64 then
    showArmed (onCpRun d c (fun x => { x with armed := true, deferred := x.waiting && !x.late && decide (x.due < d.dt),
                                              waiting := false }))
  else onCpRun d c (fun x => { x with waiting := true })

/-- A free comparator goes to the waiting point of lowest index (R63). -/
def freeUp (d : Dev) : Dev :=
  match (d.tt.run.filter (fun p => p.2.waiting)).head? with
  | some p => if armedCount d + d.tt.cooling < 64 then armPoint d p.1 else d
  | none => d

/-- A point leaves its comparator, or the wait for one, and its entry is disabled (R62, R63, R83). -/
def disarm (d : Dev) (c : Nat) (e : CpEntry) : Dev :=
  freeUp (showArmed (onCpRun (setCp d c { e with en := false }) c (fun _ => default)))

/-- A new entry is in the store: what was bound to the old one is aborted (R59), its comparator is left (R61, R63), and the
point waits for its next trigger. -/
def storeEntry (d : Dev) (c : Nat) (e : CpEntry) : Dev :=
  let d1 := endBound d c stABORTED (fun _ => true)
  let d2 := setCp d1 c e
  let due := if e.en then ((nextTrig d2 e d.dt).map (fun g => g.dt)).getD 0 else 0
  freeUp (showArmed (onCpRun d2 c (fun _ => { written := if e.en then d.dt else 0, armed := false, deferred := false,
                                              waiting := false, due := due })))

/-- Is this an armed one-shot point whose trigger has passed (R55)? -/
def cpPast (d : Dev) (e : CpEntry) : Bool :=
  e.en && decide (e.basis ≠ .line) && (nextTrig d e d.dt).isNone

/-! ### Reads that latch (R49, R50, R514) -/

/-- A read of TT_DT_LO: the low word of DT, and the high word into the reader's latch (R49). -/
def doDtRead (a : Acc) (d0 : Dev) : Dev :=
  let sv := serveDomain d0 4
  if !reachesBar0 a ∨ !sv.2 then sv.1
  else
    let d := sv.1
    let d1 := { d with tt := { d.tt with dtHi := SMap.set d.tt.dtHi a.mid.toNat (d.dt / 2 ^ 32 % 2 ^ 32) } }
    emit d1 (.readData a.mid.toNat TT_DT_LO (maskBytes a.be (loWord d.dt)))

/-- What TT_RPOS_LINE_Pn shows (R50): VIRTUAL, NOTIMING, the line and the pixel. -/
def rposWord (d : Dev) (p : Nat) : Word :=
  let x := raster d p
  if !x.had then BitVec.ofNat 32 (2 ^ 30)
  else BitVec.ofNat 32 (x.virt.toNat * 2 ^ 31 + (absAt x d.dt % x.vtot) % 2 ^ 14 * 2 ^ 16 + pixelAt x d.dt % 2 ^ 16)

/-- A read of TT_RPOS_LINE_Pn latches the frame and the DT of the line's start (R50). -/
def doRposRead (a : Acc) (p : Nat) (d0 : Dev) : Dev :=
  let sv := serveDomain d0 4
  if !reachesBar0 a ∨ !sv.2 then sv.1
  else
    let d := sv.1
    let x := raster d p
    let f := if x.had then absAt x d.dt / x.vtot else 0
    let t := if x.had then dtOfAbs x (absAt x d.dt) else 0
    let d1 := wr64 (wr d (TT_RPOS_FRAME p) (BitVec.ofNat 32 f)) (TT_RPOS_DT_LO p) t
    emit d1 (.readData a.mid.toNat (TT_RPOS_LINE p) (maskBytes a.be (rposWord d p)))

/-! ### The window (R52, R60) -/

/-- May this master use the calling-point window (R52)? -/
def cpWindowMaster (a : Acc) : Bool :=
  decide (a.mid.toNat = 0) || (decide (0x20 ≤ a.mid.toNat) && decide (a.mid.toNat ≤ 0x25))

/-- A write to a register whose value each master keeps for itself: checked as any write, kept out of the register. -/
def maskedWrite (a : Acc) (off : Nat) (v : Word) (d : Dev) : Dev × Bool :=
  let w := regWrite a off v d
  match w.2 with
  | .done _ => (wr w.1 off (rd d off), true)
  | _ => (w.1, false)

/-- The entry that a master's window shows. -/
def cpSel (d : Dev) (mid : Nat) : Nat := SMap.get d.tt.sel mid

/-- A write of TT_CP_SEL: a change of the selection discards the master's staging copy (R60). -/
def doCpSelWrite (a : Acc) (v : Word) (d : Dev) : Dev :=
  let mid := a.mid.toNat
  if !cpWindowMaster a then (if reachesBar0 a then logErr d ecNOT_PERMITTED mid TT_CP_SEL v a.secure else d)
  else
    let w := maskedWrite a TT_CP_SEL v d
    if !w.2 then w.1
    else if bits v 9 0 = cpSel w.1 mid then w.1
    else { w.1 with tt := { w.1.tt with sel := SMap.set w.1.tt.sel mid (bits v 9 0),
                                        stage := SMap.set w.1.tt.stage mid [] } }

/-- A write of TT_CP_W1 to W6 goes to the writer's staging copy (R60). -/
def doCpStageWrite (a : Acc) (k : Nat) (v : Word) (d : Dev) : Dev :=
  let mid := a.mid.toNat
  let off := TT_CP_W (k + 1)
  if !cpWindowMaster a then (if reachesBar0 a then logErr d ecNOT_PERMITTED mid off v a.secure else d)
  else
    let w := maskedWrite a off v d
    if !w.2 then w.1
    else { w.1 with tt := { w.1.tt with stage := SMap.mod w.1.tt.stage mid (fun m => SMap.set m (k + 1) (some v)) } }

/-- The words that a write of word 0 moves into the store (R60): staged ones, else those of the entry as stored. -/
def cpMerged (d : Dev) (mid c : Nat) (w0 : Word) : List Word :=
  w0 :: (List.range 6).map (fun k =>
    (SMap.get (SMap.get d.tt.stage mid) (k + 1)).getD (wd (cpWords (cpEntry d c)) (k + 1)))

/-- What a write of TT_CP_W0 does to the store (R52, R53, R56, R60): the entry it puts there, or none when the write is
discarded, with the device as the checks leave it. -/
def cpStoreCheck (a : Acc) (v : Word) (d : Dev) : Dev × Option (Nat × CpEntry) :=
  let mid := a.mid.toNat
  if !cpWindowMaster a then
    ((if reachesBar0 a then logErr d ecNOT_PERMITTED mid (TT_CP_W 0) v a.secure else d), none)
  else
    let w := maskedWrite a (TT_CP_W 0) v d
    if !w.2 then (w.1, none)
    else
      let c := cpSel d mid
      let e := cpOfWords (cpMerged d mid c v)
      if c ≥ 1008 then (logErr w.1 ecNOT_PERMITTED mid (TT_CP_W 0) v a.secure, none)
      else if cpReserved v then (logErr w.1 ecRESERVED_ENCODING mid (TT_CP_W 0) v a.secure, none)
      else if cpLineBad d e then (logErr w.1 ecCONFLICT mid (TT_CP_W 0) v a.secure, none)
      else ({ w.1 with tt := { w.1.tt with stage := SMap.set w.1.tt.stage mid [] } }, some (c, e))

/-! ### Comparators (R62 to R64) -/

/-- The enabled points, in index order. -/
def enabledCps (d : Dev) : List Nat := (d.tt.cps.filter (fun p => p.2.en)).map (fun p => p.1)

/-- The end of the three arming windows of DT t (R62). -/
def armHorizon (t : Nat) : Nat := (t / 4096 + 3) * 4096

/-- The trigger that a point waits for: the new line 0 of a jump that skipped its line (R75), else the first after it was written
or last fired. DESIGN CHOICE (notes/assumptions/125): a BASIS LINE point is armed, as R55 means it, by the write that sets EN;
the next such line counts from there, and one missed before the walk comes fires LATE_ARM and not in the next frame. -/
def waitsFor (d : Dev) (c : Nat) : Option Trig :=
  match (cpRun d c).clampDt with
  | some t => some { dt := t, plat := some (cpEntry d c).plat, abs := absAt (raster d (cpEntry d c).plat) t }
  | none => nextTrig d (cpEntry d c) (cpRun d c).written

/-- The entry after a firing: FIRES and OUTCOME, and EN clear on a one-shot point (R53, R54). -/
def firedEntry (e : CpEntry) (oc : Nat) : CpEntry :=
  { e with fires := (e.fires + 1) % 65536, outcome := oc, en := e.en && decide (e.basis = .line) }

/-- A comparator is free again (R63): the waiting point of lowest index takes it. -/
def doComparatorFree (d : Dev) : Dev :=
  if d.tt.cooling = 0 then d else freeUp { d with tt := { d.tt with cooling := d.tt.cooling - 1 } }

/-- PD4 enters DOZE or HIBERNATE: no comparator runs, and what they held is missed until a walk finds it (R82). -/
def stopComparators (d : Dev) : Dev :=
  showArmed { d with tt := { d.tt with cooling := 0,
                                       run := d.tt.run.map (fun p => (p.1, { p.2 with armed := false, deferred := false,
                                                                                      waiting := false })) } }

/-! ### Framelock (R71 to R76) -/

def flState (d : Dev) (p : Nat) : Nat := fg d (TT_FL_STAT p) TT_FL_STAT_STATE

def setFlState (d : Dev) (p v : Nat) : Dev := fs d (TT_FL_STAT p) TT_FL_STAT_STATE v

def onFl (d : Dev) (p : Nat) (g : FlRun → FlRun) : Dev := { d with tt := { d.tt with fl := SMap.mod d.tt.fl p g } }

/-- The FL events of R489 go to F0 with the last phase error. -/
def flEvent (d : Dev) (p code : Nat) : Dev :=
  post d 0 clTIMETABLE code 0 (pb 0 p + pw32 4 (fg d (TT_FL_STAT p) TT_FL_STAT_ERROR))

/-- Do the references of the platforms, with p following q, form a cycle (R71)? -/
def flCycle (d : Dev) (p : Nat) : Nat → Nat → Bool
  | 0, _ => true
  | fuel + 1, q =>
    if q = p then true
    else if fg d (TT_FL_CTRL q) TT_FL_CTRL_SRC = 2 then flCycle d p fuel (fg d (TT_FL_CTRL q) TT_FL_CTRL_REF)
    else false

/-- A write of TT_FL_CTRL_Pn (R71, R74): a setting that closes a cycle of references is discarded; clearing EN frees the
platform, whose correction goes at the next frame start. -/
def doFlCtrlWrite (a : Acc) (p : Nat) (v : Word) (d : Dev) : Dev :=
  let w := guardWrite a (TT_FL_CTRL p) v
    (fun n => if bits n 29 28 = 2 ∧ flCycle d p 17 (bits n 27 24) then some ecCONFLICT else none) d
  match w.2 with
  | .done n =>
    if !bit n 31 then onFl (setFlState w.1 p 0) p (fun x => { x with good := 0, bad := 0, out := false }) else w.1
  | _ => w.1

/-- The phase error in pixel clocks at DT t (R72): the position less line OFFSET pixel 0, wrapped into (−V/2, V/2]. -/
def flError (d : Dev) (p : Nat) : Int :=
  let x := raster d p
  let total : Int := Int.ofNat (x.vtot * x.htot)
  let pos : Int := Int.ofNat ((absAt x d.dt % x.vtot) * x.htot + pixelAt x d.dt)
  let off : Int := sext (fg d (TT_FL_CTRL p) TT_FL_CTRL_OFFSET) 16
  let e := (pos - off * x.htot) % total
  if 2 * e > total then e - total else e

/-- The correction in pixel clocks a frame (R72): error / (V/32) × 0.5 %, at most 0.5 % of the frame. -/
def flCorrection (d : Dev) (p : Nat) (e : Int) : Int :=
  let full : Int := Int.ofNat ((raster d p).vtot * (raster d p).htot / 200)
  let c := e * 4 / 25
  if c > full then full else if c < -full then -full else c

/-- Is the reference period × DIV / MUL within 0.5 % of the nominal frame period (R73)? -/
def flInRange (d : Dev) (p periodNs : Nat) : Bool :=
  let x := raster d p
  let mul := fg d (TT_FL_CTRL p) TT_FL_CTRL_MUL + 1
  let div := fg d (TT_FL_CTRL p) TT_FL_CTRL_DIV + 1
  let ref := periodNs * div * x.pxDen * 200
  let loc := x.vtot * x.htot * x.pxNum * mul
  decide (ref ≤ loc * 201) && decide (loc * 199 ≤ ref)

/-- No reference edge for two expected periods (R74): HOLDOVER keeps the last correction. -/
def doFramelockHoldover (p : Nat) (d : Dev) : Dev :=
  if flState d p = 1 ∨ flState d p = 2 then flEvent (setFlState d p 3) p 5 else d

/-- 16 frames of HOLDOVER without an edge (R74): FREE, the correction removed. -/
def doFramelockHoldoverExpire (p : Nat) (d : Dev) : Dev :=
  if flState d p = 3 then onFl (setFlState d p 0) p (fun x => { x with corr := 0 }) else d

/-! ### The conversion unit (R514) -/

/-- The device-time equivalent of a line of a frame given modulo 2^32 (R51, R80): counted from the line in progress, whose start holds
framelock's correction so far, and without correction from there on. -/
def convDt (d : Dev) (p frame line : Nat) : Nat :=
  let x := raster d p
  let now := absAt x d.dt
  let cur := now / x.vtot
  let ahead : Nat := (frame % 2 ^ 32 + 2 ^ 32 - cur % 2 ^ 32) % 2 ^ 32
  let df : Int := if ahead < 2 ^ 31 then (ahead : Int) else (ahead : Int) - ((2 ^ 32 : Nat) : Int)
  let f : Int := (cur : Int) + df
  let n : Int := f * x.vtot + (line : Int) - now
  let m := lineClocks x ((now : Int) - (x.fRef * x.vtot + x.lRef : Nat)) + n * (x.htot : Int)
  ((x.dtRef : Int) + m * (x.pxNum : Int) / (x.pxDen : Int)).toNat

/-- A write to TT_CONV_LINE starts a conversion of the frame that TT_CONV_FRAME holds at the write, or clears the results when the
platform has no timing (R514). -/
def doConvStart (a : Acc) (v : Word) (d : Dev) : Dev :=
  let w := regWrite a TT_CONV_LINE v d
  match w.2 with
  | .done n =>
    if !(raster d (bits n 19 16)).had then
      let d1 := wr64 w.1 TT_CONV_DT_LO 0
      logErr { d1 with tt := { d1.tt with convBusy := false } } ecCONFLICT a.mid.toNat TT_CONV_LINE v a.secure
    else
      let t := convDt w.1 (bits n 19 16) (rd w.1 TT_CONV_FRAME).toNat (bits n 15 0)
      { w.1 with tt := { w.1.tt with convBusy := true, convRes := t } }
  | _ => w.1

/-- The conversion ends: the results hold R80 for the platform, frame and line of its start (R514). -/
def doConvDone (d : Dev) : Dev :=
  if !d.tt.convBusy then d else wr64 { d with tt := { d.tt with convBusy := false } } TT_CONV_DT_LO d.tt.convRes

/-! ### Resets (R83) -/

/-- A function reset clears EN on the points of Fn, drops its deferred points, and aborts what other functions bound to
them (R83). -/
def ttFnReset (d : Dev) (n : Nat) : Dev :=
  ((d.tt.cps.filter (fun p => decide (p.2.owner = n) && p.2.en)).map (fun p => p.1)).foldl (fun d c =>
    let d1 := endBound d c stABORTED (fun f => f != n)
    disarm d1 c (cpEntry d1 c)) d

/-- The reset of function n begins: its points that are due on this very edge do not act, and record DOWN (R84). -/
def ttResetDue (d : Dev) (n : Nat) : Dev :=
  ((d.tt.cps.filter (fun p => decide (p.2.owner = n) && p.2.en && (cpRun d p.1).armed &&
    (waitsFor d p.1).any (fun g => decide (g.dt = d.dt)))).map (fun p => p.1)).foldl (fun d c =>
      setCp d c { firedEntry (cpEntry d c) 5 with en := true }) d

/-- A section reset (TT) clears the store and the comparators, and completes what was bound with ERR_DOWN; the device's own points are
gone until their users rebuild them (R83). DESIGN CHOICE (notes/assumptions/127): each master's TT_CP_SEL stays. -/
def ttClear (d : Dev) : Dev :=
  let d1 := ((d.tt.cps.map (fun p => p.1)).foldl (fun d c => endBound d c stERR_DOWN (fun _ => true)) d)
  let tt := { d1.tt with cps := [], run := [], cooling := 0, stage := [], convBusy := false, convRes := 0, ownLost := some d1.dt }
  showArmed { d1 with tt := tt }

/-- Do the points CP1008 to CP1011 stand (R83, R201): not from a reset of the Timetable to SECTION_RESET_DONE, or 1 ms at most? -/
def ownPoints (d : Dev) : Bool := d.tt.ownLost.all (fun t => decide (t + 1000000 ≤ d.dt))

/-! ### The commands -/

/-- DT_READ (R49). -/
def execDtRead (acc : Acc) (s : State) : Host.Outcome State Fault Refusal :=
  .next { s with dev := doDtRead acc s.dev }

/-- RPOS_READ (R50). -/
def execRposRead (acc : Acc) (p : Plat) (s : State) : Host.Outcome State Fault Refusal :=
  .next { s with dev := doRposRead acc p.val s.dev }

/-- CP_SEL_WRITE (R60). -/
def execCpSelWrite (acc : Acc) (v : Word) (s : State) : Host.Outcome State Fault Refusal :=
  .next { s with dev := doCpSelWrite acc v s.dev }

/-- CP_STAGE_WRITE (R60). -/
def execCpStageWrite (acc : Acc) (k : Fin 6) (v : Word) (s : State) : Host.Outcome State Fault Refusal :=
  .next { s with dev := doCpStageWrite acc k.val v s.dev }

/-- COMPARATOR_FREE (R63). -/
def execComparatorFree (s : State) : Host.Outcome State Fault Refusal :=
  .next { s with dev := doComparatorFree s.dev }

/-- FL_CTRL_WRITE (R71, R74). -/
def execFlCtrlWrite (acc : Acc) (p : Plat) (v : Word) (s : State) : Host.Outcome State Fault Refusal :=
  .next { s with dev := doFlCtrlWrite acc p.val v s.dev }

/-- FRAMELOCK_HOLDOVER (R74). -/
def execFramelockHoldover (p : Plat) (s : State) : Host.Outcome State Fault Refusal :=
  .next { s with dev := doFramelockHoldover p.val s.dev }

/-- FRAMELOCK_HOLDOVER_EXPIRE (R74). -/
def execFramelockHoldoverExpire (p : Plat) (s : State) : Host.Outcome State Fault Refusal :=
  .next { s with dev := doFramelockHoldoverExpire p.val s.dev }

/-- CONV_START (R514). -/
def execConvStart (acc : Acc) (v : Word) (s : State) : Host.Outcome State Fault Refusal :=
  .next { s with dev := doConvStart acc v s.dev }

/-- CONV_DONE (R514). -/
def execConvDone (s : State) : Host.Outcome State Fault Refusal :=
  .next { s with dev := doConvDone s.dev }

end Sys2Proof.Machine
end

