-- ==== Sys2Proof/Machine/Rings.lean ====
section
/-! DEFINITION. Rings, doorbells, fetch, fences and MSI-X moderation (R85 to R114, R515, R516). -/

namespace Sys2Proof.Machine

/-! ### Kicks (R92, R128, R416) -/

/-- Does function n exist (R22, R116)? -/
def fnExists (d : Dev) (n : Nat) : Bool := decide (n = 0) || (d.vfEnable && decide (n ≤ d.numVfs))

/-- A write to a kick register arrives (R12, R21, R92): HS_KICK for F0, VF_KICK of its page for a VF. True when it is
whole and the function is there. -/
def kickArrives (a : Acc) (n : Nat) (v : Word) (d : Dev) : Dev × Bool :=
  if n = 0 then
    let w := regWrite a HS_KICK v d
    match w.2 with
    | .done _ => (w.1, true)
    | _ => (w.1, false)
  else if !fnExists d n then (d, false)
  else if a.be ≠ 0xF then (logErr d ecPARTIAL_WRITE a.mid.toNat 0 v a.secure, false)
  else (d, true)

/-- A read of a ring's doorbell record is issued (R94). -/
def readDbr (d : Dev) (n r : Nat) : Dev :=
  emit (onRing d n r (fun x => { x with reading := true, again := false, tries := 0 }))
    (.hostRead n (ringSt d n r).entry.dbr 64)

/-- An ignored kick is counted in the ring's status word (R92, R96). -/
def ignoreKick (d : Dev) (n r : Nat) : Dev := onRing d n r (fun x => { x with ignored := sat (x.ignored + 1) 63 })

/-- Is the ring one that a banker fetches (R416): F0's MGT ring? -/
def bankerRing (d : Dev) (n r : Nat) : Bool := decide (n = 0) && decide ((ringSt d n r).entry.type = 5)

/-- A KICK of a ring, by a register, by POLL or by the device: one read, or one more after the read that is outstanding
(R92). A ring that is not ACTIVE counts it, those of a function that departs among them (R128); where fetch has stopped (R141, R447)
the read follows later. -/
def kickRing (d : Dev) (n r : Nat) : Dev :=
  let x := ringSt d n r
  if x.state ≠ .active ∨ (bankerLike d ∧ !bankerRing d n r) then ignoreKick d n r
  else if x.reading ∨ d.pm.cut.window ∨ (fnSt d n).qui.on ∨ fnState d n ≠ 1 then onRing d n r (fun y => { y with again := true })
  else readDbr d n r

/-- KICK (R92). -/
def doKick (a : Acc) (n r : Nat) (d : Dev) : Dev :=
  let w := kickArrives a n (BitVec.ofNat 32 r) d
  if w.2 then kickRing w.1 n r else w.1

/-! ### Reload (R86 to R90) -/

/-- The fields of a ring table entry (R86). -/
def ringEntryOf (ws : List Word) : RingEntry :=
  { type := bits (wd ws 0) 30 28, size := bits (wd ws 0) 27 24, vector := bits (wd ws 0) 21 16,
    arg := bits (wd ws 0) 15 0, base := wd64 ws 2, dbr := wd64 ws 4, cq := wd64 ws 6 }

/-- A reserved encoding, a nonzero reserved bit or a misaligned address in an entry (R86, R88). -/
def ringEntryBad (ws : List Word) : Bool :=
  let e := ringEntryOf ws
  decide (e.type ≥ 6) || decide (e.size ≥ 13) || bits (wd ws 0) 23 22 != 0 || wd ws 1 != 0 ||
  e.base % 4096 != 0 || e.dbr % 64 != 0 || e.cq % 4096 != 0 ||
  (List.range 8).any (fun k => wd ws (8 + k) != 0) ||
  (if e.type = 0 then decide (e.arg ≥ 256) else if e.type = 4 then e.cq != 0 else e.arg != 0)

/-- The permission checks of R88 on an entry with ENABLE = 1. -/
def ringEntryPerm (d : Dev) (n r : Nat) (e : RingEntry) : Bool :=
  let x := ringSt d n r
  let otherMgt := (List.range 32).any (fun k => k != r && decide ((ringSt d 0 k).entry.type = 5) &&
    decide ((ringSt d 0 k).state ≠ .disabled))
  (decide (e.type = 5) && (n != 0 || otherMgt)) || (d.heritage && (decide (e.type = 1) || decide (e.type = 2))) ||
  (decide (e.type = 0) && decide (e.arg ≥ ptCtxCount d n)) ||
  decide (e.vector ≥ ptVectors d n) ||
  decide (x.state = .stalled) ||
  (decide (x.state = .active) && decide ({ x.entry with vector := e.vector } ≠ e))

/-- A refused reload leaves the ring and posts RING_REFUSED (R88). -/
def refuseReload (d : Dev) (n r status : Nat) : Dev := postRing d n r 4 status 0

/-- A chain whose slots have not all been fetched, as one descriptor. -/
def cutChain (x : RingSt) : List Desc :=
  match x.part with
  | [] => []
  | p :: ps => [{ idx := p.1, words := p.2, chain := ps.map (fun y => y.2), mem := [], cp := none, seq := 0, stage := 0,
                  link := none }]

/-- Descriptors that were fetched and never start complete with a status and without effect (R90): the queue, and a chain not yet
whole. -/
def abortQueue (d : Dev) (n r status : Nat) : Dev :=
  let x := ringSt d n r
  (x.queue ++ cutChain x).foldl (fun d q => writeCompletion d n r q status 0 0 d.dt)
    (onRing d n r (fun y => { y with queue := [], part := [] }))

/-- What DRAINING ends at once with ABORTED (R90): what never started, then waiting WAITs, bound descriptors whose point has not
fired and commits not yet bound. -/
def drainRing (d : Dev) (n r : Nat) : Dev :=
  let x := ringSt d n r
  let d1 := abortQueue (onRing d n r (fun y => { y with state := .draining, reading := false, again := false })) n r stABORTED
  let d2 := if x.entry.type = 4 then rerouteHeld d1 n r else d1
  let mine (c : Commit) : Bool := match c.src with
    | .desc f k _ => decide (f = n) && decide (k = r)
    | _ => false
  let d3 := abortCommits d2 stABORTED mine
  let parked := ((ringSt d3 n r).live.filter (fun q => decide (opcodeOf q.words = 2) ||
    (q.cp.isSome && !isCommit d3 n r q.idx))).map (fun q => q.idx)
  drainDone (parked.foldl (fun d i => complete d n r i stABORTED) d3) n r

/-- A ring table entry is checked and acted on (R87, R88). -/
def takeEntry (d : Dev) (n r : Nat) (ws : List Word) : Dev :=
  let x := ringSt d n r
  let e := ringEntryOf ws
  let copy (d : Dev) : Dev := onFn (linkSend d 0x05 ([2 ^ 32 + 8, n, r] ++ ws.map (fun w => w.toNat))) n
    (fun y => { y with fcbCopy := SMap.set y.fcbCopy r ws })
  if !bit (wd ws 0) 31 then
    match x.state with
    | .disabled => copy d
    | .draining => refuseReload d n r stERR_PERM
    | _ => drainRing (copy d) n r
  else if ringEntryBad ws then refuseReload d n r stBAD_DESC
  else if x.state = .draining ∨ ringEntryPerm d n r e then refuseReload d n r stERR_PERM
  else if x.state = .active then onRing (copy d) n r (fun y => { y with entry := e })
  else onRing (copy d) n r (fun y => { (default : RingSt) with state := .active, entry := e, ignored := y.ignored,
                                                               lastStatus := y.lastStatus })

/-- RELOAD_RING (R87, R88): the entry that the FCB holds is read and taken. -/
def reloadEntry (d0 : Dev) (n r : Nat) (m : MemIn) : Dev :=
  let rr := memRead d0 n n (fcbAddr d0 n + 64 * r) 16 m
  match rr.2 with
  | .fault => refuseReload rr.1 n r stERR_FAULT
  | .ecc => refuseReload rr.1 n r stERR_ECC
  | .words ws => takeEntry rr.1 n r ws

/-- RELOAD_RING (R92). -/
def doReloadRing (a : Acc) (n r : Nat) (m : MemIn) (d : Dev) : Dev :=
  let w := kickArrives a n (BitVec.ofNat 32 (2 ^ 30 + r)) d
  if !w.2 then w.1
  else if fnState w.1 n = 0 ∨ fnState w.1 n = 2 ∨ (bankerLike w.1 ∧ n ≠ 0) then ignoreKick w.1 n r
  else reloadEntry w.1 n r m

/-! ### Moderation (R91, R110) -/

/-- An entry of the moderation table (R91). -/
def modOf (ws : List Word) (v : Nat) : ModEntry :=
  { holdoff := bits (wd ws (4 * v)) 31 16, count := bits (wd ws (4 * v)) 15 0,
    cp := if bit (wd ws (4 * v + 1)) 31 then some (bits (wd ws (4 * v + 1)) 9 0) else none }

/-- The first rule of R91 or R59 that a moderation table breaks, as a status. -/
def modsBad (d : Dev) (n : Nat) (ws : List Word) : Option Nat :=
  (List.range 64).findSome? (fun v =>
    let b := wd ws (4 * v + 1)
    if wd ws (4 * v + 2) ≠ 0 ∨ wd ws (4 * v + 3) ≠ 0 ∨ bits b 30 10 ≠ 0 then some stBAD_DESC
    else if !bit b 31 then none
    else match bindCheck d n b with
      | .bad st => some st
      | _ => none)

/-- A refused table leaves the settings and posts RING_REFUSED with ring 31 and flag bit 5 (R91). -/
def refuseMods (d : Dev) (n status : Nat) : Dev := postRing d n 31 4 status 32

/-- RELOAD_VECTORS (R91, R92): the whole moderation table is read and taken, or refused as a whole. DESIGN CHOICE
(notes/assumptions/130): a read of it that faults refuses it with ERR_FAULT, one with an uncorrectable error with ERR_ECC. -/
def doReloadVectors (a : Acc) (n : Nat) (m : MemIn) (d : Dev) : Dev :=
  let w := kickArrives a n (BitVec.ofNat 32 (2 ^ 31)) d
  if !w.2 then w.1
  else if fnState w.1 n = 0 ∨ fnState w.1 n = 2 then ignoreKick w.1 n 0
  else if bankerLike w.1 ∧ n ≠ 0 then w.1
  else
    let rr := memRead w.1 n n (fcbAddr w.1 n + 0x800) 256 m
    match rr.2 with
    | .fault => refuseMods rr.1 n stERR_FAULT
    | .ecc => refuseMods rr.1 n stERR_ECC
    | .words ws =>
      match modsBad rr.1 n ws with
      | some st => refuseMods rr.1 n st
      | none =>
        let t := (List.range 64).foldl (fun t v => SMap.set t v (modOf ws v)) []
        onFn (linkSend rr.1 0x05 ([2 ^ 32 + 9, n] ++ ws.map (fun w => w.toNat))) n (fun x => { x with mods := t })

/-- MSIX_HOLDOFF_EXPIRE (R110): HOLDOFF microseconds after the oldest pending report the message goes. -/
def doMsixHoldoffExpire (n v : Nat) (d : Dev) : Dev :=
  let x := SMap.get (fnSt d n).vecs v
  let h := (modEntry d n v).holdoff
  if x.pending = 0 ∨ h = 0 then d else sendMsi (advance (x.oldest + h * 1000) d) n v

/-! ### Doorbell records (R93 to R95, R109) -/

/-- The read is over; a kick that came meanwhile causes one more (R92). -/
def endRead (d : Dev) (n r : Nat) : Dev :=
  let x := ringSt d n r
  let d1 := onRing d n r (fun y => { y with reading := false, tries := 0 })
  if x.again ∧ x.state = .active then readDbr d1 n r else d1

/-- Room returns on an EVT ring: EVT_DROPPED first, then the held events in order (R109). -/
def spaceReturn : Nat → Dev → Nat → Nat → Dev
  | 0, d, _, _ => d
  | fuel + 1, d, n, r =>
    let x := ringSt d n r
    if x.state ≠ .active ∨ x.dead ∨ fnState d n ≠ 1 ∨ (fnSt d n).qui.on ∨
       (x.c + 2 ^ 32 - x.cci) % 2 ^ 32 ≥ 2 * ringN x then d
    else
      let next : Option (Ev × (RingSt → RingSt)) :=
        match dropEv x n r ((x.held.head?.map (fun e => e.dt)).getD x.dropDt), x.held with
        | e :: _, _ => some (e, fun y => { y with dropped := 0 })
        | [], [] => none
        | [], e :: es => some (e, fun y => { y with held := es })
      match next with
      | none => d
      | some (e, g) =>
        let w := memWrite (sendOut d n r (x.c % (2 * ringN x)) (eventBytes x e)) n n
          (x.entry.base + 32 * (x.c % (2 * ringN x))) (eventBytes x e)
        if w.2 then
          let d1 := emit w.1 (.event n r (x.c % (2 * ringN x)) e x.c)
          let d2 := onRing d1 n r (fun y => { g y with c := (y.c + 1) % 2 ^ 32 })
          spaceReturn fuel (report (count d2 (4 * n + 2)) n (vecOf d n r) false) n r
        else
          let d1 := onRing w.1 n r (fun y => { y with state := .stalled, dead := true, held := [], dropped := 0 })
          postList 33 d1 n (ringEv d n r 2 stERR_FAULT 0 :: ((g x).held ++ dropEv x n r x.dropDt))

/-- A protocol error of a doorbell record (R95). -/
def dbrOverrun (x : RingSt) (pi cci : Nat) : Bool :=
  if x.entry.type = 4 then decide ((x.c + 2 ^ 32 - cci) % 2 ^ 32 ≥ 2 ^ 31)
  else decide ((pi + 2 ^ 32 - cci) % 2 ^ 32 > ringN x) || decide ((pi + 2 ^ 32 - x.h) % 2 ^ 32 ≥ 2 ^ 31) ||
    decide ((x.c + 2 ^ 32 - cci) % 2 ^ 32 ≥ 2 ^ 31)

/-- How many descriptors the ring may fetch now (R95): while H < PI and H − CCI < N, in bursts of up to 8. -/
def fetchRoom (x : RingSt) : Nat :=
  min 8 (min ((x.pi + 2 ^ 32 - x.h) % 2 ^ 32) (ringN x - (x.h + 2 ^ 32 - x.cci) % 2 ^ 32))

/-- Does a CMT ring hold a chain for a platform on which its function is at the limit of 8 commits (R37)? It is fetched no further. -/
def commitHold (d : Dev) (n r : Nat) : Bool :=
  decide ((ringSt d n r).entry.type = 1) &&
  (ringSt d n r).queue.any (fun q => decide (opcodeOf q.words = 0x20) && commitLimit d n (bits (at4 q.words 0x10) 31 16))

/-- A fetch is issued when there is something to fetch (R95), and the limits of R37 leave room. -/
def issueFetch (d : Dev) (n r : Nat) : Dev :=
  let x := ringSt d n r
  if x.entry.type ≠ 4 ∧ fetchRoom x > 0 ∧ !commitHold d n r then
    emit d (.hostRead n (x.entry.base + 64 * (x.h % ringN x)) (64 * fetchRoom x))
  else d

/-- The fetch of CMT rings that were held at the limit of R37 in one state of the device and are not in another goes on. -/
def resumeFetch (d0 d : Dev) : Dev :=
  d.fns.foldl (fun d p => p.2.rings.foldl (fun d r =>
    if commitHold d0 p.1 r.1 ∧ r.2.state = .active then issueFetch d p.1 r.1 else d) d) d

/-- A ring that is stalled aborts a chain that was not wholly fetched (R515). -/
def stallFetch (d : Dev) (n r code status : Nat) : Dev :=
  (cutChain (ringSt d n r)).foldl (fun d q => writeCompletion d n r q stABORTED 0 0 d.dt)
    (onRing (stallRing d n r code status) n r (fun y => { y with part := [] }))

/-- DOORBELL_RECORD_ARRIVE (R94, R95): a torn record is read again up to three times, an old one ignored, a wrong one
stalls the ring; a good one moves PI and CCI. DESIGN CHOICE (notes/assumptions/128, 129): RING_OVERRUN and DBR_TORN carry status 0,
and an uncorrectable error stalls the ring as a fault does. -/
def doDoorbellRecordArrive (n r : Nat) (m : MemIn) (d0 : Dev) : Dev :=
  if !(ringSt d0 n r).reading ∨ (ringSt d0 n r).state ≠ .active then d0
  else
    let rr := memRead d0 n n (ringSt d0 n r).entry.dbr 16 m
    let d := rr.1
    let x := ringSt d n r
    match rr.2 with
    | .fault => stallFetch (onRing d n r (fun y => { y with reading := false, again := false })) n r 2 stERR_FAULT
    | .ecc => stallFetch (onRing d n r (fun y => { y with reading := false, again := false })) n r 2 stERR_ECC
    | .words ws =>
      let s := (wd ws 0).toNat
      if wd ws 0 ≠ wd ws 15 then
        if x.tries < 3 then onRing d n r (fun y => { y with tries := y.tries + 1 })
        else endRead (postRing d n r 3 0 0) n r
      else if x.seqSeen.any (fun s0 => seqOlder s s0) then endRead d n r
      else
        let pi := (wd ws 1).toNat
        let cci := (wd ws 2).toNat
        let d1 := onRing d n r (fun y => { y with seqSeen := some s })
        if dbrOverrun x pi cci then
          stallFetch (onRing d1 n r (fun y => { y with reading := false, again := false })) n r 1 0
        else if x.entry.type = 4 then
          endRead (spaceReturn 40 (onRing d1 n r (fun y => { y with cci := cci })) n r) n r
        else endRead (issueFetch (onRing d1 n r (fun y => { y with pi := pi, cci := cci })) n r) n r

/-- DBR_RETRY (R94): 1 µs after a torn record it is read again. -/
def doDbrRetry (n r : Nat) (d : Dev) : Dev :=
  let x := ringSt d n r
  if x.reading ∧ x.tries > 0 then emit (advance (d.dt + 1000) d) (.hostRead n x.entry.dbr 64) else d

/-! ### Fetch (R95, R99, R515) -/

/-- A slot joins a ring: it is a descriptor, or a slot of a chain (R99). -/
def pushSlot (d : Dev) (n r : Nat) (ws : List Word) (lk : Option Nat) (m : List MemIn) : Dev :=
  let x := ringSt d n r
  let part := x.part ++ [(x.h, ws)]
  let done := !chainOf ws || decide (part.length ≥ min 256 (ringN x))
  onRing d n r (fun y =>
    if done then
      { y with
        h := (y.h + 1) % 2 ^ 32
        part := []
        queue := y.queue ++ [{ idx := (part.headD (x.h, ws)).1, words := (part.headD (x.h, ws)).2,
                               chain := part.tail.map (fun p => p.2), mem := m, cp := none, seq := 0, stage := 0,
                               link := lk }] }
    else { y with h := (y.h + 1) % 2 ^ 32, part := part })

/-- A slot read whole counts as fetched; its DESC record goes to the banker (R405). -/
def fetchSlot (d : Dev) (n r : Nat) (ws : List Word) : Dev :=
  let lk := if mirroring d then some d.pair.seqOut else none
  pushSlot (linkSend (count d (4 * n)) 0x01 ([n, r, (ringSt d n r).h] ++ ws.map (fun w => w.toNat))) n r ws lk []

/-- The slots of a burst arrive one after another; the first that faults stalls the ring (R515). DESIGN CHOICE
(notes/assumptions/129): one with an uncorrectable error does too. -/
def fetchSlots : Nat → Dev → Nat → Nat → MemIn → Dev
  | 0, d, _, _, _ => d
  | k + 1, d, n, r, m =>
    let x := ringSt d n r
    let rr := memRead d n n (x.entry.base + 64 * (x.h % ringN x)) 16 m
    match rr.2 with
    | .fault => stallFetch rr.1 n r 2 stERR_FAULT
    | .ecc => stallFetch rr.1 n r 2 stERR_ECC
    | .words ws => fetchSlots k (fetchSlot rr.1 n r ws) n r { m with data := m.data.drop 16 }

/-- DESCRIPTOR_ARRIVE (R95): up to n descriptors of a burst arrive. -/
def doDescriptorArrive (n r k : Nat) (m : MemIn) (d : Dev) : Dev :=
  let x := ringSt d n r
  if x.state ≠ .active ∨ x.entry.type = 4 ∨ fnState d n ≠ 1 ∨ (fnSt d n).qui.on ∨ d.pm.cut.window ∨
     (bankerLike d ∧ !bankerRing d n r) ∨ d.pair.swapping ∨ jobHold d n r ∨ commitHold d n r then d
  else
    let d1 := fetchSlots (min k (fetchRoom x)) d n r m
    purgeRing (if (ringSt d1 n r).state = .active then issueFetch d1 n r else d1) n r

/-! ### NOP, SIGNAL, WAIT, CP_READ (R101 to R103) -/

/-- A body check as a status. -/
def bodyStatus (ok : Bool) : Option (Nat × Nat) := if ok then none else some (stBAD_DESC, 0)

/-- The body of a NOP is reserved whole (R97, R101). -/
def chkNop (_ : Dev) (_ _ : Nat) (q : Desc) : Option (Nat × Nat) := bodyStatus (bodyOk q.words [])

/-- SIGNAL names a fence, ADD and a value; WAIT a fence and a value (R102). -/
def chkSignal (_ : Dev) (_ _ : Nat) (q : Desc) : Option (Nat × Nat) :=
  bodyStatus (bodyOk q.words [(0x10, 0x10F), (0x18, full), (0x1C, full)])

def chkWait (_ : Dev) (_ _ : Nat) (q : Desc) : Option (Nat × Nat) :=
  bodyStatus (bodyOk q.words [(0x10, 0xF), (0x18, full), (0x1C, full)])

/-- NOP completes (R101). -/
def actNop (n r : Nat) (q : Desc) (d : Dev) : Dev := complete d n r q.idx stOK

def doNop (n r : Nat) (d : Dev) : Dev :=
  startDesc d n r 0x000 [] true chkNop actNop

/-- A started SIGNAL is not parked any more: it acts when its turn comes (R102). -/
def actSignal (n r : Nat) (q : Desc) (d : Dev) : Dev :=
  let d1 := onLive d n r q.idx (fun x => { x with cp := none })
  settle (liveCount d1 n + 1) d1 n

def doSignal (n r : Nat) (d : Dev) : Dev :=
  startDesc d n r 0x010 [] true chkSignal actSignal

/-- WAIT completes when its fence is high enough, at once or later (R102). -/
def actWait (n _r : Nat) (_ : Desc) (d : Dev) : Dev := settle (liveCount d n + 1) d n

def doWait (n r : Nat) (d : Dev) : Dev :=
  startDesc d n r 0x020 [] true chkWait actWait

/-- The checks of CP_READ (R103): the body, the alignment, the permission. -/
def chkCpRead (d : Dev) (n _r : Nat) (q : Desc) : Option (Nat × Nat) :=
  let c := bits (at4 q.words 0x10) 9 0
  if !bodyOk q.words [(0x10, 0x3FF), (0x18, full), (0x1C, full)] ∨ at8 q.words 0x18 % 32 ≠ 0 then some (stBAD_DESC, 0)
  else if !mayBind d n c then some (stERR_PERM, 0)
  else none

/-- CP_READ writes the entry before its completion (R103). -/
def actCpRead (n r : Nat) (q : Desc) (d : Dev) : Dev :=
  let w := memWrite d n n (at8 q.words 0x18) (wordBytes (cpWords (cpEntry d (bits (at4 q.words 0x10) 9 0))))
  complete w.1 n r q.idx (if w.2 then stOK else stERR_FAULT)

def doCpRead (n r : Nat) (d : Dev) : Dev := startDesc d n r 0x040 [] true chkCpRead actCpRead

/-! ### The commands -/

/-- KICK (R92). -/
def execKick (acc : Acc) (f : Fn) (r : Ring) (s : State) : Host.Outcome State Fault Refusal :=
  .next { s with dev := doKick acc f.val r.val s.dev }

/-- RELOAD_RING (R87, R88). -/
def execReloadRing (acc : Acc) (f : Fn) (r : Ring) (m : MemIn) (s : State) : Host.Outcome State Fault Refusal :=
  .next { s with dev := doReloadRing acc f.val r.val m s.dev }

/-- RELOAD_VECTORS (R91). -/
def execReloadVectors (acc : Acc) (f : Fn) (m : MemIn) (s : State) : Host.Outcome State Fault Refusal :=
  .next { s with dev := doReloadVectors acc f.val m s.dev }

/-- DOORBELL_RECORD_ARRIVE (R94). -/
def execDoorbellRecordArrive (f : Fn) (r : Ring) (m : MemIn) (s : State) : Host.Outcome State Fault Refusal :=
  .next { s with dev := doDoorbellRecordArrive f.val r.val m s.dev }

/-- DBR_RETRY (R94). -/
def execDbrRetry (f : Fn) (r : Ring) (s : State) : Host.Outcome State Fault Refusal :=
  .next { s with dev := doDbrRetry f.val r.val s.dev }

/-- DESCRIPTOR_ARRIVE (R95). -/
def execDescriptorArrive (f : Fn) (r : Ring) (n : Nat) (m : MemIn) (s : State) : Host.Outcome State Fault Refusal :=
  .next { s with dev := doDescriptorArrive f.val r.val n m s.dev }

/-- MSIX_HOLDOFF_EXPIRE (R110). -/
def execMsixHoldoffExpire (f : Fn) (v : Fin 64) (s : State) : Host.Outcome State Fault Refusal :=
  .next { s with dev := doMsixHoldoffExpire f.val v.val s.dev }

/-- NOP (R101). -/
def execNop (f : Fn) (r : Ring) (s : State) : Host.Outcome State Fault Refusal :=
  .next { s with dev := doNop f.val r.val s.dev }

/-- SIGNAL (R102). -/
def execSignal (f : Fn) (r : Ring) (s : State) : Host.Outcome State Fault Refusal :=
  .next { s with dev := doSignal f.val r.val s.dev }

/-- WAIT (R102). -/
def execWait (f : Fn) (r : Ring) (s : State) : Host.Outcome State Fault Refusal :=
  .next { s with dev := doWait f.val r.val s.dev }

/-- CP_READ (R103). -/
def execCpRead (f : Fn) (r : Ring) (s : State) : Host.Outcome State Fault Refusal :=
  .next { s with dev := doCpRead f.val r.val s.dev }

end Sys2Proof.Machine
end

