-- ==== Sys2Proof/Machine/Counters.lean ====
section
/-! DEFINITION. Row counters, snapshots, symbol ECC and the error log (R477 to R490). -/

namespace Sys2Proof.Machine

/-! ### Reading the counters (R477) -/

/-- The counters whose events no command shows: DMMU walks and hits, busy cycles, waves and pixels of a cluster, lane cycles,
bytes fetched, LP5X traffic, system-cache hits. They are free values (notes/assumptions/56). -/
def ctOpen (i : Nat) : Bool :=
  (decide (128 ≤ i) && decide (i < 162)) ||
  (decide (182 ≤ i) && decide (i < 262) && decide ((i - 182) % 4 ≠ 3)) ||
  (decide (266 ≤ i) && decide (i < 330) && decide ((i - 266) % 4 = 3)) || (decide (330 ≤ i) && decide (i < 394)) ||
  (decide (578 ≤ i) && decide (i < 610) && decide ((i - 578) % 4 ≠ 2)) || i == 618 || i == 619

/-- A shadow counter; the free ones stand as the freeze took them. -/
def ctShadow (d : Dev) (i : Nat) : Nat :=
  if ctOpen i then Config.freeNat (d.ctr.openBase + i) % 2 ^ 64 else SMap.get d.ctr.shadow i

/-- What CT_SEL shows: a counter or its shadow; indices from 640 on read zero. -/
def ctShown (d : Dev) : Nat :=
  let i := fg d CT_SEL CT_SEL_INDEX
  if i ≥ 640 then 0
  else if fb d CT_SEL CT_SEL_SHADOW then ctShadow d i
  else if ctOpen i then Config.freeNat d.freeCtr % 2 ^ 64
  else SMap.get d.ctr.now i

/-- A read of CT_VAL_LO: the low word, and the high word into the reader's latch (R49, R477). -/
def doCounterRead (a : Acc) (d0 : Dev) : Dev :=
  let sv := serveDomain d0 4
  if !reachesBar0 a ∨ !sv.2 then sv.1
  else
    let d := sv.1
    let d1 := { d with tt := { d.tt with ctHi := SMap.set d.tt.ctHi a.mid.toNat (ctShown d / 2 ^ 32) }, freeCtr := d.freeCtr + 1 }
    emit d1 (.readData a.mid.toNat CT_VAL_LO (maskBytes a.be (loWord (ctShown d))))

/-! ### Snapshots (R478 to R481) -/

/-- The last status of CT_SNAP_STAT. -/
def snapLast (d : Dev) (st : Nat) : Dev := fs d CT_SNAP_STAT CT_SNAP_STAT_LAST_STATUS st

/-- The SNAPSHOTs of a freeze all complete with one status. -/
def endSnaps (d : Dev) (jobs : List (Nat × Nat × Nat)) (st : Nat) : Dev :=
  jobs.foldl (fun d j => snapLast (complete d 0 j.1 j.2.1 st) st) d

/-- T of a freeze: 16 fabric cycles of 1.2 GHz after the edge, in whole ns. -/
def freezeDelay : Nat := 13

/-- A freeze (R478, R481): the counters go into the shadows, and the engine begins to write the block of its SNAPSHOTs. -/
def freeze (d : Dev) (cp : Nat) (jobs : List (Nat × Nat × Nat)) : Dev :=
  if !domUp d 4 then endSnaps d jobs stERR_DOWN
  else if d.ctr.busy then endSnaps d jobs stNO_RESOURCE
  else
    let t := d.dt + freezeDelay
    let busy := decide (jobs ≠ [])
    let c := { d.ctr with shadow := d.ctr.now, openBase := d.freeCtr, freezeDt := t, busy := busy, jobs := jobs, fromCp := cp }
    fs (wr64 { d with ctr := c, freeCtr := d.freeCtr + 640 } CT_FREEZE_DT_LO t) CT_SNAP_STAT CT_SNAP_STAT_BUSY busy.toNat

/-- The checks of SNAPSHOT (R479). -/
def chkSnapshot (d : Dev) (_n _r : Nat) (q : Desc) : Option (Nat × Nat) :=
  if !bodyOk q.words [(0x18, full), (0x1C, full)] ∨ at8 q.words 0x18 % 64 ≠ 0 ∨
     (boundTo q).any (fun c => decide ((cpEntry d c).action ≠ 6)) then some (stBAD_DESC, 0)
  else none

/-- An unbound SNAPSHOT freezes at its start (R478). -/
def actSnapshot (_n r : Nat) (q : Desc) (d : Dev) : Dev := freeze d 0xFFFF [(r, q.idx, at8 q.words 0x18)]

/-- SNAPSHOT (R479); a refused one leaves its status as the last. -/
def doSnapshot (n r : Nat) (d : Dev) : Dev :=
  let d1 := startDesc d n r 0x660 [] true chkSnapshot actSnapshot
  match (ringSt d n r).queue with
  | [] => d1
  | q :: _ =>
    if descKey (ringSt d n r).entry.type q.words = some 0x660 ∧ canStart d n r q then
      match descRefusal d n r q chkSnapshot with
      | some (st, _) => snapLast d1 st
      | none => d1
    else d1

/-- The block of R480 up to its commit word. -/
def snapBody (d : Dev) (seq : Nat) : List Byte :=
  leBytes 4 0x524F5753 ++ leBytes 4 640 ++ leBytes 8 d.ctr.freezeDt ++ leBytes 4 seq ++ leBytes 4 d.ctr.fromCp ++
  List.replicate 40 0 ++ (List.range 640).flatMap (fun i => leBytes 8 (ctShadow d i))

/-- The tail of the block: the commit word and zeros. -/
def snapTail : List Byte := leBytes 4 0xC0DE5EA1 ++ List.replicate 60 0

/-- One SNAPSHOT's block is written and it completes (R479 to R481). -/
def writeSnap (d : Dev) (seq : Nat) (j : Nat × Nat × Nat) : Dev :=
  let w := memWritePages 4 d 0 0 j.2.2 (snapBody d seq)
  let w2 := if w.2 then memWritePages 2 w.1 0 0 (j.2.2 + 0x1440) snapTail else w
  let st := if w2.2 then stOK else stERR_FAULT
  snapLast (complete w2.1 0 j.1 j.2.1 st seq w2.1.ctr.freezeDt) st

/-- SNAPSHOT_DONE (R479, R480): from T on, every destination receives the block, in acceptance order. -/
def doSnapshotDone (d : Dev) : Dev :=
  if !d.ctr.busy then d
  else
    let d := advance d.ctr.freezeDt d
    let seq := (d.ctr.seq + 1) % 2 ^ 32
    let d1 := d.ctr.jobs.foldl (fun d j => writeSnap d seq j) d
    let d2 := { d1 with ctr := { d1.ctr with busy := false, jobs := [], seq := seq } }
    fs (fs d2 CT_SNAP_STAT CT_SNAP_STAT_BUSY 0) CT_SNAP_STAT CT_SNAP_STAT_SEQ (seq % 65536)

/-! ### Symbol ECC (R482 to R484, R490) -/

/-- The source code of R490. -/
def eccCode (src : EccSource) : Nat :=
  match src with
  | .dram => 0
  | .skein => 1
  | .sysCache => 2

/-- The LP5X channel of a DRAM address (R482). -/
def channelOf (addr : Nat) : Nat := addr / 256 % 8

/-- The channel that a report carries: zero for the on-chip memories. -/
def eccChannel (src : EccSource) (addr : Nat) : Nat := if src = .dram then channelOf addr else 0

/-- Does an error address lie in a secure range: DRAM, which the system cache holds too, or Skein below its watermark (R381)? -/
def eccSecure (d : Dev) (src : EccSource) (addr : Nat) : Bool :=
  match src with
  | .dram => decide (addr < dramSecureTop d)
  | .skein => decide (addr < fg d SK_SEC_WM SK_SEC_WM_WM * 4096)
  | .sysCache => decide (addr < dramSecureTop d)

/-- The error registers of a source count one more, corrected or not, and keep the address (R483). -/
def eccRegs (d : Dev) (src : EccSource) (addr : Nat) (ue : Bool) : Dev :=
  match src with
  | .dram =>
    let c := channelOf addr
    let d1 := bump d (MC_ECC_CH c) (if ue then MC_ECC_CH_UE else MC_ECC_CH_CE)
    wr (wr d1 (MC_ECC_CH_ALO c) (loWord addr)) (MC_ECC_CH_AHI c) (hiWord addr)
  | .skein => bump d MC_ECC_SRAM (if ue then MC_ECC_SRAM_SK_UE else MC_ECC_SRAM_SK_CE)
  | .sysCache => bump d MC_ECC_SRAM (if ue then MC_ECC_SRAM_SC_UE else MC_ECC_SRAM_SC_CE)

/-- A corrected error of a memory (R483): counted per source, and ECC_CE_RATE once in a second that exceeds CE_THR. -/
def memCorrected (src : EccSource) (addr : Nat) (d : Dev) : Dev :=
  let c := eccChannel src addr
  let key := 16 * eccCode src + c
  let sec := d.dt / 10 ^ 9
  let r := SMap.get d.ctr.ceRun key
  let n := if r.1 = sec then r.2 + 1 else 1
  let d1 := eccRegs { d with ctr := { d.ctr with ceRun := SMap.set d.ctr.ceRun key (sec, n) } } src addr false
  let d2 := if src = .dram then count d1 (578 + 4 * c + 2) else d1
  let thr := fg d MC_ECC_CFG MC_ECC_CFG_CE_THR
  if thr ≠ 0 ∧ n = thr + 1 then post d2 0 clERROR 3 0 (pb 0 (eccCode src) + pb 1 c + pw32 4 n) else d2

/-- A corrected error inside a cluster (R167): GX_TM_ECC counts it and names the cluster. -/
def clusterCorrected (k : Nat) (d : Dev) : Dev := fs (bump d GX_TM_ECC GX_TM_ECC_CORRECTED) GX_TM_ECC GX_TM_ECC_CLUSTER k

/-- ECC_CORRECTED (R167, R483). -/
def doEccCorrected (src : CeSource) (addr : Nat) (d : Dev) : Dev :=
  match src with
  | .memory m => memCorrected m addr d
  | .cluster k => clusterCorrected k.val d

/-- An uncorrectable error is logged and F0 hears of it (R483, R490). -/
def eccUe (d : Dev) (src : EccSource) (addr mid : Nat) : Dev :=
  let sec := eccSecure d src addr
  let d1 := logErr (eccRegs d src addr true) ecECC_UE mid addr 0 sec
  post d1 0 clERROR 2 mid
    (pb 0 (eccCode src) + pb 1 (eccChannel src addr) + pw64 4 (if sec then 0 else addr))

/-- ECC_UNCORRECTABLE (R483): a write of less than a line stores the line with its code deliberately invalid. -/
def doEccUncorrectable (src : EccSource) (addr mid : Nat) (partialWrite : Bool) (d : Dev) : Dev :=
  let d1 := eccUe d src addr mid
  if partialWrite ∧ src = .dram ∧ addr < dramSize d then
    { d1 with err := { d1.err with badLines := SMap.set d1.err.badLines (addr / 64) true } }
  else d1

/-- PATROL_SCRUB (R484): the next DRAM line is read, and reported with requester 0xFF when its code is invalid; a pass ends
at the last line. DRAM in self-refresh is not read. What the patrol corrects in the on-chip memories no reader sees. -/
def doPatrolScrub (src : EccSource) (d : Dev) : Dev :=
  if src ≠ .dram ∨ domState d 5 ≥ 3 then d
  else
    let a := d.err.patrol
    let d1 := if SMap.get d.err.badLines a then eccUe d .dram (64 * a) 0xFF else d
    if 64 * (a + 1) ≥ dramSize d then
      fs { d1 with err := { d1.err with patrol := 0 } } MC_SCRUB_STAT MC_SCRUB_STAT_PASSES
        (fg d1 MC_SCRUB_STAT MC_SCRUB_STAT_PASSES + 1)
    else { d1 with err := { d1.err with patrol := a + 1 } }

/-- ERR_LOGGED (R485): the records since the last one are reported, 1 ms after it at the soonest. -/
def doErrLogged (d : Dev) : Dev :=
  if d.err.unreported = 0 ∨ !fb d ER_CTRL ER_CTRL_EVT_EN then d
  else
    let d1 := match d.err.lastPost with
      | some t => advance (t + 10 ^ 6) d
      | none => d
    post { d1 with err := { d1.err with unreported := 0, lastPost := some d1.dt } } 0 clERROR 1 0
      (pw32 4 d.err.unreported)

/-- What a record of the error log shows to a reader (R485, R486). -/
def errWord (d : Dev) (secure : Bool) (j : Nat) : Word :=
  match (d.err.recs.drop (fg d ER_SEL ER_SEL_INDEX)).head? with
  | none => 0
  | some e =>
    let hide := e.secure && !secure
    let addr := if hide then 0 else e.addr
    match j with
    | 0 => BitVec.ofNat 32 (e.cause * 2 ^ 24 + (if hide then 0 else e.mid) * 2 ^ 16 + e.count)
    | 1 => loWord addr
    | 2 => hiWord addr
    | 3 => if hide then 0 else e.data
    | 4 => loWord e.dt
    | 5 => hiWord e.dt
    | 6 => BitVec.ofNat 32 e.seq
    | _ => 0

/-! ### The commands -/

/-- SNAPSHOT (R479). -/
def execSnapshot (f : Fn) (r : Ring) (s : State) : Host.Outcome State Fault Refusal :=
  .next { s with dev := doSnapshot f.val r.val s.dev }

/-- SNAPSHOT_DONE (R480). -/
def execSnapshotDone (s : State) : Host.Outcome State Fault Refusal :=
  .next { s with dev := doSnapshotDone s.dev }

/-- COUNTER_READ (R477). -/
def execCounterRead (acc : Acc) (s : State) : Host.Outcome State Fault Refusal :=
  .next { s with dev := doCounterRead acc s.dev }

/-- ECC_CORRECTED (R483). -/
def execEccCorrected (src : CeSource) (addr : Nat) (s : State) : Host.Outcome State Fault Refusal :=
  .next { s with dev := doEccCorrected src addr s.dev }

/-- ECC_UNCORRECTABLE (R483). -/
def execEccUncorrectable (src : EccSource) (addr : Nat) (mid : Mid) (partialWrite : Bool) (s : State) :
    Host.Outcome State Fault Refusal :=
  .next { s with dev := doEccUncorrectable src addr mid.toNat partialWrite s.dev }

/-- PATROL_SCRUB (R484). -/
def execPatrolScrub (src : EccSource) (s : State) : Host.Outcome State Fault Refusal :=
  .next { s with dev := doPatrolScrub src s.dev }

/-- ERR_LOGGED (R485). -/
def execErrLogged (s : State) : Host.Outcome State Fault Refusal :=
  .next { s with dev := doErrLogged s.dev }

end Sys2Proof.Machine
end

