-- ==== Sys2Proof/Machine/Lbc.lean ====
section
/-! DEFINITION. The LBC lossless compressed surface format (R168, R170 to R173): formats, block states, the writer and the
reader of one block. A pixel is the number its bytes hold, little-endian. -/

namespace Sys2Proof.Machine

/-- The channel widths of a format, from the least significant bit (R168); none for a reserved, planar or uncompressible
code. -/
def fmtChans (f : Nat) : Option (List Nat) :=
  match f with
  | 0x01 => some [5, 6, 5]
  | 0x02 => some [4, 4, 4, 4]
  | 0x03 => some [5, 5, 5, 1]
  | 0x04 => some [8, 8, 8]
  | 0x05 => some [8, 8, 8, 8]
  | 0x06 => some [8, 8, 8, 8]
  | 0x07 => some [10, 10, 10, 2]
  | 0x08 => some [16, 16, 16, 16]
  | 0x20 => some [16]
  | 0x21 => some [24, 8]
  | 0x22 => some [32]
  | _ => none

/-- The bytes per pixel of a format (R168); zero for a code that is reserved or planar. -/
def fmtBytes (f : Nat) : Nat :=
  match f with
  | 0x01 => 2
  | 0x02 => 2
  | 0x03 => 2
  | 0x04 => 3
  | 0x05 => 4
  | 0x06 => 4
  | 0x07 => 4
  | 0x08 => 8
  | 0x20 => 2
  | 0x21 => 4
  | 0x22 => 4
  | 0x23 => 5
  | _ => 0

/-- Is a format a colour format of the raster path? -/
def fmtColour (f : Nat) : Bool := decide (1 ≤ f) && decide (f ≤ 8)

/-- Is a format a depth format? -/
def fmtDepth (f : Nat) : Bool := decide (0x20 ≤ f) && decide (f ≤ 0x23)

/-- Is a format planar? -/
def fmtPlanar (f : Nat) : Bool := decide (0x10 ≤ f) && decide (f ≤ 0x12)

/-- The channels of a pixel, by their widths. -/
def chansOf : List Nat → Nat → List Nat
  | [], _ => []
  | b :: bs, p => p % 2 ^ b :: chansOf bs (p / 2 ^ b)

/-- The pixel of its channels. -/
def pixelOf : List Nat → List Nat → Nat
  | b :: bs, c :: cs => c % 2 ^ b + 2 ^ b * pixelOf bs cs
  | _, _ => 0

/-- The prediction of position i of a block from the values before it (R172): the left neighbour, or the one above. -/
def predict (vals : List Nat) (i : Nat) : Nat :=
  if i = 0 then 0 else if i % 8 = 0 then vals.getD (i - 8) 0 else vals.getD (i - 1) 0

/-- The 64 positions of a block with every one outside the surface at its prediction (R173). -/
def fillBlock (px : List (Option Nat)) : List Nat :=
  (List.range 64).foldl (fun vals i => vals ++ [((px.getD i none)).getD (predict vals i)]) []

/-- The residuals of a channel, modulo 2^b (R172). -/
def residuals (b : Nat) (vals : List Nat) : List Nat :=
  (List.range 63).map (fun i => (vals.getD (i + 1) 0 + 2 ^ b - predict vals (i + 1)) % 2 ^ b)

/-- Does a residual fit in w signed bits? -/
def residFits (b w r : Nat) : Bool :=
  if w = 0 then decide (r = 0) else decide (r < 2 ^ (w - 1)) || decide (2 ^ b ≤ r + 2 ^ (w - 1))

/-- The smallest width in which all residuals fit (R173). -/
def residWidth (b : Nat) (rs : List Nat) : Nat :=
  ((List.range (b + 1)).find? (fun w => rs.all (residFits b w))).getD b

/-- Fields packed from bit 0 upward, each a width and a value. -/
def packBits : List (Nat × Nat) → Nat
  | [] => 0
  | (w, v) :: fs => v % 2 ^ w + 2 ^ w * packBits fs

/-- The fields of one channel of a compressed block (R172). -/
def chanFields (b : Nat) (vals : List Nat) : List (Nat × Nat) :=
  let rs := residuals b vals
  let w := residWidth b rs
  (6, w) :: (b, vals.getD 0 0) :: rs.map (fun r => (w, r))

/-- The fields of a compressed block, channel after channel. -/
def blockFields (chans : List Nat) (px : List Nat) : List (Nat × Nat) :=
  (List.range chans.length).flatMap (fun c =>
    chanFields (chans.getD c 0) (px.map (fun p => (chansOf chans p).getD c 0)))

/-- The bits of a list of fields. -/
def fieldBits (fs : List (Nat × Nat)) : Nat := (fs.map (fun f => f.1)).sum

/-- The state of a block and the bytes that its writer stores in the slot (R171, R173): `px` holds the pixels in the
surface, none outside it; `clear` is CLEAR_VALUE when CLEAR_VALID = 1. -/
def lbcEncode (fmt : Nat) (clear : Option Nat) (px : List (Option Nat)) : Nat × List Byte :=
  let n := fmtBytes fmt
  let inside := px.filterMap id
  let first := inside.headD 0
  if clear.isSome && inside.all (fun p => decide (some p = clear)) then (0, [])
  else if inside.all (fun p => p == first) then (1, leBytes n first)
  else
    let vals := fillBlock px
    let fs := blockFields ((fmtChans fmt).getD []) vals
    let u := cdiv (fieldBits fs) 512
    if u ≤ 4 ∧ 64 * u < 64 * n then (u + 1, leBytes (64 * u) (packBits fs))
    else (6, vals.flatMap (leBytes n))

/-- The values of a channel from its bits: the width, the base, the residuals (R172). The answer holds what is left. -/
def decodeChan (b : Nat) (bits : Nat) : List Nat × Nat :=
  let w := bits % 64
  let base := bits / 64 % 2 ^ b
  let rest := bits / 64 / 2 ^ b
  (List.range 63).foldl (fun (acc : List Nat × Nat) i =>
    let r := acc.2 % 2 ^ w
    let s := if w = 0 ∨ r < 2 ^ (w - 1) then r else r + 2 ^ b - 2 ^ w
    (acc.1 ++ [(predict acc.1 (i + 1) + s) % 2 ^ b], acc.2 / 2 ^ w)) ([base], rest)

/-- The channels of a compressed block, one list of 64 values each. -/
def decodeChans : List Nat → Nat → List (List Nat)
  | [], _ => []
  | b :: bs, x => (decodeChan b x).1 :: decodeChans bs (decodeChan b x).2

/-- The 64 pixels of a block from its state and its slot (R171); a reserved state reads as zeros. -/
def lbcDecode (fmt clear state : Nat) (slot : List Byte) : List Nat :=
  let n := fmtBytes fmt
  if state = 0 then List.replicate 64 clear
  else if state = 1 then List.replicate 64 (leNat (slot.take n))
  else if 2 ≤ state ∧ state ≤ 5 then
    let chans := (fmtChans fmt).getD []
    let vs := decodeChans chans (leNat (slot.take (64 * (state - 1))))
    (List.range 64).map (fun i => pixelOf chans (vs.map (fun v => v.getD i 0)))
  else if state = 6 then (List.range 64).map (fun i => leNat ((slot.drop (n * i)).take n))
  else List.replicate 64 0

/-- Blocks across a surface. -/
def lbcAcross (w : Nat) : Nat := cdiv w 8

/-- The blocks of a surface. -/
def lbcBlocks (w h : Nat) : Nat := cdiv w 8 * cdiv h 8

end Sys2Proof.Machine
end

