-- ==== Sys2Proof/Machine/StoreRecs.lean ====
section
/-! DEFINITION. The records of the persistent parameter store (R449 to R451), which several units write. -/

namespace Sys2Proof.Machine

/-! ### The records -/

/-- Bytes that a record of this payload length takes: header, padded payload, CRC and commit word (R449). -/
def recBytes (len : Nat) : Nat := 24 + cdiv len 4 * 4

/-- Is a a later existing record of the same type and key than b? -/
def newerRec (a b : StoreRec) : Bool := decide (a.type = b.type) && decide (a.key = b.key) && decide (b.seq < a.seq)

/-- The existing records that no later one replaces, deletions among them. -/
def topRecs (d : Dev) : List StoreRec := d.pm.store.filter (fun r => d.pm.store.all (fun o => !newerRec o r))

/-- The current record of a type and key (R449). -/
def currentRec (d : Dev) (type key : Nat) : Option StoreRec :=
  (topRecs d).find? (fun r => decide (r.type = type) && decide (r.key = key) && !r.deleted)

/-- The erased sectors: no record in them, not the header, not the one that is written. -/
def erasedSectors (d : Dev) : List Nat :=
  (List.range d.pm.storeSectors).filter (fun k => decide (0 < k) && decide (k ≠ d.pm.storeHead) &&
    d.pm.store.all (fun r => decide (r.sector ≠ k)))

/-- The next erased sector after the one that is written, going round. -/
def nextSector (d : Dev) : Option Nat :=
  let e := erasedSectors d
  match e.find? (fun k => decide (d.pm.storeHead < k)) with
  | some k => some k
  | none => e.head?

/-- PM_STORE_STAT shows what runs and what is free. -/
def showStore (d : Dev) : Dev :=
  fs (fs d PM_STORE_STAT PM_STORE_STAT_BUSY (decide (d.pm.storeJobs ≠ [])).toNat) PM_STORE_STAT PM_STORE_STAT_FREE
    (erasedSectors d).length

/-- The place for a record of n bytes, as the device with the head moved; none when no sector has room. -/
def storeRoom (d : Dev) (n : Nat) : Option Dev :=
  if d.pm.storePos + n ≤ 65536 then some d
  else (nextSector d).map (fun k => { d with pm := { d.pm with storeHead := k, storePos := 16 } })

/-- After the boot scan writing continues in a fresh sector (R450); where none is erased, the next one that is. -/
def freshSector (d : Dev) : Dev :=
  if d.pm.storePos ≤ 16 then d
  else
    match nextSector d with
    | some k => { d with pm := { d.pm with storeHead := k, storePos := 16 } }
    | none => { d with pm := { d.pm with storePos := 65536 } }

/-- A record is appended at the head (its SEQ kept); none when there is no room. -/
def appendRec (d : Dev) (r : StoreRec) : Option Dev :=
  (storeRoom d (recBytes r.len)).map (fun d =>
    { d with pm := { d.pm with store := d.pm.store ++ [{ r with sector := d.pm.storeHead }]
                               storePos := d.pm.storePos + recBytes r.len } })

/-- A write is asked for; it reaches its commit word with STORE_WRITE_DONE. -/
def storeWrite (d : Dev) (type key : Nat) (payload : List Word) (len : Nat) (deleted : Bool)
    (waiter : Option (Nat × Nat × Nat)) : Dev :=
  let r : StoreRec := { type := type, key := key, seq := 0, dt := d.dt / 65536 % 2 ^ 32, payload := payload, len := len,
                        deleted := deleted, sector := 0 }
  showStore { d with pm := { d.pm with storeJobs := d.pm.storeJobs ++ [{ item := r, waiter := waiter }] } }

/-- A record is written at once: the ROM does so before it goes on (R442). -/
def storeNow (d : Dev) (type key : Nat) (payload : List Word) : Dev :=
  let r : StoreRec := { type := type, key := key, seq := d.pm.storeSeq, dt := d.dt / 65536 % 2 ^ 32, payload := payload,
                        len := 4 * payload.length, deleted := false, sector := 0 }
  match appendRec d r with
  | some d1 => showStore { d1 with pm := { d1.pm with storeSeq := d1.pm.storeSeq + 1 } }
  | none => d

end Sys2Proof.Machine
end

