-- ==== Sys2Proof/Machine/Gpu.lean ====
section
/-! DEFINITION. The raster section's contexts, jobs and scheduler (R145 to R153, R160, R176 to R203): which job holds which
logical slot, how the line is cleared, how a job ends, and what happens when a cluster dies. -/

namespace Sys2Proof.Machine

/-! ### Contexts, slots and the jobs of the rings -/

def gctx (d : Dev) (c : Nat) : GpuCtx := SMap.get d.gpu.ctxs c

def onCtx (d : Dev) (c : Nat) (g : GpuCtx → GpuCtx) : Dev :=
  { d with gpu := { d.gpu with ctxs := SMap.mod d.gpu.ctxs c g } }

def onJob (d : Dev) (c : Nat) (g : JobRun → JobRun) : Dev := onCtx d c (fun x => { x with job := x.job.map g })

def gslot (d : Dev) (s : Nat) : SlotRun := SMap.get d.gpu.slots s

def onSlot (d : Dev) (s : Nat) (g : SlotRun → SlotRun) : Dev :=
  { d with gpu := { d.gpu with slots := SMap.mod d.gpu.slots s g } }

/-- The device context that a GFX ring names (R86, R118). -/
def ctxOfRing (d : Dev) (f r : Nat) : Nat := ptCtxBase d f + (ringSt d f r).entry.arg

/-- The jobs accepted and not completed (R184). -/
def jobsAll (d : Dev) : Nat := (d.fns.map (fun p => jobsOf d p.1)).sum

/-- What a context works off in acceptance order (R145, R147, R160): its jobs, and the CTX_SETUPs and TILE_POOLs that wait
for earlier jobs. -/
def ctxItems (d : Dev) (c : Nat) : List (Nat × Nat × Desc) :=
  (allLive d).filter (fun x =>
    decide ((ringSt d x.1 x.2.1).entry.type = 0) && decide (ctxOfRing d x.1 x.2.1 = c) &&
    (isJob x.2.2 || ((decide (opcodeOf x.2.2.words = 0x11) || decide (opcodeOf x.2.2.words = 0x14)) && x.2.2.cp.isNone)))

/-- The jobs of a context accepted and not started. -/
def ctxQueued (d : Dev) (c : Nat) : Nat :=
  ((ctxItems d c).filter (fun x => isJob x.2.2)).length - (gctx d c).job.isSome.toNat

/-- What GX_CTX_STAT_n shows (R146). -/
def ctxWord (d : Dev) (c : Nat) : Word :=
  let x := gctx d c
  BitVec.ofNat 32 (x.state * 2 ^ 30 + x.express.toNat * 2 ^ 29 + (decide (x.pool.pages ≠ 0)).toNat * 2 ^ 28 +
    (decide (x.siding.pages ≠ 0)).toNat * 2 ^ 27 + (decide (x.scratch.pages ≠ 0)).toNat * 2 ^ 26 +
    x.owner % 256 * 2 ^ 16 + ctxQueued d c % 512)

/-! ### Slots and clusters (R177, R178, R192) -/

/-- The slots that the mode allows (R178). -/
def modeSlots (d : Dev) : Nat :=
  if modeOf d = mSTP then 0xFF
  else if modeOf d = mCAU then
    (if fb d SF_CAUTION SF_CAUTION_GPU then 0xF * 16 ^ fg d SF_CAUTION SF_CAUTION_GROUP else 0)
  else 0xFFFF

/-- The slots that the mode allows, less those that the power cap took away (R433). -/
def slotMask (d : Dev) : Nat := modeSlots d - (modeSlots d &&& d.pm.removed)

/-- The field of GX_CLMAP_g for slot i of its group. -/
def clmapFld (i : Nat) : Fld := (3 * i + 2, 3 * i)

/-- The physical cluster that fills a slot (R177). -/
def slotCluster (d : Dev) (s : Nat) : Option Nat :=
  let o := fg d (GX_CLMAP (s / 4)) (clmapFld (s % 4))
  if o ≤ 4 then some (5 * (s / 4) + o) else none

/-- The state of a physical cluster: 0 ACTIVE, 1 SPARE, 2 RETIRED, 3 BIST (R200). -/
def clState (d : Dev) (k : Nat) : Nat := fg d (GX_CL_STAT k) GX_CL_STAT_STATE

/-- Can a slot run waves: a cluster is ACTIVE there, and its domains are up? -/
def slotUp (d : Dev) (s : Nat) : Bool :=
  (slotCluster d s).any (fun k => decide (clState d k = 0)) && domUp d 7 && domUp d (8 + s / 4)

/-- The cluster groups of a function's time partition, its first line and its length (R118). -/
def ptTpGroups (d : Dev) (n : Nat) : Nat := bits (ptWord d n 12) 19 16

def ptTpStart (d : Dev) (n : Nat) : Nat := bits (ptWord d n 11) 15 0

def ptTpLen (d : Dev) (n : Nat) : Nat := bits (ptWord d n 11) 31 16

/-- Do fixed time partitions hold (R136)? -/
def tpActive (d : Dev) : Bool := fb d HS_TP_CTRL HS_TP_CTRL_EN && (modeOf d == mICY || modeOf d == mFRT)

/-- May work of function f run on a slot under the time partitions (R136, R192)? -/
def tpAllows (d : Dev) (f s : Nat) : Bool :=
  !tpActive d ||
  ((!ptTimePart d f || (d.gpu.windows.contains f && hasBit (ptTpGroups d f) (s / 4))) &&
   d.gpu.windows.all (fun w => decide (w = f) || !hasBit (ptTpGroups d w) (s / 4)))

/-- The Express reserve of the mode (R185). -/
def reserveMask (d : Dev) : Nat :=
  if modeOf d = mEXP then fg d GX_EXP_CTRL GX_EXP_CTRL_RES_EXP
  else if modeOf d = mHER ∨ modeOf d = mCAU then 0
  else fg d GX_EXP_CTRL GX_EXP_CTRL_RES_OTHER

/-- The spread of a context (R179). -/
def spreadOf (x : GpuCtx) : Nat := min 16 ((x.saveSize - 4096) / 856064)

/-- The slots that a context holds, rising. -/
def slotsHeld (d : Dev) (c : Nat) : List Nat := (List.range 16).filter (fun s => decide ((gslot d s).ctx = some c))

/-- Does the mode allow work of a context on a slot (R178, R398)? -/
def modeAllows (d : Dev) (c s : Nat) : Bool :=
  hasBit (slotMask d) s && (decide (modeOf d ≠ mCAU) || hasBit (rd d SF_CAU_FN).toNat (gctx d c).owner)

/-- May a context use a slot, were it free (R178, R181, R185, R186, R192, R398)? -/
def slotFits (d : Dev) (c s : Nat) : Bool :=
  let x := gctx d c
  modeAllows d c s && slotUp d s && tpAllows d x.owner s && (!hasBit (reserveMask d) s || x.express) &&
  (x.express || !d.gpu.clears.any (fun p => hasBit p.2 s))

/-- May a context take a slot now? -/
def slotTakes (d : Dev) (c s : Nat) : Bool := (gslot d s).ctx.isNone && slotFits d c s

/-- The master identity under which a context's work makes its accesses: its first cluster, or the front end. -/
def jobMid (d : Dev) (c : Nat) : Nat :=
  match (slotsHeld d c).head?.bind (slotCluster d) with
  | some k => 0x30 + k
  | none => midRASTER

/-! ### Charges (R183) -/

/-- Is a context charged now: it has a budget, and inside fixed time partitions its window is open (R183, R192)? -/
def charges (d : Dev) (c : Nat) : Bool :=
  let x := gctx d c
  decide (x.budget ≠ 0) && (!tpActive d || !ptTimePart d x.owner || d.gpu.windows.contains x.owner)

/-- The time that a context's slots are held joins its charge. -/
def chargeCtx (d : Dev) (c : Nat) : Dev :=
  (slotsHeld d c).foldl (fun d s =>
    let n := if charges d c then d.dt - (gslot d s).since else 0
    onSlot (onCtx d c (fun x => { x with charge := x.charge + n })) s (fun y => { y with since := d.dt })) d

/-- The charge of every context is brought up to now, before what is charged changes. -/
def chargeAll (d : Dev) : Dev := (d.gpu.ctxs.map (fun q => q.1)).foldl chargeCtx d

/-- A context gives up a slot; a save that still runs there goes on. -/
def dropSlot (d : Dev) (s : Nat) : Dev :=
  match (gslot d s).ctx with
  | none => d
  | some c => onSlot (chargeCtx d c) s (fun y => { (default : SlotRun) with tail := y.tail })

/-- A context gives up all its slots. -/
def dropSlots (d : Dev) (c : Nat) : Dev := (slotsHeld d c).foldl dropSlot d

/-- A slot is given up by preemption: without a slot left, the job is PREEMPTED (R146). -/
def preemptSlot (d : Dev) (s : Nat) : Dev :=
  match (gslot d s).ctx with
  | none => d
  | some c =>
    let d1 := dropSlot d s
    if slotsHeld d1 c = [] ∧ (gctx d1 c).job.isSome then onCtx d1 c (fun x => { x with state := 3 }) else d1

/-! ### Events (R165, R203) -/

/-- A RASTER event about a job goes to the function that owns it. -/
def jobEvent (d : Dev) (c code v : Nat) : Dev :=
  match (gctx d c).job with
  | none => d
  | some j =>
    let tag := ((liveDesc d j.f j.r j.idx).map (fun q => tagOf q.words)).getD 0
    post d j.f clRASTER code j.f (pb 0 c + pb 1 j.r + pw16 2 tag + pw32 4 v)

/-- A RASTER event about the device goes to F0. -/
def rasterEvent (d : Dev) (code v : Nat) : Dev := post d 0 clRASTER code 0 (pw32 4 v)

/-! ### Attachments (R155, R170) -/

/-- The fields of an attachment descriptor. -/
def attBase (a : List Word) : Nat := wd64 a 0

def attMeta (a : List Word) : Nat := wd64 a 2

def attW (a : List Word) : Nat := bits (wd a 4) 15 0

def attH (a : List Word) : Nat := bits (wd a 4) 31 16

def attFmt (a : List Word) : Nat := bits (wd a 5) 31 24

def attSamples (a : List Word) : Nat := bits (wd a 5) 23 20

def attLoad (a : List Word) : Nat := bits (wd a 5) 19 18

def attStore (a : List Word) : Nat := bits (wd a 5) 17 16

def attMemless (a : List Word) : Bool := bit (wd a 5) 15

def attPitch (a : List Word) : Nat := (wd a 6).toNat

/-- The regions that storing an attachment writes, as IOVA and length: its pixels, and the header and metadata of an LBC surface.
DESIGN CHOICE (notes/assumptions/138): an uncompressed multisampled attachment takes PITCH × (HEIGHT × SAMPLES − 1) + WIDTH × bytes. -/
def attRegions (a : List Word) : List (Nat × Nat) :=
  let n := fmtBytes (attFmt a)
  if attMeta a ≠ 0 then
    let b := lbcBlocks (attW a) (attH a)
    [(attMeta a, 64 + cdiv b 2 * attSamples a), (attBase a, b * 64 * n * attSamples a)]
  else [(attBase a, attPitch a * (attH a * attSamples a - 1) + attW a * n)]

/-- Regions take free bytes, one after another up to the first that faults. -/
def freeRegions (d : Dev) (n mid : Nat) : List (Nat × Nat) → Dev × Bool
  | [] => (d, true)
  | (a, len) :: rs =>
    let w := memFree (pagesFuel len) d n mid a len
    if w.2 then freeRegions w.1 n mid rs else w

/-- The attachments of a pass that reach memory: those stored at its end, or at a split all but the memoryless ones. DESIGN CHOICE
(notes/assumptions/139): what STORE = 1 leaves in memory is what was there. -/
def attStored (p : PassRun) (split : Bool) : List (List Word) :=
  p.atts.filter (fun a => !attMemless a && (split || decide (attStore a = 0)))

/-- The attachments' regions of the open pass of a job, when it has something to render or was split. -/
def openRegions (j : JobRun) : List (Nat × Nat) :=
  match j.pass with
  | none => []
  | some p => if p.ops = [] ∧ p.held.isNone then [] else (attStored p true).flatMap attRegions

/-- Regions take free bytes where they translate; nothing is recorded of the rest. -/
def spoilRegions (d : Dev) (f mid : Nat) (rs : List (Nat × Nat)) : Dev :=
  rs.foldl (fun d r => memFreeQuiet (pagesFuel r.2) d f mid r.1 r.2) d

/-- What a job leaves undefined: after a fault or an uncorrectable error all that it wrote and its open pass (R175), when it is discarded
its open pass (R150, R151). A job that a packet's BAD_DESC or NO_RESOURCE ends leaves what earlier packets did (R154). -/
def spoilJob (d : Dev) (c status : Nat) : Dev :=
  match (gctx d c).job with
  | none => d
  | some j =>
    if status = stOK ∨ status = stBAD_DESC ∨ status = stNO_RESOURCE then d
    else if status = stERR_FAULT ∨ status = stERR_ECC then spoilRegions d j.f (jobMid d c) (j.wrote ++ openRegions j)
    else spoilRegions d j.f (jobMid d c) (openRegions j)

/-! ### Ending a job (R153, R191, R195) -/

/-- DETAIL of a completion (R153). -/
def jobDetail (j : JobRun) (offset : Nat) : Nat :=
  sat j.splits 255 * 2 ^ 24 + j.sidingUsed.toNat * 2 ^ 23 + offset % 2 ^ 23

/-- DETAIL2 of a completion (R153). -/
def jobDetail2 (j : JobRun) : Nat := j.sidingHwm * 2 ^ 32 + j.poolHwm

/-- The word offset that a packet's failure reports (R153). -/
def jobOffset (j : JobRun) : Nat :=
  match j.call with
  | some k => k.at0
  | none => j.off

/-- The deadline has started (R191). -/
def pastDeadline (d : Dev) (j : JobRun) : Bool := j.dlV && j.deadline.any (fun t => decide (t < d.dt))

/-- No save of a context runs any more. -/
def noTail (c : Nat) (m : SMap SlotRun) : SMap SlotRun :=
  m.map (fun p => (p.1, if p.2.tail.any (fun t => decide (t.1 = c)) then { p.2 with tail := none } else p.2))

/-- The running or preempted job of a context ends: its slots are free, its clear ends (R190), and its completion is
written. -/
def endJob (d : Dev) (c status offset : Nat) : Dev :=
  match (gctx d c).job with
  | none => d
  | some j =>
    let late := decide (status = stOK) && pastDeadline d j
    let d0 := spoilJob d c status
    let d1 := if late then jobEvent d0 c 0x10 (sat ((d0.dt - j.deadline.getD 0) / 1000) (2 ^ 32 - 1)) else d0
    let d2 := dropSlots d1 c
    let d3 := onCtx { d2 with gpu := { d2.gpu with clears := SMap.erase d2.gpu.clears c, slots := noTail c d2.gpu.slots } } c
      (fun x => { x with job := none, state := 1, saved := [] })
    let d4 := count d3 262
    let d5 := if status = stLOST then count d4 265 else d4
    complete d5 j.f j.r j.idx (if late then stLATE else status) (jobDetail j offset) (jobDetail2 j)

/-! ### What waits on a context (R147, R160) -/

/-- CTX_SETUP's values go to the context; it keeps its pool (R146, R147). -/
def applySetup (d : Dev) (c f : Nat) (q : Desc) : Dev :=
  onCtx d c (fun x => { x with
    state := 1
    express := decide (bits (at4 q.words 0x10) 31 30 = 1)
    prio := bits (at4 q.words 0x10) 23 20
    saveBase := at8 q.words 0x18
    saveSize := (at4 q.words 0x20).toNat
    budget := (at4 q.words 0x24).toNat
    owner := f })

/-- TILE_POOL's regions go to the context (R160). -/
def applyPool (d : Dev) (c : Nat) (q : Desc) : Dev :=
  onCtx d c (fun x => { x with
    pool := { base := at8 q.words 0x10, pages := (at4 q.words 0x18).toNat }
    siding := { base := at8 q.words 0x20, pages := (at4 q.words 0x1C).toNat }
    scratch := { base := at8 q.words 0x28, pages := (at4 q.words 0x30).toNat } })

/-- CTX_SETUPs and TILE_POOLs at the head of a context without a job act, one after another; a TILE_POOL that finds the context FREE
ends with BAD_DESC (R147). -/
def pumpCtx : Nat → Dev → Nat → Dev
  | 0, d, _ => d
  | fuel + 1, d, c =>
    if (gctx d c).job.isSome then d
    else
      match ctxItems d c with
      | [] => d
      | (f, r, q) :: _ =>
        if opcodeOf q.words = 0x11 then pumpCtx fuel (complete (applySetup d c f q) f r q.idx stOK) c
        else if opcodeOf q.words = 0x14 then
          (if (gctx d c).state = 0 then pumpCtx fuel (complete d f r q.idx stBAD_DESC) c
           else pumpCtx fuel (complete (applyPool d c q) f r q.idx stOK) c)
        else d

/-- The contexts that are not FREE, or that a waiting descriptor concerns. -/
def ctxKeys (d : Dev) : List Nat :=
  (((allLive d).filter (fun x => decide ((ringSt d x.1 x.2.1).entry.type = 0))).map (fun x => ctxOfRing d x.1 x.2.1) ++
    d.gpu.ctxs.map (fun p => p.1)).eraseDups

/-! ### The scheduling order (R181) -/

/-- A job that may take slots: its context, its step of R181, deadline, priority and acceptance. -/
structure Cand where
  c : Nat
  step : Nat
  deadline : Option Nat
  prio : Nat
  seq : Nat
  deriving DecidableEq, Repr, Inhabited

/-- The deadline of a released job (R186): the first start of its line at or after the release. -/
def deadlineOf (d : Dev) (ws : List Word) (rel : Nat) : Option Nat :=
  let w := at4 ws 0x10
  let x := raster d (bits w 27 24)
  if !bit w 28 ∨ !x.had ∨ x.vtot = 0 then none
  else
    let l := clampLine x (bits w 15 0)
    let a := absFrom x rel
    let f := a / x.vtot
    some (dtOf x (if a % x.vtot ≤ l then f else f + 1) l)

/-- The job of a context that may hold slots: the one it runs, or the first in its order when it is released (R145, R181).
Jobs of a function that is not running stay where they are (R129, R141). -/
def candOf (d : Dev) (c : Nat) : Option Cand :=
  let x := gctx d c
  let mk (f : Nat) (q : Desc) (dl : Option Nat) : Option Cand :=
    if x.state = 0 ∨ fnState d f ≠ 1 ∨ (fnSt d f).qui.on then none
    else some { c := c, step := if x.spent then 3 else if x.express then 1 else 2, deadline := dl, prio := x.prio, seq := q.seq }
  match x.job with
  | some j => (liveDesc d j.f j.r j.idx).bind (fun q => mk j.f q j.deadline)
  | none =>
    match ctxItems d c with
    | [] => none
    | (f, _, q) :: _ => if isJob q && q.cp.isNone then mk f q (deadlineOf d q.words q.rel) else none

/-- Does a deadline come before another; none is at infinity? -/
def dlBefore (a b : Option Nat) : Bool :=
  match a, b with
  | some x, some y => decide (x < y)
  | some _, none => true
  | none, _ => false

/-- Does a job come before another in the order of R181? -/
def candBefore (a b : Cand) : Bool :=
  if a.step ≠ b.step then decide (a.step < b.step)
  else if a.step = 1 then
    if a.deadline ≠ b.deadline then dlBefore a.deadline b.deadline
    else if a.prio ≠ b.prio then decide (b.prio < a.prio)
    else decide (a.c < b.c)
  else if a.prio ≠ b.prio then decide (b.prio < a.prio)
  else decide (a.seq < b.seq)

def insertCand (x : Cand) : List Cand → List Cand
  | [] => [x]
  | y :: ys => if candBefore x y then x :: y :: ys else y :: insertCand x ys

/-- The jobs that may hold slots, in the order of R181. -/
def candidates (d : Dev) : List Cand := ((ctxKeys d).filterMap (candOf d)).foldr insertCand []

/-- A job begins (R146): what its descriptor says. -/
def startJob (d : Dev) (c : Nat) : Dev :=
  match ctxItems d c with
  | [] => d
  | (f, r, q) :: _ =>
    let w := at4 q.words 0x10
    let j : JobRun :=
      { (default : JobRun) with
        f := f
        r := r
        idx := q.idx
        compute := decide (bits w 31 30 = 1)
        restartable := bit w 29
        dlV := bit w 28
        deadline := deadlineOf d q.words q.rel
        dwords := (at4 q.words 0x20).toNat }
    onCtx d c (fun x => { x with job := some j, state := 2 })

/-- A context takes a free slot. -/
def takeSlot (d : Dev) (c s : Nat) : Dev :=
  let d1 := if (gctx d c).job.isNone then startJob d c else onCtx d c (fun x => { x with state := 2 })
  onSlot d1 s (fun y => { (default : SlotRun) with ctx := some c, since := d1.dt, tail := y.tail })

/-- A job takes every free slot that it can use (R181). -/
def fillSlots (d : Dev) (c : Nat) : Dev :=
  (List.range 16).foldl (fun d s =>
    if (slotsHeld d c).length < spreadOf (gctx d c) ∧ slotTakes d c s then takeSlot d c s else d) d

/-- What a save of record n writes beside the header, as IOVA and length: the whole record, or after a soft yield the local data store
and the tile slots (R187). DESIGN CHOICE (notes/assumptions/131): records are filled from the first on, their parts lie in the order
of the table of the section, and a save writes the context header too. -/
def recordPart (x : GpuCtx) (n : Nat) (whole : Bool) : Nat × Nat :=
  if whole then (x.saveBase + 4096 + 856064 * n, 856064) else (x.saveBase + 4096 + 856064 * n + 524288, 327680)

/-- A resumed job reads the records that were saved, and nothing when none was; a fault there ends it (R175, R180). -/
def resumeCheck (d : Dev) (c : Nat) : Dev :=
  let x := gctx d c
  match x.job with
  | none => d
  | some j =>
    let parts := (List.range x.saved.length).map (fun n => recordPart x n (x.saved.getD n false))
    match firstFault d j.f false false (((x.saveBase, 4096) :: parts).flatMap (fun r => pagesOf r.1 r.2)) with
    | some (t, a) => endJob (noteFault d j.f (jobMid d c) t a false) c stERR_FAULT 0
    | none => onCtx d c (fun x => { x with saved := [] })

/-- One job takes its slots, and what was saved of it resumes there. -/
def serveCand (d : Dev) (c : Nat) : Dev :=
  let had := (slotsHeld d c).length
  let d1 := fillSlots d c
  if (gctx d1 c).saved ≠ [] ∧ had < (slotsHeld d1 c).length then resumeCheck d1 c else d1

/-- The preemption grace of the mode in ns (R4). Caution gives none of its own; it keeps the 20 µs of the balanced mode. -/
def graceOf (d : Dev) : Nat :=
  if modeOf d = mEXP then 10000 else if modeOf d = mFRT then 50000 else 20000

/-- A slot's work soft-yields; its grace ends at a DT, 0 when no grace applies (R183, R186, R187). -/
def yieldSlot (d : Dev) (s graceEnd : Nat) : Dev :=
  if (gslot d s).ctx.isNone then d
  else onSlot d s (fun x => { x with yields := true, graceEnd := if x.graceEnd = 0 then graceEnd else x.graceEnd })

/-- Work that the time partitions do not allow on its slot yields, with the mode's grace from the edge that began it: a window's start or
end, ACTIVE, or an entry (R136, R192). Without ACTIVE no window is open. -/
def tpEnforce (d : Dev) : Dev :=
  if !tpActive d then { d with gpu := { d.gpu with windows := [] } }
  else
    (List.range 16).foldl (fun d s =>
      if (gslot d s).ctx.any (fun c => !tpAllows d (gctx d c).owner s) && decide ((gslot d s).graceEnd = 0) then
        yieldSlot d s (d.dt + graceOf d) else d) d

/-- Does a job of steps 1 or 2 wait for a slot that another holds (R183)? -/
def slotWanted (d : Dev) (s : Nat) : Bool :=
  (candidates d).any (fun k => decide (k.step < 3) && decide ((slotsHeld d k.c).length < spreadOf (gctx d k.c)) && slotFits d k.c s)

/-- Jobs over budget yield the slots that jobs of steps 1 or 2 wait for (R183). -/
def yieldSpent (d : Dev) : Dev :=
  (List.range 16).foldl (fun d s =>
    if (gslot d s).ctx.any (fun c => (gctx d c).spent) && !(gslot d s).yields && slotWanted d s then yieldSlot d s 0 else d) d

/-- Domains of the raster section that have work and are down begin to wake (R431). -/
def wakeForJobs (d : Dev) : Dev :=
  if candidates d = [] then d
  else
    let d1 := if domUp d 7 then d else startWake d 7
    (List.range 4).foldl (fun d g =>
      if (slotMask d >>> (4 * g)) % 16 ≠ 0 ∧ !domUp d (8 + g) then startWake d (8 + g) else d) d1

/-- Whatever waits on contexts acts, and free slots go to jobs in the order of R181; no job starts in a cutover window
(R447), on a banker (R416) or once a swap has fired (R423). -/
def gpuRun (d0 : Dev) : Dev :=
  let d := tpEnforce d0
  let d1 := (ctxKeys d).foldl (fun d c => pumpCtx (liveCount d (gctx d c).owner + (ctxItems d c).length) d c) d
  if d1.pm.cut.window ∨ bankerLike d1 ∨ d1.pair.swapping then d1
  else yieldSpent ((candidates d1).foldl (fun d k => serveCand d k.c) (wakeForJobs d1))

/-- A job ends and the scheduler runs. -/
def endJobRun (d : Dev) (c status offset : Nat) : Dev := gpuRun (endJob d c status offset)

/-! ### Job descriptors (R147 to R152, R160, R184) -/

/-- A binding of a job must be to a RELEASE point (R152). -/
def releaseBound (d : Dev) (q : Desc) : Bool := (boundTo q).all (fun c => decide ((cpEntry d c).action = 2))

/-- The checks of JOB_SUBMIT (R147, R152, R184). -/
def chkJobSubmit (d : Dev) (f r : Nat) (q : Desc) : Option (Nat × Nat) :=
  let w := at4 q.words 0x10
  let n := (at4 q.words 0x20).toNat
  if !bodyOk q.words [(0x10, 0xFF00FFFF), (0x18, full), (0x1C, full), (0x20, full)] ∨ bits w 31 30 ≥ 2 ∨
     (bits w 31 30 = 0 ∧ bit w 29) ∨ at8 q.words 0x18 % 4 ≠ 0 ∨ n = 0 ∨ n > 8388608 ∨ !releaseBound d q ∨
     (gctx d (ctxOfRing d f r)).state = 0 then some (stBAD_DESC, 0)
  else if jobsOf d f - 1 > ptJobMax d f then some (stNO_RESOURCE, 0)
  else none

/-- An accepted job waits for its release and for slots (R152, R181). -/
def actJobSubmit (f r : Nat) (q : Desc) (d : Dev) : Dev :=
  if q.cp.isSome then d else gpuRun (onLive d f r q.idx (fun x => { x with rel := d.dt }))

/-- JOB_SUBMIT; at JOB_MAX jobs in flight the ring waits (R184). -/
def doJobSubmit (f r : Nat) (d : Dev) : Dev :=
  if jobsOf d f = ptJobMax d f then d else startDesc d f r 0x100 [] false chkJobSubmit actJobSubmit

/-- The checks of CTX_SETUP (R148, R178, R179). -/
def chkCtxSetup (d : Dev) (_f _r : Nat) (q : Desc) : Option (Nat × Nat) :=
  let w := at4 q.words 0x10
  if !bodyOk q.words [(0x10, 0xC0F00000), (0x18, full), (0x1C, full), (0x20, full), (0x24, full)] ∨ bits w 31 30 ≥ 2 ∨
     at8 q.words 0x18 % 4096 ≠ 0 then some (stBAD_DESC, 0)
  else if modeOf d = mHER ∧ bits w 31 30 = 1 then some (stERR_PERM, 0)
  else if (at4 q.words 0x20).toNat < 860160 then some (stNO_RESOURCE, 210)
  else none

/-- An unbound descriptor of a context takes its turn among the context's jobs. -/
def actCtxItem (f r : Nat) (q : Desc) (d : Dev) : Dev :=
  gpuRun (onLive d f r q.idx (fun x => { x with cp := none }))

def doCtxSetup (f r : Nat) (d : Dev) : Dev := startDesc d f r 0x110 [] true chkCtxSetup actCtxItem

/-- The checks of TILE_POOL (R147, R160). -/
def chkTilePool (d : Dev) (f r : Nat) (q : Desc) : Option (Nat × Nat) :=
  if !bodyOk q.words [(0x10, full), (0x14, full), (0x18, full), (0x1C, full), (0x20, full), (0x24, full), (0x28, full),
      (0x2C, full), (0x30, full)] ∨ at8 q.words 0x10 % 4096 ≠ 0 ∨ at8 q.words 0x20 % 4096 ≠ 0 ∨
     at8 q.words 0x28 % 4096 ≠ 0 ∨ (gctx d (ctxOfRing d f r)).state = 0 then some (stBAD_DESC, 0)
  else none

def doTilePool (f r : Nat) (d : Dev) : Dev := startDesc d f r 0x140 [] true chkTilePool actCtxItem

/-- What waits on a context ends: jobs with a status, and with them its CTX_SETUPs and TILE_POOLs; a CTX_DESTROY of sequence number
`upto` lets those accepted before it act first, in ring order, and the later ones wait (R147, R150). -/
def dropQueued (d : Dev) (c status : Nat) (upto : Option Nat) : Dev :=
  (ctxItems d c).foldl (fun d x =>
    if isJob x.2.2 then complete d x.1 x.2.1 x.2.2.idx status
    else match upto with
      | none => complete d x.1 x.2.1 x.2.2.idx status
      | some n => if x.2.2.seq < n then complete d x.1 x.2.1 x.2.2.idx stOK else d) d

/-- A context becomes FREE: its running job and its queued ones complete with a status, and what the X16 kept of it is
forgotten (R146, R150, R176), a clear of its own with it (R190). -/
def freeCtx (d : Dev) (c status : Nat) (upto : Option Nat := none) : Dev :=
  let d1 := endJob d c status 0
  let d2 := dropQueued d1 c status upto
  { d2 with gpu := { d2.gpu with ctxs := SMap.erase d2.gpu.ctxs c, clears := SMap.erase d2.gpu.clears c } }

/-- The checks of CTX_DESTROY (R147, R149). -/
def chkCtxDestroy (d : Dev) (f r : Nat) (q : Desc) : Option (Nat × Nat) :=
  if !bodyOk q.words [] ∨ (gctx d (ctxOfRing d f r)).state = 0 then some (stBAD_DESC, 0) else none

/-- CTX_DESTROY (R150): the jobs end, then the context, then the descriptor completes. -/
def actCtxDestroy (f r : Nat) (q : Desc) (d : Dev) : Dev :=
  gpuRun (complete (freeCtx d (ctxOfRing d f r) stABORTED (some q.seq)) f r q.idx stOK)

def doCtxDestroy (f r : Nat) (d : Dev) : Dev := startDesc d f r 0x120 [] true chkCtxDestroy actCtxDestroy

/-- The oldest incomplete job of a ring that carries a TAG (R151). -/
def jobByTag (d : Dev) (f r tag : Nat) : Option Desc :=
  ((ringSt d f r).live.filter (fun q => isJob q && decide (tagOf q.words = tag))).foldl (fun o q =>
    match o with
    | none => some q
    | some p => if q.seq < p.seq then some q else some p) none

/-- Is a descriptor the job that its context runs? -/
def runsNow (d : Dev) (c f r idx : Nat) : Bool :=
  (gctx d c).job.any (fun j => decide (j.f = f) && decide (j.r = r) && decide (j.idx = idx))

/-- A queued job is cancelled; a clear that it had begun ends (R190). -/
def cancelQueued (d : Dev) (c f r idx : Nat) : Dev :=
  let head := (ctxItems d c).head?.any (fun x => decide (x.1 = f) && decide (x.2.1 = r) && decide (x.2.2.idx = idx))
  let d1 := if head ∧ (gctx d c).job.isNone then { d with gpu := { d.gpu with clears := SMap.erase d.gpu.clears c } } else d
  complete d1 f r idx stABORTED

/-- JOB_CANCEL (R151). -/
def actJobCancel (f r : Nat) (q : Desc) (d : Dev) : Dev :=
  match jobByTag d f r (bits (at4 q.words 0x10) 15 0) with
  | none => complete d f r q.idx stOK 1
  | some p =>
    let c := ctxOfRing d f r
    let d1 := if runsNow d c f r p.idx then endJob d c stABORTED 0 else cancelQueued d c f r p.idx
    gpuRun (complete d1 f r q.idx stOK)

def chkJobCancel (_ : Dev) (_ _ : Nat) (q : Desc) : Option (Nat × Nat) := bodyStatus (bodyOk q.words [(0x10, 0xFFFF)])

def doJobCancel (f r : Nat) (d : Dev) : Dev :=
  startDesc d f r 0x130 [] true chkJobCancel actJobCancel

/-! ### Clearing the line (R186 to R190) -/

/-- The slots that an Express job of function f clears (R186). -/
def clearSlots (d : Dev) (f : Nat) : List Nat :=
  (List.range 16).filter (fun s => hasBit (slotMask d) s && !hasBit (reserveMask d) s &&
    (!tpActive d || d.gpu.windows.all (fun w => decide (w = f) || !hasBit (ptTpGroups d w) (s / 4))))

/-- The release of a context's current Express job with a deadline, and that deadline: the job it runs, or the next. -/
def clearJob (d : Dev) (c : Nat) : Option (Nat × Nat × Nat) :=
  let x := gctx d c
  if !x.express ∨ x.spent ∨ x.state = 0 then none
  else
    let q : Option (Nat × Desc) := match x.job with
      | some j => (liveDesc d j.f j.r j.idx).map (fun q => (j.f, q))
      | none => match ctxItems d c with
        | [] => none
        | (f, _, q) :: _ => if isJob q && q.cp.isNone then some (f, q) else none
    q.bind (fun p => (deadlineOf d p.2.words p.2.rel).map (fun t => (p.1, p.2.rel, t)))

/-- The clear point (R186). -/
def clearPoint (d : Dev) (rel deadline : Nat) : Nat :=
  let res := fg d GX_EXP_LEAD GX_EXP_LEAD_RESERVE_US
  if res = 0xFFFF then rel else max rel (deadline - res * 1000)

/-- CLEAR_LINE (R186): at its clear point, which CP1008 holds, an Express job clears the line; while the scheduler's points are gone
none does (R201). -/
def doClearLine (c : Nat) (d0 : Dev) : Dev :=
  match clearJob d0 c with
  | none => d0
  | some (f, rel, dl) =>
    let d := advance (clearPoint d0 rel dl) d0
    if !ownPoints d then d0 else
    let ss := clearSlots d f
    let d1 := { d with gpu := { d.gpu with clears := SMap.set d.gpu.clears c (maskOfList ss) } }
    let d2 := ss.foldl (fun d s =>
      if (gslot d s).ctx.any (fun k => !(gctx d k).express) then yieldSlot d s (d.dt + graceOf d) else d) d1
    gpuRun d2

/-- What a preempted job has on one slot goes to a record of its save area, whose contents only the microcode knows: all of it, or at a
soft yield its tile slots and local data (R180, R187); a fault there ends the job. -/
def saveSlot (d : Dev) (c : Nat) (whole : Bool) : Dev :=
  let x := gctx d c
  match x.job with
  | none => d
  | some j =>
    let w := freeRegions d j.f (jobMid d c) [(x.saveBase, 4096), recordPart x x.saved.length whole]
    if w.2 then onCtx w.1 c (fun x => { x with saved := x.saved ++ [whole] }) else endJob w.1 c stERR_FAULT 0

/-- The work on a slot is saved whole and preempted at once. -/
def hardOut (d : Dev) (s : Nat) : Dev :=
  match (gslot d s).ctx with
  | none => d
  | some c => preemptSlot (saveSlot d c true) s

/-- SOFT_YIELD_DONE (R187): the yielding job's last wave has retired; the slot passes on. -/
def doSoftYieldDone (s : Nat) (d : Dev) : Dev :=
  match (gslot d s).ctx with
  | none => d
  | some c =>
    if !(gslot d s).yields ∨ (gslot d s).saving.isSome then d
    else gpuRun (preemptSlot (saveSlot d c false) s)

/-- HARD_PREEMPT (R187): the grace has passed, the waves stop and the save begins. -/
def doHardPreempt (s : Nat) (d0 : Dev) : Dev :=
  if !(gslot d0 s).yields ∨ (gslot d0 s).graceEnd = 0 ∨ (gslot d0 s).saving.isSome ∨ (gslot d0 s).ctx.isNone then d0
  else
    let d := advance (gslot d0 s).graceEnd d0
    let d1 := onSlot d s (fun x => { x with saving := some d.dt })
    match slotCluster d1 s with
    | some k => count d1 (182 + 4 * k + 3)
    | none => d1

/-- SAVE_FIRST_PART_DONE (R187, R188): 4,096 fabric cycles of 1.2 GHz after the save began the slot passes on; the rest of the save runs
until 13,376 cycles are over. -/
def doSaveFirstPartDone (s : Nat) (d0 : Dev) : Dev :=
  match (gslot d0 s).saving, (gslot d0 s).ctx with
  | some t, some c =>
    let d := advance (t + 3414) d0
    let d1 := preemptSlot (saveSlot d c true) s
    gpuRun (if (gctx d1 c).job.isSome then onSlot d1 s (fun x => { x with tail := some (c, t + 11147) }) else d1)
  | _, _ => d0

/-! ### Budgets (R183) -/

/-- BUDGET_EXHAUSTED (R183): the charge reaches BUDGET. -/
def doBudgetExhausted (c : Nat) (d0 : Dev) : Dev :=
  let n := (slotsHeld d0 c).length
  let b := (gctx d0 c).budget
  if !charges d0 c ∨ n = 0 ∨ (gctx d0 c).spent then d0
  else
    let left := b * 16000 - (gctx (chargeCtx d0 c) c).charge
    let d := chargeCtx (advance (d0.dt + cdiv left n) d0) c
    let d1 := onCtx d c (fun x => { x with spent := true, told := true })
    let d2 := if fb d1 GX_SCHED_CTRL GX_SCHED_CTRL_BUDGET_EVT ∧ !(gctx d c).told then
        jobEvent d1 c 0x11 b else d1
    gpuRun { d2 with gpu := { d2.gpu with clears := SMap.erase d2.gpu.clears c } }

/-- BUDGET_RESET (R183): at a frame start of the budget platform, which CP1009 holds, every charge is zero again. -/
def doBudgetReset (d0 : Dev) : Dev :=
  let p := fg d0 GX_SCHED_CTRL GX_SCHED_CTRL_BUDGET_PLAT
  let x := raster d0 p
  let d := if x.had ∧ x.vtot ≠ 0 ∧ absAt x d0.dt % x.vtot ≠ 0 then advance (dtOf x (absAt x d0.dt / x.vtot + 1) 0) d0 else d0
  if !ownPoints d then d0
  else gpuRun ((d.gpu.ctxs.map (fun q => q.1)).foldl (fun d c =>
    onCtx (chargeCtx d c) c (fun y => { y with charge := 0, spent := false, told := false })) d)

/-! ### Time partitions (R136, R192) -/

/-- The first start of a line of a platform at or after now. -/
def lineStart (d : Dev) (p l : Nat) : Nat :=
  let x := raster d p
  let a := absFrom x d.dt
  let f := a / x.vtot
  dtOf x (if a % x.vtot ≤ l then f else f + 1) l

/-- TP_WINDOW_START (R192): at CP1010 the window of a function opens and its groups are cleared for it. -/
def doTpWindowStart (f : Nat) (d0 : Dev) : Dev :=
  let p := fg d0 HS_TP_CTRL HS_TP_CTRL_REF
  if !tpActive d0 ∨ !ptValid d0 f ∨ !ptTimePart d0 f ∨ !(raster d0 p).had ∨ ptTpStart d0 f ≥ (raster d0 p).vtot ∨
     d0.gpu.windows.contains f then d0
  else
    let d := chargeAll (advance (lineStart d0 p (ptTpStart d0 f)) d0)
    if !ownPoints d then d0 else gpuRun { d with gpu := { d.gpu with windows := d.gpu.windows ++ [f] } }

/-- TP_WINDOW_END (R136, R192): at CP1011 the function's jobs on its groups yield, with the grace from here. -/
def doTpWindowEnd (f : Nat) (d0 : Dev) : Dev :=
  if !d0.gpu.windows.contains f then d0
  else
    let p := fg d0 HS_TP_CTRL HS_TP_CTRL_REF
    let e := ptTpStart d0 f + ptTpLen d0 f
    let d := if (raster d0 p).had ∧ (raster d0 p).vtot ≠ 0 then
        advance (lineStart d0 p (if e < (raster d0 p).vtot then e else 0)) d0 else d0
    let d1 := chargeAll d
    if !ownPoints d then d0 else gpuRun { d1 with gpu := { d1.gpu with windows := d1.gpu.windows.filter (fun w => w != f) } }

/-! ### Clusters (R193 to R200) -/

/-- A cluster takes a state. -/
def setClState (d : Dev) (k st slot : Nat) : Dev :=
  fs (fs d (GX_CL_STAT k) GX_CL_STAT_STATE st) (GX_CL_STAT k) GX_CL_STAT_SLOT slot

/-- A change of a cluster map or state is written to the store as one record before anything else follows (R199, R451). -/
def saveMap (d : Dev) : Dev :=
  let st (k : Nat) : Word := BitVec.ofNat 32 (clState d k * 2 ^ 30 + fg d (GX_CL_STAT k) GX_CL_STAT_CAUSE * 2 ^ 27)
  if d.pm.storePresent then storeNow d 2 0 ((List.range 4).map (fun g => rd d (GX_CLMAP g)) ++ (List.range 20).map st)
  else d

/-- The spare that group g has: the lowest of its clusters that is one; 7 is none. -/
def spareOf (d : Dev) (g : Nat) : Nat := ((List.range 5).find? (fun o => decide (clState d (5 * g + o) = 1))).getD 7

/-- The slot of group g whose cluster is retired or that has none. -/
def deadSlot (d : Dev) (g : Nat) : Option Nat :=
  (List.range 4).find? (fun i => (slotCluster d (4 * g + i)).all (fun k => decide (clState d k ≥ 2)))

/-- The maps and states come back from the latest record, without one the defaults of R177 (R199); a relief that a reset cut off
begins again (R194). -/
def restoreMap (d : Dev) : Dev :=
  match currentRec d 2 0 with
  | none => d
  | some r =>
    let d1 := (List.range 4).foldl (fun d g => wr d (GX_CLMAP g) (wd r.payload g)) d
    let d2 := (List.range 20).foldl (fun d k =>
      let w := wd r.payload (4 + k)
      let st := if bits w 31 30 = 3 then 2 else bits w 31 30
      let slot := if st = 0 then ((List.range 16).find? (fun s => decide (slotCluster d s = some k))).getD 0x1F else 0x1F
      wr d (GX_CL_STAT k) (BitVec.ofNat 32 (st * 2 ^ 30 + bits w 29 27 * 2 ^ 27 + slot * 2 ^ 20))) d1
    (List.range 4).foldl (fun d g =>
      match deadSlot d g with
      | some i =>
        if fg d (GX_CLMAP g) GX_CLMAP_SPARE ≤ 4 then
          { d with gpu := { d.gpu with relief := SMap.set d.gpu.relief g (some i) } } else d
      | none => d) d2

/-- The job of a context loses what it had on a cluster (R195, R196): graphics render their lost tiles again, `tiles` says how they
leave it, restartable compute runs again from its first packet, and the rest, or what was recovered before, is LOST. -/
def recoverJob (d : Dev) (c k : Nat) (counts : Bool) (tiles : Dev → Dev) : Dev :=
  match (gctx d c).job with
  | none => d
  | some j =>
    let lost := (counts && j.recovered) || (j.compute && !j.restartable)
    if lost then endJob (jobEvent d c 0x17 (k + 512)) c stLOST 0
    else
      let d1 := onJob (jobEvent d c 0x17 (k + (if j.compute then 256 else 0))) c
        (fun x => { x with recovered := x.recovered || counts })
      if j.compute then
        let d2 := dropSlots d1 c
        onCtx { d2 with gpu := { d2.gpu with slots := noTail c d2.gpu.slots } } c (fun x => { x with
          state := 1
          saved := []
          job := x.job.map (fun j => { j with off := 0, call := none, pass := none, binds := [], pso := 0 }) })
      else tiles d1

/-- The work of a slot is recovered: that of a save which still runs there, whose record is lost, and that of its context. -/
def recoverWork (d : Dev) (s k : Nat) (counts : Bool) : Dev :=
  let d1 := match (gslot d s).tail with
    | some (c, t) =>
      if d.dt < t then recoverJob d c k counts (fun d => onCtx d c (fun x => { x with saved := x.saved.dropLast })) else d
    | none => d
  let d2 := onSlot d1 s (fun x => { x with tail := none })
  match (gslot d2 s).ctx with
  | none => d2
  | some c => recoverJob d2 c k counts (fun d => preemptSlot d s)

/-- A slot is filled by its group's spare, or stays empty when there is none, or when that fills another slot (R194). -/
def relieve (d : Dev) (g i : Nat) : Dev :=
  if fg d (GX_CLMAP g) GX_CLMAP_SPARE ≤ 4 ∧ (SMap.get d.gpu.relief g).isNone then
    { d with gpu := { d.gpu with relief := SMap.set d.gpu.relief g (some i) } }
  else rasterEvent (fs d (GX_CLMAP g) (clmapFld i) 7) 0x14 (g + (4 * g + i) * 65536)

/-- The cause codes of R193. -/
def deathCode (cause : DeathCause) : Nat :=
  match cause with
  | .noRetire => 1
  | .tmEcc => 2
  | .portParity => 3

/-- A cluster is retired with its cause, and its death counted (R194). -/
def retireCluster (d : Dev) (k code : Nat) : Dev :=
  let d1 := { d with gpu := { d.gpu with posted := d.gpu.posted.filter (fun x => x != k) } }
  bump (fs (setClState d1 k 2 0x1F) (GX_CL_STAT k) GX_CL_STAT_CAUSE code) (GX_CL_STAT k) GX_CL_STAT_DEATHS

/-- A spare dies, and another, if there is one, takes its place; without one the slot that it was to fill stays empty (R194). -/
def spareDies (d : Dev) (k code : Nat) : Dev :=
  let g := k / 5
  let d1 := rasterEvent (retireCluster d k code) 0x12 (k + code * 256 + 0x1F0000)
  if fg d (GX_CLMAP g) GX_CLMAP_SPARE ≠ k % 5 then saveMap d1
  else
    let d2 := fs d1 (GX_CLMAP g) GX_CLMAP_SPARE (spareOf d1 g)
    match SMap.get d.gpu.relief g with
    | some i => saveMap (relieve { d2 with gpu := { d2.gpu with relief := SMap.erase d2.gpu.relief g } } g i)
    | none => saveMap d2

/-- CLUSTER_DEAD (R193 to R196, R200). NO_RETIRE needs a cluster that holds work. -/
def doClusterDead (k : Nat) (cause : DeathCause) (d : Dev) : Dev :=
  let g := k / 5
  let slot := (List.range 16).find? (fun s => decide (slotCluster d s = some k))
  let code := deathCode cause
  if clState d k = 0 then
    match slot with
    | none => d
    | some s =>
      if code = 1 ∧ (gslot d s).ctx.isNone then d
      else
        let d1 := rasterEvent (retireCluster d k code) 0x12 (k + code * 256 + s * 65536)
        let d2 := recoverWork d1 s k true
        gpuRun (saveMap (relieve d2 g (s % 4)))
  else if clState d k = 1 ∧ code ≠ 1 then
    spareDies d k code
  else d

/-- A spare that waits for nothing fills an empty slot of its group (R194, R198). -/
def fillEmpty (d : Dev) (g : Nat) : Dev :=
  match (List.range 4).find? (fun i => decide (fg d (GX_CLMAP g) (clmapFld i) = 7)) with
  | some i => if fg d (GX_CLMAP g) GX_CLMAP_SPARE ≤ 4 then relieve d g i else d
  | none => d

/-- RELIEF_DONE (R194): the spare fills the slot; a further spare of the group takes its place. -/
def doReliefDone (g : Nat) (d : Dev) : Dev :=
  match SMap.get d.gpu.relief g with
  | none => d
  | some i =>
    let o := fg d (GX_CLMAP g) GX_CLMAP_SPARE
    let d1 := { d with gpu := { d.gpu with relief := SMap.erase d.gpu.relief g } }
    let d2 := setClState (fs d1 (GX_CLMAP g) (clmapFld i) o) (5 * g + o) 0 (4 * g + i)
    let d3 := fs d2 (GX_CLMAP g) GX_CLMAP_SPARE (spareOf d2 g)
    gpuRun (fillEmpty (rasterEvent (saveMap d3) 0x13 (5 * g + o + (4 * g + i) * 65536)) g)

/-- LDS_ECC_ERROR (R195, R196): the job on the cluster is recovered; the cluster stays. -/
def doLdsEccError (k : Nat) (d : Dev) : Dev :=
  match (List.range 16).find? (fun s => decide (slotCluster d s = some k)) with
  | none => d
  | some s => if clState d k = 0 then gpuRun (recoverWork d s k true) else d

/-- Traffic of a retired cluster is counted, and the last of it kept (R197). -/
def notePosthumous (d : Dev) (k : Nat) (isWr : Bool) : Dev :=
  let d1 := fs (fs (bump d GX_POST_CNT GX_POST_CNT_COUNT) GX_POST_LAST GX_POST_LAST_MID (0x30 + k))
    GX_POST_LAST GX_POST_LAST_WR isWr.toNat
  wr64 d1 GX_POST_DT_LO d.dt

/-- The first drop of a cluster is reported (R197). -/
def tellPosthumous (d : Dev) (k : Nat) (isWr : Bool) : Dev :=
  rasterEvent (logErr { d with gpu := { d.gpu with posted := k :: d.gpu.posted } } ecPOSTHUMOUS (0x30 + k) 0 isWr.toNat) 0x15 k

/-- POSTHUMOUS (R197): traffic of a retired cluster is dropped at the gate. -/
def doPosthumous (k : Nat) (isWr : Bool) (d : Dev) : Dev :=
  if clState d k ≠ 2 then d
  else if d.gpu.posted.contains k then notePosthumous d k isWr
  else tellPosthumous (notePosthumous d k isWr) k isWr

/-- The domain of a BIST is held in RUN: it wakes when it is down (R198). -/
def startBist (d : Dev) (dom : Nat) : Dev :=
  if domState d dom = 0 ∨ hasBit d.pm.waking dom then d
  else { d with pm := { d.pm with waking := d.pm.waking + 2 ^ dom } }

/-- BIST_START (R198): a write to GX_BIST. -/
def doBistStart (a : Acc) (v : Word) (d : Dev) : Dev :=
  let busy := fb d GX_BIST GX_BIST_START
  let old := rd d GX_BIST
  let w := regWrite a GX_BIST v d
  match w.2 with
  | .done _ =>
    let k := bits v 4 0
    let refuse : Dev := logErr (wr w.1 GX_BIST old) ecBUSY a.mid.toNat GX_BIST v a.secure
    if a.mid.toNat ≠ 0 ∧ a.mid.toNat ≠ midPAIR ∧ bit v 31 then logErr (wr w.1 GX_BIST old) ecNOT_PERMITTED a.mid.toNat GX_BIST v a.secure
    else if busy then (if k = bits old 4 0 ∧ !bit v 31 then w.1 else refuse)
    else if !bit v 31 then w.1
    else if clState d k ≠ 2 then refuse
    else startBist (saveMap (fs (setClState w.1 k 3 0x1F) GX_BIST GX_BIST_RESULT 0)) (8 + k / 5)
  | _ => w.1

/-- What a BIST that ends leaves (R198, R200): a pass makes the group's spare, which fills an empty slot at once. -/
def bistResult (pass : Bool) (d : Dev) : Dev :=
  if !fb d GX_BIST GX_BIST_START then d
  else
    let k := fg d GX_BIST GX_BIST_CLUSTER
    let g := k / 5
    let d1 := fs (fs d GX_BIST GX_BIST_START 0) GX_BIST GX_BIST_RESULT (if pass then 1 else 2)
    let d2 := rasterEvent d1 0x16 (k + pass.toNat * 256)
    if pass then
      let d3 := setClState d2 k 1 0x1F
      let d4 := if fg d3 (GX_CLMAP g) GX_CLMAP_SPARE ≤ 4 then d3 else fs d3 (GX_CLMAP g) GX_CLMAP_SPARE (k % 5)
      fillEmpty (saveMap d4) g
    else saveMap (fs (setClState d2 k 2 0x1F) (GX_CL_STAT k) GX_CL_STAT_CAUSE 4)

/-! ### Power and resets (R176, R201, R202) -/

/-- The work on a domain's slots is preempted before the domain goes down (R201): PD7 concerns every slot. -/
def preemptDomain (d : Dev) (dom : Nat) : Dev :=
  ((List.range 16).filter (fun s => decide (dom = 7) || decide (dom = 8 + s / 4))).foldl hardOut d

/-- A thermal trip cuts a group domain without saving: its jobs are recovered, uncounted (R201). -/
def cutDomainWork (d : Dev) (dom : Nat) : Dev :=
  ((List.range 16).filter (fun s => decide (dom = 7) || decide (dom = 8 + s / 4))).foldl (fun d s =>
    recoverWork d s ((slotCluster d s).getD 0) false) d

/-- The function whose time-partition window is open, or else opens next. -/
def nextWindow (d : Dev) : Option Nat :=
  let at0 (f : Nat) : Nat := lineStart d (fg d HS_TP_CTRL HS_TP_CTRL_REF) (ptTpStart d f)
  let fs := (List.range 32).filter (fun f => ptValid d f && ptTimePart d f)
  match d.gpu.windows with
  | f :: _ => some f
  | [] => fs.find? (fun f => fs.all (fun g => decide (at0 f ≤ at0 g)))

/-- The earliest clear point of an Express job that has not cleared the line. -/
def nextClear (d : Dev) : Option Nat :=
  let ts := (ctxKeys d).filterMap (fun c =>
    if (SMap.get d.gpu.clears c) ≠ 0 then none else (clearJob d c).map (fun x => clearPoint d x.2.1 x.2.2))
  ts.find? (fun t => ts.all (fun u => decide (t ≤ u)))

/-- The device's own points as the window shows them (R52): CP1008 to CP1011 of the raster scheduler, while they stand. DESIGN CHOICE
(notes/assumptions/132): what their entries say beside the trigger, and that the firmware places none of the others. -/
def ownEntry (d : Dev) (k : Nat) : CpEntry :=
  let line (p l : Nat) : CpEntry := { (default : CpEntry) with en := true, basis := .line, plat := p, line := l }
  if !ownPoints d then default
  else if k = 1008 then
    ((nextClear d).map (fun t => { (default : CpEntry) with en := true, basis := .dt, trig := t })).getD default
  else if k = 1009 then line (fg d GX_SCHED_CTRL GX_SCHED_CTRL_BUDGET_PLAT) 0
  else if !tpActive d then default
  else
    let p := fg d HS_TP_CTRL HS_TP_CTRL_REF
    match nextWindow d with
    | none => default
    | some f =>
      let e := ptTpStart d f + ptTpLen d f
      if k = 1010 then line p (ptTpStart d f) else if k = 1011 then line p (if e < (raster d p).vtot then e else 0) else default

/-- The contexts of a function. -/
def ctxsOf (d : Dev) (f : Nat) : List Nat :=
  (d.gpu.ctxs.filter (fun p => decide (p.2.owner = f) && decide (p.2.state ≠ 0))).map (fun p => p.1)

/-- Every context goes FREE and every job completes with a status (R176). -/
def gpuClear (d : Dev) (status : Nat) : Dev :=
  let d1 := (ctxKeys d).foldl (fun d c => freeCtx d c status) d
  { d1 with gpu := { d1.gpu with ctxs := [], slots := [], clears := [] } }

/-! ### The commands -/

/-- JOB_SUBMIT (R152). -/
def execJobSubmit (f : Fn) (r : Ring) (s : State) : Host.Outcome State Fault Refusal :=
  .next { s with dev := doJobSubmit f.val r.val s.dev }

/-- CTX_SETUP (R148). -/
def execCtxSetup (f : Fn) (r : Ring) (s : State) : Host.Outcome State Fault Refusal :=
  .next { s with dev := doCtxSetup f.val r.val s.dev }

/-- CTX_DESTROY (R150). -/
def execCtxDestroy (f : Fn) (r : Ring) (s : State) : Host.Outcome State Fault Refusal :=
  .next { s with dev := doCtxDestroy f.val r.val s.dev }

/-- JOB_CANCEL (R151). -/
def execJobCancel (f : Fn) (r : Ring) (s : State) : Host.Outcome State Fault Refusal :=
  .next { s with dev := doJobCancel f.val r.val s.dev }

/-- TILE_POOL (R160). -/
def execTilePool (f : Fn) (r : Ring) (s : State) : Host.Outcome State Fault Refusal :=
  .next { s with dev := doTilePool f.val r.val s.dev }

/-- CLEAR_LINE (R186). -/
def execClearLine (c : Ctx) (s : State) : Host.Outcome State Fault Refusal :=
  .next { s with dev := doClearLine c.val s.dev }

/-- SOFT_YIELD_DONE (R187). -/
def execSoftYieldDone (sl : Slot) (s : State) : Host.Outcome State Fault Refusal :=
  .next { s with dev := doSoftYieldDone sl.val s.dev }

/-- HARD_PREEMPT (R187). -/
def execHardPreempt (sl : Slot) (s : State) : Host.Outcome State Fault Refusal :=
  .next { s with dev := doHardPreempt sl.val s.dev }

/-- SAVE_FIRST_PART_DONE (R188). -/
def execSaveFirstPartDone (sl : Slot) (s : State) : Host.Outcome State Fault Refusal :=
  .next { s with dev := doSaveFirstPartDone sl.val s.dev }

/-- BUDGET_EXHAUSTED (R183). -/
def execBudgetExhausted (c : Ctx) (s : State) : Host.Outcome State Fault Refusal :=
  .next { s with dev := doBudgetExhausted c.val s.dev }

/-- BUDGET_RESET (R183). -/
def execBudgetReset (s : State) : Host.Outcome State Fault Refusal :=
  .next { s with dev := doBudgetReset s.dev }

/-- TP_WINDOW_START (R192). -/
def execTpWindowStart (f : Fn) (s : State) : Host.Outcome State Fault Refusal :=
  .next { s with dev := doTpWindowStart f.val s.dev }

/-- TP_WINDOW_END (R192). -/
def execTpWindowEnd (f : Fn) (s : State) : Host.Outcome State Fault Refusal :=
  .next { s with dev := doTpWindowEnd f.val s.dev }

/-- CLUSTER_DEAD (R194). -/
def execClusterDead (k : Clus) (cause : DeathCause) (s : State) : Host.Outcome State Fault Refusal :=
  .next { s with dev := doClusterDead k.val cause s.dev }

/-- RELIEF_DONE (R194). -/
def execReliefDone (g : Fin 4) (s : State) : Host.Outcome State Fault Refusal :=
  .next { s with dev := doReliefDone g.val s.dev }

/-- LDS_ECC_ERROR (R195). -/
def execLdsEccError (k : Clus) (s : State) : Host.Outcome State Fault Refusal :=
  .next { s with dev := doLdsEccError k.val s.dev }

/-- POSTHUMOUS (R197). -/
def execPosthumous (k : Clus) (isWr : Bool) (s : State) : Host.Outcome State Fault Refusal :=
  .next { s with dev := doPosthumous k.val isWr s.dev }

/-- BIST_START (R198). -/
def execBistStart (acc : Acc) (v : Word) (s : State) : Host.Outcome State Fault Refusal :=
  .next { s with dev := doBistStart acc v s.dev }

end Sys2Proof.Machine
end

