-- ==== Sys2Proof/Machine/GpuPackets.lean ====
section
/-! DEFINITION. The command streams of jobs (R154 to R175): what the front end does with each packet, binning and splits, rendering in
primitive order with its critical sections, what a pass leaves in memory, and how a job ends. What shaders compute is the SDK's (R156):
the writes of a shader and the bins of its primitives come with the command, and what a primitive makes of a pixel is an opaque function
of Config. -/

namespace Sys2Proof.Machine

/-! ### The front end (R154) -/

/-- A packet of the running job fails: the job completes with a status at the packet's offset. -/
def pktFail (d : Dev) (c status : Nat) : Dev :=
  match (gctx d c).job with
  | none => d
  | some j => endJobRun d c status (jobOffset j)

/-- The place in the stream moves past a packet of n payload words; a called stream ends after its last word. -/
def pktNext (d : Dev) (c n : Nat) : Dev :=
  onJob d c (fun j =>
    match j.call with
    | some k => if k.pos + n + 1 ≥ k.len then { j with call := none } else { j with call := some { k with pos := k.pos + n + 1 } }
    | none => { j with off := j.off + n + 1 })

/-- Does a packet of n payload words extend beyond its stream? -/
def pktBeyond (j : JobRun) (n : Nat) : Bool :=
  match j.call with
  | some k => decide (k.pos + n + 1 > k.len)
  | none => decide (j.off + n + 1 > j.dwords)

/-- The front end takes a packet of the job that a context runs (R154): `code` is the packet of the row; `ok` its length
and its reserved bits and place; `act` its effect, none when the job has ended. -/
def pktRun (c code : Nat) (w : List Word) (ok : JobRun → Bool) (act : JobRun → Dev → Dev × Bool) (d : Dev) : Dev :=
  let x := gctx d c
  match x.job, w with
  | some j, h :: _ =>
    let n := bits h 15 0
    if x.state ≠ 2 ∨ (j.call.isNone ∧ j.off ≥ j.dwords) then d
    else if bits h 31 24 > 0x0E then pktFail d c stBAD_DESC
    else if bits h 31 24 ≠ code then d
    else if bits h 23 16 ≠ 0 ∨ pktBeyond j n then pktFail d c stBAD_DESC
    else if w.length ≠ n + 1 then d
    else if !ok j then pktFail d c stBAD_DESC
    else
      let r := act j d
      if r.2 then pktNext r.1 c n else gpuRun r.1
  | _, _ => d

/-- N of a packet. -/
def pktN (w : List Word) : Nat := bits (wd w 0) 15 0

/-- An access of the job failed: it ends with ERR_FAULT or ERR_ECC (R175). -/
def jobFaulted (d : Dev) (c status : Nat) : Dev := pktFail d c status

/-- Is a write in the same critical place as another: one pixel, or one sample of it in the sample modes (R169)? -/
def sameCrit (lock : Nat) (a b : Crit) : Bool :=
  decide (a.x = b.x) && decide (a.y = b.y) && (lock % 2 == 0 || decide (a.sample = b.sample))

/-- Is a place in the list where write s must stand before the rest: the rest begins with a write of a later primitive's section there,
and in an unordered mode a section of s's primitive was begun and another follows (R169)? -/
def critBefore (lock : Nat) (s t : ShaderStore) : Bool :=
  match s.crit, t.crit with
  | some a, some b => sameCrit lock a b && decide (a.prim < b.prim)
  | _, _ => false

/-- A write joins those before it. Ordered modes: before the first write of a later primitive's section in its place. -/
def orderStore (lock : Nat) (s : ShaderStore) : List ShaderStore → List ShaderStore
  | [] => [s]
  | t :: ts => if critBefore lock s t then s :: t :: ts else t :: orderStore lock s ts

/-- Are two writes of one critical section? -/
def oneCrit (lock : Nat) (s t : ShaderStore) : Bool :=
  match s.crit, t.crit with
  | some a, some b => sameCrit lock a b && decide (a.prim = b.prim)
  | _, _ => false

/-- A write joins those of its own section, in an unordered mode: sections of one place exclude one another. -/
def joinStore (lock : Nat) (s : ShaderStore) (l : List ShaderStore) : List ShaderStore :=
  if l.any (oneCrit lock s) then
    let rest := (l.reverse.takeWhile (fun t => !oneCrit lock s t)).reverse
    l.take (l.length - rest.length) ++ s :: rest
  else l ++ [s]

/-- The writes of a draw in the order in which the interlock mode of its pipeline state lets them happen (R169); the command's order
stands where the rule leaves it open. -/
def orderStores (lock : Nat) (st : List ShaderStore) : List ShaderStore :=
  st.foldl (fun l s => if lock < 2 then orderStore lock s l else joinStore lock s l) []

/-- The writes that shaders make, one after another (R175 at the first that faults). -/
def shaderStores (d : Dev) (f mid : Nat) : List ShaderStore → Dev × Bool
  | [] => (d, true)
  | s :: ss =>
    let w := memWritePages (pagesFuel s.bytes.length) d f mid s.iova.toNat s.bytes
    if w.2 then shaderStores w.1 f mid ss else w

/-- The job has written regions (R175). -/
def noteWrote (d : Dev) (c : Nat) (rs : List (Nat × Nat)) : Dev := onJob d c (fun j => { j with wrote := j.wrote ++ rs })

/-- A packet's shader writes happen, or end the job. -/
def withStores (c : Nat) (st : List ShaderStore) (j : JobRun) (d : Dev) : Dev × Bool :=
  let d0 := noteWrote d c (st.map (fun s => (s.iova.toNat, s.bytes.length)))
  let w := shaderStores d0 j.f (jobMid d c) (orderStores j.lock st)
  if w.2 then w else (jobFaulted w.1 c stERR_FAULT, false)

/-! ### TARGET (R155, R157, R158, R161) -/

/-- The bytes per pixel of a pass. -/
def passBytes (atts : List (List Word)) : Nat := (atts.map (fun a => fmtBytes (attFmt a) * attSamples a)).sum

/-- The tile of a pass (R157): width and height. -/
def tileOf (b : Nat) : Nat × Nat :=
  if b ≤ 16 then (64, 64) else if b ≤ 32 then (64, 32) else if b ≤ 64 then (32, 32) else if b ≤ 128 then (32, 16)
  else (16, 16)

/-- The bins of a pass (R157). -/
def binsOf (atts : List (List Word)) : Nat :=
  match atts with
  | [] => 0
  | a :: _ => cdiv (attW a) (tileOf (passBytes atts)).1 * cdiv (attH a) (tileOf (passBytes atts)).2

/-- The reserve Q of a pass (R158). -/
def reserveOf (atts : List (List Word)) : Nat := 128 * binsOf atts + 1584

/-- The attachment descriptors of a TARGET packet. -/
def attsOf (w : List Word) : List (List Word) :=
  (List.range ((pktN w - 1) / 8)).map (fun k => (w.drop (2 + 8 * k)).take 8)

/-- A descriptor keeps the rules of R155; `depth` says that it is the depth attachment. DESIGN CHOICE (notes/assumptions/140): META with
the one format that has no LBC form is refused. -/
def attOk (a : List Word) (depth : Bool) : Bool :=
  let f := attFmt a
  (if depth then fmtDepth f else fmtColour f) &&
  attBase a % 256 == 0 && attMeta a % 64 == 0 && (attMeta a == 0 || f != 0x23) &&
  decide (1 ≤ attW a) && decide (attW a ≤ 16384) && decide (1 ≤ attH a) && decide (attH a ≤ 16384) &&
  [1, 2, 4, 8].contains (attSamples a) && decide (attLoad a ≤ 2) && decide (attStore a ≤ 1) &&
  bits (wd a 5) 14 0 == 0 && wd a 7 == 0

/-- All attachments of a pass have equal size and samples (R155). -/
def attsEqual (atts : List (List Word)) : Bool :=
  atts.all (fun a => wd a 4 == wd (atts.headD []) 4 && attSamples a == attSamples (atts.headD []))

/-- The length and reserved bits of TARGET, and what R154 and R155 demand of it. -/
def targetOk (w : List Word) (j : JobRun) : Bool :=
  let c := bits (wd w 1) 3 0
  let k := c + bits (wd w 1) 4 4
  let atts := attsOf w
  pktN w == 1 + 8 * k && bits (wd w 1) 31 5 == 0 && decide (c ≤ 8) && j.pass.isNone && !j.compute &&
  (List.range k).all (fun i => attOk (atts.getD i []) (decide (i = c))) && attsEqual atts && decide (passBytes atts ≤ 256)

/-- A number of bytes rounded up to whole pages. -/
def toPages (n : Nat) : Nat := cdiv n 4096 * 4096

/-- The scratch that the memoryless attachments of a pass need (R161). -/
def scratchNeed (atts : List (List Word)) : Nat :=
  ((atts.filter attMemless).map (fun a => attW a * attH a * fmtBytes (attFmt a) * attSamples a)).sum

/-- TARGET begins a pass, or the pool or the scratch is too small for it (R161). -/
def actTarget (c : Nat) (w : List Word) (_ : JobRun) (d : Dev) : Dev × Bool :=
  let atts := attsOf w
  let x := gctx d c
  if x.pool.pages * 4096 < toPages (2 * reserveOf atts) ∨ x.scratch.pages * 4096 < scratchNeed atts then
    (pktFail d c stNO_RESOURCE, false)
  else
    let p : PassRun := { atts := atts, colours := bits (wd w 1) 3 0, q := reserveOf atts, used := 0, siding := false, lists := [],
                         ops := [], prims := 0, scissor := [], key := d.freeCtr, held := none }
    (onJob { d with freeCtr := d.freeCtr + 1 } c (fun j => { j with pass := some p }), true)

def doPktTarget (c : Nat) (w : List Word) (d : Dev) : Dev := pktRun c 0x01 w (targetOk w) (actTarget c w) d

/-! ### NOP, STATE, BIND, BARRIER, CALL, TIMESTAMP, SCISSOR (R154, R156) -/

def doPktNop (c : Nat) (w : List Word) (d : Dev) : Dev := pktRun c 0x00 w (fun _ => true) (fun _ d => (d, true)) d

/-- The header of a pipeline state object holds and its CRC is right (R156). -/
def objOk (d : Dev) (ws : List Word) : Bool :=
  let size := (wd ws 2).toNat
  wd ws 0 == 0x4C4E4F42 && (wd ws 1).toNat == fg d GX_LIMITS GX_LIMITS_OBJ_VERSION &&
  crc32c ((wordBytes (ws.drop 4)).take (size - 16)) == (wd ws 3).toNat

/-- A read of a job failed. -/
def readFailed (r : ReadRes) : Option Nat :=
  match r with
  | .fault => some stERR_FAULT
  | .ecc => some stERR_ECC
  | .words _ => none

/-- The words of a read. -/
def readWords (r : ReadRes) : List Word :=
  match r with
  | .words ws => ws
  | _ => []

/-- The words of an object, read and checked at its first use (R156), or the status that ends the job. -/
def readObj (d : Dev) (c f a : Nat) (m : MemIn) : Dev × (List Word ⊕ Nat) :=
  let r1 := memRead d f (jobMid d c) a 4 m
  match readFailed r1.2 with
  | some st => (r1.1, .inr st)
  | none =>
    let size := (wd (readWords r1.2) 2).toNat
    let r2 := memRead r1.1 f (jobMid d c) a (max 4 (cdiv size 4)) m
    match readFailed r2.2 with
    | some st => (r2.1, .inr st)
    | none => (r2.1, if objOk r2.1 (readWords r2.2) then .inl (readWords r2.2) else .inr stBAD_DESC)

/-- STATE binds a pipeline state object, checked at its first use in the job (R156). -/
def actState (c : Nat) (w : List Word) (m : MemIn) (j : JobRun) (d : Dev) : Dev × Bool :=
  let a := wd64 w 1
  match j.psos.find? (fun p => decide (p.1 = a)) with
  | some p => (onJob d c (fun j => { j with pso := a, lock := p.2 }), true)
  | none =>
    let r := readObj d c j.f a m
    match r.2 with
    | .inr st => (pktFail r.1 c st, false)
    | .inl ws =>
      let lock := Config.interlock ws % 4
      (onJob r.1 c (fun j => { j with pso := a, lock := lock, psos := (a, lock) :: j.psos }), true)

/-- The shader objects of a draw are checked where the job uses them first (R156). -/
def useObjs (c f : Nat) : List ObjIn → Dev → Dev × Bool
  | [], d => (d, true)
  | o :: os, d =>
    let a := o.iova.toNat
    if (gctx d c).job.any (fun j => j.objs.contains a) then useObjs c f os d
    else
      let r := readObj d c f a o.mem
      match r.2 with
      | .inr st => (pktFail r.1 c st, false)
      | .inl _ => useObjs c f os (onJob r.1 c (fun j => { j with objs := a :: j.objs }))

def doPktState (c : Nat) (w : List Word) (m : MemIn) (d : Dev) : Dev :=
  pktRun c 0x02 w (fun _ => pktN w == 2) (actState c w m) d

def doPktBind (c : Nat) (w : List Word) (d : Dev) : Dev :=
  pktRun c 0x03 w (fun _ => pktN w == 3 && bits (wd w 1) 31 2 == 0)
    (fun _ d =>
      let i := bits (wd w 1) 1 0
      (onJob d c (fun j => { j with binds := (i, wd64 w 2) :: j.binds.filter (fun b => b.1 != i) }), true)) d

/-- BARRIER: the model's writes are visible as they are made. -/
def doPktBarrier (c : Nat) (w : List Word) (d : Dev) : Dev :=
  pktRun c 0x0B w (fun _ => pktN w == 1 && bits (wd w 1) 31 2 == 0) (fun _ d => (d, true)) d

/-- CALL enters a second-level stream; inside one it is an error (R154). -/
def actCall (c : Nat) (w : List Word) (j : JobRun) (d : Dev) : Dev × Bool :=
  let k : Option CallRun := if wd w 3 = 0 then none else some { at0 := j.off, pos := 0, len := (wd w 3).toNat }
  (onJob (pktNext d c 3) c (fun x => { x with call := k }), false)

def doPktCall (c : Nat) (w : List Word) (d : Dev) : Dev :=
  pktRun c 0x0C w (fun j => pktN w == 3 && j.call.isNone) (actCall c w) d

/-- TIMESTAMP writes DT (R154). -/
def actTimestamp (c : Nat) (w : List Word) (j : JobRun) (d : Dev) : Dev × Bool :=
  let r := memWrite (noteWrote d c [(wd64 w 1, 8)]) j.f (jobMid d c) (wd64 w 1) (leBytes 8 d.dt)
  if r.2 then (r.1, true) else (jobFaulted r.1 c stERR_FAULT, false)

def doPktTimestamp (c : Nat) (w : List Word) (d : Dev) : Dev :=
  pktRun c 0x0D w (fun _ => pktN w == 2) (actTimestamp c w) d

/-- The open pass of the job is changed. -/
def onPass (d : Dev) (c : Nat) (g : PassRun → PassRun) : Dev := onJob d c (fun j => { j with pass := j.pass.map g })

def doPktScissor (c : Nat) (w : List Word) (d : Dev) : Dev :=
  pktRun c 0x0E w (fun j => pktN w == 2 && j.pass.isSome)
    (fun _ d => (onPass d c (fun p => { p with scissor := [wd w 1, wd w 2] }), true)) d

/-! ### CLEAR (R154, R174) -/

/-- The operands of a CLEAR packet; of each 16-bit pair x is the low half. -/
def clearOf (w : List Word) : ClearOp :=
  { mask := bits (wd w 1) 8 0, fast := bit (wd w 1) 9
    x0 := bits (wd w 2) 15 0, y0 := bits (wd w 2) 31 16, x1 := bits (wd w 3) 15 0, y1 := bits (wd w 3) 31 16
    val := wd64 w 4, depth := wd w 6, stencil := bits (wd w 7) 7 0 }

def doPktClear (c : Nat) (w : List Word) (d : Dev) : Dev :=
  pktRun c 0x07 w (fun j => pktN w == 7 && j.pass.isSome && bits (wd w 1) 31 10 == 0 && bits (wd w 7) 31 8 == 0)
    (fun _ d => (onPass d c (fun p => { p with ops := p.ops ++ [.clear (clearOf w)] }), true)) d

/-- The depth of a clear as a field of w bits; a free value but for 0.0 and 1.0 (notes/assumptions/54). -/
def unormDepth (w : Nat) (fp : Word) : Nat :=
  if fp = 0 then 0 else if fp = 0x3F800000 then 2 ^ w - 1 else Config.unormDepth w fp % 2 ^ w

/-- The pixel that a clear leaves in a format. -/
def clearPixel (f : Nat) (o : ClearOp) : Nat :=
  match f with
  | 0x20 => unormDepth 16 o.depth
  | 0x21 => unormDepth 24 o.depth + o.stencil * 2 ^ 24
  | 0x22 => o.depth.toNat
  | 0x23 => o.depth.toNat + o.stencil * 2 ^ 32
  | _ => o.val % 2 ^ (8 * fmtBytes f)

/-- Does a clear concern attachment i (bit 8 is the depth attachment)? -/
def clearHits (p : PassRun) (i : Nat) (o : ClearOp) : Bool := hasBit o.mask (if i < p.colours then i else 8)

/-- Is a pixel inside a clear's rectangle? -/
def inClear (o : ClearOp) (x y : Nat) : Bool :=
  decide (o.x0 ≤ x) && decide (x < o.x1) && decide (o.y0 ≤ y) && decide (y < o.y1)

/-! ### What the attachments hold before a pass renders (R155, R170, R171) -/

/-- Bytes of a function's memory that lie in DRAM; none elsewhere. -/
def peek (d : Dev) (f a n : Nat) : Option (List Byte) :=
  (List.range n).foldr (fun k acc =>
    match acc, translate d f (a + k) false with
    | some bs, .ok (.dram p) => some (dramByte d p :: bs)
    | _, _ => none) (some [])

/-- CLEAR_VALUE of an LBC header, when CLEAR_VALID holds. -/
def lbcClear (d : Dev) (f hdr fmt : Nat) : Option Nat :=
  match peek d f hdr 24 with
  | none => none
  | some bs =>
    if hasBit (leNat ((bs.drop 4).take 4)) 8 then some (leNat ((bs.drop 16).take 8) % 2 ^ (8 * fmtBytes fmt)) else none

/-- The state of a block of an LBC surface: the nibble of its metadata. -/
def lbcState (d : Dev) (f tab k : Nat) : Option Nat :=
  (peek d f (tab + k / 2) 1).map (fun bs => if k % 2 = 0 then leNat bs % 16 else leNat bs / 16)

/-- The metadata of sample s of an attachment. -/
def attTable (a : List Word) (s : Nat) : Nat := attMeta a + 64 + s * cdiv (lbcBlocks (attW a) (attH a)) 2

/-- A pixel of an LBC surface, from its metadata, its slots and CLEAR_VALUE (R170, R171). -/
def lbcPixel (d : Dev) (f tab slots w fmt : Nat) (clear : Option Nat) (x y : Nat) : Option Nat :=
  let n := fmtBytes fmt
  let k := y / 8 * lbcAcross w + x / 8
  match lbcState d f tab k with
  | none => none
  | some 0 => clear
  | some st => (peek d f (slots + k * 64 * n) (64 * n)).map (fun bs => (lbcDecode fmt 0 st bs).getD (y % 8 * 8 + x % 8) 0)

/-- A pixel of an attachment in memory, sample s: read as it stands, or decoded from LBC. None for memory outside DRAM, whose bytes no
command brings, and for an uncompressed multisampled attachment, whose layout the spec does not give (notes/assumptions/138). -/
def loadedPixel (d : Dev) (f : Nat) (a : List Word) (s x y : Nat) : Option Nat :=
  let n := fmtBytes (attFmt a)
  if attMeta a ≠ 0 then
    lbcPixel d f (attTable a s) (attBase a + s * lbcBlocks (attW a) (attH a) * 64 * n) (attW a) (attFmt a)
      (some ((lbcClear d f (attMeta a) (attFmt a)).getD 0)) x y
  else if attSamples a = 1 then (peek d f (attBase a + y * attPitch a + x * n) n).map leNat
  else none

/-- The samples of a pass. -/
def passSamples (p : PassRun) : Nat := attSamples (p.atts.headD [])

/-- The place of sample s of attachment i in a pixel's values. -/
def valAt (p : PassRun) (i s : Nat) : Nat := i * passSamples p + s

/-- The clears of a pass that are still to be rendered. -/
def clearsOf (p : PassRun) : List ClearOp := p.ops.filterMap (fun o => match o with | .clear c => some c | .prim _ => none)

/-- A free value of a pixel. -/
def freePixel (p : PassRun) (i s x y : Nat) : Nat :=
  Config.freePixel p.key i s x y % 2 ^ (8 * fmtBytes (attFmt (p.atts.getD i [])))

/-- A pixel as a bin loads it. After a split: what the split stored; before: LOAD = 0 what memory holds, LOAD = 1 the value that the
first clear of the attachment gives it, LOAD = 2 a free value (R155, R163). -/
def basePixel (d : Dev) (f : Nat) (p : PassRun) (i s x y : Nat) : Nat :=
  let a := p.atts.getD i []
  match p.held with
  | some h =>
    let v := (h.getD (y * attW a + x) []).getD (valAt p i s) 0
    if attMemless a then v else (loadedPixel d f a s x y).getD v
  | none =>
    if attLoad a = 0 ∧ !attMemless a then (loadedPixel d f a s x y).getD (freePixel p i s x y)
    else if attLoad a = 1 then ((clearsOf p).find? (clearHits p i)).elim (freePixel p i s x y) (clearPixel (attFmt a))
    else freePixel p i s x y

/-- All values of a pixel before rendering. -/
def baseVec (d : Dev) (f : Nat) (p : PassRun) (x y : Nat) : List Nat :=
  (List.range p.atts.length).flatMap (fun i => (List.range (passSamples p)).map (fun s => basePixel d f p i s x y))

/-! ### Rendering in primitive order (R159, R169) -/

/-- The bin of a pixel. -/
def binAt (p : PassRun) (x y : Nat) : Nat :=
  let t := tileOf (passBytes p.atts)
  y / t.2 * cdiv (attW (p.atts.headD [])) t.1 + x / t.1

/-- Is a pixel inside a scissor? The rectangle's end is exclusive as a clear's is (notes/assumptions/141). -/
def inScissor (sc : List Word) (x y : Nat) : Bool :=
  sc == [] || (decide (bits (wd sc 0) 15 0 ≤ x) && decide (x < bits (wd sc 1) 15 0) &&
    decide (bits (wd sc 0) 31 16 ≤ y) && decide (y < bits (wd sc 1) 31 16))

/-- Does a primitive reach a pixel? Which of the pixels there it covers is for its opaque functions. -/
def primHits (p : PassRun) (q : PrimOp) (x y : Nat) : Bool := q.bins.contains (binAt p x y) && inScissor q.scissor x y

/-- Values of a pixel, each cut to its format; what a list does not give stays. -/
def cutVec (p : PassRun) (old new : List Nat) : List Nat :=
  (List.range old.length).map (fun k =>
    new.getD k (old.getD k 0) % 2 ^ (8 * fmtBytes (attFmt (p.atts.getD (k / passSamples p) []))))

/-- The critical section of a primitive at a pixel, of all its samples or of sample s alone (R169). -/
def runCrit (p : PassRun) (q : PrimOp) (only : Option Nat) (x y : Nat) (v : List Nat) : List Nat :=
  let w := cutVec p v (Config.critical p.key q.n x y v)
  match only with
  | none => w
  | some s => (List.range v.length).map (fun k => if k % passSamples p = s then w.getD k 0 else v.getD k 0)

/-- The critical sections of a primitive at a pixel: one of the pixel, or one of each sample. -/
def runCrits (p : PassRun) (q : PrimOp) (x y : Nat) (v : List Nat) : List Nat :=
  if q.lock % 2 = 0 then runCrit p q none x y v
  else (List.range (passSamples p)).foldl (fun v s => runCrit p q (some s) x y v) v

/-- A primitive at a pixel: in an ordered mode its critical section, then its fixed-function work. -/
def runPrim (p : PassRun) (x y : Nat) (v : List Nat) (q : PrimOp) : List Nat :=
  let v1 := if q.lock < 2 then runCrits p q x y v else v
  cutVec p v1 (Config.shade p.key q.n x y v1)

/-- A primitive joins an order of critical sections that the spec leaves open. -/
def insertCrit (p : PassRun) (x y s : Nat) (q : PrimOp) : List PrimOp → List PrimOp
  | [] => [q]
  | r :: rs => if Config.criticalBefore p.key x y s q.n r.n then q :: r :: rs else r :: insertCrit p x y s q rs

/-- The critical sections of the unordered modes run one at a time, in a free order: of the pixel, or of each sample. -/
def runUnordered (p : PassRun) (x y : Nat) (qs : List PrimOp) (v : List Nat) : List Nat :=
  let v1 := (((qs.filter (fun q => q.lock == 2)).foldr (insertCrit p x y 0) []).foldl (fun v q => runCrit p q none x y v) v)
  (List.range (passSamples p)).foldl (fun v s =>
    ((qs.filter (fun q => decide (q.lock > 2))).foldr (insertCrit p x y s) []).foldl (fun v q => runCrit p q (some s) x y v) v) v1

/-- The primitives between two clears, at one pixel. DESIGN CHOICE (notes/assumptions/142): unordered critical sections run before the
fixed-function work of their run, and a split or a clear ends a run. -/
def runPrims (p : PassRun) (x y : Nat) (qs : List PrimOp) (v : List Nat) : List Nat :=
  let hit := qs.filter (fun q => primHits p q x y)
  hit.foldl (runPrim p x y) (runUnordered p x y hit v)

/-- A clear at a pixel. -/
def runClear (p : PassRun) (o : ClearOp) (x y : Nat) (v : List Nat) : List Nat :=
  if inClear o x y then
    (List.range v.length).map (fun k =>
      let i := k / passSamples p
      if clearHits p i o then clearPixel (attFmt (p.atts.getD i [])) o else v.getD k 0)
  else v

/-- What the lists make of a pixel, in stream order. -/
def runOps (p : PassRun) (x y : Nat) : List PassOp → List PrimOp → List Nat → List Nat
  | [], run, v => runPrims p x y run v
  | .clear o :: ops, run, v => runOps p x y ops [] (runClear p o x y (runPrims p x y run v))
  | .prim q :: ops, run, v => runOps p x y ops (run ++ [q]) v

/-- All values of a pixel when its bin is rendered. -/
def pixelVec (d : Dev) (f : Nat) (p : PassRun) (x y : Nat) : List Nat := runOps p x y p.ops [] (baseVec d f p x y)

/-- Sample s of attachment i of a pixel when its bin is rendered. -/
def passPixel (d : Dev) (f : Nat) (p : PassRun) (i s x y : Nat) : Nat := (pixelVec d f p x y).getD (valAt p i s) 0

/-! ### Storing (R155, R163, R170, R173, R174) -/

/-- An uncompressed attachment is stored row by row; d0 is memory before the pass. -/
def storePlain (d0 d : Dev) (f mid : Nat) (p : PassRun) (i : Nat) (a : List Word) : Dev × Bool :=
  if attSamples a ≠ 1 then freeRegions d f mid (attRegions a)
  else
    (List.range (attH a)).foldl (fun (acc : Dev × Bool) y =>
      if acc.2 then
        let bs := ((List.range (attW a)).map (fun x => passPixel d0 f p i 0 x y)).flatMap (leBytes (fmtBytes (attFmt a)))
        memWritePages (pagesFuel bs.length) acc.1 f mid (attBase a + y * attPitch a) bs
      else acc) (d, true)

/-- The header of a surface that a fast clear writes whole (R170, R174). -/
def fastHeader (a : List Word) (v : Nat) : List Byte :=
  leBytes 4 0x4C424331 ++ leBytes 4 (0x100 + attFmt a) ++ leBytes 4 (attH a * 2 ^ 16 + attW a) ++ leBytes 4 0 ++
    leBytes 8 v ++ leBytes 40 0

/-- The header of an LBC surface is stored (R170, R174): whole with the value of each fast clear, in order; without one MAGIC, FORMAT and the
size, and CLEAR_VALID and CLEAR_VALUE stay (DESIGN CHOICE, notes/assumptions/138). -/
def storeHeader (d : Dev) (f mid : Nat) (p : PassRun) (i : Nat) (a : List Word) : Dev × Bool :=
  match ((clearsOf p).filter (fun o => o.fast && clearHits p i o)).getLast? with
  | some o => memWritePages 2 d f mid (attMeta a) (fastHeader a (clearPixel (attFmt a) o))
  | none =>
    let w := memWritePages 2 d f mid (attMeta a) (leBytes 4 0x4C424331 ++ [BitVec.ofNat 8 (attFmt a)])
    if w.2 then memWritePages 2 w.1 f mid (attMeta a + 8) (leBytes 4 (attH a * 2 ^ 16 + attW a)) else w

/-- One block of an LBC attachment is stored (R170, R173); where the other nibble of its byte lies outside DRAM it is free. -/
def storeBlock (d : Dev) (key f mid tab slot k fmt : Nat) (clear : Option Nat) (px : List (Option Nat)) : Dev × Bool :=
  let e := lbcEncode fmt clear px
  let old := ((peek d f (tab + k / 2) 1).map leNat).getD (Config.freePixel key 9 0 (tab + k / 2) 0 % 256)
  let w := memWritePages 3 d f mid slot e.2
  if w.2 then
    memWrite w.1 f mid (tab + k / 2) [BitVec.ofNat 8 (if k % 2 = 0 then old / 16 * 16 + e.1 else e.1 * 16 + old % 16)]
  else w

/-- The pixels of a block of an attachment; none outside the surface. -/
def blockPixels (d0 : Dev) (f : Nat) (p : PassRun) (i s : Nat) (a : List Word) (k : Nat) : List (Option Nat) :=
  (List.range 64).map (fun q =>
    let x := k % lbcAcross (attW a) * 8 + q % 8
    let y := k / lbcAcross (attW a) * 8 + q / 8
    if x < attW a ∧ y < attH a then some (passPixel d0 f p i s x y) else none)

/-- An LBC attachment is stored, block by block, each sample as a surface of its own (R170). -/
def storeLbc (d0 d : Dev) (f mid : Nat) (p : PassRun) (i : Nat) (a : List Word) : Dev × Bool :=
  let n := fmtBytes (attFmt a)
  let b := lbcBlocks (attW a) (attH a)
  let w0 := storeHeader d f mid p i a
  let clear := lbcClear w0.1 f (attMeta a) (attFmt a)
  (List.range (attSamples a)).foldl (fun (acc : Dev × Bool) s =>
    (List.range b).foldl (fun (acc : Dev × Bool) k =>
      if acc.2 then
        storeBlock acc.1 p.key f mid (attTable a s) (attBase a + s * b * 64 * n + k * 64 * n) k (attFmt a) clear
          (blockPixels d0 f p i s a k)
      else acc) acc) w0

/-- Is an attachment stored: at a split all but the memoryless ones, at the end those with STORE = 0? -/
def storesAtt (split : Bool) (a : List Word) : Bool := !attMemless a && (split || attStore a == 0)

/-- Every bin is rendered and the attachments are stored (R155, R163). -/
def storePass (d : Dev) (c : Nat) (j : JobRun) (p : PassRun) (split : Bool) : Dev × Bool :=
  (List.range p.atts.length).foldl (fun (acc : Dev × Bool) i =>
    let a := p.atts.getD i []
    if !acc.2 || !storesAtt split a then acc
    else if attMeta a ≠ 0 then storeLbc d acc.1 j.f (jobMid d c) p i a
    else storePlain d acc.1 j.f (jobMid d c) p i a) (d, true)

/-- The attachments that the bins load: those with LOAD = 0, after a split all; never a memoryless one from memory. -/
def loadsOf (p : PassRun) : List (List Word) :=
  p.atts.filter (fun a => !attMemless a && (p.held.isSome || attLoad a == 0))

/-- The blocks of loaded LBC attachments with a reserved state are told, of every sample (R165, R171). -/
def tellBadBlocks (d : Dev) (c : Nat) (j : JobRun) (p : PassRun) : Dev :=
  (loadsOf p).foldl (fun d a =>
    if attMeta a = 0 then d
    else (List.range (attSamples a)).foldl (fun d s =>
      (List.range (lbcBlocks (attW a) (attH a))).foldl (fun d k =>
        if (lbcState d j.f (attTable a s) k).any (fun t => decide (t ≥ 7)) then jobEvent d c 3 k else d) d) d) d

/-- The first fault that the loads of a pass meet (R175). -/
def loadFault (d : Dev) (j : JobRun) (p : PassRun) : Option (Nat × Nat) :=
  ((loadsOf p).flatMap attRegions).findSome? (fun r =>
    if r.2 = 0 then none else firstFault d j.f false false (pagesOf r.1 r.2))

/-- Do the loads of a pass meet a line with an invalid code (R175)? -/
def loadBad (d : Dev) (j : JobRun) (p : PassRun) : Bool :=
  ((loadsOf p).flatMap attRegions).any (fun r => (readPages (pagesFuel r.2) d j.f r.1 0 r.2 []).isNone)

/-- The rendering phase of the open pass: its loads, and what it stores. A failed access ends the job. -/
def renderPass (d : Dev) (c : Nat) (j : JobRun) (p : PassRun) (split : Bool) : Dev × Bool :=
  match loadFault d j p with
  | some (t, a) => (jobFaulted (noteFault d j.f (jobMid d c) t a false) c stERR_FAULT, false)
  | none =>
    if loadBad d j p then (jobFaulted d c stERR_ECC, false)
    else
      let w := storePass (tellBadBlocks d c j p) c j p split
      if w.2 then w else (jobFaulted w.1 c stERR_FAULT, false)

/-! ### Binning and splits (R158, R159, R162 to R164) -/

/-- Every pixel of a pass as rendered, row by row. -/
def heldVecs (d : Dev) (f : Nat) (p : PassRun) : List (List Nat) :=
  let w := attW (p.atts.headD [])
  (List.range (w * attH (p.atts.headD []))).map (fun k => pixelVec d f p (k % w) (k / w))

/-- A split (R163): every bin is rendered, every attachment stored, the memoryless ones in the split scratch, whose LBC layout there the
spec does not give; the lists and the siding are freed. -/
def splitPass (d : Dev) (c : Nat) : Dev × Bool :=
  match (gctx d c).job with
  | none => (d, false)
  | some j =>
    match j.pass with
    | none => (d, false)
    | some p =>
      let sc := if p.atts.any attMemless then [((gctx d c).scratch.base, scratchNeed p.atts)] else []
      let r := renderPass d c j p true
      if !r.2 then r
      else
        let w := freeRegions r.1 j.f (jobMid d c) sc
        if w.2 then
          let d1 := onJob (onPass (count w.1 263) c (fun q =>
              { q with used := 0, siding := false, lists := [], ops := [], held := some (heldVecs d j.f p) })) c
            (fun j => { j with splits := j.splits + 1 })
          (if fb d1 GX_CTRL GX_CTRL_SPLIT_EVT then jobEvent d1 c 2 (j.splits + 1) else d1, true)
        else (jobFaulted w.1 c stERR_FAULT, false)

/-- The highest use of the pool and of its siding so far (R153). -/
def noteUse (d : Dev) (c : Nat) : Dev :=
  let x := gctx d c
  onJob d c (fun j =>
    match j.pass with
    | none => j
    | some p =>
      let main := min p.used (x.pool.pages * 4096)
      { j with poolHwm := max j.poolHwm (cdiv main 4096), sidingHwm := max j.sidingHwm (cdiv (p.used - main) 4096) })

/-- The siding joins the pool; its first use in a job is told (R162). -/
def joinSiding (d : Dev) (c : Nat) : Dev :=
  match (gctx d c).job with
  | none => d
  | some j =>
    let d1 := onPass d c (fun p => { p with siding := true })
    if j.sidingUsed then d1
    else
      let d2 := onJob (count d1 264) c (fun j => { j with sidingUsed := true })
      if fb d2 GX_CTRL GX_CTRL_SIDING_EVT then jobEvent d2 c 1 (gctx d2 c).siding.pages else d2

/-- The bins of a primitive that the pass has. -/
def primBins (p : PassRun) (q : Prim) : List Nat := (q.bins.filter (fun b => decide (b < binsOf p.atts))).eraseDups

/-- The bytes that a primitive takes (R158): a chunk of 128 bytes in each of its bins whose chunks of 15 entries are full, and 16 bytes a
vertex and a varying vector, of at most three vertices with 32. -/
def primBytes (p : PassRun) (q : Prim) : Nat :=
  128 * ((primBins p q).filter (fun b => decide (p.lists.count b % 15 = 0))).length +
    ((q.verts.take 3).map (fun v => 16 + 16 * min v 32)).sum

/-- Where n bytes after the first `used` of the pool lie, and of the siding behind it. -/
def poolSpan (x : GpuCtx) (used n : Nat) : List (Nat × Nat) :=
  let main := x.pool.pages * 4096
  let a := min n (main - used)
  (if a = 0 then [] else [(x.pool.base + used, a)]) ++
    (if n - a = 0 then [] else [(x.siding.base + (max used main - main), n - a)])

/-- A primitive joins the lists. -/
def joinLists (p : PassRun) (lock : Nat) (q : Prim) : PassRun :=
  { p with
    used := p.used + primBytes p q
    lists := p.lists ++ primBins p q
    ops := p.ops ++ [.prim { n := p.prims, bins := primBins p q, scissor := p.scissor, lock := lock }]
    prims := p.prims + 1 }

/-- The free space after a primitive is compared with Q (R162). -/
def overflow (d : Dev) (c : Nat) : Dev × Bool :=
  match (gctx d c).job.bind (fun j => j.pass) with
  | none => (d, false)
  | some p =>
    let x := gctx d c
    let main := x.pool.pages * 4096
    let joins := decide (main - p.used < p.q) && decide (x.siding.pages ≠ 0) && !p.siding
    let d1 := if joins then joinSiding d c else d
    if main + (if p.siding || joins then x.siding.pages * 4096 else 0) - p.used < p.q then splitPass d1 c else (d1, true)

/-- One primitive is binned: its entries and vertices are written to the pool, in a form that the spec does not give. -/
def binPrim (d : Dev) (c : Nat) (q : Prim) : Dev × Bool :=
  match (gctx d c).job with
  | none => (d, false)
  | some j =>
    match j.pass with
    | none => (d, false)
    | some p =>
      let w := freeRegions d j.f (jobMid d c) (poolSpan (gctx d c) p.used (primBytes p q))
      if w.2 then overflow (noteUse (onPass w.1 c (fun p => joinLists p j.lock q)) c) c
      else (jobFaulted w.1 c stERR_FAULT, false)

/-- Primitives are binned in primitive order. -/
def binPrims (d : Dev) (c : Nat) : List Prim → Dev × Bool
  | [] => (d, true)
  | q :: qs =>
    let r := binPrim d c q
    if r.2 then binPrims r.1 c qs else r

/-- A draw: its shader objects are checked, its primitives are binned, and its shaders' writes happen. -/
def drawWith (c : Nat) (objs : List ObjIn) (prims : List Prim) (st : List ShaderStore) (j : JobRun) (d : Dev) : Dev × Bool :=
  let o := useObjs c j.f objs d
  if !o.2 then o
  else
    let r := binPrims o.1 c prims
    if r.2 then withStores c st j r.1 else r

def doPktDraw (c : Nat) (w : List Word) (objs : List ObjIn) (prims : List Prim) (st : List ShaderStore) (d : Dev) : Dev :=
  pktRun c 0x04 w (fun j => pktN w == 4 && j.pass.isSome) (drawWith c objs prims st) d

/-- DRAW_INDEXED: the index buffer's IOVA has bit 0 for 16-bit indices, bit 1 zero, and is aligned to the index size (R154). -/
def doPktDrawIndexed (c : Nat) (w : List Word) (objs : List ObjIn) (prims : List Prim) (st : List ShaderStore) (d : Dev) : Dev :=
  pktRun c 0x05 w (fun j => pktN w == 7 && j.pass.isSome && !bit (wd w 6) 1) (drawWith c objs prims st) d

/-- The argument records of an indirect draw are read (R154, R175). -/
def actDrawIndirect (c : Nat) (w : List Word) (m : MemIn) (objs : List ObjIn) (prims : List Prim) (st : List ShaderStore)
    (j : JobRun) (d : Dev) : Dev × Bool :=
  let n := (wd w 3).toNat
  let len := if n = 0 then 0 else (n - 1) * (wd w 4).toNat + (if bit (wd w 5) 0 then 20 else 16)
  match (if len = 0 then none else firstFault d j.f false m.ats (pagesOf (wd64 w 1) len)) with
  | some (t, a) => (jobFaulted (noteFault d j.f (jobMid d c) t a false) c stERR_FAULT, false)
  | none =>
    if m.ecc || (readPages (pagesFuel len) d j.f (wd64 w 1) 0 len []).isNone then (jobFaulted d c stERR_ECC, false)
    else drawWith c objs prims st j d

def doPktDrawIndirect (c : Nat) (w : List Word) (m : MemIn) (objs : List ObjIn) (prims : List Prim) (st : List ShaderStore)
    (d : Dev) : Dev :=
  pktRun c 0x06 w (fun j => pktN w == 5 && j.pass.isSome && bits (wd w 5) 31 1 == 0)
    (actDrawIndirect c w m objs prims st) d

def doPktDispatch (c : Nat) (w : List Word) (st : List ShaderStore) (d : Dev) : Dev :=
  pktRun c 0x09 w (fun j => pktN w == 3 && j.pass.isNone) (withStores c st) d

/-- The workgroup counts of an indirect dispatch are read (R154, R175). -/
def actDispatchIndirect (c : Nat) (w : List Word) (m : MemIn) (st : List ShaderStore) (j : JobRun) (d : Dev) : Dev × Bool :=
  let r := memRead d j.f (jobMid d c) (wd64 w 1) 3 m
  match readFailed r.2 with
  | some s => (jobFaulted r.1 c s, false)
  | none => withStores c st j r.1

def doPktDispatchIndirect (c : Nat) (w : List Word) (m : MemIn) (st : List ShaderStore) (d : Dev) : Dev :=
  pktRun c 0x0A w (fun j => pktN w == 2 && j.pass.isNone) (actDispatchIndirect c w m st) d

/-! ### PASS_END (R154, R155, R162) -/

/-- PASS_END ends the pass: every bin is rendered, and each attachment's store operation applies. -/
def actPassEnd (c : Nat) (j : JobRun) (d : Dev) : Dev × Bool :=
  match j.pass with
  | none => (d, true)
  | some p =>
    let w := renderPass d c j p false
    if w.2 then
      (noteWrote (onJob w.1 c (fun j => { j with pass := none })) c ((attStored p false).flatMap attRegions), true)
    else w

def doPktPassEnd (c : Nat) (w : List Word) (d : Dev) : Dev :=
  pktRun c 0x08 w (fun j => pktN w == 0 && j.pass.isSome) (actPassEnd c) d

/-! ### The end of a job (R153, R154, R175) -/

/-- JOB_COMPLETE: the stream is at its end; inside a pass that is an error (R154). -/
def doJobComplete (c : Nat) (d : Dev) : Dev :=
  match (gctx d c).job with
  | none => d
  | some j =>
    if (gctx d c).state ≠ 2 ∨ j.call.isSome ∨ j.off < j.dwords then d
    else if j.pass.isSome then endJobRun d c stBAD_DESC 0
    else endJobRun d c stOK 0

/-- JOB_FAULT (R175): `lost` are the regions that the rest of the job would have written. -/
def doJobFault (c : Nat) (k : JobFaultKind) (lost : List (Nat × Nat)) (d : Dev) : Dev :=
  match (gctx d c).job with
  | none => d
  | some j =>
    if (gctx d c).state ≠ 2 then d
    else
      let d := noteWrote d c lost
      match k with
      | .translation t iova wr => endJobRun (noteFault d j.f (jobMid d c) t.val iova.toNat wr) c stERR_FAULT (jobOffset j)
      | .ecc => endJobRun d c stERR_ECC (jobOffset j)

/-! ### The commands -/

/-- PKT_NOP (R154). -/
def execPktNop (c : Ctx) (w : List Word) (s : State) : Host.Outcome State Fault Refusal :=
  .next { s with dev := doPktNop c.val w s.dev }

/-- PKT_TARGET (R161). -/
def execPktTarget (c : Ctx) (w : List Word) (s : State) : Host.Outcome State Fault Refusal :=
  .next { s with dev := doPktTarget c.val w s.dev }

/-- PKT_STATE (R156). -/
def execPktState (c : Ctx) (w : List Word) (m : MemIn) (s : State) : Host.Outcome State Fault Refusal :=
  .next { s with dev := doPktState c.val w m s.dev }

/-- PKT_BIND (R154). -/
def execPktBind (c : Ctx) (w : List Word) (s : State) : Host.Outcome State Fault Refusal :=
  .next { s with dev := doPktBind c.val w s.dev }

/-- PKT_DRAW (R162). -/
def execPktDraw (c : Ctx) (w : List Word) (dr : DrawIn) (st : List ShaderStore) (s : State) :
    Host.Outcome State Fault Refusal :=
  .next { s with dev := doPktDraw c.val w dr.objs dr.prims st s.dev }

/-- PKT_DRAW_INDEXED (R154). -/
def execPktDrawIndexed (c : Ctx) (w : List Word) (dr : DrawIn) (st : List ShaderStore) (s : State) :
    Host.Outcome State Fault Refusal :=
  .next { s with dev := doPktDrawIndexed c.val w dr.objs dr.prims st s.dev }

/-- PKT_DRAW_INDIRECT (R154). -/
def execPktDrawIndirect (c : Ctx) (w : List Word) (m : MemIn) (dr : DrawIn) (st : List ShaderStore) (s : State) :
    Host.Outcome State Fault Refusal :=
  .next { s with dev := doPktDrawIndirect c.val w m dr.objs dr.prims st s.dev }

/-- PKT_CLEAR (R174). -/
def execPktClear (c : Ctx) (w : List Word) (s : State) : Host.Outcome State Fault Refusal :=
  .next { s with dev := doPktClear c.val w s.dev }

/-- PKT_PASS_END (R154). -/
def execPktPassEnd (c : Ctx) (w : List Word) (s : State) : Host.Outcome State Fault Refusal :=
  .next { s with dev := doPktPassEnd c.val w s.dev }

/-- PKT_DISPATCH (R154). -/
def execPktDispatch (c : Ctx) (w : List Word) (st : List ShaderStore) (s : State) : Host.Outcome State Fault Refusal :=
  .next { s with dev := doPktDispatch c.val w st s.dev }

/-- PKT_DISPATCH_INDIRECT (R154). -/
def execPktDispatchIndirect (c : Ctx) (w : List Word) (m : MemIn) (st : List ShaderStore) (s : State) :
    Host.Outcome State Fault Refusal :=
  .next { s with dev := doPktDispatchIndirect c.val w m st s.dev }

/-- PKT_BARRIER (R154). -/
def execPktBarrier (c : Ctx) (w : List Word) (s : State) : Host.Outcome State Fault Refusal :=
  .next { s with dev := doPktBarrier c.val w s.dev }

/-- PKT_CALL (R154). -/
def execPktCall (c : Ctx) (w : List Word) (s : State) : Host.Outcome State Fault Refusal :=
  .next { s with dev := doPktCall c.val w s.dev }

/-- PKT_TIMESTAMP (R154). -/
def execPktTimestamp (c : Ctx) (w : List Word) (s : State) : Host.Outcome State Fault Refusal :=
  .next { s with dev := doPktTimestamp c.val w s.dev }

/-- PKT_SCISSOR (R154). -/
def execPktScissor (c : Ctx) (w : List Word) (s : State) : Host.Outcome State Fault Refusal :=
  .next { s with dev := doPktScissor c.val w s.dev }

/-- JOB_COMPLETE (R153). -/
def execJobComplete (c : Ctx) (s : State) : Host.Outcome State Fault Refusal :=
  .next { s with dev := doJobComplete c.val s.dev }

/-- JOB_FAULT (R175). -/
def execJobFault (c : Ctx) (k : JobFaultIn) (s : State) : Host.Outcome State Fault Refusal :=
  .next { s with dev := doJobFault c.val k.kind k.lost s.dev }

end Sys2Proof.Machine
end

