-- ==== Sys2Proof/Machine/Buffers.lean ====
section
/-! DEFINITION. The buffer table, releases, the Skein claims and fetch faults (R238 to R258). -/

namespace Sys2Proof.Machine

/-! ### BUF_CREATE (R238 to R241) -/

/-- The FREE entries of the table. -/
def freeEntries (d : Dev) : List Nat := (List.range 8192).filter (fun i => decide ((bufEntry d i).state = 0))

/-- The entries that a function holds (R238): DYING ones count. -/
def heldEntries (d : Dev) (f : Nat) : List Nat :=
  (d.buf.tab.filter (fun p => decide (p.2.state ≠ 0) && decide (p.2.owner = f))).map (fun p => p.1)

/-- Chroma rows of a planar format. -/
def chromaRows (fmt h : Nat) : Nat := if fmt = 0x11 then h else h / 2

/-- The rules of R241 for a body. -/
def bufRulesOk (d : Dev) (ws : List Word) : Bool :=
  let w0 := at4 ws 0x10
  let fmt := bits w0 31 24
  let lbc := bit w0 23
  let width := bits (at4 ws 0x14) 15 0
  let height := bits (at4 ws 0x14) 31 16
  let base := at8 ws 0x18
  let aux := at8 ws 0x20
  let p0 := (at4 ws 0x28).toNat
  let p1 := (at4 ws 0x2C).toNat
  let wide := if fmt = 0x12 then 2 * width else width
  bodyOk ws [(0x10, 0xFFC00000), (0x14, full), (0x18, full), (0x1C, full), (0x20, full), (0x24, full), (0x28, full),
    (0x2C, full)] &&
  (fmtColour fmt || fmtPlanar fmt) && base % 256 == 0 &&
  decide (1 ≤ width) && decide (width ≤ 16384) && decide (1 ≤ height) && decide (height ≤ 16384) &&
  (if fmtPlanar fmt then
    !lbc && width % 2 == 0 && height % 2 == 0 && aux % 256 == 0 && p0 % 64 == 0 && p1 % 64 == 0 &&
    decide (wide ≤ p0) && decide (wide ≤ p1)
  else if lbc then aux % 64 == 0
  else aux == 0 && p1 == 0 && p0 % 64 == 0 && decide (width * fmtBytes fmt ≤ p0)) &&
  !(d.heritage && [0x08, 0x11, 0x12].contains fmt)

/-- The checks of BUF_CREATE (R238, R241). -/
def chkBufCreate (d : Dev) (f _r : Nat) (q : Desc) : Option (Nat × Nat) :=
  if !bufRulesOk d q.words then some (stBAD_DESC, 0)
  else if (heldEntries d f).length ≥ ptBufMax d f ∨ freeEntries d = [] then some (stNO_RESOURCE, 0)
  else none

/-- An entry becomes LIVE with the words of its BUF_CREATE (R239). -/
def createEntry (d : Dev) (i f : Nat) (ws : List Word) : Dev :=
  showEntries (onBuf d i (fun e => { (default : BufEntry) with state := 1, gen := e.gen, owner := f, words := ws }))

/-- BUF_CREATE (R240): a FREE entry becomes LIVE; which one the spec leaves open. -/
def actBufCreate (f r : Nat) (q : Desc) (d : Dev) : Dev :=
  if bankerLike d then complete d f r q.idx stOK
  else
    let fr := freeEntries d
    let i := fr.getD ((takeFree d).1 % fr.length) 0
    let d1 := createEntry (takeFree d).2 i f (atN q.words 0x10 8)
    complete (sendBuf d1 i) f r q.idx stOK (handleOf d1 i).toNat

def doBufCreate (f r : Nat) (d : Dev) : Dev := startDesc d f r 0x300 [] true chkBufCreate actBufCreate

/-! ### BUF_RELEASE and BUF_DESTROY (R247, R248) -/

/-- The handle of a body whose only operand it is. -/
def chkHandle (d : Dev) (f _r : Nat) (q : Desc) : Option (Nat × Nat) :=
  if !bodyOk q.words [(0x10, full)] then some (stBAD_DESC, 0)
  else (handleBad d f (at4 q.words 0x10)).map (fun st => (st, 0))

/-- A release or a destroy waits for the references that exist now; without one it completes at once with DETAIL 1. -/
def actRelease (destroy : Bool) (f r : Nat) (q : Desc) (d : Dev) : Dev :=
  let i := handleIdx (at4 q.words 0x10)
  let d1 := if destroy then sendBuf (onBuf d i (fun e => { e with state := 2 })) i else d
  if refsOf d1 i = [] then
    let d2 := complete d1 f r q.idx stOK 1
    if destroy then freeEntry d2 i else d2
  else
    let w : BufWait := { fn := f, ring := r, idx := q.idx, upto := d1.nextCommit, destroy := destroy, dt := d1.dt }
    onBuf d1 i (fun e => { e with waits := e.waits ++ [w] })

def doBufRelease (f r : Nat) (d : Dev) : Dev := startDesc d f r 0x320 [] true chkHandle (actRelease false)

def doBufDestroy (f r : Nat) (d : Dev) : Dev := startDesc d f r 0x310 [] true chkHandle (actRelease true)

/-! ### BUF_QUERY (R249) -/

/-- The checks of BUF_QUERY: a DYING entry may be queried. -/
def chkBufQuery (d : Dev) (f _r : Nat) (q : Desc) : Option (Nat × Nat) :=
  let h := at4 q.words 0x10
  let e := bufEntry d (handleIdx h)
  if !bodyOk q.words [(0x10, full), (0x18, full), (0x1C, full)] ∨ at8 q.words 0x18 % 64 ≠ 0 ∨ bits h 23 13 ≠ 0 ∨
     e.state = 0 ∨ bits h 31 24 ≠ e.gen % 256 then some (stBAD_DESC, 0)
  else if e.owner ≠ f then some (stERR_PERM, 0)
  else none

/-- BUF_QUERY writes 64 bytes (R249). -/
def actBufQuery (f r : Nat) (q : Desc) (d : Dev) : Dev :=
  let i := handleIdx (at4 q.words 0x10)
  let e := bufEntry d i
  let tail : List Word := [BitVec.ofNat 32 (e.state * 2 ^ 30 + sat (refsOf d i).length 65535),
    BitVec.ofNat 32 (sat (e.waits.filter (fun w => !w.destroy)).length 65535), 0, 0, 0, 0, 0, 0]
  let w := memWrite d f f (at8 q.words 0x18) (wordBytes (e.words ++ tail))
  complete w.1 f r q.idx (if w.2 then stOK else stERR_FAULT)

def doBufQuery (f r : Nat) (d : Dev) : Dev := startDesc d f r 0x340 [] true chkBufQuery actBufQuery

/-! ### SKEIN_RESERVE (R257) -/

/-- The claim of a function in a class. -/
def claimOf (d : Dev) (f c : Nat) : Nat := SMap.get d.buf.claims (4 * f + c)

/-- A function's claims over all classes with one of them set. -/
def claimsWith (d : Dev) (f c n : Nat) : Nat :=
  ((List.range 4).map (fun k => if k = c then n else claimOf d f k)).sum

/-- The checks of SKEIN_RESERVE, in their order (R257). -/
def chkSkeinReserve (d : Dev) (f _r : Nat) (q : Desc) : Option (Nat × Nat) :=
  let w := at4 q.words 0x10
  let c := bits w 31 30
  let n := bits w 13 0
  let others := ((List.range 32).map (fun k => if k = f then n else claimOf d k c)).sum
  if !bodyOk q.words [(0x10, 0xC0003FFF)] ∨ n > 8191 then some (stBAD_DESC, 0)
  else if c > ptCcMax d f ∧ !(c = 3 ∧ hasBit (rd d CM_CC3_AUTH).toNat f) then some (stERR_PERM, 0)
  else if claimsWith d f c n > ptSkeinMax d f ∨ others > skRes d (4 + c) then some (stNO_RESOURCE, 0)
  else none

/-- Runs of held blocks are cut so that the ones a test picks hold at most k. -/
def trimRuns (p : SkRun → Bool) : Nat → List SkRun → List SkRun
  | _, [] => []
  | k, r :: rs =>
    if !p r then r :: trimRuns p k rs
    else if k = 0 then trimRuns p 0 rs
    else { r with len := min k r.len } :: trimRuns p (k - r.len) rs

/-- SKEIN_RESERVE sets the claim; prefetched data beyond a lowered one is discarded (R257). -/
def actSkeinReserve (f r : Nat) (q : Desc) (d : Dev) : Dev :=
  let c := bits (at4 q.words 0x10) 31 30
  let n := bits (at4 q.words 0x10) 13 0
  let old := claimOf d f c
  let d0 := linkSend d 0x05 [2 ^ 32 + 2, f, c, n]
  let d1 := { d0 with buf := { d0.buf with claims := SMap.set d0.buf.claims (4 * f + c) n } }
  let mine (x : SkRun) : Bool := decide (x.pool = 4 + c) && decide (x.fn = f) && !x.lent
  let d2 := if n < old then
      let rs := trimRuns mine n d1.buf.runs
      showSkein { d1 with buf := { d1.buf with runs := rs } }
    else d1
  complete d2 f r q.idx stOK (claimsWith d2 f c n)

def doSkeinReserve (f r : Nat) (d : Dev) : Dev := startDesc d f r 0x330 [] true chkSkeinReserve actSkeinReserve

/-! ### Layer prefetch (R255, R256) -/

/-- The free blocks of a count that may not go below zero. -/
def roomIn (have0 used : Nat) : Nat := have0 - used

/-- How many blocks are held of the reserve of a class, lent ones included. -/
def heldIn (d : Dev) (pool : Nat) : Nat := skCount d (fun r => decide (r.pool = pool))

/-- A lent block of a reserve is reclaimed when its class needs it (R256): the borrowers lose k blocks. -/
def reclaim (d : Dev) (pool k : Nat) : Dev :=
  let lent := skCount d (fun r => decide (r.pool = pool) && r.lent)
  if k = 0 ∨ lent = 0 then d
  else
    let n := min k lent
    let rs := trimRuns (fun r => decide (r.pool = pool) && r.lent) (lent - n) d.buf.runs
    bump { d with buf := { d.buf with runs := rs.filter (fun r => r.len != 0) } } SK_STATUS SK_STATUS_RECLAIMS n

/-- A layer of class c and function f takes up to k blocks for prefetch, in the order of R255: its claim, the unclaimed
blocks of its class, the common remainder, then idle blocks of PF_CC0 and PF_CC1. -/
def prefetch (d : Dev) (layer f c k : Nat) : Dev :=
  let pool := 4 + c
  let claims := ((List.range 32).map (fun n => claimOf d n c)).sum
  let mine := skCount d (fun r => decide (r.pool = pool) && decide (r.fn = f) && !r.lent)
  let fromClaim := min k (roomIn (claimOf d f c) mine)
  let unclaimedUsed := (List.range 32).map (fun n =>
    skCount d (fun r => decide (r.pool = pool) && decide (r.fn = n) && !r.lent) - claimOf d n c)
  let k1 := k - fromClaim
  let fromClass := min k1 (roomIn (skRes d pool - claims) unclaimedUsed.sum)
  let own := fromClaim + fromClass
  let ovr := heldIn d pool + own - skRes d pool
  let d1 := skTakeLow (reclaim d pool ovr) pool own layer f false
  let k2 := k - own
  let common := roomIn (skCommon d1).toNat (skCount d1 (fun r => decide (r.pool = 8)))
  let n8 := min k2 common
  let d2 := if n8 = 0 then d1 else skTakeLow d1 8 n8 layer f false
  let lend (d : Dev) (p left : Nat) : Dev × Nat :=
    if p = pool then (d, left)
    else
      let n := min left (roomIn (skRes d p) (heldIn d p))
      if n = 0 then (d, left) else (skTakeLow d p n layer f true, left - n)
  let l0 := lend d2 4 (k2 - n8)
  let l1 := lend l0.1 5 l0.2
  showSkein l1.1

/-! ### Fetch faults (R250 to R252) -/

/-- The words of a layer as they are applied. -/
def layerWords (d : Dev) (k : Nat) : List Word := rds d (CM_LAYER k 0) 12

/-- The state of a layer unit (R206): 0 EMPTY, 1 ACTIVE, 2 PATCH. -/
def layerState (d : Dev) (k : Nat) : Nat := fg d (CM_LAYER_LSTAT k) CM_LAYER_LSTAT_STATE

/-- The platform that an applied layer is on. -/
def layerPlat (d : Dev) (k : Nat) : Nat := bits (wd (layerWords d k) 0) 27 24

/-- Has a layer's fetch failed in a frame of a platform (R250)? -/
def faultedIn (d : Dev) (p k frame : Nat) : Bool :=
  d.comp.faults.any (fun a => decide (a.layer = k) && decide (a.plat = p) && decide (a.abs / max 1 (raster d p).vtot = frame))

/-- Does a layer fetch no more in a frame, after a fault in it or an earlier one under STICKY (R250, R251)? -/
def layerOut (d : Dev) (p k frame : Nat) : Bool := d.comp.sticky.contains k || faultedIn d p k frame

/-- The cause code of R250. -/
def fetchCode (c : FetchCause) : Nat :=
  match c with
  | .dmmu t => t.val
  | .ecc => 0x10
  | .header => 0x11
  | .lbcState _ => 0

/-! ### Departure (R258) -/

/-- The buffers of a departing function: cast off without records, freed, claims dropped, waits discarded. -/
def bufDepart (d : Dev) (f : Nat) : Dev :=
  let hs := heldEntries d f
  let refs := d.buf.refs.filter (fun r => !hs.contains r.idx)
  let d1 := { d with buf := { d.buf with refs := refs } }
  let d2 := hs.foldl (fun d i => freeEntry d i) d1
  let cl := (List.range 4).foldl (fun m c => SMap.erase m (4 * f + c)) d2.buf.claims
  let rs := d2.buf.runs.filter (fun r => !(decide (4 ≤ r.pool) && decide (r.fn = f)))
  showSkein { d2 with buf := { d2.buf with claims := cl, runs := rs } }

/-! ### The commands -/

/-- BUF_CREATE (R240). -/
def execBufCreate (f : Fn) (r : Ring) (s : State) : Host.Outcome State Fault Refusal :=
  .next { s with dev := doBufCreate f.val r.val s.dev }

/-- BUF_DESTROY (R248). -/
def execBufDestroy (f : Fn) (r : Ring) (s : State) : Host.Outcome State Fault Refusal :=
  .next { s with dev := doBufDestroy f.val r.val s.dev }

/-- BUF_RELEASE (R247). -/
def execBufRelease (f : Fn) (r : Ring) (s : State) : Host.Outcome State Fault Refusal :=
  .next { s with dev := doBufRelease f.val r.val s.dev }

/-- SKEIN_RESERVE (R257). -/
def execSkeinReserve (f : Fn) (r : Ring) (s : State) : Host.Outcome State Fault Refusal :=
  .next { s with dev := doSkeinReserve f.val r.val s.dev }

/-- BUF_QUERY (R249). -/
def execBufQuery (f : Fn) (r : Ring) (s : State) : Host.Outcome State Fault Refusal :=
  .next { s with dev := doBufQuery f.val r.val s.dev }

end Sys2Proof.Machine
end

