-- ==== Sys2Proof/Machine/Pixel.lean ====
section
/-! DEFINITION. The arithmetic of a composed pixel (R209 to R225): binary16 values are integers in units of 2^-24, exact
results are rationals, and every stage rounds once (R222). -/

namespace Sys2Proof.Machine

/-! ### binary16 (R210, R222) -/

/-- 1.0. -/
def one16 : Int := 2 ^ 24

/-- The largest binary16 value, 65,504. -/
def max16 : Int := 65504 * 2 ^ 24

/-- A fraction rounded to the nearest integer, ties to even; the denominator is positive. -/
def roundEven (num : Int) (den : Nat) : Int :=
  let q := num / (den : Int)
  let r := num % (den : Int)
  if 2 * r > (den : Int) ∨ (2 * r = (den : Int) ∧ q % 2 = 1) then q + 1 else q

/-- A fraction rounded half up. -/
def roundUp (num : Int) (den : Nat) : Int := (2 * num + (den : Int)) / (2 * (den : Int))

/-- The exponent of a positive number: the place of its highest bit. -/
def topBit (n : Nat) : Nat := Nat.log2 n

/-- A rational number of units rounded to binary16, to nearest with ties to even, and saturated (R222). -/
def round16 (num : Int) (den : Nat) : Int :=
  let e := topBit (num.natAbs / den)
  let step := 2 ^ (e - 10)
  let v := roundEven num (den * step) * (step : Int)
  if v > max16 then max16 else if v < -max16 then -max16 else v

/-- The value of a binary16 bit pattern (R210): an infinity saturates, a NaN is zero. -/
def decode16 (p : Nat) : Int :=
  let e := p / 1024 % 32
  let m := p % 1024
  let v : Int := if e = 0 then (m : Int) else if e = 31 then (if m = 0 then max16 else 0) else ((1024 + m) * 2 ^ (e - 1) : Nat)
  if p / 32768 % 2 = 1 then -v else v

/-! ### Unpacking and scaling (R209 stages 1 and 2, R215) -/

/-- A layer's words of LAYER (R207), body word k. -/
def layBank (b : List Word) : Nat := bits (wd b 0) 28 28

def layTone (b : List Word) : Bool := bit (wd b 0) 30

def layMtx (b : List Word) : Bool := bit (wd b 0) 29

def layCC (b : List Word) : Nat := bits (wd b 0) 23 22

def layAlpha (b : List Word) : Nat := bits (wd b 0) 21 20

def layTf (b : List Word) : Nat := bits (wd b 0) 19 16

def layYuv (b : List Word) : Nat := bits (wd b 0) 15 13

def layGlobal (b : List Word) : Nat := bits (wd b 7) 31 24

def laySrcW (b : List Word) : Nat := bits (wd b 4) 15 0

def laySrcH (b : List Word) : Nat := bits (wd b 4) 31 16

def layDstW (b : List Word) : Nat := bits (wd b 6) 15 0

def layDstH (b : List Word) : Nat := bits (wd b 6) 31 16

def layDstX (b : List Word) : Int := sext (bits (wd b 5) 15 0) 16

def layDstY (b : List Word) : Int := sext (bits (wd b 5) 31 16) 16

/-- Coefficient k of MATRIX, in units of 2^-12. -/
def layM (b : List Word) (k : Nat) : Int :=
  sext (bitsN ((wd b 8).toNat + (wd b 9).toNat * 2 ^ 32 + (wd b 10).toNat * 2 ^ 64 + (wd b 11).toNat * 2 ^ 96)
    (14 * k + 13) (14 * k)) 14

/-- The source position of output index i in 16.16 fixed point (R215): start + (i + 0.5) × src / dst − 0.5. -/
def srcPos (start src dst i : Nat) : Int :=
  (start : Int) + (((2 * i + 1) * src * 65536 / (2 * dst) : Nat) : Int) - 32768

/-- The fraction of a source position in 64ths, rounded: 0 to 64 (R215). -/
def phase64 (x : Int) : Nat := ((64 * (x % 65536) + 32768) / 65536).toNat

/-- The phase of a source position, 0 to 63: 64 is phase 0 of the next pixel (R215). -/
def phaseOf (x : Int) : Nat := phase64 x % 64

/-- The pixel of a source position that its phase belongs to. -/
def pixelIdx (x : Int) : Int := x / 65536 + (if phase64 x = 64 then 1 else 0)

/-- The place that a tap weights: `back` before it, the nearest edge pixel of the rectangle from lo to hi outside it (R215). -/
def tapAt (x : Int) (t back lo hi : Nat) : Nat := (max (lo : Int) (min (hi : Int) (pixelIdx x + t - back))).toNat

/-- The horizontal coefficients of a phase, and the vertical ones, from a bank in the order of R217. -/
def hCoeff (bank : List Int) (p t : Nat) : Int := bank.getD (8 * p + t) 0

def vCoeff (bank : List Int) (p t : Nat) : Int := bank.getD (512 + 6 * p + t) 0

/-- The sum of the coefficients' products with the 48 taps of a channel (R215), in units of 2^-16. -/
def tapSum (bank : List Int) (ph pv : Nat) (taps : List Int) : Int :=
  let rows := (List.range 6).map (fun j =>
    ((List.range 8).map (fun t => hCoeff bank ph t * taps.getD (8 * j + t) 0)).foldl (· + ·) 0)
  ((List.range 6).map (fun j => vCoeff bank pv j * rows.getD j 0)).foldl (· + ·) 0

/-- The scaled value of one integer channel (R215), rounded half up. -/
def scaleTaps (bank : List Int) (ph pv : Nat) (taps : List Int) : Int := roundUp (tapSum bank ph pv taps) 65536

/-- An encoded pixel: colour channels and alpha as binary16 values. -/
structure Pix where
  r : Int
  g : Int
  b : Int
  a : Int
  deriving DecidableEq, Repr, Inhabited

/-- The unpacked value of an integer code of n bits (R222). -/
def unpack (v : Int) (n : Nat) : Int := round16 (v * one16) (2 ^ n - 1)

/-- The integer channels of a packed pixel as (R, G, B, A), with their widths; alpha 0 of width 0 where the format has
none (R168, R211). -/
def packedChans (fmt raw : Nat) : List (Nat × Nat) :=
  let ws := (fmtChans fmt).getD []
  let cs := chansOf ws raw
  let ch (k : Nat) : Nat × Nat := (cs.getD k 0, ws.getD k 0)
  if fmt = 0x08 then [ch 0, ch 1, ch 2, ch 3]
  else [ch 2, ch 1, ch 0, if fmt = 0x06 then (0, 0) else ch 3]

/-- A channel of a packed pixel from its taps: scaled when there are several (a video layer), and unpacked. A scaled FP16 channel is a
binary16 value, rounded once from the exact sum (R222). -/
def packedChan (fmt : Nat) (bank : List Int) (ph pv : Nat) (src : List Nat) (k : Nat) : Int :=
  let cw (raw : Nat) : Nat × Nat := (packedChans fmt raw).getD k (0, 0)
  let n := (cw 0).2
  if n = 0 then one16
  else if fmt = 0x08 then
    (if src.length ≤ 1 then decode16 (cw (src.headD 0)).1
     else round16 (tapSum bank ph pv (src.map (fun p => decode16 (cw p).1))) 65536)
  else if src.length ≤ 1 then unpack (cw (src.headD 0)).1 n
  else unpack (scaleTaps bank ph pv (src.map (fun p => ((cw p).1 : Int)))) n

/-! ### Luma and chroma (R212) -/

/-- Kr and Kb of a YUV code, in units of 10^-4 (BT.601, BT.709, BT.2020). -/
def yuvK (c : Nat) : Nat × Nat :=
  if c ≤ 1 then (2990, 1140) else if c ≤ 3 then (2126, 722) else (2627, 593)

/-- The conversion of R212 of luma y and chroma cb, cr, integer codes of n bits: each channel rounded once. -/
def yuvToRgb (code n : Nat) (y cb cr : Int) : Pix :=
  let k := yuvK code
  let kr : Int := k.1
  let kb : Int := k.2
  let kg : Int := 10000 - kr - kb
  let s : Int := ((2 ^ (n - 8) : Nat) : Int)
  let lim := decide (code % 2 = 0)
  let yn : Int := if lim then y - 16 * s else y
  let yd : Nat := if lim then 219 * 2 ^ (n - 8) else 2 ^ n - 1
  let c0 : Int := 128 * s
  let cd : Nat := if lim then 224 * 2 ^ (n - 8) else 2 ^ n - 1
  let u := cb - c0
  let v := cr - c0
  let den : Nat := yd * cd * 10000
  let base : Int := yn * (cd : Int) * 10000
  let r := base + 2 * (10000 - kr) * v * (yd : Int)
  let b := base + 2 * (10000 - kb) * u * (yd : Int)
  let g := base * kg - (2 * kb * (10000 - kb) * u + 2 * kr * (10000 - kr) * v) * (yd : Int)
  { r := round16 (r * one16) den, g := round16 (g * one16) (den * kg.toNat), b := round16 (b * one16) den, a := one16 }

/-- The bits of a luma or chroma code of a planar format: ten in P010, in the high bits of its 16 (R168). -/
def planarBits (fmt : Nat) : Nat := if fmt = 0x12 then 10 else 8

def planarCode (fmt raw : Nat) : Int := ((if fmt = 0x12 then raw / 64 else raw : Nat) : Int)

/-- Stages 1 to 3 of a sample (R209): the encoded RGBA pixel. -/
def encodedPix (fmt : Nat) (b : List Word) (bank : List Int) (ph pv phc pvc : Nat) (src chroma : List Nat) : Pix :=
  if fmtPlanar fmt then
    let half := if fmt = 0x12 then 65536 else 256
    let y := scaleTaps bank ph pv (src.map (planarCode fmt))
    let cb := scaleTaps bank phc pvc (chroma.map (fun c => planarCode fmt (c % half)))
    let cr := scaleTaps bank phc pvc (chroma.map (fun c => planarCode fmt (c / half)))
    yuvToRgb (layYuv b) (planarBits fmt) y cb cr
  else
    let ch := packedChan fmt bank ph pv src
    { r := ch 0, g := ch 1, b := ch 2, a := if layAlpha b = 0 then one16 else ch 3 }

/-! ### Transfer functions (R212, R222) -/

/-- The largest x below the bound with p x, for a p that holds up to some point. -/
def lastTrue (p : Nat → Bool) : Nat → Nat → Nat → Nat
  | 0, lo, _ => lo
  | fuel + 1, lo, hi =>
    if hi ≤ lo + 1 then lo
    else
      let mid := (lo + hi) / 2
      if p mid then lastTrue p fuel mid hi else lastTrue p fuel lo mid

/-- (num / den)^(e / 5) in units, rounded to binary16: by the fifth root at 2^-40 and whether it is exact. -/
def powFifths (num den e : Nat) : Int :=
  let n := num ^ e * 2 ^ 200
  let dd := den ^ e
  let t := lastTrue (fun t => decide (t ^ 5 * dd ≤ n)) 80 0 (2 ^ 64)
  round16 (2 * (t : Int) + (if t ^ 5 * dd = n then 0 else 1)) (2 ^ 17)

/-! PQ and HLG (R212, R214, R219): fixed point with 256 fraction bits. The curves are irrational; their exact values are approached within
2^-230 before the one rounding of R222 (notes/assumptions/143). -/

/-- 1 in fixed point. -/
def fxOne : Nat := 2 ^ 256

def fxMul (x y : Nat) : Nat := x * y / 2 ^ 256

def fxDiv (x y : Nat) : Nat := x * 2 ^ 256 / y

/-- x to a whole power, by squaring. -/
def fxPowGo : Nat → Nat → Nat → Nat
  | 0, _, _ => fxOne
  | fuel + 1, x, n =>
    if n = 0 then fxOne
    else
      let h := fxPowGo fuel (fxMul x x) (n / 2)
      if n % 2 = 1 then fxMul x h else h

def fxPow (x n : Nat) : Nat := fxPowGo 16 x n

/-- The n-th root of x. -/
def fxRoot (x n : Nat) : Nat := lastTrue (fun t => decide (fxPow t n ≤ x)) 320 0 (max x fxOne + 1)

/-- The terms of the exponential series from term k on. -/
def fxSeries : Nat → Nat → Nat → Nat → Nat
  | 0, _, _, _ => 0
  | fuel + 1, x, k, term => term + fxSeries fuel x (k + 1) (fxMul term x / (k + 1))

/-- e to the x, for x ≥ 0: the series at x / 2^24, squared 24 times. -/
def fxExp (x : Nat) : Nat := (List.range 24).foldl (fun v _ => fxMul v v) (fxSeries 64 (x / 2 ^ 24) 0 fxOne)

/-- The EOTF of SMPTE ST 2084: the part of 10,000 cd/m² of a code in [0, 1]. -/
def pqEotf (n : Nat) : Nat :=
  let e := fxPow (fxRoot n 2523) 32
  fxPow (fxRoot (fxDiv (e - 3424 * 2 ^ 244) (2413 * 2 ^ 249 - fxMul (2392 * 2 ^ 249) e)) 1305) 8192

/-- The inverse EOTF of SMPTE ST 2084. -/
def pqInverse (y : Nat) : Nat :=
  let t := fxPow (fxRoot y 8192) 1305
  fxPow (fxRoot (fxDiv (3424 * 2 ^ 244 + fxMul (2413 * 2 ^ 249) t) (fxOne + fxMul (2392 * 2 ^ 249) t)) 32) 2523

/-- The inverse OETF of BT.2100 HLG, continued above 1.0: a = 0.17883277, b = 1 - 4a, c = 0.5 - a ln 4a. -/
def hlgInverse (e : Nat) : Nat :=
  if 2 * e ≤ fxOne then fxMul e e / 3
  else
    let ex := fxExp ((e - 2 ^ 255) * 10 ^ 8 / 17883277)
    (4 * 17883277 * ex / 10 ^ 8 + (10 ^ 8 - 4 * 17883277) * fxOne / 10 ^ 8) / 12

/-- A binary16 value's magnitude in fixed point. -/
def fxOf (x : Int) : Nat := x.natAbs * 2 ^ 232

/-- The luminance of BT.2100 from its channels. -/
def hlgY (r g b : Int) : Int := (2627 * r + 6780 * g + 593 * b) / 10000

/-- The PQ decode of a channel in [0, 1]: absolute cd/m² over WHITE_NITS. -/
def pqDecode (nits : Nat) (x : Int) : Int := round16 ((pqEotf (fxOf x) * 10000 : Nat) : Int) (max 1 nits * 2 ^ 232)

/-- The HLG decode of channel ch (0 R, 1 G, 2 B) of a pixel: the inverse OETF by odd symmetry, then the OOTF for 1,000 cd/m², whose
luminance is taken by its absolute value. -/
def hlgDecode (nits ch : Nat) (r g b : Int) : Int :=
  let inv (x : Int) : Int := if x < 0 then -(hlgInverse (fxOf x) : Int) else (hlgInverse (fxOf x) : Int)
  let y := hlgY (inv r) (inv g) (inv b)
  let e := if ch = 0 then inv r else if ch = 1 then inv g else inv b
  round16 ((1000 * fxRoot y.natAbs 5 : Nat) * e) (max 1 nits * 2 ^ 488)

/-- The part num / den in fixed point of a channel in cd/m², clamped to [0, den]. -/
def fxPart (nits den : Nat) (x : Int) : Nat := if x ≤ 0 then 0 else min fxOne (x.natAbs * nits * 2 ^ 232 / den)

/-- The PQ code of a channel (R219): the largest whose lower edge the value reaches. -/
def pqEncode (nits : Nat) (x : Int) : Nat :=
  lastTrue (fun c => decide (c = 0) || decide (pqEotf ((2 * c - 1) * fxOne / 32766) ≤ fxPart nits 10000 x)) 16 0 16384

/-- The HLG code of channel ch of a pixel (R219): the inverse OOTF for 1,000 cd/m², then the OETF. -/
def hlgEncode (nits ch : Nat) (r g b : Int) : Nat :=
  let f (x : Int) : Nat := fxPart nits 1000 x
  let y := (hlgY (f r) (f g) (f b)).natAbs
  let v := if ch = 0 then f r else if ch = 1 then f g else f b
  let e := if y = 0 then 0 else fxDiv v (fxRoot y 6)
  lastTrue (fun c => decide (c = 0) || decide (hlgInverse ((2 * c - 1) * fxOne / 32766) ≤ e)) 16 0 16384

/-- Entry i of a tone curve; without a loaded one the identity (R214). -/
def toneEntry (curve : List Nat) (i : Nat) : Nat := if curve = [] then (2 * 65535 * i + 1023) / 2046 else curve.getD i 0

/-- The output code of a tone curve at code c, in fixed point: linear between two entries. -/
def toneCode (curve : List Nat) (c : Nat) : Nat :=
  let k := 1023 * c / fxOne
  let fr := 1023 * c % fxOne
  (toneEntry curve k * (fxOne - fr) + (if fr = 0 then 0 else toneEntry curve (k + 1) * fr)) / 65535

/-- Channel x of a pixel after the tone curve (R214): times m' / m, for its largest channel m. -/
def toneMap (curve : List Nat) (nits : Nat) (m x : Int) : Int :=
  let m' := pqEotf (toneCode curve (pqInverse (fxPart nits 10000 m)))
  round16 (x * ((m' * 10000 : Nat) : Int)) (m.natAbs * max 1 nits * 2 ^ 232)

/-- The decode of a non-negative channel by a power or the piecewise curve (R212); x in units. -/
def decodePos (tf x : Nat) : Int :=
  match tf with
  | 1 =>
    if x * 100000 ≤ 4045 * 2 ^ 24 then round16 ((x : Int) * 100) 1292
    else powFifths (1000 * x + 55 * 2 ^ 24) (1055 * 2 ^ 24) 12
  | 2 => powFifths x (2 ^ 24) 12
  | 5 => powFifths x (2 ^ 24) 11
  | _ => (x : Int)

/-- The decode of a pixel's channels (R212): odd symmetry below zero; PQ on [0, 1]. -/
def decodeTf (tf nits : Nat) (p : Pix) : Pix :=
  let odd (x : Int) : Int := if x < 0 then -(decodePos tf x.natAbs) else decodePos tf x.natAbs
  let clamp (x : Int) : Int := if x < 0 then 0 else if x > one16 then one16 else x
  if tf = 3 then
    { p with r := pqDecode nits (clamp p.r), g := pqDecode nits (clamp p.g), b := pqDecode nits (clamp p.b) }
  else if tf = 4 then
    { p with r := hlgDecode nits 0 p.r p.g p.b, g := hlgDecode nits 1 p.r p.g p.b, b := hlgDecode nits 2 p.r p.g p.b }
  else { p with r := odd p.r, g := odd p.g, b := odd p.b }

/-! ### Stages 4, 6, 7, 8 (R209, R211, R213, R214) -/

/-- Stage 4: premultiplication is removed; alpha 0 gives 0 in every channel. -/
def unPremult (p : Pix) : Pix :=
  if p.a = 0 then { r := 0, g := 0, b := 0, a := 0 }
  else
    let dv (x : Int) : Int := round16 ((if p.a < 0 then -x else x) * one16) p.a.natAbs
    { p with r := dv p.r, g := dv p.g, b := dv p.b }

/-- Stage 6: the matrix. -/
def applyMatrix (b : List Word) (p : Pix) : Pix :=
  let row (k : Nat) : Int := round16 (layM b (3 * k) * p.r + layM b (3 * k + 1) * p.g + layM b (3 * k + 2) * p.b) 4096
  { p with r := row 0, g := row 1, b := row 2 }

/-- Stage 7: the tone curve on the largest channel (R214). -/
def applyTone (curve : List Nat) (nits : Nat) (p : Pix) : Pix :=
  if p.r ≤ 0 ∧ p.g ≤ 0 ∧ p.b ≤ 0 then p
  else
    let m := max p.r (max p.g p.b)
    { p with r := toneMap curve nits m p.r, g := toneMap curve nits m p.g, b := toneMap curve nits m p.b }

/-- Stage 8: alpha and GLOBAL_ALPHA in one product. -/
def premultiply (ga : Nat) (p : Pix) : Pix :=
  let m (x : Int) : Int := round16 (x * p.a * (ga : Int)) (2 ^ 24 * 255)
  { r := m p.r, g := m p.g, b := m p.b, a := round16 (p.a * (ga : Int)) 255 }

/-- Stages 4 to 8 of a layer's pixel. -/
def layerPix (b : List Word) (nits : Nat) (curve : List Nat) (p0 : Pix) : Pix :=
  let p1 := if layAlpha b = 2 then unPremult p0 else p0
  let p2 := decodeTf (layTf b) nits p1
  let p3 := if layMtx b then applyMatrix b p2 else p2
  let p4 := if layTone b then applyTone curve nits p3 else p3
  premultiply (layGlobal b) p4

/-! ### Blending (R225) -/

/-- The factors Fs and Fd of an operator, from the two alphas, in units. -/
def blendFactors (op : Nat) (as ad : Int) : Int × Int :=
  match op with
  | 0x0 => (0, 0)
  | 0x1 => (one16, 0)
  | 0x2 => (0, one16)
  | 0x3 => (one16, one16 - as)
  | 0x4 => (one16 - ad, one16)
  | 0x5 => (ad, 0)
  | 0x6 => (0, as)
  | 0x7 => (one16 - ad, 0)
  | 0x8 => (0, one16 - as)
  | 0x9 => (ad, one16 - as)
  | 0xA => (one16 - ad, as)
  | 0xB => (one16 - ad, one16 - as)
  | _ => (one16, one16)

/-- One layer blended onto the stack below it. -/
def blend (op : Nat) (s d : Pix) : Pix :=
  let f := blendFactors op s.a d.a
  let m (x y : Int) : Int := round16 (f.1 * x + f.2 * y) (2 ^ 24)
  { r := m s.r d.r, g := m s.g d.g, b := m s.b d.b, a := m s.a d.a }

/-! ### The output pipeline (R219) -/

/-- A 10-bit colour word as a pixel in linear light (R220). -/
def colourPix (tf nits : Nat) (w : Word) : Pix :=
  decodeTf tf nits { r := unpack (bits w 29 20) 10, g := unpack (bits w 19 10) 10, b := unpack (bits w 9 0) 10, a := one16 }

/-- Does the exact encoding of x (a number of units in [0, 1]) reach (2 c − 1) / 2 of the 14-bit codes? The curve's inverse
is compared without roots. -/
def encReaches (tf x c : Nat) : Bool :=
  let h := 2 * c - 1
  let d := 2 * 16383
  match tf with
  | 1 =>
    if x * 10000000 ≤ 31308 * 2 ^ 24 then decide (h * 100 * 2 ^ 24 ≤ 1292 * x * d)
    else decide ((1000 * h + 55 * d) ^ 12 * (2 ^ 24) ^ 5 ≤ x ^ 5 * (1055 * d) ^ 12)
  | 2 => decide (h ^ 12 * (2 ^ 24) ^ 5 ≤ x ^ 5 * d ^ 12)
  | 5 => decide (h ^ 11 * (2 ^ 24) ^ 5 ≤ x ^ 5 * d ^ 11)
  | _ => decide (h * 2 ^ 24 ≤ x * d)

/-- The 14-bit code of a channel by a curve that is rational arithmetic's: rounded half up. -/
def encodeChan (tf : Nat) (x : Int) : Nat :=
  let u := if x < 0 then 0 else if x > one16 then (2 ^ 24 : Nat) else x.natAbs
  lastTrue (fun c => decide (c = 0) || encReaches tf u c) 16 0 16384

/-- Stages 1 and 2: negative channels are zero, and the pixel is encoded with OUT_TF. -/
def encodeOut (tf nits : Nat) (p : Pix) : List Nat :=
  let z (x : Int) : Int := if x < 0 then 0 else x
  if tf = 3 then [pqEncode nits (z p.r), pqEncode nits (z p.g), pqEncode nits (z p.b)]
  else if tf = 4 then (List.range 3).map (fun k => hlgEncode nits k (z p.r) (z p.g) (z p.b))
  else [encodeChan tf p.r, encodeChan tf p.g, encodeChan tf p.b]

/-- Stage 3: tetrahedral interpolation in the 17-node LUT; node k of an axis lies at code 1024 k. -/
def lutLookup (node : Nat → Nat → Nat → List Nat) (cs : List Nat) : List Nat :=
  let c (k : Nat) : Nat := cs.getD k 0
  let base (k : Nat) : Nat := c k / 1024
  let fr (k : Nat) : Nat := c k % 1024
  let ax0 := if fr 0 ≥ fr 1 ∧ fr 0 ≥ fr 2 then 0 else if fr 1 ≥ fr 2 then 1 else 2
  let rest := [0, 1, 2].filter (fun k => k != ax0)
  let ax1 := if fr (rest.getD 0 0) ≥ fr (rest.getD 1 0) then rest.getD 0 0 else rest.getD 1 0
  let ax2 := 3 - ax0 - ax1
  let at0 (on : List Nat) : List Nat :=
    node (base 0 + (on.contains 0).toNat) (base 1 + (on.contains 1).toNat) (base 2 + (on.contains 2).toNat)
  (List.range 3).map (fun ch =>
    let v (on : List Nat) : Nat := (at0 on).getD ch 0
    let sum := (1024 - fr ax0) * v [] + (fr ax0 - fr ax1) * v [ax0] + (fr ax1 - fr ax2) * v [ax0, ax1] + fr ax2 * v [0, 1, 2]
    min 16383 ((8 * sum + 1024) / 2048))

/-- The identity LUT (R220). -/
def identityNode (r g b : Nat) : List Nat := [min 4095 (256 * r), min 4095 (256 * g), min 4095 (256 * b)]

/-- The dither matrix of R219. -/
def ditherM (y x : Nat) : Nat :=
  ([[0, 8, 2, 10], [12, 4, 14, 6], [3, 11, 1, 9], [15, 7, 13, 5]].getD (y % 4) []).getD (x % 4) 0

/-- T of a pixel (R219): the matrix, turned a quarter turn for each frame when DITHER = 2. -/
def ditherT (dither frame x y : Nat) : Nat :=
  let y' := y % 4
  let x' := x % 4
  if dither = 2 then
    match frame % 4 with
    | 0 => ditherM y' x'
    | 1 => ditherM (3 - x') y'
    | 2 => ditherM (3 - y') (3 - x')
    | _ => ditherM x' (3 - y')
  else ditherM y' x'

/-- Stage 4: a 14-bit code at depth D (R219). -/
def reduceDepth (depth dither frame x y c : Nat) : Nat :=
  let m := 2 ^ depth - 1
  if dither = 0 then (2 * c * m + 16383) / (2 * 16383)
  else min m ((c * m * 32 + (2 * ditherT dither frame x y + 1) * 16383) / (32 * 16383))

end Sys2Proof.Machine
end

