-- ==== Sys2Proof/Machine/Composition.lean ====
section
/-! DEFINITION. Layer composition (R204 to R237): the checks of a commit chain, references of layers, strips and late
strips, and the pixels of a strip. Staged registers and landings are in Machine/Staging.lean and Machine/Landing.lean. -/

namespace Sys2Proof.Machine

/-! ### Who writes, and what stands after earlier commits (R208, R236) -/

/-- The authority of a commit: a function, or the safety island. -/
structure Auth where
  fn : Nat
  island : Bool
  deriving DecidableEq, Repr, Inhabited

/-- The MID that owns what a commit sets. -/
def Auth.mid (a : Auth) : Nat := if a.island then midSI else a.fn

/-- The result of checking one descriptor of a commit: a status, or its parts. -/
inductive Chk where
  | bad (status : Nat)
  | ok (items : List CommitItem)
  deriving DecidableEq, Repr

/-- The words of a layer in an item, if it is that layer's. -/
def layerItem (k : Nat) (it : CommitItem) : Option (List Word) :=
  match it with
  | .layer j _ ws => if j = k then some ws else none
  | _ => none

/-- All parts of accepted commits that have not landed, in acceptance order. -/
def pendingItems (d : Dev) : List CommitItem := d.commits.flatMap (fun c => c.items)

/-- The words of a layer as they will stand after every earlier accepted commit and the parts given. -/
def futureLayer (d : Dev) (items : List CommitItem) (k : Nat) : List Word :=
  (((pendingItems d ++ items).filterMap (layerItem k)).getLast?).getD (layerWords d k)

/-- Is a layer ID owned by the safety island (R228)? -/
def siLayer (d : Dev) (k : Nat) : Bool :=
  if k < 32 then bit (rd d CM_SI_LAYERS_LO) k else bit (rd d CM_SI_LAYERS_HI) (k - 32)

/-- May the writer set this layer (R208, R236)? -/
def mayLayer (d : Dev) (a : Auth) (k : Nat) : Bool :=
  if a.island then siLayer d k else ptLayer d a.fn k && !siLayer d k

/-- May the writer give a class (R208, R228)? -/
def mayClass (d : Dev) (a : Auth) (c : Nat) : Bool :=
  a.island || (if c = 3 then hasBit (rd d CM_CC3_AUTH).toNat a.fn else decide (c ≤ ptCcMax d a.fn))

/-! ### LAYER (R205, R207, R208, R216) -/

/-- The line-store blocks of a video source (R216). -/
def lineBlocks (srcW : Nat) : Nat := cdiv (6 * srcW * 8) 4096

/-- The line stores of all video layers as they will stand. -/
def lineStores (d : Dev) (items : List CommitItem) : Nat :=
  ((List.range 16).map (fun k =>
    let b := futureLayer d items k
    if bit (wd b 0) 31 then lineBlocks (laySrcW b) else 0)).sum

/-- A reserved bit or encoding in a LAYER with EN = 1 (R207). -/
def layerReserved (b : List Word) (planar : Bool) : Bool :=
  let w0 := wd b 0
  bits w0 10 6 != 0 || bits w0 21 20 == 3 || decide (bits w0 19 16 ≥ 6) ||
  (planar && (decide (bits w0 15 13 ≥ 6) || bits w0 12 11 == 3)) ||
  bits (wd b 7) 23 0 != 0 || bits (wd b 11) 31 30 != 0 ||
  laySrcW b == 0 || decide (laySrcW b > 16384) || laySrcH b == 0 || decide (laySrcH b > 16384) ||
  layDstW b == 0 || decide (layDstW b > 16383) || layDstH b == 0 || decide (layDstH b > 16383)

/-- The geometry rules of R208: graphic one to one, video inside the scale limits of R216. -/
def layerShapeOk (k : Nat) (b : List Word) : Bool :=
  if k ≥ 16 then
    layDstW b == laySrcW b && layDstH b == laySrcH b && bits (wd b 2) 15 0 == 0 && bits (wd b 3) 15 0 == 0 && layBank b == 0
  else
    decide (cdiv (laySrcW b) 4 ≤ layDstW b) && decide (layDstW b ≤ 16 * laySrcW b) &&
    decide (cdiv (laySrcH b) 4 ≤ layDstH b) && decide (layDstH b ≤ 16 * laySrcH b) && decide (laySrcW b ≤ 8192)

/-- The source rectangle lies in the plane, and the layer class reads the format (R205, R208). -/
def layerSourceOk (d : Dev) (k : Nat) (b : List Word) : Bool :=
  let e := (bufEntry d (handleIdx (wd b 1))).words
  let fmt := bits (wd e 0) 31 24
  decide ((wd b 2).toNat + laySrcW b * 65536 ≤ bits (wd e 1) 15 0 * 65536) &&
  decide ((wd b 3).toNat + laySrcH b * 65536 ≤ bits (wd e 1) 31 16 * 65536) &&
  (decide (k < 16) || !fmtPlanar fmt) && !(d.heritage && [0x08, 0x11, 0x12].contains fmt)

/-- The checks of a LAYER in the order of R208; `b` holds its body words. -/
def chkLayer (d : Dev) (a : Auth) (group : Nat) (items : List CommitItem) (b : List Word) : Chk :=
  let w0 := wd b 0
  let k := bits w0 5 0
  let en := bit w0 31
  let old := futureLayer d items k
  let it : CommitItem := .layer k a.mid b
  if items.any (fun i => (layerItem k i).isSome) then .bad stBAD_DESC
  else if !en then
    if bit (wd old 0) 31 ∧ !hasBit group (bits (wd old 0) 27 24) then .bad stBAD_DESC
    else if !mayLayer d a k then .bad stERR_PERM
    else .ok [it]
  else
    let e := (bufEntry d (handleIdx (wd b 1))).words
    if layerReserved b (fmtPlanar (bits (wd e 0) 31 24)) ∨ !hasBit group (bits w0 27 24) then .bad stBAD_DESC
    else if !layerShapeOk k b ∨ !layerSourceOk d k b then .bad stBAD_DESC
    else if !mayLayer d a k ∨ (!a.island ∧ !hasBit (ptPlatforms d a.fn) (bits w0 27 24)) ∨ !mayClass d a (layCC b) then
      .bad stERR_PERM
    else
      match handleBad d a.fn (wd b 1) with
      | some st => .bad st
      | none => if k < 16 ∧ lineStores d (items ++ [it]) > skRes d 1 then .bad stNO_RESOURCE else .ok [it]

/-! ### STITCH, GUARD (R224, R227, R228) -/

/-- Stitch s of a STITCH body. -/
def stitchAt (b : List Word) (s : Nat) : Nat := bits (wd b (2 + s / 2)) (16 * (s % 2) + 15) (16 * (s % 2))

def stitchCount (b : List Word) : Nat := if bit (wd b 0) 8 then bits (wd b 0) 4 0 else 0

/-- The checks of a STITCH (R224). -/
def chkStitch (_d : Dev) (a : Auth) (group : Nat) (items : List CommitItem) (b : List Word) : Chk :=
  let w0 := wd b 0
  let p := bits w0 19 16
  let n := stitchCount b
  let ss := (List.range n).map (stitchAt b)
  let dup := items.any (fun i => match i with
    | .stitch q _ => decide (q = p)
    | _ => false)
  if bits w0 31 20 ≠ 0 ∨ bits w0 15 9 ≠ 0 ∨ bits w0 7 5 ≠ 0 ∨ wd b 1 ≠ 0 ∨ wd b 10 ≠ 0 ∨ wd b 11 ≠ 0 ∨ dup ∨
     !hasBit group p ∨ n > 16 ∨ ss.any (fun s => decide (s / 16384 ≠ 0) || decide (s / 16 % 16 ≠ 0) || decide (s % 16 ≥ 0xD)) ∨
     (ss.map (fun s => s / 256 % 64)).eraseDups.length ≠ n then .bad stBAD_DESC
  else if a.island ∨ a.fn ≠ 0 then .bad stERR_PERM
  else .ok [.stitch p (b.take 10)]

/-- The owner of a guard region (R228). -/
def guardOwner (d : Dev) (p r : Nat) : Nat := bits (rd d (CM_GD_OWN p (r / 4))) (8 * (r % 4) + 7) (8 * (r % 4))

/-- Word 0 of a guard region as it will stand. -/
def futureGuard (d : Dev) (items : List CommitItem) (p r : Nat) : Word :=
  (((pendingItems d ++ items).filterMap (fun it => match it with
    | .guardR q s ws => if q = p ∧ s = r then some (wd ws 0) else none
    | _ => none)).getLast?).getD (rd d (CM_GUARD p r 0))

/-- The checks of a GUARD (R227, R228): a function that is not authorised for class 3 changes no region of that class. -/
def chkGuard (d : Dev) (a : Auth) (group : Nat) (items : List CommitItem) (b : List Word) : Chk :=
  let w0 := wd b 0
  let p := bits w0 27 24
  let r := bits w0 3 0
  let c := bits w0 23 22
  let dup := items.any (fun i => match i with
    | .guardR q s _ => decide (q = p) && decide (s = r)
    | _ => false)
  if bits w0 30 28 ≠ 0 ∨ bits w0 20 4 ≠ 0 ∨ bits (wd b 3) 31 30 ≠ 0 ∨ (List.range 8).any (fun k => wd b (4 + k) != 0) ∨ dup ∨
     !hasBit group p ∨ c = 0 ∨ bits (wd b 2) 15 0 ≤ bits (wd b 1) 15 0 ∨ bits (wd b 2) 31 16 ≤ bits (wd b 1) 31 16 then
    .bad stBAD_DESC
  else if guardOwner d p r ≠ a.mid ∨ !mayClass d a c ∨
      (bit (futureGuard d items p r) 31 ∧ bits (futureGuard d items p r) 23 22 = 3 ∧ !mayClass d a 3) then .bad stERR_PERM
  else .ok [.guardR p r (b.take 4)]

/-! ### PLATFORM_COLOUR, SCALER_BANK (R218, R220, R221) -/

/-- The 16-bit entries of a table's words. -/
def halves (ws : List Word) : List Nat := ws.flatMap (fun w => [bits w 15 0, bits w 31 16])

/-- The nodes of a LUT's words: two words each (R220). -/
def nodesOf : List Word → List Node
  | lo :: hi :: ws => { r := bits lo 11 0, g := bits lo 27 16, b := bits hi 11 0 } :: nodesOf ws
  | _ => []

/-- Is a bit set in a LUT's words that R220 calls zero? -/
def lutReserved : List Word → Bool
  | lo :: hi :: ws => bits lo 15 12 != 0 || bits lo 31 28 != 0 || bits hi 31 12 != 0 || lutReserved ws
  | _ => false

/-- A table of a commit is read for F0 at acceptance: its words, or a failing status (R221). -/
def readTable (d : Dev) (f a n : Nat) (m : MemIn) : Except Nat (List Word) :=
  match (memRead d f midCOMPOSE a n m).2 with
  | .fault => .error stERR_FAULT
  | .ecc => .error stERR_ECC
  | .words ws => .ok ws

/-- The reserved bits and encodings of a PLATFORM_COLOUR (R220). -/
def colourReserved (b : List Word) : Bool :=
  let w0 := wd b 0
  bits w0 31 28 != 0 || decide (bits w0 23 20 ≥ 6) || bits w0 19 18 == 3 || bits w0 13 0 == 0 ||
  decide (bits w0 13 0 > 10000) || (List.range 3).any (fun k => bits (wd b (1 + k)) 31 30 != 0) ||
  (List.range 4).any (fun k => wd b (8 + k) != 0) ||
  (bit w0 16 && decide (wd64 b 4 % 64 ≠ 0)) || (bit w0 15 && decide (wd64 b 6 % 64 ≠ 0))

/-- The checks of a PLATFORM_COLOUR; the tables it loads come in `ms`, tone curve first (R220, R221). -/
def chkColour (d : Dev) (a : Auth) (group : Nat) (b : List Word) (ms : List MemIn) : Chk × List MemIn :=
  let w0 := wd b 0
  let p := bits w0 27 24
  if colourReserved b ∨ !hasBit group p then (.bad stBAD_DESC, ms)
  else if a.island ∨ a.fn ≠ 0 then (.bad stERR_PERM, ms)
  else
    let none0 : MemIn := { data := [], ecc := false, ats := false }
    let t := if bit w0 16 then (readTable d 0 (wd64 b 4) 512 (ms.headD none0)).map some else .ok none
    let ms1 := if bit w0 16 then ms.tail else ms
    let l := if bit w0 15 then (readTable d 0 (wd64 b 6) 9826 (ms1.headD none0)).map some else .ok none
    let ms2 := if bit w0 15 then ms1.tail else ms1
    match t, l with
    | .error st, _ => (.bad st, ms2)
    | _, .error st => (.bad st, ms2)
    | .ok tw, .ok lw =>
      if (lw.map lutReserved).getD false then (.bad stBAD_DESC, ms2)
      else (.ok [.colour p (b.take 8) (tw.map (fun ws => BitVec.ofNat 32 (crc32c (wordBytes ws))))
        (lw.map (fun ws => BitVec.ofNat 32 (crc32c (wordBytes ws)))) ((tw.map halves).getD []) ((lw.map nodesOf).getD [])], ms2)

/-- The checks of a SCALER_BANK and its table (R218). -/
def chkBank (d : Dev) (a : Auth) (items : List CommitItem) (b : List Word) (ms : List MemIn) : Chk × List MemIn :=
  let w0 := wd b 0
  let k := bits w0 3 0
  let bk := bits w0 8 8
  let dup := items.any (fun i => match i with
    | .bank j c _ _ => decide (j = k) && decide (c = bk)
    | _ => false)
  if bits w0 31 9 ≠ 0 ∨ bits w0 7 4 ≠ 0 ∨ wd b 1 ≠ 0 ∨ (List.range 8).any (fun j => wd b (4 + j) != 0) ∨
     wd64 b 2 % 64 ≠ 0 ∨ dup ∨ SMap.get d.comp.lastBank k = bk + 1 then (.bad stBAD_DESC, ms)
  else if !mayLayer d a k then (.bad stERR_PERM, ms)
  else
    match readTable d a.fn (wd64 b 2) 448 (ms.headD { data := [], ecc := false, ats := false }) with
    | .error st => (.bad st, ms.tail)
    | .ok ws =>
      if (halves ws).any (fun h => decide (h ≥ 1024)) then (.bad stBAD_DESC, ms.tail)
      else (.ok [.bank k bk 0 (halves ws)], ms.tail)

/-! ### COMMIT_HEAD (R34, R104) -/

/-- One descriptor of a chain; its body words start at word 4. -/
def chkChainDesc (d : Dev) (a : Auth) (group : Nat) (items : List CommitItem) (ws : List Word) (ms : List MemIn) :
    Chk × List MemIn :=
  let b := ws.drop 4
  match opcodeOf ws with
  | 0x21 => (chkLayer d a group items b, ms)
  | 0x22 => (chkStitch d a group items b, ms)
  | 0x23 => (chkGuard d a group items b, ms)
  | 0x24 => chkColour d a group b ms
  | 0x25 => chkBank d a items b ms
  | _ => (.bad stBAD_DESC, ms)

/-- The descriptors of a chain in order: the first failing status, or all parts (R34). -/
def chkChain (d : Dev) (a : Auth) (group : Nat) : List (List Word) → List CommitItem → List MemIn → Chk
  | [], items, _ => .ok items
  | ws :: rest, items, ms =>
    match chkChainDesc d a group items ws ms with
    | (.bad st, _) => .bad st
    | (.ok more, ms1) => chkChain d a group rest (items ++ more) ms1

/-- The checks of COMMIT_HEAD itself (R104), then of its chain. -/
def chkCommitAll (d : Dev) (f : Nat) (q : Desc) : Chk :=
  let w := at4 q.words 0x10
  let group := bits w 31 16
  if !bodyOk q.words [(0x10, 0xFFFF000F), (0x14, 0xFF)] ∨ !hasBit group (bits w 3 0) ∨
     bits (at4 q.words 0x14) 7 0 ≠ q.chain.length then .bad stBAD_DESC
  else if (bitsOf 16 group).any (fun p => !hasBit (ptPlatforms d f) p) then .bad stERR_PERM
  else chkChain d { fn := f, island := false } group q.chain [] q.mem

def chkCommitHead (d : Dev) (f _r : Nat) (q : Desc) : Option (Nat × Nat) :=
  match chkCommitAll d f q with
  | .bad st => some (st, 0)
  | .ok _ => none

/-- A checked chain becomes one commit (R34). -/
def actCommitHead (f r : Nat) (q : Desc) (d : Dev) : Dev :=
  match chkCommitAll d f q with
  | .bad _ => d
  | .ok items =>
    let w := at4 q.words 0x10
    acceptCommit d f (.desc f r q.idx) (bits w 3 0) (bits w 31 16) q.cp (strictOf q.words) false items

/-- Does a platform hold a pending table that has not landed (R221)? -/
def pendingTable (d : Dev) (p : Nat) : Bool :=
  d.commits.any (fun c => !c.landed.contains p && c.items.any (fun i => match i with
    | .colour q _ t l _ _ => decide (q = p) && (t.isSome || l.isSome)
    | _ => false))

/-- Does the ring wait before this chain: at the limit of R37, or behind a pending table (R221)? -/
def commitHolds (d : Dev) (f : Nat) (q : Desc) : Bool :=
  commitLimit d f (bits (at4 q.words 0x10) 31 16) ||
  decide (f = 0) && q.chain.any (fun ws => decide (opcodeOf ws = 0x24) && (bit (wd ws 4) 16 || bit (wd ws 4) 15) &&
    pendingTable d (bits (wd ws 4) 27 24))

/-- COMMIT_HEAD (R104); the tables of its chain come with the command. -/
def doCommitHead (f r : Nat) (ms : List MemIn) (d : Dev) : Dev :=
  match (ringSt d f r).queue with
  | [] => d
  | q :: _ => if commitHolds d f q then d else startDesc d f r 0x200 ms false chkCommitHead actCommitHead

/-! ### References that a landing ends (R244 to R246) -/

/-- Does an entry of the partition table grant a layer, and the platform it stands on? -/
def grants (ws : List Word) (k p : Nat) : Bool :=
  bit (wd ws 0) 31 && (if k < 32 then bit (wd ws 4) k else bit (wd ws 5) (k - 32)) && hasBit (bits (wd ws 6) 31 16) p

/-- Does function f stand on platform p with layer k, which an entry takes from it (R125)? -/
def loses (d : Dev) (f : Nat) (ws : List Word) (k p : Nat) : Bool :=
  decide (layerState d k = 1) && decide (fg d (CM_LAYER_LSTAT k) CM_LAYER_LSTAT_OWNER = f) && decide (layerPlat d k = p) &&
  !grants ws k p

/-- Does this part of a commit end the reference of its layer on platform p, and why (R244, R245): 0 replaced, 1 disabled,
2 moved, 3 taken by a partition change? -/
def endsRef (d : Dev) (r : BufRef) (it : CommitItem) : Option Nat :=
  match it with
  | .partition f ws => if loses d f ws r.layer r.plat then some 3 else none
  | .layer k _ ws =>
    if k ≠ r.layer then none
    else if !bit (wd ws 0) 31 then some 1
    else if bits (wd ws 0) 27 24 ≠ r.plat then some 2
    else if handleIdx (wd ws 1) ≠ r.idx then some 0
    else none
  | _ => none

/-- A reference is over: where it stood is kept for the cast-off record, of those that end at one DT the one on the lowest platform
(R245). -/
def closeRef (d : Dev) (r : BufRef) (reason frame line : Nat) : Dev :=
  let d1 := { d with buf := { d.buf with refs := d.buf.refs.filter (fun x => x != r) } }
  settleBuf (onBuf d1 r.idx (fun e =>
    if e.lastDt = d1.dt + 1 ∧ e.lastPlat < r.plat then e
    else { e with lastLayer := r.layer, lastPlat := r.plat, lastReason := reason,
                  lastFrame := frame % 2 ^ 32, lastLine := line, lastDt := d1.dt + 1 })) r.idx

/-- The references on a platform whose end is due: bound to end, and no strip before the landing is still composed. -/
def closeDue (d : Dev) (p : Nat) : Dev :=
  let x := raster d p
  let open0 := (platRun d p).openStrips
  d.buf.refs.foldl (fun d r =>
    match r.ending with
    | some (reason, b) =>
      if r.plat = p ∧ open0.all (fun s => decide (b ≤ s)) then
        closeRef d r reason (if x.vtot = 0 then 0 else b / x.vtot) (if x.vtot = 0 then 0 else b % x.vtot)
      else d
    | none => d) d

/-- A commit whose landing strip begins to be composed on a platform ends the references of the layers it changes there. -/
def bindRefs (d : Dev) (p b : Nat) (c : Commit) : Dev :=
  { d with buf := { d.buf with refs := d.buf.refs.map (fun r =>
      if r.plat = p ∧ r.ending.isNone then
        match c.items.findSome? (endsRef d r) with
        | some reason => { r with ending := some (reason, b) }
        | none => r
      else r) } }

/-- The references that the commits landing on a platform at a boundary end. -/
def bindAllRefs (d : Dev) (p f l : Nat) : Dev :=
  let b := if (raster d p).vtot = 0 then 0 else f * (raster d p).vtot + l
  closeDue ((landingNow d p f l).foldl (fun d c => bindRefs d p b c) d) p

/-! ### Strips (R230 to R235) -/

/-- The lines that are composed at a time: a strip; in Freight a band of 64 (R232, R233). -/
def bandH (d : Dev) (p : Nat) : Nat := if (platRun d p).mode = 3 then 64 else stripH d p

/-- The LATE_LANES in force for the strip at an absolute line: a change applies from the next strip boundary (CM_CTRL). -/
def lanesAt (d : Dev) (p b : Nat) : Nat :=
  match (platRun d p).lanes.find? (fun e => decide (e.1 ≤ b)) with
  | some e => e.2
  | none => fg d CM_CTRL CM_CTRL_LATE_LANES

/-- Does composition of this strip exist: a real raster, and an active line that begins a strip? -/
def stripAt (d : Dev) (p l : Nat) : Bool :=
  let x := raster d p
  x.had && !x.virt && decide (l < x.vact) && decide (bandH d p ≠ 0) && decide (l % bandH d p = 0) &&
  decide (domUp d 12)

/-- The layers of a platform that need Skein blocks for a strip take them, the higher class first, after giving back those of the last
(R254, R255). -/
def prefetchAll (d : Dev) (p f : Nat) (want : List (Lay × Nat)) : Dev :=
  let cls (w : Lay × Nat) : Nat := fg d (CM_LAYER_LSTAT w.1.val) CM_LAYER_LSTAT_EFF_CC
  ([3, 2, 1, 0].flatMap (fun c => want.filter (fun w => decide (cls w = c)))).foldl (fun d w =>
    let k := w.1.val
    if layerState d k = 1 ∧ layerPlat d k = p ∧ !layerOut d p k f then
      prefetch (skGive d (fun r => decide (4 ≤ r.pool) && decide (r.user = k))) k
        (fg d (CM_LAYER_LSTAT k) CM_LAYER_LSTAT_OWNER % 32) (fg d (CM_LAYER_LSTAT k) CM_LAYER_LSTAT_EFF_CC) w.2
    else d) d

/-- STRIP_COMPOSE_BEGIN (R32, R230, R244, R255): composition of a strip begins its lead ahead; commits that land on it are
bound, references they replace may end, and layers take prefetch blocks. -/
def doStripComposeBegin (p f l : Nat) (want : List (Lay × Nat)) (d0 : Dev) : Dev :=
  if !stripAt d0 p l ∨ (platRun d0 p).openStrips.contains (f * (raster d0 p).vtot + l) then d0
  else
    let x := raster d0 p
    let b := f * x.vtot + l
    let d := advance (dtOfAbs x (b - leadLines d0 p)) d0
    let d1 := bindCommits (restampUnacked d p f l) p f l
    let d2 := bindAllRefs d1 p f l
    let d3 := onPlat d2 p (fun y => { y with openStrips := y.openStrips ++ [b] })
    prefetchAll d3 p f want

/-- A strip is no longer composed: references that waited for it may end. -/
def closeStrip (d : Dev) (p b : Nat) : Dev :=
  closeDue (onPlat d p (fun y => { y with openStrips := y.openStrips.filter (fun s => s != b)
                                          late := y.late.filter (fun s => s.1 != b) })) p

/-- LATE goes to F0, and the safety island is told (R235). -/
def postLate (d : Dev) (p stage f l cycles : Nat) : Dev :=
  emit (post d 0 clCOMMIT 1 0 (pb 0 p + pb 1 stage + pw16 2 l + pw32 4 f + pw32 8 cycles)) (.island stage p)

/-- What became of a strip is kept for picks (R306). -/
def noteStrip (d : Dev) (p b kind : Nat) : Dev :=
  { d with comp := { d.comp with outs := { plat := p, abs := b, kind := kind } :: d.comp.outs } }

/-- The checkpoint of a strip, in lines before it (R233). -/
def checkDistance (d : Dev) (p : Nat) : Nat :=
  let h := leadLines d p / 2
  min (max 1 (fg d CM_CTRL CM_CTRL_LATE_CHK)) h

/-! ### The pixels of a strip (R209, R219, R223, R226) -/

/-- The coefficients of a scaler bank (R217). -/
def bankCoeffs (d : Dev) (k b : Nat) : List Int :=
  (List.range 448).flatMap (fun j =>
    let w := rd d (CM_SCB k b j)
    [sext (bits w 9 0) 10, sext (bits w 25 16) 10])

/-- The guard words of a region. -/
def guardWord (d : Dev) (p r j : Nat) : Word := rd d (CM_GUARD p r j)

/-- Does an enabled region hold a pixel? -/
def guardHas (d : Dev) (p r x y : Nat) : Bool :=
  bit (guardWord d p r 0) 31 &&
  decide (bits (guardWord d p r 1) 15 0 ≤ x) && decide (x < bits (guardWord d p r 2) 15 0) &&
  decide (bits (guardWord d p r 1) 31 16 ≤ y) && decide (y < bits (guardWord d p r 2) 31 16)

/-- The enabled regions that hold a pixel. -/
def guardsAt (d : Dev) (p x y : Nat) : List Nat := (List.range 16).filter (fun r => guardHas d p r x y)

/-- The effective class of a pixel (R226). -/
def effClass (d : Dev) (p x y : Nat) : Nat :=
  ((guardsAt d p x y).map (fun r => bits (guardWord d p r 0) 23 22)).foldl max 0

/-- Does a layer's destination rectangle hold a pixel? -/
def layerHas (b : List Word) (x y : Nat) : Bool :=
  decide (layDstX b ≤ (x : Int)) && decide ((x : Int) < layDstX b + (layDstW b : Int)) &&
  decide (layDstY b ≤ (y : Int)) && decide ((y : Int) < layDstY b + (layDstH b : Int))

/-- The layers of a platform from the bottom up, each with its operator (R223). -/
def blendOrder (d : Dev) (p : Nat) : List (Nat × Nat) :=
  let b := rds d (CM_STITCH p 0) 10
  if bit (wd b 0) 8 then
    (List.range (bits (wd b 0) 4 0)).map (fun s => (stitchAt b s / 256 % 64, stitchAt b s % 16))
  else (List.range 64).map (fun k => (k, 3))

/-- Is an absolute line of a platform composed under Caution (R396)? -/
def inCaution (d : Dev) (p a : Nat) : Bool :=
  d.safe.cau.any (fun s => s.plat == p && decide (s.from0 ≤ a) && (s.to0.all (fun b => decide (a < b))))

/-- The fixed order, with SRC_OVER (R217). -/
def fixedOrder : List (Nat × Nat) := (List.range 64).map (fun k => (k, 3))

/-- The layer with this ID that stands on a platform, if any (R206): the applied one, or one that has moved away and not left
yet. -/
def layerOn (d : Dev) (p k : Nat) : Option LaySnap :=
  let st := layerState d k
  if st ≠ 0 ∧ layerPlat d k = p ∧ !d.comp.away.contains k then
    some { layer := k, words := layerWords d k, cc := fg d (CM_LAYER_LSTAT k) CM_LAYER_LSTAT_EFF_CC, st := st,
           owner := fg d (CM_LAYER_LSTAT k) CM_LAYER_LSTAT_OWNER, out := d.comp.sticky.contains k }
  else (d.comp.ghosts.find? (fun g => g.plat == p && g.lay.layer == k)).map (fun g => g.lay)

/-- Is a line of a frame before the fetch fault of a layer in that frame (R250)? -/
def beforeFault (d : Dev) (p k start y : Nat) : Bool :=
  d.comp.faults.any (fun a => decide (a.layer = k) && decide (a.plat = p) && decide (start ≤ a.abs) &&
    decide (a.abs < start + (raster d p).vtot) && decide (start + y < a.abs))

/-- On a banker, does a layer's buffer lie in DRAM that the lead does not mirror, so that its fetch fails (R413)? -/
def unmirrored (d : Dev) (b : LaySnap) : Bool :=
  let e := bufEntry d (handleIdx (wd b.words 1))
  bankerLike d && (match translate d e.owner (wd64 e.words 4) false with
    | .ok (.dram a) => !inWindow d a
    | _ => false)

/-- The layer or patch that takes part at a pixel (R206, R226, R233, R250, R413). -/
def takesPart (d : Dev) (p frame x y : Nat) (least : Nat) (k : Nat) : Option LaySnap :=
  (layerOn d p k).filter (fun b => layerHas b.words x y && decide (effClass d p x y ≤ b.cc) &&
    decide (least ≤ b.cc) && (b.st == 2 || (!unmirrored d b &&
      (!(b.out || faultedIn d p k frame) || beforeFault d p k (frame * (raster d p).vtot) y))))

/-- Is this the unit of an MDH-8 layer (R459)? -/
def mdhLayerId (k : Nat) : Bool := decide (k < 8) || (decide (16 ≤ k) && decide (k < 40))

/-- The format that a layer reads: its buffer's; an MDH-8 layer has no buffer, and its HANDLE word holds the format. -/
def layFmt (d : Dev) (k : Nat) (b : List Word) : Nat :=
  if d.heritage && mdhLayerId k then bits (wd b 1) 31 24 else bits (wd (bufEntry d (handleIdx (wd b 1))).words 0) 31 24

/-- CLEAR_VALUE of an LBC buffer as a platform reads it in a frame (R243): from the header as the frame's first strip read it. -/
def frameClear (d : Dev) (p frame i : Nat) : Option Nat :=
  let e := bufEntry d i
  match d.comp.hdrs.find? (fun h => decide (h.plat = p) && decide (h.frame = frame) && decide (h.idx = i)) with
  | some h => h.clear
  | none => lbcClear d e.owner (wd64 e.words 4) (bits (wd e.words 0) 31 24)

/-- The raw pixel of a plane of a buffer at a place (R209 stage 1, R240, R243), from DRAM; what lies elsewhere comes with the command. -/
def fetchRaw (d : Dev) (p frame i : Nat) (chroma : Bool) (x y : Nat) (s : LaySample) : Option Nat :=
  let e := bufEntry d i
  let fmt := bits (wd e.words 0) 31 24
  let n := if fmtPlanar fmt then (if chroma then 2 else 1) * (if fmt = 0x12 then 2 else 1) else fmtBytes fmt
  let here :=
    if e.state = 0 then none
    else if bit (wd e.words 0) 23 then
      lbcPixel d e.owner (wd64 e.words 4 + 64) (wd64 e.words 2) (bits (wd e.words 1) 15 0) fmt (frameClear d p frame i) x y
    else if chroma then (peek d e.owner (wd64 e.words 4 + y * (wd e.words 7).toNat + x * n) n).map leNat
    else (peek d e.owner (wd64 e.words 2 + y * (wd e.words 6).toNat + x * n) n).map leNat
  here.orElse (fun _ => (s.src.find? (fun q => q.chroma == chroma && q.x == x && q.y == y)).map (fun q => q.raw))

/-- All values of a list that has no hole. -/
def allSome : List (Option Nat) → Option (List Nat)
  | [] => some []
  | a :: as =>
    match a, allSome as with
    | some v, some vs => some (v :: vs)
    | _, _ => none

/-- The 48 taps at a source position, 6 rows of 8, inside the rectangle x0 to x1, y0 to y1 (R215). -/
def fetchTaps (d : Dev) (p frame i : Nat) (chroma : Bool) (sx sy : Int) (x0 x1 y0 y1 : Nat) (s : LaySample) : Option (List Nat) :=
  allSome ((List.range 48).map (fun k =>
    fetchRaw d p frame i chroma (tapAt sx (k % 8) 3 x0 x1) (tapAt sy (k / 8) 2 y0 y1) s))

/-- The last whole pixel of a source rectangle along an axis: its start in 16.16 and its length. -/
def lastSrc (start len : Nat) : Nat := cdiv (start + len * 65536) 65536 - 1

/-- The pixel of an ACTIVE layer (R209 stages 1 to 8); none when a source pixel neither lies in DRAM nor came with the command. A graphic
layer takes one pixel, a video layer its taps. -/
def samplePix (d : Dev) (p frame k x y : Nat) (b : List Word) (s : LaySample) : Option Pix :=
  let fmt := layFmt d k b
  let i := handleIdx (wd b 1)
  let sx := srcPos (wd b 2).toNat (laySrcW b) (layDstW b) ((x : Int) - layDstX b).toNat
  let sy := srcPos (wd b 3).toNat (laySrcH b) (layDstH b) ((y : Int) - layDstY b).toNat
  let sit := bits (wd b 0) 12 11
  let cx := if sit = 1 then (sx - 32768) / 2 else sx / 2
  let cy := if fmt = 0x11 then sy else if sit = 2 then sy / 2 else (sy - 32768) / 2
  let bank := if k < 16 then bankCoeffs d k (layBank b) else []
  let nits := bits (rd d (CM_PLAT_W0 p)) 13 0
  let x0 := (wd b 2).toNat / 65536
  let y0 := (wd b 3).toNat / 65536
  let x1 := lastSrc (wd b 2).toNat (laySrcW b)
  let y1 := lastSrc (wd b 3).toNat (laySrcH b)
  let v := if fmt = 0x11 then 1 else 2
  let src :=
    if k < 16 then fetchTaps d p frame i false sx sy x0 x1 y0 y1 s
    else allSome [fetchRaw d p frame i false (sx / 65536).toNat (sy / 65536).toNat s]
  let chroma := if fmtPlanar fmt then fetchTaps d p frame i true cx cy (x0 / 2) (x1 / 2) (y0 / v) (y1 / v) s else some []
  match src, chroma with
  | some a, some c =>
    some (layerPix b nits (SMap.get d.comp.tone p) (encodedPix fmt b bank (phaseOf sx) (phaseOf sy) (phaseOf cx) (phaseOf cy) a c))
  | _, _ => none

/-- The configuration of a platform is kept from an absolute line on, for picks (R306). -/
def snapCfg (d : Dev) (p b : Nat) : Dev :=
  let c : CfgSnap :=
    { plat := p, abs := b, layers := (List.range 64).filterMap (layerOn d p), order := blendOrder d p,
      guards := (List.range 64).map (fun i => guardWord d p (i / 4) (i % 4)) }
  { d with comp := { d.comp with cfgs := c :: d.comp.cfgs } }

/-- The absolute line in progress, zero without a timing. -/
def absNow (d : Dev) (p : Nat) : Nat :=
  let x := raster d p
  if x.had ∧ x.vtot ≠ 0 then absAt x d.dt else 0

/-- The stack of a pixel; none when the source of a layer that takes part is neither in DRAM nor came with the command. -/
def stackPix (d : Dev) (p frame : Nat) (px : PixelIn) (least : Nat) : Option Pix :=
  let w0 := rd d (CM_PLAT_W0 p)
  let tf := bits w0 23 20
  let nits := bits w0 13 0
  (if least = 3 then fixedOrder else blendOrder d p).foldl (fun acc ko =>
    match takesPart d p frame px.x px.y least ko.1 with
    | none => acc
    | some b =>
      if b.st = 2 then acc.map (fun s => blend ko.2 (colourPix tf nits (rd d (CM_PLAT_DEP p))) s)
      else
        let host := ((px.samples.find? (fun s => s.layer.val == ko.1)).map (fun s => s.src)).getD []
        match acc, samplePix d p frame ko.1 px.x px.y b.words { layer := ⟨ko.1 % 64, by omega⟩, src := host } with
        | some s, some v => some (blend ko.2 v s)
        | _, _ => none) (some (colourPix tf nits (rd d (CM_PLAT_BG p))))

/-- A node of the LUT in force. -/
def lutNode (d : Dev) (p r g b : Nat) : List Nat :=
  match (SMap.get d.comp.lut p).drop (289 * r + 17 * g + b) with
  | n :: _ => [n.r, n.g, n.b]
  | [] => identityNode r g b

/-- The output pipeline of a pixel (R219), with POST_BYPASS where a region asks for it. -/
def outPixel (d : Dev) (p frame : Nat) (px : PixelIn) (least : Nat) : Option OutPix :=
  let w0 := rd d (CM_PLAT_W0 p)
  let bypass := (guardsAt d p px.x px.y).any (fun r => bit (guardWord d p r 0) 21)
  (stackPix d p frame px least).map (fun s =>
    let c := encodeOut (bits w0 23 20) (bits w0 13 0) s
    let l := if bit w0 17 && !bypass then lutLookup (lutNode d p) c else c
    let o (k : Nat) : Nat :=
      reduceDepth (platRun d p).depth (if bypass then 0 else bits w0 19 18) frame px.x px.y (l.getD k 0)
    { x := px.x, y := px.y, r := o 0, g := o 1, b := o 2 })

/-! ### Fallback (R233 to R235) -/

/-- A 10-bit channel of a substituted colour at the output depth: its top bits, repeated below it where the depth is more. -/
def substCode (depth c : Nat) : Nat := if depth ≤ 10 then c / 2 ^ (10 - depth) else c * 2 ^ (depth - 10) + c / 2 ^ (20 - depth)

/-- A substituted pixel of a colour word. -/
def substPix (depth x y : Nat) (w : Word) : OutPix :=
  { x := x, y := y, r := substCode depth (bits w 29 20), g := substCode depth (bits w 19 10), b := substCode depth (bits w 9 0) }

/-- The region among those given whose FALLBACK colour a pixel takes: the one of the highest class, the lowest-numbered of
those. -/
def fallbackRegion (d : Dev) (p : Nat) (rs : List Nat) : Option Nat :=
  let cls (r : Nat) : Nat := bits (guardWord d p r 0) 23 22
  rs.find? (fun r => rs.all (fun s => decide (cls s ≤ cls r)))

/-- A pixel of a fallback strip (R234). -/
def fallbackPix (d : Dev) (p x y : Nat) : OutPix :=
  substPix (platRun d p).depth x y (match fallbackRegion d p (guardsAt d p x y) with
    | some r => guardWord d p r 3
    | none => rd d (CM_PLAT_LATE p))

/-- A strip leaves as a fallback strip. -/
def sendFallback (d : Dev) (p f l : Nat) : Dev :=
  let w := (raster d p).hact
  let n := min (bandH d p) ((raster d p).vact - l)
  emit d (.strip p f l ((List.range (w * n)).map (fun i => fallbackPix d p (i % w) (l + i / w))))

/-- STRIP_CHECKPOINT (R233, R234): an incomplete strip is abandoned; without reserved lanes it falls back at once. -/
def doStripCheckpoint (p f l outstanding : Nat) (d0 : Dev) : Dev :=
  let x := raster d0 p
  let b := f * x.vtot + l
  if !(platRun d0 p).openStrips.contains b ∨ (platRun d0 p).late.any (fun s => s.1 == b) then d0
  else
    let d := advance (dtOfAbs x (b - checkDistance d0 p)) d0
    if lanesAt d p b = 0 then
      noteStrip (closeStrip (bump (postLate (count (sendFallback d p f l) (266 + 4 * p + 2)) p 2 f l outstanding)
        CM_STATUS CM_STATUS_FALLBACK) p b) p b 2
    else onPlat d p (fun y => { y with late := y.late ++ [(b, outstanding)] })

/-- FALLBACK_STRIP (R234, R235): a re-composed strip that is not complete when its first line starts leaves as fallback. -/
def doFallbackStrip (p f l : Nat) (d0 : Dev) : Dev :=
  let x := raster d0 p
  let b := f * x.vtot + l
  match (platRun d0 p).late.find? (fun s => s.1 == b) with
  | none => d0
  | some s =>
    let d := advance (dtOfAbs x b) d0
    noteStrip (closeStrip (bump (postLate (count (sendFallback d p f l) (266 + 4 * p + 2)) p 2 f l s.2) CM_STATUS CM_STATUS_FALLBACK) p b) p b 2

/-! ### Pool demands (R231, R232) -/

/-- The bytes per pixel of a depth. -/
def depthBytes (depth : Nat) : Nat := if depth ≤ 10 then 4 else 8

/-- The strip blocks of a platform: width, strip height, lead in strips, depth (R231). -/
def stripBlocks (w h lead depth : Nat) : Nat := (lead + 1) * cdiv (w * h * depthBytes depth) 4096

/-- The strip height and lead of a mode, with EXP_H (R4, R30, R32); none where strips do not live in the pool. -/
def modeStrips (mode : Nat) (expH : Bool) : Option (Nat × Nat) :=
  if mode = mEXP then some (if expH then 16 else 32, 1)
  else if mode = mICY ∨ mode = mSTP then some (64, 2)
  else none

/-- The demand of one platform in a mode. -/
def platDemand (mode : Nat) (expH : Bool) (w depth : Nat) : Nat :=
  match modeStrips mode expH with
  | some hl => stripBlocks w hl.1 hl.2 depth
  | none => 0

/-- The Freight frames of a platform in units of 64 KiB (R232). -/
def freightBytes (w h depth : Nat) : Nat := 2 * cdiv (w * h * depthBytes depth) 65536

/-! ### Emptying layers (R206, R229, R237, R244) -/

/-- The references of a layer end where composition stopped (R244). -/
def dropLayerRefs (d : Dev) (k reason frame line : Nat) : Dev :=
  (d.buf.refs.filter (fun r => r.layer == k)).foldl (fun d r => closeRef d r reason frame line) d

/-- A layer takes a state. -/
def setLayerState (d : Dev) (k st : Nat) : Dev := fs d (CM_LAYER_LSTAT k) CM_LAYER_LSTAT_STATE st

/-- A layer leaves: EMPTY, its unit's registers cleared, its blocks given back. -/
def emptyLayer (d : Dev) (k : Nat) : Dev :=
  let d1 := wrs d (CM_LAYER k 0) ((List.range 12).map (fun j => regReset (CM_LAYER k j)))
  let d2 := wr d1 (CM_LAYER_LSTAT k) 0
  let keep := d2.comp.ghosts.filter (fun g => g.lay.layer != k)
  skGive { d2 with comp := { d2.comp with sticky := d2.comp.sticky.filter (fun j => j != k), ghosts := keep,
                                          away := d2.comp.away.filter (fun j => j != k) } }
    (fun r => (decide (4 ≤ r.pool) || decide (r.pool = 1)) && decide (r.user = k))

/-- The line in progress on a platform, as frame and line. -/
def lineNow (d : Dev) (p : Nat) : Nat × Nat :=
  let x := raster d p
  if x.had ∧ x.vtot ≠ 0 then (absAt x d.dt / x.vtot, absAt x d.dt % x.vtot) else (0, 0)

/-- A layer that its owner loses (R206, R229): a departure patch, or EMPTY when the partition entry reveals what lies
beneath. -/
def loseLayer (d : Dev) (k reason frame line : Nat) (reveal : Bool) : Dev :=
  if layerState d k ≠ 1 then d
  else
    let d1 := dropLayerRefs d k reason frame line
    let p := layerPlat d k
    let b := boundaryFrom (raster d p) (stripH d p) (absNow d p)
    if reveal then snapCfg (emptyLayer d1 k) p b
    else snapCfg (skGive (fs (setLayerState d1 k 2) (CM_LAYER_LSTAT k) CM_LAYER_LSTAT_FAULTED 0)
      (fun r => (decide (4 ≤ r.pool) || decide (r.pool = 1)) && decide (r.user = k))) p b

/-- A section reset (COMPOSE) or a domain reset of PD12 (R237, R43): pending commits end with ERR_DOWN, every layer is EMPTY,
regions, stitch lists and banks are at reset; cast-off records carry reason 4. -/
def composeClear (d : Dev) : Dev :=
  let d1 := d.commits.foldl (fun d c => endCommit d c stERR_DOWN) d
  let d2 := (List.range 64).foldl (fun d k =>
    if layerState d k = 0 then d
    else
      let at0 := lineNow d (layerPlat d k)
      emptyLayer (dropLayerRefs d k 4 at0.1 at0.2) k) d1
  { d2 with plat := d2.plat.map (fun p => (p.1, { p.2 with openStrips := [], late := [] }))
            comp := { d2.comp with sticky := [], lbcTold := [], away := [], ghosts := [], cfgs := [], outs := [], hdrs := [],
                                   faults := [] } }

/-! ### CM_CC3_AUTH (R228) -/

/-- A layer of function f with class 3 on a platform takes the function's CC_MAX as its class (R228). -/
def demoteLayer (d : Dev) (f p k : Nat) : Dev :=
  let mine (g : Ghost) : Bool := decide (g.plat = p) && decide (g.lay.layer = k) && decide (g.lay.owner = f) && decide (g.lay.cc = 3)
  let d1 := { d with comp := { d.comp with ghosts := d.comp.ghosts.map (fun g =>
    if mine g then { g with lay := { g.lay with cc := ptCcMax d f } } else g) } }
  if layerState d1 k ≠ 0 ∧ layerPlat d1 k = p ∧ fg d1 (CM_LAYER_LSTAT k) CM_LAYER_LSTAT_OWNER = f ∧
     fg d1 (CM_LAYER_LSTAT k) CM_LAYER_LSTAT_EFF_CC = 3 then
    fs d1 (CM_LAYER_LSTAT k) CM_LAYER_LSTAT_EFF_CC (ptCcMax d1 f)
  else d1

/-- The layers of function f that compose with class 3 on a platform. -/
def cc3Layers (d : Dev) (f p : Nat) : List Nat :=
  (List.range 64).filter (fun k => (layerOn d p k).any (fun l => decide (l.owner = f) && decide (l.cc = 3)))

/-- They take the new class from the next strip boundary of the platform whose composition has not begun: a change of the device that is
bound at once (notes/assumptions/136). -/
def demoteAt (f : Nat) (d : Dev) (p : Nat) : Dev :=
  let ks := cc3Layers d f p
  if ks = [] then d
  else if !(raster d p).had then ks.foldl (fun d k => demoteLayer d f p k) d
  else deviceCommit d f p (ks.map (fun k => .demote k))

/-- The layers of a function compose without class 3 (R228). -/
def demoteCc3 (d : Dev) (f : Nat) : Dev := (List.range 16).foldl (demoteAt f) d

/-- CC3_AUTH_WRITE (R228): after GL_LOCK.CM bits can only be cleared. -/
def doCc3AuthWrite (a : Acc) (v : Word) (d : Dev) : Dev :=
  let old := (rd d CM_CC3_AUTH).toNat
  let w := regWrite a CM_CC3_AUTH v d
  match w.2 with
  | .done _ =>
    let new := if locked d 3 then v.toNat &&& old else v.toNat
    let d1 := if locked d 3 ∧ new ≠ v.toNat then logErr w.1 ecLOCKED a.mid.toNat CM_CC3_AUTH v a.secure else w.1
    ((bitsOf 32 old).filter (fun f => !hasBit new f)).foldl demoteCc3 (wr d1 CM_CC3_AUTH (BitVec.ofNat 32 new))
  | _ => w.1

/-! ### The commands -/

/-- COMMIT_HEAD (R104). -/
def execCommitHead (f : Fn) (r : Ring) (tables : List MemIn) (s : State) : Host.Outcome State Fault Refusal :=
  .next { s with dev := doCommitHead f.val r.val tables s.dev }

/-- CC3_AUTH_WRITE (R228). -/
def execCc3AuthWrite (acc : Acc) (v : Word) (s : State) : Host.Outcome State Fault Refusal :=
  .next { s with dev := doCc3AuthWrite acc v s.dev }

/-- STRIP_COMPOSE_BEGIN (R230). -/
def execStripComposeBegin (p : Plat) (frame line : Nat) (want : List (Lay × Nat)) (s : State) :
    Host.Outcome State Fault Refusal :=
  .next { s with dev := doStripComposeBegin p.val frame line want s.dev }

/-- STRIP_CHECKPOINT (R233). -/
def execStripCheckpoint (p : Plat) (frame line outstanding : Nat) (s : State) : Host.Outcome State Fault Refusal :=
  .next { s with dev := doStripCheckpoint p.val frame line outstanding s.dev }

/-- FALLBACK_STRIP (R234). -/
def execFallbackStrip (p : Plat) (frame line : Nat) (s : State) : Host.Outcome State Fault Refusal :=
  .next { s with dev := doFallbackStrip p.val frame line s.dev }

end Sys2Proof.Machine
end

