-- ==== Sys2Proof/Machine/Timings.lean ====
section
/-! DEFINITION. Timings, display PLLs, and the checks of a staged commit of scan-out registers (R259 to R285): the
standard table, the limits of R260, links, DSC, self-refresh and tearing effect, and the pool and rate limits of R231, R232
and R264. A check judges the registers as they will stand after every earlier accepted commit and the parts given. -/

namespace Sys2Proof.Machine

/-! ### Registers as they will stand (R28) -/

/-- The value of a register that a commit item sets. -/
def regItem (off : Nat) (it : CommitItem) : Option Word :=
  match it with
  | .reg o v => if o = off then some v else none
  | _ => none

/-- A register after every earlier accepted commit and the parts given. -/
def futReg (d : Dev) (items : List CommitItem) (off : Nat) : Word :=
  (((pendingItems d ++ items).filterMap (regItem off)).getLast?).getD (rd d off)

/-- The mode after every earlier accepted commit and the parts given. -/
def futMode (d : Dev) (items : List CommitItem) : Nat :=
  (((pendingItems d ++ items).filterMap (fun it => match it with
    | .mode m => some m
    | .cautionExit m => some m
    | _ => none)).getLast?).getD (modeOf d)

/-! ### Timings (R260, R261) -/

/-- A timing: active, front porch, sync and back porch pixels of a line; active and total lines, front porch and sync lines (the
back porch is what is left of VTOTAL); and which syncs are active high. -/
structure Timing where
  hact : Nat
  hfp : Nat
  hsync : Nat
  hbp : Nat
  vact : Nat
  vtot : Nat
  vfp : Nat
  vsync : Nat
  hpol : Bool
  vpol : Bool
  deriving DecidableEq, Repr, Inhabited

/-- HTOTAL. -/
def Timing.htot (t : Timing) : Nat := t.hact + t.hfp + t.hsync + t.hbp

/-- An entry of the standard table: its timing and its clock in kHz. -/
structure StdTiming where
  t : Timing
  khz : Nat
  deriving DecidableEq, Repr, Inhabited

/-- An entry from active size, front porches and syncs, polarities (bit 1 HSYNC, bit 0 VSYNC active high), totals, and clock; the
back porch is what is left of HTOTAL. -/
def std (hact vact hfp hsync vfp vsync pol htot vtot khz : Nat) : StdTiming :=
  ⟨⟨hact, hfp, hsync, htot - hact - hfp - hsync, vact, vtot, vfp, vsync, hasBit pol 1, hasBit pol 0⟩, khz⟩

/-- The standard table (R261), entries 0 to 23; porches, syncs and polarities are those of the cited CTA and DMT
timings (PRESUMED, log 58). -/
def stdTable0 : List StdTiming := [
  std 640 480 16 96 10 2 0 800 525 25175, std 640 480 24 40 9 3 0 832 520 31500, std 640 480 16 64 1 3 0 840 500 31500,
  std 720 480 16 62 9 6 0 858 525 27000, std 720 576 12 64 5 5 0 864 625 27000, std 800 600 40 128 1 4 3 1056 628 40000,
  std 800 600 56 120 37 6 3 1040 666 50000, std 800 600 16 80 1 3 3 1056 625 49500,
  std 1024 768 24 136 3 6 0 1344 806 65000, std 1024 768 24 136 3 6 0 1328 806 75000,
  std 1024 768 16 96 1 3 3 1312 800 78750, std 1280 720 440 40 5 5 3 1980 750 74250,
  std 1280 720 110 40 5 5 3 1650 750 74250, std 1280 768 48 32 3 7 2 1440 790 68250,
  std 1280 800 48 32 3 6 2 1440 823 71000, std 1280 960 96 112 1 3 3 1800 1000 108000,
  std 1280 1024 48 112 1 3 3 1688 1066 108000, std 1366 768 70 143 3 3 3 1792 798 85500,
  std 1440 900 48 32 3 6 2 1600 926 88750, std 1400 1050 48 32 3 4 2 1560 1080 101000,
  std 1600 900 24 80 1 3 3 1800 1000 108000, std 1680 1050 48 32 3 6 2 1840 1080 119000,
  std 1920 1080 528 44 4 5 3 2640 1125 148500, std 1920 1080 88 44 4 5 3 2200 1125 148500]

/-- Entries 24 to 49. -/
def stdTable1 : List StdTiming := [
  std 1920 1080 638 44 4 5 3 2750 1125 74250, std 1920 1080 528 44 4 5 3 2640 1125 74250,
  std 1920 1080 88 44 4 5 3 2200 1125 74250, std 1920 1080 528 44 4 5 3 2640 1125 297000,
  std 1920 1080 88 44 4 5 3 2200 1125 297000, std 1280 720 440 40 5 5 3 1980 750 148500,
  std 1280 720 110 40 5 5 3 1650 750 148500, std 1920 1200 48 32 3 6 2 2080 1235 154000,
  std 1600 1200 64 192 1 3 3 2160 1250 162000, std 1920 1440 128 208 1 3 1 2600 1500 234000,
  std 2560 1600 48 32 3 6 2 2720 1646 268500, std 3840 2160 1276 88 8 10 3 5500 2250 297000,
  std 3840 2160 1056 88 8 10 3 5280 2250 297000, std 3840 2160 176 88 8 10 3 4400 2250 297000,
  std 3840 2160 1056 88 8 10 3 5280 2250 594000, std 3840 2160 176 88 8 10 3 4400 2250 594000,
  std 3840 2160 1056 88 8 10 3 5280 2250 1188000, std 3840 2160 176 88 8 10 3 4400 2250 1188000,
  std 4096 2160 1020 88 8 10 3 5500 2250 297000, std 4096 2160 968 88 8 10 3 5280 2250 297000,
  std 4096 2160 88 88 8 10 3 4400 2250 297000, std 4096 2160 968 88 8 10 3 5280 2250 594000,
  std 4096 2160 88 88 8 10 3 4400 2250 594000, std 7680 4320 2552 176 16 20 3 11000 4500 1188000,
  std 7680 4320 2352 176 16 20 3 10800 4400 1188000, std 7680 4320 552 176 16 20 3 9000 4400 1188000]

/-- Entries 50 to 63. -/
def stdTable2 : List StdTiming := [
  std 3840 2160 48 32 3 5 2 4000 2222 533250, std 640 480 56 56 1 3 0 832 509 36000, std 800 600 32 64 1 3 3 1048 631 56250,
  std 1024 768 48 96 1 3 3 1376 808 94500, std 1152 864 64 128 1 3 3 1600 900 108000,
  std 1280 768 64 128 3 7 1 1664 798 79500, std 1280 800 72 128 3 6 1 1680 831 83500,
  std 1280 1024 16 144 1 3 3 1688 1066 135000, std 1366 768 14 56 1 3 3 1500 800 72000,
  std 1400 1050 88 144 3 4 1 1864 1089 121750, std 1440 900 80 152 3 6 1 1904 934 106500,
  std 1600 1200 64 192 1 3 3 2160 1250 202500, std 1680 1050 104 176 3 6 1 2240 1089 146250,
  std 1920 1200 136 200 3 6 1 2592 1245 193250]

/-- Entry i of the standard table. -/
def stdEntry (i : Nat) : StdTiming := (stdTable0 ++ stdTable1 ++ stdTable2).getD i default

/-- The timing that the registers of platform p give, read through `rv`; none while they give none: no standard entry,
disabled, and every explicit field zero. -/
def timingOf (rv : Nat → Word) (p : Nat) : Option Timing :=
  let c := rv (SO_PCTRL p)
  let h0 := rv (SO_HTIM0 p)
  let h1 := rv (SO_HTIM1 p)
  let v0 := rv (SO_VTIM0 p)
  let v1 := rv (SO_VTIM1 p)
  if bit c 30 then some (stdEntry (bits c 5 0)).t
  else if !bit c 31 && h0 == 0 && h1 == 0 && v0 == 0 && v1 == 0 then none
  else some ⟨bits h0 15 0, bits h0 31 16, bits h1 15 0, bits h1 31 16, bits v0 15 0,
             bits v0 15 0 + bits v0 31 16 + bits v1 15 0 + bits v1 31 16, bits v0 31 16, bits v1 15 0, bit c 28, bit c 27⟩

/-- The depth code of SO_PCTRL in bits. -/
def depthOf (code : Nat) : Nat := 6 + 2 * code

/-! ### Display PLLs (R265) -/

/-- f_pix of DPLLk in Hz, as numerator and denominator. -/
def dpllHz (d : Dev) (k : Nat) : Nat × Nat :=
  (25000000 * (fg d (SO_DPLL_W0 k) SO_DPLL_W0_N * 2 ^ 24 + fg d (SO_DPLL_W1 k) SO_DPLL_W1_FRAC),
   2 ^ 24 * fg d (SO_DPLL_W0 k) SO_DPLL_W0_POST)

/-- The duration of a pixel clock of DPLLk in ns, as numerator and denominator. -/
def dpllPx (d : Dev) (k : Nat) : Nat × Nat :=
  (40 * 2 ^ 24 * fg d (SO_DPLL_W0 k) SO_DPLL_W0_POST,
   fg d (SO_DPLL_W0 k) SO_DPLL_W0_N * 2 ^ 24 + fg d (SO_DPLL_W1 k) SO_DPLL_W1_FRAC)

/-- The PLL of platform p as `rv` gives it. -/
def dpllOf (rv : Nat → Word) (p : Nat) : Nat := bits (rv (SO_PCTRL p)) 22 20

/-- Is the platform in scan-out now (STATE not DISABLED)? -/
def platOn (d : Dev) (p : Nat) : Bool := fg d (SO_PSTAT p) SO_PSTAT_STATE != 0

/-- Does an enabled platform, or a commit that has not landed, use DPLLk (R266)? -/
def dpllUsed (d : Dev) (k : Nat) : Bool :=
  (List.range 16).any (fun p =>
    (platOn d p && decide ((platRun d p).dpll = k)) ||
    (bit (rd d (SO_PCTRL p)) 31 && decide (dpllOf (rd d) p = k)) ||
    (pendingItems d).any (fun it => match regItem (SO_PCTRL p) it with
      | some v => decide (bits v 22 20 = k)
      | none => false))

/-- The limits of R265 on what W0 and W1 of a PLL say. -/
def dpllRangeOk (w0 w1 : Word) : Bool :=
  let n := bits w0 7 0
  let frac := bits w1 23 0
  decide (80 ≤ n) && decide (n ≤ 192) && decide (2 ≤ bits w0 15 8) && decide (bits w0 15 8 ≤ 128) &&
  (decide (n < 192) || decide (frac = 0))

/-- The limits of R260 on an explicit timing. -/
def explicitOk (t : Timing) (v0 v1 : Word) : Bool :=
  let h (x : Nat) : Bool := decide (8 ≤ x) && decide (x ≤ 4095) && x % 2 == 0
  let v (x : Nat) : Bool := decide (1 ≤ x) && decide (x ≤ 4095)
  decide (64 ≤ t.hact) && decide (t.hact ≤ 8192) && t.hact % 2 == 0 && h t.hfp && h t.hsync && h t.hbp &&
  decide (16 ≤ t.vact) && decide (t.vact ≤ 8192) && v (bits v0 31 16) && v (bits v1 15 0) && v (bits v1 31 16)

/-- The limits of R260 that every timing meets: totals, clock and frame rate. -/
def totalsOk (t : Timing) (f : Nat × Nat) : Bool :=
  let total := t.htot * t.vtot
  decide (t.htot ≤ 16383) && decide (t.vtot ≤ 16383) &&
  decide (15625000 * f.2 ≤ f.1) && decide (f.1 ≤ 1200000000 * f.2) &&
  decide (23 * total * f.2 ≤ f.1) && decide (f.1 ≤ 240 * total * f.2)

/-- Is the clock within 1 ppm of the standard entry's (R261, R266)? -/
def stdClockOk (c : Word) (f : Nat × Nat) : Bool :=
  let khz := (stdEntry (bits c 5 0)).khz
  let num := if bit c 29 then khz * 1000 * 1000 else khz * 1000
  let den := if bit c 29 then 1001 else 1
  let a := f.1 * den
  let b := num * f.2
  decide ((if a < b then b - a else a - b) * 1000000 ≤ b)

/-- The checks on platform p's timing registers (R260, R261, R266): a status, or none. -/
def chkPlatform (d : Dev) (rv : Nat → Word) (p : Nat) : Option Nat :=
  match timingOf rv p with
  | none => none
  | some t =>
    let c := rv (SO_PCTRL p)
    let k := dpllOf rv p
    let f := dpllHz d k
    if !bit c 30 && !explicitOk t (rv (SO_VTIM0 p)) (rv (SO_VTIM1 p)) then some stBAD_DESC
    else if !totalsOk t f then some stBAD_DESC
    else if !fb d (SO_DPLL_W2 k) SO_DPLL_W2_LOCK then some stBAD_DESC
    else if bit c 30 && !stdClockOk c f then some stBAD_DESC
    else if d.heritage && bit c 30 && decide (bits c 5 0 > 23) then some stERR_PERM
    else none

/-! ### Aggregate rate (R264) -/

/-- A sum of fractions. -/
def addFrac (a b : Nat × Nat) : Nat × Nat := (a.1 * b.2 + b.1 * a.2, a.2 * b.2)

/-- The larger of two fractions. -/
def maxFrac (a b : Nat × Nat) : Nat × Nat := if a.1 * b.2 ≤ b.1 * a.2 then b else a

/-- The pixel clock in force on a platform in Hz, zero while it is disabled. -/
def rateNow (d : Dev) (p : Nat) : Nat × Nat :=
  if platOn d p then (1000000000 * (raster d p).pxDen, (raster d p).pxNum) else (0, 1)

/-- The pixel clock that a platform's registers give. -/
def rateOf (d : Dev) (rv : Nat → Word) (p : Nat) : Nat × Nat :=
  if bit (rv (SO_PCTRL p)) 31 then dpllHz d (dpllOf rv p) else (0, 1)

/-- The aggregate rate in force. -/
def rateSum (d : Dev) : Nat × Nat := (List.range 16).foldl (fun a p => addFrac a (rateNow d p)) (0, 1)

/-- The aggregate rate that a commit is judged by: each platform at the larger of its old and new rate. -/
def rateMax (d : Dev) (old new : Nat → Word) : Nat × Nat :=
  (List.range 16).foldl (fun a p =>
    addFrac a (maxFrac (rateNow d p) (maxFrac (rateOf d old p) (rateOf d new p)))) (0, 1)

/-- The limit of R264 in MHz in a mode. -/
def rateLimit (mode : Nat) : Nat := if mode = mSTP then 3200 else 6400

/-- Is a rate within a limit in MHz? -/
def rateFits (f : Nat × Nat) (mhz : Nat) : Bool := decide (f.1 ≤ mhz * 1000000 * f.2)

/-- SO_STATUS shows the aggregate rate in force. -/
def showRate (d : Dev) : Dev :=
  let f := rateSum d
  fs d SO_STATUS SO_STATUS_RATE_MHZ (f.1 / f.2 / 1000000)

/-! ### Pool demands over all platforms (R231, R232) -/

/-- The strip blocks that a platform holds or needs now. -/
def demandNow (d : Dev) (p : Nat) : Nat :=
  let x := platRun d p
  if platOn d p then platDemand x.mode x.expH (raster d p).hact x.depth else 0

/-- The strip blocks of a platform under registers, a mode and EXP_H. -/
def demandOf (rv : Nat → Word) (mode : Nat) (expH : Bool) (p : Nat) : Nat :=
  if bit (rv (SO_PCTRL p)) 31 then
    match timingOf rv p with
    | some t => platDemand mode expH t.hact (depthOf (bits (rv (SO_PCTRL p)) 25 24))
    | none => 0
  else 0

/-- The demand that a commit is judged by (R231). -/
def stripsNeeded (d : Dev) (items : List CommitItem) : Nat :=
  let old := futReg d []
  let new := futReg d items
  ((List.range 16).map (fun p =>
    max (demandNow d p) (max (demandOf old (futMode d []) (bit (old CM_CTRL) 16) p)
      (demandOf new (futMode d items) (bit (new CM_CTRL) 16) p)))).sum

/-- The Freight frames of the enabled platforms in units of 64 KiB (R232). -/
def freightNeeded (rv : Nat → Word) : Nat :=
  ((List.range 16).map (fun p =>
    if bit (rv (SO_PCTRL p)) 31 then
      match timingOf rv p with
      | some t => freightBytes t.hact t.vact (depthOf (bits (rv (SO_PCTRL p)) 25 24))
      | none => 0
    else 0)).sum

/-- Do strips and frames fit after a commit (R231, R232)? -/
def poolFits (d : Dev) (items : List CommitItem) : Bool :=
  decide (stripsNeeded d items ≤ skRes d 0) &&
  (decide (futMode d items ≠ mFRT) || decide (freightNeeded (futReg d items) ≤ (rd d CM_FRT_SIZE).toNat))

/-! ### Sinks, links and DSC (R267, R268, R274, R275, R278, R282, R284) -/

/-- The port of a sink (R267). -/
def sinkPort (s : Nat) : Nat := if s < 16 then s / 4 else s - 12

/-- The sinks of a port. -/
def portSinks (q : Nat) : List Nat := if q < 4 then [4 * q, 4 * q + 1, 4 * q + 2, 4 * q + 3] else [q + 12]

/-- The type of a port: 0 DP, 1 A-PHY, 2 DSI. -/
def portType (q : Nat) : Nat := if q < 4 then 0 else if q < 12 then 1 else 2

/-- The configuration register of a port. -/
def portCfg (q : Nat) : Nat := if q < 4 then SO_DP_CFG q else if q < 12 then SO_AP_CFG (q - 4) else SO_DS_CFG (q - 12)

/-- The status register of a port; STATE is in bits [31:29] of each. -/
def portStat (q : Nat) : Nat :=
  if q < 4 then SO_DP_STAT q else if q < 12 then SO_AP_STAT (q - 4) else SO_DS_STAT (q - 12)

/-- Is a route enabled in these registers? -/
def routeOn (rv : Nat → Word) (s : Nat) : Bool := bit (rv (SO_ROUTE s)) 31

/-- The source of a route. -/
def routeSrc (rv : Nat → Word) (s : Nat) : Nat := bits (rv (SO_ROUTE s)) 27 24

/-- The split of a route. -/
def routeSplit (rv : Nat → Word) (s : Nat) : Nat := bits (rv (SO_ROUTE s)) 21 20

/-- The sinks that a platform feeds. -/
def sinksOf (rv : Nat → Word) (p : Nat) : List Nat :=
  (List.range 26).filter (fun s => routeOn rv s && decide (routeSrc rv s = p))

/-- The rules of SPLIT on one sink (R268). -/
def splitOk (rv : Nat → Word) (s : Nat) : Bool :=
  let sp := routeSplit rv s
  if sp = 0 then true
  else
    let p := routeSrc rv s
    let mate := (sinksOf rv p).any (fun o => decide (routeSplit rv o = 3 - sp) &&
      decide (portType (sinkPort o) = portType (sinkPort s)))
    let same := (sinksOf rv p).all (fun o => decide (routeSplit rv o = 0) ||
      decide (portType (sinkPort o) = portType (sinkPort s)))
    mate && same && (match timingOf rv p with
      | some t => t.hact % 4 == 0 && t.hfp % 4 == 0 && t.hsync % 4 == 0 && t.hbp % 4 == 0
      | none => false)

/-- The active width of the port line of a sink. -/
def sinkWidth (rv : Nat → Word) (s : Nat) : Nat :=
  match timingOf rv (routeSrc rv s) with
  | some t => if routeSplit rv s = 0 then t.hact else t.hact / 2
  | none => 0

/-- The platform depth of a sink. -/
def sinkDepth (rv : Nat → Word) (s : Nat) : Nat := depthOf (bits (rv (SO_PCTRL (routeSrc rv s))) 25 24)

/-- The rules of DSC on one sink (R278), but for the sharing of an encoder. -/
def dscOk (rv : Nat → Word) (s : Nat) : Bool :=
  if !bit (rv (SO_ROUTE s)) 16 then true
  else
    let w := rv (SO_DSC (bits (rv (SO_ROUTE s)) 13 12))
    let depth := sinkDepth rv s
    let slices := 2 ^ bits w 31 30
    let hs := bits w 24 12
    let bpp := bits w 9 0
    let vact := match timingOf rv (routeSrc rv s) with
      | some t => t.vact
      | none => 0
    depth != 6 && sinkWidth rv s % slices == 0 && decide (8 ≤ hs) && decide (hs ≤ 2160) && vact % hs == 0 &&
    decide (128 ≤ bpp) && decide (bpp ≤ 48 * depth)

/-- Does another enabled sink hold the encoder that this one names (R278)? -/
def dscShared (rv : Nat → Word) (s : Nat) : Bool :=
  bit (rv (SO_ROUTE s)) 16 &&
  (List.range 26).any (fun o => decide (o ≠ s) && routeOn rv o && bit (rv (SO_ROUTE o)) 16 &&
    decide (bits (rv (SO_ROUTE o)) 13 12 = bits (rv (SO_ROUTE s)) 13 12))

/-- The stream rate of a sink in bits/s, as a fraction (R275); zero while its source has no timing. -/
def streamRate (d : Dev) (rv : Nat → Word) (s : Nat) : Nat × Nat :=
  match timingOf rv (routeSrc rv s) with
  | none => (0, 1)
  | some _ =>
    let f := dpllHz d (dpllOf rv (routeSrc rv s))
    let den := if routeSplit rv s = 0 then f.2 else 2 * f.2
    if bit (rv (SO_ROUTE s)) 16 then (f.1 * bits (rv (SO_DSC (bits (rv (SO_ROUTE s)) 13 12))) 9 0, den * 16)
    else (f.1 * 3 * sinkDepth rv s, den)

/-- The DisplayPort link rate of a RATE code in Mbit/s per lane. -/
def dpRate (code : Nat) : Nat := [1620, 2700, 5400, 8100, 10000, 13500].getD code 0

/-- The payload rate of a DP port in bits/s, as a fraction (R275). -/
def dpPayload (rv : Nat → Word) (q : Nat) : Nat × Nat :=
  let w := rv (SO_DP_CFG q)
  let raw := 2 ^ bits w 25 24 * dpRate (bits w 19 16) * 1000000
  if bits w 19 16 ≥ 4 then (raw * 128, 132)
  else if bit w 28 then (raw * 8 * 976, 10000)
  else (raw * 8, 10)

/-- The time slots that a stream takes on a DP port (R275). -/
def mstSlots (d : Dev) (rv : Nat → Word) (s : Nat) : Nat :=
  let r := streamRate d rv s
  let b := dpPayload rv (sinkPort s)
  cdiv (r.1 * 64 * b.2) (r.2 * b.1)

/-- The slots of all streams of a DP port; none in SST. -/
def portSlots (d : Dev) (rv : Nat → Word) (q : Nat) : Nat :=
  if bit (rv (SO_DP_CFG q)) 29 then (((portSinks q).filter (routeOn rv)).map (mstSlots d rv)).sum else 0

/-- Is a fraction at most another? -/
def leFrac (a b : Nat × Nat) : Bool := decide (a.1 * b.2 ≤ b.1 * a.2)

/-- The raw rate of a DSI port in bits/s, as a fraction (R284). -/
def dsiRaw (w : Word) : Nat × Nat :=
  let n := (bits w 27 26 + 1) * bits w 12 0 * 1000000
  if bit w 30 then (n * 16, 7) else (n, 1)

/-- Do the streams of an enabled port fit its link (R275, R282, R284)? -/
def linkFits (d : Dev) (rv : Nat → Word) (q : Nat) : Bool :=
  let w := rv (portCfg q)
  let ss := (portSinks q).filter (routeOn rv)
  if !bit w 31 ∨ ss = [] then true
  else if q < 4 then
    if bit w 29 then decide (portSlots d rv q ≤ if bits w 19 16 ≥ 4 then 64 else 63)
    else ss.all (fun s => leFrac (streamRate d rv s) (dpPayload rv q))
  else if q < 12 then
    let gear := [0, 2000, 4000, 8000, 12000, 16000].getD (bits w 2 0) 0
    ss.all (fun s => leFrac (streamRate d rv s) (gear * 1000000 * 85, 100))
  else
    let raw := dsiRaw w
    ss.all (fun s => leFrac (streamRate d rv s) (raw.1 * 9, raw.2 * 10))

/-- The rules of a port's configuration (R274, R275, R284). -/
def portCfgOk (rv : Nat → Word) (q : Nat) : Bool :=
  let w := rv (portCfg q)
  if q < 4 then
    !(bit w 30 && bit w 29) &&
    (bit w 29 || [1, 2, 3].all (fun m => !routeOn rv (4 * q + m))) &&
    (decide (bits w 19 16 ≥ 4) || bit w 28 ||
      (portSinks q).all (fun s => !(routeOn rv s && bit (rv (SO_ROUTE s)) 16)))
  else if q < 12 then true
  else decide (80 ≤ bits w 12 0) && decide (bits w 12 0 ≤ 4500) && !(bit w 30 && decide (bits w 27 26 = 3))

/-- TE_MODE = WAIT of a DSI port (R285): no framelock on its source, which feeds no other sink. -/
def teOk (d : Dev) (rv : Nat → Word) (k : Nat) : Bool :=
  if !bit (rv (SO_DS_CFG k)) 23 ∨ !routeOn rv (24 + k) then true
  else
    let p := routeSrc rv (24 + k)
    !fb d (TT_FL_CTRL p) TT_FL_CTRL_EN && decide (sinksOf rv p = [24 + k])

/-- PSR_EN of a platform (R279): every sink that it feeds is eDP. -/
def psrOk (rv : Nat → Word) (p : Nat) : Bool :=
  !bit (rv (SO_PSR p)) 31 || (sinksOf rv p).all (fun s => decide (s < 16) && bit (rv (SO_DP_CFG (s / 4))) 30)

/-! ### The whole check (R34, R259) -/

/-- Is this a register of scan-out? -/
def soOff (off : Nat) : Bool := decide (0xC0000 ≤ off) && decide (off < 0x100000)

/-- The platform whose landing line a staged scan-out register takes; none: the anchor's. -/
def soPlat (d : Dev) (off : Nat) (v : Word) : Option Nat :=
  if 0xC1000 ≤ off ∧ off < 0xC1400 then some ((off - 0xC1000) / 64)
  else if 0xC4000 ≤ off ∧ off < 0xC6000 then some ((off - 0xC4000) / 512)
  else if 0xC0400 ≤ off ∧ off < 0xC0468 then
    some (if bit v 31 then bits v 27 24 else bits (rd d off) 27 24)
  else none

/-- The scan-out parts of a commit. -/
def soParts (items : List CommitItem) : List (Nat × Word) :=
  items.filterMap (fun it => match it with
    | .reg o v => if soOff o then some (o, v) else none
    | _ => none)

/-- Does a commit name a timing register of platform p? -/
def namesTiming (parts : List (Nat × Word)) (p : Nat) : Bool :=
  parts.any (fun x => decide (0xC1000 + 64 * p ≤ x.1) && decide (x.1 ≤ 0xC1010 + 64 * p))

/-- The first status among the platforms named. -/
def chkPlatforms (d : Dev) (rv : Nat → Word) (parts : List (Nat × Word)) : Option Nat :=
  (List.range 16).findSome? (fun p => if namesTiming parts p then chkPlatform d rv p else none)

/-- The checks of the scan-out parts of a staged commit (R259 to R285): a status, or none. The parts are checked in rising
offset order within each rule, and the rules in the order BAD_DESC, ERR_PERM, NO_RESOURCE. -/
def chkScanout (d : Dev) (a : Auth) (group : Nat) (items : List CommitItem) : Option Nat :=
  let parts := soParts items
  if parts = [] then none
  else
    let rv := futReg d items
    let shape := parts.all (fun x => (soPlat d x.1 x.2).all (fun p => hasBit group p)) &&
      (List.range 26).all (fun s => !routeOn rv s || (splitOk rv s && dscOk rv s)) &&
      (List.range 14).all (portCfgOk rv) && (List.range 2).all (teOk d rv) && (List.range 16).all (psrOk rv)
    if a.island && parts.any (fun x => decide (x.1 < 0xC4000) || decide (0xC6000 ≤ x.1)) then some stERR_PERM
    else
      match chkPlatforms d rv parts with
      | some st => some st
      | none =>
        if !shape then some stBAD_DESC
        else if locked d 5 && parts.any (fun x => decide (0xC0400 ≤ x.1) && decide (x.1 < 0xC0468) &&
            decide (rd d x.1 ≠ x.2)) then some stERR_PERM
        else if (List.range 26).any (fun s => routeOn rv s && dscShared rv s) || !(List.range 14).all (linkFits d rv) ||
            !rateFits (rateMax d (futReg d []) rv) (rateLimit (futMode d items)) then some stNO_RESOURCE
        else none

end Sys2Proof.Machine
end

