-- ==== Sys2Proof/Machine/Platforms.lean ====
section
/-! DEFINITION. Platforms and display ports (R259 to R292): when landed timings take effect, rasters, ports, AUX, hot plug,
tearing effect, underflow, signatures, self-refresh, backlight. -/

namespace Sys2Proof.Machine

/-! ### Frames -/

/-- The first frame that starts at or after DT t. -/
def frameFrom (x : Raster) (t : Nat) : Nat := cdiv (absFrom x t) x.vtot

/-- The frame in progress on a platform. -/
def frameNow (d : Dev) (p : Nat) : Nat := (lineNow d p).1

/-- The payload of a scan-out event (R291) is posted to F0. -/
def scanEvent (d : Dev) (code port plat v : Nat) : Dev :=
  post d 0 clCOMMIT code midSCANOUT (pb 0 port + pb 1 plat + pw32 4 v)

/-- An event of a port. -/
def portEvent (d : Dev) (code q v : Nat) : Dev := scanEvent d code q 0xFF v

/-- An event of a platform. -/
def platEvent (d : Dev) (code p v : Nat) : Dev := scanEvent d code 0xFF p v

/-- The line at which a platform holds for its tearing effect (R285): the last blanking line of a frame, when its only sink
is a DSI port with TE_MODE = WAIT. -/
def teHold (d : Dev) (p f vtot : Nat) : Option Nat :=
  if (List.range 2).any (fun k => bit (rd d (SO_DS_CFG k)) 31 && bit (rd d (SO_DS_CFG k)) 23 &&
      decide (sinksOf (rd d) p = [24 + k])) && vtot != 0 then some (f * vtot + vtot - 1) else none

/-! ### Strip blocks (R231, R263) -/

/-- A platform holds the STRIP blocks that it needs. -/
def adjustStrips (d : Dev) (p : Nat) : Dev :=
  let want := demandNow d p
  let held := skCount d (fun r => decide (r.pool = 0) && decide (r.user = p))
  if want = held then d
  else
    let d1 := skGive d (fun r => decide (r.pool = 0) && decide (r.user = p))
    if want = 0 then d1 else skTakeHigh d1 0 want p 0

/-! ### Timings in force (R262, R263) -/

/-- PSTAT shows the totals in force. -/
def showTotals (d : Dev) (p : Nat) : Dev :=
  fs (fs d (SO_PSTAT p) SO_PSTAT_VTOTAL (raster d p).vtot) (SO_PSTAT p) SO_PSTAT_HTOTAL (raster d p).htot

/-- The delay of a sink from the timing generator to the pins in ns, as a fraction (R273). -/
def pinDelay (d : Dev) (s : Nat) : Nat × Nat :=
  let x := raster d (routeSrc (rd d) s)
  let q := sinkPort s
  let w := rd d (portCfg q)
  let px := if routeSplit (rd d) s = 0 then x.pxNum else 2 * x.pxNum
  let base :=
    if q < 4 then (if bits w 19 16 ≥ 4 then 210 else 180)
    else if q < 12 then 1100
    else if bit w 30 then 460 else 420
  let clocks := if q < 12 then 16 else 8
  let dsc := if bit (rd d (SO_ROUTE s)) 16 then 2 * x.htot * x.pxNum else 0
  (base * x.pxDen + clocks * px + dsc, x.pxDen)

/-- The port line that a LIVE sink carries (R268, R273, R278): active, porches and sync of the line, halved where the route splits, and
of the frame, the polarities; the duration of a port pixel clock; the delay to the pins; the port's configuration; and the encoder's
settings where the stream is compressed, which its PPS states. -/
def tellLine (d : Dev) (s : Nat) : Dev :=
  let p := routeSrc (rd d) s
  let x := raster d p
  let k := if routeSplit (rd d) s = 0 then 1 else 2
  let f := (platRun d p).form
  let r := rd d (SO_ROUTE s)
  let dl := pinDelay d s
  let ws := (f.take 4).map (fun n => n / k) ++ f.drop 4 ++
    [k * x.pxNum, x.pxDen, dl.1, dl.2, (rd d (portCfg (sinkPort s))).toNat] ++
    (if bit r 16 then [(rd d (SO_DSC (bits r 13 12))).toNat, (platRun d p).depth] else [])
  emit d (.line s ws)

/-- The applied timing, depth and PLL of platform p come into force from line 0 of frame f at DT t; the sinks that carry it follow. -/
def forceTiming (d : Dev) (p f t : Nat) : Dev :=
  match timingOf (rd d) p with
  | none => d
  | some tm =>
    let px := dpllPx d (dpllOf (rd d) p)
    let x := raster d p
    let d1 := setRaster d p { x with had := true, fRef := f, lRef := 0, dtRef := t, vtot := tm.vtot, htot := tm.htot,
                                     vact := tm.vact, hact := tm.hact, pxNum := px.1, pxDen := px.2, corr := 0,
                                     hold := if x.virt then none else teHold d p f tm.vtot }
    let d2 := onPlat d1 p (fun y => { y with depth := depthOf (fg d (SO_PCTRL p) SO_PCTRL_DEPTH)
                                             dpll := dpllOf (rd d) p, timingFrame := none
                                             form := [tm.hact, tm.hfp, tm.hsync, tm.hbp, tm.vact, tm.vfp, tm.vsync,
                                                      tm.vtot - tm.vact - tm.vfp - tm.vsync, tm.hpol.toNat, tm.vpol.toNat] })
    let d3 := showRate (adjustStrips (showTotals d2 p) p)
    ((d3.scan.live.filter (fun s => decide (routeSrc (rd d3) s = p))).reverse).foldl tellLine d3

/-- The strip height and lead of the mode come into force at once on a platform that starts. -/
def settleMode (d : Dev) (p : Nat) : Dev :=
  onPlat d p (fun y => { y with mode := y.nextMode.getD y.mode, nextMode := none
                                expH := y.nextExpH.getD y.expH, nextExpH := none })

/-- The real raster of a platform runs. -/
def goReal (d : Dev) (p : Nat) : Dev :=
  let m := { d.mdh with frame0 := SMap.set d.mdh.frame0 p (raster d p).fRef }
  let d0 := if d.heritage then { d with mdh := m } else d
  let d1 := setRaster (onPlat d0 p (fun y => { y with enFrame := none })) p { raster d p with virt := false }
  showRate (adjustStrips (fs (settleMode d1 p) (SO_PSTAT p) SO_PSTAT_STATE 1) p)

/-- A commit gives a platform without a timing its first one (R262): the raster starts at frame 0, line 0 within a line
after the landing DT; the spec leaves where in that line open. It is real when the same commit enables the platform. -/
def firstRaster (d : Dev) (p t : Nat) : Dev :=
  match timingOf (rd d) p with
  | none => d
  | some tm =>
    let px := dpllPx d (dpllOf (rd d) p)
    let late := takeFree d
    let en := bit (rd d (SO_PCTRL p)) 31
    let d1 := setRaster late.2 p { raster d p with virt := !en }
    let d2 := forceTiming d1 p 0 (t + late.1 % (tm.htot * px.1 / px.2 + 1))
    restampAll (if en then goReal d2 p else d2) p

/-- TIMING_TAKE_EFFECT (R262): at the first frame start at or after the landing. -/
def doTimingTakeEffect (p : Nat) (d : Dev) : Dev :=
  match (platRun d p).timingFrame with
  | none => d
  | some f0 =>
    let x := raster d p
    if !x.had ∨ x.vtot = 0 then d
    else
      let f := max f0 (frameFrom x d.dt)
      let t := dtOf x f 0
      restampAll (forceTiming (advance t d) p f t) p

/-- RASTER_START (R78): at the first virtual frame start strictly after the enabling landing, but where a jump of framelock
is to start it. -/
def doRasterStart (p : Nat) (d : Dev) : Dev :=
  match (platRun d p).enFrame with
  | none => d
  | some f0 =>
    let x := raster d p
    let jump := fb d (TT_FL_CTRL p) TT_FL_CTRL_EN && fb d (TT_FL_CTRL p) TT_FL_CTRL_JUMP
    if !x.had ∨ x.vtot = 0 ∨ !x.virt ∨ jump then d
    else
      let f := max f0 (frameFrom x d.dt)
      let t := dtOf x f 0
      let d1 := advance t d
      restampAll (goReal (setRaster d1 p { x with fRef := f, lRef := 0, dtRef := t, hold := teHold d1 p f x.vtot }) p) p

/-! ### Sinks and ports (R267 to R272) -/

/-- The state of a port: 0 OFF, 1 TRAINING, 2 IDLE, 3 LIVE, 4 FENCED. -/
def portState (d : Dev) (q : Nat) : Nat := bits (rd d (portStat q)) 31 29

def setPortState (d : Dev) (q v : Nat) : Dev := wr d (portStat q) (putBits (rd d (portStat q)) 31 29 v)

def onScan (d : Dev) (g : Scan → Scan) : Dev := { d with scan := g d.scan }

/-- Is a sink LIVE? -/
def isLive (d : Dev) (s : Nat) : Bool := d.scan.live.contains s

/-- Is any sink of a platform LIVE? -/
def platLive (d : Dev) (p : Nat) : Bool := d.scan.live.any (fun s => decide (routeSrc (rd d) s = p))

/-- A period of an output in ns (R290). -/
def bklPeriod (d : Dev) (k : Nat) : Nat := 40 * max (fg d (SO_BKL_W0 k) SO_BKL_W0_PERIOD) 1

/-- The duty that an output drives now: none while it holds its inactive level. -/
def bklDuty (d : Dev) (k : Nat) : Option Nat :=
  let w := rd d (SO_BKL_W0 k)
  let x := SMap.get d.scan.bkl k
  if !bit w 31 || (bit w 28 && !platLive d (bits w 27 24)) then none
  else some (match x.from0 with
    | some t => if t ≤ d.dt then fg d (SO_BKL_W1 k) SO_BKL_W1_DUTY else x.old
    | none => x.old)

/-- What an output drives, as its pin shows it (R290): whether it is at its inactive level, polarity, period, the duty now and the duty
that waits for its period or frame start with its DT, zero for none. -/
def tellBkl (d : Dev) (k : Nat) : Dev :=
  let x := SMap.get d.scan.bkl k
  let w := rd d (SO_BKL_W0 k)
  let next := (x.from0.filter (fun t => decide (d.dt < t))).getD 0
  emit d (.line (32 + k) (match bklDuty d k with
    | none => [0, bits w 30 30]
    | some y => [1, bits w 30 30, bklPeriod d k, y, fg d (SO_BKL_W1 k) SO_BKL_W1_DUTY, next]))

/-- The outputs that follow a platform of which a sink goes LIVE or leaves it. -/
def tellFollow (d : Dev) (was now : Nat) : Dev :=
  ((List.range 16).filter (fun k => fb d (SO_BKL_W0 k) SO_BKL_W0_FOLLOW && fb d (SO_BKL_W0 k) SO_BKL_W0_EN &&
    (hasBit was (fg d (SO_BKL_W0 k) SO_BKL_W0_PLATFORM) != hasBit now (fg d (SO_BKL_W0 k) SO_BKL_W0_PLATFORM)))).foldl tellBkl d

/-- Which platforms are lit is kept from this DT on (R305). -/
def noteLit (d : Dev) : Dev :=
  let m := maskOfList ((List.range 16).filter (platLive d))
  let was := (d.scan.lit.headD (0, 0)).2
  if was = m then d
  else tellFollow (onScan d (fun x => { x with lit := ((d.dt, m) :: x.lit).take 64 })) was m

/-- Sinks carry the idle pattern. -/
def idleSinks (d : Dev) (pick : Nat → Bool) : Dev :=
  noteLit (onScan d (fun x => { x with live := x.live.filter (fun s => !pick s) }))

/-- A LIVE port none of whose sinks is LIVE is IDLE. -/
def settlePorts (d : Dev) : Dev :=
  (List.range 14).foldl (fun d q =>
    if portState d q = 3 ∧ (portSinks q).all (fun s => !isLive d s) then setPortState d q 2 else d) d

/-- All sinks of a port carry the idle pattern, and the port takes a state. -/
def dropPort (d : Dev) (q st : Nat) : Dev :=
  setPortState (idleSinks d (fun s => decide (sinkPort s = q))) q st

/-- LINK_DOWN with its cause (R291). -/
def linkDown (d : Dev) (q cause : Nat) : Dev := count (portEvent d 0x24 q cause) (426 + 2 * q)

/-- Link start-up begins, and one training attempt with it. -/
def beginTrain (d : Dev) (q : Nat) : Dev :=
  let d1 := onScan (dropPort d q 1) (fun x => { x with attempts := SMap.set x.attempts q 0 })
  if 4 ≤ q ∧ q < 12 then d1 else count d1 (426 + 2 * q + 1)

/-- An OFF port that is enabled and sees its sink starts (R271, R277); while FENCE_IN holds the ports it goes on to FENCED. -/
def startPort (d : Dev) (q : Nat) : Dev :=
  if portState d q = 0 ∧ bit (rd d (portCfg q)) 31 ∧ (4 ≤ q ∨ fb d (SO_DP_STAT q) SO_DP_STAT_HPD) ∧ domUp d 13 then
    let d1 := beginTrain d q
    if fb d GL_MODE GL_MODE_FENCED then dropPort d1 q 4 else d1
  else d

/-- A port goes to OFF; the cause is posted unless it was OFF. -/
def portOff (d : Dev) (q cause : Nat) : Dev :=
  if portState d q = 0 then d else linkDown (dropPort d q 0) q cause

/-- Link loss on a port that is LIVE or IDLE (R271). -/
def linkLoss (d : Dev) (q cause : Nat) : Dev :=
  if portState d q = 2 ∨ portState d q = 3 then linkDown (beginTrain d q) q cause else d

/-- The first branch device's payload allocation of an MST port is written in DPCD (R275): stream, first slot and slots of each stream
at DPCD 0x1C0 to 0x1C2 (PRESUMED, log 144); slot 0 of 8b/10b holds the MTP header. -/
def writePayload (d : Dev) (q : Nat) : Dev :=
  let w := rd d (SO_DP_CFG q)
  let b8 (n : Nat) : Byte := BitVec.ofNat 8 n
  let ss := (portSinks q).filter (routeOn (rd d))
  (ss.foldl (fun (a : Dev × Nat) s =>
    let n := mstSlots d (rd d) s
    (emit a.1 (.aux q 0 0x1C0 [b8 (s % 4 + 1), b8 a.2, b8 n]), a.2 + n)) (d, if bits w 19 16 ≥ 4 then 0 else 1)).1

/-- SLOTS of a DP port shows what its streams take (R275), and the branch device learns it in MST. -/
def showSlots (d : Dev) (q : Nat) : Dev :=
  if q < 4 then
    let d1 := fs d (SO_DP_STAT q) SO_DP_STAT_SLOTS (portSlots d (rd d) q)
    if fb d (SO_DP_CFG q) SO_DP_CFG_MST ∧ portState d q ≠ 0 then writePayload d1 q else d1
  else d

/-- LINK_TRAIN_DONE (R271): IDLE with LINK_UP, another attempt, or OFF with TRAIN_FAIL after the third. -/
def doLinkTrainDone (q : Nat) (ok : Bool) (d : Dev) : Dev :=
  if portState d q ≠ 1 then d
  else if ok then
    let d1 := showSlots (setPortState (onScan d (fun x => { x with attempts := SMap.set x.attempts q 0 })) q 2) q
    if q < 4 then portEvent d1 0x23 q (fg d1 (SO_DP_CFG q) SO_DP_CFG_RATE)
    else if q < 12 then portEvent d1 0x23 q (fg d1 (SO_AP_CFG (q - 4)) SO_AP_CFG_GEAR)
    else
      let t := takeFree d1
      portEvent t.2 0x23 q (t.1 % 2 ^ 32)
  else
    let n := SMap.get d.scan.attempts q + 1
    let d1 := if q < 4 then bump d (SO_DP_STAT q) SO_DP_STAT_TRAIN_FAILS else d
    if n ≥ 3 then portEvent (dropPort (onScan d1 (fun x => { x with attempts := SMap.set x.attempts q 0 })) q 0) 0x25 q n
    else
      let d2 := onScan d1 (fun x => { x with attempts := SMap.set x.attempts q n })
      if 4 ≤ q ∧ q < 12 then d2 else count d2 (426 + 2 * q + 1)

/-- The DT of the next frame start of a platform. -/
def nextFrameDt (d : Dev) (p : Nat) : Nat := dtOf (raster d p) (frameFrom (raster d p) d.dt) 0

/-- Does a platform scan out a real raster? -/
def scans (d : Dev) (p : Nat) : Bool := platOn d p && (raster d p).had && !(raster d p).virt && (raster d p).vtot != 0

/-- May a sink go LIVE: routed, no change under way, its source scans out, its port trained and unmuted? -/
def mayGoLive (d : Dev) (s : Nat) : Bool :=
  let q := sinkPort s
  routeOn (rd d) s && !(SMap.get d.scan.routes s).on && scans d (routeSrc (rd d) s) &&
  bit (rd d (portCfg q)) 31 && (decide (portState d q = 2) || decide (portState d q = 3)) &&
  !hasBit (fg d SO_MUTE SO_MUTE_MUTE) q

/-- A sink is LIVE, and its port with it. -/
def goLive (d : Dev) (s : Nat) : Dev :=
  setPortState (noteLit (if isLive d s then d else tellLine (onScan d (fun x => { x with live := s :: x.live })) s)) (sinkPort s) 3

/-- SINK_LIVE (R269, R271): at the next frame start of its source. -/
def doSinkLive (s : Nat) (d : Dev) : Dev :=
  if !mayGoLive d s then d else goLive (advance (nextFrameDt d (routeSrc (rd d) s)) d) s

/-- The first vertical blanking line of a platform that starts at or after an absolute line and DT t. -/
def blankFrom (x : Raster) (a t : Nat) : Nat :=
  let b := max a (absFrom x t)
  let here := b / x.vtot * x.vtot + x.vact
  if b ≤ here then here else here + x.vtot

/-- ROUTE_IDLE (R269): the sink leaves its old source at that source's first vertical blanking line, or at once when it had
none; the port retrains when the change alters link parameters. -/
def doRouteIdle (s : Nat) (d : Dev) : Dev :=
  let r := SMap.get d.scan.routes s
  if !r.on then d
  else
    let d1 := match r.old.filter (fun p => scans d p) with
      | some p => advance (dtOfAbs (raster d p) (blankFrom (raster d p) r.from0 d.dt)) d
      | none => d
    let d2 := idleSinks (onScan d1 (fun x => { x with routes := SMap.set x.routes s default })) (fun o => decide (o = s))
    let q := sinkPort s
    if r.retrain ∧ (portState d2 q = 2 ∨ portState d2 q = 3) then beginTrain d2 q
    else showSlots (settlePorts d2) q

/-- PLATFORM_DISABLE (R263): at the first frame start at or after the landing, composition stops and the strip blocks return,
the sinks carry the idle pattern, and the raster goes on as a virtual one without framelock correction (R77). -/
def doPlatformDisable (p : Nat) (d : Dev) : Dev :=
  match (platRun d p).disFrame with
  | none => d
  | some f0 =>
    let x := raster d p
    if !x.had ∨ x.vtot = 0 then d
    else
      let f := max f0 (frameFrom x d.dt)
      let t := dtOf x f 0
      let d1 := setRaster (advance t d) p { x with fRef := f, lRef := 0, dtRef := t, virt := true, hold := none, corr := 0 }
      let d2 := onPlat (onFl d1 p (fun y => { y with corr := 0 })) p (fun y =>
        { y with disFrame := none, openStrips := [], late := [], lanes := [], psr := false, psrFrame := none })
      let d3 := adjustStrips (fs d2 (SO_PSTAT p) SO_PSTAT_STATE 0) p
      restampAll (showRate (settlePorts (idleSinks d3 (fun s => routeOn (rd d) s && decide (routeSrc (rd d) s = p))))) p

/-- A platform is disabled at this instant, without completing its frame (R292): its raster goes on as a virtual one. -/
def cutPlatform (d : Dev) (p : Nat) : Dev :=
  let x := raster d p
  if !x.had ∨ x.virt then d
  else
    let d1 := setRaster d p { uncorrected x d.dt with virt := true, hold := none }
    let d2 := onPlat (onFl d1 p (fun y => { y with corr := 0 })) p (fun y =>
      { y with disFrame := none, enFrame := none, timingFrame := none, openStrips := [], late := [], lanes := [], psr := false,
               psrFrame := none })
    adjustStrips (fs d2 (SO_PSTAT p) SO_PSTAT_STATE 0) p

/-! ### Mute (R272) -/

/-- MUTE_WRITE: the register takes the mask; MUTE_APPLY brings it to the ports. -/
def doMuteWrite (a : Acc) (v : Word) (d : Dev) : Dev := (regWrite a SO_MUTE v d).1

/-- The sources that a port's enabled routes name and that scan out. -/
def portSources (d : Dev) (q : Nat) : List Nat :=
  (((portSinks q).filter (routeOn (rd d))).map (routeSrc (rd d))).filter (scans d)

/-- A sink in its place among sinks in rising order of time. -/
def putByTime (at0 : Nat → Nat) (s : Nat) : List Nat → List Nat
  | [] => [s]
  | o :: os => if at0 s < at0 o then s :: o :: os else o :: putByTime at0 s os

/-- Sinks in rising order of time. -/
def byTime (at0 : Nat → Nat) (ss : List Nat) : List Nat := ss.foldl (fun l s => putByTime at0 s l) []

/-- MUTE_APPLY: at the next frame start of each of its sources, the sinks of a muted port carry the idle pattern and those of an unmuted
one pixels; the port is IDLE after its last sink, and LIVE with its first. -/
def doMuteApply (q : Nat) (d : Dev) : Dev :=
  let at0 (s : Nat) : Nat := nextFrameDt d (routeSrc (rd d) s)
  if hasBit (fg d SO_MUTE SO_MUTE_MUTE) q then
    if portState d q = 3 then
      let ss := byTime at0 ((portSinks q).filter (fun s => isLive d s && scans d (routeSrc (rd d) s)))
      dropPort (ss.foldl (fun e s => idleSinks (advance (at0 s) e) (fun o => decide (o = s))) d) q 2
    else d
  else if portState d q = 2 then
    (byTime at0 ((portSinks q).filter (mayGoLive d))).foldl (fun e s => goLive (advance (at0 s) e) s) d
  else d

/-! ### Display PLLs (R265, R266) -/

/-- DPLL_WRITE: word 0 or 1 of a PLL. A write while the PLL is in use, or one out of range, is discarded. -/
def doDpllWrite (a : Acc) (k w : Nat) (v : Word) (d : Dev) : Dev :=
  let off := if w = 0 then SO_DPLL_W0 k else SO_DPLL_W1 k
  let bad (n : Word) : Option Nat :=
    if dpllUsed d k then some ecBUSY
    else if !(if w = 0 then dpllRangeOk n (rd d (SO_DPLL_W1 k)) else dpllRangeOk (rd d (SO_DPLL_W0 k)) n) then
      some ecOUT_OF_RANGE
    else none
  let r := guardWrite a off v bad d
  match r.2 with
  | .done _ => fs r.1 (SO_DPLL_W2 k) SO_DPLL_W2_LOCK 0
  | _ => r.1

/-- DPLL_LOCK: a running PLL locks, and FREQ_KHZ shows its frequency. -/
def doDpllLock (k : Nat) (d : Dev) : Dev :=
  if !fb d (SO_DPLL_W0 k) SO_DPLL_W0_EN then d
  else
    let f := dpllHz d k
    fs (fs d (SO_DPLL_W2 k) SO_DPLL_W2_LOCK 1) (SO_DPLL_W2 k) SO_DPLL_W2_FREQ_KHZ (f.1 / f.2 / 1000)

/-! ### AUX (R276) -/

/-- Is an AUX transfer of the host under way? -/
def auxBusy (d : Dev) (p : Nat) : Bool := fb d (SO_AUX_CMD p) SO_AUX_CMD_GO

/-- A write to an AUX window: discarded while a transfer runs. -/
def auxWindowWrite (a : Acc) (p off : Nat) (v : Word) (d : Dev) : Dev × WriteRes :=
  guardWrite a off v (fun _ => if auxBusy d p then some ecBUSY else none) d

/-- The bytes of the data window. -/
def auxData (d : Dev) (p n : Nat) : List Byte := (wordBytes (rds d (SO_AUX_DATA p 0) 4)).take n

/-- The transfer that the window asks for leaves on AUX. -/
def auxSend (d : Dev) (p : Nat) : Dev :=
  let c := fg d (SO_AUX_CMD p) SO_AUX_CMD_CMD
  let n := fg d (SO_AUX_CMD p) SO_AUX_CMD_LEN + 1
  let mot := fg d (SO_AUX_CMD p) SO_AUX_CMD_MOT
  emit d (.aux p (4 * mot + c) (fg d (SO_AUX_ADDR p) SO_AUX_ADDR_ADDR) (if c % 2 = 0 then auxData d p n else []))

/-- A write of SO_AUX_CMD_p whose GO starts a transfer of the given command code. -/
def doAuxGo (code : Nat) (a : Acc) (p : Nat) (v : Word) (d : Dev) : Dev :=
  let w := auxWindowWrite a p (SO_AUX_CMD p) v d
  match w.2 with
  | .done n =>
    if bit n 31 ∧ bits n 29 28 = code then
      auxSend (onScan w.1 (fun x => { x with auxTries := SMap.set x.auxTries p 0 })) p
    else w.1
  | _ => w.1

/-- A transfer ends with a result and a count. -/
def auxEnd (d : Dev) (p res cnt : Nat) : Dev :=
  fs (fs (fs d (SO_AUX_CMD p) SO_AUX_CMD_GO 0) (SO_AUX_STAT p) SO_AUX_STAT_RESULT res) (SO_AUX_STAT p) SO_AUX_STAT_COUNT cnt

/-- A transfer ends without its bytes: COUNT, bytes transferred less one, is not stated. -/
def auxFail (d : Dev) (p res : Nat) : Dev :=
  let t := takeFree d
  auxEnd t.2 p res (t.1 % 16)

/-- Bytes in the data window: those given, then those that stood there. -/
def auxStore (d : Dev) (p : Nat) (bs : List Byte) : Dev :=
  wrs d (SO_AUX_DATA p 0) (wordsOfBytes ((bs ++ (auxData d p 16).drop bs.length).take 16))

/-- AUX_REPLY: an acknowledgement ends the transfer, a NACK ends it, a DEFER is tried again up to 7 times. -/
def doAuxReply (p : Nat) (rep : AuxReply) (d : Dev) : Dev :=
  if !auxBusy d p then d
  else
    let n := fg d (SO_AUX_CMD p) SO_AUX_CMD_LEN + 1
    match rep with
    | .ack bytes =>
      if fg d (SO_AUX_CMD p) SO_AUX_CMD_CMD % 2 = 0 then auxEnd d p 0 (n - 1)
      else
        let bs := bytes.take n
        if bs = [] then auxFail d p 0 else auxEnd (auxStore d p bs) p 0 (bs.length - 1)
    | .nack => auxFail d p 1
    | .defer =>
      let k := SMap.get d.scan.auxTries p
      if k < 7 then auxSend (onScan d (fun x => { x with auxTries := SMap.set x.auxTries p (k + 1) })) p
      else auxFail d p 2

/-- AUX_TIMEOUT. -/
def doAuxTimeout (p : Nat) (d : Dev) : Dev := if auxBusy d p then auxFail d p 3 else d

/-! ### Hot plug (R277) -/

/-- HPD_PLUG: an enabled port trains. -/
def doHpdPlug (p : Nat) (d : Dev) : Dev :=
  if fb d (SO_DP_STAT p) SO_DP_STAT_HPD then d
  else startPort (portEvent (fs d (SO_DP_STAT p) SO_DP_STAT_HPD 1) 0x20 p 0) p

/-- HPD_UNPLUG: the port goes to OFF; its routes are kept. -/
def doHpdUnplug (p : Nat) (d : Dev) : Dev :=
  if !fb d (SO_DP_STAT p) SO_DP_STAT_HPD then d
  else portOff (portEvent (fs d (SO_DP_STAT p) SO_DP_STAT_HPD 0) 0x21 p 0) p 0

/-- HPD_IRQ: posted; link status that shows lost lock is link loss (R276). -/
def doHpdIrq (p : Nat) (lost : Bool) (d : Dev) : Dev :=
  if !fb d (SO_DP_STAT p) SO_DP_STAT_HPD then d
  else
    let d1 := portEvent d 0x22 p 0
    if lost then linkLoss d1 p 1 else d1

/-! ### A-PHY (R283) -/

/-- The frame of the source of a port, for counting drops. -/
def portFrame (d : Dev) (q : Nat) : Nat :=
  match portSources d q with
  | p :: _ => frameNow d p
  | [] => 0

/-- APHY_ACK_TIMEOUT: transmission `sent + 1` of a packet was not acknowledged. The first two are sent again; after the third
the packet is dropped, and the eighth drop in a frame is link loss. -/
def doAphyAckTimeout (q sent : Nat) (d : Dev) : Dev :=
  if portState d (q + 4) ≠ 2 ∧ portState d (q + 4) ≠ 3 then d
  else if sent < 2 then count (bump d (SO_AP_STAT q) SO_AP_STAT_RETRANS) (426 + 2 * (q + 4) + 1)
  else
    let f := portFrame d (q + 4)
    let r := SMap.get d.scan.drops q
    let n := if r.frame = f then r.n + 1 else 1
    let d1 := onScan (bump d (SO_AP_STAT q) SO_AP_STAT_DROPS) (fun x =>
      { x with drops := SMap.set x.drops q { frame := f, n := if n ≥ 8 then 0 else n } })
    if n ≥ 8 then linkLoss d1 (q + 4) 2 else d1

/-! ### Tearing effect (R285) -/

/-- The source platform of a DSI port that waits for tearing effect. -/
def teSource (d : Dev) (k : Nat) : Option Nat :=
  if bit (rd d (SO_DS_CFG k)) 31 && bit (rd d (SO_DS_CFG k)) 23 && routeOn (rd d) (24 + k) then
    some (routeSrc (rd d) (24 + k)) else none

/-- Has a platform reached the line at which it holds? -/
def teWaits (d : Dev) (p : Nat) : Bool :=
  match (raster d p).hold with
  | some h => scans d p && decide (dtOfAbs (raster d p) h ≤ d.dt)
  | none => false

/-- A held platform goes on: line 0 of the next frame starts at DT t. -/
def teRelease (d : Dev) (p t : Nat) : Dev :=
  let x := raster d p
  let f := (x.hold.getD 0) / x.vtot + 1
  restampAll (setRaster d p { x with fRef := f, lRef := 0, dtRef := t, hold := teHold d p f x.vtot }) p

/-- TE_EDGE at one DSI port: line 0 starts within 3 fabric cycles of 1.2 GHz, a free value; a soon edge is EARLY. -/
def teEdgeAt (d : Dev) (k : Nat) : Dev :=
  match teSource d k with
  | none => d
  | some p =>
    if !scans d p then d
    else if teWaits d p then
      let t := takeFree d
      teRelease t.2 p (d.dt + t.1 % 3)
    else bump d (SO_DS_STAT k) SO_DS_STAT_TE_EARLY

/-- TE_EDGE: the DSI ports that take their tearing effect from the input; a pulse under 100 ns is ignored. -/
def doTeEdge (t : Nat) (e : Pulse) (d : Dev) : Dev :=
  if e.lenNs < 100 then d
  else
    ((List.range 2).filter (fun k => decide (fg d (SO_DS_CFG k) SO_DS_CFG_TE_SEL = t) &&
      (e.rising != fb d (SO_DS_CFG k) SO_DS_CFG_TE_POL))).foldl teEdgeAt d

/-- TE_TIMEOUT: after TE_TIMEOUT lines of waiting line 0 starts anyway. -/
def doTeTimeout (k : Nat) (d : Dev) : Dev :=
  match teSource d k with
  | none => d
  | some p =>
    match (raster d p).hold with
    | none => d
    | some h =>
      if !scans d p then d
      else
        let t := dtOfAbs (raster d p) (h + fg d (SO_DS_TE k) SO_DS_TE_TE_TIMEOUT)
        let d1 := bump (advance t d) (SO_DS_STAT k) SO_DS_STAT_TE_MISSED
        teRelease (platEvent d1 0x27 p (h / (raster d p).vtot)) p (max t d.dt)

/-! ### Underflow (R286) -/

/-- UNDERFLOW: in Freight and Heritage, a pixel that was not read in time and the rest of its line are substituted. -/
def doUnderflow (p line x : Nat) (d : Dev) : Dev :=
  let m := (platRun d p).mode
  if !scans d p ∨ (m ≠ mFRT ∧ m ≠ mHER) then d
  else
    let f := frameNow d p
    let a := f * (raster d p).vtot + line
    let d0 := onPlat (noteStrip d p a 3) p (fun y => { y with gaps := (a, x) :: y.gaps })
    let o := 0x114 + 0x40 * p
    let d0 := if d0.heritage then
        mdhIrq (setMdh d0 o (BitVec.ofNat 32 (sat ((mdhReg d0 o).toNat + 1) 65535))) (16 + p)
      else d0
    let d1 := count (emit (bump d0 (SO_UFLOW p) SO_UFLOW_LINES) (.panel 2 p (line * 2 ^ 16 + x))) (394 + 2 * p + 1)
    if (platRun d p).uflow = some f then d1
    else platEvent (bump (onPlat d1 p (fun y => { y with uflow := some f })) (SO_UFLOW p) SO_UFLOW_FRAMES) 0x26 p f

/-! ### Signatures (R287 to R289) -/

/-- A pixel as it is fed to a checker: R, G and B as 16-bit values. -/
def sigBytes (r g b : Nat) : List Byte := leBytes 2 r ++ leBytes 2 g ++ leBytes 2 b

/-- The CRC over a list of output pixels. -/
def sigCrc (px : List OutPix) : Word := BitVec.ofNat 32 (crc32ieee (px.flatMap (fun o => sigBytes o.r o.g o.b)))

/-- A pixel of frame f as the timing generator sends it (R286): what a line lacks from some pixel on is substituted. -/
def sentPix (d : Dev) (p f : Nat) (o : OutPix) : OutPix :=
  if (platRun d p).gaps.any (fun g => decide (g.1 = f * (raster d p).vtot + o.y) && decide (g.2 ≤ o.x)) then fallbackPix d p o.x o.y
  else o

/-- The pixels of frame f of a platform as the timing generator sends them, in the order in which its strips left composition. -/
def sentPixels (d : Dev) (p f : Nat) : List OutPix :=
  (d.out.reverse.flatMap (fun o => match o with
    | .strip q g _ px => if q = p ∧ g = f then px else []
    | _ => [])).map (sentPix d p f)

/-- The places of a rectangle in raster order. -/
def rectPlaces (x0 y0 x1 y1 : Nat) : List (Nat × Nat) :=
  (List.range ((x1 - x0) * (y1 - y0))).map (fun i => (x0 + i % (x1 - x0), y0 + i / (x1 - x0)))

/-- The pixels of a rectangle of frame f in raster order; none when composition has not given them all. -/
def sentRect (d : Dev) (p f x0 y0 x1 y1 : Nat) : Option (List OutPix) :=
  let px := (sentPixels d p f).filter (fun o => decide (x0 ≤ o.x) && decide (o.x < x1) && decide (y0 ≤ o.y) && decide (o.y < y1))
  if px.map (fun o => (o.x, o.y)) = rectPlaces x0 y0 x1 y1 then some px else none

/-- The CRC over a rectangle of frame f. Where the strips have not given all its pixels, it is taken over those that the sender
tells the timing generator sent; a free value when these are not the rectangle's pixels either. -/
def rectCrc (d : Dev) (p f x0 y0 x1 y1 : Nat) (told : List OutPix) : Word × Dev :=
  match sentRect d p f x0 y0 x1 y1 with
  | some px => (sigCrc px, d)
  | none =>
    if told ≠ [] ∧ told.map (fun o => (o.x, o.y)) = rectPlaces x0 y0 x1 y1 then (sigCrc told, d)
    else
      let t := takeFree d
      (BitVec.ofNat 32 t.1, t.2)

/-- The clipped rectangle of a region: left, top, and the places after its last column and line; none when the region is disabled or
clipped to nothing. -/
def regionRect (d : Dev) (p r : Nat) : Option (Nat × Nat × Nat × Nat) :=
  let w1 := guardWord d p r 1
  let w2 := guardWord d p r 2
  let x := raster d p
  let x1 := min (bits w2 15 0) x.hact
  let y1 := min (bits w2 31 16) x.vact
  if bit (guardWord d p r 0) 31 ∧ bits w1 15 0 < x1 ∧ bits w1 31 16 < y1 then some (bits w1 15 0, bits w1 31 16, x1, y1) else none

/-- The expected words of a region: four values and VALID. -/
def sigExp (d : Dev) (p r : Nat) : List Word :=
  (List.range 4).map (fun k => rd d (SO_SIG_EXP p r k)) ++ [rd d (SO_SIG_EXP_VALID p r)]

/-- Does a set of expected values hold a CRC? -/
def setHas (ws : List Word) (crc : Word) : Bool := (List.range 4).any (fun k => bit (wd ws 4) k && wd ws k == crc)

/-- The set in force when the region's first pixel left (R288): what the first landing after that line replaced. -/
def firstSet (d : Dev) (p r f y0 y1 : Nat) : List Word :=
  let v := (raster d p).vtot
  match ((SMap.get d.scan.sigs (16 * p + r)).filter (fun s => decide (f * v + y0 < s.abs) && decide (s.abs < f * v + y1))).head? with
  | some s => s.ws
  | none => sigExp d p r

/-- Was any sink of a platform LIVE at or after DT t? -/
def litSince (d : Dev) (p t : Nat) : Bool :=
  platLive d p || (d.scan.lit.takeWhile (fun e => decide (t < e.1))).any (fun e => hasBit e.2 p) ||
  (d.scan.lit.find? (fun e => decide (e.1 ≤ t))).any (fun e => hasBit e.2 p)

/-- Was a pixel of the lines y0 to y1 of frame f substituted (R234, R286)? A gap that begins right of x1 is outside. -/
def substIn (d : Dev) (p f y0 x1 y1 : Nat) : Bool :=
  let a := f * (raster d p).vtot
  (platRun d p).gaps.any (fun g => decide (a + y0 ≤ g.1) && decide (g.1 < a + y1) && decide (g.2 < x1)) ||
  d.comp.outs.any (fun o => decide (o.plat = p) && decide (o.kind = 2) && decide (o.abs < a + y1) &&
    decide (a + y0 < o.abs + bandH d p))

/-- The outcome of a region's frame: 0 NONE, 1 MATCH, 2 MISMATCH or unbound, 3 NO_OUTPUT. -/
def sigOutcome (d : Dev) (p r f : Nat) (rows : Nat × Nat) (crc : Word) : Nat :=
  if !hasBit (rd d (SO_SIG_BIND p)).toNat r then 2
  else if !litSince d p (dtOf (raster d p) f rows.1) || (platRun d p).psr then 3
  else if setHas (sigExp d p r) crc || setHas (firstSet d p r f rows.1 rows.2) crc then 1
  else 2

/-- What the island's signature path does with a result follows in Machine/Worlds.lean; here it is latched (R287, R289): the CRC over
the region's pixels of the frame in progress, a free value where composition has not given them all. -/
def latchSig (d0 : Dev) (p r : Nat) (told : List OutPix) : Dev × Option Nat :=
  match regionRect d0 p r with
  | none => (fs (fs (fs d0 (SO_SIG_RES_OUT p r) SO_SIG_RES_OUT_OUTCOME 0) (SO_SIG_RES_OUT p r) SO_SIG_RES_OUT_SUBST 0)
      (SO_SIG_RES_OUT p r) SO_SIG_RES_OUT_LAND_IN 0, none)
  | some (x0, y0, x1, y1) =>
    let f := frameNow d0 p
    let v := (raster d0 p).vtot
    let c := rectCrc d0 p f x0 y0 x1 y1 told
    let d := c.2
    let landIn := (platRun d p).lands.any (fun a => decide (f * v + y0 < a) && decide (a < f * v + y1))
    let out := sigOutcome d p r f (y0, y1) c.1
    let d1 := wr (wr d (SO_SIG_RES_CRC p r) c.1) (SO_SIG_RES_FRAME p r) (BitVec.ofNat 32 f)
    (wr d1 (SO_SIG_RES_OUT p r)
      (BitVec.ofNat 32 ((substIn d p f y0 x1 y1).toNat * 8 + landIn.toNat * 4 + out)), some out)

/-! ### Panel self-refresh (R279 to R281) -/

/-- May a platform enter SELF_REFRESH: IDLE frames without a landing, each with the frame CRC of the one before, or a refreshed frame
of a selective update? -/
def psrMay (d : Dev) (p : Nat) : Bool :=
  let f := frameNow d p
  let last := (rd d (GL_LAND_FRAME p)).toNat
  let idle := fg d (SO_PSR p) SO_PSR_IDLE
  let ss := sinksOf (rd d) p
  scans d p && !(platRun d p).psr && fb d (SO_PSR p) SO_PSR_PSR_EN && decide (ss ≠ []) && psrOk (rd d) p &&
  (List.range 16).all (fun r => !(hasBit (rd d (SO_SIG_BIND p)).toNat r && bit (guardWord d p r 0) 31 &&
    decide (bits (guardWord d p r 0) 23 22 ≥ 2))) &&
  (((decide (last + idle < f) || decide (fg d (GL_LAND_LINE p) GL_LAND_LINE_COUNT = 0)) && decide (idle ≤ (platRun d p).same)) ||
   (fb d (SO_PSR p) SO_PSR_SU_EN && decide ((platRun d p).psrExit = some f ∨ (platRun d p).psrExit = some (f - 1))))

/-- PSR_ENTER: composition of the platform stops; a commit that waits wakes the link again. -/
def doPsrEnter (p : Nat) (d : Dev) : Dev :=
  if !psrMay d p then d
  else
    let d1 := onPlat (fs d (SO_PSTAT p) SO_PSTAT_STATE 2) p (fun y =>
      { y with psr := true, psrFrame := none, psrLast := some (frameNow d p - 1), openStrips := [], late := [] })
    let d2 := platEvent d1 0x28 p (frameNow d p)
    if d2.commits.any (fun c => hasBit c.group p && !c.landed.contains p) then restampAll (psrWake d2 p) p else d2

/-- PSR_EXIT: at line 0 of the next refreshed frame. -/
def doPsrExit (p : Nat) (d : Dev) : Dev :=
  match (platRun d p).psrFrame with
  | none => d
  | some f =>
    if !(platRun d p).psr then d
    else
      let d1 := onPlat (advance (dtOf (raster d p) f 0) d) p (fun y =>
        { y with psr := false, psrFrame := none, psrExit := some f })
      restampAll (platEvent (fs d1 (SO_PSTAT p) SO_PSTAT_STATE 1) 0x29 p f) p

/-! ### Backlight (R290) -/

/-- A write to a DUTY register: the value takes effect at the next period start, or with LOCK at the next frame start. -/
def doDutyWrite (a : Acc) (k : Nat) (v : Word) (d : Dev) : Dev :=
  let w := regWrite a (SO_BKL_W1 k) v d
  match w.2 with
  | .done _ =>
    let x := SMap.get d.scan.bkl k
    let was := match x.from0 with
      | some t => if t ≤ w.1.dt then fg d (SO_BKL_W1 k) SO_BKL_W1_DUTY else x.old
      | none => x.old
    let next := if fb d (SO_BKL_W0 k) SO_BKL_W0_LOCK then none
      else some (x.start + cdiv (w.1.dt - x.start) (bklPeriod d k) * bklPeriod d k)
    tellBkl (onScan w.1 (fun y => { y with bkl := SMap.set y.bkl k { x with old := was, from0 := next } })) k
  | _ => w.1

/-- A write to the first word of an output: a PERIOD below 25 is out of range; a change of LOCK sets when a duty that waits
takes effect. -/
def doBklWrite (a : Acc) (k : Nat) (v : Word) (d : Dev) : Dev :=
  let w := guardWrite a (SO_BKL_W0 k) v (fun n => if bits n 19 0 < 25 then some ecOUT_OF_RANGE else none) d
  match w.2 with
  | .done n =>
    let en := bit n 31 && !fb d (SO_BKL_W0 k) SO_BKL_W0_EN
    let x : BklRun := { start := w.1.dt, old := fg w.1 (SO_BKL_W1 k) SO_BKL_W1_DUTY, from0 := some w.1.dt }
    tellBkl (if en then onScan w.1 (fun y => { y with bkl := SMap.set y.bkl k x }) else w.1) k
  | _ => w.1

/-- A frame starts on platform p: the outputs locked to it restart and take their duty. -/
def bklFrame (d : Dev) (p : Nat) : Dev :=
  let restart (m : SMap BklRun) (k : Nat) : SMap BklRun :=
    let w := rd d (SO_BKL_W0 k)
    if bit w 31 ∧ bit w 29 ∧ bits w 27 24 = p then
      SMap.set m k { start := d.dt, old := fg d (SO_BKL_W1 k) SO_BKL_W1_DUTY, from0 := some d.dt }
    else m
  let waits := (List.range 16).filter (fun k => fb d (SO_BKL_W0 k) SO_BKL_W0_EN && fb d (SO_BKL_W0 k) SO_BKL_W0_LOCK &&
    decide (fg d (SO_BKL_W0 k) SO_BKL_W0_PLATFORM = p) && bklDuty d k != some (fg d (SO_BKL_W1 k) SO_BKL_W1_DUTY))
  waits.foldl tellBkl (onScan d (fun y => { y with bkl := (List.range 16).foldl restart y.bkl }))

/-! ### FRAME_START (R38, R51, R76, R287) -/

/-- DISP_CRC of the frame that ends (R467): three bytes a pixel. -/
def mdhCrc (d : Dev) (p : Nat) (px : Option (List OutPix)) : Dev :=
  match px with
  | some px =>
    let bs : List Byte := px.flatMap (fun o => [BitVec.ofNat 8 o.r, BitVec.ofNat 8 o.g, BitVec.ofNat 8 o.b])
    setMdh d (0x110 + 0x40 * p) (BitVec.ofNat 32 (crc32ieee bs))
  | none =>
    let t := takeFree d
    setMdh t.2 (0x110 + 0x40 * p) (BitVec.ofNat 32 t.1)

/-- SO_FCRC of the frame that ends: over its active area; and how many frames in a row had the CRC of the one before (R279). -/
def frameCrc (d0 : Dev) (p f : Nat) : Dev :=
  let x := raster d0 p
  let c := rectCrc (if d0.heritage then mdhCrc d0 p (sentRect d0 p f 0 0 x.hact x.vact) else d0) p f 0 0 x.hact x.vact []
  let n := if c.1 = rd d0 (SO_FCRC p) then (platRun d0 p).same + 1 else 0
  onPlat (wr c.2 (SO_FCRC p) c.1) p (fun y =>
    { y with same := n, gaps := y.gaps.filter (fun g => decide ((f + 1) * x.vtot ≤ g.1)) })

/-- Strip height and lead of a landed mode commit or EXP_H take effect (R38). -/
def takeMode (d : Dev) (p : Nat) : Dev :=
  let y := platRun d p
  if y.nextMode.isNone && y.nextExpH.isNone then d else restampAll (adjustStrips (settleMode d p) p) p

/-- A frame starts: a layer whose fetch failed in an earlier one takes part again unless its fault is STICKY (R250, R251), and LBC_STATE
may be posted again (R243). -/
def clearFaults (d : Dev) (p f : Nat) : Dev :=
  let mine := (List.range 64).filter (fun k => decide (layerState d k = 1) && decide (layerPlat d k = p))
  let d1 := mine.foldl (fun d k => fs d (CM_LAYER_LSTAT k) CM_LAYER_LSTAT_FAULTED (if layerOut d p k f then 1 else 0)) d
  { d1 with comp := { d1.comp with lbcTold := d1.comp.lbcTold.filter (fun t => !(mine.contains t.1 && decide (t.2 < f))) } }

/-- The frame on glass where the raster is in frame g: in self-refresh, the last one sent before it (R305). -/
def shownFrame (d : Dev) (p g : Nat) : Nat :=
  let y := platRun d p
  match y.psrLast with
  | none => g
  | some l => if l < g ∧ (y.psr ∨ y.psrExit.any (fun e => decide (g < e))) then l else g

/-- What is kept for picks reaches two frames back (R306): older strip outcomes and faults go, and all configurations but the
newest one that stands at the start of those frames. -/
def pruneCfgs (d : Dev) (p f : Nat) : Dev :=
  let a := shownFrame d p (f - 2) * (raster d p).vtot
  let mine := d.comp.cfgs.filter (fun c => c.plat == p)
  let kept := mine.filter (fun c => decide (a < c.abs)) ++ (mine.filter (fun c => decide (c.abs ≤ a))).take 1
  { d with comp := { d.comp with cfgs := kept ++ d.comp.cfgs.filter (fun c => c.plat != p)
                                 outs := d.comp.outs.filter (fun o => o.plat != p || decide (a ≤ o.abs))
                                 faults := d.comp.faults.filter (fun o => o.plat != p || decide (a ≤ o.abs)) } }

/-- FRAMELOCK_OUT (R76): a pulse at the active level that OUT_POL sets. -/
def flOut (d : Dev) (p : Nat) : Dev :=
  let x := raster d p
  if fb d TT_FL_PIN TT_FL_PIN_OUT_EN ∧ fg d TT_FL_PIN TT_FL_PIN_OUT_SRC = p ∧ x.pxDen ≠ 0 then
    emit d (.pulse 0 (1 - fg d TT_FL_PIN TT_FL_PIN_OUT_POL) ((fg d TT_FL_PIN TT_FL_PIN_OUT_WIDTH + 1) * x.htot * x.pxNum / x.pxDen))
  else d

/-- The frame that starts next. -/
def frameNext (d : Dev) (p : Nat) : Nat :=
  let f := frameFrom (raster d p) d.dt
  if (platRun d p).started = some f then f + 1 else f

/-- The correction that framelock applies to the frame that starts: none without EN (R74), nor on a virtual raster (R77). -/
def frameCorr (d : Dev) (p : Nat) : Int :=
  if (raster d p).virt ∨ fb d (TT_FL_CTRL p) TT_FL_CTRL_EN = false then 0 else (SMap.get d.tt.fl p).corr

/-- The raster of the frame f that starts at DT t; it keeps its old reference where nothing bends a line. -/
def frameRaster (d : Dev) (p f t : Nat) : Raster :=
  let x := raster d p
  if frameCorr d p = 0 ∧ x.corr = 0 ∧ x.hold = none then x
  else { x with fRef := f, lRef := 0, dtRef := t, corr := frameCorr d p,
                hold := if x.virt then none else teHold d p f x.vtot }

/-- FRAME_START: the raster reaches line 0 of its next frame, whose lines take framelock's correction (R72); it goes when framelock is
off (R74). A platform that holds for tearing effect has no frame start until it is released. -/
def doFrameStart (p : Nat) (d : Dev) : Dev :=
  let x := raster d p
  if !x.had ∨ x.vtot = 0 ∨ teWaits d p ∨ (scans d p ∧ x.hold.any (fun h => decide (h < frameNext d p * x.vtot))) then d
  else
    let f := frameNext d p
    let t := dtOf x f 0
    let d1 := advance t d
    let d2 := setRaster d1 p (frameRaster d1 p f t)
    let d3 := count (onPlat d2 p (fun y => { y with started := some f })) (162 + p)
    let d4 := if fb d3 (TT_FL_CTRL p) TT_FL_CTRL_EN then d3 else onFl d3 p (fun y => { y with corr := 0 })
    let d5 := takeMode (pruneCfgs (clearFaults (bklFrame (flOut d4 p) p) p f) p f) p
    let d6 := if d5.heritage && scans d5 p then mdhIrq d5 p else d5
    let d7 := if scans d6 p then count d6 (394 + 2 * p) else d6
    if scans d6 p ∧ !(platRun d6 p).psr ∧ (platRun d6 p).psrExit ≠ some f then frameCrc d7 p (f - 1) else d7

/-! ### What a landing does to scan-out (R259 to R271) -/

/-- The expected values that a landing replaces are kept while a region's frame may still need them (R288). -/
def keepSigs (d : Dev) (p b : Nat) (offs : List Nat) : Dev :=
  ((List.range 16).filter (fun r => offs.any (fun o =>
      decide (SO_SIG_EXP p r 0 ≤ o) && decide (o ≤ SO_SIG_EXP_VALID p r)))).foldl (fun d r =>
    let old : SigSet := { abs := b, ws := sigExp d p r }
    onScan d (fun x => { x with sigs := SMap.mod x.sigs (16 * p + r) (fun l =>
      (l ++ [old]).drop (l.length + 1 - 4)) })) d

/-- A change of a platform's registers has landed at absolute line b and DT t (R262, R263, R78): a first timing starts the
raster; otherwise timing, enabling and disabling wait for their frame start. `was` is SO_PCTRL before. -/
def platLanded (d : Dev) (p b t : Nat) (was : Word) : Dev :=
  let x := raster d p
  let en := bit (rd d (SO_PCTRL p)) 31
  if !x.had then firstRaster d p t
  else
    let here := cdiv b x.vtot
    let d1 := if (timingOf (rd d) p).isSome then onPlat d p (fun y => { y with timingFrame := some here }) else d
    let d2 := if en && x.virt then onPlat d1 p (fun y => { y with enFrame := some (b / x.vtot + 1), disFrame := none })
      else if !en && bit was 31 then onPlat d1 p (fun y => { y with disFrame := some here, enFrame := none })
      else if en then onPlat d1 p (fun y => { y with disFrame := none })
      else d1
    restampAll d2 p

/-- A changed route has landed (R269): the sink leaves its old source at a blanking line. -/
def routeLanded (d : Dev) (s b : Nat) (was : Word) : Dev :=
  let now := rd d (SO_ROUTE s)
  let q := sinkPort s
  let before (off : Nat) : Word := if off = SO_ROUTE s then was else rd d off
  let slots (rv : Nat → Word) : Nat := if routeOn rv s then mstSlots d rv s else 0
  let dsc (w : Word) : Nat := if bit w 31 then bits w 16 12 else 0
  let link := dsc was != dsc now ||
    (decide (q < 4) && bit (rd d (SO_DP_CFG q)) 29 && slots before != slots (rd d))
  let r : RouteRun :=
    { on := true, old := if bit was 31 then some (bits was 27 24) else none, from0 := b, retrain := link }
  onScan d (fun x => { x with routes := SMap.set x.routes s r })

/-- A port's configuration has landed (R271): EN = 0 takes it to OFF; EN = 1 starts it, and changed link parameters retrain
it. -/
def cfgLanded (d : Dev) (q : Nat) (was : Word) : Dev :=
  let now := rd d (portCfg q)
  if !bit now 31 then portOff d q 3
  else if portState d q = 0 then startPort d q
  else if (portState d q = 2 ∨ portState d q = 3) ∧ was ≠ now then beginTrain d q
  else d

/-- Every port goes to OFF (a domain reset of PD13, R292), its cause posted. -/
def portsDown (d : Dev) (cause : Nat) : Dev := (List.range 14).foldl (fun d q => portOff d q cause) d

/-- A section reset (SCANOUT) (R292): every port goes through IDLE and retrains, which ends every AUX transfer. -/
def scanoutReset (d : Dev) : Dev :=
  let d1 := (List.range 14).foldl (fun d q => dropPort d q 0) d
  let d2 := onScan d1 (fun x => { x with routes := [], attempts := [], auxTries := [], drops := [] })
  (List.range 14).foldl startPort d2

/-! ### The commands -/

/-- TIMING_TAKE_EFFECT (R262). -/
def execTimingTakeEffect (p : Plat) (s : State) : Host.Outcome State Fault Refusal :=
  .next { s with dev := doTimingTakeEffect p.val s.dev }

/-- RASTER_START (R78). -/
def execRasterStart (p : Plat) (s : State) : Host.Outcome State Fault Refusal :=
  .next { s with dev := doRasterStart p.val s.dev }

/-- PLATFORM_DISABLE (R263). -/
def execPlatformDisable (p : Plat) (s : State) : Host.Outcome State Fault Refusal :=
  .next { s with dev := doPlatformDisable p.val s.dev }

/-- DPLL_WRITE (R266). -/
def execDpllWrite (acc : Acc) (k : Fin 8) (w : Fin 2) (v : Word) (s : State) : Host.Outcome State Fault Refusal :=
  .next { s with dev := doDpllWrite acc k.val w.val v s.dev }

/-- DPLL_LOCK (R265). -/
def execDpllLock (k : Fin 8) (s : State) : Host.Outcome State Fault Refusal :=
  .next { s with dev := doDpllLock k.val s.dev }

/-- ROUTE_IDLE (R269). -/
def execRouteIdle (sk : Sink) (s : State) : Host.Outcome State Fault Refusal :=
  .next { s with dev := doRouteIdle sk.val s.dev }

/-- SINK_LIVE (R269). -/
def execSinkLive (sk : Sink) (s : State) : Host.Outcome State Fault Refusal :=
  .next { s with dev := doSinkLive sk.val s.dev }

/-- LINK_TRAIN_DONE (R271). -/
def execLinkTrainDone (p : Port) (ok : Bool) (s : State) : Host.Outcome State Fault Refusal :=
  .next { s with dev := doLinkTrainDone p.val ok s.dev }

/-- MUTE_WRITE (R272). -/
def execMuteWrite (acc : Acc) (v : Word) (s : State) : Host.Outcome State Fault Refusal :=
  .next { s with dev := doMuteWrite acc v s.dev }

/-- MUTE_APPLY (R272). -/
def execMuteApply (p : Port) (s : State) : Host.Outcome State Fault Refusal :=
  .next { s with dev := doMuteApply p.val s.dev }

/-- AUX_NATIVE_WRITE (R276). -/
def execAuxNativeWrite (acc : Acc) (p : Fin 4) (v : Word) (s : State) : Host.Outcome State Fault Refusal :=
  .next { s with dev := doAuxGo 0 acc p.val v s.dev }

/-- AUX_NATIVE_READ (R276). -/
def execAuxNativeRead (acc : Acc) (p : Fin 4) (v : Word) (s : State) : Host.Outcome State Fault Refusal :=
  .next { s with dev := doAuxGo 1 acc p.val v s.dev }

/-- AUX_I2C_WRITE (R276). -/
def execAuxI2cWrite (acc : Acc) (p : Fin 4) (v : Word) (s : State) : Host.Outcome State Fault Refusal :=
  .next { s with dev := doAuxGo 2 acc p.val v s.dev }

/-- AUX_I2C_READ (R276). -/
def execAuxI2cRead (acc : Acc) (p : Fin 4) (v : Word) (s : State) : Host.Outcome State Fault Refusal :=
  .next { s with dev := doAuxGo 3 acc p.val v s.dev }

/-- AUX_REPLY (R276). -/
def execAuxReply (p : Fin 4) (rep : AuxReply) (s : State) : Host.Outcome State Fault Refusal :=
  .next { s with dev := doAuxReply p.val rep s.dev }

/-- AUX_TIMEOUT (R276). -/
def execAuxTimeout (p : Fin 4) (s : State) : Host.Outcome State Fault Refusal :=
  .next { s with dev := doAuxTimeout p.val s.dev }

/-- HPD_PLUG (R277). -/
def execHpdPlug (p : Fin 4) (s : State) : Host.Outcome State Fault Refusal :=
  .next { s with dev := doHpdPlug p.val s.dev }

/-- HPD_UNPLUG (R277). -/
def execHpdUnplug (p : Fin 4) (s : State) : Host.Outcome State Fault Refusal :=
  .next { s with dev := doHpdUnplug p.val s.dev }

/-- HPD_IRQ (R277). -/
def execHpdIrq (p : Fin 4) (lockLost : Bool) (s : State) : Host.Outcome State Fault Refusal :=
  .next { s with dev := doHpdIrq p.val lockLost s.dev }

/-- APHY_ACK_TIMEOUT (R283). -/
def execAphyAckTimeout (q : Fin 8) (sent : Fin 3) (s : State) : Host.Outcome State Fault Refusal :=
  .next { s with dev := doAphyAckTimeout q.val sent.val s.dev }

/-- TE_EDGE (R285). -/
def execTeEdge (t : TeIn) (s : State) : Host.Outcome State Fault Refusal :=
  .next { s with dev := doTeEdge t.pin.val t.pulse s.dev }

/-- TE_TIMEOUT (R285). -/
def execTeTimeout (d : Fin 2) (s : State) : Host.Outcome State Fault Refusal :=
  .next { s with dev := doTeTimeout d.val s.dev }

/-- UNDERFLOW (R286). -/
def execUnderflow (p : Plat) (line x : Nat) (s : State) : Host.Outcome State Fault Refusal :=
  .next { s with dev := doUnderflow p.val line x s.dev }

/-- PSR_ENTER (R279). -/
def execPsrEnter (p : Plat) (s : State) : Host.Outcome State Fault Refusal :=
  .next { s with dev := doPsrEnter p.val s.dev }

/-- PSR_EXIT (R280). -/
def execPsrExit (p : Plat) (s : State) : Host.Outcome State Fault Refusal :=
  .next { s with dev := doPsrExit p.val s.dev }

end Sys2Proof.Machine
end

