-- ==== Sys2Proof/Machine/Haptics.lean ====
section
/-! DEFINITION. The haptic engine (R313 to R329): effects, triggers, tracking, braking, faults. -/

namespace Sys2Proof.Machine

/-! ### State -/

/-- A channel. -/
def hapRun (d : Dev) (h : Nat) : HapRun := SMap.get d.hap.ch h

def onHap (d : Dev) (h : Nat) (g : HapRun → HapRun) : Dev :=
  { d with hap := { d.hap with ch := SMap.mod d.hap.ch h g } }

/-- The state of a channel: 0 OFF, 1 IDLE, 2 PLAY, 3 BRAKE, 4 FAULT (R325). -/
def hapState (d : Dev) (h : Nat) : Nat := fg d (HP_STAT h) HP_STAT_STATE

def setHapState (d : Dev) (h v : Nat) : Dev := fs d (HP_STAT h) HP_STAT_STATE v

/-- The applied configuration words of a channel. -/
def hapCfg (d : Dev) (h : Nat) : List Word := [rd d (HP_CFG_W0 h), rd d (HP_CFG_W1 h), rd d (HP_CFG_W2 h)]

/-- The function that holds a channel, if one does (R118). -/
def hapHolder (d : Dev) (h : Nat) : Option Nat := (List.range 32).find? (fun n => ptHaptic d n h)

/-! ### Effects (R316, R317) -/

/-- A DRIVE segment word. -/
def driveSeg (amp len : Nat) : Word := BitVec.ofNat 32 (amp * 2 ^ 16 + len)

/-- The words of a ROM effect: 17 and 112 are stated; the others are fixed for the part and not in the spec. -/
def romWords (n : Nat) : List Word :=
  if n = 17 then [BitVec.ofNat 32 0xE7000001, driveSeg 127 24]
  else if n = 112 then [BitVec.ofNat 32 0xE7000001, driveSeg 64 4000]
  else
    let k := Config.romSegs n % 63 + 1
    BitVec.ofNat 32 (0xE7000000 + k) :: (List.range k).map (Config.romSegment n)

/-- The words of an effect, header first; none when its RAM slot is empty. -/
def effectWords (d : Dev) (n : Nat) : List Word :=
  if n < 128 then romWords n else (SMap.get d.hap.ram n).words

/-- Is a loaded effect well formed (R316)? -/
def effectOk (ws : List Word) : Bool :=
  let h := wd ws 0
  let k := bits h 5 0
  bits h 31 24 == 0xE7 && bits h 23 6 == 0 && decide (1 ≤ k) && decide (ws.length = k + 1) &&
  (List.range k).all (fun i =>
    let s := wd ws (i + 1)
    bits s 29 24 == 0 &&
    (match bits s 31 30 with
     | 0 => bits s 23 16 != 0x80
     | 3 => decide (bits s 23 16 < i) && decide (1 ≤ bits s 7 0)
     | _ => true))

/-- The kind of a segment: 0 DRIVE, 1 PAUSE, 2 BRAKE, 3 LOOP. -/
def segKind (w : Word) : Nat := bits w 31 30

/-- Is a channel an ERM? -/
def isErm (x : HapRun) : Bool := bit (wd x.cfg 0) 30

/-- The nominal half-period in ns. -/
def nominalHalf (x : HapRun) : Nat := 5000000000 / max (bits (wd x.cfg 0) 15 0) 1

/-- The next expected zero crossing at or after DT t: t itself for an ERM. -/
def nextCross (x : HapRun) (t : Nat) : Nat :=
  if isErm x ∨ x.half = 0 then t else x.cross + cdiv (t - x.cross) x.half * x.half

/-! ### How an effect runs (R316, R319, R325) -/

/-- The longest brake of a channel in quarter milliseconds. -/
def brakeMax (x : HapRun) : Nat := 4 * bits (wd x.cfg 0) 23 16

/-- What the segment in progress, or the brake, drives in mV (R316, R319): AMP in 1/127 of RATED_MV times GAIN / 255, against the motion
while braking, nothing in a pause or after the first quiet window. -/
def driveMv (d : Dev) (h : Nat) : Int :=
  let x := hapRun d h
  let s := wd x.words (x.seg + 1)
  let gain := (x.play.map (fun t => t.gain)).getD 0
  let mv := fg d (HP_PHASE h) HP_PHASE_BEMF_MV
  if x.braking then
    if x.quiet ≠ 0 then 0
    else if isErm x then -Int.ofNat (Config.ermBrake mv) else -Int.ofNat (mv * Config.brakeGain / 65536)
  else if segKind s = 0 then sext (bits s 23 16) 8 * Int.ofNat (bits (wd x.cfg 1) 31 16 * gain) / (127 * 255)
  else 0

/-- The drive of a channel leaves on HAP_DRVP_h and HAP_DRVN_h (R313), with the half-period it alternates at; 0 for an ERM. -/
def showDrive (d : Dev) (h : Nat) : Dev :=
  emit d (.drive h (driveMv d h) (if isErm (hapRun d h) then 0 else (hapRun d h).half))

/-- A brake begins at DT t: a segment's, or the final one of the effect. -/
def beginBrake (d : Dev) (h len t : Nat) (final : Bool) : Dev :=
  let d1 := onHap d h (fun x => { x with braking := true, final := final, brakeStart := t, segStart := t, quiet := 0,
                                         brakeLen := if len = 0 then brakeMax x else len })
  showDrive (if final then setHapState d1 h 3 else d1) h

/-- The length of an effect's final brake: its last segment's, or 0 for the automatic one. -/
def finalLen (x : HapRun) : Nat :=
  let s := wd x.words (x.words.length - 1)
  if segKind s = 2 then bits s 15 0 else 0

/-- Segment i begins at DT t; loops are followed, and after the last segment the automatic brake begins. The first argument
bounds the loops followed. -/
def enterSeg : Nat → Dev → Nat → Nat → Nat → Dev
  | 0, d, h, _, t => beginBrake d h 0 t true
  | fuel + 1, d, h, i, t =>
    let x := hapRun d h
    let n := x.words.length - 1
    if i ≥ n then beginBrake d h 0 t true
    else
      let s := wd x.words (i + 1)
      let d1 := onHap d h (fun x => { x with seg := i, segStart := t, braking := false, windows := 0, bemfSum := 0 })
      match segKind s with
      | 2 => beginBrake d1 h (bits s 15 0) t (decide (i + 1 = n))
      | 3 =>
        let left := SMap.get x.loops i
        let count := if left = 0 then bits s 7 0 + 1 else left
        if count ≤ 1 then
          enterSeg fuel (onHap d1 h (fun x => { x with loops := SMap.set x.loops i 0 })) h (i + 1) t
        else
          enterSeg fuel (onHap d1 h (fun x => { x with loops := SMap.set x.loops i (count - 1) })) h
            (min (bits s 23 16) i) t
      | _ => showDrive d1 h

/-- The fuel of enterSeg: the segments of an effect, with room for nested loops. -/
def segFuel : Nat := 4096

/-- HAP_EN_h falls. -/
def dropEnable (d : Dev) (h : Nat) : Dev := emit d (.panel 11 h 0)

/-- HAP_EN_h rises. -/
def raiseEnable (d : Dev) (h : Nat) : Dev := emit d (.panel 11 h 1)

/-- An effect starts on a channel under the applied configuration (R315, R321). -/
def startEffect (d : Dev) (h : Nat) (t : HapTrig) (inherit : Bool) : Dev :=
  let x := hapRun d h
  let cfg := hapCfg d h
  let y : HapRun := { (default : HapRun) with
    cfg := cfg, play := some t, words := effectWords d t.effect, lastCause := x.lastCause, clearDt := x.clearDt,
    cross := if inherit then x.cross else d.dt }
  let z : HapRun := { y with half := if inherit then x.half else nominalHalf y }
  let d1 := emit (onHap (count d (470 + h)) h (fun _ => z)) (.panel 10 h (t.effect * 256 + t.gain))
  let d2 := fs (fs (setHapState d1 h 2) (HP_STAT h) HP_STAT_EFFECT t.effect) (HP_STAT h) HP_STAT_PENDING 0
  enterSeg segFuel (raiseEnable (if inherit then d2 else fs d2 (HP_PHASE h) HP_PHASE_LOCKED 0) h) h 0 d.dt

/-- The descriptor of a trigger completes, if it has one. -/
def endTrig (d : Dev) (t : HapTrig) (status detail : Nat) : Dev :=
  match t.src with
  | .desc f r idx => complete d f r idx status detail
  | _ => d

/-- The DETAIL of an effect that ends (R326). -/
def playDetail (d : Dev) (t : HapTrig) (started : Nat) (cut : Bool) : Nat :=
  sat ((d.dt - started) / 250000) 65535 * 65536 + cut.toNat * 2 + t.urgent.toNat

/-- Loads whose slot no channel plays any more take place (R327). -/
def settleLoads (d : Dev) : Dev :=
  let busy (e : Nat) : Bool := d.hap.ch.any (fun p => match p.2.play with
    | some t => decide (t.effect = e)
    | none => false)
  (d.hap.loads.filter (fun l => !busy l.effect)).foldl (fun d l =>
    let ram := if l.words = [] then SMap.erase d.hap.ram l.effect
      else SMap.set d.hap.ram l.effect { owner := l.f, words := l.words }
    complete { d with hap := { d.hap with ram := ram, loads := d.hap.loads.filter (fun m => m != l) } } l.f l.r l.idx stOK) d

/-- The effect of a channel ends, its descriptor with it. -/
def endEffect (d : Dev) (h status : Nat) (cut : Bool) : Dev :=
  match (hapRun d h).play with
  | none => d
  | some t =>
    let d1 := onHap d h (fun x => { x with play := none, braking := false, final := false })
    settleLoads (endTrig d1 t status (if status = stOK then playDetail d t t.dt cut else 0))

/-- The pending trigger of a channel is set or dropped. -/
def setPend (d : Dev) (h : Nat) (t : Option HapTrig) : Dev :=
  fs (onHap d h (fun x => { x with pend := t })) (HP_STAT h) HP_STAT_PENDING t.isSome.toNat

/-- The pending trigger of a channel ends with a status. -/
def endPend (d : Dev) (h status : Nat) : Dev :=
  match (hapRun d h).pend with
  | none => d
  | some t =>
    let d1 := setPend d h none
    let d2 := if status = stSUPERSEDED then bump d1 HP_STATUS HP_STATUS_SUPERSEDED else d1
    endTrig d2 t status 0

/-- An effect that has been accepted by the channel runs from now. -/
def playNow (d : Dev) (h : Nat) (t : HapTrig) (inherit : Bool) : Dev :=
  startEffect d h { t with dt := d.dt } inherit

/-- The brake of an effect is over: what is pending starts, or the channel rests (R322, R325). -/
def brakeOver (d : Dev) (h : Nat) (cut : Bool) : Dev :=
  let x := hapRun d h
  if x.goOff then
    let d1 := endPend (endEffect d h stABORTED false) h stABORTED
    dropEnable (setHapState (onHap d1 h (fun y => { y with goOff := false })) h 0) h
  else
    let d1 := setHapState (endEffect d h stOK (cut || x.jumped)) h 1
    match x.pend with
    | some t => playNow (setPend d1 h none) h t cut
    | none => emit d1 (.drive h 0 0)

/-! ### Triggers (R320 to R322) -/

/-- The function of a trigger. -/
def trigFn (s : HapSrc) : Nat :=
  match s with
  | .desc f _ _ => f
  | .point _ o => o
  | .key _ o => o

/-- Why a trigger is denied, as the status that a HAPTIC_PLAY would complete with (R320); none when it is not. -/
def trigDenied (d : Dev) (h effect : Nat) (s : HapSrc) : Option Nat :=
  let slot := SMap.get d.hap.ram effect
  if effect ≥ 192 ∨ (effect ≥ 128 ∧ slot.words = []) ∨ !fb d (HP_CFG_W0 h) HP_CFG_W0_EN then some stBAD_DESC
  else if !ptHaptic d (trigFn s) h then some stERR_PERM
  else if effect ≥ 128 ∧ slot.owner ≠ trigFn s ∧ slot.owner ≠ 0 then some stERR_PERM
  else none

/-- The DENIED event names the calling point, or all ones (R328). -/
def deniedBy (s : HapSrc) : Nat :=
  match s with
  | .point c _ => c
  | _ => 0xFFFFFFFF

/-- A trigger reaches a channel (R320, R321). -/
def hapTrigger (d : Dev) (h : Nat) (t : HapTrig) : Dev :=
  match trigDenied d h t.effect t.src with
  | some st =>
    let d1 := post (bump d HP_STATUS HP_STATUS_DENIED) 0 clHAPTIC 2 midHAPTIC
      (pb 0 h + pb 2 t.effect + pw32 4 (deniedBy t.src))
    endTrig d1 t st 0
  | none =>
    let st := hapState d h
    if st = 4 then endTrig d t stERR_DOWN (fg d (HP_STAT h) HP_STAT_CAUSE)
    else if st = 2 ∨ st = 3 then
      if t.urgent then playNow (endEffect (endPend d h stSUPERSEDED) h stOK true) h t true
      else
        let d1 := setPend (endPend d h stSUPERSEDED) h (some t)
        if st = 2 then beginBrake (onHap d1 h (fun x => { x with jumped := true })) h (finalLen (hapRun d1 h)) (nextCross (hapRun d1 h) d1.dt) true else d1
    else playNow d h t false

/-! ### Faults (R324) -/

/-- The bits of the channels in FAULT. -/
def showFaults (d : Dev) : Dev :=
  fs d HP_STATUS HP_STATUS_FAULT (maskOfList ((List.range 12).filter (fun h => hapState d h == 4)))

/-- A fault is detected: the drive stops without a brake, and the channel stays in FAULT. -/
def hapFault (d : Dev) (h cause v : Nat) : Dev :=
  let x := hapRun d h
  let again := decide (x.lastCause = cause) && x.clearDt.any (fun t => decide (d.dt - t ≤ 1000000000))
  let eff := match x.play with
    | some t => t.effect
    | none => 0
  let d1 := fs (setHapState (dropEnable d h) h 4) (HP_STAT h) HP_STAT_CAUSE cause
  let d2 := if again then fs d1 (HP_STAT h) HP_STAT_REPEAT 1 else d1
  let d3 := showFaults (onHap d2 h (fun y => { y with lastCause := cause, goOff := false }))
  let d4 := endPend (endEffect d3 h stERR_DOWN false) h stERR_DOWN
  let pay := pb 0 h + pb 1 cause + pb 2 eff + pw32 4 v
  let d5 := match (hapHolder d4 h).filter (fun n => n != 0) with
    | some n => post d4 n clHAPTIC 1 midHAPTIC pay
    | none => d4
  post d5 0 clHAPTIC 1 midHAPTIC pay

/-- AMP_FAULT: while HAP_EN_h is high, that is while an effect drives or brakes. -/
def doAmpFault (h : Nat) (d : Dev) : Dev :=
  if hapState d h = 2 ∨ hapState d h = 3 then hapFault d h 3 (fg d (HP_PHASE h) HP_PHASE_BEMF_MV) else d

/-! ### Sense windows (R318, R319, R324) -/

/-- The measured frequency in 0.1 Hz of a half-period in µs. -/
def freqOf (halfUs : Nat) : Nat := sat (5000000 / max halfUs 1) 65535

/-- A half-period in ns within F0_DHZ ± 25 %: the frequency is clamped, and whether it was at a clamp. -/
def clampHalf (f0 halfUs : Nat) : Nat × Bool :=
  let ns := halfUs * 1000
  let lo := 4 * 5000000000 / (5 * max f0 1)
  let hi := 4 * 5000000000 / (3 * max f0 1)
  if ns ≤ lo then (lo, true) else if ns ≥ hi then (hi, true) else (ns, false)

/-- Does the running effect track resonance? Effect 112 ignores TRACK. -/
def tracks (x : HapRun) : Bool :=
  bit (wd x.cfg 0) 29 && !isErm x && !(x.play.any (fun t => t.effect == 112))

/-- The segment in progress drives, and with what |AMP|. -/
def driveAmp (x : HapRun) : Option Nat :=
  let s := wd x.words (x.seg + 1)
  if x.braking ∨ segKind s ≠ 0 then none else some (sext (bits s 23 16) 8).natAbs

/-- What a window measures: the crossing if it finds one, the back-EMF, the lock (R318). -/
def measure (d : Dev) (h : Nat) (halfUs : Option Nat) (mv : Nat) : Dev :=
  let x := hapRun d h
  let d1 := fs d (HP_PHASE h) HP_PHASE_BEMF_MV (sat mv 65535)
  if isErm x then onHap d1 h (fun x => { x with windows := x.windows + 1, bemfSum := x.bemfSum + (if x.windows = 1 ∨ x.windows = 2 then mv else 0) })
  else
    match halfUs with
    | none =>
      fs (onHap d1 h (fun x => { x with missed := x.missed + 1, windows := x.windows + 1,
                                        bemfSum := x.bemfSum + (if x.windows = 1 ∨ x.windows = 2 then mv else 0) }))
        (HP_PHASE h) HP_PHASE_LOCKED 0
    | some u =>
      let c := clampHalf (bits (wd x.cfg 0) 15 0) u
      let half := if tracks x then c.1 else nominalHalf x
      let d2 := fs (fs d1 (HP_STAT h) HP_STAT_FREQ_DHZ (freqOf u)) (HP_PHASE h) HP_PHASE_LOCKED (decide (x.missed = 0)).toNat
      onHap d2 h (fun x => { x with
        cross := d.dt, half := half, missed := 0, windows := x.windows + 1
        clamped := if c.2 && tracks x then x.clamped + 1 else 0
        bemfSum := x.bemfSum + (if x.windows = 1 ∨ x.windows = 2 then mv else 0) })

/-- The fault that a window reveals, if one (R324): its cause and the value reported. A period of an LRA has two expected crossings
(DEDUCED, log 146). -/
def windowFault (x : HapRun) (halfUs : Option Nat) (mv : Nat) : Option (Nat × Nat) :=
  let per := bits (wd x.cfg 2) 7 4
  let low := bits (wd x.cfg 1) 15 0 * bits (wd x.cfg 2) 15 8
  match driveAmp x with
  | none => none
  | some amp =>
    if 64 ≤ amp ∧ x.windows = 3 ∧ x.bemfSum * 100 < 2 * low then some (1, mv)
    else if !isErm x ∧ x.missed ≥ 2 * per then some (2, mv)
    else if !isErm x ∧ x.clamped ≥ 2 * per then some (4, freqOf (halfUs.getD 0))
    else none

/-- The windows of an ERM below its threshold in a row. -/
def ermSlow (x : HapRun) (mv : Nat) : Bool :=
  isErm x && decide (mv * 100 < bits (wd x.cfg 1) 15 0 * bits (wd x.cfg 2) 15 8)

/-- What a window tells tracking, braking and fault detection, once it is over. -/
def takeWindow (h : Nat) (halfUs : Option Nat) (mv : Nat) (d : Dev) : Dev :=
  let d1 := measure d h halfUs mv
  let slow := ermSlow (hapRun d1 h) mv && (driveAmp (hapRun d1 h)).isSome
  let d2 := if isErm (hapRun d1 h) then onHap d1 h (fun x => { x with missed := if slow then x.missed + 1 else 0 }) else d1
  let x := hapRun d2 h
  if slow ∧ x.missed ≥ bits (wd x.cfg 2) 7 4 then hapFault d2 h 2 mv
  else
    match windowFault x halfUs mv with
    | some cv => hapFault d2 h cv.1 cv.2
    | none =>
      if !x.braking then (if isErm x then d2 else showDrive d2 h)
      else if mv * 100 ≥ 2 * bits (wd x.cfg 1) 15 0 then showDrive (onHap d2 h (fun y => { y with quiet := 0 })) h
      else if x.quiet = 0 then showDrive (onHap d2 h (fun y => { y with quiet := 1 })) h
      else if x.final then brakeOver d2 h false
      else enterSeg segFuel d2 h (x.seg + 1) d2.dt

/-- SENSE_WINDOW: HAP_EN_h is low for the window (R314) and rises at its end, then what was measured is taken. -/
def doSenseWindow (h : Nat) (halfUs : Option Nat) (mv : Nat) (d : Dev) : Dev :=
  if hapState d h ≠ 2 ∧ hapState d h ≠ 3 then d else takeWindow h halfUs mv (raiseEnable (dropEnable d h) h)

/-- HAPTIC_SEGMENT_END: the segment in progress, or the brake, has lasted its length. -/
def doHapticSegmentEnd (h : Nat) (d : Dev) : Dev :=
  if hapState d h ≠ 2 ∧ hapState d h ≠ 3 then d
  else
    let x := hapRun d h
    if x.braking then
      let t := x.brakeStart + x.brakeLen * 250000
      let d1 := advance t d
      if x.final then (if x.pend.isSome then d1 else brakeOver d1 h false)
      else enterSeg segFuel d1 h (x.seg + 1) (max t d.dt)
    else
      let s := wd x.words (x.seg + 1)
      let t0 := x.segStart + bits s 15 0 * 250000
      let t := if segKind s = 0 then nextCross x t0 else t0
      enterSeg segFuel (advance t d) h (x.seg + 1) (max t d.dt)

/-- PENDING_TRIGGER_TIMEOUT (R322): 8 ms after it arrived the pending trigger starts and cuts the effect that brakes. -/
def doPendingTriggerTimeout (h : Nat) (d : Dev) : Dev :=
  match (hapRun d h).pend with
  | none => d
  | some t => if hapState d h ≠ 3 then d else brakeOver (advance (t.dt + 8000000) d) h true

/-! ### Configuration (R315) -/

/-- The ranges of the configuration words. -/
def hapCfgOk (ws : List Word) : Bool :=
  let within (x lo hi : Nat) : Bool := decide (lo ≤ x) && decide (x ≤ hi)
  let a := wd ws 0
  let b := wd ws 1
  let c := wd ws 2
  bits a 27 24 == 0 && within (bits a 23 16) 1 32 && within (bits a 15 0) 500 3000 &&
  within (bits b 31 16) 100 10000 && within (bits b 15 0) 10 5000 &&
  within (bits c 31 22) 50 400 && bits c 21 16 == 0 && within (bits c 15 8) 1 100 && within (bits c 7 4) 2 15 &&
  bits c 3 0 == 0

/-- A channel configuration lands: a channel that plays keeps its words until its effect ends; EN = 0 brakes it first. -/
def hapLand (d : Dev) (h : Nat) (ws : List Word) : Dev :=
  let d1 := wr (wr (wr d (HP_CFG_W0 h) (wd ws 0)) (HP_CFG_W1 h) (wd ws 1)) (HP_CFG_W2 h) (wd ws 2)
  let st := hapState d1 h
  if bit (wd ws 0) 31 then
    if st = 0 then setHapState d1 h 1 else onHap d1 h (fun x => { x with goOff := false })
  else if st = 2 then beginBrake (onHap d1 h (fun x => { x with goOff := true })) h 0 (nextCross (hapRun d1 h) d1.dt) true
  else if st = 3 then onHap d1 h (fun x => { x with goOff := true })
  else showFaults (setHapState d1 h 0)

/-! ### Descriptors (R326, R327) -/

def chkHapticPlay (d : Dev) (f _r : Nat) (q : Desc) : Option (Nat × Nat) :=
  let w := at4 q.words 0x10
  if !bodyOk q.words [(0x10, 0x800FFFFF)] ∨ bits w 19 16 ≥ 12 ∨ bits w 7 0 ≥ 192 then some (stBAD_DESC, 0)
  else if !ptHaptic d f (bits w 19 16) then some (stERR_PERM, 0)
  else none

/-- The trigger of a HAPTIC_PLAY. -/
def actHapticPlay (f r : Nat) (q : Desc) (d : Dev) : Dev :=
  let w := at4 q.words 0x10
  hapTrigger d (bits w 19 16)
    { effect := bits w 7 0, gain := bits w 15 8, urgent := bit w 31, src := .desc f r q.idx, dt := d.dt }

def doHapticPlay (f r : Nat) (d : Dev) : Dev := startDesc d f r 0x440 [] true chkHapticPlay actHapticPlay

def chkHapticLoad (d : Dev) (f _r : Nat) (q : Desc) : Option (Nat × Nat) :=
  let w := at4 q.words 0x10
  let len := (at4 q.words 0x20).toNat
  let slot := SMap.get d.hap.ram (bits w 7 0)
  if !bodyOk q.words [(0x10, 0x800000FF), (0x18, full), (0x1C, full), (0x20, full)] ∨ bits w 7 0 < 128 ∨ bits w 7 0 ≥ 192 ∨
     (!bit w 31 ∧ (at8 q.words 0x18 % 64 ≠ 0 ∨ len < 8 ∨ len > 256 ∨ len % 4 ≠ 0)) then some (stBAD_DESC, 0)
  else if slot.words ≠ [] ∧ slot.owner ≠ f ∧ f ≠ 0 then some (stERR_PERM, 0)
  else none

/-- A load reads and checks its effect, then waits until no channel plays the slot. -/
def actHapticLoad (f r : Nat) (q : Desc) (d : Dev) : Dev :=
  let w := at4 q.words 0x10
  let put (d : Dev) (ws : List Word) : Dev :=
    let l : HapLoad := { f := f, r := r, idx := q.idx, effect := bits w 7 0, words := ws }
    settleLoads { d with hap := { d.hap with loads := d.hap.loads ++ [l] } }
  if bit w 31 then put d []
  else
    let m := memRead d f midHAPTIC (at8 q.words 0x18) ((at4 q.words 0x20).toNat / 4)
      (q.mem.headD { data := [], ecc := false, ats := false })
    match m.2 with
    | .fault => complete m.1 f r q.idx stERR_FAULT
    | .ecc => complete m.1 f r q.idx stERR_ECC
    | .words ws => if effectOk ws then put m.1 ws else complete m.1 f r q.idx stBAD_DESC

def doHapticLoad (f r : Nat) (m : MemIn) (d : Dev) : Dev := startDesc d f r 0x450 [m] true chkHapticLoad actHapticLoad

def chkHapticWrite (d : Dev) (f _r : Nat) (q : Desc) : Option (Nat × Nat) :=
  let w := at4 q.words 0x10
  if !bodyOk q.words [(0x10, 0xF00F000F), (0x20, full), (0x24, full), (0x28, full)] ∨ bits w 19 16 ≥ 12 ∨
     !hapCfgOk (atN q.words 0x20 3) then some (stBAD_DESC, 0)
  else if !ptHaptic d f (bits w 19 16) then some (stERR_PERM, 0)
  else none

/-- HAPTIC_CFG WRITE is a commit on its anchor alone (R315). -/
def actHapticWrite (f r : Nat) (q : Desc) (d : Dev) : Dev :=
  let w := at4 q.words 0x10
  acceptCommit d f (.desc f r q.idx) (bits w 3 0) (2 ^ bits w 3 0) q.cp (strictOf q.words) false
    [.haptic (bits w 19 16) (atN q.words 0x20 3)]

def doHapticCfgWrite (f r : Nat) (d : Dev) : Dev := startDesc d f r 0x460 [] false chkHapticWrite actHapticWrite

def chkHapticClear (d : Dev) (f _r : Nat) (q : Desc) : Option (Nat × Nat) :=
  let w := at4 q.words 0x10
  if !bodyOk q.words [(0x10, 0xF00F0000)] ∨ bits w 19 16 ≥ 12 ∨ strictOf q.words then some (stBAD_DESC, 0)
  else if !ptHaptic d f (bits w 19 16) then some (stERR_PERM, 0)
  else none

/-- CLEAR_FAULT returns a channel in FAULT to IDLE at once (R324). -/
def actHapticClear (f r : Nat) (q : Desc) (d : Dev) : Dev :=
  let h := bits (at4 q.words 0x10) 19 16
  let d1 := if hapState d h = 4 then
      showFaults (setHapState (onHap d h (fun x => { x with clearDt := some d.dt })) h
        (if fb d (HP_CFG_W0 h) HP_CFG_W0_EN then 1 else 0))
    else d
  complete d1 f r q.idx stOK

def doHapticCfgClearFault (f r : Nat) (d : Dev) : Dev := startDesc d f r 0x461 [] true chkHapticClear actHapticClear

/-! ### Resets and departures (R329) -/

/-- A channel brakes to rest with its descriptors gone: nothing completes. -/
def hapSilence (d : Dev) (h : Nat) : Dev :=
  let st := hapState d h
  let d1 := setPend d h none
  if st = 2 ∨ st = 3 then
    let d2 := onHap d1 h (fun x => { x with play := x.play.map (fun t => { t with src := .key 0 (trigFn t.src) }) })
    if st = 2 then beginBrake d2 h 0 (nextCross (hapRun d2 h) d2.dt) true else d2
  else d1

/-- Departure of Fn: its channels brake, its slots and waiting loads go. -/
def hapDepart (d : Dev) (f : Nat) : Dev :=
  let d1 := ((List.range 12).filter (fun h => ptHaptic d f h)).foldl hapSilence d
  { d1 with hap := { d1.hap with ram := d1.hap.ram.filter (fun p => p.2.owner != f)
                                 loads := d1.hap.loads.filter (fun l => l.f != f) } }

/-- A section reset (MEDIA): effects complete with ERR_DOWN, faults clear, and a channel that plays or brakes brakes on for at most
BRAKE_MAX_MS. -/
def hapSection (d : Dev) : Dev :=
  (List.range 12).foldl (fun d h =>
    let st := hapState d h
    let d1 := endPend (endEffect d h stERR_DOWN false) h stERR_DOWN
    let d2 := onHap d1 h (fun x => { x with lastCause := 0, clearDt := none })
    if st = 2 then beginBrake d2 h 0 (nextCross (hapRun d2 h) d2.dt) true
    else if st = 3 then onHap d2 h (fun x => { x with braking := true, final := true, brakeLen := min x.brakeLen (brakeMax x) })
    else onHap d2 h (fun _ => default)) d

/-- The states of the channels after a section reset: BRAKE while one brakes, else IDLE or OFF. -/
def showHap (d : Dev) : Dev :=
  (List.range 12).foldl (fun d h =>
    setHapState d h (if (hapRun d h).braking then 3 else if fb d (HP_CFG_W0 h) HP_CFG_W0_EN then 1 else 0)) d

/-- A domain reset of PD14: HAP_EN_h falls without a brake, effects complete with ERR_DOWN, and the RAM library is empty. -/
def hapDown (d : Dev) : Dev :=
  let d1 := (List.range 12).foldl (fun d h =>
    let d1 := if hapState d h = 2 ∨ hapState d h = 3 then dropEnable d h else d
    endPend (endEffect d1 h stERR_DOWN false) h stERR_DOWN) d
  { d1 with hap := default }

/-- Is a channel in PLAY or BRAKE (R329)? -/
def hapBusy (d : Dev) : Bool := (List.range 12).any (fun h => hapState d h == 2 || hapState d h == 3)

/-! ### The effect window -/

/-- Word j of the effect that HP_EFF_SEL names. -/
def effWord (d : Dev) (j : Nat) : Word := wd (effectWords d (fg d HP_EFF_SEL HP_EFF_SEL_EFFECT)) j

/-- HP_EFF_OWN. -/
def effOwner (d : Dev) : Word :=
  let n := fg d HP_EFF_SEL HP_EFF_SEL_EFFECT
  if n < 128 then BitVec.ofNat 32 (2 ^ 31 + midHAPTIC)
  else
    let s := SMap.get d.hap.ram n
    if s.words = [] then 0 else BitVec.ofNat 32 (2 ^ 31 + s.owner)

/-! ### The commands -/

/-- HAPTIC_PLAY (R326). -/
def execHapticPlay (f : Fn) (r : Ring) (s : State) : Host.Outcome State Fault Refusal :=
  .next { s with dev := doHapticPlay f.val r.val s.dev }

/-- HAPTIC_LOAD (R327). -/
def execHapticLoad (f : Fn) (r : Ring) (m : MemIn) (s : State) : Host.Outcome State Fault Refusal :=
  .next { s with dev := doHapticLoad f.val r.val m s.dev }

/-- HAPTIC_CFG_WRITE (R315). -/
def execHapticCfgWrite (f : Fn) (r : Ring) (s : State) : Host.Outcome State Fault Refusal :=
  .next { s with dev := doHapticCfgWrite f.val r.val s.dev }

/-- HAPTIC_CFG_CLEAR_FAULT (R324). -/
def execHapticCfgClearFault (f : Fn) (r : Ring) (s : State) : Host.Outcome State Fault Refusal :=
  .next { s with dev := doHapticCfgClearFault f.val r.val s.dev }

/-- SENSE_WINDOW (R318). -/
def execSenseWindow (h : Hap) (halfPeriodUs : Option Nat) (bemfMv : Nat) (s : State) :
    Host.Outcome State Fault Refusal :=
  .next { s with dev := doSenseWindow h.val halfPeriodUs bemfMv s.dev }

/-- HAPTIC_SEGMENT_END (R316). -/
def execHapticSegmentEnd (h : Hap) (s : State) : Host.Outcome State Fault Refusal :=
  .next { s with dev := doHapticSegmentEnd h.val s.dev }

/-- PENDING_TRIGGER_TIMEOUT (R322). -/
def execPendingTriggerTimeout (h : Hap) (s : State) : Host.Outcome State Fault Refusal :=
  .next { s with dev := doPendingTriggerTimeout h.val s.dev }

/-- AMP_FAULT (R324). -/
def execAmpFault (h : Hap) (s : State) : Host.Outcome State Fault Refusal :=
  .next { s with dev := doAmpFault h.val s.dev }

end Sys2Proof.Machine
end

