-- ==== Sys2Proof/Machine/Store.lean ====
section
/-! DEFINITION. The persistent parameter store (R449 to R452). -/

namespace Sys2Proof.Machine

/-! ### Writing -/

/-- What waited for a write hears of it. -/
def storeAnswer (d : Dev) (w : Option (Nat × Nat × Nat)) (st : Nat) : Dev :=
  match w with
  | some x => complete d x.1 x.2.1 x.2.2 st
  | none => d

/-- STORE_WRITE_DONE: the oldest write reaches its commit word, or finds the store full. -/
def doStoreWriteDone (d : Dev) : Dev :=
  match d.pm.storeJobs with
  | [] => d
  | j :: js =>
    let d1 := { d with pm := { d.pm with storeJobs := js } }
    match appendRec d1 { j.item with seq := d1.pm.storeSeq } with
    | some d2 => storeAnswer (showStore { d2 with pm := { d2.pm with storeSeq := d2.pm.storeSeq + 1 } }) j.waiter stOK
    | none => storeAnswer (showStore d1) j.waiter stNO_RESOURCE

/-! ### Compaction (R450) -/

/-- The sector that was written first, but for the one that is written: the records stand in the order in which they were written. -/
def oldestSector (d : Dev) : Option Nat :=
  (d.pm.store.find? (fun r => r.sector != d.pm.storeHead)).map (fun r => r.sector)

/-- Records are copied to the head; none when they do not all fit. -/
def copyRecs : List StoreRec → Dev → Option Dev
  | [], d => some d
  | r :: rs, d => (appendRec d r).bind (copyRecs rs)

/-- STORE_COMPACTION: with fewer than 2 erased sectors, the current records of the oldest sector go to the head, and the
sector is erased. -/
def doStoreCompaction (d : Dev) : Dev :=
  if (erasedSectors d).length ≥ 2 then d
  else
    match oldestSector d with
    | none => d
    | some k =>
      let live := (topRecs d).filter (fun r => decide (r.sector = k) && !r.deleted)
      match copyRecs live d with
      | none => d
      | some d1 =>
        showStore { d1 with pm := { d1.pm with store := d1.pm.store.filter (fun r => r.sector != k)
                                               storeErases := SMap.mod d1.pm.storeErases k (fun n => n + 1) } }

/-- STORE_FORMAT erases the store and writes a fresh header (R443). -/
def formatStore (d : Dev) : Dev :=
  showStore { d with pm := { d.pm with
    store := [], storeSeq := 0, storeJobs := [], storeHead := 1, storePos := 16
    storeErases := (List.range d.pm.storeSectors).foldl (fun m k => SMap.mod m k (fun n => n + 1)) d.pm.storeErases } }

/-! ### STORE_RW (R452) -/

/-- Is the store there? -/
def storeThere (d : Dev) : Bool := fb d PM_STORE_STAT PM_STORE_STAT_PRESENT

/-- Is this a host type? -/
def hostType (t : Nat) : Bool := decide (0x8000 ≤ t) && decide (t ≤ 0xFFFE)

/-- The checks that the four operations share, then those of one of them: `wr` says that host types only are written. -/
def chkStore (isWrite : Bool) (lenMax : Nat) (d : Dev) (_f _r : Nat) (q : Desc) : Option (Nat × Nat) :=
  if !bodyOk q.words [(0x10, 0xF0FFFFFF), (0x18, full), (0x1C, full), (0x20, full)] ∨
     (at4 q.words 0x20).toNat > lenMax then some (stBAD_DESC, 0)
  else if isWrite ∧ !hostType (bits (at4 q.words 0x10) 15 0) then some (stERR_PERM, 0)
  else if !storeThere d then some (stERR_DOWN, 0)
  else none

/-- TYPE and KEY. -/
def storeName (q : Desc) : Nat × Nat := (bits (at4 q.words 0x10) 15 0, bits (at4 q.words 0x10) 23 16)

/-- READ copies the current payload. -/
def actStoreRead (f r : Nat) (q : Desc) (d : Dev) : Dev :=
  match currentRec d (storeName q).1 (storeName q).2 with
  | none => complete d f r q.idx stOK 0xFFFFFFFF
  | some x =>
    if (at4 q.words 0x20).toNat < x.len then complete d f r q.idx stNO_RESOURCE
    else
      let w := memWritePages (pagesFuel x.len) d f f (at8 q.words 0x18) ((wordBytes x.payload).take x.len)
      complete w.1 f r q.idx (if w.2 then stOK else stERR_FAULT) (if w.2 then x.len else 0)

def doStoreRwRead (f r : Nat) (d : Dev) : Dev := startDesc d f r 0x680 [] true (chkStore false full) actStoreRead

/-- The words of a payload of len bytes, padded with zeros. -/
def padWords (ws : List Word) (len : Nat) : List Word :=
  wordsOfBytes ((wordBytes ws).take len ++ List.replicate (cdiv len 4 * 4 - len) 0)

/-- WRITE reads its payload and asks for the record. -/
def actStoreWrite (f r : Nat) (q : Desc) (d : Dev) : Dev :=
  let len := (at4 q.words 0x20).toNat
  let n := storeName q
  if len = 0 then storeWrite d n.1 n.2 [] 0 false (some (f, r, q.idx))
  else
    let m := memRead d f f (at8 q.words 0x18) (cdiv len 4) (q.mem.headD { data := [], ecc := false, ats := false })
    match m.2 with
    | .fault => complete m.1 f r q.idx stERR_FAULT
    | .ecc => complete m.1 f r q.idx stERR_ECC
    | .words ws => storeWrite m.1 n.1 n.2 (padWords ws len) len false (some (f, r, q.idx))

def doStoreRwWrite (f r : Nat) (m : MemIn) (d : Dev) : Dev :=
  startDesc d f r 0x681 [m] true (chkStore true 65496) actStoreWrite

/-- DELETE asks for a DELETE record. -/
def actStoreDelete (f r : Nat) (q : Desc) (d : Dev) : Dev :=
  storeWrite d (storeName q).1 (storeName q).2 [] 0 true (some (f, r, q.idx))

def doStoreRwDelete (f r : Nat) (d : Dev) : Dev := startDesc d f r 0x682 [] true (chkStore true full) actStoreDelete

/-- INFO writes 16 bytes. -/
def actStoreInfo (f r : Nat) (q : Desc) (d : Dev) : Dev :=
  let worst := d.pm.storeErases.foldl (fun m p => max m p.2) 0
  let ws := [d.pm.storeSectors * 65536, (erasedSectors d).length, ((topRecs d).filter (fun r => !r.deleted)).length, worst]
  let w := memWrite d f f (at8 q.words 0x18) (ws.flatMap (leBytes 4))
  complete w.1 f r q.idx (if w.2 then stOK else stERR_FAULT)

def doStoreRwInfo (f r : Nat) (d : Dev) : Dev := startDesc d f r 0x683 [] true (chkStore false full) actStoreInfo

/-! ### The commands -/

/-- STORE_RW READ (R452). -/
def execStoreRwRead (f : Fn) (r : Ring) (s : State) : Host.Outcome State Fault Refusal :=
  .next { s with dev := doStoreRwRead f.val r.val s.dev }

/-- STORE_RW WRITE (R452). -/
def execStoreRwWrite (f : Fn) (r : Ring) (m : MemIn) (s : State) : Host.Outcome State Fault Refusal :=
  .next { s with dev := doStoreRwWrite f.val r.val m s.dev }

/-- STORE_RW DELETE (R452). -/
def execStoreRwDelete (f : Fn) (r : Ring) (s : State) : Host.Outcome State Fault Refusal :=
  .next { s with dev := doStoreRwDelete f.val r.val s.dev }

/-- STORE_RW INFO (R452). -/
def execStoreRwInfo (f : Fn) (r : Ring) (s : State) : Host.Outcome State Fault Refusal :=
  .next { s with dev := doStoreRwInfo f.val r.val s.dev }

/-- STORE_WRITE_DONE (R450). -/
def execStoreWriteDone (s : State) : Host.Outcome State Fault Refusal :=
  .next { s with dev := doStoreWriteDone s.dev }

/-- STORE_COMPACTION (R450). -/
def execStoreCompaction (s : State) : Host.Outcome State Fault Refusal :=
  .next { s with dev := doStoreCompaction s.dev }

end Sys2Proof.Machine
end

