-- ==== Sys2Proof/Machine/TouchPick.lean ====
section
/-! DEFINITION. What is on glass where a panel is touched (R305, R306), and the fields of panel and key records
(R295, R308). -/

namespace Sys2Proof.Machine

/-! ### Panel and key records -/

/-- The words of a panel record. -/
def panelWords (d : Dev) (t : Nat) : List Word := rds d (TC_PANEL t 0) 12

def pnEn (ws : List Word) : Bool := bit (wd ws 0) 31
def pnSource (ws : List Word) : Nat := bits (wd ws 0) 30 28
def pnPort (ws : List Word) : Nat := bits (wd ws 0) 27 24
def pnPlat (ws : List Word) : Nat := bits (wd ws 0) 23 20
def pnMode (ws : List Word) : Nat := bits (wd ws 0) 19 18
def pnHover (ws : List Word) : Bool := bit (wd ws 0) 17
def pnSwap (ws : List Word) : Bool := bit (wd ws 0) 16
def pnTx (ws : List Word) : Nat := bits (wd ws 0) 15 8
def pnRx (ws : List Word) : Nat := bits (wd ws 0) 7 0
def pnThr (ws : List Word) : Nat := bits (wd ws 3) 15 0
def pnGloveThr (ws : List Word) : Nat := bits (wd ws 3) 31 16
def pnNegThr (ws : List Word) : Nat := bits (wd ws 4) 15 0
def pnSuspThr (ws : List Word) : Nat := bits (wd ws 4) 31 16
def pnHoverThr (ws : List Word) : Nat := bits (wd ws 5) 15 0
def pnNoiseThr (ws : List Word) : Nat := bits (wd ws 5) 31 16
def pnLongS (ws : List Word) : Nat := bits (wd ws 6) 15 0
def pnMaxS (ws : List Word) : Nat := bits (wd ws 6) 31 16
def pnTempC (ws : List Word) : Nat := bits (wd ws 7) 7 0
def pnMissMax (ws : List Word) : Nat := bits (wd ws 7) 11 8
def pnBlShift (ws : List Word) : Nat := bits (wd ws 7) 15 12
def pnCycles (ws : List Word) : Nat := bits (wd ws 7) 21 16
def pnTxKhz (ws : List Word) : Nat := bits (wd ws 7) 31 22
def pnTrack (ws : List Word) : Nat := bits (wd ws 8) 23 16
def pnDefault (ws : List Word) : Nat := bits (wd ws 8) 31 24
def pnInvert (ws : List Word) : Bool := bit (wd ws 9) 7
def pnCrc (ws : List Word) : Bool := bit (wd ws 9) 6
def pnSclk (ws : List Word) : Nat := bits (wd ws 9) 15 8
/-- The command bytes that an SPI panel's words give: how many (less one), and the word that holds them. -/
def pnSpiBytes (ws : List Word) (hi lo word : Nat) : List Byte := (wordBytes [wd ws word]).take (bits (wd ws 9) hi lo + 1)
def pnDrdyUs (ws : List Word) : Nat := bits (wd ws 9) 25 16
def pnDrdyGpio (ws : List Word) : Nat := bits (wd ws 9) 31 26
def pnLatency (ws : List Word) : Nat := bits (wd ws 11) 15 0

/-- The words of a key record. -/
def keyWords (d : Dev) (k : Nat) : List Word := rds d (TC_KEY k 0) 4

def kyEn (ws : List Word) : Bool := bit (wd ws 0) 31
def kyPanel (ws : List Word) : Nat := bits (wd ws 0) 30 28
def kyGroup (ws : List Word) : Nat := bits (wd ws 0) 27 24
def kyHaptic (ws : List Word) : Bool := bit (wd ws 0) 23
def kyGuard (ws : List Word) : Bool := bit (wd ws 0) 22
def kyClass (ws : List Word) : Nat := bits (wd ws 0) 21 20
def kyChannel (ws : List Word) : Nat := bits (wd ws 0) 19 16
def kyEffect (ws : List Word) : Nat := bits (wd ws 0) 15 8
def kyTx0 (ws : List Word) : Nat := bits (wd ws 1) 31 24
def kyTx1 (ws : List Word) : Nat := bits (wd ws 1) 23 16
def kyRx0 (ws : List Word) : Nat := bits (wd ws 1) 15 8
def kyRx1 (ws : List Word) : Nat := bits (wd ws 1) 7 0
def kyThr (ws : List Word) : Nat := bits (wd ws 2) 15 0
def kyHyst (ws : List Word) : Nat := bits (wd ws 2) 31 16
def kyDebOn (ws : List Word) : Nat := bits (wd ws 3) 3 0
def kyDebOff (ws : List Word) : Nat := bits (wd ws 3) 7 4

/-- The panel controller (R294). -/
def panelHolder (d : Dev) (t : Nat) : Option Nat := (List.range 32).find? (fun n => ptTouch d n t)

/-! ### The position of a node (R303) -/

/-- A coordinate in eighths of a pixel: origin, scale 8.8, and (num / den + 1/2) nodes, rounded half up. -/
def scaleAxis (org scale : Int) (num den : Nat) : Int :=
  let q : Int := Int.ofNat (64 * den)
  (org * 8 * q + Int.ofNat (2 * num + den) * scale + Int.ofNat (32 * den)) / q

/-- The platform position of a centroid (un / den on the RX axis, vn / den on the TX axis), in eighths of a pixel. -/
def nodePos (ws : List Word) (un vn den : Nat) : Int × Int :=
  let a := if pnSwap ws then vn else un
  let b := if pnSwap ws then un else vn
  (scaleAxis (sext (bits (wd ws 1) 15 0) 16) (sext (bits (wd ws 2) 15 0) 16) a den,
   scaleAxis (sext (bits (wd ws 1) 31 16) 16) (sext (bits (wd ws 2) 31 16) 16) b den)

/-! ### What is on glass (R305, R306) -/

/-- The absolute line in progress at a DT that may lie before the reference of the raster. -/
def absBack (x : Raster) (t : Nat) : Nat :=
  if x.dtRef ≤ t then absAt x t
  else (Int.ofNat (x.fRef * x.vtot + x.lRef) +
    (Int.ofNat t - Int.ofNat x.dtRef) * Int.ofNat x.pxDen / Int.ofNat (max 1 (x.htot * x.pxNum))).toNat

/-- The frame on glass at line y at DT t. -/
def frameAtLine (d : Dev) (p y t : Nat) : Nat :=
  let x := raster d p
  let a := absBack x t
  shownFrame d p (if y ≤ a % x.vtot then a / x.vtot else a / x.vtot - 1)

/-- Was a sink of the platform LIVE at DT t? -/
def litAt (d : Dev) (p t : Nat) : Bool :=
  hasBit (((d.scan.lit.find? (fun l => decide (l.1 ≤ t))).getD (0, 0)).2) p

/-- The newest configuration in force at an absolute line; the oldest held, and true, when none is that old. -/
def cfgAt (d : Dev) (p a : Nat) : Option (CfgSnap × Bool) :=
  let mine := d.comp.cfgs.filter (fun c => c.plat == p)
  match mine.find? (fun c => decide (c.abs ≤ a)) with
  | some c => some (c, false)
  | none => mine.getLast?.map (fun c => (c, true))

/-- The class of a pixel under the guard words of a configuration. -/
def guardsOf (ws : List Word) (x y : Nat) : List Nat :=
  (List.range 16).filter (fun r =>
    let w (j : Nat) : Word := wd ws (4 * r + j)
    bit (w 0) 31 && decide (bits (w 1) 15 0 ≤ x) && decide (x < bits (w 2) 15 0) &&
    decide (bits (w 1) 31 16 ≤ y) && decide (y < bits (w 2) 31 16))

/-- The greatest class of the regions that hold a pixel. -/
def classOf (ws : List Word) (x y : Nat) : Nat :=
  ((guardsOf ws x y).map (fun r => bits (wd ws (4 * r)) 23 22)).foldl max 0

/-- What became of the strip or line at an absolute line: 0 composed in time, 1 re-composed, 2 fallback, 3 substituted. -/
def stripOutcome (d : Dev) (p a : Nat) : Nat :=
  let h := stripH d p
  let here (o : StripOut) : Bool :=
    decide (o.plat = p) && (if o.kind = 3 then decide (o.abs = a) else decide (o.abs ≤ a) && decide (a < o.abs + h))
  ((d.comp.outs.filter here).map (fun o => o.kind)).foldl max 0

/-- Was a layer FAULTED at an absolute line, in its frame? -/
def faultedAt (d : Dev) (p k a : Nat) : Bool :=
  let v := max 1 (raster d p).vtot
  d.comp.faults.any (fun o => decide (o.layer = k) && decide (o.plat = p) && decide (o.abs ≤ a) &&
    decide (o.abs / v = a / v))

/-- Has an operator Fs = 0: CLEAR, DST, DST_IN, DST_OUT? -/
def opHidesSource (op : Nat) : Bool := op == 0x0 || op == 0x2 || op == 0x6 || op == 0x8

/-- May a layer of a configuration be picked at a pixel of an absolute line? -/
def pickable (d : Dev) (c : CfgSnap) (out a x y : Nat) (op : Nat) (l : LaySnap) : Bool :=
  decide (l.st = 1) && layerHas l.words x y && decide (classOf c.guards x y ≤ l.cc) && !l.out &&
  !faultedAt d c.plat l.layer a && !opHidesSource op && (decide (out = 0) || (decide (out = 1) && decide (2 ≤ l.cc))) &&
  decide (fg d (TC_PICK l.layer) TC_PICK_MIN_ALPHA ≤ layGlobal l.words) && !fb d (TC_PICK l.layer) TC_PICK_PASS

/-- Does a departure patch of a configuration cover a pixel: one that takes part there (R226, R229)? -/
def patchCovers (c : CfgSnap) (out x y : Nat) (l : LaySnap) : Bool :=
  decide (l.st = 2) && layerHas l.words x y && decide (classOf c.guards x y ≤ l.cc) &&
  (decide (out = 0) || (decide (out = 1) && decide (2 ≤ l.cc)))

/-- The topmost layer that may be picked; none under a departure patch (R305), which hides what lies below it (DEDUCED, log 145). -/
def pickLayer (d : Dev) (c : CfgSnap) (out a x y : Nat) : Option LaySnap :=
  let cau := inCaution d c.plat a
  (((if cau then fixedOrder else c.order).filterMap (fun ko =>
    (c.layers.find? (fun l => l.layer == ko.1)).filter (fun l =>
      (pickable d c out a x y ko.2 l || patchCovers c out x y l) && (!cau || decide (l.cc = 3))))).getLast?).filter
    (fun l => decide (l.st = 1))

/-- The flag bits of a pick. -/
def pkNoLayer : Nat := 1
def pkDark : Nat := 2
def pkStale : Nat := 4

/-- The pick at a position in eighths of a pixel at DT t, for a panel record. -/
def pickAt (d : Dev) (ws : List Word) (pos : Int × Int) (t : Nat) : Picked :=
  let p := pnPlat ws
  let x := raster d p
  let none0 (flags : Nat) : Picked := { owner := pnDefault ws, layer := none, ox := 0, oy := 0, flags := flags }
  if !platOn d p ∨ !x.had ∨ x.vtot = 0 ∨ !litAt d p t then none0 (pkDark + pkNoLayer)
  else
    let px := pos.1 / 8
    let py := pos.2 / 8
    if px < 0 ∨ py < 0 ∨ px ≥ Int.ofNat x.hact ∨ py ≥ Int.ofNat x.vact then none0 pkNoLayer
    else
      let y := py.toNat
      let a := frameAtLine d p y t * x.vtot + y
      match cfgAt d p a with
      | none => none0 pkNoLayer
      | some c =>
        let stale := if c.2 then pkStale else 0
        match pickLayer d c.1 (stripOutcome d p a) a px.toNat y with
        | none => none0 (pkNoLayer + stale)
        | some l => { owner := l.owner, layer := some l.layer, ox := layDstX l.words, oy := layDstY l.words, flags := stale }

/-- Does the pixel at a position lie, on glass at DT t, in an enabled region of at least a class (R308)? -/
def guardOnGlass (d : Dev) (ws : List Word) (pos : Int × Int) (t cls : Nat) : Bool :=
  let p := pnPlat ws
  let x := raster d p
  let px := pos.1 / 8
  let py := pos.2 / 8
  if !platOn d p ∨ !x.had ∨ x.vtot = 0 ∨ !litAt d p t ∨ px < 0 ∨ py < 0 ∨ px ≥ Int.ofNat x.hact ∨
     py ≥ Int.ofNat x.vact then false
  else
    match cfgAt d p (frameAtLine d p py.toNat t * x.vtot + py.toNat) with
    | none => false
    | some c => decide (cls ≤ classOf c.1.guards px.toNat py.toNat) && decide (guardsOf c.1.guards px.toNat py.toNat ≠ [])

/-! ### Blobs (R303) -/

/-- A blob: its nodes, its peak node and value, and its centroid. -/
structure Blob where
  nodes : List Nat
  peakAt : Nat
  peak : Int
  un : Nat
  vn : Nat
  den : Nat
  glove : Bool
  deriving DecidableEq, Repr, Inhabited

/-- Are two nodes of a grid with rx columns neighbours, also over a corner? -/
def adjacent (rx a b : Nat) : Bool :=
  let near (m n : Nat) : Bool := decide (m ≤ n + 1) && decide (n ≤ m + 1)
  near (a / rx) (b / rx) && near (a % rx) (b % rx)

/-- The 8-connected sets of a list of nodes. -/
def components (rx : Nat) (ns : List Nat) : List (List Nat) :=
  ns.foldl (fun cs n =>
    let touch := cs.filter (fun c => c.any (adjacent rx n))
    let rest := cs.filter (fun c => !c.any (adjacent rx n))
    rest ++ [touch.flatten ++ [n]]) []

/-- The node of a list with the greatest value, the first of equals. -/
def peakNode (v : Nat → Int) : List Nat → Nat
  | [] => 0
  | n :: ns => ns.foldl (fun m k => if v k > v m then k else m) n

/-- A blob of nodes: its centroid weighs the 3 × 3 nodes around its peak, negative values as 0. -/
def blobOf (tx rx : Nat) (v : Nat → Int) (nodes : List Nat) : Blob :=
  let p := peakNode v nodes
  let around := (List.range (tx * rx)).filter (fun k => adjacent rx p k)
  let w (k : Nat) : Nat := (v k).toNat
  { nodes := nodes, peakAt := p, peak := v p, glove := false
    un := (around.map (fun k => w k * (k % rx))).sum
    vn := (around.map (fun k => w k * (k / rx))).sum
    den := max 1 (around.map w).sum }

/-- The squared distance of two centroids, as a quotient. -/
def distSq (un vn den un' vn' den' : Nat) : Nat × Nat :=
  let dx : Int := Int.ofNat (un * den') - Int.ofNat (un' * den)
  let dy : Int := Int.ofNat (vn * den') - Int.ofNat (vn' * den)
  ((dx * dx + dy * dy).toNat, (den * den') * (den * den'))

/-- Is a quotient at most (track / 4)²? -/
def inTrack (q : Nat × Nat) (track : Nat) : Bool := decide (16 * q.1 ≤ track * track * q.2)

/-- The blobs of a frame in a mode, in the order of their peaks, strongest first, with the glove candidates of the frame
(R303). `v` is the value of a node, × 256; nodes that take no part have a value below zero. -/
def findBlobs (ws : List Word) (tx rx : Nat) (v : Nat → Int) (gloves : List GloveCand) : List Blob × List GloveCand :=
  let at0 (thr : Nat) : List Nat := (List.range (tx * rx)).filter (fun k => decide (Int.ofNat (256 * thr) ≤ v k))
  let main := (components rx (at0 (if pnMode ws = 1 then pnGloveThr ws else pnThr ws))).map (blobOf tx rx v)
  if pnMode ws ≠ 2 then (main, [])
  else
    let weak := ((components rx (at0 (pnGloveThr ws))).map (blobOf tx rx v)).filter (fun b =>
      decide (b.peak < Int.ofNat (256 * pnThr ws)) && decide (3 ≤ b.nodes.length))
    let again := weak.filter (fun b => gloves.any (fun g => inTrack (distSq b.un b.vn b.den g.un g.vn g.den) (pnTrack ws)))
    (main ++ again.map (fun b => { b with glove := true }), weak.map (fun b => { un := b.un, vn := b.vn, den := b.den }))

/-- Blobs by falling peak; equal ones keep their order. -/
def insertBlob (b : Blob) : List Blob → List Blob
  | [] => [b]
  | c :: cs => if b.peak > c.peak then b :: c :: cs else c :: insertBlob b cs

def sortBlobs (bs : List Blob) : List Blob := bs.foldl (fun l b => insertBlob b l) []

/-! ### Matching (R304) -/

/-- A pair of a contact and a blob with their squared distance. -/
structure Match where
  contact : Nat
  blob : Nat
  num : Nat
  den : Nat
  deriving DecidableEq, Repr, Inhabited

/-- The nearest of the pairs, the first of equals. -/
def nearest : List Match → Option Match
  | [] => none
  | m :: ms => some (ms.foldl (fun a b => if b.num * a.den < a.num * b.den then b else a) m)

/-- Pairs are taken in order of increasing distance. -/
def matchUp : Nat → List Match → List Match
  | 0, _ => []
  | n + 1, ms =>
    match nearest ms with
    | none => []
    | some m => m :: matchUp n (ms.filter (fun o => o.contact != m.contact && o.blob != m.blob))

/-- The blobs that continue contacts: contact ID and place of the blob. -/
def matchBlobs (track : Nat) (cs : List Contact) (bs : List Blob) : List Match :=
  matchUp 10 (cs.flatMap (fun c => (List.range bs.length).filterMap (fun i =>
    let b := bs.getD i default
    let q := distSq c.un c.vn c.den b.un b.vn b.den
    if inTrack q track then some { contact := c.id, blob := i, num := q.1, den := q.2 } else none)))

end Sys2Proof.Machine
end

