-- ==== Sys2Proof/Machine/Touch.lean ====
section
/-! DEFINITION. The touch engine (R293 to R312): scans, frames, baselines, contacts, keys, the A-PHY tunnel, descriptors,
self-tests. -/

namespace Sys2Proof.Machine

/-! ### State -/

/-- A panel. -/
def panel (d : Dev) (t : Nat) : PanelRun := SMap.get d.touch.panels t

def onPanel (d : Dev) (t : Nat) (g : PanelRun → PanelRun) : Dev :=
  { d with touch := { d.touch with panels := SMap.mod d.touch.panels t g } }

/-- 0 OFF, 1 START, 2 RUN, 3 TEST. -/
def panelState (d : Dev) (t : Nat) : Nat := fg d (TC_PSTAT t) TC_PSTAT_STATE

def setPanelState (d : Dev) (t v : Nat) : Dev := fs d (TC_PSTAT t) TC_PSTAT_STATE v

/-- The counts that TC_PSTAT shows. -/
def showPanel (d : Dev) (t : Nat) : Dev :=
  let x := panel d t
  fs (fs d (TC_PSTAT t) TC_PSTAT_CONTACTS ((x.contacts.filter (fun c => c.told)).length)) (TC_PSTAT t) TC_PSTAT_SUSPECT
    ((x.nodes.filter (fun n => n.susp)).length)

/-- Is a key pressed? -/
def keyDown (d : Dev) (k : Nat) : Bool :=
  if k < 32 then hasBit (rd d TC_KEY_STAT_LO).toNat k else hasBit (rd d TC_KEY_STAT_HI).toNat (k - 32)

def setKeyDown (d : Dev) (k : Nat) (v : Bool) : Dev :=
  if k < 32 then fs d TC_KEY_STAT_LO (k, k) v.toNat else fs d TC_KEY_STAT_HI (k - 32, k - 32) v.toNat

def keyRun (d : Dev) (k : Nat) : KeyRun := SMap.get d.touch.keys k

def onKey (d : Dev) (k : Nat) (g : KeyRun → KeyRun) : Dev :=
  { d with touch := { d.touch with keys := SMap.mod d.touch.keys k g } }

/-! ### Events (R311) -/

/-- A touch event with a DT of its own goes to an owner: a function, the safety island, or another on-chip master. -/
def touchEvent (d : Dev) (owner code t pay : Nat) : Dev :=
  if owner < 32 then
    if bankerLike d ∧ owner ≠ 0 then d
    else if fnState d owner = 1 ∨ fnState d owner = 3 then
      postList 33 d owner [{ cls := clTOUCH, code := code, mid := midTOUCH, dt := t, pay := pay }]
    else d
  else if owner = midSI then emit d (.island 0x28 pay)
  else emit d (.panel 20 owner pay)

/-- A diagnostic event of a panel goes to its controller; n stands in bytes 4 to 7. -/
def touchDiag (d : Dev) (t code cause n at0 : Nat) : Dev :=
  match panelHolder d t with
  | some f => touchEvent d f code at0 (pb 0 t + pb 1 cause + pw32 4 n)
  | none => d

/-- An unsigned field of w bits; a number that it cannot hold is reported as the part does. -/
def ufield (v : Int) (w : Nat) : Nat :=
  if 0 ≤ v ∧ v < Int.ofNat (2 ^ w) then v.toNat else Config.outOfRange v w % 2 ^ w

/-- A two's complement field of w bits. -/
def sfield (v : Int) (w : Nat) : Nat :=
  if -Int.ofNat (2 ^ (w - 1)) ≤ v ∧ v < Int.ofNat (2 ^ (w - 1)) then enc2 v w else Config.outOfRange v w % 2 ^ w

/-- The payload of CONTACT and LONG_CONTACT. LX and LY without a layer are as the part gives them. -/
def contactPay (d : Dev) (t : Nat) (ws : List Word) (c : Contact) (state : Nat) (forced : Bool) : Nat :=
  let pos := nodePos ws c.un c.vn c.den
  let flags := c.pick.flags + c.glove.toNat * 8 + c.hover.toNat * 16 + forced.toNat * 32
  let strength := if c.hover then Config.outOfRange c.peak 8 % 256 else sat (c.peak / 4096).toNat 255
  let lx := if c.pick.layer.isSome then sfield (pos.1 - 8 * c.pick.ox) 16 else Config.outOfRange pos.1 16 % 65536
  let ly := if c.pick.layer.isSome then sfield (pos.2 - 8 * c.pick.oy) 16 else Config.outOfRange pos.2 16 % 65536
  pw32 0 (t * 2 ^ 29 + c.id * 2 ^ 25 + state * 2 ^ 22 + (c.pick.layer.getD 0) * 2 ^ 16 + flags * 2 ^ 8 + strength) +
  pw32 4 (ufield pos.2 16 * 65536 + ufield pos.1 16) + pw32 8 (ly * 65536 + lx) +
  pw32 12 (sat c.nodes.length 255 * 2 ^ 24 + (rd d (TC_PFRAME t)).toNat % 2 ^ 24)

/-- A contact is reported in a state, if it still is. -/
def reportContact (d : Dev) (t : Nat) (ws : List Word) (c : Contact) (code state at0 : Nat) (forced : Bool) : Dev :=
  if c.told then touchEvent d c.pick.owner code at0 (contactPay d t ws c state forced) else d

/-- Contacts that a test picks report CANCEL and stay tracked, unreported, until they lift (R307). -/
def cancelContacts (d : Dev) (t : Nat) (ws : List Word) (at0 : Nat) (pick : Contact → Bool) : Dev :=
  let cs := (panel d t).contacts.filter (fun c => c.told && pick c)
  let d1 := cs.foldl (fun d c => reportContact d t ws c 1 3 at0 false) d
  showPanel (onPanel d1 t (fun x => { x with contacts := x.contacts.map (fun c =>
    if c.told && pick c then { c with told := false, state := 3 } else c) })) t

/-! ### Failed frames (R296) -/

/-- A frame of a panel fails: counted, reported, and after MISS_MAX in a row every contact cancels. -/
def failFrame (d : Dev) (t cause : Nat) (ws : List Word) : Dev :=
  let fr := takeFree (bump d TC_STATUS TC_STATUS_AFE_ERRS)
  let d1 := touchDiag fr.2 t 6 cause fr.1 d.dt
  let d2 := onPanel d1 t (fun x => { x with fails := x.fails + 1 })
  if (panel d2 t).fails ≥ pnMissMax ws then cancelContacts d2 t ws d.dt (fun _ => true) else d2

/-- A SCAN point fires for a panel at DT t0 (R296). -/
def scanFire (d : Dev) (t : Nat) : Dev :=
  let ws := panelWords d t
  if !pnEn ws ∨ !domUp d 14 ∨ pnSource ws = 3 then d
  else if panelState d t = 3 then bump d TC_STATUS TC_STATUS_OVERRUNS
  else if (panel d t).scanning then failFrame (bump d TC_STATUS TC_STATUS_OVERRUNS) t 4 (panel d t).words
  else
    let d := if pnSource ws = 2 then emit d (.spi (pnPort ws) (pnSpiBytes ws 5 4 10)) else d
    onPanel d t (fun x => { x with scanning := true, words := ws, t0 := d.dt, ready := decide (pnSource ws ≤ 1),
                                   sample := d.dt + pnTx ws * pnCycles ws * 1000000 / (2 * max 1 (pnTxKhz ws)), void := false })

/-- When the frame of an on-chip AFE ends. -/
def afeEnd (x : PanelRun) : Nat :=
  let ws := x.words
  x.t0 + (pnTx ws + (if pnHover ws then 2 else 0)) * pnCycles ws * 1000000 / max 1 (pnTxKhz ws)

/-- The wait of an SPI panel is over at the sample time: its READ bytes go out, and the values follow. -/
def spiRead (d : Dev) (t : Nat) : Dev :=
  let ws := (panel d t).words
  onPanel (emit d (.spi (pnPort ws) (pnSpiBytes ws 3 2 11))) t (fun y => { y with ready := true, sample := d.dt })

/-- SPI_DRDY: the edge sets the sample time. -/
def doSpiDrdy (t : Nat) (d : Dev) : Dev :=
  let x := panel d t
  if x.scanning ∧ !x.ready ∧ pnSource x.words = 2 ∧ pnDrdyGpio x.words ≠ 63 then
    spiRead d t
  else d

/-- SPI_DRDY_TIMEOUT: the wait is over. Without a data-ready pin the read begins; with one the frame fails. -/
def doSpiDrdyTimeout (t : Nat) (d : Dev) : Dev :=
  let x := panel d t
  if x.scanning ∧ !x.ready ∧ pnSource x.words = 2 then
    let d1 := advance (x.t0 + pnDrdyUs x.words * 1000) d
    if pnDrdyGpio x.words = 63 then spiRead d1 t
    else failFrame (onPanel d1 t (fun y => { y with scanning := false })) t 1 x.words
  else d

/-! ### Baselines (R299 to R301) -/

/-- The delta of node k, × 256. -/
def nodeDelta (ns : List TNode) (raw : List Nat) (k : Nat) : Int := (ns.getD k default).base - 256 * Int.ofNat (raw.getD k 0)

/-- A quotient whose rounding R299 does not state. -/
def roundOpen (num : Int) (den : Nat) : Int :=
  let q := num / Int.ofNat den
  if num % Int.ofNat den ≠ 0 ∧ Config.roundsUp num den then q + 1 else q

/-- The mean of a list of steps. -/
def meanStep (ss : List Int) : Int := roundOpen ss.sum ss.length

/-- What becomes of a node's baseline in a frame: `held` are the nodes under a contact or a pressed key. -/
def adaptNode (ws : List Word) (ns : List TNode) (raw : List Nat) (rx : Nat) (adapting held : Nat → Bool)
    (step : Nat → Int) (k : Nat) : TNode :=
  let n := ns.getD k default
  let dl := nodeDelta ns raw k
  let neg := if dl < -Int.ofNat (256 * pnNegThr ws) then n.neg + 1 else 0
  if neg ≥ 3 then { base := 256 * Int.ofNat (raw.getD k 0), neg := 0, susp := false }
  else
    let b :=
      if adapting k then n.base + step k
      else if held k then
        let line := ((List.range ns.length).filter (fun j => adapting j && decide (j % rx = k % rx))).map step
        let all := ((List.range ns.length).filter adapting).map step
        n.base + (if line.length ≥ 4 then meanStep line else if all.length ≥ 1 then meanStep all else 0)
      else n.base
    { n with base := b, neg := neg }

/-- Every node after a frame, and how many R300 set to raw. -/
def adaptAll (ws : List Word) (ns : List TNode) (raw : List Nat) (rx : Nat) (held : Nat → Bool) : List TNode × Nat :=
  let adapting (k : Nat) : Bool :=
    !held k && decide ((nodeDelta ns raw k).natAbs < 256 * pnNoiseThr ws)
  let step (k : Nat) : Int := roundOpen (-(nodeDelta ns raw k)) (2 ^ pnBlShift ws)
  let reset (k : Nat) : Bool :=
    decide (nodeDelta ns raw k < -Int.ofNat (256 * pnNegThr ws)) && decide ((ns.getD k default).neg + 1 ≥ 3)
  ((List.range ns.length).map (adaptNode ws ns raw (max 1 rx) adapting held step),
   ((List.range ns.length).filter reset).length)

/-- The baselines that a START frame takes (R301): of a store record, when its grid is the panel's and its temperature is near;
after a takeover those of the last MEDIA record (R422). -/
def storedBase (d : Dev) (t : Nat) (ws : List Word) : Option (List Nat) :=
  match d.pair.media.find? (fun m => decide (m.1 = t) && decide (m.2.length = pnTx ws * pnRx ws) && decide (dhState d = 5)) with
  | some m => some m.2
  | none => match currentRec d 3 t with
  | none => none
  | some r =>
    let w0 := wd r.payload 0
    let temp := sext (bits w0 31 24) 8
    let tj := sext (fg d PM_TJ PM_TJ_TJ) 16
    if bits w0 15 8 = pnTx ws ∧ bits w0 23 16 = pnRx ws ∧ (temp * 10 - tj).natAbs ≤ 10 * pnTempC ws then
      some ((List.range (pnTx ws * pnRx ws)).map (fun k => bits (wd r.payload (1 + k / 2)) (16 * (k % 2) + 15) (16 * (k % 2))))
    else none

/-- The nodes of a START frame. -/
def startNodes (d : Dev) (t : Nat) (ws : List Word) (raw : List Nat) : List TNode :=
  match storedBase d t ws with
  | some bs => (List.range (pnTx ws * pnRx ws)).map (fun k =>
      let b := Int.ofNat (bs.getD k 0)
      { base := 256 * b, neg := 0, susp := decide (b - Int.ofNat (raw.getD k 0) > Int.ofNat (pnSuspThr ws)) })
  | none => raw.map (fun v => { base := 256 * Int.ofNat v, neg := 0, susp := false })

/-! ### Keys (R308) -/

/-- The enabled keys of a panel. -/
def panelKeys (d : Dev) (t : Nat) : List Nat :=
  (List.range 64).filter (fun k => kyEn (keyWords d k) && decide (kyPanel (keyWords d k) = t))

/-- Does a key's rectangle hold a node of a grid with rx columns? -/
def keyHas (ws : List Word) (rx k : Nat) : Bool :=
  decide (kyTx0 ws ≤ k / rx) && decide (k / rx ≤ kyTx1 ws) && decide (kyRx0 ws ≤ k % rx) && decide (k % rx ≤ kyRx1 ws)

/-- The delta of a key, × 256. -/
def keyDelta (ws : List Word) (rx : Nat) (ns : List TNode) (raw : List Nat) : Int :=
  (((List.range ns.length).filter (fun k => keyHas ws rx k && !(ns.getD k default).susp)).map (nodeDelta ns raw)).sum

/-- A key with its delta in a frame. -/
structure KeyNow where
  k : Nat
  delta : Int
  thr : Nat
  deriving DecidableEq, Repr, Inhabited

/-- The payload of KEY. -/
def keyPay (d : Dev) (t k : Nat) (pressed fired : Bool) (pk : Picked) (delta : Int) : Nat :=
  pb 0 k + pb 1 (pressed.toNat + fired.toNat * 2 + (pk.flags % 2) * 4) + pb 2 t + pb 3 (pk.layer.getD 0) +
  pw32 4 (enc2 (delta / 256) 32) + pw32 8 (rd d (TC_PFRAME t)).toNat

/-- The position of a key's centre. -/
def keyCentre (pws kws : List Word) : Int × Int :=
  nodePos pws (kyRx0 kws + kyRx1 kws) (kyTx0 kws + kyTx1 kws) 2

/-- A key presses or releases: its haptic effect, and KEY to the owner at its centre. -/
def keyEvent (d : Dev) (t : Nat) (pws : List Word) (kn : KeyNow) (pressed : Bool) (at0 : Nat) : Dev :=
  let kws := keyWords d kn.k
  let pos := keyCentre pws kws
  let f := (panelHolder d t).getD 0
  let h := kyChannel kws
  let trig : HapTrig := { effect := kyEffect kws, gain := 255, urgent := fb d (HP_CFG_W0 h) HP_CFG_W0_KEY_URGENT,
                          src := .key kn.k f, dt := d.dt }
  let fire := pressed && kyHaptic kws && (!kyGuard kws || guardOnGlass d pws pos at0 (kyClass kws))
  let fired := fire && (trigDenied d h trig.effect trig.src).isNone && decide (hapState d h ≠ 4)
  let d1 := setKeyDown (if fire then hapTrigger d h trig else d) kn.k pressed
  let pk := pickAt d pws pos at0
  touchEvent d1 pk.owner 3 at0 (keyPay d t kn.k pressed fired pk kn.delta)

/-- Has key a the greater delta / THR, or as much and the lower number? -/
def keyBeats (a b : KeyNow) : Bool :=
  decide (a.delta * Int.ofNat b.thr > b.delta * Int.ofNat a.thr) ||
  (decide (a.delta * Int.ofNat b.thr = b.delta * Int.ofNat a.thr) && decide (a.k < b.k))

/-- Debounce of one key in a frame. -/
def keyCount (d : Dev) (kn : KeyNow) : Dev :=
  let ws := keyWords d kn.k
  let low := decide (kn.delta < 256 * (Int.ofNat (kyThr ws) - Int.ofNat (kyHyst ws)))
  onKey d kn.k (fun x =>
    { on := if kn.delta ≥ Int.ofNat (256 * kyThr ws) then min 15 (x.on + 1) else 0
      off := if low then min 15 (x.off + 1) else 0
      supp := x.supp && !low })

/-- Is a key a candidate in this frame? -/
def keyCandidate (d : Dev) (k : Nat) : Bool :=
  !keyDown d k && !(keyRun d k).supp && decide ((keyRun d k).on ≥ kyDebOn (keyWords d k))

/-- Is a key of a group pressed? -/
def groupDown (d : Dev) (g : Nat) : Bool :=
  (List.range 64).any (fun k => keyDown d k && kyEn (keyWords d k) && decide (kyGroup (keyWords d k) = g))

/-- The keys of a panel in a frame: releases, then presses; in a group the strongest candidate presses and the others are
suppressed. -/
def doKeys (d : Dev) (t : Nat) (pws : List Word) (ns : List TNode) (raw : List Nat) (at0 : Nat) : Dev :=
  let kns := (panelKeys d t).map (fun k =>
    { k := k, delta := keyDelta (keyWords d k) (max 1 (pnRx pws)) ns raw, thr := kyThr (keyWords d k) : KeyNow })
  let d1 := kns.foldl keyCount d
  let d2 := kns.foldl (fun d kn =>
    if keyDown d kn.k && decide ((keyRun d kn.k).off ≥ kyDebOff (keyWords d kn.k)) then keyEvent d t pws kn false at0 else d) d1
  let cands := kns.filter (fun kn => keyCandidate d2 kn.k)
  let free := cands.filter (fun kn => decide (kyGroup (keyWords d kn.k) = 0) ||
    !groupDown d2 (kyGroup (keyWords d kn.k)))
  let rival (a b : KeyNow) : Bool :=
    decide (a.k ≠ b.k) && decide (kyGroup (keyWords d a.k) ≠ 0) && decide (kyGroup (keyWords d a.k) = kyGroup (keyWords d b.k))
  free.foldl (fun d kn =>
    if free.any (fun o => rival kn o && keyBeats o kn) then onKey d kn.k (fun x => { x with supp := true })
    else keyEvent d t pws kn true at0) d2

/-! ### Contacts (R302 to R307) -/

/-- The contact that goes on with a blob. -/
def moveContact (c : Contact) (b : Blob) : Contact :=
  { c with un := b.un, vn := b.vn, den := b.den, peak := b.peak, nodes := b.nodes, glove := b.glove,
           state := if c.told then 1 else c.state }

/-- The lowest contact ID that no contact has. -/
def freeId (cs : List Contact) : Nat := ((List.range 10).find? (fun i => cs.all (fun c => c.id != i))).getD 10

/-- Contacts by ID. -/
def insertContact (c : Contact) : List Contact → List Contact
  | [] => [c]
  | x :: xs => if c.id < x.id then c :: x :: xs else x :: insertContact c xs

/-- New contacts for the blobs that continue none, each picked where it goes down. -/
def downContacts (d : Dev) (ws : List Word) (at0 : Nat) (bs : List Blob) (cs : List Contact) : List Contact × List Contact :=
  bs.foldl (fun (acc : List Contact × List Contact) b =>
    let c : Contact :=
      { id := freeId acc.1, un := b.un, vn := b.vn, den := b.den, peak := b.peak, nodes := b.nodes, glove := b.glove,
        hover := false, pick := pickAt d ws (nodePos ws b.un b.vn b.den) at0, told := true, state := 0, down := at0, longs := 0 }
    if c.id < 10 then (insertContact c acc.1, acc.2 ++ [c]) else acc) (cs, [])

/-- Does a contact's blob or a pressed key hold a node? -/
def nodeHeld (d : Dev) (t rx : Nat) (cs : List Contact) (k : Nat) : Bool :=
  cs.any (fun c => c.nodes.contains k) ||
  (panelKeys d t).any (fun j => keyDown d j && keyHas (keyWords d j) (max 1 rx) k)

/-- The hover contact of a frame: the self-capacitance peaks on both axes (R304). -/
def hoverNow (ws : List Word) (selfTx selfRx : List Int) : Option (Nat × Nat × Int) :=
  let p (l : List Int) : Nat := peakNode (fun k => l.getD k 0) (List.range l.length)
  let tx := p selfTx
  let rx := p selfRx
  if pnHover ws ∧ pnSource ws ≤ 1 ∧ selfTx.getD tx (-1) ≥ Int.ofNat (pnHoverThr ws) ∧
     selfRx.getD rx (-1) ≥ Int.ofNat (pnHoverThr ws) then some (tx, rx, selfTx.getD tx 0)
  else none

/-- The hover contact moves, goes down or ends. Answers the contact for MOVE or DOWN. -/
def hoverContact (d : Dev) (ws : List Word) (at0 : Nat) (old : Option Contact) (hv : Option (Nat × Nat × Int)) : Option Contact :=
  match hv with
  | none => none
  | some h =>
    match old with
    | some c => some { c with un := h.2.1, vn := h.1, den := 1, peak := h.2.2, state := if c.told then 1 else c.state }
    | none => some { id := 10, un := h.2.1, vn := h.1, den := 1, peak := h.2.2, nodes := [], glove := false, hover := true,
                     pick := pickAt d ws (nodePos ws h.2.1 h.1 1) at0, told := true, state := 0, down := at0, longs := 0 }

/-- Contacts of a frame (R304): UP for those without a blob, MOVE, then DOWN, each by rising ID. -/
def doContacts (d : Dev) (t : Nat) (ws : List Word) (at0 : Nat) (blobs : List Blob) (hv : Option (Nat × Nat × Int)) : Dev :=
  let all := (panel d t).contacts
  let cs := all.filter (fun c => !c.hover)
  let old := all.find? (fun c => c.hover)
  let ms := matchBlobs (pnTrack ws) cs blobs
  let ups := cs.filter (fun c => ms.all (fun m => m.contact != c.id))
  let moved := cs.filterMap (fun c => (ms.find? (fun m => m.contact == c.id)).map (fun m =>
    moveContact c (blobs.getD m.blob default)))
  let fresh := ((List.range blobs.length).filter (fun i => ms.all (fun m => m.blob != i))).map (fun i => blobs.getD i default)
  let dn := downContacts d ws at0 fresh moved
  let hov := if dn.1 = [] then hoverContact d ws at0 old hv else none
  let gone := ups ++ (if hov.isNone then old.toList else [])
  let d1 := gone.foldl (fun d c => reportContact d t ws c 1 2 at0 false) d
  let moves := moved ++ (hov.filter (fun _ => old.isSome)).toList
  let d2 := moves.foldl (fun d c => reportContact d t ws c 1 1 at0 false) d1
  let downs := dn.2.foldl (fun l c => insertContact c l) [] ++ (hov.filter (fun _ => old.isNone)).toList
  let d3 := downs.foldl (fun d c => reportContact (count d (455 + 2 * t)) t ws c 1 0 at0 false) d2
  onPanel d3 t (fun x => { x with contacts := dn.1 ++ hov.toList })

/-! ### Frames -/

/-- The values of a frame as the engine uses them: their number is the grid's. -/
def rawOf (ws : List Word) (vals : List Nat) : List Nat :=
  (List.range (pnTx ws * pnRx ws)).map (fun k =>
    let v := vals.getD k 0 % 65536
    if pnSource ws = 2 ∧ pnInvert ws then 65535 - v else v)

/-- Is the CRC of an SPI frame right? It follows the values, low half first. -/
def spiCrcOk (ws : List Word) (vals : List Nat) : Bool :=
  let n := pnTx ws * pnRx ws
  let bytes := ((List.range n).map (fun k => vals.getD k 0)).flatMap (fun v => leBytes 2 v)
  !(decide (pnSource ws = 2) && pnCrc ws) ||
  decide (crc32c bytes = vals.getD n 0 % 65536 + vals.getD (n + 1) 0 % 65536 * 65536)

/-- The integer of a number × 256 as a dump shows it. -/
def wholeOf (v : Int) : Int := roundOpen v 256

/-- The 8 bytes of a node in a dump (R309). -/
def dumpNode (ns : List TNode) (raw : List Nat) (touched key : Nat → Bool) (k : Nat) : List Byte :=
  leBytes 2 (raw.getD k 0) ++ leBytes 2 (ufield (wholeOf (ns.getD k default).base) 16) ++
  leBytes 2 (sfield (wholeOf (nodeDelta ns raw k)) 16) ++
  leBytes 2 ((touched k).toNat + (ns.getD k default).susp.toNat * 2 + (key k).toNat * 4)

/-- The dumps that wait for this frame are written. -/
def doDumps (d : Dev) (t : Nat) (ws : List Word) (ns : List TNode) (raw : List Nat) : Dev :=
  let x := panel d t
  let touched (k : Nat) : Bool := x.contacts.any (fun c => c.nodes.contains k)
  let key (k : Nat) : Bool := (panelKeys d t).any (fun j => keyHas (keyWords d j) (max 1 (pnRx ws)) k)
  let bytes := (List.range (pnTx ws * pnRx ws)).flatMap (dumpNode ns raw touched key)
  x.dumps.foldl (fun d q =>
    let w := memWritePages (pagesFuel bytes.length) d q.f midTOUCH q.iova bytes
    complete w.1 q.f q.r q.idx (if w.2 then stOK else stERR_FAULT)) (onPanel d t (fun y => { y with dumps := [] }))

/-- A frame in RUN, over the nodes as they stand: contacts, keys, adaptation. -/
def runFrame (d : Dev) (t : Nat) (ws : List Word) (raw : List Nat) (selfTx selfRx : List Int) : Dev :=
  let x := panel d t
  let ns := x.nodes
  let rx := max 1 (pnRx ws)
  let off (k : Nat) : Bool := (ns.getD k default).susp || (panelKeys d t).any (fun j => keyHas (keyWords d j) rx k)
  let v (k : Nat) : Int := if off k then -1 else nodeDelta ns raw k
  let fb0 := findBlobs ws (pnTx ws) rx v x.gloves
  let blobs := sortBlobs fb0.1
  let d1 := bump (onPanel d t (fun y => { y with gloves := fb0.2 })) TC_STATUS TC_STATUS_DROPPED (blobs.length - 10)
  let d2 := doContacts d1 t ws x.sample (blobs.take 10) (hoverNow ws selfTx selfRx)
  let d3 := doKeys d2 t ws ns raw x.sample
  let ad := adaptAll ws ns raw rx (nodeHeld d3 t rx (panel d3 t).contacts)
  let d4 := doDumps d3 t ws ns raw
  let d5 := onPanel d4 t (fun y => { y with nodes := ad.1 })
  if ad.2 > 0 then touchDiag d5 t 5 0 ad.2 d5.dt else d5

/-- A START frame (R301): the baseline is set, contacts that were there lift. -/
def startFrame (d : Dev) (t : Nat) (ws : List Word) (raw : List Nat) : Dev :=
  let ns := startNodes d t ws raw
  let n := (ns.filter (fun x => x.susp)).length
  let at0 := (panel d t).sample
  let d1 := doContacts d t ws at0 [] none
  let d2 := doDumps d1 t ws ns raw
  let d2 := { d2 with pair := { d2.pair with media := d2.pair.media.filter (fun m => m.1 != t) } }
  let d3 := setPanelState (onPanel d2 t (fun y =>
    { y with nodes := ns, tx := pnTx ws, rx := pnRx ws, start := false, rebase := false, gloves := [] })) t 2
  if n > 0 then touchDiag d3 t 4 0 n d3.dt else d3

/-- A whole frame of a panel arrives: its values are checked and used under the record that it was begun under. -/
def takeFrame (d : Dev) (t : Nat) (vals : List Nat) (selfTx selfRx : List Int) : Dev :=
  let x := panel d t
  let ws := x.words
  let d0 := onPanel d t (fun y => { y with scanning := false, ready := false, tunRaw := [] })
  if !spiCrcOk ws vals then failFrame d0 t 2 ws
  else
    let raw := rawOf ws vals
    let d1 := wr (onPanel (count d0 (454 + 2 * t)) t (fun y => { y with fails := 0, lastValid := x.sample, lastRaw := raw })) (TC_PFRAME t)
      (rd d0 (TC_PFRAME t) + 1)
    if x.void ∨ panelState d1 t = 0 then d1
    else if x.start then showPanel (startFrame d1 t ws raw) t
    else
      let base : List TNode := raw.map (fun v => { base := 256 * Int.ofNat v, neg := 0, susp := false })
      let d2 := if x.rebase then onPanel d1 t (fun y => { y with nodes := base, rebase := false }) else d1
      showPanel (runFrame d2 t ws raw selfTx selfRx) t

/-- TOUCH_FRAME_PROCESS: the values come with the command, but for a tunnel panel, whose message brought them. -/
def doTouchFrameProcess (t : Nat) (raw : List Nat) (selfTx selfRx : List Int) (d : Dev) : Dev :=
  let x := panel d t
  if !x.scanning ∨ !x.ready ∨ panelState d t = 3 then d
  else
    let d1 := if pnSource x.words ≤ 1 then advance (afeEnd x) d else d
    takeFrame d1 t (if pnSource x.words = 3 then x.tunRaw else raw) selfTx selfRx

/-! ### Long contacts (R302) -/

/-- LONG_CONTACT: every LONG_TOUCH_S seconds after DOWN. -/
def doLongContact (t id : Nat) (d : Dev) : Dev :=
  let ws := panelWords d t
  match (panel d t).contacts.find? (fun c => c.id == id && c.told) with
  | none => d
  | some c =>
    if pnLongS ws = 0 then d
    else
      let at0 := c.down + (c.longs + 1) * pnLongS ws * 1000000000
      let d1 := reportContact (advance at0 d) t ws c 2 c.state at0 false
      onPanel d1 t (fun x => { x with contacts := x.contacts.map (fun e =>
        if e.id = id then { e with longs := e.longs + 1 } else e) })

/-- FORCED_RELEASE: after MAX_TOUCH_S seconds the contact reports UP with FORCED, and its nodes are set to raw. -/
def doForcedRelease (t id : Nat) (d : Dev) : Dev :=
  let ws := panelWords d t
  match (panel d t).contacts.find? (fun c => c.id == id && c.told) with
  | none => d
  | some c =>
    if pnMaxS ws = 0 then d
    else
      let at0 := c.down + pnMaxS ws * 1000000000
      let d1 := reportContact (advance at0 d) t ws c 1 2 at0 true
      showPanel (onPanel d1 t (fun x => { x with
        contacts := x.contacts.filter (fun e => e.id != id)
        nodes := (List.range x.nodes.length).map (fun k =>
          let n := x.nodes.getD k default
          if c.nodes.contains k then { n with base := 256 * Int.ofNat (x.lastRaw.getD k 0) } else n) })) t

/-! ### The A-PHY tunnel (R297, R298) -/

/-- The enabled panel on an A-PHY port. -/
def tunnelPanel (d : Dev) (q : Nat) : Option Nat :=
  (List.range 8).find? (fun t => pnEn (panelWords d t) && decide (pnSource (panelWords d t) = 3) &&
    decide (pnPort (panelWords d t) = q))

def onTun (d : Dev) (q : Nat) (g : TunRun → TunRun) : Dev :=
  { d with touch := { d.touch with tun := SMap.mod d.touch.tun q g } }

/-- The message in assembly is discarded, which counts as a failed frame. -/
def tunDiscard (d : Dev) (q cause : Nat) : Dev :=
  let d1 := onTun d q (fun _ => default)
  match tunnelPanel d q with
  | some t => failFrame d1 t cause (panelWords d t)
  | none => bump d1 TC_STATUS TC_STATUS_AFE_ERRS

/-- New content of the backlight or health register of a port. -/
def tunNews (d : Dev) (q reg v : Nat) : Dev :=
  if (rd d reg).toNat = v then d
  else
    let t := (tunnelPanel d q).getD 0
    touchEvent (wr d reg (BitVec.ofNat 32 v)) 0 7 d.dt (pb 0 t + pb 1 q + pw32 4 v)

/-- A whole message is checked and used; values that a frame's LENGTH leaves out are free. -/
def tunMessage (d0 : Dev) (q : Nat) (bs : List Byte) (t0 : Nat) : Dev :=
  let d := onTun d0 q (fun _ => default)
  let fld (o n : Nat) : Nat := leNat ((bs.drop o).take n)
  let len := fld 2 2
  let type := fld 0 1
  let ws := ((tunnelPanel d q).map (panelWords d)).getD []
  if bs.length < 20 ∨ len > 8212 ∨ len ≠ bs.length ∨ type = 0 ∨ type > 3 ∨ fld 1 1 ≠ 1 ∨ fld 10 1 ≠ 0 ∨
     (type = 1 ∧ (fld 8 1 ≠ pnTx ws ∨ fld 9 1 ≠ pnRx ws)) then tunDiscard d q 3
  else if crc32c (bs.take (len - 4)) ≠ fld (len - 4) 4 then tunDiscard d q 2
  else if type = 2 then tunNews d q (TC_AP_BKL q) (fld 16 4)
  else if type = 3 then tunNews d q (TC_AP_HEALTH q) (fld 16 4)
  else
    match tunnelPanel d q with
    | none => d
    | some t =>
      if panelState d t = 3 then bump d TC_STATUS TC_STATUS_OVERRUNS
      else
        onPanel { d with freeCtr := d.freeCtr + 4096 } t (fun x => { x with
          scanning := true, ready := true, words := ws, t0 := t0, void := false
          sample := t0 - (fld 4 2 + pnLatency ws) * 1000
          tunRaw := (List.range (pnTx ws * pnRx ws)).map (fun k =>
            if 18 + 2 * k ≤ len - 4 then fld (16 + 2 * k) 2 else Config.freeNat (d.freeCtr + k) % 65536) })

/-- TUNNEL_SEGMENT. POS: 0 middle, 1 first, 2 last, 3 only. A first segment amid a message discards that one and begins its own. -/
def doTunnelSegment (q : Nat) (seg : List Byte) (d0 : Dev) : Dev :=
  let b (k : Nat) : Nat := (seg.getD k 0).toNat
  let pos := b 1 / 64
  let first := pos % 2 == 1
  let data := (seg.drop 4).take (b 3)
  let d := if domUp d0 14 ∧ b 0 = 0xA7 ∧ first ∧ (SMap.get d0.touch.tun q).busy then tunDiscard d0 q 3 else d0
  let x := SMap.get d.touch.tun q
  if !domUp d 14 then d
  else if b 0 ≠ 0xA7 ∨ first = x.busy ∨ (x.busy ∧ b 2 ≠ x.seq) ∨ b 3 = 0 ∨ b 3 > 60 ∨ data.length ≠ b 3 then tunDiscard d q 3
  else
    let bs := x.bytes ++ data
    let t0 := if first then d.dt else x.t0
    if pos ≥ 2 then tunMessage d q bs t0
    else if bs.length > 8212 then tunDiscard d q 3
    else onTun d q (fun _ => { busy := true, seq := b 2, bytes := bs, t0 := t0 })

/-- TUNNEL_FRAME_TIMEOUT: MISS_MAX × 10 ms without a valid frame. -/
def doTunnelFrameTimeout (t : Nat) (d : Dev) : Dev :=
  let ws := panelWords d t
  if pnEn ws ∧ pnSource ws = 3 then
    let at0 := (panel d t).lastValid + pnMissMax ws * 10000000
    let d1 := advance at0 d
    cancelContacts d1 t ws d1.dt (fun _ => true)
  else d

/-! ### Landings, departures and resets (R294, R307, R312) -/

/-- Contacts that leave without a record stay tracked, unreported. -/
def hushContacts (d : Dev) (t : Nat) (pick : Contact → Bool) : Dev :=
  showPanel (onPanel d t (fun x => { x with contacts := x.contacts.map (fun c =>
    if pick c then { c with told := false } else c) })) t

/-- A panel stops: its contacts report CANCEL and go, its keys stop. -/
def stopPanel (d : Dev) (t : Nat) (ws : List Word) : Dev :=
  let d1 := cancelContacts d t ws d.dt (fun _ => true)
  let d2 := (panelKeys d1 t).foldl (fun d k => onKey (setKeyDown d k false) k (fun _ => default)) d1
  showPanel (onPanel d2 t (fun x => { x with contacts := [], gloves := [] })) t

/-- A landing writes a panel record (R294). -/
def touchLand (d : Dev) (t : Nat) (ps : List (Nat × Word)) : Dev :=
  let old := panelWords d t
  let d0 := ps.foldl (fun d p => wr d (TC_PANEL t p.1) p.2) d
  let new := panelWords d0 t
  let changed := decide (pnSource old ≠ pnSource new) || decide (pnPort old ≠ pnPort new) ||
    decide (pnTx old ≠ pnTx new) || decide (pnRx old ≠ pnRx new)
  let x := panel d t
  if !pnEn new then
    let d1 := if pnEn old then stopPanel d0 t old else d0
    let d2 := onPanel d1 t (fun y => { y with void := true, kept := y.kept && !pnEn old && !changed, lastValid := y.lastValid })
    if panelState d2 t = 3 then d2 else setPanelState d2 t 0
  else if pnEn old ∧ !changed then d0
  else
    let d1 := if pnEn old then stopPanel d0 t old else d0
    let again := x.kept && !pnEn old && decide (x.tx = pnTx new) && decide (x.rx = pnRx new)
    let d2 := onPanel d1 t (fun y => { y with void := true, start := !again, rebase := false, kept := false, fails := 0,
                                              lastValid := d.dt, nodes := if again then y.nodes else [] })
    if panelState d2 t = 3 then d2 else setPanelState d2 t (if again then 2 else 1)

/-- A landing writes a key record: a key that changes starts anew. -/
def touchKeyLand (d : Dev) (k : Nat) (ws : List Word) : Dev := onKey (setKeyDown (wrs d (TC_KEY k 0) ws) k false) k (fun _ => default)

/-- Panel Tt leaves its controller (R312): EN clears, its keys stop, contacts report CANCEL, the baseline is kept. -/
def touchRemove (d : Dev) (t : Nat) : Dev :=
  let ws := panelWords d t
  if !pnEn ws then d
  else
    let d1 := fs (stopPanel d t ws) (TC_PANEL t 0) (31, 31) 0
    setPanelState (onPanel d1 t (fun x => { x with void := true, kept := decide (x.nodes ≠ []) && !x.start })) t 0

/-- Contacts whose captured layer has left its platform, or its owner (R307), report CANCEL. -/
def touchSweep (d : Dev) : Dev :=
  (List.range 8).foldl (fun d t =>
    let ws := panelWords d t
    let gone (c : Contact) : Bool :=
      match c.pick.layer with
      | none => false
      | some k => !((layerOn d (pnPlat ws) k).any (fun l => decide (l.st = 1) && decide (l.owner = c.pick.owner)))
    if (panel d t).contacts.any (fun c => c.told && gone c) then cancelContacts d t ws d.dt gone else d) d

/-- Departure of Fn (R312): its contacts end without records, and the pick policies of its layers return to reset. -/
def touchDepart (d : Dev) (f : Nat) : Dev :=
  let d1 := (List.range 8).foldl (fun d t => hushContacts d t (fun c => decide (c.pick.owner = f))) d
  let d2 := ((List.range 64).filter (fun k => ptLayer d f k)).foldl (fun d k => wr d (TC_PICK k) (regReset (TC_PICK k))) d1
  (List.range 8).foldl (fun d t => onPanel d t (fun x =>
    { x with dumps := x.dumps.filter (fun q => q.f != f), tests := x.tests.map (fun q => if q.f = f then { q with f := 32 } else q) })) d2

/-- A section reset (MEDIA): contacts and keys drop, descriptors end with ERR_DOWN, every enabled panel begins anew. -/
def touchSection (d : Dev) : Dev :=
  let d1 := (List.range 8).foldl (fun d t =>
    let x := panel d t
    let d1 := onPanel d t (fun _ => { (default : PanelRun) with start := true, lastValid := d.dt })
    let d2 := (x.dumps.map (fun q => (q.f, q.r, q.idx)) ++ x.tests.map (fun q => (q.f, q.r, q.idx))).foldl (fun d q =>
      complete d q.1 q.2.1 q.2.2 stERR_DOWN) d1
    showPanel (setPanelState d2 t (if pnEn (panelWords d t) then 1 else 0)) t) d
  { d1 with touch := { d1.touch with keys := [], tun := [] } }

/-- The states of the panels after a section reset: START where enabled. -/
def showPanels (d : Dev) : Dev := (List.range 8).foldl (fun d t => setPanelState d t (if pnEn (panelWords d t) then 1 else 0)) d

/-! ### TOUCH_CFG (R294, R309) -/

def tcSel (q : Desc) : Nat := bits (at4 q.words 0x10) 31 30
def tcIndex (q : Desc) : Nat := bits (at4 q.words 0x10) 29 24
def tcFirst (q : Desc) : Nat := bits (at4 q.words 0x10) 23 20
def tcCount (q : Desc) : Nat := bits (at4 q.words 0x10) 19 16

/-- The words that a TOUCH_CFG writes, by index. -/
def tcWrites (q : Desc) : List (Nat × Word) :=
  (List.range (tcCount q)).map (fun j => (tcFirst q + j, at4 q.words (0x20 + 4 * j)))

/-- Words with some of them replaced. -/
def patchWords (ws : List Word) (ps : List (Nat × Word)) : List Word :=
  (List.range ws.length).map (fun j => ((ps.find? (fun p => p.1 == j)).map (fun p => p.2)).getD (wd ws j))

/-- A panel record as it will stand after accepted commits. -/
def futurePanel (d : Dev) (t : Nat) : List Word :=
  (pendingItems d).foldl (fun ws it => match it with
    | .touch u ps => if u = t then patchWords ws ps else ws
    | _ => ws) (panelWords d t)

/-- A key record as it will stand. -/
def futureKey (d : Dev) (k : Nat) : List Word :=
  (pendingItems d).foldl (fun ws it => match it with
    | .touchKeys j ks => if j = k then ks else ws
    | _ => ws) (keyWords d k)

/-- A field of a panel record outside its range (R293, R295). -/
def panelRangeBad (ws : List Word) : Bool :=
  let src := pnSource ws
  let limTx := if src ≤ 1 then 32 else 64
  let limRx := if src ≤ 1 then 48 else 64
  let out (v lo hi : Nat) : Bool := decide (v < lo) || decide (hi < v)
  decide (src ≥ 4) || (decide (src = 2) && decide (pnPort ws ≥ 4)) || (decide (src = 3) && decide (pnPort ws ≥ 8)) ||
  decide (pnMode ws = 3) || out (pnTx ws) 1 limTx || out (pnRx ws) 1 limRx ||
  bits (wd ws 2) 15 0 == 0 || bits (wd ws 2) 31 16 == 0 || out (pnTxKhz ws) 100 500 || out (pnCycles ws) 4 63 ||
  out (pnBlShift ws) 2 12 || out (pnMissMax ws) 1 15 || pnTempC ws == 0 || bits (wd ws 8) 15 0 != 0 ||
  (decide (pnDrdyGpio ws ≥ 32) && decide (pnDrdyGpio ws ≠ 63)) || pnDrdyUs ws == 0 || out (pnSclk ws) 1 50 ||
  bits (wd ws 9) 1 0 != 0 || (decide (src = 3) && bits (wd ws 11) 31 16 != 0)

/-- Do two enabled panel records name one source? -/
def sameSource (a b : List Word) : Bool :=
  pnEn a && pnEn b && pnSource a == pnSource b && (decide (pnSource a ≤ 1) || pnPort a == pnPort b)

/-- The status of a panel record that is to land for panel t, the others as they will stand. -/
def chkPanel (d : Dev) (t : Nat) (ws : List Word) : Option Nat :=
  if panelRangeBad ws ∨ (List.range 8).any (fun u => u != t && sameSource ws (futurePanel d u)) then some stBAD_DESC else none

/-- A field of a key record outside its range (R308). -/
def keyRangeBad (ws : List Word) : Bool :=
  bits (wd ws 0) 7 0 != 0 || bits (wd ws 3) 31 8 != 0 || decide (kyChannel ws ≥ 12) || decide (kyEffect ws ≥ 192) ||
  (kyEn ws && (kyDebOn ws == 0 || kyDebOff ws == 0 || (kyGuard ws && kyClass ws == 0)))

/-- Do two enabled keys share nodes? -/
def keysMeet (a b : List Word) : Bool :=
  let meets (a0 a1 b0 b1 : Nat) : Bool := decide (a0 ≤ b1) && decide (b0 ≤ a1)
  kyEn a && kyEn b && kyPanel a == kyPanel b && meets (kyTx0 a) (kyTx1 a) (kyTx0 b) (kyTx1 b) &&
  meets (kyRx0 a) (kyRx1 a) (kyRx0 b) (kyRx1 b)

/-- The status of a key record that is to land for key k. -/
def chkKey (d : Dev) (k : Nat) (ws : List Word) : Option Nat :=
  if keyRangeBad ws ∨ (List.range 64).any (fun j => j != k && keysMeet ws (futureKey d j)) then some stBAD_DESC
  else if kyHaptic ws && !((panelHolder d (kyPanel ws)).any (fun f => ptHaptic d f (kyChannel ws))) then some stERR_PERM
  else none

/-- The words that a record has, by SEL. -/
def tcLength (sel : Nat) : Nat := if sel = 0 then 12 else if sel = 1 then 4 else 1

/-- May a function write this key record: it controls the panel of the new record, and of the old one if it is enabled? -/
def mayKey (d : Dev) (f : Nat) (old new : List Word) : Bool :=
  ptTouch d f (kyPanel new) && (!kyEn old || ptTouch d f (kyPanel old))

def chkTouchCfg (d : Dev) (f _r : Nat) (q : Desc) : Option (Nat × Nat) :=
  let st (s : Nat) : Option (Nat × Nat) := some (s, 0)
  let sel := tcSel q
  let words := (List.range 8).map (fun j => (0x20 + 4 * j, if j < tcCount q then full else 0))
  if !bodyOk q.words ((0x10, 0xFFFF0000) :: words) ∨ sel = 3 ∨ tcCount q = 0 ∨ tcCount q > 8 ∨
     tcFirst q + tcCount q > tcLength sel ∨ (sel = 0 ∧ tcIndex q ≥ 8) ∨ (sel = 2 ∧ strictOf q.words) then st stBAD_DESC
  else if sel = 0 then
    if !ptTouch d f (tcIndex q) then st stERR_PERM
    else (chkPanel d (tcIndex q) (patchWords (futurePanel d (tcIndex q)) (tcWrites q))).map (fun s => (s, 0))
  else if sel = 1 then
    let new := patchWords (futureKey d (tcIndex q)) (tcWrites q)
    if !mayKey d f (futureKey d (tcIndex q)) new then st stERR_PERM
    else (chkKey d (tcIndex q) new).map (fun s => (s, 0))
  else if !ptLayer d f (tcIndex q) then st stERR_PERM
  else if bits (at4 q.words 0x20) 30 8 ≠ 0 then st stBAD_DESC
  else none

/-- The part and the anchor of a TOUCH_CFG commit: the panel's PLATFORM after it. -/
def touchItem (d : Dev) (q : Desc) : CommitItem × Nat :=
  if tcSel q = 0 then
    (.touch (tcIndex q) (tcWrites q), pnPlat (patchWords (futurePanel d (tcIndex q)) (tcWrites q)))
  else
    let new := patchWords (futureKey d (tcIndex q)) (tcWrites q)
    (.touchKeys (tcIndex q) new, pnPlat (futurePanel d (kyPanel new)))

/-- TOUCH_CFG: a commit, or a pick policy at once. -/
def actTouchCfg (f r : Nat) (q : Desc) (d : Dev) : Dev :=
  if tcSel q = 2 then complete (wr d (TC_PICK (tcIndex q)) (at4 q.words 0x20)) f r q.idx stOK
  else
    let it := touchItem d q
    acceptCommit d f (.desc f r q.idx) it.2 (2 ^ it.2) q.cp (strictOf q.words) false [it.1]

/-- TOUCH_CFG. A pick policy is parked for its point like other descriptors, a commit is not. -/
def doTouchCfg (f r : Nat) (d : Dev) : Dev :=
  let parks := (ringSt d f r).queue.head?.any (fun q => decide (tcSel q = 2))
  startDesc d f r 0x400 [] parks chkTouchCfg actTouchCfg

/-! ### TOUCH_BASELINE (R309) -/

/-- The panel of a TOUCH_BASELINE or TOUCH_TEST. -/
def tbPanel (q : Desc) : Nat := bits (at4 q.words 0x10) 2 0

/-- The checks of a TOUCH_BASELINE: `defd` the body words of the operation. -/
def chkBaseline (defd : List (Nat × Nat)) (d : Dev) (f _r : Nat) (q : Desc) : Option (Nat × Nat) :=
  let dump := defd.length > 1
  let ws := panelWords d (tbPanel q)
  if !bodyOk q.words defd ∨ (dump ∧ at8 q.words 0x18 % 64 ≠ 0) then some (stBAD_DESC, 0)
  else if !ptTouch d f (tbPanel q) then some (stERR_PERM, 0)
  else if dump ∧ (at4 q.words 0x20).toNat < 8 * (pnTx ws * pnRx ws) then some (stNO_RESOURCE, 0)
  else none

/-- RELOAD: the next frame is a START frame. -/
def actBaseReload (f r : Nat) (q : Desc) (d : Dev) : Dev :=
  let t := tbPanel q
  let d1 := onPanel d t (fun x => { x with start := true })
  complete (if panelState d1 t = 2 then setPanelState d1 t 1 else d1) f r q.idx stOK

def doTouchBaselineReload (f r : Nat) (d : Dev) : Dev :=
  startDesc d f r 0x410 [] true (chkBaseline [(0x10, 0xF0000007)]) actBaseReload

/-- REBASE: the next frame becomes the baseline. -/
def actBaseRebase (f r : Nat) (q : Desc) (d : Dev) : Dev :=
  complete (onPanel d (tbPanel q) (fun x => { x with rebase := true })) f r q.idx stOK

def doTouchBaselineRebase (f r : Nat) (d : Dev) : Dev :=
  startDesc d f r 0x411 [] true (chkBaseline [(0x10, 0xF0000007)]) actBaseRebase

/-- The payload of a TOUCH_BASELINE record (R301), as words. A panel without a baseline gives values of its own. -/
def basePayload (d : Dev) (t : Nat) : List Word × Nat :=
  let x := panel d t
  let ws := panelWords d t
  let n := pnTx ws * pnRx ws
  let temp := enc2 (sext (fg d PM_TJ PM_TJ_TJ) 16 / 10) 8
  let v (k : Nat) : Nat := if k < x.nodes.length then ufield (wholeOf (x.nodes.getD k default).base) 16
    else Config.freeNat (d.freeCtr + k) % 65536
  let bytes := leBytes 1 t ++ leBytes 1 (pnTx ws) ++ leBytes 1 (pnRx ws) ++ leBytes 1 temp ++
    (List.range n).flatMap (fun k => leBytes 2 (v k))
  (padWords (wordsOfBytes (bytes ++ [0, 0])) (4 + 2 * n), 4 + 2 * n)

/-- SAVE: the record is written; the descriptor completes after its commit word. -/
def actBaseSave (f r : Nat) (q : Desc) (d : Dev) : Dev :=
  let t := tbPanel q
  if !storeThere d then complete d f r q.idx stERR_DOWN
  else
    let p := basePayload d t
    storeWrite { d with freeCtr := d.freeCtr + 4096 } 3 t p.1 p.2 false (some (f, r, q.idx))

def doTouchBaselineSave (f r : Nat) (d : Dev) : Dev :=
  startDesc d f r 0x412 [] true (chkBaseline [(0x10, 0xF0000007)]) actBaseSave

/-- DUMP waits for the next frame. -/
def actBaseDump (f r : Nat) (q : Desc) (d : Dev) : Dev :=
  onPanel d (tbPanel q) (fun x => { x with dumps := x.dumps ++ [{ f := f, r := r, idx := q.idx, iova := at8 q.words 0x18 }] })

def doTouchBaselineDump (f r : Nat) (d : Dev) : Dev :=
  startDesc d f r 0x413 [] true (chkBaseline [(0x10, 0xF0000007), (0x18, full), (0x1C, full), (0x20, full)]) actBaseDump

/-! ### TOUCH_TEST (R310) -/

def chkTouchTest (d : Dev) (f _r : Nat) (q : Desc) : Option (Nat × Nat) :=
  if !bodyOk q.words [(0x10, 0xF0000007), (0x18, full), (0x1C, full)] ∨ at8 q.words 0x18 % 64 ≠ 0 ∨
     pnSource (panelWords d (tbPanel q)) > 1 then some (stBAD_DESC, 0)
  else if !ptTouch d f (tbPanel q) then some (stERR_PERM, 0)
  else none

/-- The bit of a panel under test. -/
def showTesting (d : Dev) : Dev :=
  fs d TC_STATUS TC_STATUS_TESTING (maskOfList ((List.range 8).filter (fun t => panelState d t == 3)))

/-- A test begins: contacts cancel, keys release. -/
def beginTest (d : Dev) (t : Nat) : Dev :=
  let ws := panelWords d t
  let at0 := d.dt
  let d1 := cancelContacts d t ws at0 (fun _ => true)
  let d2 := ((panelKeys d1 t).filter (keyDown d1)).foldl (fun d k =>
    keyEvent d t ws { k := k, delta := 0, thr := kyThr (keyWords d k) } false at0) d1
  let d3 := (panelKeys d2 t).foldl (fun d k => onKey d k (fun _ => default)) d2
  showTesting (setPanelState (showPanel (onPanel d3 t (fun x => { x with contacts := [], scanning := false, ready := false })) t) t 3)

def actTouchTest (f r : Nat) (q : Desc) (d : Dev) : Dev :=
  let t := tbPanel q
  let e : TTest := { f := f, r := r, idx := q.idx, kind := bits (at4 q.words 0x10) 31 28, iova := at8 q.words 0x18,
                     prev := panelState d t }
  if (panel d t).tests = [] then beginTest (onPanel d t (fun x => { x with tests := [e] })) t
  else onPanel d t (fun x => { x with tests := x.tests ++ [{ e with prev := ((x.tests.head?).map (fun y => y.prev)).getD 0 }] })

def doTouchTestRef (f r : Nat) (d : Dev) : Dev := startDesc d f r 0x420 [] true chkTouchTest actTouchTest
def doTouchTestOpen (f r : Nat) (d : Dev) : Dev := startDesc d f r 0x421 [] true chkTouchTest actTouchTest
def doTouchTestShort (f r : Nat) (d : Dev) : Dev := startDesc d f r 0x422 [] true chkTouchTest actTouchTest

/-- A number in its place in a rising list. -/
def insertNat (n : Nat) : List Nat → List Nat
  | [] => [n]
  | m :: ms => if n ≤ m then n :: m :: ms else m :: insertNat n ms

/-- Twice the median of a list. -/
def median2 (vs : List Nat) : Nat :=
  let s := vs.foldl (fun l v => insertNat v l) []
  s.getD ((s.length - 1) / 2) 0 + s.getD (s.length / 2) 0

/-- Is the mean of a line below OPEN_PCT % of the median? -/
def lineOpen (d : Dev) (med2 : Nat) (vs : List Nat) : Bool :=
  decide (vs.sum * 200 < fg d TC_OS_CFG TC_OS_CFG_OPEN_PCT * med2 * vs.length)

/-- The failing TX and RX lines of a test: `raw` one mutual scan, `leaks` the leakage of each line in nA (TX lines first),
`refs` the readings of the reference capacitor on each RX channel in 0.1 fF. -/
def testFails (d : Dev) (ws : List Word) (kind : Nat) (raw leaks refs : List Nat) : List Nat × List Nat :=
  let tx := pnTx ws
  let rx := pnRx ws
  let leak (k : Nat) : Bool := decide (leaks.getD k 0 > fg d TC_OS_CFG TC_OS_CFG_SHORT_NA * 10)
  match kind with
  | 0 => ([], (List.range 48).filter (fun k => decide (refs.getD k 0 < fg d TC_REF_WIN TC_REF_WIN_REF_LO) ||
           decide (refs.getD k 0 > fg d TC_REF_WIN TC_REF_WIN_REF_HI)))
  | 1 =>
    let m := median2 ((List.range (tx * rx)).map (fun k => raw.getD k 0))
    ((List.range tx).filter (fun i => lineOpen d m ((List.range rx).map (fun j => raw.getD (i * rx + j) 0))),
     (List.range rx).filter (fun j => lineOpen d m ((List.range tx).map (fun i => raw.getD (i * rx + j) 0))))
  | _ => ((List.range tx).filter leak, (List.range rx).filter (fun j => leak (tx + j)))

/-- TOUCH_TEST_DONE: the result is written, the panel goes on as before. -/
def doTouchTestDone (t : Nat) (raw leaks refs : List Nat) (d : Dev) : Dev :=
  match (panel d t).tests with
  | [] => d
  | e :: es =>
    let fails := testFails d (panelWords d t) e.kind raw leaks refs
    let reads := (List.range 48).flatMap (fun k => leBytes 2 (if e.kind = 0 then refs.getD k 0 else 0))
    let bytes := leBytes 8 (maskOfList fails.1) ++ leBytes 8 (maskOfList fails.2) ++ reads
    let back := if !pnEn (panelWords d t) then 0 else if (panel d t).start then 1 else 2
    let d1 := showTesting (setPanelState (onPanel d t (fun x => { x with tests := es })) t back)
    let w := if e.f < 32 then memWritePages 3 d1 e.f midTOUCH e.iova bytes else (d1, true)
    let d2 := if e.f < 32 then
        complete w.1 e.f e.r e.idx (if w.2 then stOK else stERR_FAULT) (fails.1.length + fails.2.length)
      else w.1
    if es = [] then d2 else beginTest d2 t

/-! ### The commands -/

/-- TOUCH_CFG (R309). -/
def execTouchCfg (f : Fn) (r : Ring) (s : State) : Host.Outcome State Fault Refusal :=
  .next { s with dev := doTouchCfg f.val r.val s.dev }

/-- TOUCH_BASELINE RELOAD (R301). -/
def execTouchBaselineReload (f : Fn) (r : Ring) (s : State) : Host.Outcome State Fault Refusal :=
  .next { s with dev := doTouchBaselineReload f.val r.val s.dev }

/-- TOUCH_BASELINE REBASE (R309). -/
def execTouchBaselineRebase (f : Fn) (r : Ring) (s : State) : Host.Outcome State Fault Refusal :=
  .next { s with dev := doTouchBaselineRebase f.val r.val s.dev }

/-- TOUCH_BASELINE SAVE (R309). -/
def execTouchBaselineSave (f : Fn) (r : Ring) (s : State) : Host.Outcome State Fault Refusal :=
  .next { s with dev := doTouchBaselineSave f.val r.val s.dev }

/-- TOUCH_BASELINE DUMP (R309). -/
def execTouchBaselineDump (f : Fn) (r : Ring) (s : State) : Host.Outcome State Fault Refusal :=
  .next { s with dev := doTouchBaselineDump f.val r.val s.dev }

/-- TOUCH_TEST REF (R310). -/
def execTouchTestRef (f : Fn) (r : Ring) (s : State) : Host.Outcome State Fault Refusal :=
  .next { s with dev := doTouchTestRef f.val r.val s.dev }

/-- TOUCH_TEST OPEN (R310). -/
def execTouchTestOpen (f : Fn) (r : Ring) (s : State) : Host.Outcome State Fault Refusal :=
  .next { s with dev := doTouchTestOpen f.val r.val s.dev }

/-- TOUCH_TEST SHORT (R310). -/
def execTouchTestShort (f : Fn) (r : Ring) (s : State) : Host.Outcome State Fault Refusal :=
  .next { s with dev := doTouchTestShort f.val r.val s.dev }

/-- TOUCH_TEST_DONE (R310). -/
def execTouchTestDone (t : Panel) (raw leaks refs : List Nat) (s : State) : Host.Outcome State Fault Refusal :=
  .next { s with dev := doTouchTestDone t.val raw leaks refs s.dev }

/-- TOUCH_FRAME_PROCESS (R304). -/
def execTouchFrameProcess (t : Panel) (raw : List Nat) (selfTx selfRx : List Int) (s : State) :
    Host.Outcome State Fault Refusal :=
  .next { s with dev := doTouchFrameProcess t.val raw selfTx selfRx s.dev }

/-- SPI_DRDY (R296). -/
def execSpiDrdy (t : Panel) (s : State) : Host.Outcome State Fault Refusal :=
  .next { s with dev := doSpiDrdy t.val s.dev }

/-- SPI_DRDY_TIMEOUT (R296). -/
def execSpiDrdyTimeout (t : Panel) (s : State) : Host.Outcome State Fault Refusal :=
  .next { s with dev := doSpiDrdyTimeout t.val s.dev }

/-- TUNNEL_SEGMENT (R298). -/
def execTunnelSegment (q : Fin 8) (bytes : List Byte) (s : State) : Host.Outcome State Fault Refusal :=
  .next { s with dev := doTunnelSegment q.val bytes s.dev }

/-- TUNNEL_FRAME_TIMEOUT (R296). -/
def execTunnelFrameTimeout (t : Panel) (s : State) : Host.Outcome State Fault Refusal :=
  .next { s with dev := doTunnelFrameTimeout t.val s.dev }

/-- LONG_CONTACT (R302). -/
def execLongContact (t : Panel) (id : Fin 11) (s : State) : Host.Outcome State Fault Refusal :=
  .next { s with dev := doLongContact t.val id.val s.dev }

/-- FORCED_RELEASE (R302). -/
def execForcedRelease (t : Panel) (id : Fin 11) (s : State) : Host.Outcome State Fault Refusal :=
  .next { s with dev := doForcedRelease t.val id.val s.dev }

end Sys2Proof.Machine
end

