-- ==== Sys2Proof/Machine/Audio.lean ====
section
/-! DEFINITION. The audio engine (R330 to R357): domains, ports, buses, bridges, routes, gains, streams, chimes. Its times
counted in frames take the nominal rate. -/

namespace Sys2Proof.Machine

/-! ### State -/

def onAudio (d : Dev) (g : Audio → Audio) : Dev := { d with audio := g d.audio }

def streamRun (d : Dev) (s : Nat) : StreamRun := SMap.get d.audio.streams s

def onStream (d : Dev) (s : Nat) (g : StreamRun → StreamRun) : Dev :=
  onAudio d (fun a => { a with streams := SMap.mod a.streams s g })

/-- 0 STOPPED, 1 RUN, 2 STARVED, 3 RAMP_DOWN, 4 PAUSED. -/
def streamState (d : Dev) (s : Nat) : Nat := fg d (AU_ST s) AU_ST_STATE

/-- A stream takes a state. Between sound and silence its samples ramp, up over 2 ms, down over 2 ms or, in an underrun, over the
last millisecond (R350, R351): `sound 1` tells the stream, whether it rises, and the ns of the ramp. -/
def setStreamState (d : Dev) (s v : Nat) : Dev :=
  let d1 := fs d (AU_ST s) AU_ST_STATE v
  if v = streamState d s ∨ v = 0 then d1
  else emit d1 (.sound 1 s (decide (v = 1)).toNat (if v = 2 then 1000000 else 2000000))

def routeFade (d : Dev) (n : Nat) : RouteFade := SMap.get d.audio.routes n

def onRoute (d : Dev) (n : Nat) (g : RouteFade → RouteFade) : Dev :=
  onAudio d (fun a => { a with routes := SMap.mod a.routes n g })

def chimeRun (d : Dev) (g : Nat) : ChimeRun := SMap.get d.audio.chimes g

def onChime (d : Dev) (g : Nat) (h : ChimeRun → ChimeRun) : Dev :=
  onAudio d (fun a => { a with chimes := SMap.mod a.chimes g h })

/-- A descriptor that waits completes. -/
def auEnd (d : Dev) (w : AuWait) (st detail : Nat) : Dev := complete d w.f w.r w.idx st detail

def auEnds (d : Dev) (ws : List AuWait) (st : Nat) : Dev := ws.foldl (fun d w => auEnd d w st 0) d

/-- An audio event (R356). -/
def auEvent (d : Dev) (f code idx cause v : Nat) : Dev :=
  post d f clAUDIO code midAUDIO (pb 0 idx + pb 1 cause + pw32 4 v)

/-! ### Domains, ports and what is active (R330 to R334, R340) -/

/-- The rate of a domain in Hz. -/
def domRate (d : Dev) (k : Nat) : Nat :=
  let r := fg d (AU_DOM k) AU_DOM_RATE
  match k with
  | 0 => if r = 1 then 96000 else 48000
  | 1 => if r = 1 then 88200 else 44100
  | _ => if r = 1 then 16000 else if r = 2 then 32000 else 8000

/-- The configuration of a stream: direction, domain, channels, FIFO_MS. -/
def stDir (x : StreamRun) : Nat := bits (wd x.cfg 0) 27 27
def stDom (x : StreamRun) : Nat := bits (wd x.cfg 0) 26 25
def stChans (x : StreamRun) : Nat := bits (wd x.cfg 0) 20 18 + 1
def stBytes (x : StreamRun) : Nat := if bits (wd x.cfg 0) 17 16 = 0 then 2 else 4
def stFifoMs (x : StreamRun) : Nat := bits (wd x.cfg 0) 15 8
def stPeriod (x : StreamRun) : Nat := (wd x.cfg 1).toNat
def stBase (x : StreamRun) : Nat := wd64 x.cfg 2
def stFrames (x : StreamRun) : Nat := (wd x.cfg 4).toNat
def stRec (x : StreamRun) : Nat := wd64 x.cfg 6

/-- Is anything of a domain running: a port, a bus, a side of a bridge, a stream? -/
def domBusy (d : Dev) (k : Nat) : Bool :=
  (List.range 10).any (fun p => fb d (AU_PORT p) AU_PORT_EN && fg d (AU_PORT p) AU_PORT_DOMAIN == k) ||
  (List.range 16).any (fun m => fb d (AU_BUS m) AU_BUS_EN && fg d (AU_BUS m) AU_BUS_DOMAIN == k) ||
  (List.range 8).any (fun b => fb d (AU_BRIDGE b) AU_BRIDGE_EN &&
    (fg d (AU_BRIDGE b) AU_BRIDGE_IN_DOM == k || fg d (AU_BRIDGE b) AU_BRIDGE_OUT_DOM == k)) ||
  (List.range 32).any (fun s => streamState d s != 0 && stDom (streamRun d s) == k)

/-- 0 OFF, 1 ACQUIRE, 2 LOCKED, 3 HOLDOVER. -/
def auDomState (d : Dev) (k : Nat) : Nat := fg d (AU_DOM_ST k) AU_DOM_ST_STATE

/-- The state that a domain shows: it runs while anything of it does, and stays in HOLDOVER until it is written (R332); D2 follows D0
and runs only while D0 runs. -/
def domShould (d : Dev) (k : Nat) : Nat :=
  let own (k : Nat) : Nat := if auDomState d k = 3 then 3 else if domBusy d k then 2 else 0
  if k = 2 then (if domBusy d 2 then own 0 else 0) else own k

/-- A domain takes its state; its measured deviation is what the clock has. -/
def showDom (d : Dev) (k : Nat) : Dev :=
  let v := domShould d k
  if v = auDomState d k then d
  else
    let t := takeFree (fs d (AU_DOM_ST k) AU_DOM_ST_STATE v)
    fs t.2 (AU_DOM_ST k) AU_DOM_ST_PPM (if v = 0 then 0 else t.1)

/-- Is a port in RUN? -/
def portRuns (d : Dev) (p : Nat) : Bool := fg d (AU_PORT_ST p) AU_PORT_ST_STATE == 1

/-- The port of an endpoint ID that names one: 0 to 9. -/
def portOfId (id : Nat) : Option Nat :=
  if 0x40 ≤ id ∧ id ≤ 0x45 then some (id - 0x40) else if 0x48 ≤ id ∧ id ≤ 0x4B then some (id - 0x42) else none

def rtEn (ws : List Word) : Bool := bit (wd ws 0) 31
def rtSrc (ws : List Word) : Nat := bits (wd ws 1) 31 24
def rtDst (ws : List Word) : Nat := bits (wd ws 1) 23 16
def rtSrcCh (ws : List Word) : Nat := bits (wd ws 1) 15 12
def rtDstCh (ws : List Word) : Nat := bits (wd ws 1) 11 8
def rtCount (ws : List Word) : Nat := bits (wd ws 1) 3 0 + 1
def rtRamp (ws : List Word) : Nat := bits (wd ws 2) 22 16
def rtGain (ws : List Word) : Int := sext (bits (wd ws 2) 11 0) 12

/-- The entry of a route. -/
def routeWords (d : Dev) (n : Nat) : List Word := rds d (AU_RT n 0) 3

/-- The paths of a route: its entry, and in a crossfade the old one. -/
def routePaths (d : Dev) (n : Nat) : List (List Word) :=
  ([routeWords d n, (routeFade d n).old]).filter rtEn

/-- Is the source of a path active, given the counts of the buses? -/
def sourceActive (d : Dev) (count : Nat → Nat) (src : Nat) : Bool :=
  if src < 0x20 then streamState d src == 1
  else if src < 0x30 then decide (count (src - 0x20) > 0)
  else if src < 0x38 then fb d (AU_BRIDGE_ST (src - 0x30)) AU_BRIDGE_ST_LOCK
  else (portOfId src).any (portRuns d)

/-- The routes that feed a bus with an active source. -/
def busCount (d : Dev) (count : Nat → Nat) (m : Nat) : Nat :=
  ((List.range 128).filter (fun n => (routePaths d n).any (fun ws => rtDst ws == 0x20 + m && sourceActive d count (rtSrc ws)))).length

/-- The active counts, round by round, each from the last. -/
def countRounds (d : Dev) : Nat → List Nat → List Nat
  | 0, cs => cs
  | n + 1, cs =>
    let next := (List.range 16).map (busCount d (fun m => cs.getD m 0))
    if next = cs then cs else countRounds d n next

/-- The chimes show whether they sound and whether their port blocks them (R353). -/
def showChimes (d : Dev) : Dev :=
  let on (g : Nat) : Bool := (chimeRun d g).on
  let port (g : Nat) : Nat := bits (wd (chimeRun d g).words 1) 31 24
  let blocked (g : Nat) : Bool := on g && !((portOfId (port g)).any (portRuns d))
  let was := fg d AU_CHIME_STAT AU_CHIME_STAT_BLOCKED
  let d1 := fs (fs d AU_CHIME_STAT AU_CHIME_STAT_ACTIVE (maskOfList ((List.range 4).filter on))) AU_CHIME_STAT
    AU_CHIME_STAT_BLOCKED (maskOfList ((List.range 4).filter blocked))
  ((List.range 4).filter (fun g => blocked g && !hasBit was g)).foldl (fun d g =>
    emit (auEvent d 0 6 g 0 (port g)) (.island 0x2A g)) d1

/-- The rate of PDM_CLKn in a domain in Hz, and the decimation ratio to the domain's rate (R335). -/
def pdmHz (k : Nat) : Nat := if k = 1 then 2822400 else 3072000

def pdmRatio (d : Dev) (k : Nat) : Nat := pdmHz k / max 1 (domRate d k)

/-- A port shows its state; the clock of a PDM port begins with its rate and ratio, and stops (R335). -/
def showPort (d : Dev) (p : Nat) : Dev :=
  let k := fg d (AU_PORT p) AU_PORT_DOMAIN
  let v := if !fb d (AU_PORT p) AU_PORT_EN then 0 else if auDomState d k ≥ 2 then 1 else 2
  let d1 := fs d (AU_PORT_ST p) AU_PORT_ST_STATE v
  if p < 6 ∨ (v = 1) = portRuns d p then d1
  else if v = 1 then emit d1 (.pdm (p - 6) (pdmHz k) (pdmRatio d k) (fb d (AU_PORT p) AU_PORT_DC_BLOCK))
  else emit d1 (.pdm (p - 6) 0 0 false)

/-- A bus shows its active count. Its automatic scale ramps to the new value, 1, 1/n or 1/√n by SCALE, over RAMP_MS (R340):
`sound 0` tells the bus, SCALE, the count, and the ns of the ramp. -/
def showScale (d : Dev) (m n : Nat) : Dev :=
  let d1 := fs d (AU_BUS_ST m) AU_BUS_ST_ACTIVE n
  if n = fg d (AU_BUS_ST m) AU_BUS_ST_ACTIVE then d1
  else emit d1 (.sound 0 m (fg d (AU_BUS m) AU_BUS_SCALE * 256 + n) (fg d (AU_BUS m) AU_BUS_RAMP_MS * 1000000))

/-- Everything that follows from what runs: domain states, port states, active counts, blocked chimes. -/
def showAudio (d : Dev) : Dev :=
  let d1 := showDom (showDom (showDom d 0) 1) 2
  let d2 := (List.range 10).foldl showPort d1
  let cs := countRounds d2 17 []
  showChimes ((List.range 16).foldl (fun d m => showScale d m (cs.getD m 0)) d2)

/-- CLOCK_LOSS: no edge for 10 µs. The internal synthesiser loses none. -/
def doClockLoss (k : Nat) (d : Dev) : Dev :=
  if auDomState d k ≠ 2 ∨ fg d (AU_DOM k) AU_DOM_SRC = 1 then d
  else
    let d1 := bump (fs d (AU_DOM_ST k) AU_DOM_ST_STATE 3) AU_STATUS AU_STATUS_CLK_LOSS
    showAudio (auEvent d1 0 4 k 0 0)

/-- PORT_FRAME_ERROR: a slave port realigns at the next FS. -/
def doPortFrameError (p : Nat) (d : Dev) : Dev :=
  if p < 6 ∧ portRuns d p ∧ !fb d (AU_PORT p) AU_PORT_MASTER then bump d (AU_PORT_ST p) AU_PORT_ST_FRAME_ERRS else d

/-! ### Register writes (R331, R334, R339, R341, R342) -/

/-- A write of AU_DOM_d. -/
def auDomWrite (a : Acc) (k : Nat) (v : Word) (d : Dev) : Dev :=
  let bad (w : Word) : Option Nat :=
    if domBusy d k then some ecBUSY
    else if (k < 2 ∧ bits w 1 0 ≥ 2) ∨ (k = 2 ∧ bits w 1 0 = 3) ∨ bits w 29 27 ≥ 6 then some ecRESERVED_ENCODING
    else none
  let w := guardWrite a (AU_DOM k) v bad d
  match w.2 with
  | .done _ => showAudio (fs w.1 (AU_DOM_ST k) AU_DOM_ST_STATE 0)
  | _ => w.1

/-- Bits of a width code. -/
def widthOf (c : Nat) : Nat := 16 + 8 * c

/-- Is a safety chime assigned to a port (R353), by its register or as it sounds? -/
def safetyOn (d : Dev) (p : Nat) : Bool :=
  (List.range 2).any (fun g => bits (rd d (AU_CHIME g 1)) 31 24 == 0x40 + p ||
    ((chimeRun d g).on && bits (wd (chimeRun d g).words 1) 31 24 == 0x40 + p))

/-- A write of AU_PORT_p. An I2S port has two slots. -/
def auPortWrite (a : Acc) (p : Nat) (v : Word) (d : Dev) : Dev :=
  let slots (w : Word) : Nat := if p = 4 ∨ p = 5 then 2 else bits w 27 24 + 1
  let bad (w : Word) : Option Nat :=
    let mate := if p ≥ 6 then some (if p % 2 = 0 then p + 1 else p - 1) else none
    if p < 6 ∧ (bits w 21 20 > bits w 23 22 ∨
       slots w * widthOf (bits w 23 22) * domRate d (bits w 29 28) > 24576000) then some ecOUT_OF_RANGE
    else if !bit w 31 ∧ p < 6 ∧ fb d (AU_PORT p) AU_PORT_EN ∧ safetyOn d p then some ecCONFLICT
    else if bit w 31 ∧ mate.any (fun q => fb d (AU_PORT q) AU_PORT_EN && fg d (AU_PORT q) AU_PORT_DOMAIN != bits w 29 28) then
      some ecCONFLICT
    else none
  let w := guardWrite a (AU_PORT p) v bad d
  match w.2 with
  | .done _ => showAudio (if p = 4 ∨ p = 5 then fs w.1 (AU_PORT p) AU_PORT_SLOTS 1 else w.1)
  | _ => w.1

/-- Does an enabled route name an endpoint, as it is or in a path that fades? -/
def routesName (d : Dev) (id : Nat) : Bool :=
  (List.range 128).any (fun n => (routePaths d n).any (fun ws => rtSrc ws == id || rtDst ws == id))

/-- A write of AU_BUS_m: while routes name the bus it is discarded; at most four buses are low-latency. -/
def auBusWrite (a : Acc) (m : Nat) (v : Word) (d : Dev) : Dev :=
  let others := ((List.range 16).filter (fun j => j != m && fb d (AU_BUS j) AU_BUS_LL)).length
  let bad (w : Word) : Option Nat :=
    if bits w 19 13 = 0 ∨ bits w 19 13 > 64 then some ecOUT_OF_RANGE
    else if routesName d (0x20 + m) ∨ (bit w 30 ∧ others ≥ 4) then some ecCONFLICT
    else none
  showAudio (guardWrite a (AU_BUS m) v bad d).1

/-- A write of AU_BRIDGE_b: its domains differ; it locks anew. -/
def auBridgeWrite (a : Acc) (b : Nat) (v : Word) (d : Dev) : Dev :=
  let bad (w : Word) : Option Nat := if bits w 30 29 = bits w 28 27 then some ecCONFLICT else none
  let w := guardWrite a (AU_BRIDGE b) v bad d
  match w.2 with
  | .done _ => showAudio (fs w.1 (AU_BRIDGE_ST b) AU_BRIDGE_ST_LOCK 0)
  | _ => w.1

/-! ### Bridges (R342) -/

/-- The output of a bridge ramps up or to silence over 2 ms. -/
def bridgeRamp (d : Dev) (b up : Nat) : Dev := emit d (.sound 4 b up 2000000)

/-- BRIDGE_LOCK. The deviation that the bridge measures is within its range. -/
def doBridgeLock (b : Nat) (d : Dev) : Dev :=
  if !fb d (AU_BRIDGE b) AU_BRIDGE_EN ∨ fb d (AU_BRIDGE_ST b) AU_BRIDGE_ST_LOCK ∨
     auDomState d (fg d (AU_BRIDGE b) AU_BRIDGE_IN_DOM) = 0 ∨ auDomState d (fg d (AU_BRIDGE b) AU_BRIDGE_OUT_DOM) = 0 then d
  else
    let t := takeFree (bridgeRamp (fs d (AU_BRIDGE_ST b) AU_BRIDGE_ST_LOCK 1) b 1)
    showAudio (fs t.2 (AU_BRIDGE_ST b) AU_BRIDGE_ST_RATIO_PPM (enc2 (Int.ofNat (t.1 % 4001) - 2000) 16))

/-- BRIDGE_UNLOCK: the ratio left the tracking range. -/
def doBridgeUnlock (b : Nat) (ppm : Int) (d : Dev) : Dev :=
  if !fb d (AU_BRIDGE_ST b) AU_BRIDGE_ST_LOCK ∨ ppm.natAbs ≤ 2000 then d
  else
    let d1 := fs (fs d (AU_BRIDGE_ST b) AU_BRIDGE_ST_LOCK 0) (AU_BRIDGE_ST b) AU_BRIDGE_ST_RATIO_PPM (enc2 ppm 16)
    showAudio (auEvent (bridgeRamp d1 b 0) 0 5 b 0 (enc2 ppm 32))

/-! ### Gains (R343) -/

/-- Is a gain in range? -/
def gainOk (g : Int) : Bool := decide (-1200 ≤ g) && decide (g ≤ 240)

/-- The gain of a target now: in a ramp, the value reached. -/
def gainNow (d : Dev) (k : Nat) : Int :=
  let r := SMap.get d.audio.ramps k
  if r.on then Config.rampGain r.from0 r.to0 (min (d.dt - r.start) (r.ms * 1000000)) (r.ms * 1000000)
  else SMap.get d.audio.gains k

/-- A bus shows its gain in force. -/
def showGain (d : Dev) (k : Nat) : Dev :=
  if k / 128 = 2 then fs d (AU_BUS_ST (k % 128)) AU_BUS_ST_GAIN (enc2 (gainNow d k) 12) else d

/-- A ramp to a new gain starts from the value reached; the AUDIO_GAIN that it cuts completes with CUT. -/
def startRamp (d : Dev) (k : Nat) (g : Int) (ms : Nat) (wait : Option AuWait) : Dev :=
  let old := SMap.get d.audio.ramps k
  let now := gainNow d k
  let d1 := onAudio d (fun a => { a with
    ramps := SMap.set a.ramps k { on := true, start := d.dt, ms := ms, from0 := now, to0 := g, wait := wait } })
  let d2 := showGain d1 k
  match old.wait with
  | some w => if old.on then auEnd d2 w stOK 1 else d2
  | none => d2

/-- GAIN_RAMP_END: the ramp reaches its target. -/
def doGainRampEnd (kind idx : Nat) (d : Dev) : Dev :=
  let k := 128 * kind + idx
  let r := SMap.get d.audio.ramps k
  if !r.on then d
  else
    let d1 := advance (r.start + r.ms * 1000000) d
    let d2 := showGain (onAudio d1 (fun a => { a with gains := SMap.set a.gains k r.to0, ramps := SMap.erase a.ramps k })) k
    match r.wait with
    | some w => auEnd d2 w stOK 0
    | none => d2

def chkAudioGain (d : Dev) (f _r : Nat) (q : Desc) : Option (Nat × Nat) :=
  let w := at4 q.words 0x10
  let kind := bits w 31 30
  let idx := bits w 29 23
  let limit := if kind = 0 then 32 else if kind = 1 then 128 else 16
  if !bodyOk q.words [(0x10, 0xFFFF0FFF)] ∨ kind = 3 ∨ idx ≥ limit ∨ bits w 22 16 = 0 ∨ bits w 22 16 > 64 ∨
     !gainOk (sext (bits w 11 0) 12) then some (stBAD_DESC, 0)
  else if (kind = 0 ∧ !ptAudio d f idx) ∨ (kind ≠ 0 ∧ f ≠ 0) then some (stERR_PERM, 0)
  else none

/-- AUDIO_GAIN: a route's entry takes the gain as its own. -/
def actAudioGain (f r : Nat) (q : Desc) (d : Dev) : Dev :=
  let w := at4 q.words 0x10
  let k := 128 * bits w 31 30 + bits w 29 23
  let d1 := startRamp d k (sext (bits w 11 0) 12) (bits w 22 16) (some { f := f, r := r, idx := q.idx })
  if bits w 31 30 = 1 then wr d1 (AU_RT (bits w 29 23) 2) (putBits (rd d1 (AU_RT (bits w 29 23) 2)) 11 0 (bits w 11 0)) else d1

def doAudioGain (f r : Nat) (d : Dev) : Dev := startDesc d f r 0x4A0 [] true chkAudioGain actAudioGain

/-! ### Coefficients (R344) -/

/-- The coefficients in force of a section. -/
def eqNow (d : Dev) (m k : Nat) : List Word :=
  match SMap.get d.audio.eq (8 * m + k) with
  | [] => (List.range 5).map (fun j => regReset (AU_EQ m k j))
  | ws => ws

/-- A section takes five words. -/
def eqMove (d : Dev) (m k : Nat) (ws : List Word) : Dev :=
  onAudio d (fun a => { a with eq := SMap.set a.eq (8 * m + k) ws })

/-- EQ_SECTION_MOVE: the write of word 4 moves the five staged words. -/
def doEqSectionMove (a : Acc) (m k : Nat) (v : Word) (d : Dev) : Dev :=
  let w := regWrite a (AU_EQ m k 4) v d
  match w.2 with
  | .done _ => eqMove w.1 m k (rds w.1 (AU_EQ m k 0) 5)
  | _ => w.1

def chkAudioCoef (_d : Dev) (f _r : Nat) (q : Desc) : Option (Nat × Nat) :=
  let w := at4 q.words 0x10
  if !bodyOk q.words [(0x10, 0x0F00070F), (0x18, full), (0x1C, full)] ∨ bits w 3 0 = 0 ∨ bits w 3 0 > 8 ∨
     bits w 10 8 + bits w 3 0 > 8 ∨ at8 q.words 0x18 % 64 ≠ 0 then some (stBAD_DESC, 0)
  else if f ≠ 0 then some (stERR_PERM, 0)
  else none

/-- AUDIO_COEF: its sections take effect together. -/
def actAudioCoef (f r : Nat) (q : Desc) (d : Dev) : Dev :=
  let w := at4 q.words 0x10
  let n := bits w 3 0
  let m := memRead d f midAUDIO (at8 q.words 0x18) (5 * n) (q.mem.headD { data := [], ecc := false, ats := false })
  match m.2 with
  | .fault => complete m.1 f r q.idx stERR_FAULT
  | .ecc => complete m.1 f r q.idx stERR_ECC
  | .words ws =>
    let d1 := (List.range n).foldl (fun d j =>
      let s := (List.range 5).map (fun i => wd ws (5 * j + i))
      eqMove (wrs d (AU_EQ (bits w 27 24) (bits w 10 8 + j) 0) s) (bits w 27 24) (bits w 10 8 + j) s) m.1
    complete d1 f r q.idx stOK

def doAudioCoef (f r : Nat) (m : MemIn) (d : Dev) : Dev := startDesc d f r 0x4B0 [m] true chkAudioCoef actAudioCoef

/-! ### Routes (R336, R337, R341, R345 to R347) -/

/-- An endpoint: its domain and channels. -/
structure Endp where
  dom : Nat
  chans : Nat
  deriving DecidableEq, Repr

/-- An endpoint as a source, if the ID is one. -/
def sourceOf (d : Dev) (id : Nat) : Option Endp :=
  if id < 0x20 then
    let x := streamRun d id
    if stDir x = 0 then some { dom := stDom x, chans := stChans x } else none
  else if id < 0x30 then some { dom := fg d (AU_BUS (id - 0x20)) AU_BUS_DOMAIN, chans := fg d (AU_BUS (id - 0x20)) AU_BUS_CHANNELS + 1 }
  else if id < 0x38 then
    some { dom := fg d (AU_BRIDGE (id - 0x30)) AU_BRIDGE_OUT_DOM, chans := fg d (AU_BRIDGE (id - 0x30)) AU_BRIDGE_CHANNELS + 1 }
  else (portOfId id).map (fun p =>
    { dom := fg d (AU_PORT p) AU_PORT_DOMAIN, chans := if p < 4 then fg d (AU_PORT p) AU_PORT_SLOTS + 1 else 2 })

/-- An endpoint as a sink, if the ID is one. -/
def sinkOf (d : Dev) (id : Nat) : Option Endp :=
  if id < 0x20 then
    let x := streamRun d id
    if stDir x = 1 then some { dom := stDom x, chans := stChans x } else none
  else if id < 0x30 then sourceOf d id
  else if id < 0x38 then
    some { dom := fg d (AU_BRIDGE (id - 0x30)) AU_BRIDGE_IN_DOM, chans := fg d (AU_BRIDGE (id - 0x30)) AU_BRIDGE_CHANNELS + 1 }
  else if id < 0x46 then sourceOf d id
  else none

/-- Is an ID a low-latency bus? -/
def isLowLat (d : Dev) (id : Nat) : Bool := decide (0x20 ≤ id) && decide (id < 0x30) && fb d (AU_BUS (id - 0x20)) AU_BUS_LL

/-- The reserved bits and ranges of a route entry (R343, R355). -/
def routeReserved (ws : List Word) : Bool :=
  (wd ws 0).toNat &&& (2 ^ 32 - 1 - 0xFF0F0000) != 0 || (wd ws 1).toNat &&& (2 ^ 32 - 1 - 0xFFFFFF0F) != 0 ||
  (wd ws 2).toNat &&& (2 ^ 32 - 1 - 0x007F0FFF) != 0

/-- The rules of R337, R341 and R343 on an enabled route by itself. -/
def routeOk (d : Dev) (ws : List Word) : Bool :=
  match sourceOf d (rtSrc ws), sinkOf d (rtDst ws) with
  | some s, some t =>
    decide (s.dom = t.dom) && decide (rtSrcCh ws + rtCount ws ≤ s.chans) && decide (rtDstCh ws + rtCount ws ≤ t.chans) &&
    (!isLowLat d (rtDst ws) || decide (0x40 ≤ rtSrc ws)) && (!isLowLat d (rtSrc ws) || decide (0x40 ≤ rtDst ws)) &&
    gainOk (rtGain ws) && decide (1 ≤ rtRamp ws) && decide (rtRamp ws ≤ 64)
  | _, _ => false

/-- A route entry as it will stand after what has landed, what is accepted, and the items given. -/
def futureRoute (d : Dev) (items : List CommitItem) (n : Nat) : List Word :=
  let x := routeFade d n
  let landed := if x.due ≠ [] then x.due else if x.pend ≠ [] then x.pend else routeWords d n
  (pendingItems d ++ items).foldl (fun ws it => match it with
    | .route k rs => if k = n then rs else ws
    | _ => ws) landed

/-- The edges of the graph of buses (0 to 15) and bridges (16 to 23) under a table of routes. -/
def graphEdges (tab : Nat → List Word) : List (Nat × Nat) :=
  (List.range 128).filterMap (fun n =>
    let ws := tab n
    let a := rtSrc ws
    let b := rtDst ws
    if rtEn ws ∧ 0x20 ≤ a ∧ a < 0x38 ∧ 0x20 ≤ b ∧ b < 0x38 then some (a - 0x20, b - 0x20) else none)

/-- The nodes reached from a set in up to n steps. -/
def reach (es : List (Nat × Nat)) : Nat → List Nat → List Nat
  | 0, s => s
  | n + 1, s => reach es n ((s ++ (es.filter (fun e => s.contains e.1)).map (fun e => e.2)).eraseDups)

/-- Is there a cycle? -/
def hasCycle (es : List (Nat × Nat)) : Bool :=
  es.any (fun e => (reach es 24 [e.2]).contains e.1)

/-- The status of a set of route items: each in order, then the graph that they leave. -/
def chkRoutes (d : Dev) (items : List CommitItem) : Option Nat :=
  let badItem (it : CommitItem) : Bool := match it with
    | .route _ ws => routeReserved ws || (rtEn ws && !routeOk d ws)
    | _ => false
  if items.any badItem ∨ hasCycle (graphEdges (futureRoute d items)) then some stBAD_DESC else none

/-- The route items of an AUDIO_ROUTE chain. ANCHOR stands in the first descriptor only; the entry keeps no ANCHOR. -/
def routeItems (q : Desc) : List CommitItem :=
  ((q.words :: q.chain).map (fun ws =>
    .route (bits (at4 ws 0x10) 30 24) [putBits (at4 ws 0x10) 19 16 0, at4 ws 0x14, at4 ws 0x18]))

def chkAudioRoute (d : Dev) (f _r : Nat) (q : Desc) : Option (Nat × Nat) :=
  let body (m : Nat) (ws : List Word) : Bool := bodyOk ws [(0x10, m), (0x14, 0xFFFFFF0F), (0x18, 0x007F0FFF)]
  if !body 0xFF0F0000 q.words ∨ !(q.chain.all (fun ws => decide (opcodeOf ws = 0x49) && body 0xFF000000 ws)) ∨
     q.chain.length > 15 then some (stBAD_DESC, 0)
  else if f ≠ 0 then some (stERR_PERM, 0)
  else (chkRoutes d (routeItems q)).map (fun s => (s, 0))

/-- AUDIO_ROUTE is a commit on its anchor alone (R345). -/
def actAudioRoute (f r : Nat) (q : Desc) (d : Dev) : Dev :=
  let p := bits (at4 q.words 0x10) 19 16
  acceptCommit d f (.desc f r q.idx) p (2 ^ p) q.cp (strictOf q.words) false (routeItems q)

def doAudioRoute (f r : Nat) (d : Dev) : Dev := startDesc d f r 0x490 [] false chkAudioRoute actAudioRoute

/-- A landing leaves the change for the next frame boundary of its destination's domain. -/
def routeLand (d : Dev) (n : Nat) (ws : List Word) : Dev := onRoute d n (fun x => { x with due := ws })

/-- AU_RT_n shows a state and whether a change is pending. -/
def showRoute (d : Dev) (n st : Nat) : Dev :=
  fs (fs d (AU_RT_ST n) AU_RT_ST_STATE st) (AU_RT_ST n) AU_RT_ST_PENDING (decide ((routeFade d n).pend ≠ [])).toNat

/-- The frames of a crossfade: 5 ms of the destination's domain, in which the old path is weighed by cos(πt/2T) and the new one by
sin(πt/2T) (R346). -/
def fadeFrames (d : Dev) (ws : List Word) : Nat := domRate d (((sinkOf d (rtDst ws)).map (fun e => e.dom)).getD 0) * 5 / 1000

/-- A change reaches a route that does not fade: a crossfade, or a gain ramp alone. -/
def applyRoute (d : Dev) (n : Nat) (ws : List Word) : Dev :=
  let old := routeWords d n
  let d1 := wrs d (AU_RT n 0) ws
  let en := (rtEn ws).toNat
  if bits (wd old 0) 31 31 ≠ bits (wd ws 0) 31 31 ∨ (wd old 1 ≠ wd ws 1 ∧ (rtEn old ∨ rtEn ws)) then
    let d2 := onAudio (onRoute d1 n (fun x => { x with old := old, start := d.dt }))
      (fun a => { a with gains := SMap.set a.gains (128 + n) (rtGain ws), ramps := SMap.erase a.ramps (128 + n) })
    let d3 := match (SMap.get d.audio.ramps (128 + n)).wait with
      | some w => auEnd d2 w stOK 1
      | none => d2
    showRoute (emit d3 (.sound 2 n (rtSrc ws * 256 + rtDst ws) (fadeFrames d ws))) n 2
  else showRoute (if rtGain old ≠ rtGain ws then startRamp d1 (128 + n) (rtGain ws) (rtRamp ws) none else d1) n en

/-- The domain whose frame boundaries a change waits for: its destination's. -/
def routeDomain (d : Dev) (ws : List Word) : Option Nat := (sinkOf d (rtDst ws)).map (fun e => e.dom)

/-- ROUTE_TABLE_CHANGE: at a frame boundary of domain k every change that has landed applies, or waits for its crossfade. A
change whose destination is none waits for no domain of its own and applies at the first boundary. -/
def doRouteTableChange (k : Nat) (d : Dev) : Dev :=
  showAudio ((List.range 128).foldl (fun d n =>
    let x := routeFade d n
    if x.due = [] ∨ (routeDomain d x.due).getD k ≠ k then d
    else
      let d1 := onRoute d n (fun y => { y with due := [] })
      if fg d (AU_RT_ST n) AU_RT_ST_STATE = 2 then showRoute (onRoute d1 n (fun y => { y with pend := x.due })) n 2
      else applyRoute d1 n x.due) d)

/-- The old path of a route stops. -/
def endFade (d : Dev) (n : Nat) : Dev :=
  let ws := (routeFade d n).pend
  let d1 := onRoute d n (fun y => { y with old := [], start := 0, pend := [] })
  let d2 := showRoute d1 n (rtEn (routeWords d n)).toNat
  if ws = [] then d2 else applyRoute d2 n ws

/-- CROSSFADE_END: 5 ms after the change. -/
def doCrossfadeEnd (n : Nat) (d : Dev) : Dev :=
  if fg d (AU_RT_ST n) AU_RT_ST_STATE ≠ 2 then d
  else showAudio (endFade (advance ((routeFade d n).start + 5000000) d) n)

/-! ### Streams (R348 to R351) -/

/-- The frames of a stream's FIFO. -/
def fifoFrames (d : Dev) (x : StreamRun) : Nat := stFifoMs x * domRate d (stDom x) / 1000

/-- The blocks of a stream's FIFO. -/
def fifoBlocks (d : Dev) (x : StreamRun) : Nat := cdiv (stFifoMs x * domRate d (stDom x) * stChans x * 4) (1000 * 4096)

/-- The blocks of a stream go back to the reserve. -/
def giveStream (d : Dev) (s : Nat) : Dev :=
  fs (onStream (skGive d (fun r => decide (r.pool = 2) && decide (r.user = s))) s (fun x => { x with blocks := 0 }))
    (AU_ST s) AU_ST_BLOCKS 0

/-- A stream is STOPPED: its blocks go back, what waited for it completes. -/
def stopStream (d : Dev) (s : Nat) : Dev :=
  let x := streamRun d s
  let d1 := giveStream (setStreamState (onStream d s (fun y => { y with drains := [], stops := [], dropping := false })) s 0) s
  showAudio (auEnds d1 (x.drains ++ x.stops) stOK)

/-- A stream begins to ramp down. -/
def rampDown (d : Dev) (s : Nat) : Dev :=
  showAudio (setStreamState (onStream d s (fun y => { y with rampStart := d.dt })) s 3)

/-- A buffer or record fault (R351). -/
def faultStream (d : Dev) (s cause : Nat) : Dev :=
  let x := streamRun d s
  if streamState d s = 0 then d
  else
    let d1 := onStream d s (fun y => { y with drains := [] })
    let d2 := auEvent (auEnds d1 x.drains stERR_FAULT) x.owner 3 s cause cause
    if streamState d2 s = 3 then d2 else rampDown d2 s

/-- STREAM_FAULT. -/
def doStreamFault (s : Nat) (c : FetchCause) (d : Dev) : Dev :=
  match c with
  | .dmmu t => faultStream d s t.val
  | .ecc => faultStream d s 0x10
  | _ => d

/-- RAMP_DOWN_END: 2 ms after the ramp began. -/
def doRampDownEnd (s : Nat) (d : Dev) : Dev :=
  if streamState d s ≠ 3 then d else stopStream (advance ((streamRun d s).rampStart + 2000000) d) s

/-- The engine reads APPL. -/
def readAppl (d : Dev) (s appl : Nat) : Dev × Option Nat :=
  let x := streamRun d s
  let m := memRead d x.owner midAUDIO (stRec x) 2 { data := [loWord appl, hiWord appl], ecc := false, ats := false }
  match m.2 with
  | .words ws => (onStream m.1 s (fun y => { y with appl := wd64 ws 0 }), some (wd64 ws 0))
  | .fault => (faultStream m.1 s (((fnSt m.1 x.owner).fault).type), none)
  | .ecc => (faultStream m.1 s 0x10, none)

/-- The captured samples of n frames go to the buffer, then HW_POS stands after them. -/
def capture (d : Dev) (s n : Nat) : Dev × Bool :=
  let x := streamRun d s
  let fbytes := stChans x * stBytes x
  let at0 := x.hwPos % max 1 (stFrames x)
  let n1 := min n (stFrames x - at0)
  let w1 := memFree (pagesFuel (n1 * fbytes)) d x.owner midAUDIO (stBase x + at0 * fbytes) (n1 * fbytes)
  if !w1.2 then w1 else memFree (pagesFuel ((n - n1) * fbytes)) w1.1 x.owner midAUDIO (stBase x) ((n - n1) * fbytes)

/-- Frames cross the stream interface: capture data first, then HW_POS and DT in one write. -/
def crossFrames (d : Dev) (s n : Nat) (tell : Bool) : Dev :=
  let x := streamRun d s
  let c := if stDir x = 1 then capture d s n else (d, true)
  let pos := x.hwPos + n
  let d1 := onStream (count c.1 (482 + s) n) s (fun y => { y with hwPos := pos })
  if !c.2 then faultStream d1 s (((fnSt d1 x.owner).fault).type)
  else if !tell then d1
  else
    let w := memWrite d1 x.owner midAUDIO (stRec x + 8) (leBytes 8 pos ++ leBytes 8 d1.dt)
    if w.2 then w.1 else faultStream w.1 s (((fnSt w.1 x.owner).fault).type)

/-- STREAM_PERIOD: a period has crossed, or what is left of a stream that drains. -/
def doStreamPeriod (s appl : Nat) (d : Dev) : Dev :=
  if streamState d s ≠ 1 ∨ bankerLike d then d
  else
    let a := readAppl d s appl
    match a.2 with
    | none => a.1
    | some ap =>
      let x := streamRun a.1 s
      let n := if stDir x = 0 then min (stPeriod x) (ap - x.hwPos) else min (stPeriod x) (ap + stFrames x - x.hwPos)
      let d0 := crossFrames (onStream a.1 s (fun y => { y with dropping := y.dropping && decide (n = 0) })) s n true
      let d1 := linkSend d0 0x09 [1, s, (streamRun d0 s).hwPos]
      let y := streamRun d1 s
      if streamState d1 s = 1 ∧ y.drains ≠ [] ∧ y.hwPos ≥ ap then stopStream d1 s else d1

/-- STREAM_UNDERRUN: the last millisecond is ramped out, and the stream starves. A stream that drains does not. -/
def doStreamUnderrun (s : Nat) (d : Dev) : Dev :=
  let x := streamRun d s
  if streamState d s ≠ 1 ∨ stDir x = 1 ∨ x.drains ≠ [] then d
  else
    let d1 := bump (setStreamState (crossFrames d s (x.appl - x.hwPos) false) s 2) AU_STATUS AU_STATUS_UNDERRUNS
    showAudio (auEvent d1 x.owner 1 s 0 ((streamRun d1 s).hwPos % 2 ^ 32))

/-- STREAM_REFILL: the FIFO is full again. -/
def doStreamRefill (s appl : Nat) (d : Dev) : Dev :=
  if streamState d s ≠ 2 then d
  else
    let a := readAppl d s appl
    match a.2 with
    | none => a.1
    | some ap =>
      if ap - (streamRun a.1 s).hwPos < fifoFrames a.1 (streamRun a.1 s) then a.1
      else showAudio (setStreamState a.1 s 1)

/-- STREAM_OVERRUN: a captured frame finds the buffer full and is dropped and counted; told once for each run of drops. -/
def doStreamOverrun (s : Nat) (d : Dev) : Dev :=
  let x := streamRun d s
  if streamState d s ≠ 1 ∨ stDir x = 0 then d
  else
    let d1 := crossFrames d s (x.appl + stFrames x - x.hwPos) false
    let d2 := bump d1 AU_STATUS AU_STATUS_OVERRUNS
    if x.dropping then d2 else auEvent (onStream d2 s (fun y => { y with dropping := true })) x.owner 2 s 0 1

def asStream (q : Desc) : Nat := bits (at4 q.words 0x10) 4 0

/-- The checks of an AUDIO_STREAM other than CONFIG: only OP and STREAM are defined. -/
def chkStreamOp (d : Dev) (f _r : Nat) (q : Desc) : Option (Nat × Nat) :=
  if !bodyOk q.words [(0x10, 0xF000001F)] then some (stBAD_DESC, 0)
  else if !ptAudio d f (asStream q) then some (stERR_PERM, 0)
  else none

def chkStreamConfig (d : Dev) (f _r : Nat) (q : Desc) : Option (Nat × Nat) :=
  let w := at4 q.words 0x10
  let s := asStream q
  let frames := (at4 q.words 0x20).toNat
  let period := (at4 q.words 0x14).toNat
  if !bodyOk q.words [(0x10, 0xFE1FFF1F), (0x14, full), (0x18, full), (0x1C, full), (0x20, full), (0x28, full), (0x2C, full)] ∨
     bits w 26 25 = 3 ∨ bits w 15 8 = 0 ∨ bits w 15 8 > 32 ∨ frames < 64 ∨ frames > 16777216 ∨ period < 16 ∨ period > frames ∨
     at8 q.words 0x18 % 64 ≠ 0 ∨ at8 q.words 0x28 % 32 ≠ 0 then some (stBAD_DESC, 0)
  else if !ptAudio d f s then some (stERR_PERM, 0)
  else if streamState d s ≠ 0 ∨ (bits w 26 25 ≠ stDom (streamRun d s) ∧ routesName d s) then some (stBAD_DESC, 0)
  else none

/-- CONFIG: the parameters of a stopped stream. -/
def actStreamConfig (f r : Nat) (q : Desc) (d : Dev) : Dev :=
  let s := asStream q
  let w := at4 q.words 0x10
  let d1 := onStream d s (fun x => { x with cfg := atN q.words 0x10 8, hwPos := 0, appl := 0 })
  complete (fs (fs d1 (AU_ST s) AU_ST_DIR (bits w 27 27)) (AU_ST s) AU_ST_DOMAIN (bits w 26 25)) f r q.idx stOK

def doAudioStreamConfig (f r : Nat) (d : Dev) : Dev := startDesc d f r 0x480 [] true chkStreamConfig actStreamConfig

def chkStreamStart (d : Dev) (f r : Nat) (q : Desc) : Option (Nat × Nat) :=
  match chkStreamOp d f r q with
  | some st => some st
  | none =>
    let x := streamRun d (asStream q)
    if streamState d (asStream q) ≠ 0 then none
    else if x.cfg = [] then some (stBAD_DESC, 0)
    else if skUsed d 2 + fifoBlocks d x > skRes d 2 then some (stNO_RESOURCE, 0)
    else none

/-- START: the FIFO is taken from the AUDIO reserve, and the stream runs. -/
def actStreamStart (f r : Nat) (q : Desc) (d : Dev) : Dev :=
  let s := asStream q
  if streamState d s ≠ 0 then complete d f r q.idx stOK 1
  else
    let k := fifoBlocks d (streamRun d s)
    let d1 := onStream (skTakeHigh d 2 k s f) s (fun x => { x with owner := f, blocks := k })
    complete (showAudio (setStreamState (fs d1 (AU_ST s) AU_ST_BLOCKS k) s 1)) f r q.idx stOK

def doAudioStreamStart (f r : Nat) (d : Dev) : Dev := startDesc d f r 0x481 [] true chkStreamStart actStreamStart

/-- STOP: the stream ramps down; it completes when the stream is STOPPED. -/
def actStreamStop (f r : Nat) (q : Desc) (d : Dev) : Dev :=
  let s := asStream q
  if streamState d s = 0 then complete d f r q.idx stOK 1
  else
    let d1 := onStream d s (fun x => { x with stops := x.stops ++ [{ f := f, r := r, idx := q.idx }] })
    if streamState d s = 3 then d1 else rampDown d1 s

def doAudioStreamStop (f r : Nat) (d : Dev) : Dev := startDesc d f r 0x482 [] true chkStreamOp actStreamStop

def chkStreamDrain (d : Dev) (f r : Nat) (q : Desc) : Option (Nat × Nat) :=
  match chkStreamOp d f r q with
  | some st => some st
  | none => if stDir (streamRun d (asStream q)) = 1 then some (stBAD_DESC, 0) else none

/-- DRAIN: the stream stops when HW_POS reaches APPL. -/
def actStreamDrain (f r : Nat) (q : Desc) (d : Dev) : Dev :=
  let s := asStream q
  if streamState d s = 0 then complete d f r q.idx stOK 1
  else
    let d1 := onStream d s (fun x => { x with drains := x.drains ++ [{ f := f, r := r, idx := q.idx }] })
    if streamState d s = 2 then stopStream d1 s else d1

def doAudioStreamDrain (f r : Nat) (d : Dev) : Dev := startDesc d f r 0x483 [] true chkStreamDrain actStreamDrain

/-! ### Chimes (R352, R353) -/

/-- Is a chime's body in range: partials, attack, duck, level, a port with transmit slots? -/
def chimeOk (ws : List Word) : Bool :=
  let freqs := [bits (wd ws 2) 15 0, bits (wd ws 2) 31 16, bits (wd ws 3) 15 0, bits (wd ws 3) 31 16]
  let lev := sext (bits (wd ws 7) 11 0) 12
  bits (wd ws 1) 23 16 == 0 && bits (wd ws 6) 31 16 == 0 && bits (wd ws 7) 31 24 == 0 && bits (wd ws 7) 15 12 == 0 &&
  decide (0x40 ≤ bits (wd ws 1) 31 24) && decide (bits (wd ws 1) 31 24 ≤ 0x45) &&
  freqs.all (fun f => f == 0 || (decide (20 ≤ f) && decide (f ≤ 12000))) &&
  bits (wd ws 6) 15 8 != 0 && decide (bits (wd ws 7) 23 16 ≤ 60) && gainOk lev && decide (lev ≤ 0)

/-- One envelope of a chime in ns: ON, the fall, OFF. -/
def chimePeriod (ws : List Word) : Nat :=
  (bits (wd ws 5) 15 0 + bits (wd ws 6) 15 8 + bits (wd ws 5) 31 16) * 1000000

/-- The repeats that a chime has played. -/
def chimePlayed (d : Dev) (x : ChimeRun) : Nat :=
  let n := (d.dt - x.start) / max 1 (chimePeriod x.words)
  let rep := bits (wd x.words 6) 7 0
  if rep = 0 then n else min n rep

/-- By how much the program on a transmit slot of a port is attenuated, in dB: the largest DUCK of the chimes that sound on it (R352). -/
def duckAt (d : Dev) (id slot : Nat) : Nat :=
  ((List.range 4).map (fun g =>
    let x := chimeRun d g
    if x.on && bits (wd x.words 1) 31 24 == id && bit (wd x.words 1) slot then bits (wd x.words 7) 23 16 else 0)).foldl max 0

/-- The slots of a port whose attenuation a change of the chimes changes ramp to it over 10 ms. -/
def tellDuck (was d : Dev) (id : Nat) : Dev :=
  ((List.range 16).filter (fun s => duckAt was id s != duckAt d id s)).foldl (fun e s =>
    emit e (.sound 5 (16 * id + s) (duckAt d id s) 10000000)) d

/-- A chime stops sounding; its START completes with the repeats played. -/
def endChime (d : Dev) (g : Nat) : Dev :=
  let x := chimeRun d g
  if !x.on then d
  else
    let d0 := tellDuck d (onChime d g (fun _ => default)) (bits (wd x.words 1) 31 24)
    let d1 := showChimes (emit d0 (.sound 3 g 0 (bits (wd x.words 1) 31 0)))
    match x.wait with
    | some w => auEnd d1 w stOK (chimePlayed d x)
    | none => d1

/-- A chime starts. -/
def startChime (d : Dev) (g : Nat) (ws : List Word) (wait : Option AuWait) : Dev :=
  let d1 := endChime d g
  let d2 := onChime (emit d1 (.sound 3 g 1 (bits (wd ws 1) 31 0))) g (fun _ => { on := true, words := ws, start := d1.dt, wait := wait })
  showChimes (tellDuck d1 d2 (bits (wd ws 1) 31 24))

/-- CHIME_END: after REPEAT envelopes. -/
def doChimeEnd (g : Nat) (d : Dev) : Dev :=
  let x := chimeRun d g
  let rep := bits (wd x.words 6) 7 0
  if !x.on ∨ rep = 0 then d else endChime (advance (x.start + rep * chimePeriod x.words) d) g

/-- The bits of word j of AU_CHIME_g that the body of AUDIO_CHIME defines (R355); the rest are reserved (R15). -/
def chimeMask (j : Nat) : Word := [0xF0000003, 0xFF00FFFF, 0xFFFFFFFF, 0xFFFFFFFF, 0xFFFFFFFF, 0xFFFFFFFF, 0x0000FFFF, 0x00FF0FFF].getD j 0

/-- A write of AU_CHIME_g. CH0 and CH1 are the island's. Word 0 acts on its OP; its other words say what sounds. -/
def chimeWrite (a : Acc) (g j : Nat) (v : Word) (d : Dev) : Dev :=
  let bad (w : Word) : Option Nat :=
    if g < 2 ∧ a.mid.toNat ≠ midSI ∧ a.mid.toNat ≠ midPAIR then some ecCONFLICT
    else if j = 0 ∧ bits w 31 28 ≥ 2 then some ecRESERVED_ENCODING
    else if j = 0 ∧ bits w 31 28 = 0 ∧ !chimeOk (w :: rds d (AU_CHIME g 1) 7) then some ecOUT_OF_RANGE
    else none
  let w := guardWrite a (AU_CHIME g j) (v &&& chimeMask j) bad d
  match w.2 with
  | .done n =>
    if j ≠ 0 then w.1
    else if bits n 31 28 = 0 then startChime w.1 g (rds w.1 (AU_CHIME g 0) 8) none
    else endChime w.1 g
  | _ => w.1

/-- SAFETY_CHIME_START: a write of word 0 with OP START. -/
def doSafetyChimeStart (a : Acc) (g : Nat) (v : Word) (d : Dev) : Dev := chimeWrite a g 0 (putBits v 31 28 0) d

/-- SAFETY_CHIME_STOP: a write of word 0 with OP STOP. -/
def doSafetyChimeStop (a : Acc) (g : Nat) (v : Word) (d : Dev) : Dev := chimeWrite a g 0 (putBits v 31 28 1) d

/-- The checks of AUDIO_CHIME; CH0 and CH1 are not F0's (R353). -/
def chkAudioChime (start : Bool) (_d : Dev) (f _r : Nat) (q : Desc) : Option (Nat × Nat) :=
  let m := (0x10, 0xF0000003)
  let ws := atN q.words 0x10 8
  if (start ∧ (!bodyOk q.words (m :: (List.range 7).map (fun j => (0x14 + 4 * j, full))) ∨ !chimeOk ws)) ∨
     (!start ∧ !bodyOk q.words [m]) then some (stBAD_DESC, 0)
  else if f ≠ 0 ∨ bits (at4 q.words 0x10) 1 0 < 2 then some (stERR_PERM, 0)
  else none

/-- AUDIO_CHIME START; the generator's registers take its words. -/
def actChimeStart (f r : Nat) (q : Desc) (d : Dev) : Dev :=
  let g := bits (at4 q.words 0x10) 1 0
  let ws := atN q.words 0x10 8
  startChime (wrs d (AU_CHIME g 0) ws) g ws (some { f := f, r := r, idx := q.idx })

def doAudioChimeStart (f r : Nat) (d : Dev) : Dev := startDesc d f r 0x4C0 [] true (chkAudioChime true) actChimeStart

/-- AUDIO_CHIME STOP completes at once. -/
def actChimeStop (f r : Nat) (q : Desc) (d : Dev) : Dev :=
  complete (endChime d (bits (at4 q.words 0x10) 1 0)) f r q.idx stOK

def doAudioChimeStop (f r : Nat) (d : Dev) : Dev := startDesc d f r 0x4C1 [] true (chkAudioChime false) actChimeStop

/-! ### Departures, quiesce and resets (R351, R357) -/

/-- Stream Ss ramps out without completions: its owner departs or loses it. -/
def dropStream (d : Dev) (s : Nat) : Dev :=
  let d1 := onStream d s (fun x => { x with drains := [], stops := [] })
  if streamState d1 s = 1 ∨ streamState d1 s = 2 ∨ streamState d1 s = 4 then rampDown d1 s else d1

/-- The streams of a function that run; departure stops them. -/
def runningStreams (d : Dev) (f : Nat) : List Nat :=
  (List.range 32).filter (fun s => decide (streamState d s ≠ 0) && decide ((streamRun d s).owner = f))

/-- The streams of a function that departs ramp to silence, and AU_ST_s of those it owns shows no direction and domain (R18, R351). -/
def audioDepart (d : Dev) (f : Nat) : Dev :=
  ((List.range 32).filter (fun s => decide ((streamRun d s).owner = f))).foldl (fun d s =>
    fs (fs d (AU_ST s) AU_ST_DIR 0) (AU_ST s) AU_ST_DOMAIN 0) ((runningStreams d f).foldl dropStream d)

/-- QUIESCE pauses the streams of a function, RESUME lets them run. -/
def pauseStreams (d : Dev) (f : Nat) : Dev :=
  showAudio ((runningStreams d f).foldl (fun d s =>
    if streamState d s = 1 ∨ streamState d s = 2 then setStreamState d s 4 else d) d)

def resumeStreams (d : Dev) (f : Nat) : Dev :=
  showAudio ((runningStreams d f).foldl (fun d s => if streamState d s = 4 then setStreamState d s 1 else d) d)

/-- A section reset (MEDIA): streams ramp down (`showStreams`), descriptors end with ERR_DOWN, crossfades end on their new paths. -/
def audioSection (d : Dev) : Dev :=
  let d1 := (List.range 32).foldl (fun d s =>
    let x := streamRun d s
    let d1 := onStream d s (fun y => { y with drains := [], stops := [], dropping := false })
    auEnds (if streamState d1 s = 0 ∨ streamState d1 s = 3 then d1 else rampDown d1 s) (x.drains ++ x.stops) stERR_DOWN) d
  let d2 := (List.range 128).foldl (fun d n =>
    if fg d (AU_RT_ST n) AU_RT_ST_STATE = 2 then endFade d n else d) d1
  let d3 := [2, 3].foldl (fun d g =>
    let x := chimeRun d g
    auEnds (tellDuck d (onChime d g (fun _ => default)) (bits (wd x.words 1) 31 24)) x.wait.toList stERR_DOWN) d2
  let ramps := d3.audio.ramps
  let d4 := ramps.foldl (fun d p => auEnds d p.2.wait.toList stERR_DOWN) (onAudio d3 (fun a => { a with ramps := [] }))
  ramps.foldl (fun d p => showGain (onAudio d (fun a => { a with gains := SMap.set a.gains p.1 p.2.to0 })) p.1) d4

/-- The streams after a section reset: one that holds blocks still ramps to silence and becomes STOPPED at RAMP_DOWN_END. -/
def showStreams (d : Dev) : Dev :=
  (List.range 32).foldl (fun d s =>
    let x := streamRun d s
    if x.blocks = 0 then d else fs (setStreamState d s 3) (AU_ST s) AU_ST_BLOCKS x.blocks) d

/-- A domain reset of PD14: as a section reset, and everything else of the engine is at reset but the island's chimes. -/
def audioDown (d : Dev) : Dev :=
  let d1 := (List.range 32).foldl giveStream (audioSection d)
  onAudio d1 (fun a => { (default : Audio) with chimes := a.chimes.filter (fun p => decide (p.1 < 2)) })

/-- The engine returns after a reset: a safety chime that the island holds active sounds again. -/
def audioReturn (d : Dev) : Dev := showAudio d

/-! ### The commands -/

/-- CLOCK_LOSS (R332). -/
def execClockLoss (k : Fin 2) (s : State) : Host.Outcome State Fault Refusal :=
  .next { s with dev := doClockLoss k.val s.dev }

/-- AUDIO_STREAM CONFIG (R355). -/
def execAudioStreamConfig (f : Fn) (r : Ring) (s : State) : Host.Outcome State Fault Refusal :=
  .next { s with dev := doAudioStreamConfig f.val r.val s.dev }

/-- AUDIO_STREAM START (R348). -/
def execAudioStreamStart (f : Fn) (r : Ring) (s : State) : Host.Outcome State Fault Refusal :=
  .next { s with dev := doAudioStreamStart f.val r.val s.dev }

/-- AUDIO_STREAM STOP (R351). -/
def execAudioStreamStop (f : Fn) (r : Ring) (s : State) : Host.Outcome State Fault Refusal :=
  .next { s with dev := doAudioStreamStop f.val r.val s.dev }

/-- AUDIO_STREAM DRAIN (R351). -/
def execAudioStreamDrain (f : Fn) (r : Ring) (s : State) : Host.Outcome State Fault Refusal :=
  .next { s with dev := doAudioStreamDrain f.val r.val s.dev }

/-- AUDIO_ROUTE (R345). -/
def execAudioRoute (f : Fn) (r : Ring) (s : State) : Host.Outcome State Fault Refusal :=
  .next { s with dev := doAudioRoute f.val r.val s.dev }

/-- AUDIO_GAIN (R343). -/
def execAudioGain (f : Fn) (r : Ring) (s : State) : Host.Outcome State Fault Refusal :=
  .next { s with dev := doAudioGain f.val r.val s.dev }

/-- AUDIO_COEF (R344). -/
def execAudioCoef (f : Fn) (r : Ring) (m : MemIn) (s : State) : Host.Outcome State Fault Refusal :=
  .next { s with dev := doAudioCoef f.val r.val m s.dev }

/-- AUDIO_CHIME START (R352). -/
def execAudioChimeStart (f : Fn) (r : Ring) (s : State) : Host.Outcome State Fault Refusal :=
  .next { s with dev := doAudioChimeStart f.val r.val s.dev }

/-- AUDIO_CHIME STOP (R355). -/
def execAudioChimeStop (f : Fn) (r : Ring) (s : State) : Host.Outcome State Fault Refusal :=
  .next { s with dev := doAudioChimeStop f.val r.val s.dev }

/-- SAFETY_CHIME_START (R353). -/
def execSafetyChimeStart (acc : Acc) (g : Fin 4) (v : Word) (s : State) : Host.Outcome State Fault Refusal :=
  .next { s with dev := doSafetyChimeStart acc g.val v s.dev }

/-- SAFETY_CHIME_STOP (R353). -/
def execSafetyChimeStop (acc : Acc) (g : Fin 4) (v : Word) (s : State) : Host.Outcome State Fault Refusal :=
  .next { s with dev := doSafetyChimeStop acc g.val v s.dev }

/-- CHIME_END (R352). -/
def execChimeEnd (g : Fin 4) (s : State) : Host.Outcome State Fault Refusal :=
  .next { s with dev := doChimeEnd g.val s.dev }

/-- ROUTE_TABLE_CHANGE (R346). -/
def execRouteTableChange (k : Fin 3) (s : State) : Host.Outcome State Fault Refusal :=
  .next { s with dev := doRouteTableChange k.val s.dev }

/-- CROSSFADE_END (R347). -/
def execCrossfadeEnd (n : Fin 128) (s : State) : Host.Outcome State Fault Refusal :=
  .next { s with dev := doCrossfadeEnd n.val s.dev }

/-- GAIN_RAMP_END (R343). -/
def execGainRampEnd (target : Fin 3) (index : Fin 128) (s : State) : Host.Outcome State Fault Refusal :=
  .next { s with dev := doGainRampEnd target.val index.val s.dev }

/-- EQ_SECTION_MOVE (R344). -/
def execEqSectionMove (acc : Acc) (m : Fin 16) (k : Fin 8) (v : Word) (s : State) : Host.Outcome State Fault Refusal :=
  .next { s with dev := doEqSectionMove acc m.val k.val v s.dev }

/-- STREAM_PERIOD (R349). -/
def execStreamPeriod (st : Stream) (appl : Nat) (s : State) : Host.Outcome State Fault Refusal :=
  .next { s with dev := doStreamPeriod st.val appl s.dev }

/-- STREAM_UNDERRUN (R350). -/
def execStreamUnderrun (st : Stream) (s : State) : Host.Outcome State Fault Refusal :=
  .next { s with dev := doStreamUnderrun st.val s.dev }

/-- STREAM_REFILL (R350). -/
def execStreamRefill (st : Stream) (appl : Nat) (s : State) : Host.Outcome State Fault Refusal :=
  .next { s with dev := doStreamRefill st.val appl s.dev }

/-- STREAM_OVERRUN (R350). -/
def execStreamOverrun (st : Stream) (s : State) : Host.Outcome State Fault Refusal :=
  .next { s with dev := doStreamOverrun st.val s.dev }

/-- STREAM_FAULT (R351). -/
def execStreamFault (st : Stream) (cause : FetchCause) (s : State) : Host.Outcome State Fault Refusal :=
  .next { s with dev := doStreamFault st.val cause s.dev }

/-- RAMP_DOWN_END (R351). -/
def execRampDownEnd (st : Stream) (s : State) : Host.Outcome State Fault Refusal :=
  .next { s with dev := doRampDownEnd st.val s.dev }

/-- BRIDGE_LOCK (R342). -/
def execBridgeLock (b : Fin 8) (s : State) : Host.Outcome State Fault Refusal :=
  .next { s with dev := doBridgeLock b.val s.dev }

/-- BRIDGE_UNLOCK (R342). -/
def execBridgeUnlock (b : Fin 8) (ppm : Int) (s : State) : Host.Outcome State Fault Refusal :=
  .next { s with dev := doBridgeUnlock b.val ppm s.dev }

/-- PORT_FRAME_ERROR (R334). -/
def execPortFrameError (p : Fin 10) (s : State) : Host.Outcome State Fault Refusal :=
  .next { s with dev := doPortFrameError p.val s.dev }

end Sys2Proof.Machine
end

