-- ==== Sys2Proof/Machine/BellsTokens.lean ====
section
/-! DEFINITION. Bells and tokens (R358 to R376). -/

namespace Sys2Proof.Machine

/-! ### Channels and bindings (R358 to R361, R365) -/

def bellChan (d : Dev) (c : Nat) : BellChan := SMap.get d.bells.chans c

def onBell (d : Dev) (c : Nat) (g : BellChan → BellChan) : Dev :=
  { d with bells := { d.bells with chans := SMap.mod d.bells.chans c g } }

/-- The binding of a channel. -/
def bellEn (d : Dev) (c : Nat) : Bool := fb d (BL_BIND c) BL_BIND_EN
def bellHold (d : Dev) (c : Nat) : Bool := fb d (BL_BIND c) BL_BIND_HOLD
def bellSender (d : Dev) (c : Nat) : Nat := fg d (BL_BIND c) BL_BIND_SENDER
def bellReceiver (d : Dev) (c : Nat) : Nat := fg d (BL_BIND c) BL_BIND_RECEIVER

/-- The role of a master on a channel: 0 none, 1 sender, 2 receiver. -/
def bellRole (d : Dev) (mid c : Nat) : Nat :=
  if !bellEn d c then 0 else if bellSender d c = mid then 1 else if bellReceiver d c = mid then 2 else 0

/-- The domain of a master that receives. -/
def midDomain (mid : Nat) : Nat := if mid < 32 then 6 else if mid < 0x24 then 3 else if mid = 0x24 then 1 else 2

/-- Is a receiver powered down? -/
def receiverDown (d : Dev) (mid : Nat) : Bool := !domUp d (midDomain mid)

/-- BL_STATUS.HELD. -/
def showBells (d : Dev) : Dev :=
  fs d BL_STATUS BL_STATUS_HELD (sat ((d.bells.chans.map (fun p => (p.2.msgs.filter (fun m => m.waits)).length)).sum) 255)

/-! ### Doorbells (R369, R371) -/

def dbPend (d : Dev) (mid : Nat) : Nat := SMap.get d.bells.pend mid
def dbMask (d : Dev) (mid : Nat) : Nat := SMap.get d.bells.mask mid

/-- The doorbells of a master that are rung and not masked. -/
def dbLive (d : Dev) (mid : Nat) : Nat := dbPend d mid - (dbPend d mid &&& dbMask d mid)

/-- Doorbell state changes: DOORBELL for each bit that rises at a function; the line of an on-chip master follows. -/
def setDoorbells (d : Dev) (mid pend mask : Nat) : Dev :=
  let was := dbLive d mid
  let d1 := { d with bells := { d.bells with pend := SMap.set d.bells.pend mid pend, mask := SMap.set d.bells.mask mid mask } }
  let now := dbLive d1 mid
  if mid < 32 then
    ((List.range 32).filter (fun b => hasBit now b && !hasBit was b)).foldl (fun d b =>
      post d mid clBELL 1 0x20 (pb 0 b + pw32 4 pend)) d1
  else if (was = 0) ≠ (now = 0) then emit d1 (.panel 21 mid (decide (now ≠ 0)).toNat)
  else d1

/-- A doorbell is rung. -/
def ring (d : Dev) (mid b : Nat) : Dev := setDoorbells d mid (dbPend d mid ||| 2 ^ b) (dbMask d mid)

/-- A notification to the sender of a channel: an event for a function, a flag and a doorbell for an on-chip master. -/
def tellSender (d : Dev) (c code byte1 v : Nat) (flag : BellChan → BellChan) : Dev :=
  let s := bellSender d c
  if s < 32 then post d s clBELL code (bellReceiver d c) (pb 0 c + pb 1 byte1 + pw32 4 v)
  else ring (onBell d c flag) s (fg d (BL_BIND c) BL_BIND_SBIT)

/-! ### Discarding messages (R367, R370) -/

/-- The unread messages of a channel are discarded; the sender hears of those of its current epoch, as `unknown` or counted. -/
def discardMsgs (d : Dev) (c : Nat) (unknown : Bool) : Dev :=
  let x := bellChan d c
  let mine := x.msgs.filter (fun m => decide (m.epoch = x.sendEpoch))
  let d1 := showBells (onBell d c (fun y => { y with msgs := [] }))
  match mine with
  | [] => d1
  | m :: ms =>
    let n := if unknown then 0xFF else mine.length
    let last := ((m :: ms).getLastD m).seq
    tellSender d1 c 2 n (m.seq + last * 65536) (fun y => { y with undeliv := true, undCount := n, undSeq := m.seq })

/-- An epoch advances. -/
def nextEpoch (e : Nat) : Nat := (e + 1) % 256

/-- A receiver reset on a channel. -/
def receiverReset (d : Dev) (c : Nat) : Dev :=
  let d1 := discardMsgs d c false
  let d2 := onBell d1 c (fun y => { y with recvEpoch := nextEpoch y.recvEpoch })
  setDoorbells d2 (bellReceiver d c) 0 0

/-- A sender reset on a channel. -/
def senderReset (d : Dev) (c : Nat) : Dev :=
  onBell d c (fun y => { y with sendEpoch := nextEpoch y.sendEpoch, stage := [], status := 0, lastSeq := 0 })

/-! ### BL_BIND_c (R358 to R360) -/

/-- Why a word may not be written into a binding, as a cause. -/
def bindBad (d : Dev) (mid c : Nat) (w : Word) : Option Nat :=
  let old := rd d (BL_BIND c)
  if mid ≠ 0 ∧ mid ≠ midPAIR then some ecNOT_PERMITTED
  else if bits w 11 6 > 0x25 ∨ bits w 5 0 > 0x25 ∨ bits w 11 6 = bits w 5 0 ∨
    (bit old 31 ∧ bits w 30 0 ≠ bits old 30 0) ∨ (bit w 31 ∧ !bit old 31 ∧ skUsed d 3 ≥ skRes d 3) then some ecCONFLICT
  else none

/-- A channel is enabled: it takes a block, starts empty, and both epochs advance. -/
def enableBell (d : Dev) (c : Nat) : Dev :=
  onBell (skTakeHigh d 3 1 c 0) c (fun y =>
    { (default : BellChan) with sendEpoch := nextEpoch y.sendEpoch, recvEpoch := nextEpoch y.recvEpoch })

/-- BELL_BIND_WRITE. -/
def doBellBindWrite (a : Acc) (c : Nat) (v : Word) (d : Dev) : Dev :=
  let was := bellEn d c
  let w := guardWrite a (BL_BIND c) v (bindBad d a.mid.toNat c) d
  match w.2 with
  | .done n =>
    if bit n 31 ∧ !was then enableBell w.1 c
    else if !bit n 31 ∧ was then skGive (receiverReset w.1 c) (fun r => decide (r.pool = 3) && decide (r.user = c))
    else w.1
  | _ => w.1

/-! ### The window of a master (R361, R366) -/

/-- May a window access be made: PD3 is up, or it is a post to a HOLD channel? What is refused starts to wake PD3. -/
def bellServed (d : Dev) (holdPost : Bool) : Dev × Bool :=
  if domUp d 3 ∨ holdPost then (d, true) else (startWake d 3, false)

/-- An access to a window of the powered-down control section completes with ERR_DOWN, a Completer Abort on PCIe (R366). -/
def bellDown (d : Dev) (mid : Nat) : Dev := emit d (.panel 22 mid stERR_DOWN)

/-- Does a master reach its window: F0, an existing VF, or an on-chip master? -/
def windowThere (d : Dev) (mid : Nat) : Bool := decide (mid ≥ 32) || fnExists d mid

/-- A write by a master into the view of channel c where it must have a role; a register of the window is 32 bits (R12). -/
def viewWrite (a : Acc) (c role : Nat) (off : Nat) (v : Word) (d0 : Dev) : Dev × Bool :=
  let mid := a.mid.toNat
  let sv := bellServed d0 (bellHold d0 c && decide (off = 0x18))
  let d := sv.1
  if !windowThere d mid then (d, false)
  else if !sv.2 then (bellDown d mid, false)
  else if bellRole d mid c = 0 then (logErr d ecNOT_PERMITTED mid (0x1000 + 32 * c + off) v a.secure, false)
  else if a.be ≠ 0xF then (logErr d ecPARTIAL_WRITE mid (0x1000 + 32 * c + off) v a.secure, false)
  else (d, decide (bellRole d mid c = role))

/-- A write of staging word k of the sender view. -/
def bellStage (a : Acc) (c k : Nat) (v : Word) (d : Dev) : Dev :=
  let w := viewWrite a c 1 (4 * k) v d
  if w.2 then onBell w.1 c (fun x => { x with stage := SMap.set x.stage k v }) else w.1

/-- The status of a post (R362). -/
def postStatus (d : Dev) (c : Nat) (v : Word) : Nat :=
  if bits v 31 3 ≠ 0 ∨ bits v 2 0 > 6 then stBAD_DESC
  else if receiverDown d (bellReceiver d c) ∧ !bellHold d c then stERR_DOWN
  else if (bellChan d c).msgs.length ≥ fg d (BL_BIND c) BL_BIND_DEPTH + 1 then stNO_RESOURCE
  else stOK

/-- An accepted message is queued, and its doorbell rings unless it waits (R364, R366). -/
def queueMsg (d : Dev) (c len : Nat) : Dev :=
  let rx := bellReceiver d c
  let wait := receiverDown d rx
  let d1 := onBell (count d (514 + c)) c (fun x =>
    let m : BellMsg := { words := (List.range len).map (SMap.get x.stage), seq := x.seq, epoch := x.sendEpoch, waits := wait }
    { x with msgs := x.msgs ++ [m], seq := (x.seq + 1) % 65536, lastSeq := x.seq, status := stOK, emptied := false,
             undeliv := false })
  if wait then showBells d1 else ring d1 rx (fg d (BL_BIND c) BL_BIND_BIT)

/-- A refused post: its status shows, the status register counts it, and an on-chip sender gets the error response. -/
def refusePost (d : Dev) (mid c st : Nat) : Dev :=
  let fld := if st = stBAD_DESC then BL_STATUS_BAD else if st = stERR_DOWN then BL_STATUS_DOWN else BL_STATUS_FULL
  let d1 := bump (onBell d c (fun x => { x with status := st })) BL_STATUS fld
  if mid < 32 then d1 else emit d1 (.panel 22 mid st)

/-- BELL_POST: a write of POST in the sender view. -/
def doBellPost (a : Acc) (c : Nat) (v : Word) (d : Dev) : Dev :=
  let w := viewWrite a c 1 0x18 v d
  if !w.2 then w.1
  else
    let st := postStatus w.1 c v
    if st = stOK then queueMsg w.1 c (bits v 2 0) else refusePost w.1 a.mid.toNat c st

/-- The messages that a receiver sees. -/
def seenMsgs (d : Dev) (c : Nat) : List BellMsg := (bellChan d c).msgs.filter (fun m => !m.waits)

/-- BELL_POP: a write of POP in the receiver view. -/
def doBellPop (a : Acc) (c : Nat) (v : Word) (d : Dev) : Dev :=
  let w := viewWrite a c 2 0x1C v d
  if !w.2 ∨ !bit v 0 then w.1
  else
    match seenMsgs w.1 c with
    | [] => w.1
    | m :: _ =>
      let d1 := onBell w.1 c (fun x => { x with msgs := x.msgs.tail })
      if (bellChan d1 c).msgs = [] ∧ fb d1 (BL_BIND c) BL_BIND_NOTE_EMPTY ∧ m.epoch = (bellChan d1 c).sendEpoch then
        tellSender d1 c 3 0 m.seq (fun x => { x with emptied := true })
      else d1

/-- A write to a doorbell register of a master's window. -/
def dbWrite (a : Acc) (off : Nat) (v : Word) (d0 : Dev) : Dev × Bool :=
  let sv := bellServed d0 false
  if !windowThere sv.1 a.mid.toNat then (sv.1, false)
  else if !sv.2 then (bellDown sv.1 a.mid.toNat, false)
  else if a.be ≠ 0xF then (logErr sv.1 ecPARTIAL_WRITE a.mid.toNat off v a.secure, false)
  else (sv.1, true)

/-- DOORBELL_CLEAR: W1C. -/
def doDoorbellClear (a : Acc) (v : Word) (d : Dev) : Dev :=
  let w := dbWrite a 0x1800 v d
  let mid := a.mid.toNat
  if w.2 then setDoorbells w.1 mid (dbPend w.1 mid - (dbPend w.1 mid &&& v.toNat)) (dbMask w.1 mid) else w.1

/-- DOORBELL_MASK_WRITE. -/
def doDoorbellMaskWrite (a : Acc) (v : Word) (d : Dev) : Dev :=
  let w := dbWrite a 0x1804 v d
  let mid := a.mid.toNat
  if w.2 then setDoorbells w.1 mid (dbPend w.1 mid) v.toNat else w.1

/-- A receiver's domain reaches RUN: what waited becomes visible together (R366). -/
def bellWake (d : Dev) (dom : Nat) : Dev :=
  showBells ((List.range 64).foldl (fun d c =>
    if bellEn d c ∧ midDomain (bellReceiver d c) = dom ∧ (bellChan d c).msgs.any (fun m => m.waits) then
      ring (onBell d c (fun x => { x with msgs := x.msgs.map (fun m => { m with waits := false }) })) (bellReceiver d c)
        (fg d (BL_BIND c) BL_BIND_BIT)
    else d) d)

/-! ### What the window shows -/

/-- A word of the view of channel c, by its offset in the view. -/
def viewWord (d : Dev) (mid c off : Nat) : Word :=
  let x := bellChan d c
  match bellRole d mid c with
  | 1 =>
    if off < 0x18 then SMap.get x.stage (off / 4)
    else if off = 0x1C then BitVec.ofNat 32 (x.status * 2 ^ 24 + x.lastSeq)
    else 0
  | 2 =>
    match seenMsgs d c with
    | [] => 0
    | m :: _ =>
      if off < 0x18 then wd m.words (off / 4)
      else if off = 0x18 then
        BitVec.ofNat 32 (2 ^ 31 + (decide (m.epoch ≠ x.sendEpoch)).toNat * 2 ^ 30 + m.words.length * 2 ^ 27 + m.epoch * 2 ^ 16 + m.seq)
      else 0
  | _ => 0

/-- BL_CHAN_STAT of a channel for a master. -/
def chanStat (d : Dev) (mid c : Nat) : Word :=
  let x := bellChan d c
  let r := bellRole d mid c
  if r = 0 then 0
  else
    let tx (n : Nat) : Nat := if r = 1 then n else 0
    BitVec.ofNat 32 (r * 2 ^ 30 + (bellHold d c).toNat * 2 ^ 29 + (receiverDown d (bellReceiver d c)).toNat * 2 ^ 28 +
      tx (x.emptied.toNat * 2 ^ 27) + tx (x.undeliv.toNat * 2 ^ 26) + x.msgs.length * 2 ^ 16 + tx (x.undCount * 2 ^ 8))

/-- BL_CHAN_EPOCH of a channel for a master. -/
def chanEpoch (d : Dev) (mid c : Nat) : Word :=
  let x := bellChan d c
  let r := bellRole d mid c
  if r = 0 then 0 else BitVec.ofNat 32 (x.sendEpoch * 2 ^ 24 + x.recvEpoch * 2 ^ 16 + (if r = 1 then x.undSeq else 0))

/-- What a master reads at a page offset of its bell window, tokens apart; none where nothing lies. -/
def bellWindow (d : Dev) (mid off : Nat) : Option Word :=
  if 0x1000 ≤ off ∧ off < 0x1800 then some (viewWord d mid ((off - 0x1000) / 32) (off % 32))
  else if off = 0x1800 then some (BitVec.ofNat 32 (dbPend d mid))
  else if off = 0x1804 then some (BitVec.ofNat 32 (dbMask d mid))
  else if 0x1900 ≤ off ∧ off < 0x1A00 then some (chanStat d mid ((off - 0x1900) / 4))
  else if 0x1A00 ≤ off ∧ off < 0x1B00 then some (chanEpoch d mid ((off - 0x1A00) / 4))
  else none

/-! ### Tokens (R372 to R375) -/

def tok (d : Dev) (t : Nat) : TokRun := SMap.get d.bells.toks t

/-- TK_STATUS.HELD. -/
def showToks (d : Dev) : Dev := fs d TK_STATUS TK_STATUS_HELD ((d.bells.toks.filter (fun p => p.2.holder.isSome)).length)

def onTok (d : Dev) (t : Nat) (g : TokRun → TokRun) : Dev :=
  showToks { d with bells := { d.bells with toks := SMap.mod d.bells.toks t g } }

/-- A bit of the TK_BROKEN bitmap. -/
def setBroken (d : Dev) (t v : Nat) : Dev := fs d (TK_BROKEN (t / 32)) (t % 32, t % 32) v

/-- May a master use a token (R374)? -/
def mayToken (d : Dev) (mid t : Nat) : Bool :=
  if mid < 32 then hasBit (rd d (TK_ALLOW_FN t)).toNat mid
  else decide (mid ≤ 0x25) && hasBit (fg d (TK_ALLOW_CORE t) TK_ALLOW_CORE_CORE) (mid - 32)

/-- The offset of a token in F0's window. -/
def tokOff (t : Nat) : Nat := 0x142000 + 4 * t

/-- What a held token reads as. -/
def heldWord (mid : Nat) : Word := BitVec.ofNat 32 (2 ^ 31 + mid)

/-- One read of a token. -/
def tokenRead (t : Nat) (d : Dev) (a : Acc) : Dev :=
  let mid := a.mid.toNat
  let h := (tok d t).holder
  if a.be ≠ 0xF then
    emit d (.readData mid (tokOff t) (maskBytes a.be (match h with
      | some m => heldWord m
      | none => 0xFFFFFFFF)))
  else if !mayToken d mid t then
    emit (logErr (bump d TK_STATUS TK_STATUS_DENIED) ecNOT_PERMITTED mid (tokOff t) 0 a.secure) (.readData mid (tokOff t) 0x40000000)
  else
    match h with
    | some m => emit d (.readData mid (tokOff t) (heldWord m))
    | none => emit (onTok d t (fun x => { x with holder := some mid })) (.readData mid (tokOff t) 0)

/-- The distance of a MID from a pointer, ascending and wrapping from 0xFF to 0x00. -/
def fromPtr (ptr mid : Nat) : Nat := (mid + 256 - ptr % 256) % 256

/-- Readers in rotating priority. -/
def insertReader (ptr : Nat) (a : Acc) : List Acc → List Acc
  | [] => [a]
  | b :: bs => if fromPtr ptr a.mid.toNat < fromPtr ptr b.mid.toNat then a :: b :: bs else b :: insertReader ptr a bs

/-- Does a read contend for the token: a full one, by a permitted master? -/
def contends (d : Dev) (t : Nat) (a : Acc) : Bool := decide (a.be = 0xF) && mayToken d a.mid.toNat t

/-- TOKEN_ACQUIRE: the reads of one token on one fabric edge, in rotating priority. -/
def doTokenAcquire (t : Nat) (readers : List Acc) (d0 : Dev) : Dev :=
  let sv := bellServed d0 false
  let d := sv.1
  if !sv.2 then readers.foldl (fun e a => bellDown e a.mid.toNat) d
  else
    let rs := (readers.filter (fun a => windowThere d a.mid.toNat)).foldl (fun l a => insertReader (tok d t).ptr a l) []
    let cs := rs.filter (contends d t)
    let d1 :=
      match cs with
      | first :: _ :: _ => onTok (bump d TK_STATUS TK_STATUS_CONTESTED) t (fun x => { x with ptr := (first.mid.toNat + 1) % 256 })
      | _ => d
    rs.foldl (tokenRead t) d1

/-- TOKEN_RELEASE: any write by the holder. -/
def doTokenRelease (a : Acc) (t : Nat) (v : Word) (d : Dev) : Dev :=
  let w := dbWrite a (tokOff t) v d
  if !w.2 then w.1
  else if (tok w.1 t).holder = some a.mid.toNat then setBroken (onTok w.1 t (fun x => { x with holder := none })) t 0
  else bump w.1 TK_STATUS TK_STATUS_FOREIGN

/-- The tokens of a master that departs or is reset are released, BROKEN (R375). -/
def breakTokens (d : Dev) (mid : Nat) : Dev :=
  ((List.range 128).filter (fun t => decide ((tok d t).holder = some mid))).foldl (fun d t =>
    post (setBroken (onTok d t (fun x => { x with holder := none })) t 1) 0 clBELL 4 mid (pb 0 t)) d

/-- How many tokens a master holds. -/
def tokensOf (d : Dev) (mid : Nat) : Nat := (d.bells.toks.filter (fun p => decide (p.2.holder = some mid))).length

/-! ### Resets (R367, R370) -/

/-- A function reset: its channels as receiver, then as sender, and its doorbells. -/
def bellFnReset (d : Dev) (f : Nat) : Dev :=
  let d1 := ((List.range 64).filter (fun c => bellEn d c && decide (bellReceiver d c = f))).foldl receiverReset d
  let d2 := ((List.range 64).filter (fun c => bellEn d1 c && decide (bellSender d1 c = f))).foldl senderReset d1
  setDoorbells d2 f 0 0

/-- Warm reset: channels empty, epochs, counters, doorbells and tokens at reset, without notifications. -/
def bellWarm (d : Dev) : Dev := { d with bells := default }

/-- Is PD3 free to go below DOZE: channels without HOLD empty, no token held (R367)? -/
def bellIdle (d : Dev) : Bool :=
  (List.range 64).all (fun c => !bellEn d c || bellHold d c || decide ((bellChan d c).msgs = [])) &&
  d.bells.toks.all (fun p => p.2.holder.isNone)

/-- PD3 goes to NAP or OFF: the sender views, the receiver views without HOLD, and the doorbells are at reset. -/
def bellNap (d : Dev) : Dev :=
  let chans := d.bells.chans.map (fun p => (p.1, { p.2 with stage := [], status := 0, lastSeq := 0 }))
  { d with bells := { d.bells with chans := chans, pend := [], mask := [] } }

/-- A thermal trip cuts PD3 (R367): channels without HOLD are emptied and both epochs advance; every token is free, BROKEN. -/
def bellTrip (d : Dev) : Dev :=
  let d1 := ((List.range 64).filter (fun c => bellEn d c && !bellHold d c)).foldl (fun d c =>
    onBell (discardMsgs d c true) c (fun x =>
      { x with sendEpoch := nextEpoch x.sendEpoch, recvEpoch := nextEpoch x.recvEpoch })) d
  let d2 := (List.range 128).foldl (fun d t => setBroken (onTok d t (fun x => { x with holder := none })) t 1) d1
  bellNap d2

/-! ### The commands -/

/-- BELL_BIND_WRITE (R360). -/
def execBellBindWrite (acc : Acc) (c : Bell) (v : Word) (s : State) : Host.Outcome State Fault Refusal :=
  .next { s with dev := doBellBindWrite acc c.val v s.dev }

/-- BELL_POST (R362). -/
def execBellPost (acc : Acc) (c : Bell) (v : Word) (s : State) : Host.Outcome State Fault Refusal :=
  .next { s with dev := doBellPost acc c.val v s.dev }

/-- BELL_POP (R368). -/
def execBellPop (acc : Acc) (c : Bell) (v : Word) (s : State) : Host.Outcome State Fault Refusal :=
  .next { s with dev := doBellPop acc c.val v s.dev }

/-- DOORBELL_CLEAR (R369). -/
def execDoorbellClear (acc : Acc) (v : Word) (s : State) : Host.Outcome State Fault Refusal :=
  .next { s with dev := doDoorbellClear acc v s.dev }

/-- DOORBELL_MASK_WRITE (R369). -/
def execDoorbellMaskWrite (acc : Acc) (v : Word) (s : State) : Host.Outcome State Fault Refusal :=
  .next { s with dev := doDoorbellMaskWrite acc v s.dev }

/-- TOKEN_ACQUIRE (R372). -/
def execTokenAcquire (t : Tok) (readers : List Acc) (s : State) : Host.Outcome State Fault Refusal :=
  .next { s with dev := doTokenAcquire t.val readers s.dev }

/-- TOKEN_RELEASE (R373). -/
def execTokenRelease (acc : Acc) (t : Tok) (v : Word) (s : State) : Host.Outcome State Fault Refusal :=
  .next { s with dev := doTokenRelease acc t.val v s.dev }

end Sys2Proof.Machine
end

