-- ==== Sys2Proof/Machine/Formation.lean ====
section
/-! DEFINITION. What resets share: registers that a reset type restores (R18, R28), the reset-cause log (R45, R453), and a
device's way back to STANDALONE (R411, R426). -/

namespace Sys2Proof.Machine

/-! ### Restoring registers (R18, R28) -/

/-- Does the register at an offset list a reset type? -/
def restores (t : RTag) (off : Nat) : Bool := (rowOf off).any (fun r => r.1.tags.contains t)

/-- The registers that list a reset type return to their reset values, and their staging copies that were written are
discarded; `keep` names those that a lock holds. -/
def restore (d : Dev) (t : RTag) (keep : Nat → Bool) : Dev :=
  let stays (off : Nat) : Bool := keep off || !restores t off
  { d with regs := d.regs.filter (fun p => stays p.1), stg := d.stg.filter (fun p => stays p.1),
           stgSI := d.stgSI.filter (fun p => stays p.1) }

/-! ### The reset-cause log (R453) -/

/-- A record of the reset-cause log: cause, function or section, domain mask. The last 64 are kept. -/
def addCause (d : Dev) (cause arg0 arg1 : Nat) : Dev :=
  let r : RclRec := { cause := cause, arg0 := arg0, arg1 := arg1, dt := d.dt, count := d.pm.rclCount + 1 }
  { d with pm := { d.pm with rcl := (r :: d.pm.rcl).take 64, rclCount := d.pm.rclCount + 1 } }

/-- The four words of a record. -/
def causeWords (r : RclRec) : List Word :=
  [BitVec.ofNat 32 (r.cause % 256 * 2 ^ 24 + r.arg0 % 256 * 2 ^ 16 + r.arg1 % 2 ^ 16), loWord r.dt, hiWord r.dt,
   BitVec.ofNat 32 r.count]

/-- What PM_RCL_Wj shows: word j of the record that PM_RCL_SEL selects, zero where there is none. -/
def causeWord (d : Dev) (j : Nat) : Word :=
  match d.pm.rcl[fg d PM_RCL_SEL PM_RCL_SEL_INDEX]? with
  | some r => wd (causeWords r) j
  | none => 0

/-! ### Formation (R411) -/

/-- GL_MODE shows the formation: FORMATION in every state but STANDALONE, ROLE while it is 1. -/
def showFormation (d : Dev) : Dev :=
  let f : Nat := if dhState d = 0 then 0 else 1
  fs (fs d GL_MODE GL_MODE_FORMATION f) GL_MODE GL_MODE_ROLE (f * (dhBanker d).toNat)

/-- The media outputs go to high impedance, or leave it (R416, R420). -/
def showMedia (was : Bool) (d : Dev) : Dev := if bankerLike d = was then d else emit d (.pin 7 (bankerLike d).toNat)

def setDh (d : Dev) (st : Nat) : Dev := showMedia (bankerLike d) (showFormation (fs d DH_STATUS DH_STATUS_STATE st))

def setRole (d : Dev) (banker : Bool) : Dev :=
  showMedia (bankerLike d) (showFormation (fs d DH_STATUS DH_STATUS_ROLE banker.toNat))

/-- An event of the pair (R427). -/
def pairEvent (d : Dev) (code v : Nat) : Dev :=
  post d 0 clPAIR code midPAIR (pw16 0 (fg d DH_STATUS DH_STATUS_CREW_EPOCH) + pw32 4 v)

/-- FENCE_OUT is driven to a level (R419). -/
def setFenceOut (d : Dev) (v : Bool) : Dev :=
  if d.pair.fenceOut = v then d
  else emit { d with pair := { d.pair with fenceOut := v, fenceOutDt := d.dt } } (.pin 1 v.toNat)

/-- HB_OUT toggles, or is held low (R418). -/
def setHeartbeat (d : Dev) (v : Bool) : Dev :=
  if d.pair.hbOut = v then d else emit { d with pair := { d.pair with hbOut := v } } (.pin 6 v.toNat)

/-- The FORM that waits completes with a status. -/
def endForm (d : Dev) (st detail : Nat) : Dev :=
  match d.pair.form with
  | none => d
  | some j => complete { d with pair := { d.pair with form := none } } 0 j.ring j.idx st detail

/-- FENCE_IN holds the ports no more: they are IDLE and stay muted (R271). -/
def unfence (d : Dev) : Dev :=
  let held := (List.range 14).filter (fun q => portState d q == 4)
  let d1 := held.foldl (fun d q => fs (setPortState d q 2) SO_MUTE SO_MUTE_MUTE (fg d SO_MUTE SO_MUTE_MUTE ||| 2 ^ q)) d
  fs d1 GL_MODE GL_MODE_FENCED 0

/-- The device goes to STANDALONE (R411): a FORM that waits fails with ERR_DOWN, the fence line is released, the heartbeat
stops, what a REJECT fenced is fenced no more, and the rings run again from their doorbell records. -/
def toStandalone (d : Dev) : Dev :=
  let was := bankerLike d
  let d1 := setHeartbeat (setFenceOut (endForm d stERR_DOWN 0) false) false
  let fin := d1.pair.fenceIn
  let d2 := setRole (setDh { d1 with pair := { (default : Pair) with fenceIn := fin } } 0) false
  let d3 := fs (if fin then d2 else unfence d2) DH_STATUS DH_STATUS_LINK_UP 0
  if was then
    d3.fns.foldl (fun d p => p.2.rings.foldl (fun d r =>
      if r.2.state = .active then kickRing d p.1 r.1 else d) d) d3
  else d3

/-- A section reset (PAIR) or a domain reset of PD15 (R426). Of DH_STATUS, the seat, the heartbeat and the crew epoch stay. -/
def pairSection (d : Dev) : Dev := restore (toStandalone d) .pair (fun o => o == DH_STATUS)

end Sys2Proof.Machine
end

