-- ==== Sys2Proof/Machine/Power.lean ====
section
/-! DEFINITION. The PMU: power domains, depths, CAP and FORCE, secure holds and the requests that wait behind them, the mode
in force, HIBERNATE, the power cap and thermal protection (R178, R386 to R388, R428 to R437, R454). -/

namespace Sys2Proof.Machine

/-- A power event (R454). -/
def powerEvent (d : Dev) (code b0 v : Nat) : Dev := post d 0 clPOWER code 0 (pb 0 b0 + pw32 4 v)

/-! ### The states a domain may enter (R429) -/

/-- Does a platform compose: enabled, and not in self-refresh? -/
def composes (d : Dev) (p : Nat) : Bool := platOn d p && !((platRun d p).psr && (platRun d p).psrFrame.isNone)

def anyComposes (d : Dev) : Bool := (List.range 16).any (composes d)

def anyEnabled (d : Dev) : Bool := (List.range 16).any (platOn d)

/-- Does a media unit run (R429)? -/
def mediaBusy (d : Dev) : Bool :=
  (List.range 32).any (fun s => streamState d s != 0) || (List.range 8).any (fun b => fb d (AU_BRIDGE b) AU_BRIDGE_EN) ||
  (List.range 10).any (portRuns d) || (List.range 8).any (fun t => pnEn (panelWords d t)) || hapBusy d

/-- The domains of the raster slots: PD7 concerns every slot. -/
def slotsOfDom (k : Nat) : List Nat := (List.range 16).filter (fun s => decide (k = 7) || decide (k = 8 + s / 4))

/-- Does a BIST hold a domain in RUN (R198)? -/
def bistHolds (d : Dev) (k : Nat) : Bool := fb d GX_BIST GX_BIST_START && decide (k = 8 + fg d GX_BIST GX_BIST_CLUSTER / 5)

/-- Is a domain kept in RUN or GATE (R429)? PD0 itself is always in RUN and does not count for PD4. -/
def keptUp (d : Dev) (k : Nat) : Bool :=
  if k ≤ 2 ∨ k = 6 then true
  else if k = 4 then (List.range 15).any (fun j => decide (j + 1 ≠ 4) && domRun d (j + 1))
  else if k = 5 then anyComposes d
  else if k = 12 then anyComposes d
  else if k = 13 then anyEnabled d
  else if k = 14 then mediaBusy d
  else if k = 15 then decide (dhState d ≠ 0)
  else if 7 ≤ k then
    (slotsOfDom k).any (fun s => (gslot d s).ctx.isSome)
  else false

/-- May a domain be in a state now (R367, R429)? HIBERNATE is no state of one domain; a pair keeps PD15 in RUN (R426). -/
def mayState (d : Dev) (k s : Nat) : Bool :=
  if s = 0 then true
  else if k = 0 ∨ s = 4 ∨ bistHolds d k ∨ (k = 15 ∧ dhState d ≠ 0) then false
  else if s = 1 then true
  else if keptUp d k then false
  else if k = 4 ∨ k = 5 then decide (s = 3)
  else if k = 3 then decide (s = 3) || bellIdle d
  else if k = 12 then decide (s = 3) || !anyEnabled d
  else true

/-! ### Secure holds (R386, R387) -/

def pwrHolds (d : Dev) (k : Nat) : Nat := fg d (SE_HOLD k) SE_HOLD_PWR

def clkHolds (d : Dev) (k : Nat) : Nat := fg d (SE_HOLD k) SE_HOLD_CLK

/-- Do the holds keep a domain from a state: a power hold from below GATE, a clock hold from below RUN? -/
def heldFrom (d : Dev) (k s : Nat) : Bool :=
  (decide (1 ≤ s) && decide (clkHolds d k ≠ 0)) || (decide (2 ≤ s) && decide (pwrHolds d k ≠ 0))

/-! ### Entering a state (R44, R201, R428) -/

/-- What a domain loses as it goes to NAP, DOZE or OFF (R44): a domain reset, which DOZE spares where a rule says so. -/
def loseDomain (d : Dev) (k s : Nat) (cut : Bool) : Dev :=
  if 7 ≤ k ∧ k ≤ 11 then (if cut then cutDomainWork d k else preemptDomain d k)
  else if k = 3 then (if cut then bellTrip d else if s = 3 then d else bellNap d)
  else if k = 4 then stopComparators (if s = 3 then d else ttClear d)
  else if k = 12 then restore (composeClear d) .compose (fun _ => false)
  else if k = 13 then portsDown d 4
  else if k = 14 then restore (touchSection (audioDown (hapDown d))) .d14 (fun _ => false)
  else if k = 15 then pairSection d
  else d

/-- A domain enters a state below RUN. -/
def goDown (d : Dev) (k s : Nat) (cut : Bool) : Dev :=
  let d1 := if s ≥ 2 ∧ domState d k ≠ s ∧ domState d k ≠ 5 then loseDomain d k s cut else d
  let w := if hasBit d1.pm.waking k then d1.pm.waking - 2 ^ k else d1.pm.waking
  fs { d1 with pm := { d1.pm with waking := w } } (PM_DOM_STAT k) PM_DOM_STAT_STATE s

/-- Every ACTIVE ring's doorbell record is read once (R114). -/
def readAllRings (d : Dev) : Dev :=
  d.fns.foldl (fun d p => p.2.rings.foldl (fun d r => if r.2.state = .active then kickRing d p.1 r.1 else d) d) d

/-- A domain is in RUN: what waited for it goes on. -/
def goUp (d : Dev) (k : Nat) : Dev :=
  let w := if hasBit d.pm.waking k then d.pm.waking - 2 ^ k else d.pm.waking
  let d1 := bellWake (fs { d with pm := { d.pm with waking := w } } (PM_DOM_STAT k) PM_DOM_STAT_STATE 0) k
  if 7 ≤ k ∧ k ≤ 11 then gpuRun d1
  else if k = 13 then (List.range 14).foldl startPort d1
  else if k = 14 then audioReturn d1
  else if k = 6 ∧ domState d 6 ≥ 2 ∧ domState d 6 ≠ 4 then readAllRings d1
  else d1

/-- A held domain wakes even from a FORCE: the holds come first (R430). -/
def wakeHeld (d : Dev) (k : Nat) : Dev :=
  if domState d k = 0 ∨ hasBit d.pm.waking k then d
  else { d with pm := { d.pm with waking := d.pm.waking + 2 ^ k } }

/-- Does Stopping hold a domain off (R178)? Not one that a BIST holds in RUN (R198). -/
def modeHeldOff (d : Dev) (k : Nat) : Bool := decide (modeOf d = mSTP) && (decide (k = 10) || decide (k = 11)) && !bistHolds d k

/-- The state that FORCE asks of a domain, if any. -/
def forcedState (d : Dev) (k : Nat) : Option Nat :=
  let f := fg d (PM_DOM_STAT k) PM_DOM_STAT_FORCED
  if f = 0 then none else some (f - 1)

/-! ### CAP and FORCE (R387, R432) -/

/-- Does a FORCE ask for what R429 does not allow? -/
def forceBad (d : Dev) (force k : Nat) : Bool := decide (2 ≤ force) && !mayState d k (force - 1)

/-- Is a request blocked on a domain? -/
def reqBlocked (d : Dev) (force k : Nat) : Bool := decide (2 ≤ force) && heldFrom d k (force - 1)

/-- CAP and FORCE of one domain are set, and FORCE acts. -/
def applyDom (cap force : Nat) (d : Dev) (k : Nat) : Dev :=
  let d1 := wr d (PM_DOM_CTRL k) (BitVec.ofNat 32 (cap * 16 + force))
  let d2 := fs d1 (PM_DOM_STAT k) PM_DOM_STAT_FORCED force
  if force = 0 then d2
  else if force = 1 then wakeHeld d2 k
  else if domState d2 k = force - 1 then d2
  else if mayState d2 k (force - 1) then goDown d2 k (force - 1) false
  else d2

/-- QUEUED of every domain. -/
def showQueued (d : Dev) : Dev :=
  (List.range 16).foldl (fun d k =>
    fs d (PM_DOM_STAT k) PM_DOM_STAT_QUEUED (sat ((d.pm.reqs.filter (fun r => hasBit r.on k)).length) 255)) d

/-- REQ_STATUS of the domains of a mask. -/
def setReqStatus (d : Dev) (mask st : Nat) : Dev :=
  (bitsOf 16 mask).foldl (fun d k => fs d (PM_DOM_STAT k) PM_DOM_STAT_REQ_STATUS st) d

/-- A request for the domains of a mask: refused where R429 forbids it, done, or queued behind the holds; with the status
that its maker hears. -/
def askDomains (d : Dev) (mid off mask cap force : Nat) (tag : Option Nat) : Dev × Nat :=
  let ks := bitsOf 16 mask
  let on := ks.filter (reqBlocked d force)
  if ks.any (forceBad d force) then
    (setReqStatus (logErr d ecCONFLICT mid off (BitVec.ofNat 32 (cap * 16 + force))) mask stERR_PERM, stERR_PERM)
  else if on = [] then (setReqStatus (ks.foldl (applyDom cap force) d) mask stOK, stOK)
  else if on.any (fun k => decide (16 ≤ (d.pm.reqs.filter (fun r => hasBit r.on k)).length)) then
    (setReqStatus d mask stNO_RESOURCE, stNO_RESOURCE)
  else
    let r : DomReq := { doms := mask, on := (on.map (fun k => 2 ^ k)).sum, cap := cap, force := force, modeOff := false,
                        tag := tag }
    (setReqStatus (showQueued { d with pm := { d.pm with reqs := d.pm.reqs ++ [r] } }) mask stDEFERRED, stDEFERRED)

/-- The domains that Stopping holds off go to OFF, or their change is queued behind holds (R178, R387), or waits for the end of a
BIST (R198). -/
def modeOffDomain (d : Dev) (k : Nat) : Dev :=
  if bistHolds d k then d
  else if heldFrom d k 5 then
    let r : DomReq := { doms := 2 ^ k, on := 2 ^ k, cap := 0, force := 6, modeOff := true, tag := none }
    showQueued { d with pm := { d.pm with reqs := d.pm.reqs ++ [r] } }
  else goDown d k 5 false

/-- May a queued request execute: no hold blocks it, and none before it concerns the same domain? -/
def reqReady (d : Dev) (before : List DomReq) (r : DomReq) : Bool :=
  (bitsOf 16 r.doms).all (fun k => !reqBlocked d r.force k) && before.all (fun b => b.doms &&& r.doms == 0)

/-- The first queued request that may execute, and the others. -/
def takeReq (d : Dev) : List DomReq → List DomReq → Option (DomReq × List DomReq)
  | _, [] => none
  | before, r :: rs => if reqReady d before r then some (r, before ++ rs) else takeReq d (before ++ [r]) rs

/-- A queued request executes: DEFERRED_DONE goes to F0 unless the mode asked (R387, R432). -/
def runReq (d : Dev) (k : Nat) (r : DomReq) : Dev :=
  if r.modeOff then (bitsOf 16 r.doms).foldl (fun d j => if modeHeldOff d j then goDown d j 5 false else d) d
  else
    let d1 := setReqStatus ((bitsOf 16 r.doms).foldl (applyDom r.cap r.force) d) r.doms stOK
    powerEvent d1 1 k (r.tag.getD 0xFFFFFFFF)

/-- The queued requests that a release of the last hold on a domain frees execute in order. -/
def runReqs (k : Nat) : Nat → Dev → Dev
  | 0, d => d
  | fuel + 1, d =>
    match takeReq d [] d.pm.reqs with
    | none => d
    | some (r, rest) => runReqs k fuel (runReq (showQueued { d with pm := { d.pm with reqs := rest } }) k r)

/-- SE_HOLD_OP (R386): an acquire at 255 or a release at 0 is discarded and recorded. -/
def doHoldOp (op : Nat) (a : Acc) (k : Nat) (d : Dev) : Dev :=
  let v : Word := BitVec.ofNat 32 (op * 2 ^ 30 + k)
  let fld := if op ≤ 1 then SE_HOLD_PWR else SE_HOLD_CLK
  let n := fg d (SE_HOLD k) fld
  let w := guardWrite a SE_HOLD_OP v (fun _ =>
    if (op % 2 = 0 ∧ n = 255) ∨ (op % 2 = 1 ∧ n = 0) then some ecCONFLICT else none) d
  match w.2 with
  | .done _ =>
    if op % 2 = 0 then
      let d1 := fs w.1 (SE_HOLD k) fld (n + 1)
      if domState d1 k ≥ 2 ∨ (op = 2 ∧ domState d1 k = 1) then wakeHeld d1 k else d1
    else
      let d1 := fs w.1 (SE_HOLD k) fld (n - 1)
      runReqs k d1.pm.reqs.length d1
  | _ => w.1

/-- A write of PM_DOM_CTRL_d (R432): the register changes when the request executes. -/
def doDomainCtrlWrite (a : Acc) (k : Nat) (v : Word) (d : Dev) : Dev :=
  let w := maskedWrite a (PM_DOM_CTRL k) v d
  if !w.2 then w.1
  else
    let d1 := (askDomains w.1 a.mid.toNat (PM_DOM_CTRL k) (2 ^ k) (bits v 7 4) (bits v 3 0) none).1
    if hasBit d1.pm.tripCut k ∧ sext (fg d1 PM_TJ PM_TJ_TJ) 16 < 10 * (Int.ofNat (fg d1 PM_THERM PM_THERM_TRIP_C) - 10) then
      { d1 with pm := { d1.pm with tripCut := d1.pm.tripCut - 2 ^ k } }
    else d1

/-- BIST_DONE (R198, R200): the domain is held in RUN no longer; one that Stopping holds off goes down (R178). -/
def doBistDone (pass : Bool) (d : Dev) : Dev :=
  if !fb d GX_BIST GX_BIST_START then d
  else
    let k := 8 + fg d GX_BIST GX_BIST_CLUSTER / 5
    let d1 := bistResult pass d
    if modeHeldOff d1 k ∧ domState d1 k ≠ 5 then modeOffDomain d1 k else d1

/-! ### The choice of a depth (R81, R430) -/

/-- The domains that the action of a point needs (R57, R68), besides PD4, in which every point fires. DESIGN CHOICE
(notes/assumptions/126): APPLY needs PD12, RELEASE PD7, POLL PD6, SCAN and HAPTIC PD14, the others none; the slack of R81 counts a
RELEASE for the group domains of its jobs too. -/
def actionDoms (e : CpEntry) : List Nat :=
  match e.action with
  | 1 => [12]
  | 2 => [7]
  | 3 => [6]
  | 4 => [14]
  | 5 => [14]
  | _ => []

/-- Does the trigger of a point concern the slack of a domain (R81)? A RELEASE needs the group domains of its jobs too. -/
def needsDom (e : CpEntry) (k : Nat) : Bool :=
  decide (k = 4) || (actionDoms e).contains k || (decide (e.action = 2) && decide (8 ≤ k) && decide (k ≤ 11)) ||
  (decide (e.action = 7) && hasBit e.arg0.toNat k)

/-- The slack of a domain in ns; none: no point bounds it. -/
def slackOf (d : Dev) (k : Nat) : Option Nat :=
  let ts := (enabledCps d).filterMap (fun c =>
    let e := cpEntry d c
    if e.wake && needsDom e k then (nextTrig d e d.dt).map (fun g => g.dt - d.dt) else none)
  match ts with
  | [] => none
  | t :: rest => some (rest.foldl min t)

/-- Wake time and break-even time of a state in ns (R428). -/
def depthCost (s : Nat) : Nat :=
  match s with
  | 1 => 50 + 200
  | 2 => 8000 + 40000
  | 3 => 60000 + 400000
  | _ => Config.offNs

/-- The depth that R430 chooses for a domain. -/
def depthOfDom (d : Dev) (k : Nat) : Nat :=
  let ok (s : Nat) : Bool :=
    mayState d k s && decide (s ≤ fg d (PM_DOM_CTRL k) PM_DOM_CTRL_CAP) && !heldFrom d k s &&
    (match slackOf d k with
     | none => true
     | some t => decide (depthCost s ≤ t))
  let free := [1, 2, 3, 5].foldl (fun x s => if ok s then s else x) 0
  match forcedState d k with
  | some f => if mayState d k f && !heldFrom d k f then f else free
  | none => free

/-- How deep a state is, shallowest first. -/
def depthRank (s : Nat) : Nat := if s = 5 then 4 else s

/-- PMU_DEPTH_DECISION (R430): an idle domain takes the depth chosen; it wakes when that is a shallower one. -/
def doPmuDepthDecision (k : Nat) (idle : Bool) (d : Dev) : Dev :=
  if !idle ∨ d.pm.hib ∨ d.pm.off ∨ hasBit d.pm.waking k ∨ hasBit d.pm.tripCut k ∨ modeHeldOff d k then d
  else
    let s := depthOfDom d k
    if depthRank (domState d k) < depthRank s then goDown d k s false
    else if depthRank s < depthRank (domState d k) then wakeHeld d k
    else d

/-- DOMAIN_WAKE (R430): a domain completes its wake. One that is held down stays there. -/
def doDomainWake (k : Nat) (d : Dev) : Dev :=
  if d.pm.hib ∨ d.pm.off ∨ hasBit d.pm.tripCut k then d
  else if modeHeldOff d k ∧ !heldFrom d k 5 then d
  else if domState d k = 0 ∧ !hasBit d.pm.waking k then d
  else if (forcedState d k).any (fun f => decide (f ≠ 0) && !heldFrom d k f) ∧ domState d k ≠ 0 then d
  else goUp d k

/-! ### The mode in force (R4, R38) -/

/-- The cap of a mode in W; 0 is none (R4). -/
def capOf (m : Nat) : Nat := if m = mHER then 25 else if m = mICY then 40 else if m = mSTP then 18 else 0

/-- The GPU clock of a mode in MHz (R4); 0 is off. -/
def modeMhz (d : Dev) (m : Nat) : Nat :=
  if m = mEXP ∨ m = mFRT then 1300
  else if m = mICY ∨ m = mHER then 1100
  else if m = mSTP then 800
  else if fb d SF_CAUTION SF_CAUTION_GPU then 800 else 0

/-- The GPU clock of the mode and the cap in MHz; junction throttling is apart. -/
def cappedMhz (d : Dev) : Nat := min (modeMhz d (modeOf d)) d.pm.gpuCapMhz

/-- GX_STATUS shows the GPU clock: that of the mode, less what the cap and the junction temperature leave. -/
def showGpu (d : Dev) : Dev :=
  let m := cappedMhz d
  fs d GX_STATUS GX_STATUS_GPU_MHZ (if hasBit d.pm.therm 1 then min m 800 else m)

/-- The caps of a mode come into force; where it has none, what was taken is given back. -/
def takeCap (d : Dev) (m : Nat) : Dev :=
  let d1 := fs d PM_STATUS PM_STATUS_CAP_W (capOf m)
  if capOf m = 0 then
    { d1 with pm := { d1.pm with gpuCapMhz := 1300, removed := 0, capEpisode := false, underSince := none } }
  else d1

/-- A mode is in force from now on (R38): clocks, grace and caps at once, the strip height of each platform at its next frame
start, a disabled platform's at once; work on slots that the mode does not allow is preempted (R178). -/
def setMode (d : Dev) (m : Nat) : Dev :=
  let d1 := linkSend (showGpu (takeCap (fs d GL_MODE GL_MODE_MODE m) m)) 0x05 [2 ^ 32 + 5, m]
  let d2 := (List.range 16).foldl (fun d p =>
    onPlat d p (fun y => if platOn d1 p then { y with nextMode := some m } else { y with mode := m, nextMode := none })) d1
  let d3 := (List.range 16).foldl (fun d s => if hasBit (modeSlots d) s then d else hardOut d s) d2
  gpuRun (if m = mSTP then [10, 11].foldl modeOffDomain d3 else d3)

/-- A mode commit lands on its anchor (R38). In Caution the mode is the island's to leave (R399). -/
def landMode (d : Dev) (m : Nat) : Dev :=
  if modeOf d = mCAU ∨ modeOf d = m then d else setMode d m

/-! ### MODE (R434, R435) -/

/-- The checks of MODE SET_MODE (R7, R9, R264, R398, R434). -/
def chkSetMode (d : Dev) (_f _r : Nat) (q : Desc) : Option (Nat × Nat) :=
  let w := at4 q.words 0x10
  let m := bits w 27 25
  let g := bits w 15 0
  if !bodyOk q.words [(0x10, 0xFE0FFFFF), (0x14, 0xFFFF00FF)] ∨ m ≥ 6 ∨ g = 0 ∨
     !hasBit g (bits w 19 16) then some (stBAD_DESC, 0)
  else if m = mHER ∨ m = mCAU ∨ modeOf d = mCAU ∨ d.heritage ∨ (m = mSTP ∧ dhState d ≠ 0) then some (stERR_PERM, 0)
  else if (m = mSTP ∧ !rateFits (rateSum d) 3200) ∨ !poolFits d [.mode m] then some (stNO_RESOURCE, 0)
  else none

/-- SET_MODE is a device-wide commit (R38, R434). -/
def actSetMode (f r : Nat) (q : Desc) (d : Dev) : Dev :=
  let w := at4 q.words 0x10
  showPending (acceptCommit d f (.desc f r q.idx) (bits w 19 16) (bits w 15 0) q.cp (strictOf q.words) true
    [.mode (bits w 27 25)])

def doModeSetMode (f r : Nat) (d : Dev) : Dev := startDesc d f r 0x620 [] false chkSetMode actSetMode

/-- The checks of MODE DOMAIN. -/
def chkModeDomain (d : Dev) (_f _r : Nat) (q : Desc) : Option (Nat × Nat) :=
  let w := at4 q.words 0x14
  if !bodyOk q.words [(0x10, 0xFE0FFFFF), (0x14, 0xFFFF00FF)] ∨ bits w 7 4 > 5 ∨
     bits w 3 0 > 6 then some (stBAD_DESC, 0)
  else if modeOf d = mCAU then some (stERR_PERM, 0)
  else none

/-- DOMAIN applies CAP and FORCE to its domains as one change; held, it completes with DEFERRED (R387, R434). -/
def actModeDomain (f r : Nat) (q : Desc) (d : Dev) : Dev :=
  let w := at4 q.words 0x14
  let x := askDomains d f 0 (bits w 31 16) (bits w 7 4) (bits w 3 0) (some (tagOf q.words))
  complete x.1 f r q.idx x.2

def doModeDomain (f r : Nat) (d : Dev) : Dev := startDesc d f r 0x621 [] true chkModeDomain actModeDomain

/-- The first condition of R435 that fails, by its DETAIL; 0 when none does. -/
def hibFails (d : Dev) : Nat :=
  if anyEnabled d then 1
  else if dhState d ≠ 0 then 2
  else if jobsAll d ≠ 0 then 3
  else if (List.range 32).any (fun s => streamState d s != 0) ∨ d.audio.chimes.any (fun p => p.2.on) ∨ hapBusy d then 4
  else if (List.range 16).any (fun k => heldFrom d k 5) then 5
  else 0

def chkHibernate (d : Dev) (_f _r : Nat) (q : Desc) : Option (Nat × Nat) :=
  if !bodyOk q.words [(0x10, 0xFE0FFFFF), (0x14, 0xFFFF00FF)] then some (stBAD_DESC, 0)
  else if modeOf d = mCAU ∨ d.heritage then some (stERR_PERM, 0)
  else if hibFails d ≠ 0 then some (stERR_PERM, hibFails d)
  else none

/-- The completion is written, and the device enters HIBERNATE: every domain but PD0 (R435). -/
def actHibernate (f r : Nat) (q : Desc) (d : Dev) : Dev :=
  if hibFails d ≠ 0 then complete d f r q.idx stERR_PERM (hibFails d)
  else
    let d1 := complete d f r q.idx stOK
    let d2 := { d1 with pm := { d1.pm with hib := true, waking := 0 }, safe := { d1.safe with dmFrom := none } }
    (List.range 15).foldl (fun d j => fs d (PM_DOM_STAT (j + 1)) PM_DOM_STAT_STATE 4) (stopComparators d2)

def doModeHibernate (f r : Nat) (d : Dev) : Dev := startDesc d f r 0x622 [] true chkHibernate actHibernate

/-- The trigger that the AON logic holds: of the earliest enabled point with WAKE (R82). -/
def heldTrigger (d : Dev) : Option Nat :=
  match (enabledCps d).filterMap (fun k => if (cpEntry d k).wake then (waitsFor d k).map (fun g => g.dt) else none) with
  | [] => none
  | t :: ts => some (ts.foldl min t)

/-- Does a cause wake the device from HIBERNATE (R436)? -/
def wakes (d : Dev) (c : WakeCause) : Bool :=
  match c with
  | .trigger => (heldTrigger d).isSome
  | .gpio n => hasBit (rd d PM_WAKE_GPIO).toNat n.val
  | .pmcsr => true
  | .hostRequest => true

/-- When a cause wakes the device: the held trigger early enough for the wake time of R428 (R82), the others now. -/
def wakeTime (d : Dev) (c : WakeCause) : Nat :=
  match c with
  | .trigger => (heldTrigger d).getD d.dt - 2000000
  | _ => d.dt

/-- HIBERNATE_WAKE (R436): the domains return, the dead-man timer starts full, and the rings continue under R114. -/
def doHibernateWake (c : WakeCause) (d0 : Dev) : Dev :=
  if !d0.pm.hib ∨ !wakes d0 c then d0
  else
    let d := advance (wakeTime d0 c) d0
    let dm := if d.pm.booted then some d.dt else none
    let d1 := { d with pm := { d.pm with hib := false }, safe := { d.safe with dmFrom := dm,
                                                                               dmMs := fg d SE_DEADMAN_CFG SE_DEADMAN_CFG_TIMEOUT_MS } }
    readAllRings ((List.range 15).foldl (fun d j => goUp d (j + 1)) d1)

/-! ### The power cap (R433) -/

/-- The next step under a cap: the GPU clock down, then a slot outside the Express reserve, from slot 15 on. -/
def capStep (d : Dev) : Dev :=
  if cappedMhz d > 1100 then showGpu { d with pm := { d.pm with gpuCapMhz := 1100 } }
  else if cappedMhz d > 800 then showGpu { d with pm := { d.pm with gpuCapMhz := 800 } }
  else
    match (List.range 16).reverse.find? (fun s => !hasBit (reserveMask d) s && !hasBit d.pm.removed s) with
    | some s => yieldSlot { d with pm := { d.pm with removed := d.pm.removed + 2 ^ s } } s 0
    | none => d

/-- The last step is taken back; at the clock of the mode nothing is left to restore, and the episode is over. -/
def capBack (d : Dev) : Dev :=
  match (List.range 16).find? (fun s => hasBit d.pm.removed s) with
  | some s => gpuRun { d with pm := { d.pm with removed := d.pm.removed - 2 ^ s } }
  | none =>
    if d.pm.gpuCapMhz < 1100 ∧ 1100 < modeMhz d (modeOf d) then showGpu { d with pm := { d.pm with gpuCapMhz := 1100 } }
    else showGpu { d with pm := { d.pm with gpuCapMhz := 1300, capEpisode := false } }

/-- POWER_ESTIMATE (R433): an estimate 100 µs after the last; the mean of the last ten is compared with the cap. -/
def doPowerEstimate (mw : Nat) (d0 : Dev) : Dev :=
  let d := advance (d0.pm.lastEst + 100000) d0
  let es := (mw :: d.pm.ests).take 10
  let avg := es.sum / es.length
  let cap := fg d PM_STATUS PM_STATUS_CAP_W * 1000
  let d1 := fs { d with pm := { d.pm with ests := es, lastEst := d.dt } } PM_STATUS PM_STATUS_POWER_W (sat (avg / 1000) 255)
  if cap = 0 then d1
  else if avg > cap then
    let d2 := capStep { d1 with pm := { d1.pm with capEpisode := true, underSince := none } }
    if d1.pm.capEpisode then d2 else powerEvent d2 2 0 avg
  else if avg * 100 > cap * 95 then { d1 with pm := { d1.pm with underSince := none } }
  else
    let from0 := d1.pm.underSince.getD d1.dt
    let d2 := { d1 with pm := { d1.pm with underSince := some from0 } }
    if d2.pm.capEpisode ∧ from0 + 10000000 ≤ d2.dt then capBack d2 else d2

/-! ### Thermal protection (R388, R437) -/

/-- The threshold of a level in 0.1 °C: the fixed one is 10 °C above the greatest TRIP_C, which is Tj max + 5. -/
def tjLevel (d : Dev) (l : Nat) : Int :=
  10 * (if l = 0 then Int.ofNat (fg d PM_THERM PM_THERM_WARN_C)
        else if l = 1 then Int.ofNat (fg d PM_THERM PM_THERM_THROTTLE_C)
        else if l = 2 then Int.ofNat (fg d PM_THERM PM_THERM_TRIP_C)
        else Int.ofNat (bits (regReset PM_THERM) 7 0) + 10)

/-- PM_STATUS.THERM: the highest state that is on. -/
def showTherm (d : Dev) : Dev :=
  fs d PM_STATUS PM_STATUS_THERM
    (if hasBit d.pm.therm 2 then 3 else if hasBit d.pm.therm 1 then 2 else if hasBit d.pm.therm 0 then 1 else 0)

/-- A thermal state ends. -/
def endTherm (d : Dev) (l : Nat) : Dev :=
  if hasBit d.pm.therm l then showGpu (showTherm { d with pm := { d.pm with therm := d.pm.therm - 2 ^ l } }) else d

/-- A trip ends when none of its domains is cut any more. -/
def tripOver (d : Dev) : Dev :=
  if d.pm.tripCut = 0 ∧ hasBit d.pm.therm 2 then emit (endTherm d 2) (.pin 4 1) else d

/-- The junction temperature as PM_TJ holds it. -/
def tjNow (d : Dev) : Int := sext (fg d PM_TJ PM_TJ_TJ) 16

/-- F0 wrote PM_THERM_MASK: domains whose bit is clear are no longer cut, once below TRIP_C − 10 °C. -/
def thermRelease (d : Dev) : Dev :=
  if tjNow d < tjLevel d 2 - 100 then
    tripOver { d with pm := { d.pm with tripCut := d.pm.tripCut &&& fg d PM_THERM_MASK PM_THERM_MASK_TRIP_MASK } }
  else d

/-- THERMAL_SAMPLE (R437): the sensor is read; each threshold counts from when it was first above it. -/
def doThermalSample (tj : Int) (d : Dev) : Dev :=
  let d1 := fs d PM_TJ PM_TJ_TJ ((tj % 65536).toNat)
  let keep := d1.pm.tjOver.filter (fun o => decide (tj > tjLevel d1 o.level))
  let new := ((List.range 4).filter (fun l => decide (tj > tjLevel d1 l) && keep.all (fun o => decide (o.level ≠ l)))).map
    (fun l => ({ level := l, since := d1.dt } : TjOver))
  let d2 := { d1 with pm := { d1.pm with tjOver := keep ++ new } }
  let d3 := if tj < tjLevel d2 0 - 50 then endTherm d2 0 else d2
  if tj < tjLevel d3 1 - 50 then endTherm d3 1 else d3

/-- A threshold that has held for 100 µs acts: the device at that time, or none. -/
def tjActs (d : Dev) (l : Nat) : Option Dev :=
  if d.pm.off then none
  else (d.pm.tjOver.find? (fun o => decide (o.level = l))).map (fun o => advance (o.since + 100000) d)

/-- A thermal state begins; none when it is on already. -/
def beginTherm (d : Dev) (l : Nat) : Option Dev :=
  if hasBit d.pm.therm l then none
  else (tjActs d l).map (fun d => showGpu (showTherm { d with pm := { d.pm with therm := d.pm.therm + 2 ^ l } }))

/-- THERMAL_WARN. -/
def doThermalWarn (d : Dev) : Dev :=
  match beginTherm d 0 with
  | some d1 => powerEvent d1 3 0 (fg d1 PM_TJ PM_TJ_TJ)
  | none => d

/-- THERMAL_THROTTLE: the GPU clock is held at 0.8 GHz. -/
def doThermalThrottle (d : Dev) : Dev :=
  match beginTherm d 1 with
  | some d1 => powerEvent d1 4 0 (fg d1 PM_TJ PM_TJ_TJ)
  | none => d

/-- The holds of domains that are cut are gone with their queued requests, and a FORCED_LOSS is recorded when there were
any (R388). -/
def forcedLoss (d : Dev) (mask : Nat) : Dev :=
  let lost := ((bitsOf 16 mask).filter (fun k => heldFrom d k 5)).map (fun k => 2 ^ k)
  let d1 := (bitsOf 16 mask).foldl (fun d k => wr d (SE_HOLD k) 0) d
  let d2 := showQueued { d1 with pm := { d1.pm with reqs := d1.pm.reqs.filter (fun r => r.doms &&& mask == 0) } }
  if lost = [] then d2
  else
    let d3 := addCause (wr d2 SE_HOLD_LOST (BitVec.ofNat 32 lost.sum)) 6 0 lost.sum
    if hasBit mask 1 then d3 else emit d3 (.island 0x24 lost.sum)

/-- THERMAL_TRIP (R388, R437): the domains of PM_THERM_MASK are cut whatever the holds. -/
def doThermalTrip (d : Dev) : Dev :=
  match beginTherm d 2 with
  | none => d
  | some d1 =>
    let m0 := fg d1 PM_THERM_MASK PM_THERM_MASK_TRIP_MASK
    let mask := m0 - m0 % 2
    let d2 := forcedLoss (emit d1 (.pin 4 0)) mask
    let d3 := (bitsOf 16 mask).foldl (fun d k => goDown d k 5 true) { d2 with pm := { d2.pm with tripCut := mask } }
    gpuRun (powerEvent (addCause d3 7 0 mask) 5 0 mask)

/-- THERMAL_CRITICAL (R437): every domain but PD0 is off until cold reset. -/
def doThermalCritical (d : Dev) : Dev :=
  match tjActs d 3 with
  | none => d
  | some d1 =>
    let d2 := forcedLoss (addCause (emit d1 (.pin 4 0)) 8 0 0xFFFE) 0xFFFE
    let d3 := (List.range 15).foldl (fun d j => goDown d (j + 1) 5 true) d2
    { d3 with pm := { d3.pm with off := true } }

/-! ### The commands -/

/-- ACQUIRE_POWER (R386). -/
def execAcquirePower (acc : Acc) (k : Dom) (s : State) : Host.Outcome State Fault Refusal :=
  .next { s with dev := doHoldOp 0 acc k.val s.dev }

/-- RELEASE_POWER (R386, R387). -/
def execReleasePower (acc : Acc) (k : Dom) (s : State) : Host.Outcome State Fault Refusal :=
  .next { s with dev := doHoldOp 1 acc k.val s.dev }

/-- ACQUIRE_CLOCK (R386). -/
def execAcquireClock (acc : Acc) (k : Dom) (s : State) : Host.Outcome State Fault Refusal :=
  .next { s with dev := doHoldOp 2 acc k.val s.dev }

/-- RELEASE_CLOCK (R386, R387). -/
def execReleaseClock (acc : Acc) (k : Dom) (s : State) : Host.Outcome State Fault Refusal :=
  .next { s with dev := doHoldOp 3 acc k.val s.dev }

/-- MODE_SET_MODE (R434). -/
def execModeSetMode (f : Fn) (r : Ring) (s : State) : Host.Outcome State Fault Refusal :=
  .next { s with dev := doModeSetMode f.val r.val s.dev }

/-- MODE_DOMAIN (R434). -/
def execModeDomain (f : Fn) (r : Ring) (s : State) : Host.Outcome State Fault Refusal :=
  .next { s with dev := doModeDomain f.val r.val s.dev }

/-- MODE_HIBERNATE (R435). -/
def execModeHibernate (f : Fn) (r : Ring) (s : State) : Host.Outcome State Fault Refusal :=
  .next { s with dev := doModeHibernate f.val r.val s.dev }

/-- HIBERNATE_WAKE (R436). -/
def execHibernateWake (c : WakeCause) (s : State) : Host.Outcome State Fault Refusal :=
  .next { s with dev := doHibernateWake c s.dev }

/-- DOMAIN_CTRL_WRITE (R432). -/
def execDomainCtrlWrite (acc : Acc) (k : Dom) (v : Word) (s : State) : Host.Outcome State Fault Refusal :=
  .next { s with dev := tripOver (doDomainCtrlWrite acc k.val v s.dev) }

/-- PMU_DEPTH_DECISION (R430). -/
def execPmuDepthDecision (k : Dom) (idle : Bool) (s : State) : Host.Outcome State Fault Refusal :=
  .next { s with dev := doPmuDepthDecision k.val idle s.dev }

/-- DOMAIN_WAKE (R430). -/
def execDomainWake (k : Dom) (s : State) : Host.Outcome State Fault Refusal :=
  .next { s with dev := doDomainWake k.val s.dev }

/-- POWER_ESTIMATE (R433). -/
def execPowerEstimate (mw : Nat) (s : State) : Host.Outcome State Fault Refusal :=
  .next { s with dev := doPowerEstimate mw s.dev }

/-- THERMAL_SAMPLE (R437). -/
def execThermalSample (tj10 : Int) (s : State) : Host.Outcome State Fault Refusal :=
  .next { s with dev := doThermalSample tj10 s.dev }

/-- THERMAL_WARN (R437). -/
def execThermalWarn (s : State) : Host.Outcome State Fault Refusal :=
  .next { s with dev := doThermalWarn s.dev }

/-- THERMAL_THROTTLE (R437). -/
def execThermalThrottle (s : State) : Host.Outcome State Fault Refusal :=
  .next { s with dev := doThermalThrottle s.dev }

/-- THERMAL_TRIP (R388). -/
def execThermalTrip (s : State) : Host.Outcome State Fault Refusal :=
  .next { s with dev := doThermalTrip s.dev }

/-- THERMAL_CRITICAL (R437). -/
def execThermalCritical (s : State) : Host.Outcome State Fault Refusal :=
  .next { s with dev := doThermalCritical s.dev }

/-- BIST_DONE (R198). -/
def execBistDone (pass : Bool) (s : State) : Host.Outcome State Fault Refusal :=
  .next { s with dev := doBistDone pass s.dev }

end Sys2Proof.Machine
end

