-- ==== Sys2Proof/Machine/Boot.lean ====
section
/-! DEFINITION. Boot, the loader, staged images and cutover (R438 to R448, R456). -/

namespace Sys2Proof.Machine

/-! ### Boot (R438 to R443) -/

/-- The count of consecutive failed boots (R442, R451). -/
def bootFails (d : Dev) : Nat := ((currentRec d 4 0).map (fun r => (wd r.payload 0).toNat)).getD 0

/-- BOOT_STATE is written: the count, and the slot last RUNNING. -/
def writeBootState (d : Dev) (n : Nat) : Dev :=
  if d.pm.storePresent then storeNow d 4 0 [BitVec.ofNat 32 n, BitVec.ofNat 32 d.pm.running] else d

def ldrState (d : Dev) : Nat := fg d PM_LDR_STAT PM_LDR_STAT_STATE

def setLdr (d : Dev) (st err : Nat) : Dev :=
  fs (fs d PM_LDR_STAT PM_LDR_STAT_STATE st) PM_LDR_STAT PM_LDR_STAT_ERR err

/-- The device waits in recovery (R443). -/
def enterRecovery (d : Dev) (err : Nat) : Dev := setLdr { d with pm := { d.pm with recovery := true } } 6 err

/-- DRAM is trained afresh and new DRAM_TRAIN records are written (R438, R451); the training results are free values. -/
def trainDram (d : Dev) : Dev :=
  (List.range 4).foldl (fun d k =>
    let t := takeFree d
    storeNow t.2 1 k [BitVec.ofNat 32 t.1, rd t.2 GL_DEV_REV, BitVec.ofNat 32 t.2.dramUnits]) d

/-- BOOT_START (R438, R439): the straps apply, the store is scanned, and the loader waits for an image, in recovery or not. -/
def doBootStart (d : Dev) : Dev :=
  if d.pm.begun then d
  else
    let d1 := showStore (fs (freshSector { d with pm := { d.pm with begun := true } }) PM_STORE_STAT PM_STORE_STAT_PRESENT
      d.pm.storePresent.toNat)
    let d2 := fs d1 PM_BOOT_STAT PM_BOOT_STAT_FAILS (sat (bootFails d1) 15)
    let d3 := if d.bootMode = 1 ∧ d.pm.storePresent then trainDram d2 else d2
    let d4 := if d.bootMode ≥ 3 then logErr d3 ecBOOT_STRAP 0 PM_BOOT_STAT (BitVec.ofNat 32 d.bootMode) else d3
    if d.bootMode ≥ 2 ∨ bootFails d4 ≥ 3 then enterRecovery d4 0 else setLdr d4 0 0

/-- A write of PM_LDR_CMD (R440, R443): LOAD while STATE is WAIT or FAILED, or in recovery; STORE_FORMAT in recovery alone;
anything else is discarded and recorded. The ROM counts a failed boot before each LOAD (R442). -/
def ldrWrite (a : Acc) (v : Word) (d : Dev) : Dev :=
  let w := regWrite a PM_LDR_CMD v d
  match w.2 with
  | .done _ =>
    let op := bits v 31 28
    let st := ldrState w.1
    if op = 1 ∧ (st = 0 ∨ st = 5 ∨ st = 6) ∧ w.1.pm.begun then
      let d1 := writeBootState w.1 (bootFails w.1 + 1)
      let d2 := fs (setLdr { d1 with pm := { d1.pm with loading := true } } 1 0) PM_LDR_STAT PM_LDR_STAT_FETCHED 0
      emit d2 (.hostRead 0 (rd64 d2 PM_LDR_ADDR_LO) (16 * fg d2 PM_LDR_CNT PM_LDR_CNT_COUNT))
    else if op = 2 ∧ st = 6 then formatStore w.1
    else logErr w.1 ecCONFLICT a.mid.toNat PM_LDR_CMD v a.secure
  | _ => w.1

def doLoaderLoad (a : Acc) (v : Word) (d : Dev) : Dev := ldrWrite a (putBits v 31 28 1) d

def doStoreFormat (a : Acc) (v : Word) (d : Dev) : Dev := ldrWrite a (putBits v 31 28 2) d

/-- What the device keeps of an image. -/
def imageOf (i : ImageInfo) : FwImage :=
  { version := i.version, objVersion := i.objVersion.toNat, pairMin := i.pairMin.toNat, pairMax := i.pairMax.toNat,
    pairEpoch := i.pairEpoch.toNat, stateFormat := i.stateFormat, secVersion := i.secVersion.toNat,
    herLayers := i.heritageLayers.toNat, herRegions := i.heritageRegions.map (fun p => (p.1.val, p.2.val)) }

/-- The cause with which R440 and R441 refuse an image; 0: it is accepted. -/
def imageCause (i : ImageInfo) : Nat :=
  if i.cause.val ≠ 0 then i.cause.val
  else if i.bytes > 2 ^ 26 then 7
  else if i.pairEpoch.toNat < i.pairMin.toNat ∨ i.pairMax.toNat < i.pairEpoch.toNat then 2
  else if i.minRom.toNat > bits (regReset PM_BOOT_STAT) 15 0 then 5
  else 0

/-- A boot has failed (R442): the loader reports it, or the device enters recovery. -/
def bootFailed (d : Dev) (cause : Nat) : Dev :=
  let d1 := { d with pm := { d.pm with loading := false } }
  if bootFails d1 ≥ 3 then enterRecovery d1 cause else setLdr d1 5 cause

/-- The state of an image slot in PM_FW_SLOT (R445). -/
def slotFld (k : Nat) : Fld := if k = 0 then PM_FW_SLOT_SLOT0 else PM_FW_SLOT_SLOT1

def slotState (d : Dev) (k : Nat) : Nat := fg d PM_FW_SLOT (slotFld k)

def setSlot (d : Dev) (k st : Nat) : Dev := fs d PM_FW_SLOT (slotFld k) st

def slotImage (d : Dev) (k : Nat) : FwImage := SMap.get d.pm.slots k

def putImage (d : Dev) (k : Nat) (i : FwImage) : Dev := { d with pm := { d.pm with slots := SMap.set d.pm.slots k i } }

/-- The dead-man timer runs from now, full (R389). -/
def startDeadman (d : Dev) : Dev :=
  { d with safe := { d.safe with dmFrom := some d.dt, dmMs := fg d SE_DEADMAN_CFG SE_DEADMAN_CFG_TIMEOUT_MS, kick := none } }

/-- ERR_N and THERM_TRIP_N are low from PORST_N until the device releases them (R439, R497): they show their causes from here on. -/
def releaseOuts (d : Dev) : Dev :=
  emit (emit d (.pin 2 (1 - fg d SF_STATUS SF_STATUS_ERR))) (.pin 4 (!hasBit d.pm.therm 2).toNat)

/-- IMAGE_VERIFY_DONE (R439, R441): the image is refused, or its sections are placed in slot 0 and its processors are released. -/
def doImageVerifyDone (i : ImageInfo) (d : Dev) : Dev :=
  if !d.pm.loading then d
  else
    let d1 := fs d PM_LDR_STAT PM_LDR_STAT_FETCHED (sat (i.bytes / 2 ^ 20) 65535)
    let c := imageCause i
    if c ≠ 0 then bootFailed d1 c
    else
      let d2 := putImage (setLdr d1 3 0) 0 (imageOf i)
      releaseOuts (startDeadman { d2 with pm := { d2.pm with loading := false, verifyDt := d2.dt, running := 0 } })

/-- BOOT_TIMEOUT (R442): RUNNING was not reached within 2 s of step 8. -/
def doBootTimeout (d : Dev) : Dev :=
  if ldrState d ≠ 3 then d else bootFailed (advance (d.pm.verifyDt + 2000000000) d) 0

/-- A BOOT_DISPLAY record is applied (R439, R451): platform, SO_PCTRL, the four timing words, the DPLL words, route and sink,
port configuration, BACKGROUND. -/
def bootDisplay (d : Dev) (ws : List Word) : Dev :=
  let p := (wd ws 0).toNat % 16
  let k := bits (wd ws 1) 22 20
  let s := (wd ws 10).toNat % 26
  let q := sinkPort s
  let d1 := wrs (wr d (CM_PLAT_BG p) (wd ws 12)) (SO_HTIM0 p) ((ws.drop 2).take 4)
  let d2 := wr (wr d1 (SO_DPLL_W0 k) (wd ws 6)) (SO_DPLL_W1 k) (wd ws 7)
  let wasP := rd d2 (SO_PCTRL p)
  let wasR := rd d2 (SO_ROUTE s)
  let wasC := rd d2 (portCfg q)
  let d3 := wr (wr (wr d2 (SO_PCTRL p) (wd ws 1)) (SO_ROUTE s) (wd ws 9)) (portCfg q) (wd ws 11)
  cfgLanded (routeLanded (platLanded d3 p (absAt (raster d3 p) d3.dt) d3.dt wasP) s 0 wasR) q wasC

/-- The layer IDs that the island may own in Heritage: 8 to 15 and 40 to 63 (R472). -/
def heritageLayers : Nat := (2 ^ 8 - 1) * 2 ^ 8 + (2 ^ 24 - 1) * 2 ^ 40

/-- A declared layer ID outside them is left out and recorded (R472). -/
def noteHeritage (d : Dev) (layers : Nat) : Dev :=
  if layers &&& heritageLayers = layers then d
  else logErr d ecCONFLICT 0 CM_SI_LAYERS_LO (loWord layers)

/-- The declaration of a Heritage image (R456): the frame region, the island's layers and guard regions, the colour state of R460, then GL_LOCK.CM. -/
def heritageBoot (d : Dev) : Dev :=
  let i := slotImage d 0
  let base := (dramSize d - 2 ^ 27) / 65536 * 65536
  let d1 := wr (wr64 d CM_FRT_BASE_LO base) CM_FRT_SIZE (BitVec.ofNat 32 2048)
  let own := i.herLayers &&& heritageLayers
  let d2 := wr (wr (noteHeritage d1 i.herLayers) CM_SI_LAYERS_LO (loWord own)) CM_SI_LAYERS_HI (hiWord own)
  let d3 := i.herRegions.foldl (fun d pr =>
    let off := CM_GD_OWN pr.1 (pr.2 / 4)
    wr d off (putBits (rd d off) (8 * (pr.2 % 4) + 7) (8 * (pr.2 % 4)) midSI)) d2
  let d4 := (List.range 8).foldl (fun d p =>
    fs (fs d (CM_PLAT_W0 p) CM_PLAT_W0_OUT_TF 0) (CM_PLAT_W0 p) CM_PLAT_W0_DITHER 0) d3
  fs d4 GL_LOCK GL_LOCK_CM 1

/-- Reset-cause records that are not in RESET_LOG yet are copied there (R451, R453). -/
def copyCauses (d : Dev) : Dev :=
  let new := (d.pm.rcl.filter (fun r => decide (d.pm.rclCopied < r.count))).reverse
  if new = [] ∨ !d.pm.storePresent then d
  else
    let ws := new.flatMap causeWords
    storeWrite { d with pm := { d.pm with rclCopied := d.pm.rclCount } } 6 0 ws (4 * ws.length) false none

/-- Boot display k comes up, if the store has its record (R439, R451). -/
def bootDisplayOf (d : Dev) (k : Nat) : Dev :=
  match currentRec d 5 k with
  | some r => bootDisplay d r.payload
  | none => d

/-- BOOT_RUNNING (R439, R442, R443, R456): the count is zeroed, recovery is left, the displays of BOOT_DISPLAY start. -/
def doBootRunning (d : Dev) : Dev :=
  if ldrState d ≠ 3 then d
  else
    let d1 := setSlot (wr (setLdr d 4 0) PM_FW_VER (slotImage d 0).version) 0 3
    let d2 := writeBootState (fs { d1 with pm := { d1.pm with booted := true, recovery := false } } PM_BOOT_STAT
      PM_BOOT_STAT_SLOT 0) 0
    let d3 := copyCauses (restoreMap d2)
    if d.heritage then heritageBoot d3
    else
      showRate ((List.range 4).foldl bootDisplayOf d3)

/-! ### Staged images (R445) -/

/-- SLOT of FW_STAGE and FW_CUTOVER. -/
def fwSlot (q : Desc) : Nat := bits (at4 q.words 0x10) 0 0

/-- The checks of FW_STAGE: the body, then that the slot does not run. -/
def chkFwStage (d : Dev) (_f _r : Nat) (q : Desc) : Option (Nat × Nat) :=
  let load := bits (at4 q.words 0x10) 31 28 = 0
  let n := (at4 q.words 0x20).toNat
  if !bodyOk q.words [(0x10, 0xF0000001), (0x18, full), (0x1C, full), (0x20, full)] ∨
     (load ∧ (n = 0 ∨ n > 4096 ∨ at8 q.words 0x18 % 16 ≠ 0)) then some (stBAD_DESC, 0)
  else if slotState d (fwSlot q) = 3 then some (stERR_PERM, 0)
  else none

/-- The image is fetched and verified into its slot: STAGED, or BAD with the cause in DETAIL. -/
def stageImage (d : Dev) (f r : Nat) (q : Desc) (cause : Nat) (i : FwImage) : Dev :=
  if slotState d (fwSlot q) = 3 then complete d f r q.idx stERR_PERM
  else if cause = 0 then complete (putImage (setSlot d (fwSlot q) 2) (fwSlot q) i) f r q.idx stOK
  else complete (setSlot d (fwSlot q) 4) f r q.idx stBAD_DESC cause

/-- A bound FW_STAGE LOAD acts at its firing, on what its command brought. -/
def actFwLoad (f r : Nat) (q : Desc) (d : Dev) : Dev :=
  match d.pm.stagedLoads.find? (fun s => decide (s.ring = r) && decide (s.idx = q.idx)) with
  | none => complete d f r q.idx stABORTED
  | some s =>
    stageImage { d with pm := { d.pm with stagedLoads := d.pm.stagedLoads.filter (fun t => t != s) } } f r q s.cause s.img

/-- FW_STAGE LOAD. -/
def doFwStageLoad (f r : Nat) (i : ImageInfo) (d : Dev) : Dev :=
  match (ringSt d f r).queue with
  | [] => d
  | q :: _ =>
    let s : StagedLoad := { ring := r, idx := q.idx, cause := imageCause i, img := imageOf i }
    let d1 := startDesc { d with pm := { d.pm with stagedLoads := s :: d.pm.stagedLoads } } f r 0x630 [] true
      chkFwStage actFwLoad
    if (liveDesc d1 f r q.idx).isSome then d1
    else { d1 with pm := { d1.pm with stagedLoads := d1.pm.stagedLoads.filter (fun t => t != s) } }

/-- DISCARD empties a slot. -/
def actFwDiscard (f r : Nat) (q : Desc) (d : Dev) : Dev :=
  if slotState d (fwSlot q) = 3 then complete d f r q.idx stERR_PERM
  else complete (putImage (setSlot d (fwSlot q) 0) (fwSlot q) default) f r q.idx stOK

def doFwStageDiscard (f r : Nat) (d : Dev) : Dev := startDesc d f r 0x631 [] true chkFwStage actFwDiscard

/-! ### Cutover (R411, R446 to R448) -/

def onCut (d : Dev) (g : Cutover → Cutover) : Dev := { d with pm := { d.pm with cut := g d.pm.cut } }

/-- The status with which a cutover to a slot is refused, with both state-format numbers (R446); none when it runs. -/
def cutRefused (d : Dev) (slot : Nat) : Option (Nat × Nat × Nat) :=
  let a := (slotImage d d.pm.running).stateFormat.toNat
  let b := (slotImage d slot).stateFormat.toNat
  if slotState d slot ≠ 2 then some (stBAD_DESC, 0, 0)
  else if a ≠ b then some (stERR_PERM, b % 65536 * 65536 + a % 65536, b * 2 ^ 32 + a)
  else if modeOf d = mCAU ∨ dhState d = 3 then some (stERR_PERM, 0, 0)
  else if d.pm.cut.window then some (stNO_RESOURCE, 0, 0)
  else none

/-- The preemption of a window: every job soft-yields, its grace from now (R447). -/
def cutPreempt (d : Dev) : Dev := (List.range 16).foldl (fun d s => yieldSlot d s (d.dt + graceOf d)) d

/-- The cutover window opens at t_c (R447): SPDM sessions end, the dead-man timer reloads, a HOT banker goes to COLD. -/
def openWindow (d : Dev) (slot : Nat) (desc : Option (Nat × Nat)) : Dev :=
  let c : Cutover := { window := true, pendingOn := none, slot := slot, tc := d.dt, rollback := false, desc := desc }
  let d1 := startDeadman (cutPreempt { d with pm := { d.pm with cut := c }, safe := { d.safe with sess := [] } })
  if dhState d1 = 4 then setDh d1 6 else d1

/-- A descriptor's cutover acts. -/
def actCutoverNow (f r : Nat) (q : Desc) (d : Dev) : Dev :=
  match cutRefused d (fwSlot q) with
  | some x => complete d f r q.idx x.1 x.2.1 x.2.2
  | none => openWindow d (fwSlot q) (some (r, q.idx))

/-- The checks of FW_CUTOVER; its binding is to a PF-owned point. -/
def chkCutover (d : Dev) (_f _r : Nat) (q : Desc) : Option (Nat × Nat) :=
  if !bodyOk q.words [(0x10, 0xF1)] ∨ (boundTo q).any (fun c => decide ((cpEntry d c).owner ≠ 0)) then some (stBAD_DESC, 0)
  else none

/-- Unbound, it waits for the anchor's next frame start; an anchor without a timing has none, and it acts at once. One that
finds another waiting is turned away. -/
def actFwCutover (f r : Nat) (q : Desc) (d : Dev) : Dev :=
  let p := bits (at4 q.words 0x10) 7 4
  if q.cp.isSome ∨ !(raster d p).had then actCutoverNow f r q d
  else if d.pm.cut.pendingOn.isSome then complete d f r q.idx stNO_RESOURCE
  else onCut d (fun c => { c with pendingOn := some p, slot := fwSlot q, desc := some (r, q.idx) })

def doFwCutover (f r : Nat) (d : Dev) : Dev := startDesc d f r 0x640 [] true chkCutover actFwCutover

/-- The anchor of a waiting cutover starts a frame. -/
def cutoverFrame (d : Dev) (p : Nat) : Dev :=
  let c := d.pm.cut
  if c.pendingOn ≠ some p ∨ c.window then d
  else
    let d1 := onCut d (fun c => { c with pendingOn := none })
    match c.desc with
    | none => d1
    | some x =>
      match liveDesc d1 0 x.1 x.2 with
      | some q => actCutoverNow 0 x.1 q d1
      | none => d1

/-- The calling-point action CUTOVER (R57, R446): true when it was refused, which posts CUTOVER_FAIL. -/
def cutoverAction (d : Dev) (slot : Nat) : Dev × Bool :=
  match cutRefused d slot with
  | some _ => (powerEvent d 7 slot 1, true)
  | none => (openWindow d slot none, false)

/-- A commit that did not land in the window lands at the first boundary of its anchor whose composition has not begun; a
STRICT one ends LATE (R447). -/
def lateLanding (d : Dev) (i : Nat) : Dev :=
  match commitById d i with
  | none => d
  | some c =>
    let passed := (landOf c c.anchor).any (fun l =>
      decide (l.2.1 * (raster d c.anchor).vtot + l.2.2.1 < openFrom d c.anchor))
    if c.bound ∨ c.held ∨ c.landed ≠ [] ∨ !passed then d
    else if c.strict then endCommit d c stLATE
    else
      let l := (landings d c.anchor c.group none d.dt).1
      linkSend (onCommit d i (fun c => { c with land := l })) 0x03 (i :: l.flatMap (fun x => [x.1, x.2.1, x.2.2.1]))

/-- The window closes (R447): fetch resumes with one read of every ACTIVE ring, the held jobs resume, commits that were kept
from landing get their boundary; and its descriptor completes. -/
def closeWindow (d : Dev) (st detail : Nat) : Dev :=
  let desc := d.pm.cut.desc
  let d1 := { d with pm := { d.pm with cut := default } }
  let d2 := match desc with
    | some x => complete d1 0 x.1 x.2 st detail
    | none => d1
  gpuRun (((readAllRings d2).commits.map (fun c => c.id)).foldl lateLanding (readAllRings d2))

/-- FIRMWARE_READY (R447, R448): the new image runs, or in the second window the old one is back. -/
def doFirmwareReady (d : Dev) : Dev :=
  let c := d.pm.cut
  if !c.window ∨ c.tc + 40000000 < d.dt then d
  else if c.rollback then closeWindow (addCause d 0x0A 0 0) stLATE 0
  else
    let us := (d.dt - c.tc) / 1000
    let d1 := setSlot (setSlot d d.pm.running 2) c.slot 3
    let d2 := wr (fs { d1 with pm := { d1.pm with running := c.slot } } PM_BOOT_STAT PM_BOOT_STAT_SLOT c.slot) PM_FW_VER
      (slotImage d1 c.slot).version
    closeWindow (powerEvent (addCause d2 9 0 0) 6 c.slot us) stOK us

/-- CUTOVER_TIMEOUT (R448): 40 ms after t_c the old image is restored in a second window; that one ends within its 40 ms. -/
def doCutoverTimeout (d0 : Dev) : Dev :=
  let c := d0.pm.cut
  if !c.window then d0
  else
    let d := advance (c.tc + 40000000) d0
    if c.rollback then closeWindow (addCause d 0x0A 0 0) stLATE 0
    else
      let d1 := powerEvent (setSlot d c.slot 4) 7 c.slot 2
      startDeadman (onCut d1 (fun c => { c with rollback := true, tc := d.dt }))

/-! ### The commands -/

/-- BOOT_START (R439). -/
def execBootStart (s : State) : Host.Outcome State Fault Refusal := .next { s with dev := doBootStart s.dev }

/-- LOADER_LOAD (R440). -/
def execLoaderLoad (acc : Acc) (v : Word) (s : State) : Host.Outcome State Fault Refusal :=
  .next { s with dev := doLoaderLoad acc v s.dev }

/-- IMAGE_VERIFY_DONE (R441). -/
def execImageVerifyDone (img : ImageInfo) (s : State) : Host.Outcome State Fault Refusal :=
  .next { s with dev := doImageVerifyDone img s.dev }

/-- STORE_FORMAT (R443). -/
def execStoreFormat (acc : Acc) (v : Word) (s : State) : Host.Outcome State Fault Refusal :=
  .next { s with dev := doStoreFormat acc v s.dev }

/-- BOOT_TIMEOUT (R442). -/
def execBootTimeout (s : State) : Host.Outcome State Fault Refusal := .next { s with dev := doBootTimeout s.dev }

/-- BOOT_RUNNING (R442). -/
def execBootRunning (s : State) : Host.Outcome State Fault Refusal := .next { s with dev := doBootRunning s.dev }

/-- FW_STAGE_LOAD (R445). -/
def execFwStageLoad (f : Fn) (r : Ring) (img : ImageInfo) (s : State) : Host.Outcome State Fault Refusal :=
  .next { s with dev := doFwStageLoad f.val r.val img s.dev }

/-- FW_STAGE_DISCARD (R445). -/
def execFwStageDiscard (f : Fn) (r : Ring) (s : State) : Host.Outcome State Fault Refusal :=
  .next { s with dev := doFwStageDiscard f.val r.val s.dev }

/-- FW_CUTOVER (R446). -/
def execFwCutover (f : Fn) (r : Ring) (s : State) : Host.Outcome State Fault Refusal :=
  .next { s with dev := doFwCutover f.val r.val s.dev }

/-- FIRMWARE_READY (R447). -/
def execFirmwareReady (s : State) : Host.Outcome State Fault Refusal := .next { s with dev := doFirmwareReady s.dev }

/-- CUTOVER_TIMEOUT (R448). -/
def execCutoverTimeout (s : State) : Host.Outcome State Fault Refusal := .next { s with dev := doCutoverTimeout s.dev }

/-- FRAME_START (R38): the frame begins, and with it a cutover that waits for it. -/
def execFrameStart (p : Plat) (s : State) : Host.Outcome State Fault Refusal :=
  .next { s with dev := cutoverFrame (doFrameStart p.val s.dev) p.val }

end Sys2Proof.Machine
end

