-- ==== Sys2Proof/Machine/Worlds.lean ====
section
/-! DEFINITION. The secure world and the safety island (R377 to R402): SPDM and IDE, watermarks and scrubs, the dead-man
timer's refresh, monitors, signature reactions and Caution. -/

namespace Sys2Proof.Machine

def onSafe (d : Dev) (g : Safe → Safe) : Dev := { d with safe := g d.safe }

/-- A safety event (R402) for one function. -/
def safetyEvent (d : Dev) (f code pay : Nat) : Dev := post d f clSAFETY code midSI pay

/-! ### SPDM (R379) -/

/-- What the security processor answers on the DOE of a function: a response code with an argument, or ERROR (0x7F) with its
code, 0x01 InvalidRequest or 0x04 UnexpectedRequest. -/
def spdmSay (d : Dev) (f code arg : Nat) : Dev := emit d (.spdm f code arg)

/-- May the DOE of a function answer: the function is there, and PD1 is up? -/
def doeUp (d : Dev) (f : Nat) : Bool := fnExists d f && domUp d 1 && !d.pm.off && !d.pm.hib

/-- The connection state of SPDM: after GET_VERSION, GET_CAPABILITIES, NEGOTIATE_ALGORITHMS. -/
def spdmConn (d : Dev) (f : Nat) : Nat := SMap.get d.safe.conn f

/-- The session state of a function. -/
def spdmSess (d : Dev) (f : Nat) : Nat := SMap.get d.safe.sess f

def setSess (d : Dev) (f v : Nat) : Dev := onSafe d (fun x => { x with sess := SMap.set x.sess f v })

/-- A request that is answered when `ok`, else with UnexpectedRequest; `g` is its effect. -/
def spdmAsk (d : Dev) (f : Nat) (ok : Bool) (code arg : Nat) (g : Dev → Dev) : Dev :=
  if !doeUp d f then d
  else if ok then spdmSay (g d) f code arg
  else spdmSay d f 0x7F 4

/-- GET_VERSION begins a connection anew. -/
def doSpdmGetVersion (f : Nat) (d : Dev) : Dev :=
  spdmAsk d f true 0x04 0x12 (fun d =>
    setSess (onSafe d (fun x => { x with conn := SMap.set x.conn f 1 })) f 0)

def doSpdmGetCapabilities (f : Nat) (d : Dev) : Dev :=
  spdmAsk d f (decide (1 ≤ spdmConn d f)) 0x61 0 (fun d =>
    onSafe d (fun x => { x with conn := SMap.set x.conn f (max 2 (spdmConn d f)) }))

def doSpdmNegotiateAlgorithms (f : Nat) (d : Dev) : Dev :=
  spdmAsk d f (decide (2 ≤ spdmConn d f)) 0x63 0 (fun d => onSafe d (fun x => { x with conn := SMap.set x.conn f 3 }))

def doSpdmGetDigests (f : Nat) (d : Dev) : Dev := spdmAsk d f (decide (3 ≤ spdmConn d f)) 0x01 0 id

/-- A request that names a certificate slot: 0 and 1 are there. -/
def spdmSlot (d : Dev) (f slot code : Nat) : Dev :=
  if doeUp d f ∧ 3 ≤ spdmConn d f ∧ 2 ≤ slot then spdmSay d f 0x7F 1
  else spdmAsk d f (decide (3 ≤ spdmConn d f)) code slot id

def doSpdmGetCertificate (f slot : Nat) (d : Dev) : Dev := spdmSlot d f slot 0x02

def doSpdmChallenge (f slot : Nat) (d : Dev) : Dev := spdmSlot d f slot 0x03

/-- GET_MEASUREMENTS: index 0 asks for their number, 0xFF for all, 1 to 9 for one. -/
def doSpdmGetMeasurements (f index : Nat) (d : Dev) : Dev :=
  if doeUp d f ∧ 3 ≤ spdmConn d f ∧ 9 < index ∧ index ≠ 0xFF then spdmSay d f 0x7F 1
  else spdmAsk d f (decide (3 ≤ spdmConn d f)) 0x60 (if index = 0 then 9 else index) id

/-- KEY_EXCHANGE is for the secure function alone (R379). -/
def doSpdmKeyExchange (f : Nat) (d : Dev) : Dev :=
  spdmAsk d f (ptSecure d f && decide (3 ≤ spdmConn d f) && decide (spdmSess d f = 0)) 0x64 0 (fun d => setSess d f 1)

def doSpdmFinish (f : Nat) (d : Dev) : Dev := spdmAsk d f (decide (spdmSess d f = 1)) 0x65 0 (fun d => setSess d f 2)

def doSpdmKeyUpdate (f : Nat) (d : Dev) : Dev := spdmAsk d f (decide (spdmSess d f = 2)) 0x69 0 id

def doSpdmHeartbeat (f : Nat) (d : Dev) : Dev := spdmAsk d f (decide (spdmSess d f = 2)) 0x68 0 id

def doSpdmEndSession (f : Nat) (d : Dev) : Dev := spdmAsk d f (decide (spdmSess d f = 2)) 0x6C 0 (fun d => setSess d f 0)

/-! ### IDE (R378, R380) -/

/-- The state of an IDE stream: 0 disabled, 1 Secure, 2 Insecure. -/
def ideFld (k : Nat) : Fld := if k = 0 then SE_IDE_STAT_STATE0 else SE_IDE_STAT_STATE1

/-- The writes that were held back go when no stream is Insecure. -/
def flushHeld (d : Dev) : Dev :=
  if fg d SE_IDE_STAT (ideFld 0) = 2 ∨ fg d SE_IDE_STAT (ideFld 1) = 2 then d
  else (onSafe d (fun x => { x with held := [] })) |> fun d1 =>
    d.safe.held.foldl (fun d w => emit d (.hostWrite w.f w.iova w.bytes)) d1

/-- IDE_KM KEY_PROG over the session: a new key set is programmed. -/
def doIdeKmKeyProg (f k : Nat) (d : Dev) : Dev :=
  spdmAsk d f (ptSecure d f && decide (spdmSess d f = 2)) 0x7E 0x03 (fun d =>
    onSafe d (fun x => { x with ideKeys := x.ideKeys ||| 2 ^ k }))

/-- K_SET_GO: with a key set programmed, the stream is Secure, and traffic resumes. -/
def doIdeKSetGo (f k : Nat) (d : Dev) : Dev :=
  spdmAsk d f (ptSecure d f && decide (spdmSess d f = 2) && hasBit d.safe.ideKeys k) 0x7E 0x06 (fun d =>
    flushHeld (fs (onSafe d (fun x => { x with ideKeys := x.ideKeys - 2 ^ k })) SE_IDE_STAT (ideFld k) 1))

/-- IDE_FAIL: a Secure stream fails its integrity check and is Insecure; the secure function's host writes stop. -/
def doIdeFail (k : Nat) (d : Dev) : Dev :=
  if fg d SE_IDE_STAT (ideFld k) ≠ 1 then d
  else post (bump (fs d SE_IDE_STAT (ideFld k) 2) SE_IDE_STAT SE_IDE_STAT_FAILS) 0 clSAFETY 7 midSEC (pb 0 k)

/-- The secure function departs: its sessions end and its streams are Insecure (R378). -/
def secureDepart (d : Dev) (f : Nat) : Dev :=
  let d1 := onSafe d (fun x => { x with sess := SMap.erase x.sess f, conn := SMap.erase x.conn f })
  if !ptSecure d f then d1
  else [0, 1].foldl (fun d k => if fg d SE_IDE_STAT (ideFld k) = 0 then d else fs d SE_IDE_STAT (ideFld k) 2) d1

/-! ### Watermarks (R381 to R384) -/

/-- A range of DRAM reads zero: what was written and what was free in it are gone. -/
def zeroDram (d : Dev) (lo hi : Nat) : Dev :=
  let cut (r : FreeRange) : List FreeRange :=
    (if r.lo < lo then [{ r with len := min r.len (lo - r.lo) }] else []) ++
    (if hi < r.lo + r.len then
      [{ lo := max hi r.lo, len := r.lo + r.len - max hi r.lo, key := r.key + (max hi r.lo - r.lo) }] else [])
  let d1 := cleanLines d lo (hi - lo)
  if hi ≤ lo then d
  else
    { d1 with dram := SMap.splice d1.dram lo hi []
              dramFree := d1.dramFree.flatMap (fun r => if hi ≤ r.lo ∨ r.lo + r.len ≤ lo then [r] else cut r) }

def wmOff (k : WmKind) : Nat := match k with
  | .dram => MC_SEC_WM
  | .skein => SK_SEC_WM

def scrubOff (k : WmKind) : Nat := match k with
  | .dram => MC_SEC_SCRUB
  | .skein => SK_SEC_SCRUB

/-- The place of a memory's scrub. -/
def wmKey (k : WmKind) : Nat := match k with
  | .dram => 0
  | .skein => 1

/-- The watermark of a memory, in its units. -/
def wmNow (d : Dev) (k : WmKind) : Nat := match k with
  | .dram => fg d MC_SEC_WM MC_SEC_WM_WM
  | .skein => skWm d

/-- The scrub that runs in a memory. -/
def scrubRun (d : Dev) (k : WmKind) : Option Scrub := SMap.find? d.safe.scrubs (wmKey k)

def setBusy (d : Dev) (k : WmKind) (v : Nat) : Dev := match k with
  | .dram => fs d MC_SEC_STAT MC_SEC_STAT_BUSY v
  | .skein => fs d SK_SEC_STAT SK_SEC_STAT_BUSY v

/-- A scrub begins. A secure access to what is not scrubbed yet waits, so the range reads zero from now on (R382). -/
def beginScrub (d : Dev) (k : WmKind) (lo hi : Nat) (lower : Bool) : Dev :=
  let s : Scrub := { lo := lo, hi := hi, t0 := d.dt, lower := lower }
  let d1 := setBusy (onSafe d (fun x => { x with scrubs := SMap.insert x.scrubs (wmKey k) s })) k 1
  match k with
  | .dram => fs (zeroDram d1 (lo * 65536) (hi * 65536)) MC_SEC_STAT MC_SEC_STAT_AT lo
  | .skein => d1

/-- Prefetch blocks in a range of the pool are reclaimed (R256, R382). -/
def dropPrefetch (d : Dev) (lo hi : Nat) : Dev :=
  let pre (r : SkRun) : Bool := decide (4 ≤ r.pool) || r.lent
  let part (r : SkRun) : List SkRun :=
    (if r.start < lo then [{ r with len := min r.len (lo - r.start) }] else []) ++
    (if hi < r.start + r.len then [{ r with start := max hi r.start, len := r.start + r.len - max hi r.start }] else [])
  let rs := d.buf.runs.flatMap (fun r => if pre r then part r else [r])
  showSkein { d with buf := { d.buf with runs := rs } }

/-- Why a raise of SK_SEC_WM is discarded: a block that no one may reclaim, or a negative remainder (R382). -/
def skeinConflict (d : Dev) (v : Nat) : Bool :=
  d.buf.runs.any (fun r => decide (r.pool < 4) && !r.lent && decide (r.start < v) && decide (skWm d < r.start + r.len)) ||
  decide (8192 < v + ((List.range 8).map (skRes d)).sum)

/-- A write of a watermark (R382 to R384). -/
def doWatermarkRaise (a : Acc) (k : WmKind) (v : Word) (d : Dev) : Dev :=
  let n := if k = .dram then bits v 19 0 else bits v 12 0
  let cur := wmNow d k
  let old := rd d (wmOff k)
  let w := guardWrite a (wmOff k) v (fun _ =>
    if (scrubRun d k).isSome then some ecBUSY
    else if fb d SE_LOCK SE_LOCK_WM then none
    else if n < cur then some ecNOT_PERMITTED
    else if k = .skein ∧ skeinConflict d n then some ecCONFLICT
    else none) d
  match w.2 with
  | .done _ =>
    if fb d SE_LOCK SE_LOCK_WM ∨ (k = .dram ∧ d.dramUnits < n) then wr w.1 (wmOff k) old
    else if n = cur then w.1
    else
      let d1 := beginScrub w.1 k cur n false
      if k = .skein then dropPrefetch d1 cur n else d1
  | _ => w.1

/-- A write of a scrub register lowers the watermark after a scrub (R383, R384). -/
def doWatermarkLower (a : Acc) (k : WmKind) (v : Word) (d : Dev) : Dev :=
  let n := if k = .dram then bits v 19 0 else bits v 12 0
  let cur := wmNow d k
  let w := guardWrite a (scrubOff k) v (fun _ =>
    if (scrubRun d k).isSome then some ecBUSY
    else if fb d SE_LOCK SE_LOCK_WM then none
    else if cur < n then some ecOUT_OF_RANGE
    else none) d
  match w.2 with
  | .done _ => if fb d SE_LOCK SE_LOCK_WM ∨ n = cur then w.1 else beginScrub w.1 k n cur true
  | _ => w.1

/-- How long a scrub takes in ns: 32 GB/s in DRAM, one block per 64 cycles of 1.2 GHz in the pool (R382). -/
def scrubNs (k : WmKind) (s : Scrub) : Nat :=
  match k with
  | .dram => (s.hi - s.lo) * 2048
  | .skein => cdiv ((s.hi - s.lo) * 160) 3

/-- SCRUB_DONE: BUSY clears, and a watermark that is lowered moves (R383). -/
def doScrubDone (k : WmKind) (d : Dev) : Dev :=
  match scrubRun d k with
  | none => d
  | some s =>
    let d1 := advance (s.t0 + scrubNs k s) d
    let d2 := setBusy (onSafe d1 (fun x => { x with scrubs := SMap.erase x.scrubs (wmKey k) })) k 0
    let d3 := if k = .dram then fs d2 MC_SEC_STAT MC_SEC_STAT_AT s.hi else d2
    if s.lower then
      match k with
      | .dram => wr d3 MC_SEC_WM (BitVec.ofNat 32 s.lo)
      | .skein => showSkein (wr d3 SK_SEC_WM (BitVec.ofNat 32 s.lo))
    else if k = .skein then showSkein d3 else d3

/-- What MC_SEC_STAT shows: AT moves with the scrub. -/
def secStatWord (d : Dev) : Word :=
  match scrubRun d .dram with
  | none => rd d MC_SEC_STAT
  | some s => putBits (rd d MC_SEC_STAT) 19 0 (min s.hi (s.lo + (d.dt - s.t0) / 2048))

/-! ### The dead-man timer (R389) -/

/-- The milliseconds to expiry. -/
def deadmanRemain (d : Dev) : Nat :=
  match d.safe.dmFrom with
  | none => fg d SE_DEADMAN_CFG SE_DEADMAN_CFG_TIMEOUT_MS
  | some t => d.safe.dmMs - (d.dt - t) / 1000000

/-- SE_DEADMAN_KICK: the two words in order within 1 ms reload the timer; anything else voids the sequence. -/
def doDeadmanKick (a : Acc) (v : Word) (d : Dev) : Dev :=
  let w := regWrite a SE_DEADMAN_KICK v d
  match w.2 with
  | .done _ =>
    let ok := d.safe.kick.any (fun t => decide (d.dt ≤ t + 1000000))
    if v = 0x5A5A ∧ d.safe.kick.isNone then onSafe w.1 (fun x => { x with kick := some d.dt })
    else if v = 0xA5A5 ∧ ok then
      let d1 := onSafe w.1 (fun x => { x with kick := none })
      if d.safe.dmFrom.isSome then startDeadman d1 else d1
    else
      logErr (bump (onSafe w.1 (fun x => { x with kick := none })) SE_DEADMAN_STAT SE_DEADMAN_STAT_BAD_KICKS)
        ecBAD_SEQUENCE a.mid.toNat SE_DEADMAN_KICK v a.secure
  | _ => w.1

/-! ### Monitors (R393, R394) -/

/-- ERR_N follows the latches: an ERR latch of a region, or a monitor latch but for the junction temperature's. -/
def showErr (d : Dev) : Dev :=
  let mon := fg d SF_MON_STAT SF_MON_STAT_LATCH
  let err := (List.range 16).any (fun p => fg d (SF_LATCH p) SF_LATCH_ERR != 0) || decide (mon &&& 0x2FF ≠ 0)
  let d1 := fs d SF_STATUS SF_STATUS_MON mon
  if fb d1 SF_STATUS SF_STATUS_ERR = err then d1 else emit (fs d1 SF_STATUS SF_STATUS_ERR err.toNat) (.pin 2 (!err).toNat)

/-- SAFE_STATE_N is driven low until cold reset. -/
def safeState (d : Dev) : Dev :=
  if fb d SF_STATUS SF_STATUS_SAFE_STATE then d else emit (fs d SF_STATUS SF_STATUS_SAFE_STATE 1) (.pin 3 0)

/-- A monitor's latch sets, and MONITOR goes to F0. -/
def latchMonitor (d : Dev) (k : Nat) : Dev :=
  safetyEvent (showErr (fs d SF_MON_STAT SF_MON_STAT_LATCH (fg d SF_MON_STAT SF_MON_STAT_LATCH ||| 2 ^ k))) 0 6 (pb 1 k)

def doMonitorDetect (k : Nat) (d : Dev) : Dev := if domUp d 2 ∧ !d.safe.halted then latchMonitor d k else d

/-- LOCKSTEP_FAULT: SAFE_STATE_N and ERR_N low; the island halts. -/
def doLockstepFault (d : Dev) : Dev :=
  if !domUp d 2 ∨ d.safe.halted then d
  else latchMonitor (safeState (fs (onSafe d (fun x => { x with halted := true })) SF_STATUS SF_STATUS_LOCKSTEP 1)) 9

/-! ### Caution (R395 to R399) -/

/-- The platforms that Caution designates. -/
def cauPlats (d : Dev) : Nat := fg d SF_CAU_PLAT SF_CAU_PLAT_PLAT

/-- An event for F0 and every enabled function. -/
def tellAll (d : Dev) (code pay : Nat) : Dev :=
  (List.range 32).foldl (fun d f => if f = 0 ∨ fnState d f = 1 then safetyEvent d f code pay else d) d

/-- The GPU of Caution: work on slots that it does not allow, or of contexts that it does not allow, is preempted (R202,
R398). -/
def cautionGpu (d : Dev) : Dev :=
  gpuRun ((List.range 16).foldl (fun d s =>
    match (gslot d s).ctx with
    | none => d
    | some c => if modeAllows d c s then d else hardOut d s) (showGpu d))

/-- The commits that an entry into Caution ends: mode commits that have not landed anywhere, and others for a designated
platform that are not bound (R395, R396). -/
def cautionEnds (d : Dev) (c : Commit) : Bool :=
  decide (c.landed = []) &&
  (c.items.any (fun it => match it with | .mode _ => true | _ => false) ||
   (!c.bound && decide (c.group &&& cauPlats d ≠ 0) && decide (c.src ≠ .island)))

/-- A platform is darkened at its first frame start after entry (R397). -/
def darken (d : Dev) (p : Nat) : Dev :=
  if hasBit (cauPlats d) p ∨ !platOn d p then d
  else onPlat (onSafe d (fun x => { x with dark := x.dark ||| 2 ^ p })) p (fun y => { y with disFrame := some (frameNext d p) })

/-- The mirrored item of Caution (R405, R424). -/
def cautionItem (d : Dev) : List Nat :=
  [2 ^ 32 + 6, cauPlats d, fg d SF_CAUTION SF_CAUTION_OTHERS, fg d SF_CAUTION SF_CAUTION_PREV_MODE,
   fg d SF_CAUTION SF_CAUTION_CAU_LATCH]

/-- Caution is entered (R395 to R398), by a write (cause 0) or a reaction (cause 1). -/
def enterCaution (d : Dev) (cause : Nat) : Dev :=
  if modeOf d = mCAU then d
  else
    let prev := modeOf d
    let d1 := fs (takeCap (fs d GL_MODE GL_MODE_MODE mCAU) mCAU) SF_CAUTION SF_CAUTION_PREV_MODE prev
    let d2 := fs (fs d1 SF_STATUS SF_STATUS_CAUTION 1) SF_CAUTION SF_CAUTION_ENTER 1
    let d3 := linkSend d2 0x05 (cautionItem d2)
    let spans := (bitsOf 16 (cauPlats d)).map (fun p => ({ plat := p, from0 := openFrom d p, to0 := none } : CauSpan))
    let d4 := onSafe d3 (fun x => { x with cau := spans ++ x.cau.filter (fun s => !hasBit (cauPlats d) s.plat), dark := 0 })
    let d5 := (d4.commits.filter (cautionEnds d4)).foldl (fun d c => endCommit d c stERR_DOWN) d4
    let d6 := if fb d SF_CAUTION SF_CAUTION_OTHERS then (List.range 16).foldl darken d5 else d5
    tellAll (cautionGpu (showPending d6)) 4 (pb 0 prev + pb 1 cause + pw32 4 (cauPlats d))

/-- The exit is a device-wide commit of the designated and darkened platforms and the anchor (R399). -/
def leaveCaution (d : Dev) : Dev :=
  let a := fg d SF_CAUTION SF_CAUTION_ANCHOR
  let g := cauPlats d ||| d.safe.dark ||| 2 ^ a
  if d.commits.any (fun c => c.items.any isCautionExit) then d
  else acceptCommit (fs d SF_CAUTION SF_CAUTION_EXIT 1) 0 .device a g none false true
    [.cautionExit (fg d SF_CAUTION SF_CAUTION_PREV_MODE)]

/-- A write of SF_CAUTION (R395, R399). -/
def cautionTaken (was v : Word) (d : Dev) : Dev :=
  let d1 := fs (fs d SF_CAUTION SF_CAUTION_ENTER (bits was 31 31)) SF_CAUTION SF_CAUTION_EXIT (bits was 30 30)
  if bit v 31 then enterCaution d1 0
  else if modeOf d = mCAU then (if bit v 30 then leaveCaution (cautionGpu d1) else cautionGpu d1)
  else d1

/-- The request that SF_CAUTION's write refuses: an entry in Caution, and an exit while the latch is set (R395, R399). -/
def cautionBad (d : Dev) (v : Word) : Option Nat :=
  if bit v 31 ∧ modeOf d = mCAU then some ecCONFLICT
  else if bit v 30 ∧ !bit v 31 ∧ fb d SF_CAUTION SF_CAUTION_CAU_LATCH then some ecCONFLICT
  else none

/-- A write of SF_CAUTION. -/
def cautionWrite (a : Acc) (v : Word) (d : Dev) : Dev :=
  let w := guardWrite a SF_CAUTION v (fun _ => cautionBad d v) d
  match w.2 with
  | .done _ => cautionTaken (rd d SF_CAUTION) v w.1
  | _ => w.1

def doCautionEnter (a : Acc) (v : Word) (d : Dev) : Dev := cautionWrite a (putBits v 31 30 2) d

def doCautionExit (a : Acc) (v : Word) (d : Dev) : Dev := cautionWrite a (putBits v 31 30 1) d

/-- The exit lands on its anchor: the mode that was left is in force again (R399). -/
def landCautionExit (d : Dev) (m : Nat) : Dev :=
  let d1 := fs (fs (fs d SF_STATUS SF_STATUS_CAUTION 0) SF_CAUTION SF_CAUTION_ENTER 0) SF_CAUTION SF_CAUTION_EXIT 0
  tellAll (setMode d1 m) 5 (pb 0 m)

/-- The exit lands on a platform at an absolute line: a designated one composes its configuration again, a darkened one is
enabled again (R78, R399). -/
def exitOn (d : Dev) (p b : Nat) : Dev :=
  let d1 := onSafe d (fun x => { x with cau := x.cau.map (fun s =>
    if s.plat = p ∧ s.to0.isNone then { s with to0 := some b } else s) })
  if !hasBit d1.safe.dark p then d1
  else
    let x := raster d1 p
    let d2 := onSafe d1 (fun y => { y with dark := y.dark - 2 ^ p })
    if x.virt then onPlat d2 p (fun y => { y with enFrame := some (b / max 1 x.vtot + 1), disFrame := none })
    else onPlat d2 p (fun y => { y with disFrame := none })

/-! ### Signature reactions (R392, R417) -/

/-- What a counter's action does to a region (R392). -/
def react (d : Dev) (p r f : Nat) : Dev :=
  let act := fg d (SF_SIGREACT p r) SF_SIGREACT_ACTION
  let d1 := if hasBit act 0 then fs d (SF_LATCH p) SF_LATCH_FALLBACK (fg d (SF_LATCH p) SF_LATCH_FALLBACK ||| 2 ^ r) else d
  let d2 := if hasBit act 1 then showErr (fs d1 (SF_LATCH p) SF_LATCH_ERR (fg d1 (SF_LATCH p) SF_LATCH_ERR ||| 2 ^ r)) else d1
  let d3 := if hasBit act 3 then safeState d2 else d2
  let d4 := safetyEvent d3 0 3 (pb 0 p + pb 1 r + pb 2 act + pw32 4 f)
  if hasBit act 2 then enterCaution (fs d4 SF_CAUTION SF_CAUTION_CAU_LATCH 1) 1 else d4

/-- An event about a region's signature for F0 and, but for NO_OUTPUT, the region's owner (R402). -/
def sigEvent (d : Dev) (p r code pay : Nat) : Dev :=
  let owner := guardOwner d p r
  let d1 := safetyEvent d 0 code pay
  if code = 1 ∧ owner ≠ 0 ∧ owner < 32 then safetyEvent d1 owner code pay else d1

/-- The reaction counters take an outcome (R392); `flags` holds SUBST and LAND_IN. -/
def countSig (d : Dev) (p r out f : Nat) (crc : Word) (subst landIn : Bool) : Dev :=
  let off := SF_SIGREACT p r
  let pay := pb 0 p + pb 1 r + pb 2 (subst.toNat + landIn.toNat * 2) + pw32 4 f + pw32 8 crc.toNat
  let told (d : Dev) (v : Bool) : Dev := onSafe d (fun x => { x with noOut := SMap.set x.noOut (16 * p + r) v })
  let stops := hasBit (fg d (SF_LATCH p) SF_LATCH_FALLBACK) r
  let bound := hasBit (rd d (SO_SIG_BIND p)).toNat r
  if out = 1 then
    told (if stops then d else fs (fs d off SF_SIGREACT_BAD 0) off SF_SIGREACT_NOOUT 0) false
  else if out = 2 ∧ bound then
    let d0 := told d false
    if landIn ∧ fb d off SF_SIGREACT_LAND_EXCUSE ∨ stops then d0
    else
      let n := sat (fg d0 off SF_SIGREACT_BAD + 1) 255
      let d1 := sigEvent (fs d0 off SF_SIGREACT_BAD n) p r 1 pay
      let tol := fg d1 off SF_SIGREACT_TOL
      if tol ≠ 0 ∧ tol ≤ n then fs (react d1 p r f) off SF_SIGREACT_BAD 0 else d1
  else if out = 3 then
    let d0 := if SMap.get d.safe.noOut (16 * p + r) then d else told (sigEvent d p r 2 pay) true
    if stops then d0
    else
      let n := sat (fg d0 off SF_SIGREACT_NOOUT + 1) 255
      let d1 := fs d0 off SF_SIGREACT_NOOUT n
      let tol := fg d1 off SF_SIGREACT_NOOUT_TOL
      if tol ≠ 0 ∧ tol ≤ n then fs (react d1 p r f) off SF_SIGREACT_NOOUT 0 else d1
  else d

/-- The CRC of a region's frame differs between the devices: shadow divergence takes a HOT banker to COLD (R411, R417). -/
def diverge (d : Dev) (p r f : Nat) : Dev :=
  if dhState d ≠ 4 then d
  else
    let d1 := bump d DH_DIVERGE DH_DIVERGE_COUNT
    let d2 := fs (fs d1 DH_DIVERGE DH_DIVERGE_REGION r) DH_DIVERGE DH_DIVERGE_PLATFORM p
    pairEvent (setDh d2 6) 6 (p + r * 16 + f % 2 ^ 24 * 256)

/-- A record of a region and frame in a list, if its CRC is another. -/
def crcDiffers (l : List SigRec) (s : SigRec) : Bool :=
  l.any (fun o => decide (o.plat = s.plat) && decide (o.region = s.region) && decide (o.frame = s.frame) && o.crc != s.crc)

/-- The banker's own CRC of a bound region meets the lead's (R417). -/
def shadowOwn (d : Dev) (s : SigRec) : Dev :=
  let d1 := { d with pair := { d.pair with mySig := (s :: d.pair.mySig).take 512 } }
  if hasBit (rd d (SO_SIG_BIND s.plat)).toNat s.region && crcDiffers d.pair.leadSig s then diverge d1 s.plat s.region s.frame
  else d1

/-- SIGNATURE_RESULT (R287 to R289, R392, R417): the result is latched; a lead sends it, a banker compares it, else the
island's counters take it. -/
def doSignatureResult (p r : Nat) (told : List OutPix) (d : Dev) : Dev :=
  let x := latchSig d p r told
  match x.2 with
  | none => x.1
  | some out =>
    let f := (rd x.1 (SO_SIG_RES_FRAME p r)).toNat
    let crc := rd x.1 (SO_SIG_RES_CRC p r)
    let subst := fb x.1 (SO_SIG_RES_OUT p r) SO_SIG_RES_OUT_SUBST
    let landIn := fb x.1 (SO_SIG_RES_OUT p r) SO_SIG_RES_OUT_LAND_IN
    if bankerLike x.1 then shadowOwn x.1 { plat := p, region := r, frame := f, crc := crc }
    else countSig (linkSend x.1 0x08 [p, r, f, crc.toNat, subst.toNat, landIn.toNat]) p r out f crc subst landIn

/-! ### The commands -/

/-- SPDM_GET_VERSION (R379). -/
def execSpdmGetVersion (f : Fn) (s : State) : Host.Outcome State Fault Refusal :=
  .next { s with dev := doSpdmGetVersion f.val s.dev }

/-- SPDM_GET_CAPABILITIES (R379). -/
def execSpdmGetCapabilities (f : Fn) (s : State) : Host.Outcome State Fault Refusal :=
  .next { s with dev := doSpdmGetCapabilities f.val s.dev }

/-- SPDM_NEGOTIATE_ALGORITHMS (R379). -/
def execSpdmNegotiateAlgorithms (f : Fn) (s : State) : Host.Outcome State Fault Refusal :=
  .next { s with dev := doSpdmNegotiateAlgorithms f.val s.dev }

/-- SPDM_GET_DIGESTS (R379). -/
def execSpdmGetDigests (f : Fn) (s : State) : Host.Outcome State Fault Refusal :=
  .next { s with dev := doSpdmGetDigests f.val s.dev }

/-- SPDM_GET_CERTIFICATE (R379). -/
def execSpdmGetCertificate (f : Fn) (slot : Fin 8) (s : State) : Host.Outcome State Fault Refusal :=
  .next { s with dev := doSpdmGetCertificate f.val slot.val s.dev }

/-- SPDM_CHALLENGE (R379). -/
def execSpdmChallenge (f : Fn) (slot : Fin 8) (s : State) : Host.Outcome State Fault Refusal :=
  .next { s with dev := doSpdmChallenge f.val slot.val s.dev }

/-- SPDM_GET_MEASUREMENTS (R379). -/
def execSpdmGetMeasurements (f : Fn) (index : Fin 256) (s : State) : Host.Outcome State Fault Refusal :=
  .next { s with dev := doSpdmGetMeasurements f.val index.val s.dev }

/-- SPDM_KEY_EXCHANGE (R379). -/
def execSpdmKeyExchange (f : Fn) (s : State) : Host.Outcome State Fault Refusal :=
  .next { s with dev := doSpdmKeyExchange f.val s.dev }

/-- SPDM_FINISH (R379). -/
def execSpdmFinish (f : Fn) (s : State) : Host.Outcome State Fault Refusal :=
  .next { s with dev := doSpdmFinish f.val s.dev }

/-- SPDM_KEY_UPDATE (R379). -/
def execSpdmKeyUpdate (f : Fn) (s : State) : Host.Outcome State Fault Refusal :=
  .next { s with dev := doSpdmKeyUpdate f.val s.dev }

/-- SPDM_HEARTBEAT (R379). -/
def execSpdmHeartbeat (f : Fn) (s : State) : Host.Outcome State Fault Refusal :=
  .next { s with dev := doSpdmHeartbeat f.val s.dev }

/-- SPDM_END_SESSION (R379). -/
def execSpdmEndSession (f : Fn) (s : State) : Host.Outcome State Fault Refusal :=
  .next { s with dev := doSpdmEndSession f.val s.dev }

/-- IDE_KM_KEY_PROG (R380). -/
def execIdeKmKeyProg (f : Fn) (stream : Fin 2) (s : State) : Host.Outcome State Fault Refusal :=
  .next { s with dev := doIdeKmKeyProg f.val stream.val s.dev }

/-- IDE_K_SET_GO (R380). -/
def execIdeKSetGo (f : Fn) (stream : Fin 2) (s : State) : Host.Outcome State Fault Refusal :=
  .next { s with dev := doIdeKSetGo f.val stream.val s.dev }

/-- IDE_FAIL (R380). -/
def execIdeFail (stream : Fin 2) (s : State) : Host.Outcome State Fault Refusal :=
  .next { s with dev := doIdeFail stream.val s.dev }

/-- WATERMARK_RAISE (R382). -/
def execWatermarkRaise (acc : Acc) (k : WmKind) (v : Word) (s : State) : Host.Outcome State Fault Refusal :=
  .next { s with dev := doWatermarkRaise acc k v s.dev }

/-- WATERMARK_LOWER (R383). -/
def execWatermarkLower (acc : Acc) (k : WmKind) (v : Word) (s : State) : Host.Outcome State Fault Refusal :=
  .next { s with dev := doWatermarkLower acc k v s.dev }

/-- SCRUB_DONE (R382, R383). -/
def execScrubDone (k : WmKind) (s : State) : Host.Outcome State Fault Refusal :=
  .next { s with dev := doScrubDone k s.dev }

/-- DEADMAN_KICK (R389). -/
def execDeadmanKick (acc : Acc) (v : Word) (s : State) : Host.Outcome State Fault Refusal :=
  .next { s with dev := doDeadmanKick acc v s.dev }

/-- MONITOR_DETECT (R394). -/
def execMonitorDetect (k : Fin 9) (s : State) : Host.Outcome State Fault Refusal :=
  .next { s with dev := doMonitorDetect k.val s.dev }

/-- LOCKSTEP_FAULT (R394). -/
def execLockstepFault (s : State) : Host.Outcome State Fault Refusal :=
  .next { s with dev := doLockstepFault s.dev }

/-- CAUTION_ENTER (R395). -/
def execCautionEnter (acc : Acc) (v : Word) (s : State) : Host.Outcome State Fault Refusal :=
  .next { s with dev := doCautionEnter acc v s.dev }

/-- CAUTION_EXIT (R399). -/
def execCautionExit (acc : Acc) (v : Word) (s : State) : Host.Outcome State Fault Refusal :=
  .next { s with dev := doCautionExit acc v s.dev }

/-- SIGNATURE_RESULT (R287, R392). -/
def execSignatureResult (p : Plat) (r : Fin 16) (px : List OutPix) (s : State) : Host.Outcome State Fault Refusal :=
  .next { s with dev := doSignatureResult p.val r.val px s.dev }

end Sys2Proof.Machine
end

