-- ==== Sys2Proof/Machine/Guests.lean ====
section
/-! DEFINITION. The function manager (R115 to R144): the partition table, departures, the commands of the device MMU, and
migration. What the landing of a partition change takes from its function is in Machine/Landing.lean. -/

namespace Sys2Proof.Machine

/-! ### The partition table (R118 to R123) -/

/-- The entry of Fn as it will stand after every earlier accepted change (R120). -/
def futurePt (d : Dev) (n : Nat) : List Word :=
  (pendingItems d).foldl (fun ws it => match it with
    | .partition f e => if f = n then e else ws
    | _ => ws) (ptEntry d n)

/-- The reference vertical total of R120. -/
def refVtot (d : Dev) : Nat :=
  let p := fg d HS_TP_CTRL HS_TP_CTRL_REF
  match timingOf (futReg d []) p with
  | some t => t.vtot
  | none => if (raster d p).had then (raster d p).vtot else 16383

/-- A rule of R120 that fails: the status, and the offset of the field in the entry. -/
def ptRangeRules (d : Dev) (ws : List Word) : List (Bool × Nat) :=
  let w (k : Nat) : Word := wd ws k
  let res (k hi lo : Nat) : Bool × Nat := (bits (w k) hi lo != 0, 4 * k)
  [res 0 25 23, res 0 15 0, (decide (bits (w 0) 29 28 = 3), 0), (decide (bits (w 0) 22 16 > 64), 0),
   res 1 31 25, res 1 15 8, (decide (bits (w 1) 24 16 > 256), 4), (decide (bits (w 1) 7 0 + bits (w 1) 24 16 > 256), 4),
   res 2 31 26, res 2 15 10, (decide (bits (w 2) 25 16 > 1008), 8), (decide (bits (w 2) 9 0 + bits (w 2) 25 16 > 1008), 8),
   res 3 31 25, (decide (bits (w 3) 24 16 > 384), 12), (decide (bits (w 3) 15 0 > 8192), 12),
   res 6 15 14, (decide (bits (w 6) 13 0 > 8191), 24), res 7 11 0, res 9 11 0,
   (decide (bits (w 11) 15 0 + bits (w 11) 31 16 > refVtot d), 44), res 12 23 20, res 12 15 0,
   (w 13 != 0, 52), (w 14 != 0, 56), (w 15 != 0, 60)]

/-- Do two ranges of a base and a count share an element? -/
def rangesMeet (a an b bn : Nat) : Bool := decide (an ≠ 0) && decide (bn ≠ 0) && decide (a < b + bn) && decide (b < a + an)

/-- The fields of two VALID entries that grant one resource twice, in the order of the entry. -/
def ptOverlaps (x y : List Word) : List (Bool × Nat) :=
  let both (k hi lo : Nat) : Bool := bits (wd x k) hi lo &&& bits (wd y k) hi lo != 0
  [(rangesMeet (bits (wd x 1) 7 0) (bits (wd x 1) 24 16) (bits (wd y 1) 7 0) (bits (wd y 1) 24 16), 4),
   (rangesMeet (bits (wd x 2) 9 0) (bits (wd x 2) 25 16) (bits (wd y 2) 9 0) (bits (wd y 2) 25 16), 8),
   (both 4 31 0, 16), (both 5 31 0, 20), (both 7 31 12, 28), (both 8 31 0, 32)]

/-- Do the windows of two TIMEPART entries share a line and a group? -/
def windowsMeet (x y : List Word) : Bool :=
  bit (wd x 0) 26 && bit (wd y 0) 26 && (bits (wd x 12) 19 16 &&& bits (wd y 12) 19 16 != 0) &&
  rangesMeet (bits (wd x 11) 15 0) (bits (wd x 11) 31 16) (bits (wd y 11) 15 0) (bits (wd y 11) 31 16)

/-- The first rule of R120 that a new entry for Fn breaks, as its status and the offset of the field. -/
def ptBad (d : Dev) (n : Nat) (ws : List Word) : Option (Nat × Nat) :=
  let old := futurePt d n
  let others := ((List.range 32).filter (fun k => k != n)).map (futurePt d)
  let valid (e : List Word) : Bool := bit (wd e 0) 31
  let live := others.filter valid
  let secures := ((ws :: others).filter (fun e => valid e && bit (wd e 0) 30)).length
  let sum (k hi lo : Nat) : Nat := ((ws :: live).map (fun e => bits (wd e k) hi lo)).sum
  match (ptRangeRules d ws).find? (fun x => x.1) with
  | some x => some (stBAD_DESC, x.2)
  | none =>
    if (locked d 0 ∧ bit (wd ws 0) 30 ≠ bit (wd old 0) 30) ∨ secures ≠ 1 then some (stERR_PERM, 0)
    else if !valid ws then none
    else
      let meets (o : Nat) : Bool := live.any (fun y => (ptOverlaps ws y).any (fun z => z.1 && decide (z.2 = o)))
      let fails (o : Nat) : Bool :=
        if o = 12 then decide (sum 3 24 16 > 384) else if o = 48 then decide (sum 12 31 24 > 240)
        else if o = 44 then live.any (windowsMeet ws) else meets o
      ([4, 8, 12, 16, 20, 28, 32, 44, 48].find? fails).map (fun o => (stNO_RESOURCE, o))

/-- The group of a partition change: the union of the old and new PLATFORMS, or P0 (R121). -/
def ptGroup (d : Dev) (n : Nat) (ws : List Word) : Nat :=
  let u := bits (wd (futurePt d n) 6) 31 16 ||| bits (wd ws 6) 31 16
  if u = 0 then 1 else u

/-- The lowest platform of a group. -/
def lowestOf (group : Nat) : Nat := ((bitsOf 16 group).head?).getD 0

/-! ### The window (R121, R122) -/

/-- The entry that a master's window selects. -/
def ptSelOf (d : Dev) (mid : Nat) : Nat := SMap.get d.ptSel mid

/-- A write of HS_PT_SEL: a change of the selection discards the master's staging copy. -/
def doPtSelWrite (a : Acc) (v : Word) (d : Dev) : Dev :=
  let mid := a.mid.toNat
  let w := maskedWrite a HS_PT_SEL v d
  if !w.2 then w.1
  else if bits v 4 0 = ptSelOf w.1 mid then w.1
  else { w.1 with ptSel := SMap.set w.1.ptSel mid (bits v 4 0), ptStage := SMap.set w.1.ptStage mid [] }

/-- A write to word k of the window: turned away once GL_LOCK.HS is set. True when it is taken. -/
def ptWordWrite (a : Acc) (k : Nat) (v : Word) (d : Dev) : Dev × Bool :=
  let w := maskedWrite a (HS_PT_W k) v d
  if !w.2 then w
  else if locked w.1 0 then
    (if v ≠ ptWord w.1 (ptSelOf w.1 a.mid.toNat) k then logErr w.1 ecLOCKED a.mid.toNat (HS_PT_W k) v a.secure else w.1, false)
  else w

/-- A write of HS_PT_W1 to W15 goes to the writer's staging copy. -/
def ptStageWrite (a : Acc) (k : Nat) (v : Word) (d : Dev) : Dev :=
  let w := ptWordWrite a k v d
  if !w.2 then w.1
  else { w.1 with ptStage := SMap.mod w.1.ptStage a.mid.toNat (fun m => SMap.set m k (some v)) }

/-- PARTITION_WINDOW_SUBMIT (R121): a write of HS_PT_W0. A refused change is recorded; in Heritage every change is refused, as the MGT
descriptors are (R117). -/
def doPartitionWindowSubmit (a : Acc) (v : Word) (d : Dev) : Dev :=
  let mid := a.mid.toNat
  let w := ptWordWrite a 0 v d
  if !w.2 then w.1
  else
    let n := ptSelOf w.1 mid
    let ws := v :: (List.range 15).map (fun k => (SMap.get (SMap.get w.1.ptStage mid) (k + 1)).getD (wd (futurePt w.1 n) (k + 1)))
    let d1 := { w.1 with ptStage := SMap.set w.1.ptStage mid [] }
    match (if d1.heritage then some (stERR_PERM, 0) else ptBad d1 n ws) with
    | some b => logErr (fs d1 HS_PT_STAT HS_PT_STAT_LAST b.1) ecCONFLICT mid (HS_PT_W 0) v a.secure
    | none =>
      if d1.pm.cut.window then logErr d1 ecCONFLICT mid (HS_PT_W 0) v a.secure
      else
        let g := ptGroup d1 n ws
        acceptCommit (fs d1 HS_PT_STAT HS_PT_STAT_BUSY 1) 0 (.window mid) (lowestOf g) g none false true [.partition n ws]

/-! ### PARTITION (R123) -/

/-- The entry that a PARTITION chain carries, its function, group and anchor. -/
def ptNew (q : Desc) : List Word := atN q.words 0x20 8 ++ atN (q.chain.headD []) 0x20 8

def ptFn (q : Desc) : Nat := bits (at4 q.words 0x10) 12 8

def ptNewGroup (d : Dev) (q : Desc) : Nat :=
  let g := bits (at4 q.words 0x10) 31 16
  if g = 0 then ptGroup d (ptFn q) (ptNew q) else g

def ptAnchor (d : Dev) (q : Desc) : Nat :=
  if bits (at4 q.words 0x10) 31 16 = 0 then lowestOf (ptNewGroup d q) else bits (at4 q.words 0x10) 3 0

/-- The words that an entry takes in a descriptor. -/
def entryWords : List (Nat × Nat) := (List.range 8).map (fun k => (0x20 + 4 * k, full))

def chkPartition (d : Dev) (_f _r : Nat) (q : Desc) : Option (Nat × Nat) :=
  let w := at4 q.words 0x10
  if d.heritage then some (stERR_PERM, 0)
  else if q.chain.length ≠ 1 ∨ opcodeOf (q.chain.headD []) ≠ 0x60 ∨ !bodyOk q.words ((0x10, 0xFFFF1F0F) :: entryWords) ∨
     !bodyOk (q.chain.headD []) entryWords ∨ (bits w 31 16 ≠ 0 ∧ !hasBit (bits w 31 16) (bits w 3 0)) then some (stBAD_DESC, 0)
  else ptBad d (ptFn q) (ptNew q)

/-- PARTITION is a device-wide commit (R124). -/
def actPartition (f r : Nat) (q : Desc) (d : Dev) : Dev :=
  acceptCommit d f (.desc f r q.idx) (ptAnchor d q) (ptNewGroup d q) q.cp (strictOf q.words) true [.partition (ptFn q) (ptNew q)]

def doPartition (f r : Nat) (d : Dev) : Dev := startDesc d f r 0x600 [] false chkPartition actPartition

/-! ### Departures (R127 to R129) -/

/-- A slot of the queue, with the slots of its chain. -/
def descSlots (q : Desc) : Nat := 1 + q.chain.length

/-- The slots that Fn has fetched and that have received no completion. -/
def fetchedSlots (d : Dev) (n : Nat) : Nat :=
  ((fnSt d n).rings.map (fun p => ((p.2.queue ++ p.2.live).map descSlots).sum + p.2.part.length)).sum

/-- The layers of Fn that stand. -/
def layersOf (d : Dev) (n : Nat) : List Nat :=
  (List.range 64).filter (fun k => decide (layerState d k = 1) && decide (fg d (CM_LAYER_LSTAT k) CM_LAYER_LSTAT_OWNER = n))

/-- The haptic channels of Fn that play or brake. -/
def hapticsOf (d : Dev) (n : Nat) : List Nat :=
  (List.range 12).filter (fun h => ptHaptic d n h && (hapState d h == 2 || hapState d h == 3))

/-- The commits of Fn that a departure discards (R42): those that are not bound and have landed nowhere. -/
def looseCommits (d : Dev) (n : Nat) : List Commit :=
  d.commits.filter (fun c => decide (c.fn = n) && !c.bound && decide (c.landed = []))

/-- A migration operation of Fn that runs completes with a status (R128). -/
def endQuiesce (d : Dev) (n status : Nat) : Dev :=
  let q := (fnSt d n).qui
  let d1 := onFn d n (fun x => { x with qui := { x.qui with on := false } })
  if q.on then complete d1 0 q.ring q.idx status else d1

/-- The layers of Fn leave a platform at its next strip boundary whose composition has not begun, to the departure colour or to what
lies beneath (R127, R206, R229, REVEAL; notes/assumptions/136): a change of the device that is bound at once. -/
def leaveAt (n : Nat) (d : Dev) (p : Nat) : Dev :=
  let ks := (layersOf d n).filter (fun k => decide (layerPlat d k = p))
  if ks = [] then d
  else if !(raster d p).had then ks.foldl (fun d k => loseLayer d k 3 0 0 (ptReveal d n)) d
  else deviceCommit d n p (ks.map (fun k => .leave k (ptReveal d n)))

/-- The layers of Fn leave every platform. -/
def loseLayers (d : Dev) (n : Nat) : Dev := (List.range 16).foldl (leaveAt n) d

/-- Steps 1 to 7 of R127 on a function that is DEPARTING, and its calling points. -/
def departWork (d : Dev) (n : Nat) : Dev :=
  let d1 := (ctxsOf d n).foldl (fun d c => freeCtx d c stABORTED) d
  let d2 := (looseCommits d1 n).foldl (fun d c => leaveCommit d c.id) d1
  let d3 := touchDepart (hapDepart (audioDepart (loseLayers d2 n) n) n) n
  let d4 := secureDepart (breakTokens (bellFnReset d3 n) n) n
  let d5 := ttFnReset { d4 with safe := { d4.safe with held := d4.safe.held.filter (fun w => w.f != n) } } n
  gpuRun (onFn d5 n (fun x => { (default : FnSt) with dep := x.dep }))

/-- What step 8 ends with, once composition has made its last access for Fn: buffers are cast off, the DMMU root is cleared. -/
def departLast (d : Dev) (n : Nat) : Dev := fs (wr (wr (bufDepart d n) (MM_ROOT_LO n) 0) (MM_ROOT_HI n) 0) (MM_CTRL n) MM_CTRL_EN 0

/-- A departure begins, or merges into the one that runs (R127, R128). -/
def startDeparture (d : Dev) (n cause : Nat) : Dev :=
  if fnState d n = 0 ∨ fnState d n = 2 then d
  else
    let d0 := endQuiesce d n stABORTED
    let dep : Departure :=
      { on := true, cause := cause, t0 := d0.dt, descs := fetchedSlots d0 n, jobs := jobsOf d0 n,
        commits := (looseCommits d0 n).length,
        writes := ((d0.safe.held.filter (fun w => decide (w.f = n))).map (fun w => cdiv w.bytes.length 64)).sum,
        tokens := tokensOf d0 n, streams := (runningStreams d0 n).length, haptics := (hapticsOf d0 n).length,
        layers := (layersOf d0 n).length, ignored := 0, waiters := (fnSt d0 n).dep.waiters }
    departWork (ttResetDue (linkSend (setFnState (onFn d0 n (fun x => { x with dep := dep })) n 2) 0x05 [2 ^ 32 + 4, n]) n) n

/-- The payload of FUNCTION_DEPARTED (R129). -/
def departPay (n : Nat) (x : Departure) (part : Bool) : Nat :=
  pb 0 n + pb 1 x.cause + pb 2 part.toNat + pw16 4 (sat x.descs 65535) + pw16 6 (sat x.jobs 65535) +
  pw16 8 (sat x.commits 65535) + pw16 10 (sat x.writes 65535) + pb 12 (sat x.tokens 255) + pb 13 (sat x.streams 255) +
  pb 14 (sat x.haptics 255) + pb 15 (sat x.layers 255)

/-- The functions that are there: ENABLED, DEPARTING or QUIESCED. -/
def vfsThere (d : Dev) : List Nat := (List.range 32).filter (fun n => n != 0 && fnState d n != 0)

/-- A PF FLR (R128): every VF departs with CAUSE 4; F0 follows when all are gone. -/
def pfDeparture (d : Dev) : Dev :=
  let d1 := (vfsThere d).foldl (fun d n => startDeparture (addCause d 4 n 0) n 4) { d with vfEnable := false }
  onFn d1 0 (fun x => { x with dep := { x.dep with on := true, cause := 0 } })

/-- F0_DEPARTURE_START (R128). -/
def doF0DepartureStart (d : Dev) : Dev :=
  if !(fnSt d 0).dep.on ∨ fnState d 0 ≠ 1 ∨ vfsThere d ≠ [] then d else startDeparture d 0 0

/-- A config-space re-enable of a function that departs is ignored and counted (R128). -/
def countEnable (d : Dev) (n : Nat) : Dev :=
  if fnState d n = 2 then onFn d n (fun x => { x with dep := { x.dep with ignored := x.dep.ignored + 1 } }) else d

/-- VF_ENABLE_SET (R116, R139): VF Enable is set with NumVFs = num. A DEPARTING function counts it and stays. Heritage has no
SR-IOV capability (R117), and in recovery only F0 runs (R443). -/
def doVfEnableSet (num : Nat) (d : Dev) : Dev :=
  if d.heritage ∨ d.pm.recovery then d
  else if d.vfEnable then ((List.range d.numVfs).map (fun k => k + 1)).foldl countEnable d
  else
    ((List.range num).map (fun k => k + 1)).foldl (fun d n =>
      if fnState d n = 0 then setFnState d n 1
      else countEnable d n) { d with vfEnable := true, numVfs := num }

/-- VF_ENABLE_CLEAR (R116): every VF departs; NumVFs takes the value given. -/
def doVfEnableClear (num : Nat) (d : Dev) : Dev :=
  if d.heritage then d
  else (vfsThere d).foldl (fun d n => startDeparture (addCause d 4 n 0) n 1) { d with vfEnable := false, numVfs := num }

/-! ### The device MMU (R134) -/

/-- Translations are invalidated until INVALIDATION_DONE. -/
def beginInval (d : Dev) : Dev := fs d MM_INVAL_STAT MM_INVAL_STAT_DONE 0

/-- MMU_ROOT_WRITE: a write of MM_ROOT_LO_Fn. -/
def doMmuRootWrite (a : Acc) (n : Nat) (v : Word) (d : Dev) : Dev :=
  let w := regWrite a (MM_ROOT_LO n) v d
  match w.2 with
  | .done _ => beginInval w.1
  | _ => w.1

/-- A write of MM_INVAL with a scope: discarded while an invalidation runs; a range has 1 to 131,071 pages. -/
def mmInval (a : Acc) (v : Word) (d : Dev) : Dev :=
  let w := guardWrite a MM_INVAL v (fun x =>
    if !fb d MM_INVAL_STAT MM_INVAL_STAT_DONE then some ecBUSY
    else if bits x 31 30 = 1 ∧ bits x 29 13 = 0 then some ecOUT_OF_RANGE else none) d
  match w.2 with
  | .done _ => beginInval w.1
  | _ => w.1

/-- INVALIDATE_FUNCTION. -/
def doInvalidateFunction (a : Acc) (v : Word) (d : Dev) : Dev := mmInval a (putBits v 31 30 0) d

/-- INVALIDATE_RANGE. -/
def doInvalidateRange (a : Acc) (v : Word) (d : Dev) : Dev := mmInval a (putBits v 31 30 1) d

/-- INVALIDATE_ALL. -/
def doInvalidateAll (a : Acc) (v : Word) (d : Dev) : Dev := mmInval a (putBits v 31 30 2) d

/-- INVALIDATION_DONE: no access in flight uses a removed translation any more. -/
def doInvalidationDone (d : Dev) : Dev := fs d MM_INVAL_STAT MM_INVAL_STAT_DONE 1

/-- ATS_INVALIDATE: the request of the host is completed. -/
def doAtsInvalidate (n iova pages : Nat) (d : Dev) : Dev := emit d (.atsDone n iova pages)

/-! ### FN_CTRL (R138) -/

def fcFn (q : Desc) : Nat := bits (at4 q.words 0x10) 4 0

/-- The checks that every FN_CTRL shares; `states` are those in which the operation is valid. -/
def chkFnCtrl (states : List Nat) (d : Dev) (_f _r : Nat) (q : Desc) : Option (Nat × Nat) :=
  let words := (0x10, 0xFF00001F) :: (List.range 8).map (fun k => (0x14 + 4 * k, full))
  if d.heritage then some (stERR_PERM, 0)
  else if !bodyOk q.words words ∨ fcFn q = 0 then some (stBAD_DESC, 0)
  else if !states.contains (fnState d (fcFn q)) ∨ (fnSt d (fcFn q)).qui.on then some (stERR_PERM, 0)
  else none

/-- DEPART is valid also while a migration operation runs, which it ends (R128). -/
def chkDepart (d : Dev) (f r : Nat) (q : Desc) : Option (Nat × Nat) :=
  chkFnCtrl [1, 2, 3] (onFn d (fcFn q) (fun x => { x with qui := { x.qui with on := false } })) f r q

/-- DEPART (R138). -/
def actDepart (_f r : Nat) (q : Desc) (d : Dev) : Dev :=
  let n := fcFn q
  let d1 := startDeparture d n 3
  onFn d1 n (fun x => { x with dep := { x.dep with waiters := x.dep.waiters ++ [(r, q.idx)] } })

def doFnCtrlDepart (f r : Nat) (d : Dev) : Dev := startDesc d f r 0x611 [] true chkDepart actDepart

/-! ### Dirty-page logging (R140) -/

/-- The cached words of Fn go to its active bitmap. -/
def writeBack (d : Dev) (n : Nat) : Dev × Bool :=
  let mine := d.dirty.filter (fun x => decide (x.f = n))
  mine.foldl (fun w x => let u := writeDirty w.1 x; (u.1, w.2 && u.2))
    ({ d with dirty := d.dirty.filter (fun x => x.f != n) }, true)

def chkDlStart (d : Dev) (f r : Nat) (q : Desc) : Option (Nat × Nat) :=
  match chkFnCtrl [1, 3] d f r q with
  | some st => some st
  | none => if at8 q.words 0x28 % 4096 ≠ 0 then some (stBAD_DESC, 0) else none

/-- DL_START: bitmap A is active. -/
def actDlStart (f r : Nat) (q : Desc) (d : Dev) : Dev :=
  let l : DirtyLog := { on := true, mapA := at8 q.words 0x18, mapB := at8 q.words 0x20, base := at8 q.words 0x28,
                        pages := (at4 q.words 0x30).toNat, activeB := false }
  let d1 := { d with dirty := d.dirty.filter (fun x => x.f != fcFn q) }
  complete (onFn d1 (fcFn q) (fun x => { x with dl := l })) f r q.idx stOK

def doFnCtrlDlStart (f r : Nat) (d : Dev) : Dev := startDesc d f r 0x616 [] true chkDlStart actDlStart

def chkDl (d : Dev) (f r : Nat) (q : Desc) : Option (Nat × Nat) :=
  match chkFnCtrl [1, 3] d f r q with
  | some st => some st
  | none => if (fnSt d (fcFn q)).dl.on then none else some (stERR_PERM, 0)

/-- HARVEST: the bitmaps swap, and every cached word of the old one is written back before the completion. -/
def actHarvest (f r : Nat) (q : Desc) (d : Dev) : Dev :=
  let n := fcFn q
  let w := writeBack d n
  let d1 := onFn w.1 n (fun x => { x with dl := { x.dl with activeB := !x.dl.activeB } })
  complete d1 f r q.idx (if w.2 then stOK else stERR_FAULT)

def doFnCtrlHarvest (f r : Nat) (d : Dev) : Dev := startDesc d f r 0x617 [] true chkDl actHarvest

/-- DL_STOP: the cache is written back and logging ends. -/
def actDlStop (f r : Nat) (q : Desc) (d : Dev) : Dev :=
  let n := fcFn q
  let w := writeBack d n
  complete (onFn w.1 n (fun x => { x with dl := default })) f r q.idx (if w.2 then stOK else stERR_FAULT)

def doFnCtrlDlStop (f r : Nat) (d : Dev) : Dev := startDesc d f r 0x618 [] true chkDl actDlStop

/-! ### QUIESCE and RESUME (R141, R144) -/

/-- The slots that work for Fn are preempted to their save areas. -/
def quiesceJobs (d : Dev) (n : Nat) : Dev :=
  (List.range 16).foldl (fun d s =>
    match (gslot d s).ctx with
    | some c => if (gctx d c).owner = n then hardOut d s else d
    | none => d) d

/-- The channels of Fn brake; a trigger that waits ends with ERR_DOWN. -/
def quiesceHaptics (d : Dev) (n : Nat) : Dev :=
  (hapticsOf d n).foldl (fun d h =>
    let d1 := endPend d h stERR_DOWN
    if hapState d1 h = 2 then beginBrake d1 h 0 (nextCross (hapRun d1 h) d1.dt) true else d1) d

/-- QUIESCE begins. -/
def actQuiesce (_f r : Nat) (q : Desc) (d : Dev) : Dev :=
  let n := fcFn q
  let us := (at4 q.words 0x14).toNat
  let lim := d.dt + 1000 * (if us = 0 then 10000 else us)
  let run : Quiesce := { on := true, ring := r, idx := q.idx, limit := lim, done := false, dtQ := 0, frames := [] }
  let d1 := onFn d n (fun x => { x with qui := run })
  let held := d1.commits.map (fun c => if c.fn = n ∧ !c.bound ∧ c.landed = [] then { c with held := true } else c)
  gpuRun (quiesceHaptics (pauseStreams (quiesceJobs { d1 with commits := held } n) n) n)

def doFnCtrlQuiesce (f r : Nat) (d : Dev) : Dev := startDesc d f r 0x612 [] true (chkFnCtrl [1]) actQuiesce

/-- The frame in progress of every platform. -/
def framesNow (d : Dev) : List Nat := (List.range 16).map (fun p => (lineNow d p).1)

/-- Has what QUIESCE waits for ended: no slot works for Fn, its channels are at rest, its bound commits have landed? -/
def quiesceOver (d : Dev) (n : Nat) : Bool :=
  !(List.range 16).any (fun s => (gslot d s).ctx.any (fun c => decide ((gctx d c).owner = n))) &&
  decide (hapticsOf d n = []) && !d.commits.any (fun c => decide (c.fn = n) && !c.held)

/-- What SAVE will say of a function that is quiesced or restored now: the DT, the frames, and the length and bytes of the body of its
blob, which are free values (R142, notes/assumptions/102). -/
def noteQuiesced (d : Dev) (n : Nat) : Dev :=
  let len := takeFree d
  let key := takeFree len.2
  onFn key.2 n (fun x => { x with qui := { x.qui with dtQ := d.dt, frames := framesNow d, blobLen := len.1 % 4294967136,
                                                      blobKey := key.1 } })

/-- QUIESCE_DONE (R141): the function is QUIESCED. -/
def doQuiesceDone (n : Nat) (d : Dev) : Dev :=
  if !(fnSt d n).qui.on ∨ !quiesceOver d n then d
  else
    let d1 := noteQuiesced d n
    endQuiesce (setFnState (onFn d1 n (fun x => { x with qui := { x.qui with done := true } })) n 3) n stOK

/-- A held commit is accepted anew (R144). -/
def unhold (d : Dev) (c : Commit) : Dev :=
  acceptCommit (dropCommit d c.id) c.fn c.src c.anchor c.group c.cp c.strict c.devWide c.items

/-- The held commits of Fn are accepted in their original order. -/
def unholdAll (d : Dev) (n : Nat) : Dev := (d.commits.filter (fun c => decide (c.fn = n) && c.held)).foldl unhold d

/-- The rings of Fn run again: each ACTIVE ring's doorbell record is read once, EVT rings give what they hold. -/
def rerunRings (d : Dev) (n : Nat) : Dev :=
  (fnSt d n).rings.foldl (fun d p =>
    if p.2.state = .active then readDbr (if p.2.entry.type = 4 then spaceReturn 40 d n p.1 else d) n p.1 else d) d

/-- QUIESCE_TIMEOUT (R141): the limit passes first; the function goes on. -/
def doQuiesceTimeout (n : Nat) (d : Dev) : Dev :=
  let q := (fnSt d n).qui
  if !q.on then d
  else
    let d1 := endQuiesce (advance q.limit d) n stLATE
    gpuRun (rerunRings (resumeStreams (unholdAll d1 n) n) n)

/-- A commit descriptor that came with RESTORE is accepted on the device it comes to. -/
def acceptRestored (n : Nat) (d : Dev) (c : Nat × Nat) : Dev :=
  match liveDesc d n c.1 c.2 with
  | none => d
  | some q =>
    let go (chk : Dev → Nat → Nat → Desc → Option (Nat × Nat)) (act : Nat → Nat → Desc → Dev → Dev) : Dev :=
      match chk d n c.1 q with
      | some b => complete d n c.1 c.2 b.1 b.2
      | none => act n c.1 q d
    match descKey (ringSt d n c.1).entry.type q.words with
    | some 0x200 => go chkCommitHead actCommitHead
    | some 0x400 => go chkTouchCfg actTouchCfg
    | some 0x460 => go chkHapticWrite actHapticWrite
    | some 0x490 => go chkAudioRoute actAudioRoute
    | _ => d

/-- RESUME (R139, R144): the restored layers land as one commit, then the held commits are accepted. -/
def actResume (f r : Nat) (q : Desc) (d : Dev) : Dev :=
  let n := fcFn q
  let x := (fnSt d n).restored
  let d1 := onFn (setFnState d n 1) n (fun y => { y with restored := default, qui := default })
  let g := ptPlatforms d1 n
  let d2 :=
    if x.on ∧ x.layers ≠ [] ∧ g ≠ 0 then
      acceptCommit d1 n .device (lowestOf g) g none false false (x.layers.map (fun l => .layer l.layer n l.words))
    else d1
  let d3 := x.commits.foldl (acceptRestored n) (unholdAll d2 n)
  gpuRun (complete (rerunRings (resumeStreams d3 n) n) f r q.idx stOK)

def doFnCtrlResume (f r : Nat) (d : Dev) : Dev := startDesc d f r 0x613 [] true (chkFnCtrl [3]) actResume

/-! ### SAVE and RESTORE (R142, R143) -/

/-- The state-format number of the running image. -/
def stateFormat (d : Dev) : Word := (slotImage d d.pm.running).stateFormat

/-- The blob up to its body (R142). -/
def blobHead (d : Dev) (n len : Nat) : List Byte :=
  let x := (fnSt d n).qui
  leBytes 4 0x53544B31 ++ leBytes 4 (stateFormat d).toNat ++ leBytes 4 len ++ leBytes 4 (rd d GL_DEV_REV).toNat ++
  wordBytes (ptEntry d n) ++ leBytes 8 x.dtQ ++ (List.range 16).flatMap (fun p => leBytes 4 (x.frames.getD p 0))

/-- The blob of a QUIESCED function: its head and its CRC as R142 gives them. Length and bytes of the body are free values that stay
as they are while the function is QUIESCED (DESIGN CHOICE, notes/assumptions/102). -/
def blobBytes (d : Dev) (n : Nat) : List Byte :=
  let x := (fnSt d n).qui
  let b := blobHead d n (0x9C + x.blobLen) ++ (List.range x.blobLen).map (Config.blobByte x.blobKey)
  b ++ leBytes 4 (crc32c b)

/-- SAVE writes the blob, and changes nothing of the function. -/
def actSave (f r : Nat) (q : Desc) (d : Dev) : Dev :=
  let len := 0x9C + (fnSt d (fcFn q)).qui.blobLen
  if (at4 q.words 0x30).toNat < len then complete d f r q.idx stNO_RESOURCE len
  else
    let w := memWritePages (pagesFuel len) d 0 0 (at8 q.words 0x18) (blobBytes d (fcFn q))
    complete w.1 f r q.idx (if w.2 then stOK else stERR_FAULT)

def doFnCtrlSave (f r : Nat) (d : Dev) : Dev := startDesc d f r 0x614 [] true (chkFnCtrl [3]) actSave

/-- Do two entries agree in every field but CTX_BASE, TP_START, TP_LEN, TP_GROUPS, DRAM_SHARE, TIMEPART and SECURE? -/
def entryAgrees (x y : List Word) : Bool :=
  let same (k hi lo : Nat) : Bool := bits (wd x k) hi lo == bits (wd y k) hi lo
  same 0 31 31 && same 0 29 27 && same 0 25 0 && same 1 31 8 &&
  [2, 3, 4, 5, 6, 7, 8, 9, 10, 13, 14, 15].all (fun k => same k 31 0) && same 12 23 20 && same 12 15 0

/-- A calling point of the range as RESTORE loads it: raster points keep their offset from FRAMES, DT points from DT_Q. -/
def restoreCp (d : Dev) (ws : List Word) (p : Nat × CpEntry) : Dev :=
  let e := p.2
  let was := (wd ws (22 + e.plat)).toNat
  let moved : CpEntry := match e.basis with
    | .dt => { e with trig := e.trig + d.dt - wd64 ws 20 }
    | _ => { e with frame := (e.frame + (lineNow d e.plat).1 + 2 ^ 32 - was) % 2 ^ 32 }
  storeEntry d p.1 moved

/-- The body of a blob is loaded into Fn; `ws` are the blob's words. A buffer takes its entry where that is FREE; streams stand
paused. -/
def loadBlob (d : Dev) (n : Nat) (ws : List Word) (b : BlobIn) : Dev :=
  let fn (x : FnSt) : FnSt :=
    { x with
      rings := b.rings.foldl (fun m g => SMap.set m g.ring g.st) []
      fcbCopy := b.rings.foldl (fun m g => SMap.set m g.ring g.fcb) []
      fences := (List.range 16).foldl (fun m k => SMap.set m k ((b.fences.getD k 0) % 2 ^ 64)) []
      mods := b.mods.foldl (fun m p => SMap.set m p.1 p.2) []
      restored := { on := true, layers := b.layers, commits := b.commits } }
  let d1 := onFn d n fn
  let d2 := (b.cps.filter (fun p => ptOwnsCp d1 n p.1)).foldl (fun d p => restoreCp d ws p) d1
  let d3 := (b.ctxs.filter (fun p => decide (p.1 < ptCtxCount d2 n))).foldl (fun d p =>
    onCtx d (ptCtxBase d n + p.1) (fun _ => { p.2 with owner := n, job := p.2.job.map (fun j => { j with f := n }) })) d2
  let d4 := b.bufs.foldl (fun d e =>
    if (bufEntry d e.idx).state = 0 ∧ e.idx < 8192 then
      onBuf d e.idx (fun _ => { (default : BufEntry) with state := 1, gen := e.gen, owner := n, words := e.words })
    else d) d3
  let d5 := { d4 with buf := { d4.buf with claims := b.claims.foldl (fun m p => SMap.set m (4 * n + p.1 % 4) p.2) d4.buf.claims } }
  let d6 := (b.streams.filter (fun s => ptAudio d5 n s.stream && decide (streamState d5 s.stream = 0))).foldl (fun d s =>
    let k := fifoBlocks d s.run
    let d1 := onStream (skTakeHigh d 2 k s.stream n) s.stream (fun _ => { s.run with owner := n, blocks := k })
    setStreamState (fs d1 (AU_ST s.stream) AU_ST_BLOCKS k) s.stream 4) d5
  showEntries { d6 with hap := { d6.hap with ram := (b.rams.filter (fun p =>
      decide ((SMap.get d6.hap.ram p.1).words = []))).foldl (fun m p => SMap.set m p.1 { p.2 with owner := n }) d6.hap.ram } }

/-- RESTORE is valid on an ENABLED function whose rings are all DISABLED (R139). -/
def chkRestore (d : Dev) (f r : Nat) (q : Desc) : Option (Nat × Nat) :=
  match chkFnCtrl [1] d f r q with
  | some st => some st
  | none => if (fnSt d (fcFn q)).rings.all (fun p => decide (p.2.state = .disabled)) then none else some (stERR_PERM, 0)

/-- Is a blob whole: MAGIC, and the CRC over what its LENGTH covers (R142, R143)? -/
def blobOk (ws : List Word) : Bool :=
  let len := (wd ws 2).toNat
  let bs := wordBytes ws
  wd ws 0 == 0x53544B31 && decide (0x9C ≤ len) && decide (len ≤ bs.length) &&
  crc32c (bs.take (len - 4)) == leNat ((bs.drop (len - 4)).take 4)

/-- RESTORE: the blob is read and checked in the order of R143, then loaded; what its body says comes with the command
(notes/assumptions/102). DESIGN CHOICE (notes/assumptions/137): DETAIL holds both format numbers as 16-bit halves, the image's above,
and DETAIL2 both in full. -/
def restoreBlob (b : BlobIn) (f r : Nat) (q : Desc) (d : Dev) : Dev :=
  let n := fcFn q
  let m := memRead d 0 0 (at8 q.words 0x18) ((at4 q.words 0x30).toNat / 4) (q.mem.headD { data := [], ecc := false, ats := false })
  let d1 := m.1
  let own := (stateFormat d1).toNat
  match m.2 with
  | .fault => complete d1 f r q.idx stERR_FAULT
  | .ecc => complete d1 f r q.idx stERR_ECC
  | .words ws =>
    let fmt := (wd ws 1).toNat
    if !blobOk ws then complete d1 f r q.idx stBAD_DESC
    else if fmt ≠ own then complete d1 f r q.idx stERR_PERM (own % 65536 * 65536 + fmt % 65536) (own * 2 ^ 32 + fmt)
    else if !entryAgrees (ptEntry d1 n) ((ws.drop 4).take 16) then complete d1 f r q.idx stERR_PERM
    else complete (setFnState (noteQuiesced (loadBlob d1 n ws b) n) n 3) f r q.idx stOK

/-- RESTORE acts on the blob that came with it. -/
def actRestore (f r : Nat) (q : Desc) (d : Dev) : Dev :=
  match d.blobs.find? (fun x => decide (x.ring = r) && decide (x.idx = q.idx)) with
  | some x => restoreBlob x.blob f r q d
  | none => d

/-- RESTORE; the blob is kept while its descriptor waits for a calling point. -/
def doFnCtrlRestore (f r : Nat) (b : BlobIn) (m : MemIn) (d : Dev) : Dev :=
  let idx := (((ringSt d f r).queue.head?).map (fun q => q.idx)).getD 0
  let d1 := startDesc { d with blobs := d.blobs ++ [{ ring := r, idx := idx, blob := b }] } f r 0x615 [m] true chkRestore actRestore
  { d1 with blobs := d1.blobs.filter (fun x => (liveDesc d1 0 x.ring x.idx).isSome) }

/-! ### The commands -/

/-- PARTITION (R123, R124). -/
def execPartition (f : Fn) (r : Ring) (s : State) : Host.Outcome State Fault Refusal :=
  .next { s with dev := doPartition f.val r.val s.dev }

/-- PARTITION_WINDOW_SUBMIT (R121). -/
def execPartitionWindowSubmit (acc : Acc) (v : Word) (s : State) : Host.Outcome State Fault Refusal :=
  .next { s with dev := doPartitionWindowSubmit acc v s.dev }

/-- PT_SEL_WRITE (R121). -/
def execPtSelWrite (acc : Acc) (v : Word) (s : State) : Host.Outcome State Fault Refusal :=
  .next { s with dev := doPtSelWrite acc v s.dev }

/-- FN_CTRL DEPART (R138). -/
def execFnCtrlDepart (f : Fn) (r : Ring) (s : State) : Host.Outcome State Fault Refusal :=
  .next { s with dev := doFnCtrlDepart f.val r.val s.dev }

/-- FN_CTRL QUIESCE (R141). -/
def execFnCtrlQuiesce (f : Fn) (r : Ring) (s : State) : Host.Outcome State Fault Refusal :=
  .next { s with dev := doFnCtrlQuiesce f.val r.val s.dev }

/-- QUIESCE_DONE (R141). -/
def execQuiesceDone (f : Fn) (s : State) : Host.Outcome State Fault Refusal :=
  .next { s with dev := doQuiesceDone f.val s.dev }

/-- QUIESCE_TIMEOUT (R141). -/
def execQuiesceTimeout (f : Fn) (s : State) : Host.Outcome State Fault Refusal :=
  .next { s with dev := doQuiesceTimeout f.val s.dev }

/-- FN_CTRL RESUME (R144). -/
def execFnCtrlResume (f : Fn) (r : Ring) (s : State) : Host.Outcome State Fault Refusal :=
  .next { s with dev := doFnCtrlResume f.val r.val s.dev }

/-- FN_CTRL SAVE (R142). -/
def execFnCtrlSave (f : Fn) (r : Ring) (s : State) : Host.Outcome State Fault Refusal :=
  .next { s with dev := doFnCtrlSave f.val r.val s.dev }

/-- FN_CTRL RESTORE (R143). -/
def execFnCtrlRestore (f : Fn) (r : Ring) (blob : BlobIn) (m : MemIn) (s : State) : Host.Outcome State Fault Refusal :=
  .next { s with dev := doFnCtrlRestore f.val r.val blob m s.dev }

/-- FN_CTRL DL_START (R140). -/
def execFnCtrlDlStart (f : Fn) (r : Ring) (s : State) : Host.Outcome State Fault Refusal :=
  .next { s with dev := doFnCtrlDlStart f.val r.val s.dev }

/-- FN_CTRL HARVEST (R140). -/
def execFnCtrlHarvest (f : Fn) (r : Ring) (s : State) : Host.Outcome State Fault Refusal :=
  .next { s with dev := doFnCtrlHarvest f.val r.val s.dev }

/-- FN_CTRL DL_STOP (R140). -/
def execFnCtrlDlStop (f : Fn) (r : Ring) (s : State) : Host.Outcome State Fault Refusal :=
  .next { s with dev := doFnCtrlDlStop f.val r.val s.dev }

/-- VF_ENABLE_SET (R139). -/
def execVfEnableSet (num : Fin 32) (s : State) : Host.Outcome State Fault Refusal :=
  .next { s with dev := doVfEnableSet num.val s.dev }

/-- VF_ENABLE_CLEAR (R116). -/
def execVfEnableClear (num : Fin 32) (s : State) : Host.Outcome State Fault Refusal :=
  .next { s with dev := doVfEnableClear num.val s.dev }

/-- F0_DEPARTURE_START (R128). -/
def execF0DepartureStart (s : State) : Host.Outcome State Fault Refusal :=
  .next { s with dev := doF0DepartureStart s.dev }

/-- MMU_ROOT_WRITE (R134). -/
def execMmuRootWrite (acc : Acc) (f : Fn) (v : Word) (s : State) : Host.Outcome State Fault Refusal :=
  .next { s with dev := doMmuRootWrite acc f.val v s.dev }

/-- INVALIDATE_FUNCTION (R134). -/
def execInvalidateFunction (acc : Acc) (v : Word) (s : State) : Host.Outcome State Fault Refusal :=
  .next { s with dev := doInvalidateFunction acc v s.dev }

/-- INVALIDATE_RANGE (R134). -/
def execInvalidateRange (acc : Acc) (v : Word) (s : State) : Host.Outcome State Fault Refusal :=
  .next { s with dev := doInvalidateRange acc v s.dev }

/-- INVALIDATE_ALL (R134). -/
def execInvalidateAll (acc : Acc) (v : Word) (s : State) : Host.Outcome State Fault Refusal :=
  .next { s with dev := doInvalidateAll acc v s.dev }

/-- INVALIDATION_DONE (R134). -/
def execInvalidationDone (s : State) : Host.Outcome State Fault Refusal :=
  .next { s with dev := doInvalidationDone s.dev }

/-- ATS_INVALIDATE (R134). -/
def execAtsInvalidate (f : Fn) (iova : BitVec 64) (pages : Nat) (s : State) : Host.Outcome State Fault Refusal :=
  .next { s with dev := doAtsInvalidate f.val iova.toNat pages s.dev }

end Sys2Proof.Machine
end

