-- ==== Sys2Proof/Machine/Firing.lean ====
section
/-! DEFINITION. The firing of calling points (R54 to R68), LOCK (R26), writes of the store (R55, R60, R103), and framelock at a
reference edge (R71 to R76). -/

namespace Sys2Proof.Machine

/-! ### LOCK (R26) -/

def chkLock (_d : Dev) (_f _r : Nat) (q : Desc) : Option (Nat × Nat) :=
  if !bodyOk q.words [(0x10, 0x3F)] ∨ at4 q.words 0x10 = 0 then some (stBAD_DESC, 0) else none

/-- LOCK acts when every earlier descriptor of its ring has completed. -/
def actLock (f r : Nat) (q : Desc) (d : Dev) : Dev :=
  let d1 := onLive d f r q.idx (fun x => { x with cp := none })
  settle (liveCount d1 f + 1) d1 f

def doLock (f r : Nat) (d : Dev) : Dev := startDesc d f r 0x670 [] true chkLock actLock

/-! ### What a firing does (R57, R59, R68, R101, R416) -/

/-- The effect of a descriptor whose point fires, by its row of the table; those that may carry no binding, and commits, are
not among them. -/
def boundAct (key : Nat) : Option (Nat → Nat → Desc → Dev → Dev) :=
  match key with
  | 0x000 => some actNop
  | 0x010 => some actSignal
  | 0x110 => some actCtxItem
  | 0x120 => some actCtxDestroy
  | 0x130 => some actJobCancel
  | 0x140 => some actCtxItem
  | 0x300 => some actBufCreate
  | 0x310 => some (actRelease true)
  | 0x320 => some (actRelease false)
  | 0x330 => some actSkeinReserve
  | 0x340 => some actBufQuery
  | 0x400 => some actTouchCfg
  | 0x410 => some actBaseReload
  | 0x411 => some actBaseRebase
  | 0x412 => some actBaseSave
  | 0x413 => some actBaseDump
  | 0x420 => some actTouchTest
  | 0x421 => some actTouchTest
  | 0x422 => some actTouchTest
  | 0x440 => some actHapticPlay
  | 0x450 => some actHapticLoad
  | 0x461 => some actHapticClear
  | 0x480 => some actStreamConfig
  | 0x481 => some actStreamStart
  | 0x482 => some actStreamStop
  | 0x483 => some actStreamDrain
  | 0x4A0 => some actAudioGain
  | 0x4B0 => some actAudioCoef
  | 0x4C0 => some actChimeStart
  | 0x4C1 => some actChimeStop
  | 0x611 => some actDepart
  | 0x612 => some actQuiesce
  | 0x613 => some actResume
  | 0x614 => some actSave
  | 0x615 => some actRestore
  | 0x616 => some actDlStart
  | 0x617 => some actHarvest
  | 0x618 => some actDlStop
  | 0x621 => some actModeDomain
  | 0x622 => some actHibernate
  | 0x630 => some actFwLoad
  | 0x631 => some actFwDiscard
  | 0x640 => some actFwCutover
  | 0x670 => some actLock
  | 0x680 => some actStoreRead
  | 0x681 => some actStoreWrite
  | 0x682 => some actStoreDelete
  | 0x683 => some actStoreInfo
  | _ => none

/-- The check of an FN_CTRL, which its firing makes again: its function may have changed state meanwhile (R139). -/
def fnCtrlChk (key : Nat) : Option (Dev → Nat → Nat → Desc → Option (Nat × Nat)) :=
  match key with
  | 0x611 => some chkDepart
  | 0x612 => some (chkFnCtrl [1])
  | 0x613 => some (chkFnCtrl [3])
  | 0x614 => some (chkFnCtrl [3])
  | 0x615 => some chkRestore
  | 0x616 => some chkDlStart
  | 0x617 => some chkDl
  | 0x618 => some chkDl
  | _ => none

/-- A parked descriptor takes effect; a job is released (R186). Those of a function that is being quiesced stay parked
(R141). -/
def fireBound (d : Dev) (x : Nat × Nat × Desc) : Dev :=
  let f := x.1
  let r := x.2.1
  let q := x.2.2
  if fnState d f ≠ 1 ∨ (fnSt d f).qui.on then d
  else
    let d1 := onLive d f r q.idx (fun y => { y with cp := none, rel := if isJob y then d.dt else y.rel })
    let key := descKey (ringSt d f r).entry.type q.words
    match (key.bind fnCtrlChk).bind (fun chk => chk d1 f r q) with
    | some b => complete d1 f r q.idx b.1 b.2
    | none =>
      match key.bind boundAct with
      | some act => act f r { q with cp := none } d1
      | none => d1

/-- The SNAPSHOTs among parked descriptors; one freeze serves them together (R479). -/
def isSnapshot (x : Nat × Nat × Desc) : Bool := decide (opcodeOf x.2.2.words = 0x66)

/-- The action of a point on its own (R57). -/
def pointAction (d : Dev) (c : Nat) (e : CpEntry) : Dev :=
  match e.action with
  | 3 => kickRing d e.owner (bits e.arg0 4 0)
  | 4 => if ptTouch d e.owner (bits e.arg0 2 0) then scanFire d (bits e.arg0 2 0) else d
  | 5 =>
    if bits e.arg1 3 0 < 12 ∧ bits e.arg0 7 0 < 192 then
      hapTrigger d (bits e.arg1 3 0)
        { effect := bits e.arg0 7 0, gain := 255, urgent := false, src := .point c e.owner, dt := d.dt }
    else d
  | 6 =>
    let snaps := (parkedOn d c).filter isSnapshot
    let d1 := snaps.foldl (fun d x => onLive d x.1 x.2.1 x.2.2.idx (fun y => { y with cp := none })) d
    freeze d1 c (snaps.map (fun x => (x.2.1, x.2.2.idx, at8 x.2.2.words 0x18)))
  | 7 => (bitsOf 16 e.arg0.toNat).foldl wakeHeld d
  | 8 => (cutoverAction d (bits e.arg0 0 0)).1
  | 9 =>
    let up := d.gpio ||| e.arg0.toNat
    let v := up - (up &&& e.arg1.toNat)
    emit { d with gpio := v } (.pin 5 v)
  | _ => d

/-- The actions that a banker performs (R416). -/
def bankerAction (a : Nat) : Bool := a == 0 || a == 1 || a == 6 || a == 8

/-- Commits bound to a point that has fired keep the apply point that it gave: they depend on it no more; a role swap
begins (R59, R423). -/
def fireCommits (d : Dev) (c : Nat) : Dev :=
  let swaps := d.commits.any (fun k => decide (k.cp = some c) && k.items.contains .swap)
  let d1 := { d with commits := d.commits.map (fun k => if k.cp = some c then { k with cp := none } else k) }
  if swaps then { d1 with pair := { d1.pair with swapping := true } } else d1

/-- The reports of a firing (R64, R65, R489): CP_FIRED, CP_DEFERRED. -/
def fireEvents (d : Dev) (c : Nat) (e : CpEntry) (oc trig : Nat) (mute : Bool) : Dev :=
  let d1 := if e.event && !mute then post d e.owner clTIMETABLE 1 e.owner (pw16 0 c + pw32 4 ((e.fires + 1) % 65536)) else d
  let d2 := if oc = 2 then bump d1 TT_STATUS TT_STATUS_DEFERRALS else d1
  let tell := if oc = 2 then fb d2 TT_CTRL TT_CTRL_DEFER_EVT else (oc == 3 || oc == 6) && fb d2 TT_CTRL TT_CTRL_LATE_EVT
  if tell then post d2 0 clTIMETABLE 2 e.owner (pw16 0 c + pb 2 oc + pw48 4 trig + pw48 10 d.dt) else d2

/-- The row counters of a firing: firings, deferrals, LATE_ARM, CLAMPED (R477). -/
def countFire (d : Dev) (oc : Nat) : Dev :=
  let d1 := count d 178
  if oc = 2 then count d1 179 else if oc = 3 then count d1 180 else if oc = 4 then count d1 181 else d1

/-- A vector whose moderation names the point sends its message when a report is pending (R91, R110). -/
def tellVecs (d : Dev) (c : Nat) : Dev :=
  (fnKeys d).foldl (fun d n => (fnSt d n).mods.foldl (fun d m =>
    if m.2.cp = some c ∧ (SMap.get (fnSt d n).vecs m.1).pending > 0 then sendMsi d n m.1 else d) d) d

/-- Is the action of a point a cutover that is refused (R446)? -/
def cutoverBad (d : Dev) (e : CpEntry) : Bool := decide (e.action = 8) && (cutRefused d (bits e.arg0 0 0)).isSome

/-- Point c fires with an outcome; `trig` is the DT of its trigger. A needed domain that is down makes it DOWN (R68), and so does a
cutover that is refused (R446). -/
def firePoint (d : Dev) (c oc trig : Nat) : Dev :=
  let e := cpEntry d c
  let acts := !bankerLike d || bankerAction e.action
  let down := acts && (actionDoms e).any (fun k => !domUp d k)
  let out := if down || (acts && cutoverBad d e) then 5 else oc
  let x := cpRun d c
  let d1 := setCp d c (firedEntry e out)
  let due := if (firedEntry e out).en then ((nextTrig d1 e d.dt).map (fun g => g.dt)).getD 0 else 0
  let d2 := onCpRun d1 c (fun _ => { written := d.dt, armed := false, deferred := false, waiting := false, due := due })
  let d3 := showArmed { d2 with tt := { d2.tt with cooling := d2.tt.cooling + x.armed.toNat } }
  let d4 := fireEvents (countFire d3 oc) c e oc trig (bankerLike d && decide (e.action = 0))
  if down then tellVecs (endBound d4 c stERR_DOWN (fun _ => true)) c
  else if !acts then tellVecs d4 c
  else
    let d5 := if e.action = 6 then pointAction d4 c e else d4
    let d6 := (parkedOn d5 c).foldl fireBound (fireCommits d5 c)
    tellVecs (gpuRun (if e.action = 6 then d6 else pointAction d6 c e)) c

/-! ### Comparators and the loader (R62 to R65) -/

/-- Is a raster point's line not below the vertical total (R79)? -/
def clamped (d : Dev) (e : CpEntry) : Bool := decide (e.basis ≠ .dt) && decide (e.line ≥ (raster d e.plat).vtot)

/-- May the comparator of a point match: enabled, armed, not deferred, PD4 up? -/
def mayMatch (d : Dev) (c : Nat) : Bool :=
  (cpEntry d c).en && (cpRun d c).armed && !(cpRun d c).deferred && domUp d 4

/-- The outcome of a match: CLAMPED (R75, R79), LATE_ARM (R65), or ON_TIME. -/
def matchOutcome (d : Dev) (c : Nat) : Nat :=
  if clamped d (cpEntry d c) ∨ (cpRun d c).clampDt.isSome then 4 else if (cpRun d c).late then 3 else 1

/-- The comparator of one point matches. -/
def matchPoint (d : Dev) (c : Nat) : Dev :=
  match waitsFor d c with
  | none => d
  | some g => if mayMatch d c then firePoint (advance g.dt d) c (matchOutcome d c) g.dt else d

/-- The armed points below c that are due at the same DT: they fire first, in index order (R67, R75, R79). -/
def dueBefore (d : Dev) (c : Nat) : List Nat :=
  match waitsFor d c with
  | none => []
  | some g => (enabledCps d).filter (fun k => decide (k < c) && mayMatch d k &&
      (waitsFor d k).any (fun x => decide (x.dt = g.dt)))

/-- CP_FIRE: the comparator of a point matches. -/
def doCpFire (c : Nat) (d : Dev) : Dev :=
  if mayMatch d c then matchPoint ((dueBefore d c).foldl matchPoint d) c else d

/-- CP_FIRE_DEFERRED (R64). -/
def doCpFireDeferred (c : Nat) (d : Dev) : Dev :=
  let x := cpRun d c
  if !(cpEntry d c).en ∨ !x.armed ∨ !x.deferred ∨ !domUp d 4 then d else firePoint d c 2 x.due

/-- One entry of the loader's walk: a point due within three windows is armed; one whose trigger was missed fires LATE_ARM, at once
or when a comparator is free (R65). -/
def walkEntry (d : Dev) (c : Nat) : Dev :=
  let x := cpRun d c
  if !(cpEntry d c).en ∨ x.armed ∨ x.waiting then d
  else
    match waitsFor d c with
    | none => d
    | some g =>
      if g.dt ≥ armHorizon d.dt then d
      else
        let d1 := armPoint (onCpRun d c (fun y => { y with due := g.dt, late := decide (g.dt ≤ d.dt) })) c
        if g.dt ≤ d.dt ∧ (cpRun d1 c).armed then firePoint d1 c (if (cpRun d c).clampDt.isSome then 4 else 3) g.dt else d1

/-- LOADER_WALK (R62). -/
def doLoaderWalk (d : Dev) : Dev := if domUp d 4 then (enabledCps d).foldl walkEntry d else d

/-- The DT of a one-shot trigger that has passed (R55). -/
def pastTrig (d : Dev) (e : CpEntry) : Nat := if e.basis = .dt then e.trig else convDt d e.plat e.frame e.line

/-- An entry goes into the store; the banker hears of it; a one-shot point whose trigger has passed fires PAST. -/
def writeEntry (d : Dev) (c : Nat) (e : CpEntry) : Dev :=
  let d1 := linkSend (storeEntry d c e) 0x05 ((2 ^ 32 + 7) :: c :: (cpWords e).map (fun w => w.toNat))
  if cpPast d1 e then firePoint d1 c 6 (pastTrig d1 e) else d1

/-- CP_STORE_WRITE (R60). -/
def doCpStoreWrite (a : Acc) (v : Word) (d : Dev) : Dev :=
  let w := cpStoreCheck a v d
  match w.2 with
  | some x => writeEntry w.1 x.1 x.2
  | none => w.1

/-- The entry that a CP_WRITE carries; OWNER is its function (R103). -/
def cpWriteEntry (f : Nat) (q : Desc) : CpEntry := { cpOfWords (atN q.words 0x20 7) with owner := f }

def cpWriteIdx (q : Desc) : Nat := bits (at4 q.words 0x10) 9 0

def chkCpWrite (d : Dev) (f _r : Nat) (q : Desc) : Option (Nat × Nat) :=
  let w0 := putBits (at4 q.words 0x20) 7 0 f
  let words := (0x10, 0x3FF) :: (0x20, 0xFCFFF0FF) :: (List.range 6).map (fun k => (0x24 + 4 * k, full))
  if !bodyOk q.words words ∨ cpReserved w0 then some (stBAD_DESC, 0)
  else if !ptOwnsCp d f (cpWriteIdx q) ∨ (cpPfAction (bits w0 23 16) ∧ f ≠ 0) then some (stERR_PERM, 0)
  else if cpLineBad d (cpWriteEntry f q) then some (stBAD_DESC, 0)
  else none

/-- CP_WRITE changes the entry as one change. -/
def actCpWrite (f r : Nat) (q : Desc) (d : Dev) : Dev :=
  complete (writeEntry d (cpWriteIdx q) (cpWriteEntry f q)) f r q.idx stOK

def doCpWrite (f r : Nat) (d : Dev) : Dev := startDesc d f r 0x030 [] true chkCpWrite actCpWrite

/-! ### Framelock (R71 to R76) -/

/-- The frame that a jump begins: the partner's number where it is the reference (R410), else the next one. -/
def jumpFrame (d : Dev) (p : Nat) : Nat :=
  let next := absAt (raster d p) d.dt / (raster d p).vtot + 1
  if fg d (TT_FL_CTRL p) TT_FL_CTRL_SRC = 3 then
    match d.pair.leadPos.find? (fun x => x.1 == fg d (TT_FL_CTRL p) TT_FL_CTRL_REF) with
    | some x => x.2.1
    | none => next
  else next

/-- Commits that were to land in the lines that a jump skips land at line 0 of the new frame (R75). -/
def jumpLandings (d : Dev) (p a f : Nat) (skipped : List Nat) : Dev :=
  let x := raster d p
  let moved (c : Commit) : Bool :=
    c.cp.any (fun k => skipped.contains k) ||
    (landOf c p).any (fun l => decide (a < l.2.1 * x.vtot + l.2.2.1) && decide (l.2.1 = a / x.vtot))
  { d with commits := d.commits.map (fun c =>
      if moved c && !c.landed.contains p then
        { c with cp := if c.cp.any (fun k => skipped.contains k) then none else c.cp
                 land := c.land.map (fun l => if l.1 = p then landAt x p (f * x.vtot) else l) }
      else c) }

/-- A jump (R75): the frame in progress ends, and line 0 starts at the target. The points of the lines that are skipped fire there,
at once or, where OFFSET puts line 0 later, by their comparators. A raster that waits to be enabled starts so (R78). -/
def flJump (d : Dev) (p : Nat) : Dev :=
  let x := raster d p
  let a := absAt x d.dt
  let f := jumpFrame d p
  let off := sext (fg d (TT_FL_CTRL p) TT_FL_CTRL_OFFSET) 16
  let wait := ((-off) % Int.ofNat x.vtot).toNat
  let t := d.dt + wait * x.htot * x.pxNum / max 1 x.pxDen
  let skipped := (enabledCps d).filter (fun c => decide ((cpEntry d c).basis ≠ .dt) && decide ((cpEntry d c).plat = p) &&
    (nextTrig d (cpEntry d c) d.dt).any (fun g => decide (g.abs / x.vtot = a / x.vtot)))
  let d1 := setRaster d p { x with fRef := f, lRef := 0, dtRef := t, hold := none, corr := 0 }
  let d2 := onPlat d1 p (fun y => { y with openStrips := y.openStrips.filter (fun b => decide (a / x.vtot < b / x.vtot))
                                           late := y.late.filter (fun b => decide (a / x.vtot < b.1 / x.vtot)) })
  let d3 := if x.virt ∧ (platRun d2 p).enFrame.isSome then goReal d2 p else d2
  let d4 := jumpLandings d3 p a f skipped
  let d5 := skipped.foldl (fun d c =>
    if t ≤ d.dt then firePoint d c 4 t else onCpRun d c (fun y => { y with clampDt := some t, due := t })) d4
  restampAll d5 p

/-- The states of R74 at an edge with phase error e. -/
def flStep (d : Dev) (p : Nat) (e : Int) : Dev :=
  let y := SMap.get d.tt.fl p
  let st := flState d p
  let near := e.natAbs ≤ 2
  let far := e.natAbs > (raster d p).htot
  let d1 := onFl d p (fun z => { z with corr := flCorrection d p e })
  if st = 0 ∨ st = 3 then setFlState (onFl d1 p (fun z => { z with good := 0, bad := 0 })) p 1
  else if st = 1 then
    if near ∧ y.good ≥ 7 then flEvent (setFlState (onFl d1 p (fun z => { z with good := 0, bad := 0 })) p 2) p 3
    else onFl d1 p (fun z => { z with good := if near then z.good + 1 else 0 })
  else if far ∧ y.bad ≥ 1 then flEvent (setFlState (onFl d1 p (fun z => { z with good := 0, bad := 0 })) p 1) p 4
  else onFl d1 p (fun z => { z with bad := if far then z.bad + 1 else 0 })

/-- Does an edge mark a frame start of the reference of p: at FRAMELOCK_IN the edge that IN_POL names, of a pulse of 100 ns or more
(R76); of a platform, the start of one of its frames (R71)? -/
def flMarks (d : Dev) (p : Nat) (e : Pulse) : Bool :=
  let w := rd d (TT_FL_CTRL p)
  let x := raster d (bits w 27 24)
  if bits w 29 28 = 0 then false
  else if bits w 29 28 = 1 then decide (100 ≤ e.lenNs) && (e.rising != fb d TT_FL_PIN TT_FL_PIN_IN_POL)
  else if bits w 29 28 = 2 then x.had && x.vtot != 0 && decide (dtOf x (absAt x d.dt / x.vtot) 0 = d.dt)
  else true

/-- The reference period in ns: of a platform its frame with the correction it takes (R71), of a pin or the partner what the edge
says. -/
def flPeriod (d : Dev) (p period : Nat) : Nat :=
  let w := rd d (TT_FL_CTRL p)
  let x := raster d (bits w 27 24)
  if bits w 29 28 = 2 then ((((x.vtot * x.htot : Nat) : Int) + x.corr) * (x.pxNum : Int) / (x.pxDen : Int)).toNat else period

/-- FRAMELOCK_REF_EDGE (R72 to R76): the reference of p shows an edge, `period0` ns after the last. -/
def doFramelockRefEdge (p period0 : Nat) (pulse : Pulse) (d : Dev) : Dev :=
  let x := raster d p
  let y := SMap.get d.tt.fl p
  let w := rd d (TT_FL_CTRL p)
  let period := flPeriod d p period0
  let jump := bit w 30 && (decide (flState d p = 0) || (x.virt && (platRun d p).enFrame.isSome))
  let div := bits w 21 20 + 1
  if !bit w 31 ∨ !flMarks d p pulse ∨ !x.had ∨ x.vtot = 0 ∨ !domUp d 4 ∨
     (x.virt ∧ !(jump ∧ (platRun d p).enFrame.isSome)) then d
  else
    let d1 := onFl d p (fun z => { z with lastEdge := d.dt, period := period, edges := z.edges + 1 })
    if !flInRange d1 p period then
      let d2 := setFlState (onFl d1 p (fun z => { z with corr := 0, good := 0, bad := 0, out := true })) p 0
      let d3 := fs d2 (TT_FL_STAT p) TT_FL_STAT_RANGE 1
      if y.out then d3 else flEvent d3 p 6
    else
      let d2 := onFl d1 p (fun z => { z with out := false })
      if (y.edges + 1) % div ≠ 0 then d2
      else if jump then setFlState (flJump d2 p) p 1
      else
        let e := flError d2 p
        let lim : Int := 2 ^ 23
        let shown : Int := if e ≥ lim then lim - 1 else if e < -lim then -lim else e
        flStep (fs d2 (TT_FL_STAT p) TT_FL_STAT_ERROR (shown % 2 ^ 24).toNat) p e

/-! ### The commands -/

/-- LOCK (R26). -/
def execLock (f : Fn) (r : Ring) (s : State) : Host.Outcome State Fault Refusal :=
  .next { s with dev := doLock f.val r.val s.dev }

/-- LOADER_WALK (R62). -/
def execLoaderWalk (s : State) : Host.Outcome State Fault Refusal :=
  .next { s with dev := doLoaderWalk s.dev }

/-- CP_FIRE (R54). -/
def execCpFire (c : Cp) (s : State) : Host.Outcome State Fault Refusal :=
  .next { s with dev := doCpFire c.val s.dev }

/-- CP_FIRE_DEFERRED (R64). -/
def execCpFireDeferred (c : Cp) (s : State) : Host.Outcome State Fault Refusal :=
  .next { s with dev := doCpFireDeferred c.val s.dev }

/-- CP_STORE_WRITE (R60). -/
def execCpStoreWrite (acc : Acc) (v : Word) (s : State) : Host.Outcome State Fault Refusal :=
  .next { s with dev := doCpStoreWrite acc v s.dev }

/-- CP_WRITE (R103). -/
def execCpWrite (f : Fn) (r : Ring) (s : State) : Host.Outcome State Fault Refusal :=
  .next { s with dev := doCpWrite f.val r.val s.dev }

/-- FRAMELOCK_REF_EDGE (R74). -/
def execFramelockRefEdge (p : Plat) (edge : RefEdge) (s : State) : Host.Outcome State Fault Refusal :=
  .next { s with dev := doFramelockRefEdge p.val edge.periodNs edge.pulse s.dev }

end Sys2Proof.Machine
end

