-- ==== Sys2Proof/Machine/Pair.lean ====
section
/-! DEFINITION. The pair (R403 to R427): PAIR, the state machine of R411, fencing, takeover, and what the lead sends on a
clock. The records that arrive are in Machine/PairRecords.lean. -/

namespace Sys2Proof.Machine

def onPair (d : Dev) (g : Pair → Pair) : Dev := { d with pair := g d.pair }

/-- The crew epoch of this device. -/
def crewEpoch (d : Dev) : Nat := fg d DH_STATUS DH_STATUS_CREW_EPOCH

/-- The enabled platforms. -/
def enabledPlats (d : Dev) : List Nat := (List.range 16).filter (platOn d)

/-- Every display port is muted, or none (R416, R421, R423). -/
def muteAll (d : Dev) (v : Bool) : Dev := wr d SO_MUTE (if v then 0x3FFF else 0)

/-! ### PAIR (R407) -/

/-- The body of PAIR: OP, ROLE and ANCHOR are defined. -/
def pairBodyOk (q : Desc) : Bool := bodyOk q.words [(0x10, 0xF800000F)]

/-- The checks of FORM: no binding, a mode with pairs (R9), and a state from which a pair may form in the role asked for (R407,
R411); a lead that a reset took to STANDALONE and that its partner fences rejoins as banker alone (R426). -/
def chkForm (d : Dev) (_f _r : Nat) (q : Desc) : Option (Nat × Nat) :=
  let lead := !bit (at4 q.words 0x10) 27
  let mayForm : Bool := match dhState d with
    | 0 => !lead || !d.pair.fenceIn
    | 3 => lead
    | 5 => lead
    | 6 => !lead || !dhBanker d
    | 7 => !lead
    | _ => false
  if !pairBodyOk q ∨ bindWord q.words ≠ 0 then some (stBAD_DESC, 0)
  else if d.heritage ∨ modeOf d = mSTP ∨ !mayForm ∨ d.pair.form.isSome then some (stERR_PERM, 0)
  else none

/-- FORM waits for the partner; from STANDALONE and FENCED the link begins to train (R411). -/
def actForm (_f r : Nat) (q : Desc) (d : Dev) : Dev :=
  let role := bits (at4 q.words 0x10) 27 27
  let d1 := onPair d (fun x => { x with form := some { ring := r, idx := q.idx, role := role, t0 := d.dt } })
  if dhState d = 0 ∨ dhState d = 7 then setHeartbeat (setDh (setRole d1 (role == 1)) 1) true else d1

/-- The image that runs, as the pair's checks need it. -/
def myImage (d : Dev) : FwImage := slotImage d d.pm.running

/-- Do two images agree on a pair epoch (R408, check 4)? -/
def epochsAgree (i : FwImage) (p : Partner) : Bool :=
  decide (i.pairEpoch = p.pairEpoch.toNat) ||
  (decide (i.pairMin ≤ p.pairEpoch.toNat) && decide (p.pairEpoch.toNat ≤ i.pairMax)) ||
  (decide (p.pairMin.toNat ≤ i.pairEpoch) && decide (i.pairEpoch ≤ p.pairMax.toNat))

/-- The modes in which a pair may form (R9). -/
def pairMode (m : Nat) : Bool := m == mEXP || m == mICY || m == mFRT || m == mCAU

/-- The checks of R408 in their order: the DETAIL and status of the first that fails. -/
def formFails (d : Dev) (p : Partner) : Option (Nat × Nat) :=
  if !(pairMode (modeOf d) && pairMode p.mode.val) then some (1, stERR_PERM)
  else if d.seatB = p.seatB then some (2, stERR_PERM)
  else if rd d GL_DEV_REV ≠ p.devRev ∨ d.dramUnits ≠ p.dramUnits then some (3, stERR_PERM)
  else if !epochsAgree (myImage d) p then some (4, stERR_PERM)
  else if (myImage d).stateFormat ≠ p.stateFormat then some (5, stERR_PERM)
  else if rds d (DH_MWIN 0) 32 ≠ p.mwin then some (6, stBAD_DESC)
  else if rds d HS_FN_STATE0 2 ≠ p.fnStates ∨ d.vfEnable ≠ p.vfEnable ∨ d.numVfs ≠ p.numVfs then some (7, stBAD_DESC)
  else none

/-- The DT points whose triggers a step of DT passes fire PAST (R409). -/
def skippedPoints (d : Dev) (t : Nat) : List Nat :=
  (enabledCps d).filter (fun c => decide ((cpEntry d c).basis = .dt) && decide (d.dt < (cpEntry d c).trig) &&
    decide ((cpEntry d c).trig ≤ t))

/-- The device with the lower DT steps forward (R409): DT points in the span fire PAST, rasters keep their positions. -/
def stepDt (d : Dev) (t : Nat) : Dev :=
  if t ≤ d.dt then d
  else
    let k := t - d.dt
    let past := skippedPoints d t
    let rasters := d.tt.raster.map (fun p => (p.1, { p.2 with dtRef := p.2.dtRef + k }))
    let run := d.tt.run.map (fun p =>
      if (cpEntry d p.1).basis = .dt then p else (p.1, { p.2 with written := p.2.written + k, due := p.2.due + k }))
    let moved (c : Commit) : Commit :=
      { c with land := c.land.map (fun l => (l.1, l.2.1, l.2.2.1, if (raster d l.1).had then l.2.2.2 + k else l.2.2.2)) }
    let d1 := { d with dt := t, tt := { d.tt with raster := rasters, run := run }, commits := d.commits.map moved }
    pairEvent (past.foldl (fun d c => firePoint d c 6 (cpEntry d c).trig) d1) 8 (sat (k / 1000) (2 ^ 32 - 1))

/-- The bulk state that the lead sends (R410): registers, memory in the windows, calling points, fences, the buffer table,
claims, ring tables and indices, contexts and streams; with it what is under way: the descriptors fetched and not complete,
the commits accepted and not landed, and the staging copies. -/
def sendSync (d : Dev) : Dev :=
  let d1 := (d.regs.filter (fun p => !bankerRange p.1)).foldl (fun x p => linkSend x 0x0C [0, p.1, p.2.toNat]) d
  let d2 := (d.dram.filter (fun p => inWindow d p.1)).foldl (fun x p => linkSend x 0x0C [1, p.1, p.2.toNat]) d1
  let d3 := d.tt.cps.foldl (fun x p => linkSend x 0x0C ([2, p.1] ++ (cpWords p.2).map (fun w => w.toNat))) d2
  let d4 := d.pt.foldl (fun x p => linkSend x 0x0C [3, p.1, p.2.toNat]) d3
  let d5 := d.fns.foldl (fun x p => p.2.fences.foldl (fun x v => linkSend x 0x0C [4, p.1, v.1, v.2]) x) d4
  let d6 := d.buf.tab.foldl (fun x p => sendBuf x p.1) d5
  let d7 := d.buf.claims.foldl (fun x p => linkSend x 0x0C [5, p.1, p.2]) d6
  let d8 := d.fns.foldl (fun x p => p.2.rings.foldl (fun x v =>
    linkSend x 0x0C [6, p.1, v.1, v.2.h, v.2.c, v.2.cci]) x) d7
  let d9 := d.fns.foldl (fun x p => p.2.fcbCopy.foldl (fun x v =>
    linkSend x 0x0C ([7, p.1, v.1] ++ v.2.map (fun w => w.toNat))) x) d8
  let d10 := d.gpu.ctxs.foldl (fun x p => linkSend x 0x0C [8, p.1, p.2.state, p.2.owner]) d9
  let d11 := d.audio.streams.foldl (fun x p => linkSend x 0x0C [9, p.1, p.2.owner, p.2.hwPos]) d10
  let d12 := d.fns.foldl (fun x p => p.2.rings.foldl (fun x v => (v.2.live ++ v.2.queue).foldl (fun x q =>
    linkSend x 0x01 ([p.1, v.1, q.idx] ++ q.words.map (fun w => w.toNat))) x) x) d11
  let d13 := d.commits.foldl (fun x c => linkSend x 0x02 ([c.id, c.anchor, c.group] ++ srcWords c.src ++
    c.land.flatMap (fun l => [l.1, l.2.1, l.2.2.1]))) d12
  let d14 := d.stg.foldl (fun x p => linkSend x 0x05 (p.1 :: (p.2.toList.map (fun v => v.toNat)))) d13
  let d15 := d.stgSI.foldl (fun x p => linkSend x 0x05 ((2 ^ 32 + 10) :: p.1 :: (p.2.toList.map (fun v => v.toNat)))) d14
  linkSend d15 0x0C [10]

/-- A banker mutes its ports and locks the rasters of its enabled platforms to the lead's (R410, R416). -/
def becomeBanker (d : Dev) : Dev :=
  (enabledPlats d).foldl (fun d p =>
    setFlState (wr d (TT_FL_CTRL p) (BitVec.ofNat 32 (2 ^ 31 + 2 ^ 30 + 3 * 2 ^ 28 + p * 2 ^ 24))) p 0) (muteAll d true)

/-- What was accepted or fetched waits for no acknowledgement of a link that is gone (R411), or whose numbers begin anew. -/
def unlinkAll (d : Dev) : Dev :=
  { d with commits := d.commits.map (fun c => { c with link := none })
           fns := d.fns.map (fun p => (p.1, { p.2 with rings := p.2.rings.map (fun r =>
             (r.1, { r.2 with queue := r.2.queue.map (fun q => { q with link := none }) })) })) }

/-- The partner's FORM meets this device's (R408 to R410). -/
def formMeets (d : Dev) (p : Partner) : Dev :=
  match d.pair.form with
  | none => d
  | some j =>
    if (j.role == 1) = p.role ∨ dhState d = 2 then d
    else
      match formFails d p with
      | some x =>
        let d1 := endForm d x.2 x.1
        if dhState d = 1 then toStandalone d1 else d1
      | none =>
        let fin := d.pair.fenceIn
        let hb := d.pair.hbOut
        let d1 := setFenceOut d false
        let d2 := onPair d1 (fun x => { (default : Pair) with
          form := x.form, fenceIn := fin, hbOut := hb, aliveDt := x.aliveDt, fenceOutDt := x.fenceOutDt })
        let d3 := unlinkAll (if fin then d2 else unfence d2)
        let d4 := fs (fs d3 DH_STATUS DH_STATUS_LINK_UP 1) DH_STATUS DH_STATUS_HB_ALIVE 1
        let d5 := setDh (setRole (setHeartbeat (stepDt d4 p.dt) true) (j.role == 1)) 2
        if j.role = 1 then becomeBanker d5 else sendSync d5

/-- PAIR_FORM (R408): FORM starts and, if the partner's FORM is there, meets it; or the partner's comes to one that waits. -/
def doPairForm (f r : Nat) (p : Option Partner) (d : Dev) : Dev :=
  let d1 := if d.pair.form.isSome then d else startDesc d f r 0x650 [] true chkForm actForm
  match p with
  | some x => if domUp d1 15 then formMeets d1 x else d1
  | none => d1

/-- FORM_TIMEOUT (R408). -/
def doFormTimeout (d : Dev) : Dev :=
  match d.pair.form with
  | none => d
  | some j =>
    if dhState d = 2 then d
    else
      let d1 := endForm (advance (j.t0 + 1000000000) d) stERR_DOWN 0
      if dhState d1 = 1 then toStandalone d1 else d1

/-- BANKER_HOT (R410, R411): on the banker when the copy is complete and every enabled platform is LOCKED; on the lead when
the banker says so. -/
def doBankerHot (d : Dev) : Dev :=
  if dhState d ≠ 2 then d
  else if dhBanker d then
    if d.pair.copyDone && (enabledPlats d).all (fun p => flState d p == 2) then
      pairEvent (endForm (setDh d 4) stOK 0) 1 1
    else d
  else pairEvent (endForm (setDh d 3) stOK 0) 1 0

/-! ### LEAVE (R411) -/

def chkLeave (d : Dev) (_f _r : Nat) (q : Desc) : Option (Nat × Nat) :=
  if !pairBodyOk q ∨ bindWord q.words ≠ 0 then some (stBAD_DESC, 0)
  else if d.heritage then some (stERR_PERM, 0)
  else none

/-- LEAVE takes the device to STANDALONE. -/
def actLeave (_f r : Nat) (q : Desc) (d : Dev) : Dev := complete (toStandalone d) 0 r q.idx stOK

def doPairLeave (f r : Nat) (d : Dev) : Dev := startDesc d f r 0x651 [] true chkLeave actLeave

/-! ### SWAP (R423) -/

def chkSwap (d : Dev) (_f _r : Nat) (q : Desc) : Option (Nat × Nat) :=
  if !pairBodyOk q then some (stBAD_DESC, 0)
  else if dhState d ≠ 3 ∨ dhBanker d then some (stERR_PERM, 0)
  else none

/-- SWAP is a device-wide commit; unbound, the lead stops fetching and starting jobs at once. -/
def actSwap (f r : Nat) (q : Desc) (d : Dev) : Dev :=
  let a := bits (at4 q.words 0x10) 3 0
  let g := maskOfList (a :: enabledPlats d)
  let d1 := acceptCommit d f (.desc f r q.idx) a g q.cp false true [.swap]
  if q.cp.isNone then onPair d1 (fun x => { x with swapping := true }) else d1

def doPairSwap (f r : Nat) (d : Dev) : Dev := startDesc d f r 0x652 [] false chkSwap actSwap

/-- The roles exchange, and the crew epoch counts up (R411, R423). -/
def exchange (d : Dev) (banker : Bool) : Dev :=
  let d1 := fs d DH_STATUS DH_STATUS_CREW_EPOCH ((crewEpoch d + 1) % 65536)
  let d2 := setDh (setRole d1 banker) (if banker then 4 else 3)
  pairEvent (muteAll d2 banker) 7 banker.toNat

/-- The old lead gives its role away: the swap's commit leaves without a completion here, and RESTAMP records of the new lead may name
the commits that both devices hold. -/
def giveLead (d : Dev) : Dev :=
  let swaps := d.commits.filter (fun c => c.items.contains .swap)
  let d1 := swaps.foldl (fun d c => match c.src with
    | .desc f r i => dropLive (leaveCommit d c.id) f r i
    | _ => leaveCommit d c.id) d
  let d2 := { d1 with commits := d1.commits.map (fun c => { c with link := some c.id }) }
  exchange (onPair d2 (fun x => { x with swapping := false, seqOut := 0, acked := 0, seqIn := 0 })) true

/-- The SWAP of the lead that this banker holds. -/
def heldSwap (d : Dev) : Option SlotRec :=
  d.pair.heldDescs.find? (fun s => decide (opcodeOf s.words = 0x65) && decide (bits (at4 s.words 0x10) 31 28 = 2))

/-- The banker takes the lead, completes SWAP, and reads its rings. -/
def takeLead (d : Dev) (s : SlotRec) : Dev :=
  let d1 := exchange (onPair (unlinkAll d) (fun x => { x with heldDescs := [], seqOut := 0, acked := 0, seqIn := 0 })) false
  let q : Desc := { idx := s.slot, words := s.words, chain := [], mem := [], cp := none, seq := 0, stage := 0, link := none }
  gpuRun (readAllRings (writeCompletion d1 0 s.r q stOK 0 0 d1.dt))

/-- The swap of this lead has landed at its anchor: the platforms change device from their next frame starts on. -/
def swapLanded (d : Dev) : Bool :=
  (d.commits.filter (fun c => c.items.contains .swap)).all (fun c => c.landed.contains c.anchor)

/-- SWAP_TAKE_EFFECT: no job runs on the lead, every record is acknowledged, and the anchor's landing line is reached; the ports
are muted or unmuted at the next frame start of their sources (R272). -/
def doSwapTakeEffect (d : Dev) : Dev :=
  if dhState d = 3 ∧ d.pair.swapping then
    if (ctxKeys d).all (fun c => (gctx d c).job.isNone) && decide (d.pair.acked ≥ d.pair.seqOut) && swapLanded d then giveLead d else d
  else if dhState d = 4 then
    match heldSwap d with
    | some s => takeLead d s
    | none => d
  else d

/-! ### Fencing (R419, R420) -/

/-- Every port that is up enters FENCED (R271). -/
def fencePorts (d : Dev) : Dev :=
  let ports := (List.range 14).filter (fun q => portState d q == 1 || portState d q == 2 || portState d q == 3)
  ports.foldl (fun d q => dropPort d q 4) d

/-- FENCE_IN is obeyed, or a REJECT came (R411, R420): what was fetched completes with FENCED, jobs are discarded, the link
is silent, the device keeps the rules of R416. -/
def obeyFence (d : Dev) (byReject : Bool) : Dev :=
  let d1 := fencePorts (setFenceOut d false)
  let d2 := gpuClear (endForm d1 stFENCED 0) stFENCED
  let d3 := (d2.commits.filter (fun c => match c.src with | .desc _ _ _ => true | _ => false)).foldl
    (fun d c => endCommit d c stFENCED) d2
  let d4 := (allLive d3).foldl (fun d x => complete d x.1 x.2.1 x.2.2.idx stFENCED) d3
  let d5 := d4.fns.foldl (fun d p => p.2.rings.foldl (fun d r => abortQueue d p.1 r.1 stFENCED) d) d4
  let d6 := fs (fs d5 DH_STATUS DH_STATUS_LINK_UP 0) GL_MODE GL_MODE_FENCED 1
  pairEvent (setDh d6 7) 3 byReject.toNat

/-- Does the device disregard FENCE_IN: fenced already, or on seat A within 2 µs of its own FENCE_OUT (R411, R419)? -/
def fenceIgnored (d : Dev) : Bool :=
  decide (dhState d = 7) || (!d.seatB && d.pair.fenceOut && decide (d.dt ≤ d.pair.fenceOutDt + 2000))

/-- FENCE_IN_ASSERT. In STANDALONE it takes the ports alone: R411 fences a device in every other state, and R426 calls a lead that is
back in STANDALONE fenced. -/
def doFenceInAssert (d : Dev) : Dev :=
  if d.pair.fenceIn then d
  else
    let d1 := onPair d (fun x => { x with fenceIn := true })
    if dhState d1 = 0 then fs (fencePorts d1) GL_MODE GL_MODE_FENCED 1
    else if fenceIgnored d1 then d1
    else obeyFence d1 false

/-- FENCE_IN_RELEASE (R271). -/
def doFenceInRelease (d : Dev) : Dev :=
  if !d.pair.fenceIn then d else unfence (onPair d (fun x => { x with fenceIn := false }))

/-! ### Takeover (R421, R422) -/

/-- A slot that the lead may not have written is written again (R422). -/
def rewriteSlot (d : Dev) (s : SlotRec) : Dev :=
  let x := ringSt d s.f s.r
  let base := if x.entry.type = 4 then x.entry.base else x.entry.cq
  let w := memWrite d s.f s.f (base + 32 * s.slot) (wordBytes s.words)
  if w.2 then report w.1 s.f (vecOf d s.f s.r) false else w.1

/-- Completions that this banker left to the lead, which the lead did not write, are written. -/
def payOwed (d : Dev) : Dev :=
  let d0 := onPair d (fun x => { x with owed := [] })
  d.pair.owed.foldl (fun d o => writeCompletion d o.f o.r o.desc o.status o.detail o.detail2 o.stamp) d0

/-- The first job of each context was on the old lead's slots: it is LOST, but for restartable compute. -/
def loseJobs (d : Dev) : Dev :=
  (ctxKeys d).foldl (fun d c =>
    match (ctxItems d c).find? (fun x => isJob x.2.2 && x.2.2.cp.isNone) with
    | some (f, r, q) =>
      let w := at4 q.words 0x10
      if bits w 31 30 = 1 ∧ bit w 29 then d
      else count (complete (post d f clRASTER 0x17 f (pb 0 c + pb 1 r + pw16 2 (tagOf q.words) + pw32 4 512)) f r q.idx stLOST) 265
    | none => d) d

/-- Every panel starts again from the last MEDIA baseline, and contacts that are DOWN report CANCEL. -/
def takeTouch (d : Dev) : Dev :=
  let d1 := (List.range 8).foldl (fun d t =>
    if pnEn (panelWords d t) then
      setPanelState (onPanel d t (fun x => { x with start := true, void := true, contacts := [], gloves := [] })) t 1
    else d) d
  let cancel (w : Word) : Word := putBits w 24 22 3
  let d2 := d1.pair.downs.foldl (fun d s =>
    touchEvent d s.f 1 d.dt (pw32 0 (cancel (wd s.words 4)).toNat + pw32 4 (wd s.words 5).toNat +
      pw32 8 (wd s.words 6).toNat + pw32 12 (wd s.words 7).toNat)) d1
  onPair d2 (fun x => { x with downs := [] })

/-- Effects and pending triggers end with ERR_DOWN, without a brake. -/
def takeHaptics (d : Dev) : Dev :=
  (List.range 12).foldl (fun d h =>
    let st := hapState d h
    let d1 := endPend (endEffect d h stERR_DOWN false) h stERR_DOWN
    if st = 2 ∨ st = 3 then setHapState d1 h 1 else d1) d

/-- Streams go on from the last position that the lead sent. -/
def takeAudio (d : Dev) : Dev :=
  showAudio (d.pair.streamPos.foldl (fun d p => onStream d p.1 (fun x => { x with hwPos := p.2 })) d)

/-- A HOT banker takes over: it fences the lead, and 2 µs later it is the lead. -/
def takeover (d0 : Dev) : Dev :=
  let t := d0.dt
  let d1 := count (advance (t + 2000) (setFenceOut d0 true)) 639
  let d2 := fs d1 DH_STATUS DH_STATUS_CREW_EPOCH ((crewEpoch d1 + 1) % 65536)
  let d3 := setDh (setRole d2 false) 5
  let d4 := pairEvent d3 2 (absAt (raster d3 0) d3.dt - absAt (raster d3 0) t)
  let d5 := payOwed (d4.pair.pendingOut.foldl rewriteSlot (onPair d4 (fun x => { x with pendingOut := [] })))
  let d6 := takeAudio (takeHaptics (takeTouch (loseJobs (readAllRings d5))))
  let d7 := fs (muteAll d6 false) DH_CTRL DH_CTRL_REMAP_DONE 0
  gpuRun (onPair d7 (fun x => { x with polling := true }))

/-- HEARTBEAT_LOST (R411, R418). -/
def doHeartbeatLost (d0 : Dev) : Dev :=
  let d := fs (setForward d0 []) DH_STATUS DH_STATUS_HB_ALIVE 0
  let lost (d : Dev) : Dev := pairEvent d 4 (1 - (dhBanker d).toNat)
  if dhState d = 4 then takeover d
  else if dhState d = 2 ∨ dhState d = 6 then lost (setDh (endForm d stERR_DOWN 0) 6)
  else if dhState d = 3 then lost (setFenceOut (setDh d 5) true)
  else d

/-! ### The link (R404, R411, R418) -/

/-- The link is lost while HB_IN is alive: by retries (1), authentication (2) or silence (3). -/
def linkLost (d0 : Dev) (cause : Nat) : Dev :=
  let d := fs (setForward d0 []) DH_STATUS DH_STATUS_LINK_UP 0
  match dhState d with
  | 1 => toStandalone d
  | 2 => pairEvent (toStandalone d) 5 cause
  | 3 => pairEvent (setDh d 5) 5 cause
  | 4 => pairEvent (setDh d 6) 5 cause
  | _ => d

/-- Is the link in use? -/
def linkRuns (d : Dev) : Bool := decide (1 ≤ dhState d) && decide (dhState d ≤ 4) && domUp d 15

/-- LINK_RETRANSMIT_TIMEOUT: a frame is sent again; after three failures the link is lost. -/
def doLinkRetransmitTimeout (d : Dev) : Dev :=
  if !linkRuns d ∨ d.pair.acked ≥ d.pair.seqOut then d
  else if d.pair.retries ≥ 3 then linkLost (onPair d (fun x => { x with retries := 0 })) 1
  else bump (onPair (count d 638) (fun x => { x with retries := x.retries + 1 })) DH_LINK_STAT DH_LINK_STAT_RETRIES

/-- AUTHENTICATION_FAIL: three frames in a row that fail lose the link. -/
def doAuthenticationFail (d : Dev) : Dev :=
  if !linkRuns d then d
  else
    let d1 := bump d DH_LINK_STAT DH_LINK_STAT_AUTH_FAILS
    if d.pair.authRun ≥ 2 then linkLost (onPair d1 (fun x => { x with authRun := 0 })) 2
    else onPair d1 (fun x => { x with authRun := x.authRun + 1 })

/-- LINK_SILENCE_TIMEOUT. -/
def doLinkSilenceTimeout (d : Dev) : Dev :=
  if linkRuns d ∧ fb d DH_STATUS DH_STATUS_HB_ALIVE then linkLost d 3 else d

/-! ### What the lead sends on a clock (R405) -/

/-- DONE_RECORD_SEND: per ring, the completion slots and the event slots written so far. -/
def doDoneRecordSend (d : Dev) : Dev :=
  if mirroring d then
    linkSend d 0x07 (d.fns.flatMap (fun p => (p.2.rings.filter (fun r => r.2.c != 0)).flatMap (fun r =>
      if r.2.entry.type = 4 then [p.1, r.1, 0, r.2.c] else [p.1, r.1, r.2.c, 0])))
  else d

/-- The DT at which the frame that a platform shows began. -/
def frameDt (d : Dev) (p : Nat) : Nat :=
  if (raster d p).had ∧ (raster d p).vtot ≠ 0 then dtOf (raster d p) (lineNow d p).1 0 else 0

/-- The baselines of the panels, each second of DT (R405, R422). -/
def sendBaselines (d : Dev) : Dev :=
  if mirroring d ∧ d.dt ≥ d.pair.mediaDt + 1000000000 then
    ((List.range 8).filter (fun t => !(panel d t).nodes.isEmpty)).foldl (fun d t =>
      linkSend d 0x09 (0 :: t :: (panel d t).nodes.map (fun n => (n.base / 256).toNat)))
      (onPair d (fun x => { x with mediaDt := d.dt }))
  else d

/-- RASTER_RECORD_SEND: the lead's DT, and the position and the frame start of every enabled platform; each second of DT, the
panel baselines go with it. -/
def doRasterRecordSend (d : Dev) : Dev :=
  linkSend (sendBaselines d) 0x0A
    (d.dt :: (enabledPlats d).flatMap (fun p => [p, (lineNow d p).1, (lineNow d p).2, frameDt d p]))

/-! ### Doorbells after a takeover, liveness, divergence (R411, R418, R421) -/

/-- TAKEOVER_DOORBELL_POLL. -/
def doTakeoverDoorbellPoll (d : Dev) : Dev := if d.pair.polling then readAllRings d else d

/-- REMAP_DONE. -/
def doRemapDone (a : Acc) (v : Word) (d : Dev) : Dev :=
  let w := regWrite a DH_CTRL v d
  match w.2 with
  | .done n => if bit n 0 then onPair w.1 (fun x => { x with polling := false }) else w.1
  | _ => w.1

/-- ALIVE_WRITE: the check begins anew, and the heartbeat runs. -/
def doAliveWrite (a : Acc) (v : Word) (d : Dev) : Dev :=
  let w := regWrite a DH_ALIVE v d
  match w.2 with
  | .done _ =>
    let d1 := onPair w.1 (fun x => { x with aliveDt := w.1.dt })
    if dhState d1 = 0 then d1 else setHeartbeat d1 true
  | _ => w.1

/-- ALIVE_TIMEOUT. -/
def doAliveTimeout (d : Dev) : Dev :=
  let ms := fg d DH_HB_CFG DH_HB_CFG_ALIVE_MS
  if ms = 0 ∨ dhState d = 0 then d else setHeartbeat (advance (d.pair.aliveDt + ms * 1000000) d) false

/-- CONFIG_DIVERGE: a HOT banker's own link changes its configuration. -/
def doConfigDiverge (f : Nat) (flr : Bool) (d : Dev) : Dev :=
  if dhState d = 4 then pairEvent (setDh d 6) 9 (f + flr.toNat * 256) else d

/-! ### The commands -/

/-- PAIR_FORM (R408). -/
def execPairForm (f : Fn) (r : Ring) (partner : Option Partner) (s : State) : Host.Outcome State Fault Refusal :=
  .next { s with dev := doPairForm f.val r.val partner s.dev }

/-- PAIR_LEAVE (R411). -/
def execPairLeave (f : Fn) (r : Ring) (s : State) : Host.Outcome State Fault Refusal :=
  .next { s with dev := doPairLeave f.val r.val s.dev }

/-- PAIR_SWAP (R423). -/
def execPairSwap (f : Fn) (r : Ring) (s : State) : Host.Outcome State Fault Refusal :=
  .next { s with dev := doPairSwap f.val r.val s.dev }

/-- FORM_TIMEOUT (R408). -/
def execFormTimeout (s : State) : Host.Outcome State Fault Refusal :=
  .next { s with dev := doFormTimeout s.dev }

/-- BANKER_HOT (R410). -/
def execBankerHot (s : State) : Host.Outcome State Fault Refusal :=
  .next { s with dev := doBankerHot s.dev }

/-- SWAP_TAKE_EFFECT (R423). -/
def execSwapTakeEffect (s : State) : Host.Outcome State Fault Refusal :=
  .next { s with dev := doSwapTakeEffect s.dev }

/-- FENCE_IN_ASSERT (R420). -/
def execFenceInAssert (s : State) : Host.Outcome State Fault Refusal :=
  .next { s with dev := doFenceInAssert s.dev }

/-- FENCE_IN_RELEASE (R271). -/
def execFenceInRelease (s : State) : Host.Outcome State Fault Refusal :=
  .next { s with dev := doFenceInRelease s.dev }

/-- DONE_RECORD_SEND (R405). -/
def execDoneRecordSend (s : State) : Host.Outcome State Fault Refusal :=
  .next { s with dev := doDoneRecordSend s.dev }

/-- RASTER_RECORD_SEND (R405). -/
def execRasterRecordSend (s : State) : Host.Outcome State Fault Refusal :=
  .next { s with dev := doRasterRecordSend s.dev }

/-- LINK_RETRANSMIT_TIMEOUT (R404). -/
def execLinkRetransmitTimeout (s : State) : Host.Outcome State Fault Refusal :=
  .next { s with dev := doLinkRetransmitTimeout s.dev }

/-- LINK_SILENCE_TIMEOUT (R418). -/
def execLinkSilenceTimeout (s : State) : Host.Outcome State Fault Refusal :=
  .next { s with dev := doLinkSilenceTimeout s.dev }

/-- HEARTBEAT_LOST (R411). -/
def execHeartbeatLost (s : State) : Host.Outcome State Fault Refusal :=
  .next { s with dev := doHeartbeatLost s.dev }

/-- TAKEOVER_DOORBELL_POLL (R421). -/
def execTakeoverDoorbellPoll (s : State) : Host.Outcome State Fault Refusal :=
  .next { s with dev := doTakeoverDoorbellPoll s.dev }

/-- REMAP_DONE (R421). -/
def execRemapDone (acc : Acc) (v : Word) (s : State) : Host.Outcome State Fault Refusal :=
  .next { s with dev := doRemapDone acc v s.dev }

/-- ALIVE_WRITE (R418). -/
def execAliveWrite (acc : Acc) (v : Word) (s : State) : Host.Outcome State Fault Refusal :=
  .next { s with dev := doAliveWrite acc v s.dev }

/-- ALIVE_TIMEOUT (R418). -/
def execAliveTimeout (s : State) : Host.Outcome State Fault Refusal :=
  .next { s with dev := doAliveTimeout s.dev }

/-- CONFIG_DIVERGE (R411). -/
def execConfigDiverge (f : Fn) (flr : Bool) (s : State) : Host.Outcome State Fault Refusal :=
  .next { s with dev := doConfigDiverge f.val flr s.dev }

/-- AUTHENTICATION_FAIL (R404). -/
def execAuthenticationFail (s : State) : Host.Outcome State Fault Refusal :=
  .next { s with dev := doAuthenticationFail s.dev }

end Sys2Proof.Machine
end

