-- ==== Sys2Proof/Machine/Heritage.lean ====
section
/-! DEFINITION. Heritage (R455 to R476): the MDH-8 register map with its shadows and captures, the soft reset, the aperture
and the key of the extension window. What a capture's landing applies is in Machine/Landing.lean. -/

namespace Sys2Proof.Machine

def onMdh (d : Dev) (g : Mdh → Mdh) : Dev := { d with mdh := g d.mdh }

/-! ### The MDH-8 map (R457 to R466) -/

/-- The offsets of MDH-8 registers of display d and layer l. -/
def dispCtrl (d : Nat) : Nat := 0x100 + 0x40 * d

def lyrCtrl (l : Nat) : Nat := 0x1000 + 0x20 * l

/-- The display whose registers stand at an offset, with the offset inside. -/
def dispAt (off : Nat) : Option (Nat × Nat) :=
  if 0x100 ≤ off ∧ off < 0x300 ∧ (off - 0x100) % 0x40 ≤ 0x14 then some ((off - 0x100) / 0x40, (off - 0x100) % 0x40) else none

/-- The layer whose registers stand at an offset, with the offset inside. -/
def lyrAt (off : Nat) : Option (Nat × Nat) :=
  if 0x1000 ≤ off ∧ off < 0x1400 ∧ (off - 0x1000) % 0x20 ≤ 0x18 then some ((off - 0x1000) / 0x20, (off - 0x1000) % 0x20)
  else none

/-- The bits that a write reaches in a shadowed register; none: it is no shadowed register. -/
def shadowMask (off : Nat) : Option Nat :=
  match dispAt off, lyrAt off with
  | some x, _ => if x.2 = 0 then some 0x830000FF else if x.2 = 4 then some 0xFFFFFF else none
  | none, some x =>
    if x.2 = 0 then some 0x8FFF0003 else if x.2 = 4 ∨ x.2 = 8 then some 0x0FFFFFFF else some full
  | none, none => none

/-- Is an offset occupied in the MDH-8 map? -/
def mdhOccupied (off : Nat) : Bool :=
  (decide (off ≤ 0x18) && off % 4 == 0) || ((dispAt off).isSome && off % 4 == 0) || ((lyrAt off).isSome && off % 4 == 0)

/-- The enabled bytes of a word as a mask. -/
def byteMask (be : BitVec 4) : Nat := (maskBytes be 0xFFFFFFFF).toNat

/-- Is MDH-8 display n enabled now: is its platform in scan-out? -/
def dispOn (d : Dev) (n : Nat) : Bool := scans d n

/-- DISP_POS (R459): frames since the display was enabled, and the line. -/
def dispPos (d : Dev) (n : Nat) : Word :=
  if !dispOn d n then 0
  else
    let at0 := lineNow d n
    BitVec.ofNat 32 ((at0.1 + 65536 - SMap.get d.mdh.frame0 n % 65536) % 65536 * 65536 + at0.2 % 65536)

/-- What an MDH-8 register reads. -/
def mdhValue (d : Dev) (off : Nat) : Word :=
  if off = 0x00 then 0x4D480803
  else if off = 0x04 then BitVec.ofNat 32 d.pm.booted.toNat
  else if off = 0x18 then 256
  else match dispAt off with
    | some x => if x.2 = 0x0C then dispPos d x.1 else mdhReg d off
    | none => mdhReg d off

/-- A read of the MDH-8 map: MDH_ERR and DISP_UFLOW clear on a full read (R10, R11, R20). -/
def mdhRead (be : BitVec 4) (off : Nat) (d : Dev) : Dev :=
  if !mdhOccupied off then emit (logErr d ecUNOCCUPIED 0 off 0) (.readData 0 off 0)
  else
    let clears := off = 0x14 ∨ (dispAt off).any (fun x => x.2 == 0x14)
    let v := mdhValue d off
    if be = 0xF then emit (if clears then setMdh d off 0 else d) (.readData 0 off v)
    else emit d (.readData 0 off (maskBytes be v))

/-! ### Captures (R464, R465) -/

/-- The shadow words that a capture of display n takes: DISP_CTRL, DISP_BG, and the seven words of each of its layers. -/
def captureWords (d : Dev) (n : Nat) : List Word :=
  [mdhReg d (dispCtrl n), mdhReg d (dispCtrl n + 4)] ++
  (List.range 4).flatMap (fun k => (List.range 7).map (fun j => mdhReg d (lyrCtrl (4 * n + k) + 4 * j)))

/-- The words of layer place k in a capture. -/
def capLayer (ws : List Word) (k : Nat) : List Word := (ws.drop (2 + 7 * k)).take 7

/-- The entry of the standard table of each timing code (R462). -/
def mdhTimings : List Nat := [0, 5, 8, 12, 23, 3, 4, 11, 22, 14, 13, 16, 17, 18, 21, 19, 20, 15, 1, 2, 6, 7, 9, 10]

def mdhFormat (w : List Word) : Nat := bits (wd w 0) 27 24

/-- The format code of R168 for an MDH-8 code (R461). -/
def nativeFormat (c : Nat) : Nat := if c = 7 then 0x10 else c + 1

/-- The bytes of a row of plane 0. -/
def rowBytes (w : List Word) : Nat :=
  let width := bits (wd w 4) 15 0
  if mdhFormat w = 7 then width else width * fmtBytes (nativeFormat (mdhFormat w))

/-- The planes of a layer as address, pitch, rows and bytes of a row. -/
def mdhPlanes (w : List Word) : List (Nat × Nat × Nat × Nat) :=
  let h := bits (wd w 4) 31 16
  (bits (wd w 1) 27 0, bits (wd w 3) 15 0, h, rowBytes w) ::
    (if mdhFormat w = 7 then [(bits (wd w 2) 27 0, bits (wd w 3) 31 16, h / 2, bits (wd w 4) 15 0)] else [])

/-- Does a layer at place k break the check of a cause (R465)? Layers that are not shown are not checked. -/
def layerFails (w : List Word) (k cause : Nat) : Bool :=
  let width := bits (wd w 4) 15 0
  let h := bits (wd w 4) 31 16
  let dw := bits (wd w 6) 15 0
  let dh := bits (wd w 6) 31 16
  bit (wd w 0) 31 &&
  (match cause with
    | 2 => decide (mdhFormat w ≥ 8) || (mdhFormat w == 7 && k != 0)
    | 3 => bits (wd w 1) 7 0 != 0 || (mdhPlanes w).any (fun p => p.2.1 % 64 != 0 || decide (p.2.1 < p.2.2.2))
    | 4 => (mdhPlanes w).any (fun p => decide (p.1 + (p.2.2.1 - 1) * p.2.1 + p.2.2.2 > 2 ^ 28))
    | 5 => k == 0 && (decide (2 * dw < width) || decide (dw > 4 * width) || decide (2 * dh < h) || decide (dh > 4 * h))
    | 6 => bits (wd w 0) 1 0 == 3
    | _ => false)

/-- The first check of R465 that a capture of display n fails, as CAUSE and LAYER. -/
def captureFails (n : Nat) (ws : List Word) : Option (Nat × Nat) :=
  if bits (wd ws 0) 7 0 ≥ 24 ∨ bits (wd ws 0) 25 24 ≥ 2 then some (1, 0xFF)
  else [2, 3, 4, 5, 6].findSome? (fun c =>
    ((List.range 4).find? (fun k => layerFails (capLayer ws k) k c)).map (fun k => (c, 4 * n + k)))

/-- MDH_ERR takes a failure. -/
def mdhError (d : Dev) (n : Nat) (x : Nat × Nat) : Dev :=
  setMdh d 0x14 (BitVec.ofNat 32 (2 ^ 31 + x.1 * 65536 + x.2 * 256 + n))

/-- A capture is accepted as a commit that is bound at once: it lands at line 0 of the following frame, or where the raster of
a disabled display lets it (R464). -/
def acceptCapture (d : Dev) (n : Nat) (ws : List Word) : Dev :=
  let it : CommitItem := .capture n ws
  if modeOf d = mCAU ∧ hasBit (fg d SF_CAU_PLAT SF_CAU_PLAT_PLAT) n then d
  else if dispOn d n then
    let x := raster d n
    let c : Commit :=
      { id := d.nextCommit, fn := 0, src := .device, anchor := n, group := 2 ^ n, cp := none, strict := false,
        devWide := false, held := false, bound := true, items := [it],
        land := [landAt x n ((absAt x d.dt / x.vtot + 1) * x.vtot)], landed := [], link := none }
    { d with commits := d.commits ++ [c], nextCommit := d.nextCommit + 1 }
  else
    let i := d.nextCommit
    onCommit (acceptCommit d 0 .device n (2 ^ n) none false false [it]) i (fun c => { c with bound := true })

/-- CAPTURE (R464, R465). -/
def doCapture (n : Nat) (d0 : Dev) : Dev :=
  if !d0.heritage ∨ !bit (mdhReg d0 (dispCtrl n + 8)) 0 then d0
  else
    let d := if dispOn d0 n then advance (nextFrameDt d0 n) d0 else d0
    let ws := captureWords d n
    let d1 := mdhIrq (setMdh d (dispCtrl n + 8) 0) (8 + n)
    match captureFails n ws with
    | some x => mdhError d1 n x
    | none => acceptCapture d1 n ws

/-! ### What a capture applies (R459, R460, R463) -/

/-- A standard entry's clock on a PLL: its EN, POST and N word, and its fraction. -/
def dpllFor (khz : Nat) : Word × Word :=
  let post := cdiv (80 * 25000) khz
  let v := khz * post * 2 ^ 24 / 25000
  (BitVec.ofNat 32 (2 ^ 31 + post * 256 + v / 2 ^ 24), BitVec.ofNat 32 (v % 2 ^ 24))

/-- The PLL that a display takes: one that another display with the same entry uses, or the lowest that none uses. -/
def pickDpll (d : Dev) (n entry : Nat) : Nat :=
  let others := (List.range 8).filter (fun p => decide (p ≠ n) && bit (rd d (SO_PCTRL p)) 31)
  match others.find? (fun p => decide (bits (rd d (SO_PCTRL p)) 5 0 = entry)) with
  | some p => dpllOf (rd d) p
  | none => ((List.range 8).find? (fun k => others.all (fun p => decide (dpllOf (rd d) p ≠ k)))).getD n

/-- DISP_BG in 10 bits a channel (R460). -/
def mdhColour (w : Word) : Word :=
  let c (v : Nat) : Nat := v * 4 + v / 64
  BitVec.ofNat 32 (c (bits w 23 16) * 2 ^ 20 + c (bits w 15 8) * 2 ^ 10 + c (bits w 7 0))

/-- The platform registers that a capture sets. -/
def capturePlat (d : Dev) (n : Nat) (ws : List Word) : Dev :=
  let c := wd ws 0
  let d1 := wr (wr d (CM_PLAT_BG n) (mdhColour (wd ws 1))) (CM_PLAT_LATE n) (mdhColour (wd ws 1))
  if !bit c 31 then fs d1 (SO_PCTRL n) SO_PCTRL_EN 0
  else
    let e := mdhTimings.getD (bits c 7 0) 0
    let k := pickDpll d1 n e
    let f := dpllFor (stdEntry e).khz
    let d2 := doDpllLock k (wr (wr d1 (SO_DPLL_W0 k) f.1) (SO_DPLL_W1 k) f.2)
    let depth := if bits c 25 24 = 0 then 1 else 0
    wr d2 (SO_PCTRL n) (BitVec.ofNat 32 (2 ^ 31 + 2 ^ 30 + depth * 2 ^ 24 + k * 2 ^ 20 + e))

/-- The layer unit of place k on display n (R459). -/
def mdhUnit (n k : Nat) : Nat := if k = 0 then n else 16 + 3 * n + k - 1

/-- The body words that a captured layer amounts to; its HANDLE word holds the format. -/
def mdhBody (n k : Nat) (w : List Word) : List Word :=
  let size := if k = 0 then wd w 6 else wd w 4
  [BitVec.ofNat 32 ((bits (wd w 0) 31 31) * 2 ^ 31 + n * 2 ^ 24 + bits (wd w 0) 1 0 * 2 ^ 20 + mdhUnit n k),
   BitVec.ofNat 32 (nativeFormat (mdhFormat w) * 2 ^ 24), 0, 0, wd w 4, wd w 5, size,
   BitVec.ofNat 32 (bits (wd w 0) 23 16 * 2 ^ 24), 0, 0, 0, 0]

/-! ### Writes of the map, and the soft reset (R464, R468) -/

/-- The MDH-8 layers of display n are empty. -/
def emptyMdhLayers (d : Dev) (n : Nat) : Dev := (List.range 4).foldl (fun d k => emptyLayer d (mdhUnit n k)) d

/-- Every MDH-8 register returns to reset; captures that wait to land go (R468). -/
def mdhClear (d : Dev) : Dev :=
  let isCap (it : CommitItem) : Bool := match it with
    | .capture _ _ => true
    | _ => false
  { d with commits := d.commits.filter (fun c => !c.items.any isCap),
           mdh := { d.mdh with regs := [], applied := [] } }

/-- SOFT_RST: the map returns to reset and each enabled display is disabled at its next frame start (R468). -/
def softReset (d : Dev) : Dev :=
  let on := (List.range 8).filter (dispOn d)
  let t := (on.map (fun n => dtOf (raster d n) (frameNow d n + 1) 0)).foldl max (if on = [] then d.dt + 1000 else d.dt)
  let d1 := setMdh (mdhClear d) 0x08 1
  let d2 := (List.range 8).foldl (fun d n =>
    let was := rd d (SO_PCTRL n)
    let d1 := emptyMdhLayers (wr (wr (fs d (SO_PCTRL n) SO_PCTRL_EN 0) (CM_PLAT_BG n) 0) (CM_PLAT_LATE n) 0) n
    if bit was 31 ∧ (raster d1 n).had then platLanded d1 n (absAt (raster d1 n) d1.dt + 1) d1.dt was else d1) d1
  onMdh d2 (fun m => { m with softAt := some t })

/-- A write of MDH_CTRL: IRQ_EN, and SOFT_RST where it is not running. -/
def mdhCtrl (be : BitVec 4) (v : Word) (d : Dev) : Dev :=
  if !hasBit be.toNat 0 then d
  else
    let old := mdhReg d 0x08
    let d1 := setMdh d 0x08 (putBits old 1 1 (bits v 1 1))
    if bit v 0 ∧ !bit old 0 then softReset d1 else d1

/-- A write of the MDH-8 map; fewer than four byte enables update only the enabled bytes (R464). -/
def mdhWrite (be : BitVec 4) (off : Nat) (v : Word) (d : Dev) : Dev :=
  let old := mdhReg d off
  let m := byteMask be
  if !d.heritage then d
  else if !mdhOccupied off then logErr d ecUNOCCUPIED 0 off v
  else
    match shadowMask off with
    | some s =>
      let k := m &&& s
      setMdh d off (BitVec.ofNat 32 (old.toNat - (old.toNat &&& k) + (v.toNat &&& k)))
    | none =>
      if off = 0x08 then mdhCtrl be v d
      else if off = 0x0C then setMdh d off (BitVec.ofNat 32 (old.toNat - (old.toNat &&& v.toNat &&& m)))
      else if off = 0x10 then setMdh d off (BitVec.ofNat 32 (old.toNat - (old.toNat &&& m) + (v.toNat &&& m)))
      else if (dispAt off).any (fun x => x.2 == 8) then (if bit v 0 ∧ hasBit be.toNat 0 then setMdh d off 1 else d)
      else d

/-- DISP_UPDATE: a write arms a capture. -/
def doDispUpdate (be : BitVec 4) (n : Nat) (v : Word) (d : Dev) : Dev := mdhWrite be (dispCtrl n + 8) v d

/-- MDH_SHADOW_WRITE. -/
def doMdhShadowWrite (be : BitVec 4) (off : Nat) (v : Word) (d : Dev) : Dev := mdhWrite be off v d

/-- SOFT_RST. -/
def doSoftRst (be : BitVec 4) (v : Word) (d : Dev) : Dev := mdhWrite be 0x08 v d

/-- SOFT_RST_DONE: the last enabled display has reached its frame start. -/
def doSoftRstDone (d : Dev) : Dev :=
  match d.mdh.softAt with
  | none => d
  | some t =>
    let d1 := (List.range 8).foldl (fun d n => if (platRun d n).disFrame.isSome then doPlatformDisable n d else d) (advance t d)
    setMdh (onMdh d1 (fun m => { m with softAt := none })) 0x08 (putBits (mdhReg d1 0x08) 0 0 0)

/-! ### The aperture and the extension window (R458, R469) -/

/-- The base of the aperture: 256 MiB directly below the frame region (R456). -/
def apertureBase (d : Dev) : Nat := (dramSize d - 2 ^ 27) / 65536 * 65536 - 2 ^ 28

/-- APERTURE_ACCESS: a host access through BAR2 reaches DRAM; nothing lies beyond the aperture. -/
def doApertureAccess (off : Nat) (wr : Option (List Byte)) (len : Nat) (d : Dev) : Dev :=
  if !d.heritage then d
  else
    let a := apertureBase d + off
    match wr with
    | some bs =>
      let b := bs.take (2 ^ 28 - off)
      dramStore (cleanLines d a b.length) a b
    | none => emit d (.aperture off (dramBytes d a (min len (2 ^ 28 - off))))

/-- EXT_KEY_WRITE: the two keys within 1 ms open the window, zero closes it, anything else is recorded. -/
def doExtKeyWrite (a : Acc) (v : Word) (d : Dev) : Dev :=
  let w := regWrite a GL_EXT_KEY v d
  match w.2 with
  | .done _ =>
    let d1 := onMdh w.1 (fun m => { m with key := none })
    let wrong := logErr d1 ecBAD_SEQUENCE a.mid.toNat GL_EXT_KEY v a.secure
    if v = 0 then fs d1 GL_EXT_STAT GL_EXT_STAT_STATE 0
    else if v = 0xA11E then onMdh (if d.mdh.key.isSome then wrong else d1) (fun m => { m with key := some w.1.dt })
    else if v = 0xE11A ∧ d.mdh.key.any (fun t => decide (w.1.dt ≤ t + 1000000)) then fs d1 GL_EXT_STAT GL_EXT_STAT_STATE 1
    else wrong
  | _ => w.1

/-- A warm reset or FLR closes the window (R469, R476). -/
def closeExt (d : Dev) : Dev := fs (onMdh d (fun m => { m with key := none })) GL_EXT_STAT GL_EXT_STAT_STATE 0

/-! ### The commands -/

/-- DISP_UPDATE (R464). -/
def execDispUpdate (be : BitVec 4) (n : Fin 8) (v : Word) (s : State) : Host.Outcome State Fault Refusal :=
  .next { s with dev := doDispUpdate be n.val v s.dev }

/-- CAPTURE (R465). -/
def execCapture (n : Fin 8) (s : State) : Host.Outcome State Fault Refusal :=
  .next { s with dev := doCapture n.val s.dev }

/-- MDH_SHADOW_WRITE (R464). -/
def execMdhShadowWrite (be : BitVec 4) (off v : Word) (s : State) : Host.Outcome State Fault Refusal :=
  .next { s with dev := doMdhShadowWrite be off.toNat v s.dev }

/-- SOFT_RST (R468). -/
def execSoftRst (be : BitVec 4) (v : Word) (s : State) : Host.Outcome State Fault Refusal :=
  .next { s with dev := doSoftRst be v s.dev }

/-- SOFT_RST_DONE (R468). -/
def execSoftRstDone (s : State) : Host.Outcome State Fault Refusal :=
  .next { s with dev := doSoftRstDone s.dev }

/-- EXT_KEY_WRITE (R469). -/
def execExtKeyWrite (acc : Acc) (v : Word) (s : State) : Host.Outcome State Fault Refusal :=
  .next { s with dev := doExtKeyWrite acc v s.dev }

/-- APERTURE_ACCESS (R458). -/
def execApertureAccess (off : BitVec 28) (w : Option (List Byte)) (len : Nat) (s : State) :
    Host.Outcome State Fault Refusal :=
  .next { s with dev := doApertureAccess off.toNat w len s.dev }

end Sys2Proof.Machine
end

