-- ==== Sys2Proof/Machine/Staging.lean ====
section
/-! DEFINITION. The staged registers (R28, R236, R259, R294, R315, R345): GL_STAGE_COMMIT and CM_SI_COMMIT turn the staging
copies that are written into one commit. -/

namespace Sys2Proof.Machine

/-! ### The staging copies -/

/-- The staging set of the host, or of the safety island. -/
def stageSet (d : Dev) (a : Auth) : SMap (Option Word) := if a.island then d.stgSI else d.stg

/-- A staging copy that is written and not yet committed. -/
def stagedWord (d : Dev) (a : Auth) (off : Nat) : Option Word := (SMap.find? (stageSet d a) off).join

/-- Is any of these registers staged? -/
def anyStaged (d : Dev) (a : Auth) (offs : List Nat) : Bool := offs.any (fun o => (stagedWord d a o).isSome)

/-- The words of registers as staged; one that is not written has its applied value. -/
def stagedBody (d : Dev) (a : Auth) (offs : List Nat) : List Word :=
  offs.map (fun o => (stagedWord d a o).getD (rd d o))

/-- The staging set is empty: every copy equals the applied value (R28). -/
def clearStage (d : Dev) (a : Auth) : Dev := if a.island then { d with stgSI := [] } else { d with stg := [] }

/-- Does a commit hold nothing but media configuration? Such a commit names its own platforms (R294, R315, R345). -/
def onlyMedia (items : List CommitItem) : Bool := !items.any (fun it => isComp it || isScan it)

/-! ### The units of a staged commit, in rising offset order (R34) -/

/-- A check of one unit, given the parts before it and the tables that have come. -/
abbrev UnitChk := List CommitItem → List MemIn → Chk × List MemIn

/-- A unit whose registers are not staged adds nothing. -/
def unitIf (on : Bool) (g : UnitChk) : UnitChk := fun items ms => if on then g items ms else (.ok [], ms)

/-- Units one after another: the first failing status, or all parts. -/
def chkUnits : List UnitChk → List CommitItem → List MemIn → Chk
  | [], items, _ => .ok items
  | g :: gs, items, ms =>
    match g items ms with
    | (.bad st, _) => .bad st
    | (.ok more, ms1) => chkUnits gs (items ++ more) ms1

/-- A check that reads no table. -/
def plainChk (g : List CommitItem → Chk) : UnitChk := fun items ms => (g items, ms)

/-- A part that only the host's set may hold. -/
def hostOnly (a : Auth) (st : Option Nat) (it : CommitItem) : Chk :=
  if a.island then .bad stERR_PERM
  else
    match st with
    | some s => .bad s
    | none => .ok [it]

/-- CM_CTRL: EXP_H alone is staged (R236). -/
def unitCtrl (d : Dev) (a : Auth) : UnitChk :=
  unitIf (anyStaged d a [CM_CTRL]) (plainChk (fun _ => hostOnly a none (.reg CM_CTRL ((stagedWord d a CM_CTRL).getD 0))))

def colourOffs (p : Nat) : List Nat := [CM_PLAT_W0 p, CM_PLAT_BG p, CM_PLAT_DEP p, CM_PLAT_LATE p] ++ (List.range 4).map (CM_PLAT_W4 p)

/-- CM_PLAT_Pn (R220): CLEAR_PATCHES and the load bits act where word 0 is staged. -/
def unitColour (d : Dev) (a : Auth) (group p : Nat) : UnitChk :=
  unitIf (anyStaged d a (colourOffs p)) (fun _ ms =>
    let w0 := (stagedWord d a (CM_PLAT_W0 p)).getD (putBits (rd d (CM_PLAT_W0 p)) 14 14 0)
    chkColour d a group (w0 :: (stagedBody d a (colourOffs p)).drop 1) ms)

def stitchOffs (p : Nat) : List Nat := (List.range 10).map (CM_STITCH p)

def unitStitch (d : Dev) (a : Auth) (group p : Nat) : UnitChk :=
  unitIf (anyStaged d a (stitchOffs p)) (plainChk (fun items =>
    let b := stagedBody d a (stitchOffs p)
    chkStitch d a group items (putBits (wd b 0) 19 16 p :: b.drop 1)))

def layerOffs (k : Nat) : List Nat := (List.range 12).map (CM_LAYER k)

def unitLayer (d : Dev) (a : Auth) (group k : Nat) : UnitChk :=
  unitIf (anyStaged d a (layerOffs k)) (plainChk (fun items =>
    let b := stagedBody d a (layerOffs k)
    chkLayer d a group items (putBits (wd b 0) 5 0 k :: b.drop 1)))

def guardOffs (p r : Nat) : List Nat := (List.range 4).map (CM_GUARD p r)

def unitGuard (d : Dev) (a : Auth) (group p r : Nat) : UnitChk :=
  unitIf (anyStaged d a (guardOffs p r)) (plainChk (fun items =>
    let b := stagedBody d a (guardOffs p r)
    chkGuard d a group items (putBits (putBits (wd b 0) 27 24 p) 3 0 r :: b.drop 1)))

/-- The staged scan-out registers, which stand in the set in rising offset order; their rules follow in `chkScanout`. -/
def unitScan (d : Dev) (a : Auth) (group : Nat) : UnitChk :=
  plainChk (fun items =>
    let ps := (stageSet d a).filterMap (fun x => if soOff x.1 then x.2.map (fun v => CommitItem.reg x.1 v) else none)
    match chkScanout d a group (items ++ ps) with
    | some st => .bad st
    | none =>
      if (items ++ ps).any (fun it => isScan it || (regItem CM_CTRL it).isSome) && !poolFits d (items ++ ps) then
        .bad stNO_RESOURCE
      else .ok ps)

/-- The parts of the staged panel records. -/
def panelParts (d : Dev) (a : Auth) : List CommitItem :=
  (List.range 8).filterMap (fun t =>
    let ws := (List.range 12).filterMap (fun j => (stagedWord d a (TC_PANEL t j)).map (fun v => (j, v)))
    if ws = [] then none else some (.touch t ws))

/-- The device as the parts of a set would leave its records, for the checks that compare records. -/
def withParts (d : Dev) (items : List CommitItem) : Dev :=
  let c : Commit :=
    { id := 0, fn := 0, src := .device, anchor := 0, group := 0, cp := none, strict := false, devWide := false, held := true,
      bound := false, items := items, land := [], landed := [], link := none }
  { d with commits := d.commits ++ [c] }

/-- The panel records (R294): each is judged with all staged records in place. -/
def unitPanels (d : Dev) (a : Auth) : UnitChk :=
  plainChk (fun _ =>
    let ps := panelParts d a
    let d1 := withParts d ps
    if ps = [] then .ok []
    else if a.island then .bad stERR_PERM
    else
      match ps.findSome? (fun it => match it with
        | .touch t _ => chkPanel d1 t (futurePanel d1 t)
        | _ => none) with
      | some st => .bad st
      | none => .ok ps)

def keyOffs (k : Nat) : List Nat := (List.range 4).map (TC_KEY k)

/-- The parts of the staged key records. -/
def keyParts (d : Dev) (a : Auth) : List CommitItem :=
  (List.range 64).filterMap (fun k =>
    if anyStaged d a (keyOffs k) then some (.touchKeys k (stagedBody d a (keyOffs k))) else none)

def unitKeys (d : Dev) (a : Auth) : UnitChk :=
  plainChk (fun items =>
    let ps := keyParts d a
    let d1 := withParts d (items ++ ps)
    if ps = [] then .ok []
    else if a.island then .bad stERR_PERM
    else
      match ps.findSome? (fun it => match it with
        | .touchKeys k ws => chkKey d1 k ws
        | _ => none) with
      | some st => .bad st
      | none => .ok ps)

def hapOffs (h : Nat) : List Nat := [HP_CFG_W0 h, HP_CFG_W1 h, HP_CFG_W2 h]

def unitHaptic (d : Dev) (a : Auth) (h : Nat) : UnitChk :=
  unitIf (anyStaged d a (hapOffs h)) (plainChk (fun _ =>
    let ws := stagedBody d a (hapOffs h)
    hostOnly a (if hapCfgOk ws then none else some stBAD_DESC) (.haptic h ws)))

def routeOffs (n : Nat) : List Nat := (List.range 3).map (AU_RT n)

/-- The staged route entries and the graph that they leave (R342, R345). -/
def unitRoutes (d : Dev) (a : Auth) : UnitChk :=
  plainChk (fun _ =>
    let ps := (List.range 128).filterMap (fun n =>
      if anyStaged d a (routeOffs n) then
        let b := stagedBody d a (routeOffs n)
        some (CommitItem.route n (putBits (putBits (wd b 0) 30 24 n) 19 16 0 :: b.drop 1))
      else none)
    if ps = [] then .ok []
    else if a.island then .bad stERR_PERM
    else
      match chkRoutes d ps with
      | some st => .bad st
      | none => .ok ps)

/-- All units. -/
def stageUnits (d : Dev) (a : Auth) (group : Nat) : List UnitChk :=
  [unitCtrl d a] ++ (List.range 16).map (unitColour d a group) ++ (List.range 16).map (unitStitch d a group) ++
  (List.range 64).map (unitLayer d a group) ++
  (List.range 256).map (fun i => unitGuard d a group (i / 16) (i % 16)) ++ [unitScan d a group, unitPanels d a, unitKeys d a] ++
  (List.range 12).map (unitHaptic d a) ++ [unitRoutes d a]

/-! ### The commit -/

/-- The platforms of the panels that a commit's records stand for after it (R294). -/
def touchPlats (d : Dev) (items : List CommitItem) : Nat :=
  let d1 := withParts d items
  maskOfList (items.filterMap (fun it => match it with
    | .touch t _ => some (pnPlat (futurePanel d1 t))
    | .touchKeys _ ws => some (pnPlat (futurePanel d1 (kyPanel ws)))
    | _ => none))

/-- The group of a staged commit: the one given with the platforms of its panels; for media configuration alone, those
platforms, and the anchor for haptic channels and routes (R294, R315, R345). -/
def stageGroup (d : Dev) (items : List CommitItem) (anchor group : Nat) : Nat :=
  let own := items.any (fun it => match it with
    | .haptic _ _ => true
    | .route _ _ => true
    | _ => false)
  if onlyMedia items ∧ items ≠ [] then touchPlats d items ||| (if own then 2 ^ anchor else 0) else group ||| touchPlats d items

/-- The staged copies become one commit, or are discarded whole with the status of the first failing one (R28, R34). -/
def commitStage (d : Dev) (a : Auth) (anchor group : Nat) (tables : List MemIn) : Dev :=
  let named := (stageSet d a).map (fun x => x.1)
  let comp := named.any (fun o => decide (0x80000 ≤ o) && decide (o < 0xA0000))
  let scan := named.any soOff
  match chkUnits (stageUnits d a group) [] tables with
  | .bad st =>
    let d1 := clearStage d a
    if a.island then fs d1 CM_STATUS CM_STATUS_SI_STATUS st else stageStatus d1 comp scan st
  | .ok items =>
    let d1 := clearStage d a
    let d2 := if a.island then fs d1 CM_SI_COMMIT CM_SI_COMMIT_BUSY 1 else fs d1 GL_STAGE_COMMIT GL_STAGE_COMMIT_BUSY 1
    let g := stageGroup d items anchor group
    let anc := if hasBit g anchor then anchor else (bitsOf 16 g).headD 0
    acceptCommit d2 0 (if a.island then .island else .staged) anc g none false false items

/-- Why a write of a commit register starts nothing (R28, R447): a commit runs, the group lacks the anchor, or a cutover is
in its window. -/
def commitBad (d : Dev) (busy : Bool) (n : Word) : Option Nat :=
  if busy then some ecBUSY
  else if bits n 15 0 = 0 ∨ !hasBit (bits n 15 0) (bits n 19 16) ∨ d.pm.cut.window then some ecCONFLICT
  else none

/-- STAGE_COMMIT (R28): a write of GL_STAGE_COMMIT. -/
def doStageCommit (a : Acc) (v : Word) (tables : List MemIn) (d : Dev) : Dev :=
  let w := guardWrite a GL_STAGE_COMMIT v (commitBad d (fb d GL_STAGE_COMMIT GL_STAGE_COMMIT_BUSY)) d
  match w.2 with
  | .done n => commitStage w.1 { fn := 0, island := false } (bits n 19 16) (bits n 15 0) tables
  | _ => w.1

/-- SI_COMMIT (R236): the same for the safety island's staging set. -/
def doSiCommit (a : Acc) (v : Word) (tables : List MemIn) (d : Dev) : Dev :=
  let w := guardWrite a CM_SI_COMMIT v (commitBad d (fb d CM_SI_COMMIT CM_SI_COMMIT_BUSY)) d
  match w.2 with
  | .done n => commitStage w.1 { fn := 0, island := true } (bits n 19 16) (bits n 15 0) tables
  | _ => w.1

/-! ### The commands -/

/-- STAGE_COMMIT (R28). -/
def execStageCommit (acc : Acc) (v : Word) (tables : List MemIn) (s : State) : Host.Outcome State Fault Refusal :=
  .next { s with dev := doStageCommit acc v tables s.dev }

/-- SI_COMMIT (R236). -/
def execSiCommit (acc : Acc) (v : Word) (tables : List MemIn) (s : State) : Host.Outcome State Fault Refusal :=
  .next { s with dev := doSiCommit acc v tables s.dev }

end Sys2Proof.Machine
end

