-- ==== Sys2Proof/Machine/Landing.lean ====
section
/-! DEFINITION. Landings (R35, R36, R40 to R43, R124 to R126, R206): what a commit changes on a platform of its group, and
the pixels of a strip, which is composed with what will have landed when its first line leaves. -/

namespace Sys2Proof.Machine

/-! ### Layers (R206, R216, R228, R244, R251) -/

/-- The class in force of a layer that lands (R228). -/
def landedClass (d : Dev) (owner : Nat) (b : List Word) : Nat :=
  if owner < 32 ∧ layCC b = 3 ∧ !hasBit (rd d CM_CC3_AUTH).toNat owner then ptCcMax d owner else layCC b

/-- A layer moves here while it still stands on the platform that it leaves (R206). -/
def leaveGhost (d : Dev) (k p : Nat) (waits : Nat → Bool) : Dev :=
  let was := layerPlat d k
  match layerOn d was k with
  | some l =>
    if layerState d k ≠ 0 ∧ was ≠ p ∧ waits was then
      { d with comp := { d.comp with ghosts := { plat := was, lay := l } :: d.comp.ghosts } }
    else d
  | none => d

/-- The blocks of a video layer's line store (R216), as it lands. -/
def landLineStore (d : Dev) (k owner : Nat) (b : List Word) : Dev :=
  if k < 16 then
    let d1 := skGive d (fun r => decide (r.pool = 1) && decide (r.user = k))
    skTakeHigh d1 1 (lineBlocks (laySrcW b)) k (owner % 32)
  else d

/-- A LAYER with EN = 1 lands on its platform at an absolute line: the unit is ACTIVE; a STICKY fault before that line is over (R251). -/
def joinLayer (d : Dev) (at0 id k owner : Nat) (b : List Word) (waits : Nat → Bool) : Dev :=
  let p := bits (wd b 0) 27 24
  let i := handleIdx (wd b 1)
  let stuck := d.comp.sticky.contains k &&
    !d.comp.faults.any (fun a => decide (a.layer = k) && decide (a.plat = p) && decide (at0 ≤ a.abs))
  let d1 := leaveGhost d k p waits
  let d2 := wrs (skGive d1 (fun r => decide (4 ≤ r.pool) && decide (r.user = k))) (CM_LAYER k 0) (b.take 12)
  let d3 := fs (fs (setLayerState d2 k 1) (CM_LAYER_LSTAT k) CM_LAYER_LSTAT_EFF_CC (landedClass d owner b)) (CM_LAYER_LSTAT k)
    CM_LAYER_LSTAT_OWNER owner
  let d4 := if stuck && !faultedIn d3 p k (at0 / max 1 (raster d3 p).vtot) then fs d3 (CM_LAYER_LSTAT k) CM_LAYER_LSTAT_FAULTED 0 else d3
  let d5 := { d4 with comp := { d4.comp with sticky := d4.comp.sticky.filter (fun j => j != k || !stuck)
                                             away := d4.comp.away.filter (fun j => j != k) } }
  let ref : BufRef := { id := id, idx := i, layer := k, plat := p, ending := none }
  let held := d5.buf.refs.any (fun r => decide (r.layer = k) && decide (r.plat = p) && decide (r.idx = i) && r.ending.isNone)
  let d6 := if held then d5 else { d5 with buf := { d5.buf with refs := d5.buf.refs ++ [ref] } }
  landLineStore d6 k owner b

/-- A layer leaves a platform that it moves away from, whichever landing comes first (R206). -/
def quitLayer (d : Dev) (k p : Nat) : Dev :=
  if d.comp.ghosts.any (fun g => g.plat == p && g.lay.layer == k) then
    { d with comp := { d.comp with ghosts := d.comp.ghosts.filter (fun g => !(g.plat == p && g.lay.layer == k)) } }
  else if layerState d k ≠ 0 ∧ layerPlat d k = p ∧ !d.comp.away.contains k then
    { d with comp := { d.comp with away := k :: d.comp.away } }
  else d

/-- A LAYER lands on platform p; `waits` says on which platforms its commit has still to land. -/
def landLayer (d : Dev) (p at0 id k owner : Nat) (b : List Word) (waits : Nat → Bool) : Dev :=
  if bit (wd b 0) 31 then
    if bits (wd b 0) 27 24 = p then joinLayer d at0 id k owner b waits else quitLayer d k p
  else if layerState d k ≠ 0 ∧ layerPlat d k = p then emptyLayer d k
  else quitLayer d k p

/-! ### Platform colour, banks (R218, R220, R221, R229) -/

/-- CLEAR_PATCHES removes every patch of a platform. -/
def clearPatches (d : Dev) (p : Nat) : Dev :=
  (List.range 64).foldl (fun d k => if layerState d k = 2 ∧ layerPlat d k = p then emptyLayer d k else d) d

/-- The colour state of a platform; the load bits read 0. -/
def landColour (d : Dev) (p : Nat) (ws : List Word) (toneCrc lutCrc : Option Word) (tone : List Nat) (lut : List Node) : Dev :=
  let w0 := putBits (wd ws 0) 16 15 0
  let d1 := wr (wr (wr (wr d (CM_PLAT_W0 p) w0) (CM_PLAT_BG p) (wd ws 1)) (CM_PLAT_DEP p) (wd ws 2)) (CM_PLAT_LATE p) (wd ws 3)
  let d2 := wrs d1 (CM_PLAT_W4 p 0) ((ws.drop 4).take 4)
  let d3 := match toneCrc with
    | some c =>
      let d := wr d2 (CM_PLAT_CRC_TONE p) c
      { d with comp := { d.comp with tone := SMap.set d.comp.tone p tone } }
    | none => d2
  let d4 := match lutCrc with
    | some c =>
      let d := wr d3 (CM_PLAT_CRC_LUT p) c
      { d with comp := { d.comp with lut := SMap.set d.comp.lut p lut } }
    | none => d3
  if bit (wd ws 0) 14 then clearPatches d4 p else d4

/-- Two bank entries as a word of CM_SCB. -/
def pairWords : List Nat → List Word
  | a :: b :: cs => BitVec.ofNat 32 (b * 65536 + a) :: pairWords cs
  | _ => []

/-! ### Captures of Heritage (R459, R464, R475) -/

/-- A layer place of a capture: its unit takes the body, or is empty. -/
def landMdhLayer (d : Dev) (n k : Nat) (w : List Word) : Dev :=
  let u := mdhUnit n k
  let b := mdhBody n k w
  if bit (wd w 0) 31 then landLineStore (setLayerState (wrs d (CM_LAYER u 0) b) u 1) u 0 b else emptyLayer d u

/-- The layers of a capture, and the words that it applies. -/
def captureLayers (d : Dev) (n : Nat) (ws : List Word) : Dev :=
  let d0 := wr (wr d (CM_PLAT_BG n) (mdhColour (wd ws 1))) (CM_PLAT_LATE n) (mdhColour (wd ws 1))
  let d1 := { d0 with mdh := { d0.mdh with applied := SMap.set d0.mdh.applied n ws } }
  (List.range 4).foldl (fun d k => landMdhLayer d n k (capLayer ws k)) d1

/-! ### What composition takes of a commit on a platform -/

/-- The REVEAL of the entry that a partition change replaces (R125). -/
def losingReveal (d : Dev) (c : Commit) (f : Nat) : Bool :=
  (c.items.findSome? (fun it => match it with
    | .losing g v => if g = f then some v else none
    | _ => none)).getD (ptReveal d f)

/-- Function f loses the layers of a platform that an entry does not grant (R125). -/
def loseHere (d : Dev) (f : Nat) (ws : List Word) (reveal : Bool) (p frame line : Nat) : Dev :=
  (List.range 64).foldl (fun d k => if loses d f ws k p then loseLayer d k 3 frame line reveal else d) d

/-- The shadow state of a designated display, which the exit from Caution lands if it passes its checks (R475). -/
def exitCapture (d : Dev) (p : Nat) : Dev :=
  if d.heritage ∧ p < 8 ∧ hasBit (cauPlats d) p then
    match captureFails p (captureWords d p) with
    | some x => mdhError d p x
    | none => captureLayers d p (captureWords d p)
  else d

/-- The platform on which a commit's bank lands (R218): the one to which the same commit brings the layer, else the one it is on, else the
anchor. -/
def bankPlat (d : Dev) (c : Commit) (k : Nat) : Nat :=
  match c.items.findSome? (fun it => (layerItem k it).bind (fun ws => if bit (wd ws 0) 31 then some (bits (wd ws 0) 27 24) else none)) with
  | some q => q
  | none => if layerState d k ≠ 0 ∧ hasBit c.group (layerPlat d k) then layerPlat d k else c.anchor

/-- One part of a commit, as far as composition on platform p goes; `waits` says where the commit has still to land. -/
def compItem (c : Commit) (p b : Nat) (waits : Nat → Bool) (d : Dev) (it : CommitItem) : Dev :=
  let vt := max 1 (raster d p).vtot
  match it with
  | .layer k owner ws => landLayer d p b c.id k owner ws waits
  | .stitch q ws => if q = p then wrs d (CM_STITCH p 0) ws else d
  | .guardR q r ws => if q = p then wrs d (CM_GUARD p r 0) ws else d
  | .colour q ws tc lc tone lut => if q = p then landColour d p ws tc lc tone lut else d
  | .bank k bk first coeffs =>
    if bankPlat d c k = p then wrs d (CM_SCB k bk (first / 2)) (pairWords coeffs) else d
  | .partition f ws => loseHere d f ws (losingReveal d c f) p (b / vt) (b % vt)
  | .leave k reveal =>
    if layerPlat d k = p ∧ fg d (CM_LAYER_LSTAT k) CM_LAYER_LSTAT_OWNER = c.fn then loseLayer d k 3 (b / vt) (b % vt) reveal else d
  | .demote k => demoteLayer d c.fn p k
  | .capture n ws => if n = p then captureLayers d n ws else d
  | .cautionExit _ => exitCapture (exitOn d p b) p
  | _ => d

/-! ### What is removed with a partition change (R125, R126) -/

/-- Does a commit of a function set a field of something that the function no longer holds (R126)? -/
def commitStripped (d : Dev) (c : Commit) : Bool :=
  let mine := match c.src with
    | .desc _ _ _ => true
    | .device => true
    | _ => false
  decide (c.landed = []) &&
  c.items.any (fun it => match it with
    | .layer k owner ws =>
      decide (owner < 32) && (!ptLayer d owner k ||
        (bit (wd ws 0) 31 && mine && !hasBit (ptPlatforms d owner) (bits (wd ws 0) 27 24)))
    | .bank k _ _ _ => decide (c.src ≠ .island) && mine && !ptLayer d c.fn k
    | .touch t _ => mine && !ptTouch d c.fn t
    | .haptic h _ => mine && !ptHaptic d c.fn h
    | _ => false)

/-- The status with which a commit ends at its landing without effect, if it does: ABORTED where a part was removed (R126), ERR_PERM
for the mode Stopping while a pair is formed (R9). -/
def commitRefused (d : Dev) (c : Commit) : Option Nat :=
  if commitStripped d c then some stABORTED
  else if c.items.contains (.mode mSTP) ∧ c.landed = [] ∧ dhState d ≠ 0 then some stERR_PERM
  else none

/-- The numbers of a range that another range lacks. -/
def rangeLess (a n b m : Nat) : List Nat :=
  ((List.range n).map (fun k => a + k)).filter (fun k => decide (k < b) || decide (b + m ≤ k))

/-- The parked descriptors of f that a test picks end with ABORTED: what they use was taken away (R124, R125). -/
def abortParked (d : Dev) (f : Nat) (pick : Nat → Desc → Bool) : Dev :=
  ((allLive d).filter (fun x => decide (x.1 = f) && x.2.2.cp.isSome && !isCommit d x.1 x.2.1 x.2.2.idx && pick x.2.1 x.2.2)).foldl
    (fun d x => complete d x.1 x.2.1 x.2.2.idx stABORTED) d

/-- The check, by its row of the table, of a descriptor that acts on a stream, a haptic channel or a panel of its function. -/
def grantChk (key : Nat) : Option (Dev → Nat → Nat → Desc → Option (Nat × Nat)) :=
  match key with
  | 0x400 => some chkTouchCfg
  | 0x410 => some (chkBaseline [(0x10, 0xF0000007)])
  | 0x411 => some (chkBaseline [(0x10, 0xF0000007)])
  | 0x412 => some (chkBaseline [(0x10, 0xF0000007)])
  | 0x413 => some (chkBaseline [(0x10, 0xF0000007), (0x18, full), (0x1C, full), (0x20, full)])
  | 0x420 => some chkTouchTest
  | 0x421 => some chkTouchTest
  | 0x422 => some chkTouchTest
  | 0x440 => some chkHapticPlay
  | 0x461 => some chkHapticClear
  | 0x480 => some chkStreamConfig
  | 0x481 => some chkStreamStart
  | 0x482 => some chkStreamOp
  | 0x483 => some chkStreamDrain
  | 0x4A0 => some chkAudioGain
  | _ => none

/-- Does a parked descriptor use a stream, a channel or a panel that f held in `was` and does not hold now? -/
def lostGrant (was d : Dev) (f r : Nat) (q : Desc) : Bool :=
  match (descKey (ringSt d f r).entry.type q.words).bind grantChk with
  | some chk => decide (chk d f r q = some (stERR_PERM, 0)) && decide (chk was f r q ≠ some (stERR_PERM, 0))
  | none => false

/-- A context is taken away: its jobs end, with what is parked for it, and the GFX rings that name it stall. -/
def loseCtx (d : Dev) (f base c : Nat) : Dev :=
  let rs := (List.range 32).filter (fun r =>
    decide ((ringSt d f r).state = .active) && decide ((ringSt d f r).entry.type = 0) &&
    decide (base + (ringSt d f r).entry.arg = c))
  let d1 := if (gctx d c).state ≠ 0 ∧ (gctx d c).owner = f then freeCtx d c stABORTED else d
  let d2 := abortParked d1 f (fun r _ => decide ((ringSt d1 f r).entry.type = 0) && decide (base + (ringSt d1 f r).entry.arg = c))
  rs.foldl (fun d r => stallFetch d f r 2 stABORTED) d2

/-- A calling point is taken away: EN clears, and what is bound to it is aborted (R83). -/
def losePoint (d : Dev) (c : Nat) : Dev :=
  let d1 := endBound d c stABORTED (fun _ => true)
  disarm d1 c (cpEntry d1 c)

/-- A stream is taken away: it ramps to silence, and what waits on it is aborted. -/
def loseStream (d : Dev) (s : Nat) : Dev :=
  let x := streamRun d s
  dropStream (auEnds (onStream d s (fun y => { y with drains := [], stops := [] })) (x.drains ++ x.stops) stABORTED) s

/-- A haptic channel is taken away: its pending trigger is aborted, and it brakes. -/
def loseHaptic (d : Dev) (h : Nat) : Dev :=
  let d1 := endPend d h stABORTED
  if hapState d1 h = 2 then beginBrake d1 h 0 (nextCross (hapRun d1 h) d1.dt) true else d1

/-- What an entry of the partition table takes from a function. -/
structure Removed where
  ctxs : List Nat
  cps : List Nat
  streams : List Nat
  haptics : List Nat
  panels : List Nat
  layers : List Nat
  deriving DecidableEq, Repr, Inhabited

/-- The resources that function f held before and does not hold after. -/
def removedBy (d d1 : Dev) (f : Nat) : Removed :=
  { ctxs := rangeLess (ptCtxBase d f) (ptCtxCount d f) (ptCtxBase d1 f) (ptCtxCount d1 f),
    cps := rangeLess (ptCpBase d f) (ptCpCount d f) (ptCpBase d1 f) (ptCpCount d1 f),
    streams := (List.range 32).filter (fun s => ptAudio d f s && !ptAudio d1 f s),
    haptics := (List.range 12).filter (fun h => ptHaptic d f h && !ptHaptic d1 f h),
    panels := (List.range 8).filter (fun t => ptTouch d f t && !ptTouch d1 f t),
    layers := (layersOf d f).filter (fun k => !grants (ptEntry d1 f) k (layerPlat d k)) }

/-- Was anything removed, with the limits, vectors and places of R118? -/
def anyRemoved (d d1 : Dev) (f : Nat) (x : Removed) : Bool :=
  decide (x ≠ { ctxs := [], cps := [], streams := [], haptics := [], panels := [], layers := [] }) ||
  (List.range 64).any (fun k => ptLayer d f k && !ptLayer d1 f k) ||
  (bitsOf 16 (ptPlatforms d f)).any (fun p => !hasBit (ptPlatforms d1 f) p) || decide (ptVectors d1 f < ptVectors d f) ||
  decide (ptJobMax d1 f < ptJobMax d f) || decide (ptBufMax d1 f < ptBufMax d f) || decide (ptSkeinMax d1 f < ptSkeinMax d f)

/-- A partition change lands on its anchor (R124, R125): the entry is in force, what it takes away goes, and F0 hears of it.
Layers leave at their platforms' landings; those on platforms outside the group leave now. -/
def landPartition (d : Dev) (c : Commit) (f : Nat) (ws : List Word) : Dev :=
  let rev := ptReveal d f
  let d0 := linkSend (setPt d f ws) 0x05 ([2 ^ 32 + 3, f] ++ ws.map (fun w => w.toNat))
  let x := removedBy d d0 f
  let jobs := (x.ctxs.filter (fun k => (gctx d k).job.isSome && decide ((gctx d k).owner = f))).length
  let strs := x.streams.filter (fun s => decide (streamState d s ≠ 0))
  let haps := x.haptics.filter (fun h => decide (hapState d h = 2) || decide (hapState d h = 3))
  let dep : Departure := { (default : Departure) with cause := 2, jobs := jobs, streams := strs.length,
                                                      haptics := haps.length, layers := x.layers.length }
  let d1 := x.ctxs.foldl (fun d k => loseCtx d f (bits (wd (ptEntry d f) 1) 7 0) k) d0
  let d2 := x.cps.foldl losePoint d1
  let d3 := x.panels.foldl touchRemove (x.haptics.foldl loseHaptic (x.streams.foldl loseStream (abortParked d2 f (lostGrant d d2 f))))
  let d4 := ((List.range 16).filter (fun p => !hasBit c.group p)).foldl (fun d p =>
    loseHere d f ws rev p (lineNow d p).1 (lineNow d p).2) d3
  let d5 := onCommit d4 c.id (fun c => { c with items := c.items ++ [.losing f rev] })
  gpuRun (if anyRemoved d d0 f x then post d5 0 clFUNCTION 1 f (departPay f dep true) else d5)

/-! ### Registers of scan-out (R259 to R271, R279, R288) -/

/-- The route that an offset holds, if it is one. -/
def routeAt (off : Nat) : Option Nat := if 0xC0400 ≤ off ∧ off < 0xC0468 then some ((off - 0xC0400) / 4) else none

/-- The port whose configuration an offset holds, if it is one. -/
def portAt (off : Nat) : Option Nat := (List.range 14).find? (fun q => decide (portCfg q = off))

/-- The platform on which a staged register lands: its own if that is in the group, else the anchor. -/
def regPlat (d : Dev) (c : Commit) (off : Nat) (v : Word) : Nat :=
  match soPlat d off v with
  | some p => if hasBit c.group p then p else c.anchor
  | none => c.anchor

/-- EXP_H lands (R38): on a running platform at its next frame start. -/
def landExpH (d : Dev) (v : Word) : Dev :=
  let h := bit v 16
  let d1 := fs d CM_CTRL CM_CTRL_EXP_H h.toNat
  (List.range 16).foldl (fun d p => onPlat d p (fun y =>
    if platOn d1 p then { y with nextExpH := some h } else { y with expH := h, nextExpH := none })) d1

/-- A staged register lands on platform p at DT t. -/
def landReg (d : Dev) (c : Commit) (p t off : Nat) (v : Word) : Dev :=
  if regPlat d c off v ≠ p then d
  else if off = CM_CTRL then landExpH d v
  else
    let was := rd d off
    let d1 := wr d off v
    match routeAt off, portAt off with
    | some s, _ =>
      let x := raster d (bits was 27 24)
      if was = v then d1 else routeLanded d1 s (if x.had then absFrom x t else 0) was
    | none, some q => cfgLanded d1 q was
    | none, none => d1

/-! ### One commit on one platform -/

/-- The platform on which a panel or key record lands (R294). -/
def touchPlat (d : Dev) (c : Commit) (it : CommitItem) : Nat :=
  let p := match it with
    | .touch t ps => pnPlat (patchWords (panelWords d t) ps)
    | .touchKeys _ ws => pnPlat (panelWords d (kyPanel ws))
    | _ => c.anchor
  if hasBit c.group p then p else c.anchor

/-- One part of a commit, beside what composition takes of it. -/
def restItem (c : Commit) (p t : Nat) (d : Dev) (it : CommitItem) : Dev :=
  match it with
  | .reg off v => landReg d c p t off v
  | .touch k ps => if touchPlat d c it = p then touchLand d k ps else d
  | .touchKeys k ws => if touchPlat d c it = p then touchKeyLand d k ws else d
  | .haptic h ws => if c.anchor = p then hapLand d h ws else d
  | .route n ws => if c.anchor = p then routeLand d n ws else d
  | .partition f ws => if c.anchor = p then landPartition d c f ws else d
  | .mode m => if c.anchor = p then landMode d m else d
  | .cautionExit m =>
    let d1 := if d.heritage ∧ p < 8 ∧ hasBit (cauPlats d) p ∧ (captureFails p (captureWords d p)).isNone then
        capturePlat d p (captureWords d p)
      else d
    if c.anchor = p then landCautionExit d1 m else d1
  | .capture n ws => if n = p then capturePlat d n ws else d
  | _ => d

/-- Does a commit set the timing, depth, PLL or enable of platform p? -/
def setsPlatform (p : Nat) (it : CommitItem) : Bool :=
  match it with
  | .reg off _ => decide (0xC1000 + 64 * p ≤ off) && decide (off ≤ 0xC1010 + 64 * p)
  | .capture n _ => decide (n = p)
  | .cautionExit _ => true
  | _ => false

/-- The references of layers on platform p that this commit ends and no strip bound before (R244). -/
def endRefs (d : Dev) (c : Commit) (p b : Nat) : Dev := closeDue (bindRefs d p b c) p

/-- One part of a commit on a platform: for composition and the rest; a partition change first sets what it takes away (R125). -/
def applyPart (i p b t : Nat) (waits : Nat → Bool) (d : Dev) (it : CommitItem) : Dev :=
  match commitById d i with
  | none => d
  | some c =>
    match it with
    | .partition _ _ =>
      let d1 := restItem c p t d it
      compItem ((commitById d1 i).getD c) p b waits d1 it
    | _ => restItem c p t (compItem c p b waits d it) it

/-- Is this the leaving of a layer whose owner departs (R127), or its loss of class 3 (R228)? No landing of a commit is counted for it (R40). -/
def isLeave (it : CommitItem) : Bool :=
  match it with
  | .leave _ _ => true
  | .demote _ => true
  | _ => false

/-- A commit applies on a platform (R35): its fields together, then what its landing starts; a part of a removed resource
ends it whole (R126). -/
def landOne (p b t : Nat) (d : Dev) (i : Nat) : Dev :=
  match commitById d i with
  | none => d
  | some c =>
    match commitRefused d c with
    | some st => endCommit d c st
    | none =>
      let waits (q : Nat) : Bool := decide (q ≠ p) && hasBit c.group q && !c.landed.contains q
      let was := rd d (SO_PCTRL p)
      let d0 := keepSigs (endRefs d c p b) p b (c.items.filterMap (fun it => match it with
        | .reg off _ => some off
        | _ => none))
      let d1 := c.items.foldl (applyPart i p b t waits) d0
      let d2 := if c.items.any (setsPlatform p) ∧ rd d1 (SO_PCTRL p) ≠ was ∨
          c.items.any (fun it => match it with
            | .reg off _ => decide (0xC1000 + 64 * p ≤ off) && decide (off ≤ 0xC1010 + 64 * p)
            | _ => false) then platLanded d1 p b t was else d1
      let v := (raster d2 p).vtot
      let d3 := onPlat d2 p (fun y => { y with lands := b :: y.lands.filter (fun a => decide (b < a + 2 * v)) })
      let l := (landOf c p).getD (p, 0, 0, t)
      if c.items.all isLeave then landedOn (snapCfg d2 p b) i p
      else landedOn (snapCfg (tagLanding d3 p l.2.1 l.2.2.1) p b) i p

/-- COMMIT_LAND (R35, R36): the commits whose landing strip starts here apply, device-wide ones first. -/
def doCommitLand (p f l : Nat) (d0 : Dev) : Dev :=
  let cs := landingNow d0 p f l
  match cs.head?.bind (fun c => landOf c p) with
  | none => d0
  | some z =>
    let x := raster d0 p
    let t := if x.had then dtOf x z.2.1 z.2.2.1 else z.2.2.2
    let b := if x.had then z.2.1 * x.vtot + z.2.2.1 else 0
    let d1 := (cs.map (fun c => c.id)).foldl (landOne p b t) (advance t d0)
    resumeFetch d0 (gpuRun (showPending (touchSweep (closeDue d1 p))))

/-! ### The end of a departure (R127 to R129) -/

/-- The layers of Fn that have still to leave do so: the departure strips come before its end. -/
def leaveAll (d : Dev) (n : Nat) : Dev :=
  (d.commits.filter (fun c => decide (c.fn = n) && c.items.all isLeave)).foldl (fun d c =>
    c.land.foldl (fun d l => landOne l.1 (l.2.1 * (raster d l.1).vtot + l.2.2.1) l.2.2.2 (advance l.2.2.2 d) c.id) d) d

/-- Have the parallel steps of a departure ended: streams silent, channels at rest, commits of Fn landed? -/
def departOver (d : Dev) (n : Nat) : Bool :=
  decide (runningStreams d n = []) && decide (hapticsOf d n = []) &&
  !d.commits.any (fun c => decide (c.fn = n) && !c.items.all isLeave)

/-- FUNCTION_DEPARTED (R127 steps 8 and 9): the last layers have left, the record goes to F0, every DEPART that waits completes, and the
function is DISABLED. F0's own departure ends with F0 ENABLED and writes no record (R128). -/
def doFunctionDeparted (n : Nat) (d0 : Dev) : Dev :=
  if fnState d0 n ≠ 2 ∨ !departOver d0 n then d0
  else
    let d := departLast (leaveAll d0 n) n
    let d1 := onFn d n (fun x => { (default : FnSt) with rings := x.rings })
    if n = 0 then { setFnState d1 0 1 with vfEnable := false }
    else
      let x := (fnSt d n).dep
      let d2 := post (setFnState d1 n 0) 0 clFUNCTION 1 n (departPay n x false)
      x.waiters.foldl (fun d w => complete d 0 w.1 w.2 stOK) d2

/-! ### STRIP_COMPOSE_DONE (R35, R230, R233 to R235, R392, R396) -/

/-- The device with the partition table as it will stand at DT t: the changes whose anchor lands by then are in force (R124). -/
def tableAt (d : Dev) (t : Nat) : Dev :=
  (d.commits.filter (fun c => !c.held && !c.landed.contains c.anchor && (landOf c c.anchor).any (fun l => decide (l.2.2.2 ≤ t)))).foldl
    (fun d c => c.items.foldl (fun d it => match it with
      | .partition f ws => setPt d f ws
      | _ => d) d) d

/-- Where a commit lands on a platform, as an absolute line. -/
def landAbs (d : Dev) (p : Nat) (c : Commit) : Nat :=
  ((landOf c p).map (fun l => l.2.1 * (raster d p).vtot + l.2.2.1)).getD 0

/-- A commit in its place among others, in the order in which they land (R36). -/
def insertLanding (d : Dev) (p : Nat) (c : Commit) : List Commit → List Commit
  | [] => [c]
  | x :: xs =>
    if landAbs d p c < landAbs d p x ∨ (landAbs d p c = landAbs d p x ∧ (c.devWide ∨ !x.devWide)) then c :: x :: xs
    else x :: insertLanding d p c xs

/-- The commits that will have landed on a platform when an absolute line starts, in the order in which they land; one that will be
refused at its landing is not among them. -/
def landedBy (d : Dev) (p b : Nat) : List Commit :=
  let due := d.commits.filter (fun c => !c.held && !c.landed.contains p && (c.bound || !d.pm.cut.window) &&
    (landOf c p).any (fun l => decide (l.2.1 * (raster d p).vtot + l.2.2.1 ≤ b) &&
      (commitRefused (tableAt d l.2.2.2) c).isNone))
  due.foldr (insertLanding d p) []

/-- The device as composition of the strip at an absolute line sees it. -/
def viewAt (d : Dev) (p b : Nat) : Dev :=
  (landedBy d p b).foldl (fun d c =>
    c.items.foldl (compItem c p b (fun q => decide (q ≠ p) && hasBit c.group q && !c.landed.contains q)) d) d

/-- A pixel inside regions whose FALLBACK latch is set leaves in their colour (R392). -/
def latchPix (d : Dev) (p : Nat) (o : OutPix) : OutPix :=
  let rs := (guardsAt d p o.x o.y).filter (fun r => hasBit (fg d (SF_LATCH p) SF_LATCH_FALLBACK) r)
  match fallbackRegion d p rs with
  | some r => substPix (platRun d p).depth o.x o.y (guardWord d p r 3)
  | none => o

/-- The headers of the LBC buffers that a strip reads first in its frame are read (R243). -/
def readHeaders (d : Dev) (p f l : Nat) : Dev :=
  let old := d.comp.hdrs.filter (fun h => !(decide (h.plat = p) && decide (h.frame ≠ f)))
  let new := (List.range 64).filterMap (fun k =>
    match layerOn d p k with
    | none => none
    | some b =>
      let i := handleIdx (wd b.words 1)
      let reads := decide (b.st = 1) && bit (wd (bufEntry d i).words 0) 23 && decide (layDstY b.words < ((l + bandH d p : Nat) : Int)) &&
        decide ((l : Int) < layDstY b.words + (layDstH b.words : Int))
      if reads && !old.any (fun h => decide (h.plat = p) && decide (h.idx = i)) then
        some { plat := p, idx := i, frame := f, clear := frameClear d p f i }
      else none)
  { d with comp := { d.comp with hdrs := old ++ new } }

/-- Where a band of Freight goes (R232): one of two frames in DRAM, alternately, behind those of the platforms before it, in a form that the
spec does not give. -/
def storeBand (d : Dev) (p f l : Nat) : Dev :=
  if (platRun d p).mode ≠ 3 then d
  else
    let own (q : Nat) : Nat := if platOn d q then freightBytes (raster d q).hact (raster d q).vact (platRun d q).depth else 0
    let row := (raster d p).hact * depthBytes (platRun d p).depth
    let at0 := rd64 d CM_FRT_BASE_LO + ((List.range p).map own).sum * 65536 + f % 2 * (own p / 2) * 65536 + l * row
    dramRelease d at0 (min 64 ((raster d p).vact - l) * row)

/-- The pixels of a strip that is composed: every place of its active lines, with the source pixels that came for it from outside the
device's DRAM. -/
def stripPlaces (d : Dev) (p l : Nat) (px : List PixelIn) : List PixelIn :=
  let x := raster d p
  (rectPlaces 0 l x.hact (min (l + bandH d p) x.vact)).map (fun q =>
    (px.find? (fun o => decide (o.x = q.1) && decide (o.y = q.2))).getD { x := q.1, y := q.2, samples := [] })

/-- A strip of a refreshed frame with selective update is sent as a region of its own when it differs from the same strip of the last
frame sent (R281). -/
def sendUpdate (d : Dev) (p f l : Nat) (px : List OutPix) : Dev :=
  let y := platRun d p
  if fb d (SO_PSR p) SO_PSR_SU_EN ∧ (y.psrFrame = some f ∨ y.psrExit = some f) then
    let was := d.out.findSome? (fun o => match o with
      | .strip q g m old => if q = p ∧ y.psrLast = some g ∧ m = l then some old else none
      | _ => none)
    if was.any (fun old => sigCrc old == sigCrc px) then d else emit d (.update p f l)
  else d

/-- STRIP_COMPOSE_DONE: the strip is complete with its pixels; an abandoned one was composed again from the classes CC2 and
CC3; in Caution a designated platform shows class CC3 alone. -/
def doStripComposeDone (p f l : Nat) (px : List PixelIn) (d : Dev) : Dev :=
  let b := f * (raster d p).vtot + l
  if !(platRun d p).openStrips.contains b then d
  else
    let late := (platRun d p).late.find? (fun s => s.1 == b)
    let mine := stripPlaces d p l px
    let v := readHeaders (viewAt d p b) p f l
    let least := if inCaution v p b then 3 else if late.isSome then 2 else 0
    let out := (mine.filterMap (fun q => outPixel v p f q least)).map (latchPix v p)
    let d0 := { d with comp := { d.comp with hdrs := v.comp.hdrs } }
    let d1 := emit (sendUpdate (count (storeBand d0 p f l) (266 + 4 * p)) p f l out) (.strip p f l out)
    let d2 := match late with
      | some s => noteStrip (bump (postLate (count d1 (266 + 4 * p + 1)) p 1 f l s.2) CM_STATUS CM_STATUS_RECOMPOSED) p b 1
      | none => d1
    closeStrip d2 p b

/-- Where a layer is composed at a line of a frame: its platform and the layer as composition of that line sees it. -/
def composedOn (d : Dev) (k frame l : Nat) : Option (Nat × LaySnap) :=
  (layerPlat d k :: List.range 8).findSome? (fun p =>
    ((layerOn (viewAt d p (frame * (raster d p).vtot + l)) p k).filter (fun b => b.st == 1)).map (fun b => (p, b)))

/-- The payload of FETCH_FAULT (R252). -/
def fetchPay (p k code frame line : Nat) (h : Word) : Nat :=
  pb 0 k + pb 1 p + pb 2 code + pw32 4 h.toNat + pw32 8 frame + pw16 12 line

/-- What a failed fetch leaves (R250, R251): the layer leaves blending from the line on, under STICKY also after the frame. -/
def dropFetch (d : Dev) (p k b : Nat) (sticky : Bool) : Dev :=
  let d1 := bump (fs d (CM_LAYER_LSTAT k) CM_LAYER_LSTAT_FAULTED 1) BF_STATUS BF_STATUS_FAULTS
  let at0 : FaultAt := { layer := k, plat := p, abs := b }
  let d2 := { d1 with comp := { d1.comp with sticky := if sticky then k :: d1.comp.sticky else d1.comp.sticky
                                             faults := at0 :: d1.comp.faults } }
  if sticky then snapCfg d2 p b else d2

/-- FETCH_FAULT (R250 to R252): the fetch of a layer fails as a line of a frame is composed. A reserved LBC state leaves the layer in
and is told once per layer per frame (R243). -/
def doFetchFault (k : Nat) (c : FetchCause) (frame line iova : Nat) (d : Dev) : Dev :=
  match composedOn d k frame line with
  | none => d
  | some (p, b) =>
    let e := bufEntry d (handleIdx (wd b.words 1))
    if layerOut d p k frame then d
    else match c with
      | .lbcState x =>
        let d1 := bump d BF_STATUS BF_STATUS_LBC_BAD
        if d.comp.lbcTold.contains (k, frame) then d1
        else post { d1 with comp := { d1.comp with lbcTold := (k, frame) :: d1.comp.lbcTold } } e.owner clBUFFER 3 midCOMPOSE
          (pb 0 k + pb 1 p + pw32 4 x.toNat + pw32 8 frame)
      | c =>
        let d1 := dropFetch d p k (frame * (raster d p).vtot + line) (bit (wd e.words 0) 22)
        let d2 := match c with
          | .dmmu t => noteFault d1 e.owner midCOMPOSE t.val iova false
          | _ => d1
        post d2 e.owner clBUFFER 2 midCOMPOSE (fetchPay p k (fetchCode c) frame line (wd b.words 1))

/-! ### The commands -/

/-- FETCH_FAULT (R250). -/
def execFetchFault (l : Lay) (c : FetchCause) (frame line : Nat) (iova : BitVec 64) (s : State) :
    Host.Outcome State Fault Refusal :=
  .next { s with dev := doFetchFault l.val c frame line iova.toNat s.dev }

/-- COMMIT_LAND (R35). -/
def execCommitLand (p : Plat) (frame line : Nat) (s : State) : Host.Outcome State Fault Refusal :=
  .next { s with dev := doCommitLand p.val frame line s.dev }

/-- STRIP_COMPOSE_DONE (R244). -/
def execStripComposeDone (p : Plat) (frame line : Nat) (px : List PixelIn) (s : State) :
    Host.Outcome State Fault Refusal :=
  .next { s with dev := doStripComposeDone p.val frame line px s.dev }

/-- FUNCTION_DEPARTED (R127). -/
def execFunctionDeparted (f : Fn) (s : State) : Host.Outcome State Fault Refusal :=
  .next { s with dev := doFunctionDeparted f.val s.dev }

end Sys2Proof.Machine
end

