-- ==== Sys2Proof/Machine/Resets.lean ====
section
/-! DEFINITION. Resets (R5, R13, R17, R18, R26, R27, R44, R45): cold, warm and dead-man, function and section resets, and the
locks. -/

namespace Sys2Proof.Machine

/-! ### Cold reset (R17, R44) -/

/-- What the PMU keeps over a cold reset: the persistent parameter store. -/
def keepStore (p : Power) : Power :=
  { (default : Power) with store := p.store, storeSeq := p.storeSeq, storePresent := p.storePresent,
                           storeSectors := p.storeSectors, storeHead := p.storeHead, storePos := p.storePos,
                           storeErases := p.storeErases }

/-- The straps as they are latched (R5, R438): the personality, the seat and the boot mode. -/
def latchStraps (d : Dev) (st : Straps) : Dev :=
  let d1 := { d with heritage := st.heritage, seatB := st.seatB, bootMode := st.bootMode.toNat }
  let d2 := fs d1 GL_DEV_ID GL_DEV_ID_PERSONALITY st.heritage.toNat
  fs (fs d2 DH_STATUS DH_STATUS_SEAT st.seatB.toNat) PM_BOOT_STAT PM_BOOT_STAT_BOOT_MODE st.bootMode.toNat

/-- The mode after a reset: Intercity, in Heritage its own (R4, R6). -/
def resetMode (d : Dev) : Dev := if d.heritage then setMode d mHER else d

/-- COLD_RESET: all but the fuses and the persistent store is lost; the straps are latched. -/
def doColdReset (st : Straps) (d : Dev) : Dev :=
  let d1 : Dev := { Dev.reset with dramUnits := d.dramUnits, pm := keepStore d.pm, freeCtr := d.freeCtr, out := d.out }
  resetMode (restoreMap (latchStraps d1 st))

/-! ### Warm reset (R13, R44, R45) -/

/-- The registers that a warm reset keeps although they list it: those whose lock is set (R13: SO's routes and signature
bindings, SK's reserves), the word of SELF, which lists cold reset alone (R133), and, once the island has halted, the latches that only its writes clear (R394). -/
def warmKeeps (d : Dev) (off : Nat) : Bool :=
  (rowOf off).any (fun r => rowLocked d r.1) || (decide (MM_CTRL 0 ≤ off) && decide (off ≤ MM_CTRL 31) && off % 16 == 8) ||
  (d.safe.halted && (off == SF_MON_STAT || (decide (SF_LATCH 0 ≤ off) && decide (off ≤ SF_LATCH 15))))

/-- What the PMU keeps over a warm reset: the store, the reset-cause log, and the power states of the domains. -/
def keepPower (p : Power) : Power :=
  { keepStore p with rcl := p.rcl, rclCount := p.rclCount, rclCopied := p.rclCopied, waking := p.waking, off := p.off,
                     hib := p.hib, tripCut := p.tripCut }

/-- DRAM is not guaranteed over a warm reset: its bytes are free values, but for the Heritage aperture (R458), and the secure
range is scrubbed (R384). -/
def warmDram (d : Dev) : Dev :=
  let a := if d.heritage then apertureBase d else dramSize d
  let d1 := dramRelease d 0 a
  let d2 := if d.heritage then dramRelease d1 (a + 2 ^ 28) (dramSize d - (a + 2 ^ 28)) else d1
  zeroDram d2 0 (dramSecureTop d2)

/-- The partition table returns to reset unless GL_LOCK.HS keeps it (R119). -/
def warmTable (d : Dev) : Dev := if locked d 0 then d else { d with pt := [], ptStage := [] }

/-- The lockstep bits outlast a warm reset (R393, R394). -/
def warmIsland (old d : Dev) : Dev :=
  let mon := if old.safe.halted then rd old SF_MON_STAT else 0
  let d1 := wr d SF_MON_STAT mon
  let d2 := fs (fs d1 SF_STATUS SF_STATUS_SAFE_STATE (fg old SF_STATUS SF_STATUS_SAFE_STATE)) SF_STATUS SF_STATUS_LOCKSTEP
    (fg old SF_STATUS SF_STATUS_LOCKSTEP)
  showErr (fs d2 SF_CAUTION SF_CAUTION_CAU_LATCH (if old.safe.halted then fg old SF_CAUTION SF_CAUTION_CAU_LATCH else 0))

/-- The registers of the power domains: their states stay, requests and FORCE go. -/
def warmDomains (d : Dev) : Dev :=
  (List.range 16).foldl (fun d k => wr d (PM_DOM_STAT k) (BitVec.ofNat 32 (domState d k * 2 ^ 29))) d

/-- What a warm reset loses beside registers: every unit's state, every ring and commit. A platform that had a timing goes on
as a virtual raster (R292); DT runs on. BL_BIND_c is restored by cold only, so an enabled channel keeps its block (R360). -/
def warmUnits (d : Dev) : Dev :=
  let d1 := (List.range 16).foldl cutPlatform d
  { d1 with tt := { (default : Timetable) with raster := d1.tt.raster, dtHi := d1.tt.dtHi }
            fns := []
            dirty := []
            ptSel := []
            blobs := []
            vfEnable := false
            numVfs := 0
            plat := []
            commits := []
            err := { (default : ErrLog) with seq := d1.err.seq }
            ctr := default
            buf := { (default : Bufs) with runs := d1.buf.runs.filter (fun r => decide (r.pool = 3)) }
            gpu := default
            comp := default
            scan := default
            hap := default
            touch := default
            audio := default
            pm := keepPower d1.pm
            safe := { (default : Safe) with halted := d1.safe.halted }
            pair := { (default : Pair) with fenceIn := d1.pair.fenceIn }
            mdh := default
            gpio := 0 }

/-- No function uses a DMMU table (R134). -/
def warmMmu (d : Dev) : Dev := (List.range 32).foldl (fun d n => fs d (MM_CTRL n) MM_CTRL_EN 0) d

/-- A warm reset with its cause. -/
def warm (d0 : Dev) (cause : Nat) : Dev :=
  let d := addCause d0 cause 0 0
  let seat := fg d DH_STATUS DH_STATUS_SEAT
  let boot := bellWarm (warmUnits (setHeartbeat (setFenceOut d false) false))
  let back := warmMmu (restore (restore boot .warm (warmKeeps d)) .store (fun _ => false))
  let regs := warmTable (fs (warmDomains (warmIsland d back)) DH_STATUS DH_STATUS_SEAT seat)
  showMedia (bankerLike d) (showSkein (resetMode (restoreMap (warmDram regs))))

/-- WARM_RESET (R17, R496): a pin pulse below 100 ns is ignored, and one from 100 ns to 1 µs is ignored or taken; the host's
request needs its key. -/
def doWarmReset (c : WarmCause) (d : Dev) : Dev :=
  match c with
  | .pin low =>
    if low < 100 then d
    else if low < 1000 then
      let t := takeFree d
      if t.1 % 2 = 1 then warm t.2 1 else t.2
    else warm d 1
  | .deadman => warm d 2
  | .host a v =>
    let w := regWrite a PM_WARM_REQ v d
    match w.2 with
    | .done _ => if bits v 31 16 = 0x57A3 ∧ bit v 0 then warm w.1 3 else w.1
    | _ => w.1

/-- DEADMAN_EXPIRE (R390): the timer has run out. -/
def doDeadmanExpire (d : Dev) : Dev :=
  match d.safe.dmFrom with
  | none => d
  | some t => warm (advance (t + d.safe.dmMs * 1000000) d) 2

/-! ### Function reset (R44, R127, R128, R476) -/

/-- FUNCTION_RESET: an FLR. Fn departs; F0's own takes every function along, and in Heritage acts as SOFT_RST too. -/
def doFunctionReset (n : Nat) (d : Dev) : Dev :=
  if n = 0 then
    let d1 := restore (pfDeparture (addCause d 4 0 0)) .fn0 (fun _ => false)
    if d1.heritage then closeExt (softReset d1) else d1
  else if fnState d n = 0 then d
  else startDeparture (addCause d 4 n 0) n 0

/-! ### Section resets (R27, R44) -/

/-- The bit of a section in GL_SECT_RST, which is its number in the reset-cause log. -/
def sectNum : Sect → Nat
  | .tt => 0
  | .raster => 1
  | .compose => 2
  | .scanout => 3
  | .media => 4
  | .pair => 5

/-- SO_DP_STAT_p after a section reset: HPD stays (R18). -/
def hpdAlone (d : Dev) : Dev :=
  (List.range 4).foldl (fun d p => wr d (SO_DP_STAT p) (BitVec.ofNat 32 (fg d (SO_DP_STAT p) SO_DP_STAT_HPD * 2 ^ 28))) d

/-- What the reset of a section does to its units and registers. -/
def sectWork (d : Dev) : Sect → Dev
  | .tt => restore (ttClear d) .tt (fun _ => false)
  | .raster => restore (gpuClear d stABORTED) .raster (fun _ => false)
  | .compose => restore (composeClear d) .compose (fun _ => false)
  | .scanout => scanoutReset (hpdAlone (restore d .scanout (fun o =>
      (rowOf o).any (fun r => rowLocked d r.1) || (List.range 4).any (fun p => o == SO_DP_STAT p))))
  | .media => showPanels (showHap (showAudio (showStreams (restore (touchSection (audioSection (hapSection d))) .media (fun _ => false)))))
  | .pair => pairSection d

/-- A section reset begins: its bit reads 1 until SECTION_RESET_DONE. -/
def sectReset (d : Dev) (x : Sect) : Dev :=
  let k := sectNum x
  if hasBit (rd d GL_SECT_RST).toNat k then d
  else wr (sectWork (addCause d 5 k 0) x) GL_SECT_RST (BitVec.ofNat 32 ((rd d GL_SECT_RST).toNat + 2 ^ k))

/-- The sections in the order of their bits. -/
def allSects : List Sect := [.tt, .raster, .compose, .scanout, .media, .pair]

/-- A write of GL_SECT_RST: F0's alone. -/
def sectWrite (a : Acc) (v : Word) (d : Dev) : Dev :=
  let was := rd d GL_SECT_RST
  let w := guardWrite a GL_SECT_RST v (fun _ => if a.mid.toNat = 0 ∨ a.mid.toNat = midPAIR then none else some ecNOT_PERMITTED) d
  match w.2 with
  | .done _ => (allSects.filter (fun x => bit v (sectNum x))).foldl sectReset (wr w.1 GL_SECT_RST was)
  | _ => w.1

def doSectRstTt (a : Acc) (d : Dev) : Dev := sectWrite a 1 d

def doSectRstRaster (a : Acc) (d : Dev) : Dev := sectWrite a 2 d

def doSectRstCompose (a : Acc) (d : Dev) : Dev := sectWrite a 4 d

def doSectRstScanout (a : Acc) (d : Dev) : Dev := sectWrite a 8 d

def doSectRstMedia (a : Acc) (d : Dev) : Dev := sectWrite a 16 d

def doSectRstPair (a : Acc) (d : Dev) : Dev := sectWrite a 32 d

/-- SECTION_RESET_DONE: the section is back in its reset state; its bit clears. -/
def doSectionResetDone (x : Sect) (d : Dev) : Dev :=
  let k := sectNum x
  if !hasBit (rd d GL_SECT_RST).toNat k then d
  else
    let d1 := wr d GL_SECT_RST (BitVec.ofNat 32 ((rd d GL_SECT_RST).toNat - 2 ^ k))
    match x with
    | .tt => { d1 with tt := { d1.tt with ownLost := none } }
    | .raster => gpuRun d1
    | .media => audioReturn d1
    | _ => d1

/-! ### Locks (R13, R26) -/

/-- LOCK_WRITE: bits of GL_LOCK are set; none is cleared before a cold reset. -/
def doLockWrite (a : Acc) (v : Word) (d : Dev) : Dev := (regWrite a GL_LOCK v d).1

/-! ### The commands -/

/-- COLD_RESET (R17). -/
def execColdReset (st : Straps) (s : State) : Host.Outcome State Fault Refusal :=
  .next { s with dev := doColdReset st s.dev }

/-- WARM_RESET (R17). -/
def execWarmReset (c : WarmCause) (s : State) : Host.Outcome State Fault Refusal :=
  .next { s with dev := doWarmReset c s.dev }

/-- FUNCTION_RESET (R17). -/
def execFunctionReset (f : Fn) (s : State) : Host.Outcome State Fault Refusal :=
  .next { s with dev := doFunctionReset f.val s.dev }

/-- SECT_RST TT (R27). -/
def execSectRstTt (acc : Acc) (s : State) : Host.Outcome State Fault Refusal :=
  .next { s with dev := doSectRstTt acc s.dev }

/-- SECT_RST RASTER (R27). -/
def execSectRstRaster (acc : Acc) (s : State) : Host.Outcome State Fault Refusal :=
  .next { s with dev := doSectRstRaster acc s.dev }

/-- SECT_RST COMPOSE (R27). -/
def execSectRstCompose (acc : Acc) (s : State) : Host.Outcome State Fault Refusal :=
  .next { s with dev := doSectRstCompose acc s.dev }

/-- SECT_RST SCANOUT (R27). -/
def execSectRstScanout (acc : Acc) (s : State) : Host.Outcome State Fault Refusal :=
  .next { s with dev := doSectRstScanout acc s.dev }

/-- SECT_RST MEDIA (R27). -/
def execSectRstMedia (acc : Acc) (s : State) : Host.Outcome State Fault Refusal :=
  .next { s with dev := doSectRstMedia acc s.dev }

/-- SECT_RST PAIR (R27). -/
def execSectRstPair (acc : Acc) (s : State) : Host.Outcome State Fault Refusal :=
  .next { s with dev := doSectRstPair acc s.dev }

/-- SECTION_RESET_DONE (R27). -/
def execSectionResetDone (x : Sect) (s : State) : Host.Outcome State Fault Refusal :=
  .next { s with dev := doSectionResetDone x s.dev }

/-- LOCK_WRITE (R13). -/
def execLockWrite (acc : Acc) (v : Word) (s : State) : Host.Outcome State Fault Refusal :=
  .next { s with dev := doLockWrite acc v s.dev }

/-- DEADMAN_EXPIRE (R390). -/
def execDeadmanExpire (s : State) : Host.Outcome State Fault Refusal :=
  .next { s with dev := doDeadmanExpire s.dev }

end Sys2Proof.Machine
end

