-- ==== Sys2Proof/Machine/RegWrite.lean ====
section
/-! DEFINITION. REGISTER_WRITE and READ_CLEAR (R10 to R16, R20, R21): any write and any read of the register space. A write
goes to the effect of its register, a read to what the register shows. -/

namespace Sys2Proof.Machine

/-! ### Places -/

/-- The index of an offset in an array of registers. -/
def arr (base stride count off : Nat) : Option Nat :=
  if base ≤ off ∧ off < base + stride * count ∧ (off - base) % stride = 0 then some ((off - base) / stride) else none

/-- A plain write: the register takes its fields, and nothing else happens. -/
def plainWrite (a : Acc) (off : Nat) (v : Word) (d : Dev) : Dev := (regWrite a off v d).1

/-- A write that a test of the word turns away. -/
def testedWrite (a : Acc) (off : Nat) (v : Word) (bad : Word → Option Nat) (d : Dev) : Dev := (guardWrite a off v bad d).1

/-- A write, and what follows when it is done. -/
def thenWrite (a : Acc) (off : Nat) (v : Word) (g : Dev → Dev) (d : Dev) : Dev :=
  let w := regWrite a off v d
  match w.2 with
  | .done _ => g w.1
  | _ => w.1

/-! ### Windows (R21, R361, R372) -/

/-- An offset of a window that nothing occupies. -/
def windowEmpty (a : Acc) (off : Nat) (v : Word) (d : Dev) : Dev := logErr d ecUNOCCUPIED a.mid.toNat off v a.secure

/-- A write to page offset o of a master's bell and token window. -/
def windowWrite (a : Acc) (o : Nat) (v : Word) (d : Dev) : Dev :=
  if 0x1000 ≤ o ∧ o < 0x1800 ∧ o % 4 = 0 then
    let c := (o - 0x1000) / 32
    let k := o % 32 / 4
    if k < 6 then bellStage a c k v d
    else if k = 6 then doBellPost a c v d
    else doBellPop a c v d
  else if o = 0x1800 then doDoorbellClear a v d
  else if o = 0x1804 then doDoorbellMaskWrite a v d
  else if (arr 0x1900 4 64 o).isSome ∨ (arr 0x1A00 4 64 o).isSome ∨ (arr 0x2200 4 4 o).isSome then (dbWrite a o v d).1
  else match arr 0x2000 4 128 o with
    | some t => doTokenRelease a t v d
    | none => windowEmpty a o v d

/-- What a word of a window shows, but for the tokens. -/
def windowWord (d : Dev) (mid o : Nat) : Option Word :=
  match arr 0x2200 4 4 o with
  | some k => some (rd d (TK_BROKEN k))
  | none => if o % 4 = 0 then bellWindow d mid o else none

/-- A read of a window. -/
def windowRead (a : Acc) (o : Nat) (d0 : Dev) : Dev :=
  match arr 0x2000 4 128 o with
  | some t => doTokenAcquire t [a] d0
  | none =>
    let sv := bellServed d0 false
    if !windowThere sv.1 a.mid.toNat then sv.1
    else if !sv.2 then bellDown sv.1 a.mid.toNat
    else
      match windowWord sv.1 a.mid.toNat o with
      | some w => emit sv.1 (.readData a.mid.toNat o (maskBytes a.be w))
      | none => emit (windowEmpty a o 0 sv.1) (.readData a.mid.toNat o 0)

/-! ### The private status page (R96, R135) -/

def rstateCode : RState → Nat
  | .disabled => 0
  | .active => 1
  | .stalled => 2
  | .draining => 3

/-- The status words of ring r of function n. -/
def ringStatus (d : Dev) (n r : Nat) (second : Bool) : Word :=
  let x := ringSt d n r
  if second then BitVec.ofNat 32 (rstateCode x.state * 2 ^ 30 + x.ignored * 2 ^ 24 + x.lastStatus * 2 ^ 16 + x.c % 65536)
  else BitVec.ofNat 32 x.h

/-- The fault summary of function n (R135). -/
def faultWord (d : Dev) (n k : Nat) : Word :=
  let x := (fnSt d n).fault
  match k with
  | 0 => BitVec.ofNat 32 x.count
  | 1 => BitVec.ofNat 32 (x.mid * 2 ^ 24 + x.type * 2 ^ 16 + x.wr.toNat)
  | 2 => loWord x.iova
  | 3 => hiWord x.iova
  | 4 => loWord x.dt
  | _ => hiWord x.dt

/-- Does function n own a layer on platform p? -/
def hasLayerOn (d : Dev) (n p : Nat) : Bool := (layersOf d n).any (fun k => decide (layerPlat d k = p))

/-- What the private status page of function n shows at page offset o. -/
def statusWord (d : Dev) (n o : Nat) : Option Word :=
  match arr 0x4000 4 64 o, arr 0x4100 4 32 o, arr 0x4200 4 6 o, arr 0x4300 4 32 o with
  | some j, _, _, _ => some (ringStatus d n (j / 2) (j % 2 == 1))
  | _, some j, _, _ =>
    let v := SMap.get (fnSt d n).fences (j / 2)
    some (if j % 2 = 0 then loWord v else hiWord v)
  | _, _, some k, _ => some (faultWord d n k)
  | _, _, _, some j =>
    some (if !hasLayerOn d n (j / 2) then 0
      else if j % 2 = 0 then rd d (GL_LAND_FRAME (j / 2)) else rd d (GL_LAND_LINE (j / 2)))
  | _, _, _, _ =>
    if o = 0x4180 then some (BitVec.ofNat 32 (fnSt d n).noRoute)
    else (arr 0x4400 4 4 o).map (fun k => rd d (TK_BROKEN k))

/-! ### BAR4: the MSI-X table and the pending-bit array (R110, R115) -/

/-- A word of the table takes a value, and reads back as it takes it; a vector that is unmasked sends what it kept pending, as the PCIe
base specification has it. -/
def vecWrite (d : Dev) (n v k : Nat) (w : Word) : Dev :=
  match k with
  | 0 => onVec d n v (fun x => { x with addrLo := putBits w 1 0 0 })
  | 1 => onVec d n v (fun x => { x with addrHi := w })
  | 2 => onVec d n v (fun x => { x with data := w })
  | _ =>
    let d1 := onVec d n v (fun x => { x with masked := bit w 0 })
    if (SMap.get (fnSt d n).vecs v).pba && !bit w 0 then emit (onVec d1 n v (fun x => { x with pba := false })) (.msi n v) else d1

/-- Has function n a BAR4 with a table: it exists, outside Heritage, which has no MSI-X? -/
def bar4There (d : Dev) (n : Nat) : Bool := !d.heritage && (decide (n = 0) || fnExists d n)

/-- A write in BAR4: whole words of the vectors that the function has. -/
def bar4Write (a : Acc) (n o : Nat) (w : Word) (d : Dev) : Dev :=
  if bar4There d n ∧ a.be = 0xF ∧ o % 4 = 0 ∧ o / 16 < ptVectors d n then vecWrite d n (o / 16) (o % 16 / 4) w else d

/-- What BAR4 shows at an offset. -/
def bar4Word (d : Dev) (n o : Nat) : Word :=
  let x := SMap.get (fnSt d n).vecs (o / 16)
  if o = 0x8000 ∨ o = 0x8004 then
    BitVec.ofNat 32 (maskOfList ((List.range 32).filter (fun k => (SMap.get (fnSt d n).vecs ((o - 0x8000) * 8 + k)).pba)))
  else if o / 16 ≥ ptVectors d n ∨ o % 4 ≠ 0 then 0
  else
    match o % 16 / 4 with
    | 0 => x.addrLo
    | 1 => x.addrHi
    | 2 => x.data
    | _ => BitVec.ofNat 32 x.masked.toNat

def bar4Read (a : Acc) (n o : Nat) (d : Dev) : Dev :=
  if bar4There d n then emit d (.readData n o (maskBytes a.be (bar4Word d n o))) else d

/-! ### The page of a virtual function (R21) -/

/-- The access as its function makes it. -/
def asVf (a : Acc) (f : Fn) : Acc := { a with mid := BitVec.ofNat 8 f.val }

/-- A write to a kick register (R92). A reload reads what stands in device-local DRAM; what the host's memory answers comes
with the rows RELOAD_RING and RELOAD_VECTORS. -/
def kickWrite (a : Acc) (n : Nat) (v : Word) (d : Dev) : Dev :=
  let m : MemIn := { data := [], ecc := false, ats := false }
  match bits v 31 30 with
  | 0 => doKick a n (bits v 4 0) d
  | 1 => doReloadRing a n (bits v 4 0) m d
  | 2 => doReloadVectors a n m d
  | _ => logErr d ecRESERVED_ENCODING a.mid.toNat (if n = 0 then HS_KICK else 0) v a.secure

def vfWrite (a0 : Acc) (f : Fn) (o : Nat) (v : Word) (d : Dev) : Dev :=
  let a := asVf a0 f
  if f.val = 0 ∨ !fnExists d f.val then d
  else if o = 0 then kickWrite a f.val v d
  else if 0x1000 ≤ o ∧ o < 0x2200 then windowWrite a o v d
  else if (statusWord d f.val o).isSome then
    (if a.be = 0xF then d else logErr d ecPARTIAL_WRITE a.mid.toNat o v a.secure)
  else windowEmpty a o v d

def vfRead (a0 : Acc) (f : Fn) (o : Nat) (d : Dev) : Dev :=
  let a := asVf a0 f
  if f.val = 0 ∨ !fnExists d f.val then d
  else if 0x1000 ≤ o ∧ o < 0x2200 then windowRead a o d
  else if o = 0 then emit d (.readData f.val o 0)
  else match statusWord d f.val o with
    | some w => emit d (.readData f.val o (maskBytes a.be w))
    | none => emit (windowEmpty a o 0 d) (.readData f.val o 0)

/-! ### Writes in BAR0 -/

def writeGL (a : Acc) (off : Nat) (v : Word) (d : Dev) : Dev :=
  if off = GL_LOCK then doLockWrite a v d
  else if off = GL_SECT_RST then sectWrite a v d
  else if off = GL_STAGE_COMMIT then doStageCommit a v [] d
  else if off = GL_EXT_KEY then doExtKeyWrite a v d
  else plainWrite a off v d

def writeTT (a : Acc) (off : Nat) (v : Word) (d : Dev) : Dev :=
  if off = TT_CP_SEL then doCpSelWrite a v d
  else if off = TT_CONV_LINE then doConvStart a v d
  else match arr (TT_CP_W 0) 4 7 off, arr (TT_FL_CTRL 0) 8 16 off with
    | some 0, _ => doCpStoreWrite a v d
    | some (k + 1), _ => doCpStageWrite a k v d
    | _, some p => doFlCtrlWrite a p v d
    | _, _ => plainWrite a off v d

/-- Is a ring of F0 not DISABLED (R92)? -/
def f0RingUp (d : Dev) : Bool := (List.range 32).any (fun r => decide ((ringSt d 0 r).state ≠ .disabled))

def writeHS (a : Acc) (off : Nat) (v : Word) (d : Dev) : Dev :=
  if off = HS_KICK then kickWrite a 0 v d
  else if off = HS_FCB_LO ∨ off = HS_FCB_HI then
    testedWrite a off v (fun _ => if f0RingUp d then some ecCONFLICT else none) d
  else if off = HS_PT_SEL then doPtSelWrite a v d
  else if off = HS_TP_CTRL then thenWrite a off v gpuRun d
  else match arr (HS_PT_W 0) 4 16 off with
    | some 0 => doPartitionWindowSubmit a v d
    | some k => ptStageWrite a k v d
    | none =>
      if 0x24000 ≤ off ∧ (statusWord d 0 (off - 0x20000)).isSome then
        (if a.be = 0xF then d else logErr d ecPARTIAL_WRITE a.mid.toNat off v a.secure)
      else plainWrite a off v d

def writeMM (a : Acc) (off : Nat) (v : Word) (d : Dev) : Dev :=
  if off = MM_INVAL then mmInval a v d
  else match arr (MM_ROOT_LO 0) 16 32 off with
    | some n => doMmuRootWrite a n v d
    | none => plainWrite a off v d

def writeGX (a : Acc) (off : Nat) (v : Word) (d : Dev) : Dev :=
  if off = GX_BIST then doBistStart a v d
  else if off = GX_EXP_CTRL then thenWrite a off v gpuRun d
  else plainWrite a off v d

/-- The reserved lanes of a platform change from its next strip boundary on (CM_CTRL). -/
def setLanes (was now : Nat) (d : Dev) (p : Nat) : Dev :=
  let x := raster d p
  if !x.had ∨ was = now ∨ stripH d p = 0 then d
  else
    let a := absAt x d.dt
    onPlat d p (fun y =>
      { y with lanes := (boundaryFrom x (stripH d p) (a + 1), now) ::
                 (if y.lanes = [] then [(0, was)]
                  else y.lanes.filter (fun e => decide (a < e.1)) ++ (y.lanes.filter (fun e => decide (e.1 ≤ a))).take 1) })

/-- CM_CTRL: LATE_CHK changes at once, LATE_LANES from the next strip boundary of every platform, EXP_H goes to the staging set of the writer
(R236). -/
def cmCtrlWrite (a : Acc) (v : Word) (d : Dev) : Dev :=
  let was := bits (rd d CM_CTRL) 16 16
  let lanes := fg d CM_CTRL CM_CTRL_LATE_LANES
  thenWrite a CM_CTRL v (fun d1 =>
    let d2 := (List.range 16).foldl (setLanes lanes (fg d1 CM_CTRL CM_CTRL_LATE_LANES)) (fs d1 CM_CTRL CM_CTRL_EXP_H was)
    if a.mid.toNat = midSI then { d2 with stgSI := SMap.insert d2.stgSI CM_CTRL (some v) }
    else { d2 with stg := SMap.insert d2.stg CM_CTRL (some v) }) d

/-- A write to a scaler bank: discarded and recorded when the applied or the newest accepted layer selects it (R236). -/
def bankWrite (a : Acc) (k b off : Nat) (v : Word) (d : Dev) : Dev :=
  let uses (ws : List Word) : Bool := bit (wd ws 0) 31 && layBank ws == b
  testedWrite a off v (fun _ =>
    if uses (futureLayer d [] k) ∨ (layerState d k = 1 ∧ uses (rds d (CM_LAYER k 0) 12)) then some ecCONFLICT else none) d

def writeCM (a : Acc) (off : Nat) (v : Word) (d : Dev) : Dev :=
  if off = CM_CTRL then cmCtrlWrite a v d
  else if off = CM_CC3_AUTH then doCc3AuthWrite a v d
  else if off = CM_SI_COMMIT then doSiCommit a v [] d
  else if CM_SCB 0 0 0 ≤ off ∧ off < 0xA0000 then
    bankWrite a ((off - CM_SCB 0 0 0) / 4096) ((off - CM_SCB 0 0 0) % 4096 / 2048) off v d
  else plainWrite a off v d

/-- SK_RES_n: the common remainder stays at zero or above, and a reserve covers the blocks in use in it (R254). -/
def skResWrite (a : Acc) (n : Nat) (v : Word) (d : Dev) : Dev :=
  let others := ((List.range 8).map (fun j => if j = n then 0 else skRes d j)).sum
  let w := guardWrite a (SK_RES n) v (fun x =>
    if others + bits x 13 0 + skWm d > 8192 ∨ bits x 13 0 < skUsed d n then some ecCONFLICT else none) d
  match w.2 with
  | .done _ => showSkein w.1
  | _ => w.1

def writeSK (a : Acc) (off : Nat) (v : Word) (d : Dev) : Dev :=
  if off = SK_SEC_WM then doWatermarkRaise a .skein v d
  else if off = SK_SEC_SCRUB then doWatermarkLower a .skein v d
  else match arr (SK_RES 0) 4 8 off with
    | some n => skResWrite a n v d
    | none => plainWrite a off v d

/-- The AUX register at an offset: its port, and whether it is the command. -/
def auxAt (off : Nat) : Option (Nat × Bool) :=
  match arr (SO_AUX_CMD 0) 64 4 off, arr (SO_AUX_ADDR 0) 64 4 off with
  | some p, _ => some (p, true)
  | _, some p => some (p, false)
  | _, _ =>
    let p := (off - SO_AUX_DATA 0 0) / 64
    if SO_AUX_DATA 0 0 ≤ off ∧ p < 4 ∧ (arr (SO_AUX_DATA p 0) 4 4 off).isSome then some (p, false) else none

def writeSO (a : Acc) (off : Nat) (v : Word) (d : Dev) : Dev :=
  if off = SO_MUTE then doMuteWrite a v d
  else match arr (SO_DPLL_W0 0) 16 8 off, arr (SO_DPLL_W1 0) 16 8 off, arr (SO_BKL_W0 0) 8 16 off, arr (SO_BKL_W1 0) 8 16 off with
    | some k, _, _, _ => doDpllWrite a k 0 v d
    | _, some k, _, _ => doDpllWrite a k 1 v d
    | _, _, some k, _ => doBklWrite a k v d
    | _, _, _, some k => doDutyWrite a k v d
    | _, _, _, _ =>
      match auxAt off with
      | some (p, true) => doAuxGo (bits v 29 28) a p v d
      | some (p, false) => (auxWindowWrite a p off v d).1
      | none => plainWrite a off v d

/-- The section of AU_EQ at an offset: bus, section and word. -/
def eqAt (off : Nat) : Nat × Nat × Nat := ((off - AU_EQ 0 0 0) / 256, (off - AU_EQ 0 0 0) % 256 / 32, (off - AU_EQ 0 0 0) % 32 / 4)

def writeAU (a : Acc) (off : Nat) (v : Word) (d : Dev) : Dev :=
  match arr (AU_DOM 0) 8 3 off, arr (AU_PORT 0) 16 10 off, arr (AU_BUS 0) 16 16 off, arr (AU_BRIDGE 0) 8 8 off,
      arr (AU_CHIME 0 0) 4 32 off with
  | some k, _, _, _, _ => auDomWrite a k v d
  | _, some p, _, _, _ => auPortWrite a p v d
  | _, _, some m, _, _ => auBusWrite a m v d
  | _, _, _, some b, _ => auBridgeWrite a b v d
  | _, _, _, _, some j => chimeWrite a (j / 8) (j % 8) v d
  | _, _, _, _, _ =>
    if AU_EQ 0 0 0 ≤ off ∧ off < AU_EQ 0 0 0 + 4096 ∧ (eqAt off).2.2 = 4 then doEqSectionMove a (eqAt off).1 (eqAt off).2.1 v d
    else plainWrite a off v d

/-- May a master reach a window through BAR0 or its own port (R416, R469)? -/
def windowOpen (a : Acc) (off : Nat) (d : Dev) : Bool := reachesBar0 a && !windowShut d a off

/-- A write to F0's window in BAR0, which on-chip masters reach through their own ports. -/
def portWrite (a : Acc) (off : Nat) (v : Word) (d : Dev) : Dev :=
  if !windowOpen a off d then (if reachesBar0 a then windowEmpty a off v d else d)
  else if bankerLike d ∧ a.mid.toNat ≠ midPAIR then logErr d ecNOT_PERMITTED a.mid.toNat off v a.secure
  else windowWrite a (off - 0x140000) v d

def writeBL (a : Acc) (off : Nat) (v : Word) (d : Dev) : Dev :=
  if 0x141000 ≤ off ∧ off < 0x142210 then portWrite a off v d
  else match arr (BL_BIND 0) 4 64 off with
    | some c => doBellBindWrite a c v d
    | none => plainWrite a off v d

/-- PM_THERM: TRIP_C at most Tj max + 5 °C, and the thresholds in ascending order (R437). -/
def thermBad (n : Word) : Option Nat :=
  if bits n 7 0 > tjMax + 5 ∨ bits n 23 16 ≥ bits n 15 8 ∨ bits n 15 8 ≥ bits n 7 0 then some ecOUT_OF_RANGE else none

def writePM (a : Acc) (off : Nat) (v : Word) (d : Dev) : Dev :=
  if off = PM_WARM_REQ then doWarmReset (.host a v) d
  else if off = PM_LDR_CMD then ldrWrite a v d
  else if off = PM_THERM then testedWrite a off v thermBad d
  else if off = PM_THERM_MASK then thenWrite a off v (if a.mid.toNat = 0 then thermRelease else id) d
  else match arr (PM_DOM_CTRL 0) 4 16 off with
    | some k => doDomainCtrlWrite a k v d
    | none => plainWrite a off v d

def writeMC (a : Acc) (off : Nat) (v : Word) (d : Dev) : Dev :=
  if off = MC_SEC_WM then doWatermarkRaise a .dram v d
  else if off = MC_SEC_SCRUB then doWatermarkLower a .dram v d
  else plainWrite a off v d

def writeSE (a : Acc) (off : Nat) (v : Word) (d : Dev) : Dev :=
  if off = SE_DEADMAN_KICK then doDeadmanKick a v d
  else if off = SE_DEADMAN_CFG then
    testedWrite a off v (fun n => if bits n 12 0 < 50 ∨ 5000 < bits n 12 0 then some ecOUT_OF_RANGE else none) d
  else if off = SE_CACHE_CFG then testedWrite a off v (fun n => if 8 < bits n 4 0 then some ecOUT_OF_RANGE else none) d
  else if off = SE_HOLD_OP then
    (if a.be = 0xF then doHoldOp (bits v 31 30) a (bits v 3 0) d else plainWrite a off v d)
  else plainWrite a off v d

def writeSF (a : Acc) (off : Nat) (v : Word) (d : Dev) : Dev :=
  if off = SF_CAUTION then cautionWrite a v d
  else if off = SF_CAU_PLAT then
    testedWrite a off v (fun n => if modeOf d = mCAU ∧ n ≠ rd d SF_CAU_PLAT then some ecCONFLICT else none) d
  else if off = SF_CAU_FN then thenWrite a off v (fun d1 => if modeOf d1 = mCAU then cautionGpu d1 else d1) d
  else if off = SF_MON_STAT then thenWrite a off (putBits v 9 9 0) showErr d
  else if SF_LATCH 0 ≤ off ∧ off ≤ SF_LATCH 15 then thenWrite a off v showErr d
  else plainWrite a off v d

def writeDH (a : Acc) (off : Nat) (v : Word) (d : Dev) : Dev :=
  if off = DH_CTRL then doRemapDone a v d
  else if off = DH_ALIVE then doAliveWrite a v d
  else if off = DH_HB_CFG then
    testedWrite a off v (fun n => if bits n 25 16 < 10 ∨ 1000 < bits n 25 16 then some ecOUT_OF_RANGE else none) d
  else if DH_MWIN 0 ≤ off ∧ off ≤ DH_MWIN_SIZE 15 ∧ dhState d ≠ 0 then
    (let was := rd d off
     thenWrite a off v (fun d1 => wr d1 off was) d)
  else plainWrite a off v d

/-- A write at an offset of BAR0. -/
def writeBar0 (a : Acc) (off : Nat) (v : Word) (d : Dev) : Dev :=
  match off / 65536 with
  | 0x00 => writeGL a off v d
  | 0x01 => writeTT a off v d
  | 0x02 => writeHS a off v d
  | 0x03 => writeMM a off v d
  | 0x04 => writeGX a off v d
  | 0x08 => writeCM a off v d
  | 0x09 => writeCM a off v d
  | 0x0A => writeSK a off v d
  | 0x0C => writeSO a off v d
  | 0x12 => writeAU a off v d
  | 0x14 => writeBL a off v d
  | 0x16 => writePM a off v d
  | 0x17 => writeMC a off v d
  | 0x18 => writeSE a off v d
  | 0x1A => writeSF a off v d
  | 0x1C => writeDH a off v d
  | _ => plainWrite a off v d

/-- REGISTER_WRITE. -/
def doRegisterWrite (a : Acc) (sp : Space) (off v : Word) (d : Dev) : Dev :=
  match sp with
  | .bar0 => writeBar0 a off.toNat v d
  | .vf f => vfWrite a f off.toNat v d
  | .bar4 f => bar4Write a f.val off.toNat v d
  | .mdh => mdhWrite a.be off.toNat v d

/-! ### Reads in BAR0 -/

/-- The address of an ECC error, zero to the normal world when it is secure (R483). -/
def eccAddr (a : Acc) (off : Nat) (d : Dev) : Word :=
  let base := off - (off - MC_ECC_CH_ALO 0) % 16
  if !a.secure ∧ rd64 d base < dramSecureTop d then 0 else rd d off

/-- What a register shows that is not what it stores. -/
def shownWord (a : Acc) (off : Nat) (d : Dev) : Word :=
  let mid := a.mid.toNat
  if off = TT_DT_HI then BitVec.ofNat 32 (SMap.get d.tt.dtHi mid)
  else if off = CT_VAL_HI then BitVec.ofNat 32 (SMap.get d.tt.ctHi mid)
  else if off = TT_CP_SEL then BitVec.ofNat 32 (cpSel d mid)
  else if off = HS_PT_SEL then BitVec.ofNat 32 (ptSelOf d mid)
  else if off = HS_TP_CTRL then putBits (rd d off) 30 30 (tpActive d).toNat
  else if off = GX_STATUS then putBits (rd d off) 24 16 (((List.range 32).map (jobsOf d)).sum)
  else if off = HP_EFF_OWN then effOwner d
  else if off = MC_SEC_STAT then secStatWord d
  else if (arr (MM_CTRL 0) 16 32 off).isSome then putBits (rd d off) 1 1 (!locked d 1 && bit (rd d off) 1).toNat
  else if off = SE_DEADMAN_STAT then putBits (rd d off) 12 0 (deadmanRemain d)
  else match arr (TT_CP_W 0) 4 8 off, arr (HS_PT_W 0) 4 16 off, arr (GX_CTX_STAT 0) 4 256 off, arr (HP_EFF_W 0) 4 64 off,
      arr (ER_W 0) 4 8 off, arr (PM_RCL_W 0) 4 4 off with
    | some k, _, _, _, _, _ => wd (cpWords (if cpSel d mid < 1008 then cpEntry d (cpSel d mid) else ownEntry d (cpSel d mid))) k
    | _, some k, _, _, _, _ => ptWord d (ptSelOf d mid) k
    | _, _, some c, _, _, _ => ctxWord d c
    | _, _, _, some j, _, _ => effWord d j
    | _, _, _, _, some j, _ => errWord d a.secure j
    | _, _, _, _, _, some j => causeWord d j
    | _, _, _, _, _, _ =>
      match arr (SO_PSTAT 0) 64 16 off, arr (MC_ECC_CH_ALO 0) 16 8 off, arr (MC_ECC_CH_AHI 0) 16 8 off with
      | some p, _, _ => if teWaits d p then putBits (rd d off) 31 30 3 else rd d off
      | _, some _, _ => eccAddr a off d
      | _, _, some _ => eccAddr a off d
      | _, _, _ => rd d off

/-- A read of a write-only register answers zero (R10). -/
def writeOnly (off : Nat) : Bool :=
  (rowOf off).any (fun r => r.1.fields.all (fun f => f.acc == .wo))

/-- A read at an offset of BAR0; one of TT_CONV_DT waits for the conversion that runs (R514). -/
def readBar0 (a : Acc) (off : Nat) (d0 : Dev) : Dev :=
  let d := if off = TT_CONV_DT_LO ∨ off = TT_CONV_DT_HI then doConvDone d0 else d0
  if off = TT_DT_LO then doDtRead a d
  else if off = CT_VAL_LO then doCounterRead a d
  else match arr (TT_RPOS_LINE 0) 16 16 off with
    | some p => doRposRead a p d
    | none =>
      if 0x141000 ≤ off ∧ off < 0x142210 then
        (if windowOpen a off d then windowRead a (off - 0x140000) d
         else if reachesBar0 a then emit d (.readData a.mid.toNat off 0) else d)
      else if 0x24000 ≤ off ∧ off < 0x24400 ∧ windowOpen a off d then
        match statusWord d 0 (off - 0x20000) with
        | some w => emit d (.readData a.mid.toNat off (maskBytes a.be w))
        | none => regRead a off 0 d
      else regRead a off (if writeOnly off then 0 else shownWord a off d) d

/-- READ_CLEAR: a read returns the value and clears the fields of access type RC. -/
def doReadClear (a : Acc) (sp : Space) (off : Word) (d : Dev) : Dev :=
  match sp with
  | .bar0 => readBar0 a off.toNat d
  | .vf f => vfRead a f off.toNat d
  | .bar4 f => bar4Read a f.val off.toNat d
  | .mdh => if d.heritage then mdhRead a.be off.toNat d else d

/-! ### The commands -/

/-- REGISTER_WRITE (R10). -/
def execRegisterWrite (acc : Acc) (sp : Space) (off v : Word) (s : State) : Host.Outcome State Fault Refusal :=
  .next { s with dev := doRegisterWrite acc sp off v s.dev }

/-- READ_CLEAR (R10). -/
def execReadClear (acc : Acc) (sp : Space) (off : Word) (s : State) : Host.Outcome State Fault Refusal :=
  .next { s with dev := doReadClear acc sp off s.dev }

end Sys2Proof.Machine
end

