-- ==== Sys2Proof/Machine/PairRecords.lean ====
section
/-! DEFINITION. The records of the Alaurser link that arrive (R405, R406, R410, R412, R415, R417): what the banker applies, and
what the lead takes. -/

namespace Sys2Proof.Machine

/-! ### Headers: epoch and sequence (R405, R406, R412) -/

/-- How far a 16-bit crew epoch is ahead of another. -/
def epochAhead (x y : Nat) : Nat := (x + 65536 - y) % 65536

/-- Is the epoch of a record older than this device's (R405, REJECT)? -/
def staleRec (d : Dev) (h : RecHdr) : Bool :=
  decide (1 ≤ epochAhead (crewEpoch d) h.epoch.toNat) && decide (epochAhead (crewEpoch d) h.epoch.toNat ≤ 32767)

/-- A record that goes back: ACK or REJECT. -/
def sendBack (d : Dev) (kind : Nat) (ws : List Nat) : Dev :=
  let w := d.pair.seqOut % 2 ^ 32 :: crewEpoch d :: ws
  count (emit (onPair d (fun x => { x with seqOut := x.seqOut + 1 })) (.link kind w)) 636

/-- A record of any type comes: it is counted, answered with REJECT when its epoch is stale, and otherwise taken by g. -/
def takeRec (h : RecHdr) (g : Dev → Dev) (d0 : Dev) : Dev :=
  if dhState d0 = 0 ∨ dhState d0 = 7 ∨ !domUp d0 15 then d0
  else
    let d := onPair (count d0 637) (fun x => { x with authRun := 0 })
    if staleRec d h then bump (sendBack d 0x0D [crewEpoch d]) DH_REJECT DH_REJECT_COUNT
    else g (if crewEpoch d = h.epoch.toNat then d else fs d DH_STATUS DH_STATUS_CREW_EPOCH h.epoch.toNat)

/-- Does this device apply the lead's records: a banker in SYNC or HOT? -/
def appliesRecs (d : Dev) : Bool := dhBanker d && (decide (dhState d = 2) || decide (dhState d = 4))

/-- How far the sequence number of a record lies behind the next one to apply. -/
def seqBehind (d : Dev) (h : RecHdr) : Nat := (d.pair.seqIn + 2 ^ 32 - h.seq.toNat) % 2 ^ 32

/-- A record of the lead is applied in sequence order and acknowledged (R406); one applied before is acknowledged again. -/
def bankerRec (h : RecHdr) (g : Dev → Dev) : Dev → Dev :=
  takeRec h (fun d =>
    if !appliesRecs d then d
    else if seqBehind d h = 0 then
      let d1 := onPair d (fun x => { x with seqIn := (x.seqIn + 1) % 2 ^ 32 })
      g (sendBack d1 0x0B [h.seq.toNat])
    else if seqBehind d h < 2 ^ 31 then sendBack d 0x0B [(d.pair.seqIn + 2 ^ 32 - 1) % 2 ^ 32]
    else d)

/-! ### DESC, COMMIT, RESTAMP (R405, R412, R415) -/

/-- A DESC record: the slot enters its ring as fetched. F0's MGT ring is the banker's own host's (R416): the lead's is held. -/
def applyDesc (f r slot : Nat) (ws : List Word) (tables : List MemIn) (d : Dev) : Dev :=
  if bankerRing d f r ∨ (ringSt d f r).state = .disabled then
    onPair d (fun x => { x with heldDescs := x.heldDescs ++ [{ f := f, r := r, slot := slot, words := ws }] })
  else
    let d1 := onRing d f r (fun y => { y with h := slot })
    purgeRing (pushSlot d1 f r ws none tables) f r

def doRecDesc (h : RecHdr) (f r slot : Nat) (ws : List Word) (tables : List MemIn) : Dev → Dev :=
  bankerRec h (applyDesc f r slot ws tables)

/-- Where a commit came from, as this device names it. -/
def srcOf (o : CommitFrom) : CommitSrc :=
  match o with
  | .desc f r i => .desc f.val r.val i
  | .staged => .staged
  | .island => .island
  | .window => .window 0
  | .device => .device

/-- Does the effect of a commit reach the banker as STATE items alone: those of the partition window, of the device, and of
F0's MGT ring? -/
def byItems (d : Dev) (s : CommitSrc) : Bool :=
  match s with
  | .window _ => true
  | .device => true
  | .desc f r _ => bankerRing d f r
  | _ => false

/-- A COMMIT record: the commit that was accepted here takes its stamp, or the stamp waits for it. -/
def applyCommit (id : Nat) (src : CommitSrc) (anchor group : Nat) (land : List (Nat × Nat × Nat)) (d : Dev) : Dev :=
  let r : LandRec := { id := id, src := src, anchor := anchor, group := group, land := land }
  if byItems d src then d
  else
    match d.commits.find? (fun c => c.link.isNone && decide (c.src = src)) with
    | some c => takeRecord d c.id r
    | none => onPair d (fun x => { x with bankCommits := x.bankCommits ++ [r] })

def natLand (l : List (Plat × Nat × Nat)) : List (Nat × Nat × Nat) := l.map (fun x => (x.1.val, x.2.1, x.2.2))

def doRecCommit (h : RecHdr) (id : Nat) (o : CommitFrom) (anchor : Nat) (group : Nat) (land : List (Plat × Nat × Nat)) :
    Dev → Dev :=
  bankerRec h (applyCommit id (srcOf o) anchor group (natLand land))

/-- A RESTAMP record: new landing lines, or CANCEL. -/
def applyRestamp (id : Nat) (land : Option (List (Nat × Nat × Nat))) (d : Dev) : Dev :=
  match d.commits.find? (fun c => decide (c.id = id) && c.link.isSome) with
  | some c =>
    match land with
    | some l => onCommit d id (fun x => { x with land := l.map (stamped d) })
    | none => endCommit d c stLATE
  | none =>
    onPair d (fun x => { x with bankCommits := x.bankCommits.map (fun r =>
      if r.id = id then { r with land := land.getD [] } else r) })

def doRecRestamp (h : RecHdr) (id : Nat) (land : Option (List (Plat × Nat × Nat))) : Dev → Dev :=
  bankerRec h (applyRestamp id (land.map natLand))

/-! ### WRITE (R405, R413) -/

/-- The bytes of a line that a mask picks, the others as they are. -/
def mergeBytes (mask : Nat) (old new : List Byte) : List Byte :=
  (List.range old.length).map (fun k => if hasBit mask k then new.getD k 0 else old.getD k 0)

/-- A WRITE record: the same physical address takes the bytes of the mask. -/
def applyWrite (addr : Nat) (bytes : List Byte) (mask : Nat) (d : Dev) : Dev :=
  let d1 := if mask = 2 ^ 64 - 1 then cleanLines d addr 64 else d
  if addr + 64 ≤ dramSize d then dramStore d1 addr (mergeBytes mask (dramBytes d addr 64) bytes) else d

def doRecWrite (h : RecHdr) (addr : Nat) (bytes : List Byte) (mask : BitVec 64) : Dev → Dev :=
  bankerRec h (applyWrite addr bytes mask.toNat)

/-! ### STATE (R405, R412, R424) -/

/-- The pair section as a master: its writes carry MID 0x50 (R416). -/
def pairAcc : Acc := { mid := 0x50, secure := true, be := 0xF }

/-- The registers that each device keeps of its own: the windows whose effect comes as an item, framelock control and the
mutes, which a banker holds by R410 and R416, and the FCB address of F0, which its own host gives. -/
def ownReg (off : Nat) : Bool :=
  (decide (TT_CP_SEL ≤ off) && decide (off ≤ TT_CP_W7)) || (List.range 16).any (fun p => off == TT_FL_CTRL p) || off == SO_MUTE ||
  off == HS_FCB_LO || off == HS_FCB_HI || (decide (HS_PT_SEL ≤ off) && decide (off ≤ HS_PT_STAT))

/-- A register write of the lead is done here; a section reset of the pair is each device's own (R426). -/
def mirrorWrite (off : Nat) (v : Word) (d : Dev) : Dev :=
  if ownReg off then d
  else if off = GL_SECT_RST then (if putBits v 5 5 0 = 0 then d else writeBar0 pairAcc off (putBits v 5 5 0) d)
  else writeBar0 pairAcc off v d

/-- A buffer table entry takes the lead's state. -/
def putBuffer (i state gen owner : Nat) (ws : List Word) (d : Dev) : Dev :=
  showEntries (onBuf d i (fun e => { e with state := state, gen := gen, owner := owner, words := ws }))

/-- The landed partition entry of the lead: what its landing takes away goes here too (R125). -/
def putPartition (f : Nat) (ws : List Word) (d : Dev) : Dev :=
  let c : Commit :=
    { id := d.nextCommit, fn := 0, src := .device, anchor := 0, group := 0, cp := none, strict := false, devWide := true,
      held := false, bound := true, items := [], land := [], landed := [], link := none }
  landPartition d c f ws

/-- A mode landed on the lead; out of Caution the platforms that it composes leave it at their next open boundary (R399). -/
def putMode (m : Nat) (d : Dev) : Dev :=
  if modeOf d = mCAU ∧ m ≠ mCAU then
    landCautionExit ((bitsOf 16 (cauPlats d)).foldl (fun d p => exitOn d p (openFrom d p)) d) m
  else if modeOf d = m ∨ m = mCAU then d
  else setMode d m

/-- The lead's island entered Caution (R424): the same settings, PREV_MODE and CAU_LATCH. -/
def putCaution (plat : Nat) (others : Bool) (prev : Nat) (latch : Bool) (d : Dev) : Dev :=
  let d1 := if modeOf d = mCAU then d else wr d SF_CAU_PLAT (BitVec.ofNat 32 plat)
  let d2 := enterCaution (fs d1 SF_CAUTION SF_CAUTION_OTHERS others.toNat) 0
  fs (fs d2 SF_CAUTION SF_CAUTION_PREV_MODE prev) SF_CAUTION SF_CAUTION_CAU_LATCH latch.toNat

/-- A ring table entry of the lead; F0's MGT and EVT rings are those of each device's own host (R416). -/
def ownRing (d : Dev) (f r : Nat) : Bool :=
  decide (f = 0) && (decide ((ringSt d f r).entry.type = 5) || decide ((ringSt d f r).entry.type = 4))

def putRing (f r : Nat) (ws : List Word) (d : Dev) : Dev :=
  if ownRing d f r ∨ (f = 0 ∧ ((ringEntryOf ws).type = 5 ∨ (ringEntryOf ws).type = 4)) then d else takeEntry d f r ws

/-- A moderation table of the lead; F0's is each host's own. -/
def putVectors (f : Nat) (ws : List Word) (d : Dev) : Dev :=
  if f = 0 then d
  else onFn d f (fun x => { x with mods := (List.range 64).foldl (fun t v => SMap.set t v (modOf ws v)) [] })

/-- A calling point of the lead. -/
def putPoint (c : Nat) (ws : List Word) (d : Dev) : Dev := storeEntry d c (cpOfWords ws)

/-- The free-running indices of a ring of the lead. -/
def putIdx (f r : Nat) (h c cci : Word) (d : Dev) : Dev :=
  if ownRing d f r then d
  else onRing d f r (fun y => { y with h := h.toNat, pi := h.toNat, c := c.toNat, cci := cci.toNat })

/-- An item of the lead's state is changed here as there. -/
def applyItem (it : StateItem) (d : Dev) : Dev :=
  match it with
  | .reg off v => mirrorWrite off.toNat v d
  | .si off v => { d with stgSI := SMap.insert d.stgSI off.toNat (some v) }
  | .fence f k v =>
    let d1 := onFn d f.val (fun x => { x with fences := SMap.set x.fences k.val v.toNat })
    settle (liveCount d1 f.val) d1 f.val
  | .buffer i st g o ws => putBuffer i.val st.val g.toNat o.val ws d
  | .claim f c n => { d with buf := { d.buf with claims := SMap.set d.buf.claims (4 * f.val + c.val) n.toNat } }
  | .partition f ws => putPartition f.val ws d
  | .point c ws => putPoint c.val ws d
  | .lock m => wr d GL_LOCK (rd d GL_LOCK ||| m.zeroExtend 32)
  | .departure f => startDeparture d f.val 0
  | .mode m => putMode m.val d
  | .caution p o m l => putCaution p.toNat o m.val l d
  | .ring f r ws => putRing f.val r.val ws d
  | .vectors f ws => putVectors f.val ws d
  | .ringIdx f r h c cci => putIdx f.val r.val h c cci d
  | .ctx c x => onCtx d c.val (fun _ => { x with job := none })
  | .stream s x => onStream d s.val (fun _ => x)

def doRecState (h : RecHdr) (it : StateItem) : Dev → Dev := bankerRec h (applyItem it)

/-! ### OUT, DONE (R405, R412, R415, R422) -/

/-- The touch contacts that are DOWN without UP, from the TOUCH CONTACT events of the lead (R309, R422). -/
def noteTouch (e : SlotRec) (d : Dev) : Dev :=
  let key (w : Word) : Nat := bits w 31 25
  let st := bits (wd e.words 4) 24 22
  let others := d.pair.downs.filter (fun s => !(decide (s.f = e.f) && decide (key (wd s.words 4) = key (wd e.words 4))))
  onPair d (fun x => { x with downs := if st = 2 ∨ st = 3 then others else others ++ [e] })

/-- The completion of a descriptor on the lead: this device's own one is owed no more; a descriptor that has not ended here
ends without one, and so does the commit that an error ended; else the completion waits for this device's own. -/
def noteDone (e : SlotRec) (d : Dev) : Dev :=
  let tag := bits (wd e.words 0) 15 0
  match d.pair.owed.find? (fun o => decide (o.f = e.f) && decide (o.r = e.r) && decide (tagOf o.desc.words = tag)) with
  | some o => onPair d (fun x => { x with owed := x.owed.erase o })
  | none =>
    match (ringSt d e.f e.r).live.find? (fun q => decide (tagOf q.words = tag)) with
    | some q =>
      let src : CommitSrc := .desc e.f e.r q.idx
      match d.commits.find? (fun c => decide (c.src = src)) with
      | some c =>
        if bits (wd e.words 0) 23 16 = stOK then onPair d (fun x => { x with outs := x.outs ++ [e] })
        else settle (liveCount d e.f) (drainDone (dropLive (leaveCommit d c.id) e.f e.r q.idx) e.f e.r) e.f
      | none => settle (liveCount d e.f) (drainDone (dropLive d e.f e.r q.idx) e.f e.r) e.f
    | none => onPair d (fun x => { x with outs := x.outs ++ [e] })

/-- The lead's own descriptor with a tag is no longer held. -/
def dropHeld (e : SlotRec) (d : Dev) : Dev :=
  match d.pair.heldDescs.find? (fun s => decide (s.f = e.f) && decide (s.r = e.r) &&
      decide (tagOf s.words = bits (wd e.words 0) 15 0)) with
  | some s => onPair d (fun x => { x with heldDescs := x.heldDescs.erase s })
  | none => d

/-- An OUT record: the slot is kept for a takeover, and the ring counts it. -/
def applyOut (e : SlotRec) (d : Dev) : Dev :=
  let x := ringSt d e.f e.r
  if ownRing d e.f e.r ∨ x.state = .disabled then dropHeld e d
  else
    let d1 := onRing d e.f e.r (fun y => { y with c := (y.c + 1) % 2 ^ 32 })
    let d2 := onPair d1 (fun y => { y with pendingOut := y.pendingOut ++ [e] })
    if x.entry.type = 4 then
      if bits (wd e.words 0) 23 16 = clTOUCH ∧ bits (wd e.words 0) 15 0 = 1 then noteTouch e d2 else d2
    else noteDone e d2

def doRecOut (h : RecHdr) (f r slot : Nat) (ws : List Word) : Dev → Dev :=
  bankerRec h (applyOut { f := f, r := r, slot := slot, words := ws })

/-- The slots of one ring that a DONE record covers are written: only the later ones are kept. -/
def trimOut (d : Dev) (m : DoneRec) : Dev :=
  let x := ringSt d m.f m.r
  let n := if x.entry.type = 4 then m.evt else m.comp
  let mine (s : SlotRec) : Bool := decide (s.f = m.f) && decide (s.r = m.r)
  let l := d.pair.pendingOut.filter mine
  let keep := l.drop (l.length - (x.c + 2 ^ 32 - n % 2 ^ 32) % 2 ^ 32)
  onPair d (fun y => { y with pendingOut := y.pendingOut.filter (fun s => !mine s) ++ keep,
                              doneMarks := m :: y.doneMarks.filter (fun z => !(decide (z.f = m.f) && decide (z.r = m.r))) })

def doRecDone (h : RecHdr) (last : List (Fn × Ring × Nat × Nat)) : Dev → Dev :=
  bankerRec h (fun d =>
    last.foldl (fun d x => trimOut d { f := x.1.val, r := x.2.1.val, comp := x.2.2.1, evt := x.2.2.2 }) d)

/-! ### SIG, MEDIA, RASTER (R405, R409, R410, R417) -/

/-- A SIG record is held beside this device's own CRC of the frame; a difference in a bound region is shadow divergence. -/
def applySig (s : SigRec) (d : Dev) : Dev :=
  let d1 := onPair d (fun x => { x with leadSig := (s :: x.leadSig).take 512 })
  if hasBit (rd d (SO_SIG_BIND s.plat)).toNat s.region && crcDiffers d.pair.mySig s then diverge d1 s.plat s.region s.frame else d1

def doRecSig (h : RecHdr) (p r frame : Nat) (crc : Word) : Dev → Dev :=
  bankerRec h (applySig { plat := p, region := r, frame := frame, crc := crc })

/-- A MEDIA record: panel baselines and stream positions, the later in place of the earlier. -/
def applyMedia (bs : List (Nat × List Nat)) (pos : List (Nat × Nat)) (d : Dev) : Dev :=
  onPair d (fun x => { x with
    media := bs ++ x.media.filter (fun m => !bs.any (fun b => b.1 == m.1)),
    streamPos := pos ++ x.streamPos.filter (fun m => !pos.any (fun b => b.1 == m.1)) })

def doRecMedia (h : RecHdr) (bs : List (Panel × List Nat)) (pos : List (Stream × Nat)) : Dev → Dev :=
  bankerRec h (applyMedia (bs.map (fun b => (b.1.val, b.2))) (pos.map (fun b => (b.1.val, b.2))))

/-- DH_DT_ERR: the banker's DT minus the lead's in 0.1 ns, two's complement, saturating. -/
def dtErr (mine lead : Nat) : Nat :=
  if lead ≤ mine then sat (10 * (mine - lead)) 32767 else 65536 - sat (10 * (lead - mine)) 32768

/-- A RASTER record: the error of this device's DT, and the positions that the rasters follow. -/
def applyRaster (leadDt : Nat) (rpos : List (Nat × Nat × Nat)) (d : Dev) : Dev :=
  onPair (fs d DH_DT_ERR DH_DT_ERR_ERR (dtErr d.dt leadDt)) (fun x => { x with leadDt := leadDt, leadPos := rpos })

def doRecRaster (h : RecHdr) (leadDt : Nat) (rpos : List (Plat × Nat × Nat)) : Dev → Dev :=
  bankerRec h (applyRaster leadDt (natLand rpos))

/-! ### ACK, SYNC, REJECT (R405, R406, R410, R412, R420) -/

/-- An ACK record is cumulative: everything up to its number is acknowledged (R406). -/
def applyAck (upTo rtt : Nat) (d : Dev) : Dev :=
  let behind := (d.pair.seqOut + 2 ^ 32 - 1 - upTo) % 2 ^ 32
  if !mirroring d ∨ behind ≥ d.pair.seqOut - d.pair.acked then d
  else
    let d1 := fs (onPair d (fun x => { x with acked := x.seqOut - behind, retries := 0 })) DH_LINK_STAT DH_LINK_STAT_RTT_NS
      (sat rtt 65535)
    setForward d1 (d1.pair.fwd.filter (fun n => decide (d1.pair.acked ≤ n)))

def doRecAck (h : RecHdr) (upTo : Word) (rtt : Nat) : Dev → Dev := takeRec h (applyAck upTo.toNat rtt)

/-- Is a register part of the state that is copied: one with a field that software writes, or the state of a layer? -/
def syncReg (off : Nat) : Bool :=
  decide (0x30000 ≤ off) && decide (off < 0x160000) && !ownReg off &&
  (match rowOf off with
   | some (r, _) => r.fields.any (fun f => f.acc != .ro && f.acc != .rc && f.acc != .wo)
   | none => false) || (List.range 64).any (fun k => off == CM_LAYER_LSTAT k)

/-- A register of the lead's applied state is copied as it is. -/
def syncWord (off : Nat) (v : Word) (d : Dev) : Dev :=
  if off = GL_MODE then putMode (bits v GL_MODE_MODE.1 GL_MODE_MODE.2) d
  else if syncReg off then wr d off v
  else d

/-- An item of the bulk state. -/
def syncItem (it : StateItem) (d : Dev) : Dev :=
  match it with
  | .reg off v => syncWord off.toNat v d
  | .partition f ws => setPt d f.val ws
  | .fence f k v => onFn d f.val (fun x => { x with fences := SMap.set x.fences k.val v.toNat })
  | it => applyItem it d

/-- The references that the copied layers hold. -/
def syncRefs (d : Dev) : Dev :=
  (List.range 64).foldl (fun d k =>
    if layerState d k = 1 ∧ !(d.buf.refs.any (fun r => decide (r.layer = k))) then
      { d with buf := { d.buf with refs := d.buf.refs ++
        [{ id := 0, idx := handleIdx (rd d (CM_LAYER k 1)), layer := k, plat := layerPlat d k, ending := none }] } }
    else d) d

/-- The copy is complete: platforms and ports start with the configuration that came. -/
def syncLast (d : Dev) : Dev :=
  let d1 := onPair (syncRefs d) (fun x => { x with copyDone := true })
  let d2 := (enabledPlats d1).foldl (fun d p =>
    platLanded d p (absNow d p) d.dt (if (raster d p).had then rd d (SO_PCTRL p) else 0)) d1
  let d3 := (List.range 14).foldl (fun d q => cfgLanded d q (rd d (portCfg q))) d2
  showAudio (becomeBanker d3)

/-- A SYNC record: bytes of memory, items of state, and whether it is the last. -/
def applySync (addr : Nat) (bytes : List Byte) (items : List StateItem) (last : Bool) (d : Dev) : Dev :=
  if dhState d ≠ 2 then d
  else
    let d1 := if addr + bytes.length ≤ dramSize d then dramStore d addr bytes else d
    let d2 := items.foldl (fun d it => syncItem it d) d1
    if last then syncLast d2 else d2

def doRecSync (h : RecHdr) (addr : Nat) (bytes : List Byte) (items : List StateItem) (last : Bool) : Dev → Dev :=
  bankerRec h (applySync addr bytes items last)

/-- A REJECT record fences the device (R411, R420); a stale one is itself rejected. -/
def doRecReject (h : RecHdr) (d : Dev) : Dev :=
  if staleRec d h then takeRec h (fun x => x) d
  else if dhState d = 0 ∨ dhState d = 7 ∨ !domUp d 15 then d
  else obeyFence (count d 637) true

/-! ### The commands -/

/-- REC_DESC (R405, R412). -/
def execRecDesc (h : RecHdr) (f : Fn) (r : Ring) (slot : Nat) (ws : List Word) (tables : List MemIn) (s : State) :
    Host.Outcome State Fault Refusal :=
  .next { s with dev := doRecDesc h f.val r.val slot ws tables s.dev }

/-- REC_COMMIT (R415). -/
def execRecCommit (h : RecHdr) (id : Nat) (o : CommitFrom) (anchor : Plat) (group : BitVec 16)
    (land : List (Plat × Nat × Nat)) (s : State) : Host.Outcome State Fault Refusal :=
  .next { s with dev := doRecCommit h id o anchor.val group.toNat land s.dev }

/-- REC_RESTAMP (R415). -/
def execRecRestamp (h : RecHdr) (id : Nat) (land : Option (List (Plat × Nat × Nat))) (s : State) :
    Host.Outcome State Fault Refusal :=
  .next { s with dev := doRecRestamp h id land s.dev }

/-- REC_WRITE (R413). -/
def execRecWrite (h : RecHdr) (addr : Nat) (bytes : List Byte) (mask : BitVec 64) (s : State) :
    Host.Outcome State Fault Refusal :=
  .next { s with dev := doRecWrite h addr bytes mask s.dev }

/-- REC_STATE (R405, R412). -/
def execRecState (h : RecHdr) (item : StateItem) (s : State) : Host.Outcome State Fault Refusal :=
  .next { s with dev := doRecState h item s.dev }

/-- REC_OUT (R405). -/
def execRecOut (h : RecHdr) (f : Fn) (r : Ring) (slot : Nat) (w : List Word) (s : State) :
    Host.Outcome State Fault Refusal :=
  .next { s with dev := doRecOut h f.val r.val slot w s.dev }

/-- REC_DONE (R405). -/
def execRecDone (h : RecHdr) (last : List (Fn × Ring × Nat × Nat)) (s : State) : Host.Outcome State Fault Refusal :=
  .next { s with dev := doRecDone h last s.dev }

/-- REC_SIG (R417); a banker compares the CRC alone. -/
def execRecSig (h : RecHdr) (p : Plat) (r : Fin 16) (frame : Nat) (crc : Word) (_subst _landIn : Bool) (s : State) :
    Host.Outcome State Fault Refusal :=
  .next { s with dev := doRecSig h p.val r.val frame crc s.dev }

/-- REC_MEDIA (R405). -/
def execRecMedia (h : RecHdr) (bs : List (Panel × List Nat)) (pos : List (Stream × Nat)) (s : State) :
    Host.Outcome State Fault Refusal :=
  .next { s with dev := doRecMedia h bs pos s.dev }

/-- REC_RASTER (R409, R410). -/
def execRecRaster (h : RecHdr) (leadDt : Nat) (rpos : List (Plat × Nat × Nat)) (s : State) :
    Host.Outcome State Fault Refusal :=
  .next { s with dev := doRecRaster h leadDt rpos s.dev }

/-- REC_ACK (R406). -/
def execRecAck (h : RecHdr) (upTo : Word) (rttNs : Nat) (s : State) : Host.Outcome State Fault Refusal :=
  .next { s with dev := doRecAck h upTo rttNs s.dev }

/-- REC_SYNC (R410). -/
def execRecSync (h : RecHdr) (addr : Nat) (bytes : List Byte) (items : List StateItem) (last : Bool) (s : State) :
    Host.Outcome State Fault Refusal :=
  .next { s with dev := doRecSync h addr bytes items last s.dev }

/-- REC_REJECT (R405, R420). -/
def execRecReject (h : RecHdr) (_theirs : BitVec 16) (s : State) : Host.Outcome State Fault Refusal :=
  .next { s with dev := doRecReject h s.dev }

end Sys2Proof.Machine
end

