-- ==== Sys2Proof/Machine/Dispatch.lean ====
section
/-! DEFINITION. The dispatch: one arm for each command of the table, in its order. -/

namespace Sys2Proof.Machine

/-- The effect of a command on everything but the queue. -/
def exec (i : Instr) (s : State) : Host.Outcome State Fault Refusal :=
  match i with
  | .registerWrite acc sp off v => Sys2Proof.Machine.execRegisterWrite acc sp off v s
  | .readClear acc sp off => Sys2Proof.Machine.execReadClear acc sp off s
  | .coldReset st => Sys2Proof.Machine.execColdReset st s
  | .warmReset c => Sys2Proof.Machine.execWarmReset c s
  | .functionReset f => Sys2Proof.Machine.execFunctionReset f s
  | .sectRstTt acc => Sys2Proof.Machine.execSectRstTt acc s
  | .sectRstRaster acc => Sys2Proof.Machine.execSectRstRaster acc s
  | .sectRstCompose acc => Sys2Proof.Machine.execSectRstCompose acc s
  | .sectRstScanout acc => Sys2Proof.Machine.execSectRstScanout acc s
  | .sectRstMedia acc => Sys2Proof.Machine.execSectRstMedia acc s
  | .sectRstPair acc => Sys2Proof.Machine.execSectRstPair acc s
  | .sectionResetDone x => Sys2Proof.Machine.execSectionResetDone x s
  | .lockWrite acc v => Sys2Proof.Machine.execLockWrite acc v s
  | .lock f r => Sys2Proof.Machine.execLock f r s
  | .stageCommit acc v tables => Sys2Proof.Machine.execStageCommit acc v tables s
  | .stripComposeBegin p frame line want => Sys2Proof.Machine.execStripComposeBegin p frame line want s
  | .commitLand p frame line => Sys2Proof.Machine.execCommitLand p frame line s
  | .stripComposeDone p frame line px => Sys2Proof.Machine.execStripComposeDone p frame line px s
  | .stripCheckpoint p frame line outstanding => Sys2Proof.Machine.execStripCheckpoint p frame line outstanding s
  | .fallbackStrip p frame line => Sys2Proof.Machine.execFallbackStrip p frame line s
  | .fetchFault l c frame line iova => Sys2Proof.Machine.execFetchFault l c frame line iova s
  | .dtRead acc => Sys2Proof.Machine.execDtRead acc s
  | .rposRead acc p => Sys2Proof.Machine.execRposRead acc p s
  | .cpSelWrite acc v => Sys2Proof.Machine.execCpSelWrite acc v s
  | .cpStageWrite acc k v => Sys2Proof.Machine.execCpStageWrite acc k v s
  | .cpStoreWrite acc v => Sys2Proof.Machine.execCpStoreWrite acc v s
  | .loaderWalk => Sys2Proof.Machine.execLoaderWalk s
  | .cpFire c => Sys2Proof.Machine.execCpFire c s
  | .comparatorFree => Sys2Proof.Machine.execComparatorFree s
  | .cpFireDeferred c => Sys2Proof.Machine.execCpFireDeferred c s
  | .flCtrlWrite acc p v => Sys2Proof.Machine.execFlCtrlWrite acc p v s
  | .framelockRefEdge p edge => Sys2Proof.Machine.execFramelockRefEdge p edge s
  | .framelockHoldover p => Sys2Proof.Machine.execFramelockHoldover p s
  | .framelockHoldoverExpire p => Sys2Proof.Machine.execFramelockHoldoverExpire p s
  | .convStart acc v => Sys2Proof.Machine.execConvStart acc v s
  | .convDone => Sys2Proof.Machine.execConvDone s
  | .timingTakeEffect p => Sys2Proof.Machine.execTimingTakeEffect p s
  | .rasterStart p => Sys2Proof.Machine.execRasterStart p s
  | .platformDisable p => Sys2Proof.Machine.execPlatformDisable p s
  | .kick acc f r => Sys2Proof.Machine.execKick acc f r s
  | .reloadRing acc f r m => Sys2Proof.Machine.execReloadRing acc f r m s
  | .reloadVectors acc f m => Sys2Proof.Machine.execReloadVectors acc f m s
  | .doorbellRecordArrive f r m => Sys2Proof.Machine.execDoorbellRecordArrive f r m s
  | .dbrRetry f r => Sys2Proof.Machine.execDbrRetry f r s
  | .descriptorArrive f r n m => Sys2Proof.Machine.execDescriptorArrive f r n m s
  | .msixHoldoffExpire f v => Sys2Proof.Machine.execMsixHoldoffExpire f v s
  | .nop f r => Sys2Proof.Machine.execNop f r s
  | .signal f r => Sys2Proof.Machine.execSignal f r s
  | .wait f r => Sys2Proof.Machine.execWait f r s
  | .cpWrite f r => Sys2Proof.Machine.execCpWrite f r s
  | .cpRead f r => Sys2Proof.Machine.execCpRead f r s
  | .commitHead f r tables => Sys2Proof.Machine.execCommitHead f r tables s
  | .siCommit acc v tables => Sys2Proof.Machine.execSiCommit acc v tables s
  | .cc3AuthWrite acc v => Sys2Proof.Machine.execCc3AuthWrite acc v s
  | .jobSubmit f r => Sys2Proof.Machine.execJobSubmit f r s
  | .ctxSetup f r => Sys2Proof.Machine.execCtxSetup f r s
  | .ctxDestroy f r => Sys2Proof.Machine.execCtxDestroy f r s
  | .jobCancel f r => Sys2Proof.Machine.execJobCancel f r s
  | .tilePool f r => Sys2Proof.Machine.execTilePool f r s
  | .pktNop c w => Sys2Proof.Machine.execPktNop c w s
  | .pktTarget c w => Sys2Proof.Machine.execPktTarget c w s
  | .pktState c w m => Sys2Proof.Machine.execPktState c w m s
  | .pktBind c w => Sys2Proof.Machine.execPktBind c w s
  | .pktDraw c w dr st => Sys2Proof.Machine.execPktDraw c w dr st s
  | .pktDrawIndexed c w dr st => Sys2Proof.Machine.execPktDrawIndexed c w dr st s
  | .pktDrawIndirect c w m dr st => Sys2Proof.Machine.execPktDrawIndirect c w m dr st s
  | .pktClear c w => Sys2Proof.Machine.execPktClear c w s
  | .pktPassEnd c w => Sys2Proof.Machine.execPktPassEnd c w s
  | .pktDispatch c w st => Sys2Proof.Machine.execPktDispatch c w st s
  | .pktDispatchIndirect c w m st => Sys2Proof.Machine.execPktDispatchIndirect c w m st s
  | .pktBarrier c w => Sys2Proof.Machine.execPktBarrier c w s
  | .pktCall c w => Sys2Proof.Machine.execPktCall c w s
  | .pktTimestamp c w => Sys2Proof.Machine.execPktTimestamp c w s
  | .pktScissor c w => Sys2Proof.Machine.execPktScissor c w s
  | .jobComplete c => Sys2Proof.Machine.execJobComplete c s
  | .jobFault c k => Sys2Proof.Machine.execJobFault c k s
  | .clearLine c => Sys2Proof.Machine.execClearLine c s
  | .softYieldDone sl => Sys2Proof.Machine.execSoftYieldDone sl s
  | .hardPreempt sl => Sys2Proof.Machine.execHardPreempt sl s
  | .saveFirstPartDone sl => Sys2Proof.Machine.execSaveFirstPartDone sl s
  | .budgetExhausted c => Sys2Proof.Machine.execBudgetExhausted c s
  | .budgetReset => Sys2Proof.Machine.execBudgetReset s
  | .tpWindowStart f => Sys2Proof.Machine.execTpWindowStart f s
  | .tpWindowEnd f => Sys2Proof.Machine.execTpWindowEnd f s
  | .clusterDead k cause => Sys2Proof.Machine.execClusterDead k cause s
  | .reliefDone g => Sys2Proof.Machine.execReliefDone g s
  | .ldsEccError k => Sys2Proof.Machine.execLdsEccError k s
  | .posthumous k wr => Sys2Proof.Machine.execPosthumous k wr s
  | .bistStart acc v => Sys2Proof.Machine.execBistStart acc v s
  | .bistDone pass => Sys2Proof.Machine.execBistDone pass s
  | .bufCreate f r => Sys2Proof.Machine.execBufCreate f r s
  | .bufDestroy f r => Sys2Proof.Machine.execBufDestroy f r s
  | .bufRelease f r => Sys2Proof.Machine.execBufRelease f r s
  | .skeinReserve f r => Sys2Proof.Machine.execSkeinReserve f r s
  | .bufQuery f r => Sys2Proof.Machine.execBufQuery f r s
  | .dpllWrite acc k w v => Sys2Proof.Machine.execDpllWrite acc k w v s
  | .dpllLock k => Sys2Proof.Machine.execDpllLock k s
  | .routeIdle t => Sys2Proof.Machine.execRouteIdle t s
  | .sinkLive t => Sys2Proof.Machine.execSinkLive t s
  | .linkTrainDone p ok => Sys2Proof.Machine.execLinkTrainDone p ok s
  | .fenceInAssert => Sys2Proof.Machine.execFenceInAssert s
  | .fenceInRelease => Sys2Proof.Machine.execFenceInRelease s
  | .muteWrite acc v => Sys2Proof.Machine.execMuteWrite acc v s
  | .muteApply p => Sys2Proof.Machine.execMuteApply p s
  | .auxNativeWrite acc p v => Sys2Proof.Machine.execAuxNativeWrite acc p v s
  | .auxNativeRead acc p v => Sys2Proof.Machine.execAuxNativeRead acc p v s
  | .auxI2cWrite acc p v => Sys2Proof.Machine.execAuxI2cWrite acc p v s
  | .auxI2cRead acc p v => Sys2Proof.Machine.execAuxI2cRead acc p v s
  | .auxReply p rep => Sys2Proof.Machine.execAuxReply p rep s
  | .auxTimeout p => Sys2Proof.Machine.execAuxTimeout p s
  | .hpdPlug p => Sys2Proof.Machine.execHpdPlug p s
  | .hpdUnplug p => Sys2Proof.Machine.execHpdUnplug p s
  | .hpdIrq p lockLost => Sys2Proof.Machine.execHpdIrq p lockLost s
  | .aphyAckTimeout q sent => Sys2Proof.Machine.execAphyAckTimeout q sent s
  | .teEdge t => Sys2Proof.Machine.execTeEdge t s
  | .teTimeout d => Sys2Proof.Machine.execTeTimeout d s
  | .underflow p line x => Sys2Proof.Machine.execUnderflow p line x s
  | .signatureResult p r px => Sys2Proof.Machine.execSignatureResult p r px s
  | .psrEnter p => Sys2Proof.Machine.execPsrEnter p s
  | .psrExit p => Sys2Proof.Machine.execPsrExit p s
  | .touchCfg f r => Sys2Proof.Machine.execTouchCfg f r s
  | .touchBaselineReload f r => Sys2Proof.Machine.execTouchBaselineReload f r s
  | .touchBaselineRebase f r => Sys2Proof.Machine.execTouchBaselineRebase f r s
  | .touchBaselineSave f r => Sys2Proof.Machine.execTouchBaselineSave f r s
  | .touchBaselineDump f r => Sys2Proof.Machine.execTouchBaselineDump f r s
  | .touchTestRef f r => Sys2Proof.Machine.execTouchTestRef f r s
  | .touchTestOpen f r => Sys2Proof.Machine.execTouchTestOpen f r s
  | .touchTestShort f r => Sys2Proof.Machine.execTouchTestShort f r s
  | .touchTestDone t raw leaks refs => Sys2Proof.Machine.execTouchTestDone t raw leaks refs s
  | .touchFrameProcess t raw selfTx selfRx => Sys2Proof.Machine.execTouchFrameProcess t raw selfTx selfRx s
  | .spiDrdy t => Sys2Proof.Machine.execSpiDrdy t s
  | .spiDrdyTimeout t => Sys2Proof.Machine.execSpiDrdyTimeout t s
  | .tunnelSegment q bytes => Sys2Proof.Machine.execTunnelSegment q bytes s
  | .tunnelFrameTimeout t => Sys2Proof.Machine.execTunnelFrameTimeout t s
  | .longContact t id => Sys2Proof.Machine.execLongContact t id s
  | .forcedRelease t id => Sys2Proof.Machine.execForcedRelease t id s
  | .hapticPlay f r => Sys2Proof.Machine.execHapticPlay f r s
  | .hapticLoad f r m => Sys2Proof.Machine.execHapticLoad f r m s
  | .hapticCfgWrite f r => Sys2Proof.Machine.execHapticCfgWrite f r s
  | .hapticCfgClearFault f r => Sys2Proof.Machine.execHapticCfgClearFault f r s
  | .senseWindow h halfPeriodUs bemfMv => Sys2Proof.Machine.execSenseWindow h halfPeriodUs bemfMv s
  | .hapticSegmentEnd h => Sys2Proof.Machine.execHapticSegmentEnd h s
  | .pendingTriggerTimeout h => Sys2Proof.Machine.execPendingTriggerTimeout h s
  | .ampFault h => Sys2Proof.Machine.execAmpFault h s
  | .clockLoss d => Sys2Proof.Machine.execClockLoss d s
  | .audioStreamConfig f r => Sys2Proof.Machine.execAudioStreamConfig f r s
  | .audioStreamStart f r => Sys2Proof.Machine.execAudioStreamStart f r s
  | .audioStreamStop f r => Sys2Proof.Machine.execAudioStreamStop f r s
  | .audioStreamDrain f r => Sys2Proof.Machine.execAudioStreamDrain f r s
  | .audioRoute f r => Sys2Proof.Machine.execAudioRoute f r s
  | .audioGain f r => Sys2Proof.Machine.execAudioGain f r s
  | .audioCoef f r m => Sys2Proof.Machine.execAudioCoef f r m s
  | .audioChimeStart f r => Sys2Proof.Machine.execAudioChimeStart f r s
  | .audioChimeStop f r => Sys2Proof.Machine.execAudioChimeStop f r s
  | .safetyChimeStart acc g v => Sys2Proof.Machine.execSafetyChimeStart acc g v s
  | .safetyChimeStop acc g v => Sys2Proof.Machine.execSafetyChimeStop acc g v s
  | .chimeEnd g => Sys2Proof.Machine.execChimeEnd g s
  | .routeTableChange d => Sys2Proof.Machine.execRouteTableChange d s
  | .crossfadeEnd n => Sys2Proof.Machine.execCrossfadeEnd n s
  | .gainRampEnd target index => Sys2Proof.Machine.execGainRampEnd target index s
  | .eqSectionMove acc m k v => Sys2Proof.Machine.execEqSectionMove acc m k v s
  | .streamPeriod st appl => Sys2Proof.Machine.execStreamPeriod st appl s
  | .streamUnderrun st => Sys2Proof.Machine.execStreamUnderrun st s
  | .streamRefill st appl => Sys2Proof.Machine.execStreamRefill st appl s
  | .streamOverrun st => Sys2Proof.Machine.execStreamOverrun st s
  | .streamFault st cause => Sys2Proof.Machine.execStreamFault st cause s
  | .rampDownEnd st => Sys2Proof.Machine.execRampDownEnd st s
  | .bridgeLock b => Sys2Proof.Machine.execBridgeLock b s
  | .bridgeUnlock b ppm => Sys2Proof.Machine.execBridgeUnlock b ppm s
  | .portFrameError p => Sys2Proof.Machine.execPortFrameError p s
  | .bellBindWrite acc c v => Sys2Proof.Machine.execBellBindWrite acc c v s
  | .bellPost acc c v => Sys2Proof.Machine.execBellPost acc c v s
  | .bellPop acc c v => Sys2Proof.Machine.execBellPop acc c v s
  | .doorbellClear acc v => Sys2Proof.Machine.execDoorbellClear acc v s
  | .doorbellMaskWrite acc v => Sys2Proof.Machine.execDoorbellMaskWrite acc v s
  | .tokenAcquire t readers => Sys2Proof.Machine.execTokenAcquire t readers s
  | .tokenRelease acc t v => Sys2Proof.Machine.execTokenRelease acc t v s
  | .spdmGetVersion f => Sys2Proof.Machine.execSpdmGetVersion f s
  | .spdmGetCapabilities f => Sys2Proof.Machine.execSpdmGetCapabilities f s
  | .spdmNegotiateAlgorithms f => Sys2Proof.Machine.execSpdmNegotiateAlgorithms f s
  | .spdmGetDigests f => Sys2Proof.Machine.execSpdmGetDigests f s
  | .spdmGetCertificate f slot => Sys2Proof.Machine.execSpdmGetCertificate f slot s
  | .spdmChallenge f slot => Sys2Proof.Machine.execSpdmChallenge f slot s
  | .spdmGetMeasurements f index => Sys2Proof.Machine.execSpdmGetMeasurements f index s
  | .spdmKeyExchange f => Sys2Proof.Machine.execSpdmKeyExchange f s
  | .spdmFinish f => Sys2Proof.Machine.execSpdmFinish f s
  | .spdmKeyUpdate f => Sys2Proof.Machine.execSpdmKeyUpdate f s
  | .spdmHeartbeat f => Sys2Proof.Machine.execSpdmHeartbeat f s
  | .spdmEndSession f => Sys2Proof.Machine.execSpdmEndSession f s
  | .ideKmKeyProg f stream => Sys2Proof.Machine.execIdeKmKeyProg f stream s
  | .ideKSetGo f stream => Sys2Proof.Machine.execIdeKSetGo f stream s
  | .ideFail stream => Sys2Proof.Machine.execIdeFail stream s
  | .watermarkRaise acc k v => Sys2Proof.Machine.execWatermarkRaise acc k v s
  | .watermarkLower acc k v => Sys2Proof.Machine.execWatermarkLower acc k v s
  | .scrubDone k => Sys2Proof.Machine.execScrubDone k s
  | .acquirePower acc d => Sys2Proof.Machine.execAcquirePower acc d s
  | .releasePower acc d => Sys2Proof.Machine.execReleasePower acc d s
  | .acquireClock acc d => Sys2Proof.Machine.execAcquireClock acc d s
  | .releaseClock acc d => Sys2Proof.Machine.execReleaseClock acc d s
  | .deadmanKick acc v => Sys2Proof.Machine.execDeadmanKick acc v s
  | .deadmanExpire => Sys2Proof.Machine.execDeadmanExpire s
  | .monitorDetect k => Sys2Proof.Machine.execMonitorDetect k s
  | .lockstepFault => Sys2Proof.Machine.execLockstepFault s
  | .cautionEnter acc v => Sys2Proof.Machine.execCautionEnter acc v s
  | .cautionExit acc v => Sys2Proof.Machine.execCautionExit acc v s
  | .pairForm f r partner => Sys2Proof.Machine.execPairForm f r partner s
  | .pairLeave f r => Sys2Proof.Machine.execPairLeave f r s
  | .pairSwap f r => Sys2Proof.Machine.execPairSwap f r s
  | .formTimeout => Sys2Proof.Machine.execFormTimeout s
  | .bankerHot => Sys2Proof.Machine.execBankerHot s
  | .swapTakeEffect => Sys2Proof.Machine.execSwapTakeEffect s
  | .recDesc h f r slot d tables => Sys2Proof.Machine.execRecDesc h f r slot d tables s
  | .recCommit h id origin anchor group land => Sys2Proof.Machine.execRecCommit h id origin anchor group land s
  | .recRestamp h id land => Sys2Proof.Machine.execRecRestamp h id land s
  | .recWrite h addr bytes mask => Sys2Proof.Machine.execRecWrite h addr bytes mask s
  | .recState h item => Sys2Proof.Machine.execRecState h item s
  | .recOut h f r slot w => Sys2Proof.Machine.execRecOut h f r slot w s
  | .recDone h last => Sys2Proof.Machine.execRecDone h last s
  | .recSig h p r frame crc subst landIn => Sys2Proof.Machine.execRecSig h p r frame crc subst landIn s
  | .recMedia h baselines pos => Sys2Proof.Machine.execRecMedia h baselines pos s
  | .recRaster h leadDt rpos => Sys2Proof.Machine.execRecRaster h leadDt rpos s
  | .recAck h upTo rttNs => Sys2Proof.Machine.execRecAck h upTo rttNs s
  | .recSync h addr bytes items last => Sys2Proof.Machine.execRecSync h addr bytes items last s
  | .recReject h theirs => Sys2Proof.Machine.execRecReject h theirs s
  | .doneRecordSend => Sys2Proof.Machine.execDoneRecordSend s
  | .rasterRecordSend => Sys2Proof.Machine.execRasterRecordSend s
  | .linkRetransmitTimeout => Sys2Proof.Machine.execLinkRetransmitTimeout s
  | .linkSilenceTimeout => Sys2Proof.Machine.execLinkSilenceTimeout s
  | .heartbeatLost => Sys2Proof.Machine.execHeartbeatLost s
  | .takeoverDoorbellPoll => Sys2Proof.Machine.execTakeoverDoorbellPoll s
  | .remapDone acc v => Sys2Proof.Machine.execRemapDone acc v s
  | .aliveWrite acc v => Sys2Proof.Machine.execAliveWrite acc v s
  | .aliveTimeout => Sys2Proof.Machine.execAliveTimeout s
  | .configDiverge f flr => Sys2Proof.Machine.execConfigDiverge f flr s
  | .partition f r => Sys2Proof.Machine.execPartition f r s
  | .partitionWindowSubmit acc v => Sys2Proof.Machine.execPartitionWindowSubmit acc v s
  | .ptSelWrite acc v => Sys2Proof.Machine.execPtSelWrite acc v s
  | .fnCtrlDepart f r => Sys2Proof.Machine.execFnCtrlDepart f r s
  | .fnCtrlQuiesce f r => Sys2Proof.Machine.execFnCtrlQuiesce f r s
  | .quiesceDone f => Sys2Proof.Machine.execQuiesceDone f s
  | .quiesceTimeout f => Sys2Proof.Machine.execQuiesceTimeout f s
  | .fnCtrlResume f r => Sys2Proof.Machine.execFnCtrlResume f r s
  | .fnCtrlSave f r => Sys2Proof.Machine.execFnCtrlSave f r s
  | .fnCtrlRestore f r blob m => Sys2Proof.Machine.execFnCtrlRestore f r blob m s
  | .fnCtrlDlStart f r => Sys2Proof.Machine.execFnCtrlDlStart f r s
  | .fnCtrlHarvest f r => Sys2Proof.Machine.execFnCtrlHarvest f r s
  | .fnCtrlDlStop f r => Sys2Proof.Machine.execFnCtrlDlStop f r s
  | .vfEnableSet num => Sys2Proof.Machine.execVfEnableSet num s
  | .vfEnableClear num => Sys2Proof.Machine.execVfEnableClear num s
  | .functionDeparted f => Sys2Proof.Machine.execFunctionDeparted f s
  | .f0DepartureStart => Sys2Proof.Machine.execF0DepartureStart s
  | .mmuRootWrite acc f v => Sys2Proof.Machine.execMmuRootWrite acc f v s
  | .invalidateFunction acc v => Sys2Proof.Machine.execInvalidateFunction acc v s
  | .invalidateRange acc v => Sys2Proof.Machine.execInvalidateRange acc v s
  | .invalidateAll acc v => Sys2Proof.Machine.execInvalidateAll acc v s
  | .invalidationDone => Sys2Proof.Machine.execInvalidationDone s
  | .atsInvalidate f iova pages => Sys2Proof.Machine.execAtsInvalidate f iova pages s
  | .modeSetMode f r => Sys2Proof.Machine.execModeSetMode f r s
  | .modeDomain f r => Sys2Proof.Machine.execModeDomain f r s
  | .modeHibernate f r => Sys2Proof.Machine.execModeHibernate f r s
  | .hibernateWake c => Sys2Proof.Machine.execHibernateWake c s
  | .domainCtrlWrite acc d v => Sys2Proof.Machine.execDomainCtrlWrite acc d v s
  | .pmuDepthDecision d idle => Sys2Proof.Machine.execPmuDepthDecision d idle s
  | .domainWake d => Sys2Proof.Machine.execDomainWake d s
  | .powerEstimate mw => Sys2Proof.Machine.execPowerEstimate mw s
  | .thermalSample tj10 => Sys2Proof.Machine.execThermalSample tj10 s
  | .thermalWarn => Sys2Proof.Machine.execThermalWarn s
  | .thermalThrottle => Sys2Proof.Machine.execThermalThrottle s
  | .thermalTrip => Sys2Proof.Machine.execThermalTrip s
  | .thermalCritical => Sys2Proof.Machine.execThermalCritical s
  | .bootStart => Sys2Proof.Machine.execBootStart s
  | .loaderLoad acc v => Sys2Proof.Machine.execLoaderLoad acc v s
  | .imageVerifyDone img => Sys2Proof.Machine.execImageVerifyDone img s
  | .storeFormat acc v => Sys2Proof.Machine.execStoreFormat acc v s
  | .bootTimeout => Sys2Proof.Machine.execBootTimeout s
  | .fwStageLoad f r img => Sys2Proof.Machine.execFwStageLoad f r img s
  | .fwStageDiscard f r => Sys2Proof.Machine.execFwStageDiscard f r s
  | .fwCutover f r => Sys2Proof.Machine.execFwCutover f r s
  | .firmwareReady => Sys2Proof.Machine.execFirmwareReady s
  | .cutoverTimeout => Sys2Proof.Machine.execCutoverTimeout s
  | .storeRwRead f r => Sys2Proof.Machine.execStoreRwRead f r s
  | .storeRwWrite f r m => Sys2Proof.Machine.execStoreRwWrite f r m s
  | .storeRwDelete f r => Sys2Proof.Machine.execStoreRwDelete f r s
  | .storeRwInfo f r => Sys2Proof.Machine.execStoreRwInfo f r s
  | .storeWriteDone => Sys2Proof.Machine.execStoreWriteDone s
  | .storeCompaction => Sys2Proof.Machine.execStoreCompaction s
  | .snapshot f r => Sys2Proof.Machine.execSnapshot f r s
  | .snapshotDone => Sys2Proof.Machine.execSnapshotDone s
  | .counterRead acc => Sys2Proof.Machine.execCounterRead acc s
  | .eccCorrected src addr => Sys2Proof.Machine.execEccCorrected src addr s
  | .eccUncorrectable src addr mid partialWrite => Sys2Proof.Machine.execEccUncorrectable src addr mid partialWrite s
  | .patrolScrub src => Sys2Proof.Machine.execPatrolScrub src s
  | .errLogged => Sys2Proof.Machine.execErrLogged s
  | .dispUpdate be d v => Sys2Proof.Machine.execDispUpdate be d v s
  | .capture d => Sys2Proof.Machine.execCapture d s
  | .mdhShadowWrite be off v => Sys2Proof.Machine.execMdhShadowWrite be off v s
  | .softRst be v => Sys2Proof.Machine.execSoftRst be v s
  | .softRstDone => Sys2Proof.Machine.execSoftRstDone s
  | .extKeyWrite acc v => Sys2Proof.Machine.execExtKeyWrite acc v s
  | .apertureAccess off wr len => Sys2Proof.Machine.execApertureAccess off wr len s
  | .frameStart p => Sys2Proof.Machine.execFrameStart p s
  | .bootRunning => Sys2Proof.Machine.execBootRunning s
  | .authenticationFail => Sys2Proof.Machine.execAuthenticationFail s

end Sys2Proof.Machine
end

