-- ==== Sys2Proof/Safety.lean ====
section
/-! DEFINITION. What counts as a safe run, in the terms that statements use: the canonical form of the memory, what no
command but cold reset may undo, and when a command has its own effect. -/

namespace Sys2Proof

/-- The keys of a map rise strictly. -/
def SMap.rising {α : Type} : SMap α → Bool
  | [] => true
  | [_] => true
  | (k, _) :: (k', v') :: m => decide (k < k') && SMap.rising ((k', v') :: m)

namespace Machine

/-- The canonical form of the DRAM: addresses strictly rising, and no cell that holds what an unlisted address reads as. -/
def Dev.ramOk (d : Dev) : Bool := SMap.rising d.dram && d.dram.all (fun p => decide (p.2 ≠ dramUnlisted d p.1))

/-- The canonical form of the register file: offsets strictly rising, and no entry that holds its register's reset value. -/
def Dev.regsOk (d : Dev) : Bool := SMap.rising d.regs && d.regs.all (fun p => decide (p.2 ≠ regReset p.1))

/-- What every command but cold reset keeps: device time, the numbers of commits and the free values taken never go back
(R46), what left the device stays said, the straps (R5) and the installed DRAM stay, and the memory and the register file keep their canonical form. -/
structure Grows (d0 d : Dev) : Prop where
  dt : d0.dt ≤ d.dt
  commits : d0.nextCommit ≤ d.nextCommit
  free : d0.freeCtr ≤ d.freeCtr
  out : d0.out <:+ d.out
  heritage : d.heritage = d0.heritage
  seat : d.seatB = d0.seatB
  boot : d.bootMode = d0.bootMode
  units : d.dramUnits = d0.dramUnits
  ram : d0.ramOk = true → d.ramOk = true
  regs : d0.regsOk = true → d.regsOk = true

/-- Is the command a cold reset? -/
def isCold (i : Instr) : Bool :=
  match i with
  | .coldReset _ => true
  | _ => false

/-! ### When a command has its own effect -/

/-- The outcome that leaves the queue as it is and makes the device d. -/
def after (s : State) (d : Dev) : Host.Outcome State Fault Refusal := .next { s with dev := d }

/-- A register write is done: nothing turns it away, d is the device after it, and n the word that it leaves (for a write-only
register the word written). -/
def Written (d0 : Dev) (a : Acc) (off : Nat) (v : Word) (d : Dev) (n : Word) : Prop := regWrite a off v d0 = (d, .done n)

/-- The descriptor that starts at the head of a ring, if it is the row `key`, may start, its domain is up, and neither its
header nor its body is refused; `m` is what the command brings for its memory reads. -/
def starts (d : Dev) (f r key : Nat) (m : List MemIn) (chk : Dev → Nat → Nat → Desc → Option (Nat × Nat)) : Option Desc :=
  match (ringSt d f r).queue with
  | [] => none
  | q0 :: _ =>
    let q := { withMem q0 m with seq := d.accept }
    if descKey (ringSt d f r).entry.type q0.words = some key ∧ canStart d f r q0 = true ∧
       (needDom (opcodeOf q0.words)).all (domUp d) = true ∧ descRefusal (beginDesc d f r q) f r q chk = none then some q
    else none

/-- The descriptor q runs at once: it starts, no point holds it, and d is the device that has started it. -/
def Runs (d0 : Dev) (f r key : Nat) (m : List MemIn) (chk : Dev → Nat → Nat → Desc → Option (Nat × Nat)) (q : Desc)
    (d : Dev) : Prop :=
  starts d0 f r key m chk = some q ∧ boundTo q = none ∧ d = beginDesc d0 f r q

/-- The outcome of a descriptor that ran on a ring: the device d, and the slots that the ring now lets go. -/
def ran (s : State) (f r : Nat) (d : Dev) : Host.Outcome State Fault Refusal := after s (purgeRing d f r)

/-- The front end of context c takes a packet of the row `code` from its running job j (R154): the packet is whole, its header
is right, and it lies in the stream. -/
def Packet (d : Dev) (c code : Nat) (w : List Word) (j : JobRun) : Prop :=
  (gctx d c).job = some j ∧ (gctx d c).state = 2 ∧ (j.call.isSome = true ∨ j.off < j.dwords) ∧ w ≠ [] ∧
  bits (wd w 0) 31 24 = code ∧ bits (wd w 0) 23 16 = 0 ∧ pktBeyond j (pktN w) = false ∧ w.length = pktN w + 1

/-- The record h is the next one that the banker applies (R405, R406, R412): the link is up, its epoch is not old, and its
number is the one that the banker waits for; d is the device that has noted and acknowledged it. -/
def NextRec (d0 : Dev) (h : RecHdr) (d : Dev) : Prop :=
  ∃ d1 d2, dhState d0 ≠ 0 ∧ dhState d0 ≠ 7 ∧ domUp d0 15 = true ∧
    d1 = onPair (count d0 637) (fun x => { x with authRun := 0 }) ∧ staleRec d1 h = false ∧
    d2 = (if crewEpoch d1 = h.epoch.toNat then d1 else fs d1 DH_STATUS DH_STATUS_CREW_EPOCH h.epoch.toNat) ∧
    appliesRecs d2 = true ∧ seqBehind d2 h = 0 ∧
    d = sendBack (onPair d2 (fun x => { x with seqIn := (x.seqIn + 1) % 2 ^ 32 })) 0x0B [h.seq.toNat]

/-- The state after n steps, as long as they answer a next state. -/
def run : Nat → State → State
  | 0, s => s
  | n + 1, s =>
    match step s with
    | .next t => run n t
    | _ => s

/-- May the word of register `off` differ after a write of another register? Only the count of the error log and the state of
the domain that the access wakes. -/
def sideWord (off : Nat) : Bool :=
  decide (off = ER_STATUS) || (List.range 16).any (fun k => decide (off = PM_DOM_STAT k))

/-- Is this absolute line a strip boundary of the raster at strip height h (R30)? -/
def Raster.boundary (x : Raster) (h b : Nat) : Prop := b % x.vtot < x.vact ∧ b % x.vtot % h = 0

end Machine

end Sys2Proof
end

