-- ==== Sys2Proof/Certificates/Slice0/Obligations.lean ====
section
/-! DEFINITION. The statements for the provers: for each family of commands, that every one has its own effect (the states
it leads to are written with the model's own operations), and the laws of the whole block: the step, reset, the register
file, the memory, the Timetable, the tokens and bells, the error log, the pair, and what no command takes back. -/

open Sys2Proof Sys2Proof.Machine

/-- Every reset, section reset, lock and register access has its effect where nothing turns it away (R5, R13, R17, R23,
R27, R28, R44, R45, R134, R453): cold and warm resets restart the device, a function reset departs a VF, a section
reset stops its section until it is done, a write that is done leaves its word, and a read gives the word and clears
what reads clear. -/
def Obligations.ResetsAndRegistersRun : Prop :=
  (∀ (s : State) st, exec (.coldReset st) s = after s (resetMode (restoreMap (latchStraps
    { Dev.reset with dramUnits := s.dev.dramUnits, pm := keepStore s.dev.pm, freeCtr := s.dev.freeCtr, out := s.dev.out }
    st)))) ∧
  (∀ (s : State) low, 1000 ≤ low → exec (.warmReset (.pin low)) s = after s (warm s.dev 1)) ∧
  (∀ (s : State), exec (.warmReset .deadman) s = after s (warm s.dev 2)) ∧
  (∀ (s : State) a v d n, Written s.dev a PM_WARM_REQ v d n → bits v 31 16 = 0x57A3 → bit v 0 = true → exec
    (.warmReset (.host a v)) s = after s (warm d 3)) ∧
  (∀ (s : State) f, f.val ≠ 0 → fnState s.dev f.val ≠ 0 → exec (.functionReset f) s = after s (startDeparture
    (addCause s.dev 4 f.val 0) f.val 0)) ∧
  (∀ (s : State) f d, f.val = 0 → d = restore (pfDeparture (addCause s.dev 4 0 0)) .fn0 (fun _ => false) → exec
    (.functionReset f) s = after s (if d.heritage then closeExt (softReset d) else d)) ∧
  (∀ (s : State) a d n, a.mid.toNat = 0 → ∀ p ∈ [(Instr.sectRstTt a, Sect.tt), (Instr.sectRstRaster a, Sect.raster),
    (Instr.sectRstCompose a, Sect.compose), (Instr.sectRstScanout a, Sect.scanout), (Instr.sectRstMedia a,
    Sect.media), (Instr.sectRstPair a, Sect.pair)], Written s.dev a GL_SECT_RST (BitVec.ofNat 32 (2 ^ sectNum p.2)) d
    n → exec p.1 s = after s (sectReset (wr d GL_SECT_RST (rd s.dev GL_SECT_RST)) p.2)) ∧
  (∀ (s : State) x d, hasBit (rd s.dev GL_SECT_RST).toNat (sectNum x) = true → d = wr s.dev GL_SECT_RST (BitVec.ofNat
    32 ((rd s.dev GL_SECT_RST).toNat - 2 ^ sectNum x)) → exec (.sectionResetDone x) s = after s (if x = .tt then
    { d with tt := { d.tt with ownLost := none } } else if x = .raster then gpuRun d else if x = .media then
    audioReturn d else d)) ∧
  (∀ (s : State) a v d n, Written s.dev a GL_LOCK v d n → exec (.lockWrite a v) s = after s (d)) ∧
  (∀ (s : State) f r q d, Runs s.dev f.val r.val 0x670 [] chkLock q d → exec (.lock f r) s = ran s f.val r.val (settle
    (liveCount (onLive d f.val r.val q.idx (fun x => { x with cp := none })) f.val + 1) (onLive d f.val r.val q.idx
    (fun x => { x with cp := none })) f.val)) ∧
  (∀ (s : State) a v tables d n, Written s.dev a GL_STAGE_COMMIT v d n → commitBad s.dev (fb s.dev GL_STAGE_COMMIT
    GL_STAGE_COMMIT_BUSY) n = none → exec (.stageCommit a v tables) s = after s (commitStage d
    { fn := 0, island := false } (bits n 19 16) (bits n 15 0) tables)) ∧
  (∀ (s : State) a off v d n, off.toNat / 65536 ∈ [5, 6, 7, 0x1E, 0x1F] → Written s.dev a off.toNat v d n → exec
    (.registerWrite a .bar0 off v) s = after s d) ∧
  (∀ (s : State) a f off v, exec (.registerWrite a (.vf f) off v) s = after s (vfWrite a f off.toNat v s.dev)) ∧
  (∀ (s : State) a f off v, exec (.registerWrite a (.bar4 f) off v) s = after s (bar4Write a f.val off.toNat v s.dev)) ∧
  (∀ (s : State) a off v, exec (.registerWrite a .mdh off v) s = after s (mdhWrite a.be off.toNat v s.dev)) ∧
  (∀ (s : State) a off r k, off.toNat / 65536 ∈ [0, 3, 4, 8, 0x0A, 0x16, 0x1C, 0x1F] → rowOf off.toNat = some (r, k) →
    writeOnly off.toNat = false → r.world = .any → reachesBar0 a = true → domState s.dev (domOf off.toNat) = 0 →
    windowShut s.dev a off.toNat = false → (inSecureRange off.toNat && !a.secure) = false → a.be = 0xF → exec
    (.readClear a .bar0 off) s = after s (emit (wr s.dev off.toNat (clearRc (rd s.dev off.toNat) r.fields)) (.readData
    a.mid.toNat off.toNat (shownWord a off.toNat s.dev)))) ∧
  (∀ (s : State) a f off, exec (.readClear a (.vf f) off) s = after s (vfRead a f off.toNat s.dev)) ∧
  (∀ (s : State) a f off, exec (.readClear a (.bar4 f) off) s = after s (bar4Read a f.val off.toNat s.dev)) ∧
  (∀ (s : State) a off, s.dev.heritage = true → exec (.readClear a .mdh off) s = after s (mdhRead a.be off.toNat
    s.dev))

/-- Composition has its effect on every strip of an active raster (R28 to R34, R38, R229 to R236, R250, R254, R286): a
strip begins with the commits that bind there, a commit lands, a strip is composed and sent, a late one is re-composed
or falls back, a fetch that fails is counted and told. -/
def Obligations.CompositionRuns : Prop :=
  (∀ (s : State) p frame line want b d, stripAt s.dev p.val line = true → b = frame * (raster s.dev p.val).vtot + line
    → (platRun s.dev p.val).openStrips.contains b = false → d = bindCommits (restampUnacked (advance (dtOfAbs (raster
    s.dev p.val) (b - leadLines s.dev p.val)) s.dev) p.val frame line) p.val frame line → exec (.stripComposeBegin p
    frame line want) s = after s (prefetchAll (onPlat (bindAllRefs d p.val frame line) p.val (fun y =>
    { y with openStrips := y.openStrips ++ [b] })) p.val frame want)) ∧
  (∀ (s : State) p frame line z, (landingNow s.dev p.val frame line).head?.bind (fun c => landOf c p.val) = some z →
    (raster s.dev p.val).had = true → exec (.commitLand p frame line) s = after s (resumeFetch s.dev (gpuRun
    (showPending (touchSweep (closeDue (((landingNow s.dev p.val frame line).map (fun c => c.id)).foldl (landOne p.val
    (z.2.1 * (raster s.dev p.val).vtot + z.2.2.1) (dtOf (raster s.dev p.val) z.2.1 z.2.2.1)) (advance (dtOf (raster
    s.dev p.val) z.2.1 z.2.2.1) s.dev)) p.val)))))) ∧
  (∀ (s : State) p frame line z, (landingNow s.dev p.val frame line).head?.bind (fun c => landOf c p.val) = some z →
    (raster s.dev p.val).had = false → exec (.commitLand p frame line) s = after s (resumeFetch s.dev (gpuRun
    (showPending (touchSweep (closeDue (((landingNow s.dev p.val frame line).map (fun c => c.id)).foldl (landOne p.val
    0 z.2.2.2) (advance z.2.2.2 s.dev)) p.val)))))) ∧
  (∀ (s : State) p frame line px b v out d, b = frame * (raster s.dev p.val).vtot + line → (platRun s.dev
    p.val).openStrips.contains b = true → (platRun s.dev p.val).late.find? (fun s => s.1 == b) = none → v =
    readHeaders (viewAt s.dev p.val b) p.val frame line → out = ((stripPlaces s.dev p.val line px).filterMap (fun q =>
    outPixel v p.val frame q (if inCaution v p.val b then 3 else 0))).map (latchPix v p.val) → d = emit (sendUpdate
    (count (storeBand { s.dev with comp := { s.dev.comp with hdrs := v.comp.hdrs } } p.val frame line) (266 + 4 *
    p.val)) p.val frame line out) (.strip p.val frame line out) → exec (.stripComposeDone p frame line px) s = after s
    (closeStrip d p.val b)) ∧
  (∀ (s : State) p frame line px b v out z d, b = frame * (raster s.dev p.val).vtot + line → (platRun s.dev
    p.val).openStrips.contains b = true → (platRun s.dev p.val).late.find? (fun s => s.1 == b) = some z → v =
    readHeaders (viewAt s.dev p.val b) p.val frame line → out = ((stripPlaces s.dev p.val line px).filterMap (fun q =>
    outPixel v p.val frame q (if inCaution v p.val b then 3 else 2))).map (latchPix v p.val) → d = postLate (count
    (emit (sendUpdate (count (storeBand { s.dev with comp := { s.dev.comp with hdrs := v.comp.hdrs } } p.val frame
    line) (266 + 4 * p.val)) p.val frame line out) (.strip p.val frame line out)) (266 + 4 * p.val + 1)) p.val 1 frame
    line z.2 → exec (.stripComposeDone p frame line px) s = after s (closeStrip (noteStrip (bump d CM_STATUS
    CM_STATUS_RECOMPOSED) p.val b 1) p.val b)) ∧
  (∀ (s : State) p frame line out b d, b = frame * (raster s.dev p.val).vtot + line → (platRun s.dev
    p.val).openStrips.contains b = true → (platRun s.dev p.val).late.any (fun s => s.1 == b) = false → d = advance
    (dtOfAbs (raster s.dev p.val) (b - checkDistance s.dev p.val)) s.dev → lanesAt d p.val b ≠ 0 → exec
    (.stripCheckpoint p frame line out) s = after s (onPlat d p.val (fun y =>
    { y with late := y.late ++ [(b, out)] }))) ∧
  (∀ (s : State) p frame line out b d, b = frame * (raster s.dev p.val).vtot + line → (platRun s.dev
    p.val).openStrips.contains b = true → (platRun s.dev p.val).late.any (fun s => s.1 == b) = false → d = advance
    (dtOfAbs (raster s.dev p.val) (b - checkDistance s.dev p.val)) s.dev → lanesAt d p.val b = 0 → exec
    (.stripCheckpoint p frame line out) s = after s (noteStrip (closeStrip (bump (postLate (count (sendFallback d
    p.val frame line) (266 + 4 * p.val + 2)) p.val 2 frame line out) CM_STATUS CM_STATUS_FALLBACK) p.val b) p.val b
    2)) ∧
  (∀ (s : State) p frame line b z d, b = frame * (raster s.dev p.val).vtot + line → (platRun s.dev p.val).late.find?
    (fun s => s.1 == b) = some z → d = advance (dtOfAbs (raster s.dev p.val) b) s.dev → exec (.fallbackStrip p frame
    line) s = after s (noteStrip (closeStrip (bump (postLate (count (sendFallback d p.val frame line) (266 + 4 * p.val
    + 2)) p.val 2 frame line z.2) CM_STATUS CM_STATUS_FALLBACK) p.val b) p.val b 2)) ∧
  (∀ (s : State) l z frame line iova p y e, composedOn s.dev l.val frame line = some (p, y) → layerOut s.dev p l.val
    frame = false → e = bufEntry s.dev (handleIdx (wd y.words 1)) → s.dev.comp.lbcTold.contains (l.val, frame) = false
    → exec (.fetchFault l (.lbcState z) frame line iova) s = after s (post
    { bump s.dev BF_STATUS BF_STATUS_LBC_BAD with comp := { (bump s.dev BF_STATUS BF_STATUS_LBC_BAD).comp with lbcTold := (l.val, frame) :: (bump s.dev BF_STATUS BF_STATUS_LBC_BAD).comp.lbcTold } }
    e.owner clBUFFER 3 midCOMPOSE (pb 0 l.val + pb 1 p + pw32 4 z.toNat + pw32 8 frame))) ∧
  (∀ (s : State) l t frame line iova p y e, composedOn s.dev l.val frame line = some (p, y) → layerOut s.dev p l.val
    frame = false → e = bufEntry s.dev (handleIdx (wd y.words 1)) → exec (.fetchFault l (.dmmu t) frame line iova) s =
    after s (post (noteFault (dropFetch s.dev p l.val (frame * (raster s.dev p).vtot + line) (bit (wd e.words 0) 22))
    e.owner midCOMPOSE t.val iova.toNat false) e.owner clBUFFER 2 midCOMPOSE (fetchPay p l.val (fetchCode (.dmmu t))
    frame line (wd y.words 1)))) ∧
  (∀ (s : State) l frame line iova p y e, ∀ c ∈ [FetchCause.ecc, FetchCause.header], composedOn s.dev l.val frame line
    = some (p, y) → layerOut s.dev p l.val frame = false → e = bufEntry s.dev (handleIdx (wd y.words 1)) → exec
    (.fetchFault l c frame line iova) s = after s (post (dropFetch s.dev p l.val (frame * (raster s.dev p).vtot +
    line) (bit (wd e.words 0) 22)) e.owner clBUFFER 2 midCOMPOSE (fetchPay p l.val (fetchCode c) frame line (wd
    y.words 1))))

/-- The Timetable has its effect (R46, R49, R51, R54, R57, R60, R62 to R68, R72 to R74, R77, R78, R80, R83, R84): reads
latch, the windows of a master stage and store an entry, points fire at their triggers, framelock steps, a conversion
gives its device time, and a timing, a raster start and a disabling take effect at a frame start. -/
def Obligations.TimetableRuns : Prop :=
  (∀ (s : State) a, reachesBar0 a = true → domState s.dev 4 = 0 → exec (.dtRead a) s = after s (emit
    { s.dev with tt := { s.dev.tt with dtHi := SMap.set s.dev.tt.dtHi a.mid.toNat (s.dev.dt / 2 ^ 32 % 2 ^ 32) } }
    (.readData a.mid.toNat TT_DT_LO (maskBytes a.be (loWord s.dev.dt))))) ∧
  (∀ (s : State) a p, reachesBar0 a = true → domState s.dev 4 = 0 → (raster s.dev p.val).had = true → exec (.rposRead
    a p) s = after s (emit (wr64 (wr s.dev (TT_RPOS_FRAME p.val) (BitVec.ofNat 32 (absAt (raster s.dev p.val) s.dev.dt
    / (raster s.dev p.val).vtot))) (TT_RPOS_DT_LO p.val) (dtOfAbs (raster s.dev p.val) (absAt (raster s.dev p.val)
    s.dev.dt))) (.readData a.mid.toNat (TT_RPOS_LINE p.val) (maskBytes a.be (rposWord s.dev p.val))))) ∧
  (∀ (s : State) a v d n, Written s.dev a TT_CP_SEL v d n → cpWindowMaster a = true → bits v 9 0 ≠ cpSel (wr d
    TT_CP_SEL (rd s.dev TT_CP_SEL)) a.mid.toNat → exec (.cpSelWrite a v) s = after s
    ({ wr d TT_CP_SEL (rd s.dev TT_CP_SEL) with tt := { d.tt with sel := SMap.set d.tt.sel a.mid.toNat (bits v 9 0), stage := SMap.set d.tt.stage a.mid.toNat [] } })) ∧
  (∀ (s : State) a v k d n, Written s.dev a (TT_CP_W (k.val + 1)) v d n → cpWindowMaster a = true → exec
    (.cpStageWrite a k v) s = after s
    ({ wr d (TT_CP_W (k.val + 1)) (rd s.dev (TT_CP_W (k.val + 1))) with tt := { d.tt with stage := SMap.mod d.tt.stage a.mid.toNat (fun m => SMap.set m (k.val + 1) (some v)) } })) ∧
  (∀ (s : State) a v d c e, cpStoreCheck a v s.dev = (d, some (c, e)) → exec (.cpStoreWrite a v) s = after s
    (writeEntry d c e)) ∧
  (∀ (s : State), domUp s.dev 4 = true → exec .loaderWalk s = after s ((enabledCps s.dev).foldl walkEntry s.dev)) ∧
  (∀ (s : State) c d g, mayMatch s.dev c.val = true → d = (dueBefore s.dev c.val).foldl matchPoint s.dev → waitsFor d
    c.val = some g → mayMatch d c.val = true → exec (.cpFire c) s = after s (firePoint (advance g.dt d) c.val
    (matchOutcome d c.val) g.dt)) ∧
  (∀ (s : State) d, s.dev.tt.cooling ≠ 0 → d = { s.dev with tt := { s.dev.tt with cooling := s.dev.tt.cooling - 1 } }
    → exec .comparatorFree s = after s (freeUp d)) ∧
  (∀ (s : State) c, (cpEntry s.dev c.val).en = true → (cpRun s.dev c.val).armed = true → (cpRun s.dev c.val).deferred
    = true → domUp s.dev 4 = true → exec (.cpFireDeferred c) s = after s (firePoint s.dev c.val 2 (cpRun s.dev
    c.val).due)) ∧
  (∀ (s : State) a v p d n, Written s.dev a (TT_FL_CTRL p.val) v d n → ¬ (bits n 29 28 = 2 ∧ flCycle s.dev p.val 17
    (bits n 27 24) = true) → bit n 31 = true → exec (.flCtrlWrite a p v) s = after s (d)) ∧
  (∀ (s : State) a v p d n, Written s.dev a (TT_FL_CTRL p.val) v d n → ¬ (bits n 29 28 = 2 ∧ flCycle s.dev p.val 17
    (bits n 27 24) = true) → bit n 31 = false → exec (.flCtrlWrite a p v) s = after s (onFl (setFlState d p.val 0)
    p.val (fun x => { x with good := 0, bad := 0, out := false }))) ∧
  (∀ (s : State) p periodNs pulse y d e, bit (rd s.dev (TT_FL_CTRL p.val)) 31 = true → flMarks s.dev p.val pulse =
    true → (raster s.dev p.val).had = true → (raster s.dev p.val).vtot ≠ 0 → domUp s.dev 4 = true → (raster s.dev
    p.val).virt = false → y = flPeriod s.dev p.val periodNs → d = onFl s.dev p.val (fun z =>
    { z with lastEdge := s.dev.dt, period := y, edges := z.edges + 1 }) → flInRange d p.val y = true → e = onFl d
    p.val (fun z => { z with out := false }) → ((SMap.get s.dev.tt.fl p.val).edges + 1) % (bits (rd s.dev (TT_FL_CTRL
    p.val)) 21 20 + 1) = 0 → (bit (rd s.dev (TT_FL_CTRL p.val)) 30 && decide (flState s.dev p.val = 0)) = false → exec
    (.framelockRefEdge p ⟨periodNs, pulse⟩) s = after s (flStep (fs e (TT_FL_STAT p.val) TT_FL_STAT_ERROR ((if flError
    e p.val ≥ 2 ^ 23 then 2 ^ 23 - 1 else if flError e p.val < -(2 ^ 23) then -(2 ^ 23) else flError e p.val) % 2 ^
    24).toNat) p.val (flError e p.val))) ∧
  (∀ (s : State) p periodNs pulse y d e, bit (rd s.dev (TT_FL_CTRL p.val)) 31 = true → flMarks s.dev p.val pulse =
    true → (raster s.dev p.val).had = true → (raster s.dev p.val).vtot ≠ 0 → domUp s.dev 4 = true → (raster s.dev
    p.val).virt = false → y = flPeriod s.dev p.val periodNs → d = onFl s.dev p.val (fun z =>
    { z with lastEdge := s.dev.dt, period := y, edges := z.edges + 1 }) → flInRange d p.val y = true → e = onFl d
    p.val (fun z => { z with out := false }) → ((SMap.get s.dev.tt.fl p.val).edges + 1) % (bits (rd s.dev (TT_FL_CTRL
    p.val)) 21 20 + 1) = 0 → (bit (rd s.dev (TT_FL_CTRL p.val)) 30 && decide (flState s.dev p.val = 0)) = true → exec
    (.framelockRefEdge p ⟨periodNs, pulse⟩) s = after s (setFlState (flJump e p.val) p.val 1)) ∧
  (∀ (s : State) p, flState s.dev p.val = 1 ∨ flState s.dev p.val = 2 → exec (.framelockHoldover p) s = after s
    (flEvent (setFlState s.dev p.val 3) p.val 5)) ∧
  (∀ (s : State) p, flState s.dev p.val = 3 → exec (.framelockHoldoverExpire p) s = after s (onFl (setFlState s.dev
    p.val 0) p.val (fun x => { x with corr := 0 }))) ∧
  (∀ (s : State) a v d n, Written s.dev a TT_CONV_LINE v d n → (raster s.dev (bits n 19 16)).had = true → exec
    (.convStart a v) s = after s
    ({ d with tt := { d.tt with convBusy := true, convRes := convDt d (bits n 19 16) (rd d TT_CONV_FRAME).toNat (bits n 15 0) } })) ∧
  (∀ (s : State), s.dev.tt.convBusy = true → exec .convDone s = after s (wr64
    { s.dev with tt := { s.dev.tt with convBusy := false } } TT_CONV_DT_LO s.dev.tt.convRes)) ∧
  (∀ (s : State) p f0 f t, (platRun s.dev p.val).timingFrame = some f0 → (raster s.dev p.val).had = true → (raster
    s.dev p.val).vtot ≠ 0 → f = max f0 (frameFrom (raster s.dev p.val) s.dev.dt) → t = dtOf (raster s.dev p.val) f 0 →
    exec (.timingTakeEffect p) s = after s (restampAll (forceTiming (advance t s.dev) p.val f t) p.val)) ∧
  (∀ (s : State) p f0 f t, (platRun s.dev p.val).enFrame = some f0 → (raster s.dev p.val).had = true → (raster s.dev
    p.val).vtot ≠ 0 → f = max f0 (frameFrom (raster s.dev p.val) s.dev.dt) → t = dtOf (raster s.dev p.val) f 0 →
    (raster s.dev p.val).virt = true → (fb s.dev (TT_FL_CTRL p.val) TT_FL_CTRL_EN && fb s.dev (TT_FL_CTRL p.val)
    TT_FL_CTRL_JUMP) = false → exec (.rasterStart p) s = after s (restampAll (goReal (setRaster (advance t s.dev)
    p.val
    { (raster s.dev p.val) with fRef := f, lRef := 0, dtRef := t, hold := teHold (advance t s.dev) p.val f (raster s.dev p.val).vtot })
    p.val) p.val)) ∧
  (∀ (s : State) p f0 f t d, (platRun s.dev p.val).disFrame = some f0 → (raster s.dev p.val).had = true → (raster
    s.dev p.val).vtot ≠ 0 → f = max f0 (frameFrom (raster s.dev p.val) s.dev.dt) → t = dtOf (raster s.dev p.val) f 0 →
    d = onPlat (onFl (setRaster (advance t s.dev) p.val
    { (raster s.dev p.val) with fRef := f, lRef := 0, dtRef := t, virt := true, hold := none, corr := 0 }) p.val (fun
    y => { y with corr := 0 })) p.val (fun y =>
    { y with disFrame := none, openStrips := [], late := [], lanes := [], psr := false, psrFrame := none }) → exec
    (.platformDisable p) s = after s (restampAll (showRate (settlePorts (idleSinks (adjustStrips (fs d (SO_PSTAT
    p.val) SO_PSTAT_STATE 0) p.val) (fun x => routeOn (rd s.dev) x && decide (routeSrc (rd s.dev) x = p.val)))))
    p.val))

/-- The rings have their effect (R86 to R95, R101 to R103, R110): a kick of an active ring has its doorbell record read, a
reload takes the table entry or the moderation table, a record that is whole and newer moves PI and CCI, descriptors
are fetched, a hold-off ends with its message, and NOP, SIGNAL, WAIT, CP_WRITE, CP_READ and the commits of R212 and
R236 run. -/
def Obligations.RingsRun : Prop :=
  (∀ (s : State) a f r d, kickArrives a f.val (BitVec.ofNat 32 r.val) s.dev = (d, true) → fnState d f.val = 1 →
    (ringSt d f.val r.val).state = .active → (ringSt d f.val r.val).reading = false → bankerLike d = false →
    d.pm.cut.window = false → (fnSt d f.val).qui.on = false → exec (.kick a f r) s = after s (readDbr d f.val r.val)) ∧
  (∀ (s : State) a f r m d e ws, kickArrives a f.val (BitVec.ofNat 32 (2 ^ 30 + r.val)) s.dev = (d, true) → fnState d
    f.val = 1 → bankerLike d = false → memRead d f.val f.val (fcbAddr d f.val + 64 * r.val) 16 m = (e, .words ws) →
    exec (.reloadRing a f r m) s = after s (takeEntry e f.val r.val ws)) ∧
  (∀ (s : State) a f m d e ws, kickArrives a f.val (BitVec.ofNat 32 (2 ^ 31)) s.dev = (d, true) → fnState d f.val = 1
    → bankerLike d = false → memRead d f.val f.val (fcbAddr d f.val + 0x800) 256 m = (e, .words ws) → modsBad e f.val
    ws = none → exec (.reloadVectors a f m) s = after s (onFn (linkSend e 0x05 ([2 ^ 32 + 9, f.val] ++ ws.map (fun w
    => w.toNat))) f.val (fun x =>
    { x with mods := (List.range 64).foldl (fun t v => SMap.set t v (modOf ws v)) [] }))) ∧
  (∀ (s : State) f r m d ws e, (ringSt s.dev f.val r.val).reading = true → (ringSt s.dev f.val r.val).state = .active
    → memRead s.dev f.val f.val (ringSt s.dev f.val r.val).entry.dbr 16 m = (d, .words ws) → wd ws 0 = wd ws 15 →
    (ringSt d f.val r.val).seqSeen.any (fun z => seqOlder (wd ws 0).toNat z) = false → dbrOverrun (ringSt d f.val
    r.val) (wd ws 1).toNat (wd ws 2).toNat = false → (ringSt d f.val r.val).entry.type ≠ 4 → e = onRing (onRing d
    f.val r.val (fun y => { y with seqSeen := some (wd ws 0).toNat })) f.val r.val (fun y =>
    { y with pi := (wd ws 1).toNat, cci := (wd ws 2).toNat }) → exec (.doorbellRecordArrive f r m) s = after s
    (endRead (issueFetch e f.val r.val) f.val r.val)) ∧
  (∀ (s : State) f r m d ws, (ringSt s.dev f.val r.val).reading = true → (ringSt s.dev f.val r.val).state = .active →
    memRead s.dev f.val f.val (ringSt s.dev f.val r.val).entry.dbr 16 m = (d, .words ws) → wd ws 0 ≠ wd ws 15 →
    (ringSt d f.val r.val).tries < 3 → exec (.doorbellRecordArrive f r m) s = after s (onRing d f.val r.val (fun y =>
    { y with tries := y.tries + 1 }))) ∧
  (∀ (s : State) f r, (ringSt s.dev f.val r.val).reading = true → (ringSt s.dev f.val r.val).tries > 0 → exec
    (.dbrRetry f r) s = after s (emit (advance (s.dev.dt + 1000) s.dev) (.hostRead f.val (ringSt s.dev f.val
    r.val).entry.dbr 64))) ∧
  (∀ (s : State) f r n m d, (ringSt s.dev f.val r.val).state = .active → (ringSt s.dev f.val r.val).entry.type ≠ 4 →
    fnState s.dev f.val = 1 → (fnSt s.dev f.val).qui.on = false → s.dev.pm.cut.window = false → bankerLike s.dev =
    false → s.dev.pair.swapping = false → jobHold s.dev f.val r.val = false → commitHold s.dev f.val r.val = false → d
    = fetchSlots (min n (fetchRoom (ringSt s.dev f.val r.val))) s.dev f.val r.val m → exec (.descriptorArrive f r n m)
    s = after s (purgeRing (if (ringSt d f.val r.val).state = .active then issueFetch d f.val r.val else d) f.val
    r.val)) ∧
  (∀ (s : State) f v, (SMap.get (fnSt s.dev f.val).vecs v.val).pending ≠ 0 → (modEntry s.dev f.val v.val).holdoff ≠ 0
    → exec (.msixHoldoffExpire f v) s = after s (sendMsi (advance ((SMap.get (fnSt s.dev f.val).vecs v.val).oldest +
    (modEntry s.dev f.val v.val).holdoff * 1000) s.dev) f.val v.val)) ∧
  (∀ (s : State) f r q d, Runs s.dev f.val r.val 0x000 [] chkNop q d → exec (.nop f r) s = ran s f.val r.val (complete
    d f.val r.val q.idx stOK)) ∧
  (∀ (s : State) f r q d, Runs s.dev f.val r.val 0x010 [] chkSignal q d → exec (.signal f r) s = ran s f.val r.val
    (settle (liveCount (onLive d f.val r.val q.idx (fun x => { x with cp := none })) f.val + 1) (onLive d f.val r.val
    q.idx (fun x => { x with cp := none })) f.val)) ∧
  (∀ (s : State) f r q d, Runs s.dev f.val r.val 0x020 [] chkWait q d → exec (.wait f r) s = ran s f.val r.val (settle
    (liveCount d f.val + 1) d f.val)) ∧
  (∀ (s : State) f r q d, Runs s.dev f.val r.val 0x030 [] chkCpWrite q d → exec (.cpWrite f r) s = ran s f.val r.val
    (complete (writeEntry d (cpWriteIdx q) (cpWriteEntry f.val q)) f.val r.val q.idx stOK)) ∧
  (∀ (s : State) f r q d e, Runs s.dev f.val r.val 0x040 [] chkCpRead q d → memWrite d f.val f.val (at8 q.words 0x18)
    (wordBytes (cpWords (cpEntry d (bits (at4 q.words 0x10) 9 0)))) = (e, true) → exec (.cpRead f r) s = ran s f.val
    r.val (complete e f.val r.val q.idx stOK)) ∧
  (∀ (s : State) f r tables q0 q d items, (ringSt s.dev f.val r.val).queue.head? = some q0 → commitHolds s.dev f.val
    q0 = false → Runs s.dev f.val r.val 0x200 tables chkCommitHead q d → chkCommitAll d f.val q = .ok items → exec
    (.commitHead f r tables) s = ran s f.val r.val (acceptCommit d f.val (.desc f.val r.val q.idx) (bits (at4 q.words
    0x10) 3 0) (bits (at4 q.words 0x10) 31 16) q.cp (strictOf q.words) false items)) ∧
  (∀ (s : State) a v tables d n, Written s.dev a CM_SI_COMMIT v d n → commitBad s.dev (fb s.dev CM_SI_COMMIT
    CM_SI_COMMIT_BUSY) n = none → exec (.siCommit a v tables) s = after s (commitStage d { fn := 0, island := true }
    (bits n 19 16) (bits n 15 0) tables)) ∧
  (∀ (s : State) a v d n, Written s.dev a CM_CC3_AUTH v d n → locked s.dev 3 = false → exec (.cc3AuthWrite a v) s =
    after s (((bitsOf 32 (rd s.dev CM_CC3_AUTH).toNat).filter (fun f => !hasBit v.toNat f)).foldl demoteCc3 (wr d
    CM_CC3_AUTH (BitVec.ofNat 32 v.toNat))))

/-- A packet that is whole has its effect on the job of its context, and the front end goes on behind it (R154 to R156,
R163, R170 to R174): passes begin, are drawn to and end, state and buffers are bound, dispatches run, calls and
scissors are set, and a time stamp is written. -/
def Obligations.PacketsRun : Prop :=
  (∀ (s : State) c w j, Packet s.dev c.val 0x00 w j → exec (.pktNop c w) s = after s (pktNext (s.dev) c.val (pktN w))) ∧
  (∀ (s : State) c w j, Packet s.dev c.val 0x01 w j → targetOk w j = true → ¬ ((gctx s.dev c.val).pool.pages * 4096 <
    toPages (2 * reserveOf (attsOf w)) ∨ (gctx s.dev c.val).scratch.pages * 4096 < scratchNeed (attsOf w)) → exec
    (.pktTarget c w) s = after s (pktNext (onJob { s.dev with freeCtr := s.dev.freeCtr + 1 } c.val (fun j =>
    { j with pass := some { atts := attsOf w, colours := bits (wd w 1) 3 0, q := reserveOf (attsOf w), used := 0, siding := false, lists := [], ops := [], prims := 0, scissor := [], key := s.dev.freeCtr, held := none } }))
    c.val (pktN w))) ∧
  (∀ (s : State) c w m j d e ws us, Packet s.dev c.val 0x02 w j → pktN w = 2 → j.psos.find? (fun p => decide (p.1 =
    wd64 w 1)) = none → memRead s.dev j.f (jobMid s.dev c.val) (wd64 w 1) 4 m = (d, .words ws) → memRead d j.f (jobMid
    s.dev c.val) (wd64 w 1) (max 4 (cdiv (wd ws 2).toNat 4)) m = (e, .words us) → objOk e us = true → exec (.pktState
    c w m) s = after s (pktNext (onJob e c.val (fun j =>
    { j with pso := wd64 w 1, lock := Config.interlock us % 4, psos := (wd64 w 1, Config.interlock us % 4) :: j.psos }))
    c.val (pktN w))) ∧
  (∀ (s : State) c w m j p, Packet s.dev c.val 0x02 w j → pktN w = 2 → j.psos.find? (fun p => decide (p.1 = wd64 w 1))
    = some p → exec (.pktState c w m) s = after s (pktNext (onJob s.dev c.val (fun j =>
    { j with pso := wd64 w 1, lock := p.2 })) c.val (pktN w))) ∧
  (∀ (s : State) c w j, Packet s.dev c.val 0x03 w j → pktN w = 3 → bits (wd w 1) 31 2 = 0 → exec (.pktBind c w) s =
    after s (pktNext (onJob s.dev c.val (fun j =>
    { j with binds := (bits (wd w 1) 1 0, wd64 w 2) :: j.binds.filter (fun b => b.1 != bits (wd w 1) 1 0) })) c.val
    (pktN w))) ∧
  (∀ (s : State) c w objs prims st j e, Packet s.dev c.val 0x04 w j → pktN w = 4 → j.pass.isSome = true → drawWith
    c.val objs prims st j s.dev = (e, true) → exec (.pktDraw c w ⟨objs, prims⟩ st) s = after s (pktNext (e) c.val
    (pktN w))) ∧
  (∀ (s : State) c w objs prims st j e, Packet s.dev c.val 0x05 w j → pktN w = 7 → j.pass.isSome = true → bit (wd w 6)
    1 = false → drawWith c.val objs prims st j s.dev = (e, true) → exec (.pktDrawIndexed c w ⟨objs, prims⟩ st) s =
    after s (pktNext (e) c.val (pktN w))) ∧
  (∀ (s : State) c w m objs prims st j e, Packet s.dev c.val 0x06 w j → pktN w = 5 → j.pass.isSome = true → bits (wd w
    5) 31 1 = 0 → (if (if (wd w 3).toNat = 0 then 0 else ((wd w 3).toNat - 1) * (wd w 4).toNat + (if bit (wd w 5) 0
    then 20 else 16)) = 0 then none else firstFault s.dev j.f false m.ats (pagesOf (wd64 w 1) (if (wd w 3).toNat = 0
    then 0 else ((wd w 3).toNat - 1) * (wd w 4).toNat + (if bit (wd w 5) 0 then 20 else 16)))) = none → (m.ecc ||
    (readPages (pagesFuel (if (wd w 3).toNat = 0 then 0 else ((wd w 3).toNat - 1) * (wd w 4).toNat + (if bit (wd w 5)
    0 then 20 else 16))) s.dev j.f (wd64 w 1) 0 (if (wd w 3).toNat = 0 then 0 else ((wd w 3).toNat - 1) * (wd w
    4).toNat + (if bit (wd w 5) 0 then 20 else 16)) []).isNone) = false → drawWith c.val objs prims st j s.dev = (e,
    true) → exec (.pktDrawIndirect c w m ⟨objs, prims⟩ st) s = after s (pktNext (e) c.val (pktN w))) ∧
  (∀ (s : State) c w j, Packet s.dev c.val 0x07 w j → pktN w = 7 → j.pass.isSome = true → bits (wd w 1) 31 10 = 0 →
    bits (wd w 7) 31 8 = 0 → exec (.pktClear c w) s = after s (pktNext (onPass s.dev c.val (fun p =>
    { p with ops := p.ops ++ [.clear (clearOf w)] })) c.val (pktN w))) ∧
  (∀ (s : State) c w j p e, Packet s.dev c.val 0x08 w j → pktN w = 0 → j.pass.isSome = true → j.pass = some p →
    loadFault s.dev j p = none → loadBad s.dev j p = false → storePass (tellBadBlocks s.dev c.val j p) c.val j p false
    = (e, true) → exec (.pktPassEnd c w) s = after s (pktNext (noteWrote (onJob e c.val (fun j =>
    { j with pass := none })) c.val ((attStored p false).flatMap attRegions)) c.val (pktN w))) ∧
  (∀ (s : State) c w st j e, Packet s.dev c.val 0x09 w j → pktN w = 3 → j.pass.isNone = true → shaderStores (noteWrote
    s.dev c.val (st.map (fun s => (s.iova.toNat, s.bytes.length)))) j.f (jobMid s.dev c.val) (orderStores j.lock st) =
    (e, true) → exec (.pktDispatch c w st) s = after s (pktNext (e) c.val (pktN w))) ∧
  (∀ (s : State) c w m st j d e ws, Packet s.dev c.val 0x0A w j → pktN w = 2 → j.pass.isNone = true → memRead s.dev
    j.f (jobMid s.dev c.val) (wd64 w 1) 3 m = (d, .words ws) → shaderStores (noteWrote d c.val (st.map (fun s =>
    (s.iova.toNat, s.bytes.length)))) j.f (jobMid d c.val) (orderStores j.lock st) = (e, true) → exec
    (.pktDispatchIndirect c w m st) s = after s (pktNext (e) c.val (pktN w))) ∧
  (∀ (s : State) c w j, Packet s.dev c.val 0x0B w j → pktN w = 1 → bits (wd w 1) 31 2 = 0 → exec (.pktBarrier c w) s =
    after s (pktNext (s.dev) c.val (pktN w))) ∧
  (∀ (s : State) c w j, Packet s.dev c.val 0x0C w j → pktN w = 3 → j.call.isNone = true → exec (.pktCall c w) s =
    after s (gpuRun (onJob (pktNext s.dev c.val 3) c.val (fun x =>
    { x with call := (if wd w 3 = 0 then none else some { at0 := j.off, pos := 0, len := (wd w 3).toNat }) })))) ∧
  (∀ (s : State) c w j e, Packet s.dev c.val 0x0D w j → pktN w = 2 → memWrite (noteWrote s.dev c.val [(wd64 w 1, 8)])
    j.f (jobMid s.dev c.val) (wd64 w 1) (leBytes 8 s.dev.dt) = (e, true) → exec (.pktTimestamp c w) s = after s
    (pktNext (e) c.val (pktN w))) ∧
  (∀ (s : State) c w j, Packet s.dev c.val 0x0E w j → pktN w = 2 → j.pass.isSome = true → exec (.pktScissor c w) s =
    after s (pktNext (onPass s.dev c.val (fun p => { p with scissor := [wd w 1, wd w 2] })) c.val (pktN w)))

/-- The work of the GPU has its effect (R145 to R152, R157 to R162, R175 to R200): jobs, contexts and tile pools are
taken, a job ends, slots yield at a clear, at a budget or at a time partition and are preempted, and dead clusters,
reliefs and tests change the cluster map. -/
def Obligations.GpuJobsRun : Prop :=
  (∀ (s : State) f r q d, jobsOf s.dev f.val ≠ ptJobMax s.dev f.val → Runs s.dev f.val r.val 0x100 [] chkJobSubmit q d
    → exec (.jobSubmit f r) s = ran s f.val r.val (if q.cp.isSome then d else gpuRun (onLive d f.val r.val q.idx (fun
    x => { x with rel := d.dt })))) ∧
  (∀ (s : State) f r q d, Runs s.dev f.val r.val 0x110 [] chkCtxSetup q d → exec (.ctxSetup f r) s = ran s f.val r.val
    (gpuRun (onLive d f.val r.val q.idx (fun x => { x with cp := none })))) ∧
  (∀ (s : State) f r q d, Runs s.dev f.val r.val 0x140 [] chkTilePool q d → exec (.tilePool f r) s = ran s f.val r.val
    (gpuRun (onLive d f.val r.val q.idx (fun x => { x with cp := none })))) ∧
  (∀ (s : State) f r q d, Runs s.dev f.val r.val 0x120 [] chkCtxDestroy q d → exec (.ctxDestroy f r) s = ran s f.val
    r.val (gpuRun (complete (freeCtx d (ctxOfRing d f.val r.val) stABORTED (some q.seq)) f.val r.val q.idx stOK))) ∧
  (∀ (s : State) f r q d p, Runs s.dev f.val r.val 0x130 [] chkJobCancel q d → jobByTag d f.val r.val (bits (at4
    q.words 0x10) 15 0) = some p → exec (.jobCancel f r) s = ran s f.val r.val (gpuRun (complete (if runsNow d
    (ctxOfRing d f.val r.val) f.val r.val p.idx then endJob d (ctxOfRing d f.val r.val) stABORTED 0 else cancelQueued
    d (ctxOfRing d f.val r.val) f.val r.val p.idx) f.val r.val q.idx stOK))) ∧
  (∀ (s : State) f r q d, Runs s.dev f.val r.val 0x130 [] chkJobCancel q d → jobByTag d f.val r.val (bits (at4 q.words
    0x10) 15 0) = none → exec (.jobCancel f r) s = ran s f.val r.val (complete d f.val r.val q.idx stOK 1)) ∧
  (∀ (s : State) c j, (gctx s.dev c.val).job = some j → (gctx s.dev c.val).state = 2 → j.call.isSome = false → ¬ j.off
    < j.dwords → exec (.jobComplete c) s = after s (if j.pass.isSome then endJobRun s.dev c.val stBAD_DESC 0 else
    endJobRun s.dev c.val stOK 0)) ∧
  (∀ (s : State) c t iova wr lost j, (gctx s.dev c.val).job = some j → (gctx s.dev c.val).state = 2 → exec (.jobFault
    c ⟨.translation t iova wr, lost⟩) s = after s (endJobRun (noteFault (noteWrote s.dev c.val lost) j.f (jobMid
    (noteWrote s.dev c.val lost) c.val) t.val iova.toNat wr) c.val stERR_FAULT (jobOffset j))) ∧
  (∀ (s : State) c lost j, (gctx s.dev c.val).job = some j → (gctx s.dev c.val).state = 2 → exec (.jobFault c ⟨.ecc,
    lost⟩) s = after s (endJobRun (noteWrote s.dev c.val lost) c.val stERR_ECC (jobOffset j))) ∧
  (∀ (s : State) c f rel dl d, clearJob s.dev c.val = some (f, rel, dl) → d = advance (clearPoint s.dev rel dl) s.dev
    → ownPoints d = true → exec (.clearLine c) s = after s (gpuRun ((clearSlots d f).foldl (fun d i => if (gslot d
    i).ctx.any (fun k => !(gctx d k).express) then yieldSlot d i (d.dt + graceOf d) else d)
    { d with gpu := { d.gpu with clears := SMap.set d.gpu.clears c.val (maskOfList (clearSlots d f)) } }))) ∧
  (∀ (s : State) sl c, (gslot s.dev sl.val).ctx = some c → (gslot s.dev sl.val).yields = true → (gslot s.dev
    sl.val).saving = none → exec (.softYieldDone sl) s = after s (gpuRun (preemptSlot (saveSlot s.dev c false)
    sl.val))) ∧
  (∀ (s : State) sl c d, (gslot s.dev sl.val).ctx = some c → (gslot s.dev sl.val).yields = true → (gslot s.dev
    sl.val).saving = none → (gslot s.dev sl.val).graceEnd ≠ 0 → d = onSlot (advance (gslot s.dev sl.val).graceEnd
    s.dev) sl.val (fun x => { x with saving := some (advance (gslot s.dev sl.val).graceEnd s.dev).dt }) → exec
    (.hardPreempt sl) s = after s (((slotCluster d sl.val).map (fun k => count d (182 + 4 * k + 3))).getD d)) ∧
  (∀ (s : State) sl t c d, (gslot s.dev sl.val).saving = some t → (gslot s.dev sl.val).ctx = some c → d = preemptSlot
    (saveSlot (advance (t + 3414) s.dev) c true) sl.val → exec (.saveFirstPartDone sl) s = after s (gpuRun (if (gctx d
    c).job.isSome then onSlot d sl.val (fun x => { x with tail := some (c, t + 11147) }) else d))) ∧
  (∀ (s : State) c n d e, n = (slotsHeld s.dev c.val).length → charges s.dev c.val = true → n ≠ 0 → (gctx s.dev
    c.val).spent = false → d = chargeCtx (advance (s.dev.dt + cdiv ((gctx s.dev c.val).budget * 16000 - (gctx
    (chargeCtx s.dev c.val) c.val).charge) n) s.dev) c.val → e = onCtx d c.val (fun x =>
    { x with spent := true, told := true }) → exec (.budgetExhausted c) s = after s (let x := (if fb e GX_SCHED_CTRL
    GX_SCHED_CTRL_BUDGET_EVT = true ∧ (!(gctx d c.val).told) = true then jobEvent e c.val 0x11 (gctx s.dev
    c.val).budget else e); gpuRun { x with gpu := { x.gpu with clears := SMap.erase x.gpu.clears c.val } })) ∧
  (∀ (s : State) x d, x = raster s.dev (fg s.dev GX_SCHED_CTRL GX_SCHED_CTRL_BUDGET_PLAT) → d = (if x.had ∧ x.vtot ≠ 0
    ∧ absAt x s.dev.dt % x.vtot ≠ 0 then advance (dtOf x (absAt x s.dev.dt / x.vtot + 1) 0) s.dev else s.dev) →
    ownPoints d = true → exec .budgetReset s = after s (gpuRun ((d.gpu.ctxs.map (fun q => q.1)).foldl (fun d c =>
    onCtx (chargeCtx d c) c (fun y => { y with charge := 0, spent := false, told := false })) d))) ∧
  (∀ (s : State) f p d, p = fg s.dev HS_TP_CTRL HS_TP_CTRL_REF → tpActive s.dev = true → ptValid s.dev f.val = true →
    ptTimePart s.dev f.val = true → (raster s.dev p).had = true → ¬ ptTpStart s.dev f.val ≥ (raster s.dev p).vtot →
    s.dev.gpu.windows.contains f.val = false → d = chargeAll (advance (lineStart s.dev p (ptTpStart s.dev f.val))
    s.dev) → ownPoints d = true → exec (.tpWindowStart f) s = after s (gpuRun
    { d with gpu := { d.gpu with windows := d.gpu.windows ++ [f.val] } })) ∧
  (∀ (s : State) f p e d, s.dev.gpu.windows.contains f.val = true → p = fg s.dev HS_TP_CTRL HS_TP_CTRL_REF → e =
    ptTpStart s.dev f.val + ptTpLen s.dev f.val → d = (if (raster s.dev p).had = true ∧ (raster s.dev p).vtot ≠ 0 then
    advance (lineStart s.dev p (if e < (raster s.dev p).vtot then e else 0)) s.dev else s.dev) → ownPoints d = true →
    exec (.tpWindowEnd f) s = after s (gpuRun
    { chargeAll d with gpu := { (chargeAll d).gpu with windows := (chargeAll d).gpu.windows.filter (fun w => w != f.val) } })) ∧
  (∀ (s : State) k cause i, clState s.dev k.val = 0 → (List.range 16).find? (fun i => decide (slotCluster s.dev i =
    some k.val)) = some i → ¬ (deathCode cause = 1 ∧ (gslot s.dev i).ctx.isNone = true) → exec (.clusterDead k cause)
    s = after s (gpuRun (saveMap (relieve (recoverWork (rasterEvent (retireCluster s.dev k.val (deathCode cause)) 0x12
    (k.val + deathCode cause * 256 + i * 65536)) i k.val true) (k.val / 5) (i % 4))))) ∧
  (∀ (s : State) k cause, clState s.dev k.val = 1 → deathCode cause ≠ 1 → exec (.clusterDead k cause) s = after s
    (spareDies s.dev k.val (deathCode cause))) ∧
  (∀ (s : State) g i o e, SMap.get s.dev.gpu.relief g.val = some i → o = fg s.dev (GX_CLMAP g.val) GX_CLMAP_SPARE → e
    = setClState (fs { s.dev with gpu := { s.dev.gpu with relief := SMap.erase s.dev.gpu.relief g.val } } (GX_CLMAP
    g.val) (clmapFld i) o) (5 * g.val + o) 0 (4 * g.val + i) → exec (.reliefDone g) s = after s (gpuRun (fillEmpty
    (rasterEvent (saveMap (fs e (GX_CLMAP g.val) GX_CLMAP_SPARE (spareOf e g.val))) 0x13 (5 * g.val + o + (4 * g.val +
    i) * 65536)) g.val))) ∧
  (∀ (s : State) k i, (List.range 16).find? (fun i => decide (slotCluster s.dev i = some k.val)) = some i → clState
    s.dev k.val = 0 → exec (.ldsEccError k) s = after s (gpuRun (recoverWork s.dev i k.val true))) ∧
  (∀ (s : State) k isWr, clState s.dev k.val = 2 → s.dev.gpu.posted.contains k.val = true → exec (.posthumous k isWr)
    s = after s (notePosthumous s.dev k.val isWr)) ∧
  (∀ (s : State) k isWr, clState s.dev k.val = 2 → s.dev.gpu.posted.contains k.val = false → exec (.posthumous k isWr)
    s = after s (tellPosthumous (notePosthumous s.dev k.val isWr) k.val isWr)) ∧
  (∀ (s : State) a v d n, Written s.dev a GX_BIST v d n → a.mid.toNat = 0 → fb s.dev GX_BIST GX_BIST_START = false →
    bit v 31 = true → clState s.dev (bits v 4 0) = 2 → exec (.bistStart a v) s = after s (startBist (saveMap (fs
    (setClState d (bits v 4 0) 3 0x1F) GX_BIST GX_BIST_RESULT 0)) (8 + bits v 4 0 / 5))) ∧
  (∀ (s : State) pass k e, fb s.dev GX_BIST GX_BIST_START = true → k = fg s.dev GX_BIST GX_BIST_CLUSTER → e =
    bistResult pass s.dev → exec (.bistDone pass) s = after s (if modeHeldOff e (8 + k / 5) ∧ domState e (8 + k / 5) ≠
    5 then modeOffDomain e (8 + k / 5) else e)) ∧
  (∀ (s : State) k, fb s.dev GX_BIST GX_BIST_START = true → k = fg s.dev GX_BIST GX_BIST_CLUSTER → bistResult false
    s.dev = saveMap (fs (setClState (rasterEvent (fs (fs s.dev GX_BIST GX_BIST_START 0) GX_BIST GX_BIST_RESULT 2) 0x16
    (k + 0)) k 2 0x1F) (GX_CL_STAT k) GX_CL_STAT_CAUSE 4)) ∧
  (∀ (s : State) k e, fb s.dev GX_BIST GX_BIST_START = true → k = fg s.dev GX_BIST GX_BIST_CLUSTER → e = setClState
    (rasterEvent (fs (fs s.dev GX_BIST GX_BIST_START 0) GX_BIST GX_BIST_RESULT 1) 0x16 (k + 256)) k 1 0x1F →
    bistResult true s.dev = fillEmpty (saveMap (if fg e (GX_CLMAP (k / 5)) GX_CLMAP_SPARE ≤ 4 then e else fs e
    (GX_CLMAP (k / 5)) GX_CLMAP_SPARE (k % 5))) (k / 5))

/-- Buffer descriptors have their effect (R239, R242, R246 to R248, R257, R258): a buffer is created at a free entry,
released or destroyed when its references are gone, its state is written on a query, and a claim on the Skein pool is
taken. -/
def Obligations.BuffersRun : Prop :=
  (∀ (s : State) f r q d i e, Runs s.dev f.val r.val 0x300 [] chkBufCreate q d → bankerLike d = false → i =
    (freeEntries d).getD ((takeFree d).1 % (freeEntries d).length) 0 → e = createEntry (takeFree d).2 i f.val (atN
    q.words 0x10 8) → exec (.bufCreate f r) s = ran s f.val r.val (complete (sendBuf e i) f.val r.val q.idx stOK
    (handleOf e i).toNat)) ∧
  (∀ (s : State) f r q d, Runs s.dev f.val r.val 0x320 [] chkHandle q d → refsOf d (handleIdx (at4 q.words 0x10)) = []
    → exec (.bufRelease f r) s = ran s f.val r.val (complete d f.val r.val q.idx stOK 1)) ∧
  (∀ (s : State) f r q d, Runs s.dev f.val r.val 0x320 [] chkHandle q d → refsOf d (handleIdx (at4 q.words 0x10)) ≠ []
    → exec (.bufRelease f r) s = ran s f.val r.val (onBuf d (handleIdx (at4 q.words 0x10)) (fun e =>
    { e with waits := e.waits ++ [{ fn := f.val, ring := r.val, idx := q.idx, upto := d.nextCommit, destroy := false, dt := d.dt }] }))) ∧
  (∀ (s : State) f r q d, Runs s.dev f.val r.val 0x310 [] chkHandle q d → refsOf (sendBuf (onBuf d (handleIdx (at4
    q.words 0x10)) (fun e => { e with state := 2 })) (handleIdx (at4 q.words 0x10))) (handleIdx (at4 q.words 0x10)) =
    [] → exec (.bufDestroy f r) s = ran s f.val r.val (freeEntry (complete (sendBuf (onBuf d (handleIdx (at4 q.words
    0x10)) (fun e => { e with state := 2 })) (handleIdx (at4 q.words 0x10))) f.val r.val q.idx stOK 1) (handleIdx (at4
    q.words 0x10)))) ∧
  (∀ (s : State) f r q d, Runs s.dev f.val r.val 0x310 [] chkHandle q d → refsOf (sendBuf (onBuf d (handleIdx (at4
    q.words 0x10)) (fun e => { e with state := 2 })) (handleIdx (at4 q.words 0x10))) (handleIdx (at4 q.words 0x10)) ≠
    [] → exec (.bufDestroy f r) s = ran s f.val r.val (onBuf (sendBuf (onBuf d (handleIdx (at4 q.words 0x10)) (fun e
    => { e with state := 2 })) (handleIdx (at4 q.words 0x10))) (handleIdx (at4 q.words 0x10)) (fun e =>
    { e with waits := e.waits ++ [{ fn := f.val, ring := r.val, idx := q.idx, upto := (sendBuf (onBuf d (handleIdx (at4 q.words 0x10)) (fun e => { e with state := 2 })) (handleIdx (at4 q.words 0x10))).nextCommit, destroy := true, dt := (sendBuf (onBuf d (handleIdx (at4 q.words 0x10)) (fun e => { e with state := 2 })) (handleIdx (at4 q.words 0x10))).dt }] }))) ∧
  (∀ (s : State) f r q d c n e, Runs s.dev f.val r.val 0x330 [] chkSkeinReserve q d → c = bits (at4 q.words 0x10) 31
    30 → n = bits (at4 q.words 0x10) 13 0 → e =
    { linkSend d 0x05 [2 ^ 32 + 2, f.val, c, n] with buf := { (linkSend d 0x05 [2 ^ 32 + 2, f.val, c, n]).buf with claims := SMap.set (linkSend d 0x05 [2 ^ 32 + 2, f.val, c, n]).buf.claims (4 * f.val + c) n } }
    → exec (.skeinReserve f r) s = ran s f.val r.val (complete (if n < claimOf d f.val c then showSkein
    { e with buf := { e.buf with runs := trimRuns (fun x => decide (x.pool = 4 + c) && decide (x.fn = f.val) && !x.lent) n e.buf.runs } }
    else e) f.val r.val q.idx stOK (claimsWith (if n < claimOf d f.val c then showSkein
    { e with buf := { e.buf with runs := trimRuns (fun x => decide (x.pool = 4 + c) && decide (x.fn = f.val) && !x.lent) n e.buf.runs } }
    else e) f.val c n))) ∧
  (∀ (s : State) f r q d x e, Runs s.dev f.val r.val 0x340 [] chkBufQuery q d → x = bufEntry d (handleIdx (at4 q.words
    0x10)) → memWrite d f.val f.val (at8 q.words 0x18) (wordBytes (x.words ++ [BitVec.ofNat 32 (x.state * 2 ^ 30 + sat
    (refsOf d (handleIdx (at4 q.words 0x10))).length 65535), BitVec.ofNat 32 (sat (x.waits.filter (fun w =>
    !w.destroy)).length 65535), 0, 0, 0, 0, 0, 0])) = (e, true) → exec (.bufQuery f r) s = ran s f.val r.val (complete
    e f.val r.val q.idx stOK))

/-- Scan-out has its effect (R266, R267, R269, R271 to R277, R279, R280, R283, R285, R286): a DPLL write drops its lock
and the lock comes back, a route goes idle and a sink goes live at a frame boundary, a link trains or fails, a mute is
applied, AUX commands are sent, answered and time out, hot plug, acknowledges and tearing effects are followed, an
underflow is counted and told, and panel self-refresh is entered and left. -/
def Obligations.ScanOutRuns : Prop :=
  (∀ (s : State) a k w v d n, Written s.dev a (if w.val = 0 then SO_DPLL_W0 k.val else SO_DPLL_W1 k.val) v d n →
    dpllUsed s.dev k.val = false → (if w.val = 0 then dpllRangeOk n (rd s.dev (SO_DPLL_W1 k.val)) else dpllRangeOk (rd
    s.dev (SO_DPLL_W0 k.val)) n) = true → exec (.dpllWrite a k w v) s = after s (fs d (SO_DPLL_W2 k.val)
    SO_DPLL_W2_LOCK 0)) ∧
  (∀ (s : State) k, fb s.dev (SO_DPLL_W0 k.val) SO_DPLL_W0_EN = true → exec (.dpllLock k) s = after s (fs (fs s.dev
    (SO_DPLL_W2 k.val) SO_DPLL_W2_LOCK 1) (SO_DPLL_W2 k.val) SO_DPLL_W2_FREQ_KHZ ((dpllHz s.dev k.val).1 / (dpllHz
    s.dev k.val).2 / 1000))) ∧
  (∀ (s : State) k q d, (SMap.get s.dev.scan.routes k.val).on = true → q = sinkPort k.val → (SMap.get
    s.dev.scan.routes k.val).old.filter (fun p => scans s.dev p) = none → d = idleSinks (onScan (s.dev) (fun x =>
    { x with routes := SMap.set x.routes k.val default })) (fun o => decide (o = k.val)) → (SMap.get s.dev.scan.routes
    k.val).retrain = false → exec (.routeIdle k) s = after s (showSlots (settlePorts d) q)) ∧
  (∀ (s : State) k q d, (SMap.get s.dev.scan.routes k.val).on = true → q = sinkPort k.val → (SMap.get
    s.dev.scan.routes k.val).old.filter (fun p => scans s.dev p) = none → d = idleSinks (onScan (s.dev) (fun x =>
    { x with routes := SMap.set x.routes k.val default })) (fun o => decide (o = k.val)) → (SMap.get s.dev.scan.routes
    k.val).retrain = true → portState d q = 2 ∨ portState d q = 3 → exec (.routeIdle k) s = after s (beginTrain d q)) ∧
  (∀ (s : State) k q p d, (SMap.get s.dev.scan.routes k.val).on = true → q = sinkPort k.val → (SMap.get
    s.dev.scan.routes k.val).old.filter (fun p => scans s.dev p) = some p → d = idleSinks (onScan (advance (dtOfAbs
    (raster s.dev p) (blankFrom (raster s.dev p) (SMap.get s.dev.scan.routes k.val).from0 s.dev.dt)) s.dev) (fun x =>
    { x with routes := SMap.set x.routes k.val default })) (fun o => decide (o = k.val)) → (SMap.get s.dev.scan.routes
    k.val).retrain = false → exec (.routeIdle k) s = after s (showSlots (settlePorts d) q)) ∧
  (∀ (s : State) k q p d, (SMap.get s.dev.scan.routes k.val).on = true → q = sinkPort k.val → (SMap.get
    s.dev.scan.routes k.val).old.filter (fun p => scans s.dev p) = some p → d = idleSinks (onScan (advance (dtOfAbs
    (raster s.dev p) (blankFrom (raster s.dev p) (SMap.get s.dev.scan.routes k.val).from0 s.dev.dt)) s.dev) (fun x =>
    { x with routes := SMap.set x.routes k.val default })) (fun o => decide (o = k.val)) → (SMap.get s.dev.scan.routes
    k.val).retrain = true → portState d q = 2 ∨ portState d q = 3 → exec (.routeIdle k) s = after s (beginTrain d q)) ∧
  (∀ (s : State) k, mayGoLive s.dev k.val = true → exec (.sinkLive k) s = after s (goLive (advance (nextFrameDt s.dev
    (routeSrc (rd s.dev) k.val)) s.dev) k.val)) ∧
  (∀ (s : State) p d, portState s.dev p.val = 1 → p.val < 4 → d = showSlots (setPortState (onScan s.dev (fun x =>
    { x with attempts := SMap.set x.attempts p.val 0 })) p.val 2) p.val → exec (.linkTrainDone p true) s = after s
    (portEvent d 0x23 p.val (fg d (SO_DP_CFG p.val) SO_DP_CFG_RATE))) ∧
  (∀ (s : State) p d, portState s.dev p.val = 1 → ¬ p.val < 4 → p.val < 12 → d = showSlots (setPortState (onScan s.dev
    (fun x => { x with attempts := SMap.set x.attempts p.val 0 })) p.val 2) p.val → exec (.linkTrainDone p true) s =
    after s (portEvent d 0x23 p.val (fg d (SO_AP_CFG (p.val - 4)) SO_AP_CFG_GEAR))) ∧
  (∀ (s : State) p d, portState s.dev p.val = 1 → ¬ p.val < 4 → ¬ p.val < 12 → d = showSlots (setPortState (onScan
    s.dev (fun x => { x with attempts := SMap.set x.attempts p.val 0 })) p.val 2) p.val → exec (.linkTrainDone p true)
    s = after s (portEvent (takeFree d).2 0x23 p.val ((takeFree d).1 % 2 ^ 32))) ∧
  (∀ (s : State) p d, portState s.dev p.val = 1 → (SMap.get s.dev.scan.attempts p.val + 1) ≥ 3 → d = (if p.val < 4
    then bump s.dev (SO_DP_STAT p.val) SO_DP_STAT_TRAIN_FAILS else s.dev) → exec (.linkTrainDone p false) s = after s
    (portEvent (dropPort (onScan d (fun x => { x with attempts := SMap.set x.attempts p.val 0 })) p.val 0) 0x25 p.val
    (SMap.get s.dev.scan.attempts p.val + 1))) ∧
  (∀ (s : State) p d, portState s.dev p.val = 1 → ¬ (SMap.get s.dev.scan.attempts p.val + 1) ≥ 3 → d = onScan (if
    p.val < 4 then bump s.dev (SO_DP_STAT p.val) SO_DP_STAT_TRAIN_FAILS else s.dev) (fun x =>
    { x with attempts := SMap.set x.attempts p.val (SMap.get s.dev.scan.attempts p.val + 1) }) → exec (.linkTrainDone
    p false) s = after s (if 4 ≤ p.val ∧ p.val < 12 then d else count d (426 + 2 * p.val + 1))) ∧
  (∀ (s : State) a v d n, Written s.dev a SO_MUTE v d n → exec (.muteWrite a v) s = after s (d)) ∧
  (∀ (s : State) p, hasBit (fg s.dev SO_MUTE SO_MUTE_MUTE) p.val = true → portState s.dev p.val = 3 → exec (.muteApply
    p) s = after s (dropPort ((byTime (fun x => nextFrameDt s.dev (routeSrc (rd s.dev) x)) ((portSinks p.val).filter
    (fun x => isLive s.dev x && scans s.dev (routeSrc (rd s.dev) x)))).foldl (fun e x => idleSinks (advance
    (nextFrameDt s.dev (routeSrc (rd s.dev) x)) e) (fun o => decide (o = x))) s.dev) p.val 2)) ∧
  (∀ (s : State) p, hasBit (fg s.dev SO_MUTE SO_MUTE_MUTE) p.val = false → portState s.dev p.val = 2 → exec
    (.muteApply p) s = after s ((byTime (fun x => nextFrameDt s.dev (routeSrc (rd s.dev) x)) ((portSinks p.val).filter
    (mayGoLive s.dev))).foldl (fun e x => goLive (advance (nextFrameDt s.dev (routeSrc (rd s.dev) x)) e) x) s.dev)) ∧
  (∀ (s : State) a p v d n, Written s.dev a (SO_AUX_CMD p.val) v d n → auxBusy s.dev p.val = false → bit n 31 = true →
    bits n 29 28 = 0 → exec (.auxNativeWrite a p v) s = after s (auxSend (onScan d (fun x =>
    { x with auxTries := SMap.set x.auxTries p.val 0 })) p.val)) ∧
  (∀ (s : State) a p v d n, Written s.dev a (SO_AUX_CMD p.val) v d n → auxBusy s.dev p.val = false → bit n 31 = true →
    bits n 29 28 = 1 → exec (.auxNativeRead a p v) s = after s (auxSend (onScan d (fun x =>
    { x with auxTries := SMap.set x.auxTries p.val 0 })) p.val)) ∧
  (∀ (s : State) a p v d n, Written s.dev a (SO_AUX_CMD p.val) v d n → auxBusy s.dev p.val = false → bit n 31 = true →
    bits n 29 28 = 2 → exec (.auxI2cWrite a p v) s = after s (auxSend (onScan d (fun x =>
    { x with auxTries := SMap.set x.auxTries p.val 0 })) p.val)) ∧
  (∀ (s : State) a p v d n, Written s.dev a (SO_AUX_CMD p.val) v d n → auxBusy s.dev p.val = false → bit n 31 = true →
    bits n 29 28 = 3 → exec (.auxI2cRead a p v) s = after s (auxSend (onScan d (fun x =>
    { x with auxTries := SMap.set x.auxTries p.val 0 })) p.val)) ∧
  (∀ (s : State) p bytes, auxBusy s.dev p.val = true → fg s.dev (SO_AUX_CMD p.val) SO_AUX_CMD_CMD % 2 = 0 → exec
    (.auxReply p (.ack bytes)) s = after s (auxEnd s.dev p.val 0 ((fg s.dev (SO_AUX_CMD p.val) SO_AUX_CMD_LEN + 1) -
    1))) ∧
  (∀ (s : State) p bytes bs, auxBusy s.dev p.val = true → fg s.dev (SO_AUX_CMD p.val) SO_AUX_CMD_CMD % 2 = 1 → bs =
    bytes.take (fg s.dev (SO_AUX_CMD p.val) SO_AUX_CMD_LEN + 1) → exec (.auxReply p (.ack bytes)) s = after s (if bs =
    [] then auxFail s.dev p.val 0 else auxEnd (auxStore s.dev p.val bs) p.val 0 (bs.length - 1))) ∧
  (∀ (s : State) p, auxBusy s.dev p.val = true → exec (.auxReply p .nack) s = after s (auxFail s.dev p.val 1)) ∧
  (∀ (s : State) p, auxBusy s.dev p.val = true → SMap.get s.dev.scan.auxTries p.val < 7 → exec (.auxReply p .defer) s
    = after s (auxSend (onScan s.dev (fun x =>
    { x with auxTries := SMap.set x.auxTries p.val (SMap.get s.dev.scan.auxTries p.val + 1) })) p.val)) ∧
  (∀ (s : State) p, auxBusy s.dev p.val = true → ¬ SMap.get s.dev.scan.auxTries p.val < 7 → exec (.auxReply p .defer)
    s = after s (auxFail s.dev p.val 2)) ∧
  (∀ (s : State) p, auxBusy s.dev p.val = true → exec (.auxTimeout p) s = after s (auxFail s.dev p.val 3)) ∧
  (∀ (s : State) p, fb s.dev (SO_DP_STAT p.val) SO_DP_STAT_HPD = false → exec (.hpdPlug p) s = after s (startPort
    (portEvent (fs s.dev (SO_DP_STAT p.val) SO_DP_STAT_HPD 1) 0x20 p.val 0) p.val)) ∧
  (∀ (s : State) p, fb s.dev (SO_DP_STAT p.val) SO_DP_STAT_HPD = true → exec (.hpdUnplug p) s = after s (portOff
    (portEvent (fs s.dev (SO_DP_STAT p.val) SO_DP_STAT_HPD 0) 0x21 p.val 0) p.val 0)) ∧
  (∀ (s : State) p lost, fb s.dev (SO_DP_STAT p.val) SO_DP_STAT_HPD = true → exec (.hpdIrq p lost) s = after s (if
    lost then linkLoss (portEvent s.dev 0x22 p.val 0) p.val 1 else portEvent s.dev 0x22 p.val 0)) ∧
  (∀ (s : State) q sent, portState s.dev (q.val + 4) = 2 ∨ portState s.dev (q.val + 4) = 3 → sent.val < 2 → exec
    (.aphyAckTimeout q sent) s = after s (count (bump s.dev (SO_AP_STAT q.val) SO_AP_STAT_RETRANS) (426 + 2 * (q.val +
    4) + 1))) ∧
  (∀ (s : State) q sent n d, portState s.dev (q.val + 4) = 2 ∨ portState s.dev (q.val + 4) = 3 → ¬ sent.val < 2 → n =
    (if (SMap.get s.dev.scan.drops q.val).frame = portFrame s.dev (q.val + 4) then (SMap.get s.dev.scan.drops q.val).n
    + 1 else 1) → d = onScan (bump s.dev (SO_AP_STAT q.val) SO_AP_STAT_DROPS) (fun x =>
    { x with drops := SMap.set x.drops q.val { frame := portFrame s.dev (q.val + 4), n := if n ≥ 8 then 0 else n } })
    → exec (.aphyAckTimeout q sent) s = after s (if n ≥ 8 then linkLoss d (q.val + 4) 2 else d)) ∧
  (∀ (s : State) (t : Fin 4) (e : Pulse), ¬ e.lenNs < 100 → exec (.teEdge ⟨t, e⟩) s = after s (((List.range 2).filter
    (fun k => decide (fg s.dev (SO_DS_CFG k) SO_DS_CFG_TE_SEL = t.val) && (e.rising != fb s.dev (SO_DS_CFG k)
    SO_DS_CFG_TE_POL))).foldl teEdgeAt s.dev)) ∧
  (∀ (s : State) k p h t d, teSource s.dev k.val = some p → (raster s.dev p).hold = some h → scans s.dev p = true → t
    = dtOfAbs (raster s.dev p) (h + fg s.dev (SO_DS_TE k.val) SO_DS_TE_TE_TIMEOUT) → d = bump (advance t s.dev)
    (SO_DS_STAT k.val) SO_DS_STAT_TE_MISSED → exec (.teTimeout k) s = after s (teRelease (platEvent d 0x27 p (h /
    (raster s.dev p).vtot)) p (max t s.dev.dt))) ∧
  (∀ (s : State) p line x f d e g, scans s.dev p.val = true → (platRun s.dev p.val).mode = mFRT ∨ (platRun s.dev
    p.val).mode = mHER → f = frameNow s.dev p.val → d = onPlat (noteStrip s.dev p.val (f * (raster s.dev p.val).vtot +
    line) 3) p.val (fun y => { y with gaps := (f * (raster s.dev p.val).vtot + line, x) :: y.gaps }) → e = (if
    d.heritage then mdhIrq (setMdh d (0x114 + 0x40 * p.val) (BitVec.ofNat 32 (sat ((mdhReg d (0x114 + 0x40 *
    p.val)).toNat + 1) 65535))) (16 + p.val) else d) → g = count (emit (bump e (SO_UFLOW p.val) SO_UFLOW_LINES)
    (.panel 2 p.val (line * 2 ^ 16 + x))) (394 + 2 * p.val + 1) → exec (.underflow p line x) s = after s (if (platRun
    s.dev p.val).uflow = some f then g else platEvent (bump (onPlat g p.val (fun y => { y with uflow := some f }))
    (SO_UFLOW p.val) SO_UFLOW_FRAMES) 0x26 p.val f)) ∧
  (∀ (s : State) p d e, psrMay s.dev p.val = true → d = onPlat (fs s.dev (SO_PSTAT p.val) SO_PSTAT_STATE 2) p.val (fun
    y =>
    { y with psr := true, psrFrame := none, psrLast := some (frameNow s.dev p.val - 1), openStrips := [], late := [] })
    → e = platEvent d 0x28 p.val (frameNow s.dev p.val) → exec (.psrEnter p) s = after s (if e.commits.any (fun c =>
    hasBit c.group p.val && !c.landed.contains p.val) then restampAll (psrWake e p.val) p.val else e)) ∧
  (∀ (s : State) p f, (platRun s.dev p.val).psrFrame = some f → (platRun s.dev p.val).psr = true → exec (.psrExit p) s
    = after s (restampAll (platEvent (fs (onPlat (advance (dtOf (raster s.dev p.val) f 0) s.dev) p.val (fun y =>
    { y with psr := false, psrFrame := none, psrExit := some f })) (SO_PSTAT p.val) SO_PSTAT_STATE 1) 0x29 p.val f)
    p.val))

/-- Touch has its effect (R293, R296 to R305, R307, R309, R310): panels, keys and picks are configured, baselines are
reloaded, rebased, saved and dumped, tests run and end, a frame that is ready is processed, the panel's ready line and
its time-out, tunnel segments and missing tunnel frames are followed, and a long contact is told and a contact that is
held too long released. -/
def Obligations.TouchRuns : Prop :=
  (∀ (s : State) f r q d, Runs s.dev f.val r.val 0x400 [] chkTouchCfg q d → tcSel q = 2 → exec (.touchCfg f r) s = ran
    s f.val r.val (complete (wr d (TC_PICK (tcIndex q)) (at4 q.words 0x20)) f.val r.val q.idx stOK)) ∧
  (∀ (s : State) f r q d, Runs s.dev f.val r.val 0x400 [] chkTouchCfg q d → tcSel q ≠ 2 → exec (.touchCfg f r) s = ran
    s f.val r.val (acceptCommit d f.val (.desc f.val r.val q.idx) (touchItem d q).2 (2 ^ (touchItem d q).2) q.cp
    (strictOf q.words) false [(touchItem d q).1])) ∧
  (∀ (s : State) f r q d e, Runs s.dev f.val r.val 0x410 [] (chkBaseline [(0x10, 0xF0000007)]) q d → e = onPanel d
    (tbPanel q) (fun x => { x with start := true }) → exec (.touchBaselineReload f r) s = ran s f.val r.val (complete
    (if panelState e (tbPanel q) = 2 then setPanelState e (tbPanel q) 1 else e) f.val r.val q.idx stOK)) ∧
  (∀ (s : State) f r q d, Runs s.dev f.val r.val 0x411 [] (chkBaseline [(0x10, 0xF0000007)]) q d → exec
    (.touchBaselineRebase f r) s = ran s f.val r.val (complete (onPanel d (tbPanel q) (fun x =>
    { x with rebase := true })) f.val r.val q.idx stOK)) ∧
  (∀ (s : State) f r q d, Runs s.dev f.val r.val 0x412 [] (chkBaseline [(0x10, 0xF0000007)]) q d → storeThere d = true
    → exec (.touchBaselineSave f r) s = ran s f.val r.val (storeWrite { d with freeCtr := d.freeCtr + 4096 } 3
    (tbPanel q) (basePayload d (tbPanel q)).1 (basePayload d (tbPanel q)).2 false (some (f.val, r.val, q.idx)))) ∧
  (∀ (s : State) f r q d, Runs s.dev f.val r.val 0x412 [] (chkBaseline [(0x10, 0xF0000007)]) q d → storeThere d =
    false → exec (.touchBaselineSave f r) s = ran s f.val r.val (complete d f.val r.val q.idx stERR_DOWN)) ∧
  (∀ (s : State) f r q d, Runs s.dev f.val r.val 0x413 [] (chkBaseline [(0x10, 0xF0000007), (0x18, full), (0x1C,
    full), (0x20, full)]) q d → exec (.touchBaselineDump f r) s = ran s f.val r.val (onPanel d (tbPanel q) (fun x =>
    { x with dumps := x.dumps ++ [{ f := f.val, r := r.val, idx := q.idx, iova := at8 q.words 0x18 }] }))) ∧
  (∀ (s : State) f r q d, Runs s.dev f.val r.val 0x420 [] chkTouchTest q d → (panel d (tbPanel q)).tests = [] → exec
    (.touchTestRef f r) s = ran s f.val r.val (beginTest (onPanel d (tbPanel q) (fun x =>
    { x with tests := [{ f := f.val, r := r.val, idx := q.idx, kind := bits (at4 q.words 0x10) 31 28, iova := at8 q.words 0x18, prev := panelState d (tbPanel q) }] }))
    (tbPanel q))) ∧
  (∀ (s : State) f r q d, Runs s.dev f.val r.val 0x420 [] chkTouchTest q d → (panel d (tbPanel q)).tests ≠ [] → exec
    (.touchTestRef f r) s = ran s f.val r.val (onPanel d (tbPanel q) (fun x =>
    { x with tests := x.tests ++ [{ f := f.val, r := r.val, idx := q.idx, kind := bits (at4 q.words 0x10) 31 28, iova := at8 q.words 0x18, prev := x.tests.head?.map (fun y => y.prev) |>.getD 0 }] }))) ∧
  (∀ (s : State) f r q d, Runs s.dev f.val r.val 0x421 [] chkTouchTest q d → (panel d (tbPanel q)).tests = [] → exec
    (.touchTestOpen f r) s = ran s f.val r.val (beginTest (onPanel d (tbPanel q) (fun x =>
    { x with tests := [{ f := f.val, r := r.val, idx := q.idx, kind := bits (at4 q.words 0x10) 31 28, iova := at8 q.words 0x18, prev := panelState d (tbPanel q) }] }))
    (tbPanel q))) ∧
  (∀ (s : State) f r q d, Runs s.dev f.val r.val 0x421 [] chkTouchTest q d → (panel d (tbPanel q)).tests ≠ [] → exec
    (.touchTestOpen f r) s = ran s f.val r.val (onPanel d (tbPanel q) (fun x =>
    { x with tests := x.tests ++ [{ f := f.val, r := r.val, idx := q.idx, kind := bits (at4 q.words 0x10) 31 28, iova := at8 q.words 0x18, prev := x.tests.head?.map (fun y => y.prev) |>.getD 0 }] }))) ∧
  (∀ (s : State) f r q d, Runs s.dev f.val r.val 0x422 [] chkTouchTest q d → (panel d (tbPanel q)).tests = [] → exec
    (.touchTestShort f r) s = ran s f.val r.val (beginTest (onPanel d (tbPanel q) (fun x =>
    { x with tests := [{ f := f.val, r := r.val, idx := q.idx, kind := bits (at4 q.words 0x10) 31 28, iova := at8 q.words 0x18, prev := panelState d (tbPanel q) }] }))
    (tbPanel q))) ∧
  (∀ (s : State) f r q d, Runs s.dev f.val r.val 0x422 [] chkTouchTest q d → (panel d (tbPanel q)).tests ≠ [] → exec
    (.touchTestShort f r) s = ran s f.val r.val (onPanel d (tbPanel q) (fun x =>
    { x with tests := x.tests ++ [{ f := f.val, r := r.val, idx := q.idx, kind := bits (at4 q.words 0x10) 31 28, iova := at8 q.words 0x18, prev := x.tests.head?.map (fun y => y.prev) |>.getD 0 }] }))) ∧
  (∀ (s : State) t raw leaks refs e es fails d g ok, (panel s.dev t.val).tests = e :: es → fails = testFails s.dev
    (panelWords s.dev t.val) e.kind raw leaks refs → d = showTesting (setPanelState (onPanel s.dev t.val (fun x =>
    { x with tests := es })) t.val (if !pnEn (panelWords s.dev t.val) then 0 else if (panel s.dev t.val).start then 1
    else 2)) → e.f < 32 → memWritePages 3 d e.f midTOUCH e.iova (leBytes 8 (maskOfList fails.1) ++ leBytes 8
    (maskOfList fails.2) ++ (List.range 48).flatMap (fun k => leBytes 2 (if e.kind = 0 then refs.getD k 0 else 0))) =
    (g, ok) → exec (.touchTestDone t raw leaks refs) s = after s (if es = [] then complete g e.f e.r e.idx (if ok then
    stOK else stERR_FAULT) (fails.1.length + fails.2.length) else beginTest (complete g e.f e.r e.idx (if ok then stOK
    else stERR_FAULT) (fails.1.length + fails.2.length)) t.val)) ∧
  (∀ (s : State) t raw selfTx selfRx x, x = panel s.dev t.val → x.scanning = true → x.ready = true → panelState s.dev
    t.val ≠ 3 → exec (.touchFrameProcess t raw selfTx selfRx) s = after s (takeFrame (if pnSource x.words ≤ 1 then
    advance (afeEnd x) s.dev else s.dev) t.val (if pnSource x.words = 3 then x.tunRaw else raw) selfTx selfRx)) ∧
  (∀ (s : State) t x, x = panel s.dev t.val → x.scanning = true → x.ready = false → pnSource x.words = 2 → pnDrdyGpio
    x.words ≠ 63 → exec (.spiDrdy t) s = after s (spiRead s.dev t.val)) ∧
  (∀ (s : State) t x d, x = panel s.dev t.val → x.scanning = true → x.ready = false → pnSource x.words = 2 → d =
    advance (x.t0 + pnDrdyUs x.words * 1000) s.dev → exec (.spiDrdyTimeout t) s = after s (if pnDrdyGpio x.words = 63
    then spiRead d t.val else failFrame (onPanel d t.val (fun y => { y with scanning := false })) t.val 1 x.words)) ∧
  (∀ (s : State) q bytes x n pos t0 bs, x = SMap.get s.dev.touch.tun q.val → n = (bytes.getD 3 0).toNat → pos =
    (bytes.getD 1 0).toNat / 64 → (bytes.getD 0 0).toNat = 0xA7 → (pos % 2 == 1) = !x.busy → x.busy = false ∨
    (bytes.getD 2 0).toNat = x.seq → 1 ≤ n → n ≤ 60 → ((bytes.drop 4).take n).length = n → domUp s.dev 14 = true → t0
    = (if x.busy then x.t0 else s.dev.dt) → bs = x.bytes ++ (bytes.drop 4).take n → pos ≥ 2 → exec (.tunnelSegment q
    bytes) s = after s (tunMessage s.dev q.val bs t0)) ∧
  (∀ (s : State) q bytes x n pos t0 bs, x = SMap.get s.dev.touch.tun q.val → n = (bytes.getD 3 0).toNat → pos =
    (bytes.getD 1 0).toNat / 64 → (bytes.getD 0 0).toNat = 0xA7 → (pos % 2 == 1) = !x.busy → x.busy = false ∨
    (bytes.getD 2 0).toNat = x.seq → 1 ≤ n → n ≤ 60 → ((bytes.drop 4).take n).length = n → domUp s.dev 14 = true → t0
    = (if x.busy then x.t0 else s.dev.dt) → bs = x.bytes ++ (bytes.drop 4).take n → ¬ pos ≥ 2 → bs.length ≤ 8212 →
    exec (.tunnelSegment q bytes) s = after s (onTun s.dev q.val (fun _ =>
    { busy := true, seq := (bytes.getD 2 0).toNat, bytes := bs, t0 := t0 }))) ∧
  (∀ (s : State) t d, pnEn (panelWords s.dev t.val) = true → pnSource (panelWords s.dev t.val) = 3 → d = advance
    ((panel s.dev t.val).lastValid + pnMissMax (panelWords s.dev t.val) * 10000000) s.dev → exec (.tunnelFrameTimeout
    t) s = after s (cancelContacts d t.val (panelWords s.dev t.val) d.dt (fun _ => true))) ∧
  (∀ (s : State) t id ws c t0, ws = panelWords s.dev t.val → (panel s.dev t.val).contacts.find? (fun c => c.id ==
    id.val && c.told) = some c → pnLongS ws ≠ 0 → t0 = c.down + (c.longs + 1) * pnLongS ws * 1000000000 → exec
    (.longContact t id) s = after s (onPanel (reportContact (advance t0 s.dev) t.val ws c 2 c.state t0 false) t.val
    (fun x =>
    { x with contacts := x.contacts.map (fun e => if e.id = id.val then { e with longs := e.longs + 1 } else e) }))) ∧
  (∀ (s : State) t id ws c t0, ws = panelWords s.dev t.val → (panel s.dev t.val).contacts.find? (fun c => c.id ==
    id.val && c.told) = some c → pnMaxS ws ≠ 0 → t0 = c.down + pnMaxS ws * 1000000000 → exec (.forcedRelease t id) s =
    after s (showPanel (onPanel (reportContact (advance t0 s.dev) t.val ws c 1 2 t0 true) t.val (fun x =>
    { x with contacts := x.contacts.filter (fun e => e.id != id.val), nodes := (List.range x.nodes.length).map (fun k => if c.nodes.contains k then { x.nodes.getD k default with base := 256 * Int.ofNat (x.lastRaw.getD k 0) } else x.nodes.getD k default) }))
    t.val))

/-- Haptics have their effect (R314 to R326): an effect is played, loaded and configured, a fault is cleared, each sense
window measures and may brake or fault the actuator, a segment ends, a pending trigger is refused after its time, and
a fault of the amplifier stops it. -/
def Obligations.HapticsRun : Prop :=
  (∀ (s : State) f r q d, Runs s.dev f.val r.val 0x440 [] chkHapticPlay q d → exec (.hapticPlay f r) s = ran s f.val
    r.val (hapTrigger d (bits (at4 q.words 0x10) 19 16)
    { effect := bits (at4 q.words 0x10) 7 0, gain := bits (at4 q.words 0x10) 15 8, urgent := bit (at4 q.words 0x10) 31, src := .desc f.val r.val q.idx, dt := d.dt })) ∧
  (∀ (s : State) f r q d m, Runs s.dev f.val r.val 0x450 [m] chkHapticLoad q d → bit (at4 q.words 0x10) 31 = true →
    exec (.hapticLoad f r m) s = ran s f.val r.val (settleLoads
    { d with hap := { d.hap with loads := d.hap.loads ++ [{ f := f.val, r := r.val, idx := q.idx, effect := bits (at4 q.words 0x10) 7 0, words := [] }] } })) ∧
  (∀ (s : State) f r q d m e ws, Runs s.dev f.val r.val 0x450 [m] chkHapticLoad q d → bit (at4 q.words 0x10) 31 =
    false → memRead d f.val midHAPTIC (at8 q.words 0x18) ((at4 q.words 0x20).toNat / 4) (q.mem.headD
    { data := [], ecc := false, ats := false }) = (e, .words ws) → effectOk ws = true → exec (.hapticLoad f r m) s =
    ran s f.val r.val (settleLoads
    { e with hap := { e.hap with loads := e.hap.loads ++ [{ f := f.val, r := r.val, idx := q.idx, effect := bits (at4 q.words 0x10) 7 0, words := ws }] } })) ∧
  (∀ (s : State) f r q d, Runs s.dev f.val r.val 0x460 [] chkHapticWrite q d → exec (.hapticCfgWrite f r) s = ran s
    f.val r.val (acceptCommit d f.val (.desc f.val r.val q.idx) (bits (at4 q.words 0x10) 3 0) (2 ^ bits (at4 q.words
    0x10) 3 0) q.cp (strictOf q.words) false [.haptic (bits (at4 q.words 0x10) 19 16) (atN q.words 0x20 3)])) ∧
  (∀ (s : State) f r q d h, Runs s.dev f.val r.val 0x461 [] chkHapticClear q d → h = bits (at4 q.words 0x10) 19 16 →
    exec (.hapticCfgClearFault f r) s = ran s f.val r.val (complete (if hapState d h = 4 then showFaults (setHapState
    (onHap d h (fun x => { x with clearDt := some d.dt })) h (if fb d (HP_CFG_W0 h) HP_CFG_W0_EN then 1 else 0)) else
    d) f.val r.val q.idx stOK)) ∧
  (∀ (s : State) h hp mv d slow e x, hapState s.dev h.val = 2 ∨ hapState s.dev h.val = 3 → d = measure (raiseEnable
    (dropEnable s.dev h.val) h.val) h.val hp mv → slow = (ermSlow (hapRun d h.val) mv && (driveAmp (hapRun d
    h.val)).isSome) → e = (if isErm (hapRun d h.val) then onHap d h.val (fun x =>
    { x with missed := if slow then x.missed + 1 else 0 }) else d) → x = hapRun e h.val → slow = true ∧ x.missed ≥
    bits (wd x.cfg 2) 7 4 → exec (.senseWindow h hp mv) s = after s (hapFault e h.val 2 mv)) ∧
  (∀ (s : State) h hp mv d slow e x cv, hapState s.dev h.val = 2 ∨ hapState s.dev h.val = 3 → d = measure (raiseEnable
    (dropEnable s.dev h.val) h.val) h.val hp mv → slow = (ermSlow (hapRun d h.val) mv && (driveAmp (hapRun d
    h.val)).isSome) → e = (if isErm (hapRun d h.val) then onHap d h.val (fun x =>
    { x with missed := if slow then x.missed + 1 else 0 }) else d) → x = hapRun e h.val → ¬ (slow = true ∧ x.missed ≥
    bits (wd x.cfg 2) 7 4) → windowFault x hp mv = some cv → exec (.senseWindow h hp mv) s = after s (hapFault e h.val
    cv.1 cv.2)) ∧
  (∀ (s : State) h hp mv d slow e x, hapState s.dev h.val = 2 ∨ hapState s.dev h.val = 3 → d = measure (raiseEnable
    (dropEnable s.dev h.val) h.val) h.val hp mv → slow = (ermSlow (hapRun d h.val) mv && (driveAmp (hapRun d
    h.val)).isSome) → e = (if isErm (hapRun d h.val) then onHap d h.val (fun x =>
    { x with missed := if slow then x.missed + 1 else 0 }) else d) → x = hapRun e h.val → ¬ (slow = true ∧ x.missed ≥
    bits (wd x.cfg 2) 7 4) → windowFault x hp mv = none → x.braking = false → exec (.senseWindow h hp mv) s = after s
    (if isErm x then e else showDrive e h.val)) ∧
  (∀ (s : State) h hp mv d slow e x, hapState s.dev h.val = 2 ∨ hapState s.dev h.val = 3 → d = measure (raiseEnable
    (dropEnable s.dev h.val) h.val) h.val hp mv → slow = (ermSlow (hapRun d h.val) mv && (driveAmp (hapRun d
    h.val)).isSome) → e = (if isErm (hapRun d h.val) then onHap d h.val (fun x =>
    { x with missed := if slow then x.missed + 1 else 0 }) else d) → x = hapRun e h.val → ¬ (slow = true ∧ x.missed ≥
    bits (wd x.cfg 2) 7 4) → windowFault x hp mv = none → x.braking = true → mv * 100 ≥ 2 * bits (wd x.cfg 1) 15 0 →
    exec (.senseWindow h hp mv) s = after s (showDrive (onHap e h.val (fun y => { y with quiet := 0 })) h.val)) ∧
  (∀ (s : State) h hp mv d slow e x, hapState s.dev h.val = 2 ∨ hapState s.dev h.val = 3 → d = measure (raiseEnable
    (dropEnable s.dev h.val) h.val) h.val hp mv → slow = (ermSlow (hapRun d h.val) mv && (driveAmp (hapRun d
    h.val)).isSome) → e = (if isErm (hapRun d h.val) then onHap d h.val (fun x =>
    { x with missed := if slow then x.missed + 1 else 0 }) else d) → x = hapRun e h.val → ¬ (slow = true ∧ x.missed ≥
    bits (wd x.cfg 2) 7 4) → windowFault x hp mv = none → x.braking = true → ¬ mv * 100 ≥ 2 * bits (wd x.cfg 1) 15 0 →
    x.quiet = 0 → exec (.senseWindow h hp mv) s = after s (showDrive (onHap e h.val (fun y => { y with quiet := 1 }))
    h.val)) ∧
  (∀ (s : State) h hp mv d slow e x, hapState s.dev h.val = 2 ∨ hapState s.dev h.val = 3 → d = measure (raiseEnable
    (dropEnable s.dev h.val) h.val) h.val hp mv → slow = (ermSlow (hapRun d h.val) mv && (driveAmp (hapRun d
    h.val)).isSome) → e = (if isErm (hapRun d h.val) then onHap d h.val (fun x =>
    { x with missed := if slow then x.missed + 1 else 0 }) else d) → x = hapRun e h.val → ¬ (slow = true ∧ x.missed ≥
    bits (wd x.cfg 2) 7 4) → windowFault x hp mv = none → x.braking = true → ¬ mv * 100 ≥ 2 * bits (wd x.cfg 1) 15 0 →
    x.quiet ≠ 0 → exec (.senseWindow h hp mv) s = after s (if x.final then brakeOver e h.val false else enterSeg
    segFuel e h.val (x.seg + 1) e.dt)) ∧
  (∀ (s : State) h x, hapState s.dev h.val = 2 ∨ hapState s.dev h.val = 3 → x = hapRun s.dev h.val → x.braking = false
    → exec (.hapticSegmentEnd h) s = after s (enterSeg segFuel (advance (if segKind (wd x.words (x.seg + 1)) = 0 then
    nextCross x (x.segStart + bits (wd x.words (x.seg + 1)) 15 0 * 250000) else x.segStart + bits (wd x.words (x.seg +
    1)) 15 0 * 250000) s.dev) h.val (x.seg + 1) (max (if segKind (wd x.words (x.seg + 1)) = 0 then nextCross x
    (x.segStart + bits (wd x.words (x.seg + 1)) 15 0 * 250000) else x.segStart + bits (wd x.words (x.seg + 1)) 15 0 *
    250000) s.dev.dt))) ∧
  (∀ (s : State) h x, hapState s.dev h.val = 2 ∨ hapState s.dev h.val = 3 → x = hapRun s.dev h.val → x.braking = true
    → x.final = true → exec (.hapticSegmentEnd h) s = after s (if x.pend.isSome then advance (x.brakeStart +
    x.brakeLen * 250000) s.dev else brakeOver (advance (x.brakeStart + x.brakeLen * 250000) s.dev) h.val false)) ∧
  (∀ (s : State) h x, hapState s.dev h.val = 2 ∨ hapState s.dev h.val = 3 → x = hapRun s.dev h.val → x.braking = true
    → x.final = false → exec (.hapticSegmentEnd h) s = after s (enterSeg segFuel (advance (x.brakeStart + x.brakeLen *
    250000) s.dev) h.val (x.seg + 1) (max (x.brakeStart + x.brakeLen * 250000) s.dev.dt))) ∧
  (∀ (s : State) h t, (hapRun s.dev h.val).pend = some t → hapState s.dev h.val = 3 → exec (.pendingTriggerTimeout h)
    s = after s (brakeOver (advance (t.dt + 8000000) s.dev) h.val true)) ∧
  (∀ (s : State) h, hapState s.dev h.val = 2 ∨ hapState s.dev h.val = 3 → exec (.ampFault h) s = after s (hapFault
    s.dev h.val 3 (fg s.dev (HP_PHASE h.val) HP_PHASE_BEMF_MV)))

/-- Audio has its effect (R330 to R334, R342 to R355): streams are configured, started, stopped and drained, a period
moves, an underrun, a refill, an overrun, a fault and the end of a ramp act, routes, gains, coefficients and chimes
change and end, a clock is lost, bridges lock and unlock, and frame errors are counted. -/
def Obligations.AudioRuns : Prop :=
  (∀ (s : State) f r q d, Runs s.dev f.val r.val 0x480 [] chkStreamConfig q d → exec (.audioStreamConfig f r) s = ran
    s f.val r.val (complete (fs (fs (onStream d (asStream q) (fun x =>
    { x with cfg := atN q.words 0x10 8, hwPos := 0, appl := 0 })) (AU_ST (asStream q)) AU_ST_DIR (bits (at4 q.words
    0x10) 27 27)) (AU_ST (asStream q)) AU_ST_DOMAIN (bits (at4 q.words 0x10) 26 25)) f.val r.val q.idx stOK)) ∧
  (∀ (s : State) f r q d k, Runs s.dev f.val r.val 0x481 [] chkStreamStart q d → streamState d (asStream q) = 0 → k =
    fifoBlocks d (streamRun d (asStream q)) → exec (.audioStreamStart f r) s = ran s f.val r.val (complete (showAudio
    (setStreamState (fs (onStream (skTakeHigh d 2 k (asStream q) f.val) (asStream q) (fun x =>
    { x with owner := f.val, blocks := k })) (AU_ST (asStream q)) AU_ST_BLOCKS k) (asStream q) 1)) f.val r.val q.idx
    stOK)) ∧
  (∀ (s : State) f r q d, Runs s.dev f.val r.val 0x482 [] chkStreamOp q d → streamState d (asStream q) ≠ 0 → exec
    (.audioStreamStop f r) s = ran s f.val r.val (if streamState d (asStream q) = 3 then (onStream d (asStream q) (fun
    x => { x with stops := x.stops ++ [{ f := f.val, r := r.val, idx := q.idx }] })) else rampDown (onStream d
    (asStream q) (fun x => { x with stops := x.stops ++ [{ f := f.val, r := r.val, idx := q.idx }] })) (asStream q))) ∧
  (∀ (s : State) f r q d, Runs s.dev f.val r.val 0x483 [] chkStreamDrain q d → streamState d (asStream q) ≠ 0 → exec
    (.audioStreamDrain f r) s = ran s f.val r.val (if streamState d (asStream q) = 2 then stopStream (onStream d
    (asStream q) (fun x => { x with drains := x.drains ++ [{ f := f.val, r := r.val, idx := q.idx }] })) (asStream q)
    else (onStream d (asStream q) (fun x =>
    { x with drains := x.drains ++ [{ f := f.val, r := r.val, idx := q.idx }] })))) ∧
  (∀ (s : State) f r q d, Runs s.dev f.val r.val 0x490 [] chkAudioRoute q d → exec (.audioRoute f r) s = ran s f.val
    r.val (acceptCommit d f.val (.desc f.val r.val q.idx) (bits (at4 q.words 0x10) 19 16) (2 ^ bits (at4 q.words 0x10)
    19 16) q.cp (strictOf q.words) false (routeItems q))) ∧
  (∀ (s : State) f r q d w e, Runs s.dev f.val r.val 0x4A0 [] chkAudioGain q d → w = at4 q.words 0x10 → e = startRamp
    d (128 * bits w 31 30 + bits w 29 23) (sext (bits w 11 0) 12) (bits w 22 16) (some
    { f := f.val, r := r.val, idx := q.idx }) → exec (.audioGain f r) s = ran s f.val r.val (if bits w 31 30 = 1 then
    wr e (AU_RT (bits w 29 23) 2) (putBits (rd e (AU_RT (bits w 29 23) 2)) 11 0 (bits w 11 0)) else e)) ∧
  (∀ (s : State) f r q d m w e ws, Runs s.dev f.val r.val 0x4B0 [m] chkAudioCoef q d → w = at4 q.words 0x10 → memRead
    d f.val midAUDIO (at8 q.words 0x18) (5 * bits w 3 0) (q.mem.headD { data := [], ecc := false, ats := false }) =
    (e, .words ws) → exec (.audioCoef f r m) s = ran s f.val r.val (complete ((List.range (bits w 3 0)).foldl (fun d j
    => eqMove (wrs d (AU_EQ (bits w 27 24) (bits w 10 8 + j) 0) ((List.range 5).map (fun i => wd ws (5 * j + i))))
    (bits w 27 24) (bits w 10 8 + j) ((List.range 5).map (fun i => wd ws (5 * j + i)))) e) f.val r.val q.idx stOK)) ∧
  (∀ (s : State) f r q d g, Runs s.dev f.val r.val 0x4C0 [] (chkAudioChime true) q d → g = bits (at4 q.words 0x10) 1 0
    → exec (.audioChimeStart f r) s = ran s f.val r.val (startChime (wrs d (AU_CHIME g 0) (atN q.words 0x10 8)) g (atN
    q.words 0x10 8) (some { f := f.val, r := r.val, idx := q.idx }))) ∧
  (∀ (s : State) f r q d, Runs s.dev f.val r.val 0x4C1 [] (chkAudioChime false) q d → exec (.audioChimeStop f r) s =
    ran s f.val r.val (complete (endChime d (bits (at4 q.words 0x10) 1 0)) f.val r.val q.idx stOK)) ∧
  (∀ (s : State) a g v w d n, w = putBits v 31 28 0 &&& chimeMask 0 → Written s.dev a (AU_CHIME g.val 0) w d n → bits
    n 31 28 = 0 → 2 ≤ g.val ∨ a.mid.toNat = midSI ∨ a.mid.toNat = midPAIR → chimeOk (n :: rds s.dev (AU_CHIME g.val 1)
    7) = true → exec (.safetyChimeStart a g v) s = after s (startChime d g.val (rds d (AU_CHIME g.val 0) 8) none)) ∧
  (∀ (s : State) a g v w d n, w = putBits v 31 28 1 &&& chimeMask 0 → Written s.dev a (AU_CHIME g.val 0) w d n → bits
    n 31 28 = 1 → 2 ≤ g.val ∨ a.mid.toNat = midSI ∨ a.mid.toNat = midPAIR → exec (.safetyChimeStop a g v) s = after s
    (endChime d g.val)) ∧
  (∀ (s : State) g x, x = chimeRun s.dev g.val → x.on = true → bits (wd x.words 6) 7 0 ≠ 0 → exec (.chimeEnd g) s =
    after s (endChime (advance (x.start + bits (wd x.words 6) 7 0 * chimePeriod x.words) s.dev) g.val)) ∧
  (∀ (s : State) k, exec (.routeTableChange k) s = after s (showAudio ((List.range 128).foldl (fun d n => if
    (routeFade d n).due = [] ∨ (routeDomain d (routeFade d n).due).getD k.val ≠ k.val then d else if fg d (AU_RT_ST n)
    AU_RT_ST_STATE = 2 then showRoute (onRoute (onRoute d n (fun y => { y with due := [] })) n (fun y =>
    { y with pend := (routeFade d n).due })) n 2 else applyRoute (onRoute d n (fun y => { y with due := [] })) n
    (routeFade d n).due) s.dev))) ∧
  (∀ (s : State) n, fg s.dev (AU_RT_ST n.val) AU_RT_ST_STATE = 2 → exec (.crossfadeEnd n) s = after s (showAudio
    (endFade (advance ((routeFade s.dev n.val).start + 5000000) s.dev) n.val))) ∧
  (∀ (s : State) target index k x d, k = 128 * target.val + index.val → x = SMap.get s.dev.audio.ramps k → x.on = true
    → d = showGain (onAudio (advance (x.start + x.ms * 1000000) s.dev) (fun a =>
    { a with gains := SMap.set a.gains k x.to0, ramps := SMap.erase a.ramps k })) k → x.wait = none → exec
    (.gainRampEnd target index) s = after s d) ∧
  (∀ (s : State) target index k x d w, k = 128 * target.val + index.val → x = SMap.get s.dev.audio.ramps k → x.on =
    true → d = showGain (onAudio (advance (x.start + x.ms * 1000000) s.dev) (fun a =>
    { a with gains := SMap.set a.gains k x.to0, ramps := SMap.erase a.ramps k })) k → x.wait = some w → exec
    (.gainRampEnd target index) s = after s (auEnd d w stOK 0)) ∧
  (∀ (s : State) a m k v d n, Written s.dev a (AU_EQ m.val k.val 4) v d n → exec (.eqSectionMove a m k v) s = after s
    (eqMove d m.val k.val (rds d (AU_EQ m.val k.val 0) 5))) ∧
  (∀ (s : State) st appl e ap x g y, streamState s.dev st.val = 1 → bankerLike s.dev = false → readAppl s.dev st.val
    appl = (e, some ap) → x = streamRun e st.val → g = linkSend (crossFrames (onStream e st.val (fun y =>
    { y with dropping := y.dropping && decide ((if stDir x = 0 then min (stPeriod x) (ap - x.hwPos) else min (stPeriod x) (ap + stFrames x - x.hwPos)) = 0) }))
    st.val (if stDir x = 0 then min (stPeriod x) (ap - x.hwPos) else min (stPeriod x) (ap + stFrames x - x.hwPos))
    true) 0x09 [1, st.val, (streamRun (crossFrames (onStream e st.val (fun y =>
    { y with dropping := y.dropping && decide ((if stDir x = 0 then min (stPeriod x) (ap - x.hwPos) else min (stPeriod x) (ap + stFrames x - x.hwPos)) = 0) }))
    st.val (if stDir x = 0 then min (stPeriod x) (ap - x.hwPos) else min (stPeriod x) (ap + stFrames x - x.hwPos))
    true) st.val).hwPos] → y = streamRun g st.val → exec (.streamPeriod st appl) s = after s (if streamState g st.val
    = 1 ∧ y.drains ≠ [] ∧ y.hwPos ≥ ap then stopStream g st.val else g)) ∧
  (∀ (s : State) st x e, x = streamRun s.dev st.val → streamState s.dev st.val = 1 → stDir x = 0 → x.drains = [] → e =
    bump (setStreamState (crossFrames s.dev st.val (x.appl - x.hwPos) false) st.val 2) AU_STATUS AU_STATUS_UNDERRUNS →
    exec (.streamUnderrun st) s = after s (showAudio (auEvent e x.owner 1 st.val 0 ((streamRun e st.val).hwPos % 2 ^
    32)))) ∧
  (∀ (s : State) st appl e ap, streamState s.dev st.val = 2 → readAppl s.dev st.val appl = (e, some ap) → ¬ ap -
    (streamRun e st.val).hwPos < fifoFrames e (streamRun e st.val) → exec (.streamRefill st appl) s = after s
    (showAudio (setStreamState e st.val 1))) ∧
  (∀ (s : State) st x e, x = streamRun s.dev st.val → streamState s.dev st.val = 1 → stDir x = 1 → e = crossFrames
    s.dev st.val (x.appl + stFrames x - x.hwPos) false → exec (.streamOverrun st) s = after s (if x.dropping then bump
    e AU_STATUS AU_STATUS_OVERRUNS else auEvent (onStream (bump e AU_STATUS AU_STATUS_OVERRUNS) st.val (fun y =>
    { y with dropping := true })) x.owner 2 st.val 0 1)) ∧
  (∀ (s : State) st t, exec (.streamFault st (.dmmu t)) s = after s (faultStream s.dev st.val t.val)) ∧
  (∀ (s : State) st, exec (.streamFault st .ecc) s = after s (faultStream s.dev st.val 0x10)) ∧
  (∀ (s : State) st, streamState s.dev st.val = 3 → exec (.rampDownEnd st) s = after s (stopStream (advance
    ((streamRun s.dev st.val).rampStart + 2000000) s.dev) st.val)) ∧
  (∀ (s : State) k, auDomState s.dev k.val = 2 → fg s.dev (AU_DOM k.val) AU_DOM_SRC ≠ 1 → exec (.clockLoss k) s =
    after s (showAudio (auEvent (bump (fs s.dev (AU_DOM_ST k.val) AU_DOM_ST_STATE 3) AU_STATUS AU_STATUS_CLK_LOSS) 0 4
    k.val 0 0))) ∧
  (∀ (s : State) b d, fb s.dev (AU_BRIDGE b.val) AU_BRIDGE_EN = true → fb s.dev (AU_BRIDGE_ST b.val) AU_BRIDGE_ST_LOCK
    = false → auDomState s.dev (fg s.dev (AU_BRIDGE b.val) AU_BRIDGE_IN_DOM) ≠ 0 → auDomState s.dev (fg s.dev
    (AU_BRIDGE b.val) AU_BRIDGE_OUT_DOM) ≠ 0 → d = bridgeRamp (fs s.dev (AU_BRIDGE_ST b.val) AU_BRIDGE_ST_LOCK 1)
    b.val 1 → exec (.bridgeLock b) s = after s (showAudio (fs (takeFree d).2 (AU_BRIDGE_ST b.val)
    AU_BRIDGE_ST_RATIO_PPM (enc2 (Int.ofNat ((takeFree d).1 % 4001) - 2000) 16)))) ∧
  (∀ (s : State) b ppm, fb s.dev (AU_BRIDGE_ST b.val) AU_BRIDGE_ST_LOCK = true → ¬ ppm.natAbs ≤ 2000 → exec
    (.bridgeUnlock b ppm) s = after s (showAudio (auEvent (bridgeRamp (fs (fs s.dev (AU_BRIDGE_ST b.val)
    AU_BRIDGE_ST_LOCK 0) (AU_BRIDGE_ST b.val) AU_BRIDGE_ST_RATIO_PPM (enc2 ppm 16)) b.val 0) 0 5 b.val 0 (enc2 ppm
    32)))) ∧
  (∀ (s : State) p, p.val < 6 → portRuns s.dev p.val = true → fb s.dev (AU_PORT p.val) AU_PORT_MASTER = false → exec
    (.portFrameError p) s = after s (bump s.dev (AU_PORT_ST p.val) AU_PORT_ST_FRAME_ERRS))

/-- Bells and tokens have their effect (R359, R362 to R364, R368, R369, R372, R373): a channel is bound, a message is
queued and popped, doorbells are cleared and masked, and a token is given to the first free reader and given back. -/
def Obligations.BellsAndTokensRun : Prop :=
  (∀ (s : State) a c v d n, Written s.dev a (BL_BIND c.val) v d n → bindBad s.dev a.mid.toNat c.val n = none → exec
    (.bellBindWrite a c v) s = after s (if bit n 31 ∧ ¬ bellEn s.dev c.val then enableBell d c.val else if !bit n 31 ∧
    bellEn s.dev c.val then skGive (receiverReset d c.val) (fun r => decide (r.pool = 3) && decide (r.user = c.val))
    else d)) ∧
  (∀ (s : State) a c v d, viewWrite a c.val 1 0x18 v s.dev = (d, true) → postStatus d c.val v = stOK → exec (.bellPost
    a c v) s = after s (queueMsg d c.val (bits v 2 0))) ∧
  (∀ (s : State) a c v d e m ms, viewWrite a c.val 2 0x1C v s.dev = (d, true) → bit v 0 = true → seenMsgs d c.val = m
    :: ms → e = onBell d c.val (fun x => { x with msgs := x.msgs.tail }) → exec (.bellPop a c v) s = after s (if
    (bellChan e c.val).msgs = [] ∧ fb e (BL_BIND c.val) BL_BIND_NOTE_EMPTY ∧ m.epoch = (bellChan e c.val).sendEpoch
    then tellSender e c.val 3 0 m.seq (fun x => { x with emptied := true }) else e)) ∧
  (∀ (s : State) a v d, dbWrite a 0x1800 v s.dev = (d, true) → exec (.doorbellClear a v) s = after s (setDoorbells d
    a.mid.toNat (dbPend d a.mid.toNat - (dbPend d a.mid.toNat &&& v.toNat)) (dbMask d a.mid.toNat))) ∧
  (∀ (s : State) a v d, dbWrite a 0x1804 v s.dev = (d, true) → exec (.doorbellMaskWrite a v) s = after s (setDoorbells
    d a.mid.toNat (dbPend d a.mid.toNat) v.toNat)) ∧
  (∀ (s : State) t readers d rs x y l, bellServed s.dev false = (d, true) → rs = (readers.filter (fun a => windowThere
    d a.mid.toNat)).foldl (fun l a => insertReader (tok d t.val).ptr a l) [] → rs.filter (contends d t.val) = x :: y
    :: l → exec (.tokenAcquire t readers) s = after s (rs.foldl (tokenRead t.val) (onTok (bump d TK_STATUS
    TK_STATUS_CONTESTED) t.val (fun z => { z with ptr := (x.mid.toNat + 1) % 256 })))) ∧
  (∀ (s : State) t readers d rs x, bellServed s.dev false = (d, true) → rs = (readers.filter (fun a => windowThere d
    a.mid.toNat)).foldl (fun l a => insertReader (tok d t.val).ptr a l) [] → rs.filter (contends d t.val) = [x] → exec
    (.tokenAcquire t readers) s = after s (rs.foldl (tokenRead t.val) d)) ∧
  (∀ (s : State) t readers d rs, bellServed s.dev false = (d, true) → rs = (readers.filter (fun a => windowThere d
    a.mid.toNat)).foldl (fun l a => insertReader (tok d t.val).ptr a l) [] → rs.filter (contends d t.val) = [] → exec
    (.tokenAcquire t readers) s = after s (rs.foldl (tokenRead t.val) d)) ∧
  (∀ (s : State) a t v d, dbWrite a (tokOff t.val) v s.dev = (d, true) → (tok d t.val).holder = some a.mid.toNat →
    exec (.tokenRelease a t v) s = after s (setBroken (onTok d t.val (fun x => { x with holder := none })) t.val 0)) ∧
  (∀ (s : State) a t v d, dbWrite a (tokOff t.val) v s.dev = (d, true) → (tok d t.val).holder ≠ some a.mid.toNat →
    exec (.tokenRelease a t v) s = after s (bump d TK_STATUS TK_STATUS_FOREIGN))

/-- Power has its effect (R386 to R388, R390, R428 to R437): holds are taken and given back, modes and depths are asked
for, domains go down and up, hibernation ends, an estimate caps, and the thermal stages act. -/
def Obligations.PowerRuns : Prop :=
  (∀ (s : State) a k d n e, Written s.dev a SE_HOLD_OP (BitVec.ofNat 32 (0 * 2 ^ 30 + k.val)) d n → fg s.dev (SE_HOLD
    k.val) SE_HOLD_PWR ≠ 255 → e = fs d (SE_HOLD k.val) SE_HOLD_PWR (fg s.dev (SE_HOLD k.val) SE_HOLD_PWR + 1) → exec
    (.acquirePower a k) s = after s (if domState e k.val ≥ 2 then wakeHeld e k.val else e)) ∧
  (∀ (s : State) a k d n e, Written s.dev a SE_HOLD_OP (BitVec.ofNat 32 (1 * 2 ^ 30 + k.val)) d n → fg s.dev (SE_HOLD
    k.val) SE_HOLD_PWR ≠ 0 → e = fs d (SE_HOLD k.val) SE_HOLD_PWR (fg s.dev (SE_HOLD k.val) SE_HOLD_PWR - 1) → exec
    (.releasePower a k) s = after s (runReqs k.val e.pm.reqs.length e)) ∧
  (∀ (s : State) a k d n e, Written s.dev a SE_HOLD_OP (BitVec.ofNat 32 (2 * 2 ^ 30 + k.val)) d n → fg s.dev (SE_HOLD
    k.val) SE_HOLD_CLK ≠ 255 → e = fs d (SE_HOLD k.val) SE_HOLD_CLK (fg s.dev (SE_HOLD k.val) SE_HOLD_CLK + 1) → exec
    (.acquireClock a k) s = after s (if domState e k.val ≥ 2 ∨ domState e k.val = 1 then wakeHeld e k.val else e)) ∧
  (∀ (s : State) a k d n e, Written s.dev a SE_HOLD_OP (BitVec.ofNat 32 (3 * 2 ^ 30 + k.val)) d n → fg s.dev (SE_HOLD
    k.val) SE_HOLD_CLK ≠ 0 → e = fs d (SE_HOLD k.val) SE_HOLD_CLK (fg s.dev (SE_HOLD k.val) SE_HOLD_CLK - 1) → exec
    (.releaseClock a k) s = after s (runReqs k.val e.pm.reqs.length e)) ∧
  (∀ (s : State) f r q d, Runs s.dev f.val r.val 0x620 [] chkSetMode q d → exec (.modeSetMode f r) s = ran s f.val
    r.val (showPending (acceptCommit d f.val (.desc f.val r.val q.idx) (bits (at4 q.words 0x10) 19 16) (bits (at4
    q.words 0x10) 15 0) q.cp (strictOf q.words) true [.mode (bits (at4 q.words 0x10) 27 25)]))) ∧
  (∀ (s : State) f r q d e st, Runs s.dev f.val r.val 0x621 [] chkModeDomain q d → askDomains d f.val 0 (bits (at4
    q.words 0x14) 31 16) (bits (at4 q.words 0x14) 7 4) (bits (at4 q.words 0x14) 3 0) (some (tagOf q.words)) = (e, st)
    → exec (.modeDomain f r) s = ran s f.val r.val (complete e f.val r.val q.idx st)) ∧
  (∀ (s : State) f r q d e, Runs s.dev f.val r.val 0x622 [] chkHibernate q d → hibFails d = 0 → e = complete d f.val
    r.val q.idx stOK → exec (.modeHibernate f r) s = ran s f.val r.val ((List.range 15).foldl (fun d j => fs d
    (PM_DOM_STAT (j + 1)) PM_DOM_STAT_STATE 4) (stopComparators
    { e with pm := { e.pm with hib := true, waking := 0 }, safe := { e.safe with dmFrom := none } }))) ∧
  (∀ (s : State) c d e, s.dev.pm.hib = true → wakes s.dev c = true → e = advance (wakeTime s.dev c) s.dev → d =
    { e with pm := { e.pm with hib := false }, safe := { e.safe with dmFrom := (if e.pm.booted then some e.dt else none), dmMs := fg e SE_DEADMAN_CFG SE_DEADMAN_CFG_TIMEOUT_MS } }
    → exec (.hibernateWake c) s = after s (readAllRings ((List.range 15).foldl (fun d j => goUp d (j + 1)) d))) ∧
  (∀ (s : State) a k v d e, maskedWrite a (PM_DOM_CTRL k.val) v s.dev = (d, true) → e = (askDomains d a.mid.toNat
    (PM_DOM_CTRL k.val) (2 ^ k.val) (bits v 7 4) (bits v 3 0) none).1 → exec (.domainCtrlWrite a k v) s = after s
    (tripOver (if hasBit e.pm.tripCut k.val ∧ sext (fg e PM_TJ PM_TJ_TJ) 16 < 10 * (Int.ofNat (fg e PM_THERM
    PM_THERM_TRIP_C) - 10) then { e with pm := { e.pm with tripCut := e.pm.tripCut - 2 ^ k.val } } else e))) ∧
  (∀ (s : State) k x, s.dev.pm.hib = false → s.dev.pm.off = false → hasBit s.dev.pm.waking k.val = false → hasBit
    s.dev.pm.tripCut k.val = false → modeHeldOff s.dev k.val = false → x = depthOfDom s.dev k.val → exec
    (.pmuDepthDecision k true) s = after s (if depthRank (domState s.dev k.val) < depthRank x then goDown s.dev k.val
    x false else if depthRank x < depthRank (domState s.dev k.val) then wakeHeld s.dev k.val else s.dev)) ∧
  (∀ (s : State) k, s.dev.pm.hib = false → s.dev.pm.off = false → hasBit s.dev.pm.tripCut k.val = false → ¬
    (modeHeldOff s.dev k.val = true ∧ heldFrom s.dev k.val 5 = false) → domState s.dev k.val ≠ 0 ∨ hasBit
    s.dev.pm.waking k.val = true → (forcedState s.dev k.val).any (fun f => decide (f ≠ 0) && !heldFrom s.dev k.val f)
    = false ∨ domState s.dev k.val = 0 → exec (.domainWake k) s = after s (goUp s.dev k.val)) ∧
  (∀ (s : State) mw d es avg cap e, d = advance (s.dev.pm.lastEst + 100000) s.dev → es = (mw :: d.pm.ests).take 10 →
    avg = es.sum / es.length → cap = fg d PM_STATUS PM_STATUS_CAP_W * 1000 → e = fs
    { d with pm := { d.pm with ests := es, lastEst := d.dt } } PM_STATUS PM_STATUS_POWER_W (sat (avg / 1000) 255) →
    cap = 0 → exec (.powerEstimate mw) s = after s e) ∧
  (∀ (s : State) mw d es avg cap e, d = advance (s.dev.pm.lastEst + 100000) s.dev → es = (mw :: d.pm.ests).take 10 →
    avg = es.sum / es.length → cap = fg d PM_STATUS PM_STATUS_CAP_W * 1000 → e = fs
    { d with pm := { d.pm with ests := es, lastEst := d.dt } } PM_STATUS PM_STATUS_POWER_W (sat (avg / 1000) 255) →
    cap ≠ 0 → avg > cap → exec (.powerEstimate mw) s = after s (if e.pm.capEpisode then capStep
    { e with pm := { e.pm with capEpisode := true, underSince := none } } else powerEvent (capStep
    { e with pm := { e.pm with capEpisode := true, underSince := none } }) 2 0 avg)) ∧
  (∀ (s : State) mw d es avg cap e, d = advance (s.dev.pm.lastEst + 100000) s.dev → es = (mw :: d.pm.ests).take 10 →
    avg = es.sum / es.length → cap = fg d PM_STATUS PM_STATUS_CAP_W * 1000 → e = fs
    { d with pm := { d.pm with ests := es, lastEst := d.dt } } PM_STATUS PM_STATUS_POWER_W (sat (avg / 1000) 255) →
    cap ≠ 0 → ¬ avg > cap → avg * 100 > cap * 95 → exec (.powerEstimate mw) s = after s
    { e with pm := { e.pm with underSince := none } }) ∧
  (∀ (s : State) mw d es avg cap e g, d = advance (s.dev.pm.lastEst + 100000) s.dev → es = (mw :: d.pm.ests).take 10 →
    avg = es.sum / es.length → cap = fg d PM_STATUS PM_STATUS_CAP_W * 1000 → e = fs
    { d with pm := { d.pm with ests := es, lastEst := d.dt } } PM_STATUS PM_STATUS_POWER_W (sat (avg / 1000) 255) →
    cap ≠ 0 → ¬ avg > cap → ¬ avg * 100 > cap * 95 → g =
    { e with pm := { e.pm with underSince := some (e.pm.underSince.getD e.dt) } } → exec (.powerEstimate mw) s = after
    s (if g.pm.capEpisode ∧ e.pm.underSince.getD e.dt + 10000000 ≤ g.dt then capBack g else g)) ∧
  (∀ (s : State) tj d keep new e g, d = fs s.dev PM_TJ PM_TJ_TJ ((tj % 65536).toNat) → keep = d.pm.tjOver.filter (fun
    o => decide (tj > tjLevel d o.level)) → new = ((List.range 4).filter (fun l => decide (tj > tjLevel d l) &&
    keep.all (fun o => decide (o.level ≠ l)))).map (fun l => ({ level := l, since := d.dt } : TjOver)) → e =
    { d with pm := { d.pm with tjOver := keep ++ new } } → g = (if tj < tjLevel e 0 - 50 then endTherm e 0 else e) →
    exec (.thermalSample tj) s = after s (if tj < tjLevel g 1 - 50 then endTherm g 1 else g)) ∧
  (∀ (s : State) d, beginTherm s.dev 0 = some d → exec .thermalWarn s = after s (powerEvent d 3 0 (fg d PM_TJ
    PM_TJ_TJ))) ∧
  (∀ (s : State) d, beginTherm s.dev 1 = some d → exec .thermalThrottle s = after s (powerEvent d 4 0 (fg d PM_TJ
    PM_TJ_TJ))) ∧
  (∀ (s : State) d mask e, beginTherm s.dev 2 = some d → mask = fg d PM_THERM_MASK PM_THERM_MASK_TRIP_MASK - fg d
    PM_THERM_MASK PM_THERM_MASK_TRIP_MASK % 2 → e = forcedLoss (emit d (.pin 4 0)) mask → exec .thermalTrip s = after
    s (gpuRun (powerEvent (addCause ((bitsOf 16 mask).foldl (fun d k => goDown d k 5 true)
    { e with pm := { e.pm with tripCut := mask } }) 7 0 mask) 5 0 mask))) ∧
  (∀ (s : State) d e, tjActs s.dev 3 = some d → e = (List.range 15).foldl (fun d j => goDown d (j + 1) 5 true)
    (forcedLoss (addCause (emit d (.pin 4 0)) 8 0 0xFFFE) 0xFFFE) → exec .thermalCritical s = after s
    { e with pm := { e.pm with off := true } }) ∧
  (∀ (s : State) t, s.dev.safe.dmFrom = some t → exec .deadmanExpire s = after s (warm (advance (t + s.dev.safe.dmMs *
    1000000) s.dev) 2))

/-- The worlds and the safety island have their effect (R287, R289, R377 to R384, R389, R391 to R395, R399): signatures
are latched and counted, SPDM messages are answered and refused by their order, link keys are programmed, set and
lost, a watermark rises and a lower one is scrubbed, the dead-man timer is kicked, monitors and lockstep latch, and
Caution is entered and left. -/
def Obligations.WorldsRun : Prop :=
  (∀ (s : State) p r px d, latchSig s.dev p.val r.val px = (d, none) → exec (.signatureResult p r px) s = after s d) ∧
  (∀ (s : State) p r px d out, latchSig s.dev p.val r.val px = (d, some out) → bankerLike d = true → exec
    (.signatureResult p r px) s = after s (shadowOwn d
    { plat := p.val, region := r.val, frame := (rd d (SO_SIG_RES_FRAME p.val r.val)).toNat, crc := (rd d (SO_SIG_RES_CRC p.val r.val)) })) ∧
  (∀ (s : State) p r px d out, latchSig s.dev p.val r.val px = (d, some out) → bankerLike d = false → exec
    (.signatureResult p r px) s = after s (countSig (linkSend d 0x08 [p.val, r.val, (rd d (SO_SIG_RES_FRAME p.val
    r.val)).toNat, (rd d (SO_SIG_RES_CRC p.val r.val)).toNat, (fb d (SO_SIG_RES_OUT p.val r.val)
    SO_SIG_RES_OUT_SUBST).toNat, (fb d (SO_SIG_RES_OUT p.val r.val) SO_SIG_RES_OUT_LAND_IN).toNat]) p.val r.val out
    (rd d (SO_SIG_RES_FRAME p.val r.val)).toNat (rd d (SO_SIG_RES_CRC p.val r.val)) (fb d (SO_SIG_RES_OUT p.val r.val)
    SO_SIG_RES_OUT_SUBST) (fb d (SO_SIG_RES_OUT p.val r.val) SO_SIG_RES_OUT_LAND_IN))) ∧
  (∀ (s : State) f, doeUp s.dev f.val = true → exec (.spdmGetVersion f) s = after s (spdmSay (setSess (onSafe s.dev
    (fun x => { x with conn := SMap.set x.conn f.val 1 })) f.val 0) f.val 0x04 0x12)) ∧
  (∀ (s : State) f, doeUp s.dev f.val = true → 1 ≤ spdmConn s.dev f.val → exec (.spdmGetCapabilities f) s = after s
    (spdmSay (onSafe s.dev (fun x => { x with conn := SMap.set x.conn f.val (max 2 (spdmConn s.dev f.val)) })) f.val
    0x61 0)) ∧
  (∀ (s : State) f, doeUp s.dev f.val = true → 2 ≤ spdmConn s.dev f.val → exec (.spdmNegotiateAlgorithms f) s = after
    s (spdmSay (onSafe s.dev (fun x => { x with conn := SMap.set x.conn f.val 3 })) f.val 0x63 0)) ∧
  (∀ (s : State) f, doeUp s.dev f.val = true → 3 ≤ spdmConn s.dev f.val → exec (.spdmGetDigests f) s = after s
    (spdmSay (s.dev) f.val 0x01 0)) ∧
  (∀ (s : State) f slot, doeUp s.dev f.val = true → 3 ≤ spdmConn s.dev f.val → ¬ 2 ≤ slot.val → exec
    (.spdmGetCertificate f slot) s = after s (spdmSay (s.dev) f.val 0x02 slot.val)) ∧
  (∀ (s : State) f slot, doeUp s.dev f.val = true → 3 ≤ spdmConn s.dev f.val → ¬ 2 ≤ slot.val → exec (.spdmChallenge f
    slot) s = after s (spdmSay (s.dev) f.val 0x03 slot.val)) ∧
  (∀ (s : State) f index, doeUp s.dev f.val = true → 3 ≤ spdmConn s.dev f.val → ¬ (9 < index.val ∧ index.val ≠ 0xFF) →
    exec (.spdmGetMeasurements f index) s = after s (spdmSay (s.dev) f.val 0x60 (if index.val = 0 then 9 else
    index.val))) ∧
  (∀ (s : State) f, doeUp s.dev f.val = true → ptSecure s.dev f.val = true → 3 ≤ spdmConn s.dev f.val → spdmSess s.dev
    f.val = 0 → exec (.spdmKeyExchange f) s = after s (spdmSay (setSess s.dev f.val 1) f.val 0x64 0)) ∧
  (∀ (s : State) f, doeUp s.dev f.val = true → spdmSess s.dev f.val = 1 → exec (.spdmFinish f) s = after s (spdmSay
    (setSess s.dev f.val 2) f.val 0x65 0)) ∧
  (∀ (s : State) f, doeUp s.dev f.val = true → spdmSess s.dev f.val = 2 → exec (.spdmKeyUpdate f) s = after s (spdmSay
    (s.dev) f.val 0x69 0)) ∧
  (∀ (s : State) f, doeUp s.dev f.val = true → spdmSess s.dev f.val = 2 → exec (.spdmHeartbeat f) s = after s (spdmSay
    (s.dev) f.val 0x68 0)) ∧
  (∀ (s : State) f, doeUp s.dev f.val = true → spdmSess s.dev f.val = 2 → exec (.spdmEndSession f) s = after s
    (spdmSay (setSess s.dev f.val 0) f.val 0x6C 0)) ∧
  (∀ (s : State) f k, doeUp s.dev f.val = true → ptSecure s.dev f.val = true → spdmSess s.dev f.val = 2 → exec
    (.ideKmKeyProg f k) s = after s (spdmSay (onSafe s.dev (fun x => { x with ideKeys := x.ideKeys ||| 2 ^ k.val }))
    f.val 0x7E 0x03)) ∧
  (∀ (s : State) f k, doeUp s.dev f.val = true → ptSecure s.dev f.val = true → spdmSess s.dev f.val = 2 → hasBit
    s.dev.safe.ideKeys k.val = true → exec (.ideKSetGo f k) s = after s (spdmSay (flushHeld (fs (onSafe s.dev (fun x
    => { x with ideKeys := x.ideKeys - 2 ^ k.val })) SE_IDE_STAT (ideFld k.val) 1)) f.val 0x7E 0x06)) ∧
  (∀ (s : State) f, doeUp s.dev f.val = true → ¬ 1 ≤ spdmConn s.dev f.val → exec (.spdmGetCapabilities f) s = after s
    (spdmSay s.dev f.val 0x7F 4)) ∧
  (∀ (s : State) f, doeUp s.dev f.val = true → ¬ 2 ≤ spdmConn s.dev f.val → exec (.spdmNegotiateAlgorithms f) s =
    after s (spdmSay s.dev f.val 0x7F 4)) ∧
  (∀ (s : State) f, doeUp s.dev f.val = true → ¬ 3 ≤ spdmConn s.dev f.val → exec (.spdmGetDigests f) s = after s
    (spdmSay s.dev f.val 0x7F 4)) ∧
  (∀ (s : State) f slot, doeUp s.dev f.val = true → 3 ≤ spdmConn s.dev f.val → 2 ≤ slot.val → exec
    (.spdmGetCertificate f slot) s = after s (spdmSay s.dev f.val 0x7F 1)) ∧
  (∀ (s : State) f slot, doeUp s.dev f.val = true → 3 ≤ spdmConn s.dev f.val → 2 ≤ slot.val → exec (.spdmChallenge f
    slot) s = after s (spdmSay s.dev f.val 0x7F 1)) ∧
  (∀ (s : State) f, doeUp s.dev f.val = true → ¬ spdmSess s.dev f.val = 2 → exec (.spdmKeyUpdate f) s = after s
    (spdmSay s.dev f.val 0x7F 4)) ∧
  (∀ (s : State) f, doeUp s.dev f.val = true → ¬ spdmSess s.dev f.val = 2 → exec (.spdmHeartbeat f) s = after s
    (spdmSay s.dev f.val 0x7F 4)) ∧
  (∀ (s : State) f, doeUp s.dev f.val = true → ¬ spdmSess s.dev f.val = 2 → exec (.spdmEndSession f) s = after s
    (spdmSay s.dev f.val 0x7F 4)) ∧
  (∀ (s : State) f, doeUp s.dev f.val = true → ¬ spdmSess s.dev f.val = 1 → exec (.spdmFinish f) s = after s (spdmSay
    s.dev f.val 0x7F 4)) ∧
  (∀ (s : State) k, fg s.dev SE_IDE_STAT (ideFld k.val) = 1 → exec (.ideFail k) s = after s (post (bump (fs s.dev
    SE_IDE_STAT (ideFld k.val) 2) SE_IDE_STAT SE_IDE_STAT_FAILS) 0 clSAFETY 7 midSEC (pb 0 k.val))) ∧
  (∀ (s : State) a k v d n t, Written s.dev a (wmOff k) v d n → t = (if k = .dram then bits v 19 0 else bits v 12 0) →
    scrubRun s.dev k = none → fb s.dev SE_LOCK SE_LOCK_WM = false → ¬ t < wmNow s.dev k → (k = .skein ∧ skeinConflict
    s.dev t = true) = False → (k = .dram ∧ s.dev.dramUnits < t) = False → exec (.watermarkRaise a k v) s = after s (if
    t = wmNow s.dev k then d else if k = .skein then dropPrefetch (beginScrub d k (wmNow s.dev k) t false) (wmNow
    s.dev k) t else beginScrub d k (wmNow s.dev k) t false)) ∧
  (∀ (s : State) a k v d n t, Written s.dev a (scrubOff k) v d n → t = (if k = .dram then bits v 19 0 else bits v 12
    0) → scrubRun s.dev k = none → fb s.dev SE_LOCK SE_LOCK_WM = false → ¬ wmNow s.dev k < t → exec (.watermarkLower a
    k v) s = after s (if t = wmNow s.dev k then d else beginScrub d k t (wmNow s.dev k) true)) ∧
  (∀ (s : State) x d, scrubRun s.dev .dram = some x → d = setBusy (onSafe (advance (x.t0 + scrubNs .dram x) s.dev)
    (fun y => { y with scrubs := SMap.erase y.scrubs (wmKey .dram) })) .dram 0 → exec (.scrubDone .dram) s = after s
    (if x.lower then wr (fs d MC_SEC_STAT MC_SEC_STAT_AT x.hi) MC_SEC_WM (BitVec.ofNat 32 x.lo) else fs d MC_SEC_STAT
    MC_SEC_STAT_AT x.hi)) ∧
  (∀ (s : State) x d, scrubRun s.dev .skein = some x → d = setBusy (onSafe (advance (x.t0 + scrubNs .skein x) s.dev)
    (fun y => { y with scrubs := SMap.erase y.scrubs (wmKey .skein) })) .skein 0 → exec (.scrubDone .skein) s = after
    s (if x.lower then showSkein (wr d SK_SEC_WM (BitVec.ofNat 32 x.lo)) else showSkein d)) ∧
  (∀ (s : State) a v d n, Written s.dev a SE_DEADMAN_KICK v d n → v = 0x5A5A → s.dev.safe.kick = none → exec
    (.deadmanKick a v) s = after s (onSafe d (fun x => { x with kick := some s.dev.dt }))) ∧
  (∀ (s : State) a v t d n, Written s.dev a SE_DEADMAN_KICK v d n → v = 0xA5A5 → s.dev.safe.kick = some t → s.dev.dt ≤
    t + 1000000 → exec (.deadmanKick a v) s = after s (if s.dev.safe.dmFrom.isSome then startDeadman (onSafe d (fun x
    => { x with kick := none })) else onSafe d (fun x => { x with kick := none }))) ∧
  (∀ (s : State) a v d n, Written s.dev a SE_DEADMAN_KICK v d n → (v = 0x5A5A ∧ s.dev.safe.kick.isNone = true) = False
    → (v = 0xA5A5 ∧ s.dev.safe.kick.any (fun t => decide (s.dev.dt ≤ t + 1000000)) = true) = False → exec
    (.deadmanKick a v) s = after s (logErr (bump (onSafe d (fun x => { x with kick := none })) SE_DEADMAN_STAT
    SE_DEADMAN_STAT_BAD_KICKS) ecBAD_SEQUENCE a.mid.toNat SE_DEADMAN_KICK v a.secure)) ∧
  (∀ (s : State) k, domUp s.dev 2 = true → s.dev.safe.halted = false → exec (.monitorDetect k) s = after s
    (latchMonitor s.dev k.val)) ∧
  (∀ (s : State), domUp s.dev 2 = true → s.dev.safe.halted = false → exec .lockstepFault s = after s (latchMonitor
    (safeState (fs (onSafe s.dev (fun x => { x with halted := true })) SF_STATUS SF_STATUS_LOCKSTEP 1)) 9)) ∧
  (∀ (s : State) a v w d n, w = putBits v 31 30 2 → Written s.dev a SF_CAUTION w d n → cautionBad s.dev w = none → bit
    w 31 = true → exec (.cautionEnter a v) s = after s (enterCaution (fs (fs d SF_CAUTION SF_CAUTION_ENTER (bits (rd
    s.dev SF_CAUTION) 31 31)) SF_CAUTION SF_CAUTION_EXIT (bits (rd s.dev SF_CAUTION) 30 30)) 0)) ∧
  (∀ (s : State) a v w d n e, w = putBits v 31 30 1 → Written s.dev a SF_CAUTION w d n → cautionBad s.dev w = none →
    bit w 31 = false → bit w 30 = true → e = fs (fs d SF_CAUTION SF_CAUTION_ENTER (bits (rd s.dev SF_CAUTION) 31 31))
    SF_CAUTION SF_CAUTION_EXIT (bits (rd s.dev SF_CAUTION) 30 30) → modeOf d = mCAU → exec (.cautionExit a v) s =
    after s (leaveCaution (cautionGpu e)))

/-- Booting, firmware and the frame starts have their effect (R50, R72, R439 to R448): the loader starts, takes its
command, verifies an image, runs or times out, images are staged, discarded and cut over, the new firmware becomes
ready or is rolled back, and a frame starts. -/
def Obligations.BootRuns : Prop :=
  (∀ (s : State) d e g, s.dev.pm.begun = false → d = showStore (fs (freshSector
    { s.dev with pm := { s.dev.pm with begun := true } }) PM_STORE_STAT PM_STORE_STAT_PRESENT
    s.dev.pm.storePresent.toNat) → e = fs d PM_BOOT_STAT PM_BOOT_STAT_FAILS (sat (bootFails d) 15) → g = (if
    s.dev.bootMode = 1 ∧ s.dev.pm.storePresent then trainDram e else e) → exec .bootStart s = after s (if
    s.dev.bootMode ≥ 2 ∨ bootFails (if s.dev.bootMode ≥ 3 then logErr g ecBOOT_STRAP 0 PM_BOOT_STAT (BitVec.ofNat 32
    s.dev.bootMode) else g) ≥ 3 then enterRecovery (if s.dev.bootMode ≥ 3 then logErr g ecBOOT_STRAP 0 PM_BOOT_STAT
    (BitVec.ofNat 32 s.dev.bootMode) else g) 0 else setLdr (if s.dev.bootMode ≥ 3 then logErr g ecBOOT_STRAP 0
    PM_BOOT_STAT (BitVec.ofNat 32 s.dev.bootMode) else g) 0 0)) ∧
  (∀ (s : State) a v w d n e, w = putBits v 31 28 1 → Written s.dev a PM_LDR_CMD w d n → bits w 31 28 = 1 → ldrState d
    = 0 ∨ ldrState d = 5 ∨ ldrState d = 6 → d.pm.begun = true → e = fs (setLdr
    { (writeBootState d (bootFails d + 1)) with pm := { (writeBootState d (bootFails d + 1)).pm with loading := true } }
    1 0) PM_LDR_STAT PM_LDR_STAT_FETCHED 0 → exec (.loaderLoad a v) s = after s (emit e (.hostRead 0 (rd64 e
    PM_LDR_ADDR_LO) (16 * fg e PM_LDR_CNT PM_LDR_CNT_COUNT)))) ∧
  (∀ (s : State) a v w d n, w = putBits v 31 28 2 → Written s.dev a PM_LDR_CMD w d n → bits w 31 28 = 2 → ldrState d =
    6 → exec (.storeFormat a v) s = after s (formatStore d)) ∧
  (∀ (s : State) img d e, s.dev.pm.loading = true → d = fs s.dev PM_LDR_STAT PM_LDR_STAT_FETCHED (sat (img.bytes / 2 ^
    20) 65535) → imageCause img = 0 → e = putImage (setLdr d 3 0) 0 (imageOf img) → exec (.imageVerifyDone img) s =
    after s (releaseOuts (startDeadman
    { e with pm := { e.pm with loading := false, verifyDt := e.dt, running := 0 } }))) ∧
  (∀ (s : State) img d, s.dev.pm.loading = true → d = fs s.dev PM_LDR_STAT PM_LDR_STAT_FETCHED (sat (img.bytes / 2 ^
    20) 65535) → imageCause img ≠ 0 → exec (.imageVerifyDone img) s = after s (bootFailed d (imageCause img))) ∧
  (∀ (s : State), ldrState s.dev = 3 → exec .bootTimeout s = after s (bootFailed (advance (s.dev.pm.verifyDt +
    2000000000) s.dev) 0)) ∧
  (∀ (s : State) d e, ldrState s.dev = 3 → e = setSlot (wr (setLdr s.dev 4 0) PM_FW_VER (slotImage s.dev 0).version) 0
    3 → d = copyCauses (restoreMap (writeBootState (fs
    { e with pm := { e.pm with booted := true, recovery := false } } PM_BOOT_STAT PM_BOOT_STAT_SLOT 0) 0)) →
    s.dev.heritage = true → exec .bootRunning s = after s (heritageBoot d)) ∧
  (∀ (s : State) d e, ldrState s.dev = 3 → e = setSlot (wr (setLdr s.dev 4 0) PM_FW_VER (slotImage s.dev 0).version) 0
    3 → d = copyCauses (restoreMap (writeBootState (fs
    { e with pm := { e.pm with booted := true, recovery := false } } PM_BOOT_STAT PM_BOOT_STAT_SLOT 0) 0)) →
    s.dev.heritage = false → exec .bootRunning s = after s (showRate ((List.range 4).foldl bootDisplayOf d))) ∧
  (∀ (s : State) f r img q0 rest q d x e, (ringSt s.dev f.val r.val).queue = q0 :: rest → Runs
    { s.dev with pm := { s.dev.pm with stagedLoads := { ring := r.val, idx := q0.idx, cause := imageCause img, img := imageOf img } :: s.dev.pm.stagedLoads } }
    f.val r.val 0x630 [] chkFwStage q d → d.pm.stagedLoads.find? (fun y => decide (y.ring = r.val) && decide (y.idx =
    q.idx)) = some x → e = purgeRing (stageImage
    { d with pm := { d.pm with stagedLoads := d.pm.stagedLoads.filter (fun y => y != x) } } f.val r.val q x.cause
    x.img) f.val r.val → exec (.fwStageLoad f r img) s = after s (if (liveDesc e f.val r.val q0.idx).isSome then e
    else
    { e with pm := { e.pm with stagedLoads := e.pm.stagedLoads.filter (fun y => y != { ring := r.val, idx := q0.idx, cause := imageCause img, img := imageOf img }) } })) ∧
  (∀ (s : State) f r q d, Runs s.dev f.val r.val 0x631 [] chkFwStage q d → exec (.fwStageDiscard f r) s = ran s f.val
    r.val (if slotState d (fwSlot q) = 3 then complete d f.val r.val q.idx stERR_PERM else complete (putImage (setSlot
    d (fwSlot q) 0) (fwSlot q) default) f.val r.val q.idx stOK)) ∧
  (∀ (s : State) f r q d, Runs s.dev f.val r.val 0x640 [] chkCutover q d → q.cp = none → (raster d (bits (at4 q.words
    0x10) 7 4)).had = true → d.pm.cut.pendingOn = none → exec (.fwCutover f r) s = ran s f.val r.val (onCut d (fun c
    => { c with pendingOn := some (bits (at4 q.words 0x10) 7 4), slot := fwSlot q, desc := some (r.val, q.idx) }))) ∧
  (∀ (s : State) f r q d, Runs s.dev f.val r.val 0x640 [] chkCutover q d → (raster d (bits (at4 q.words 0x10) 7
    4)).had = false → cutRefused d (fwSlot q) = none → exec (.fwCutover f r) s = ran s f.val r.val (openWindow d
    (fwSlot q) (some (r.val, q.idx)))) ∧
  (∀ (s : State), s.dev.pm.cut.window = true → ¬ s.dev.pm.cut.tc + 40000000 < s.dev.dt → s.dev.pm.cut.rollback = true
    → exec .firmwareReady s = after s (closeWindow (addCause s.dev 0x0A 0 0) stLATE 0)) ∧
  (∀ (s : State) us d e, s.dev.pm.cut.window = true → ¬ s.dev.pm.cut.tc + 40000000 < s.dev.dt → s.dev.pm.cut.rollback
    = false → us = (s.dev.dt - s.dev.pm.cut.tc) / 1000 → d = setSlot (setSlot s.dev s.dev.pm.running 2)
    s.dev.pm.cut.slot 3 → e = wr (fs { d with pm := { d.pm with running := s.dev.pm.cut.slot } } PM_BOOT_STAT
    PM_BOOT_STAT_SLOT s.dev.pm.cut.slot) PM_FW_VER (slotImage d s.dev.pm.cut.slot).version → exec .firmwareReady s =
    after s (closeWindow (powerEvent (addCause e 9 0 0) 6 s.dev.pm.cut.slot us) stOK us)) ∧
  (∀ (s : State) d, s.dev.pm.cut.window = true → d = advance (s.dev.pm.cut.tc + 40000000) s.dev →
    s.dev.pm.cut.rollback = true → exec .cutoverTimeout s = after s (closeWindow (addCause d 0x0A 0 0) stLATE 0)) ∧
  (∀ (s : State) d, s.dev.pm.cut.window = true → d = advance (s.dev.pm.cut.tc + 40000000) s.dev →
    s.dev.pm.cut.rollback = false → exec .cutoverTimeout s = after s (startDeadman (onCut (powerEvent (setSlot d
    s.dev.pm.cut.slot 4) 7 s.dev.pm.cut.slot 2) (fun c => { c with rollback := true, tc := d.dt })))) ∧
  (∀ (s : State) p x k t e d g z, x = raster s.dev p.val → x.had = true → x.vtot ≠ 0 → teWaits s.dev p.val = false →
    (scans s.dev p.val && x.hold.any (fun h => decide (h < frameNext s.dev p.val * x.vtot))) = false → k = frameNext
    s.dev p.val → t = dtOf x k 0 → e = advance t s.dev → d = count (onPlat (setRaster e p.val (frameRaster e p.val k
    t)) p.val (fun y => { y with started := some k })) (162 + p.val) → g = takeMode (pruneCfgs (clearFaults (bklFrame
    (flOut (if fb d (TT_FL_CTRL p.val) TT_FL_CTRL_EN then d else onFl d p.val (fun y => { y with corr := 0 })) p.val)
    p.val) p.val k) p.val k) p.val → z = (if g.heritage && scans g p.val then mdhIrq g p.val else g) → exec
    (.frameStart p) s = after s (cutoverFrame (if scans z p.val = true ∧ (!(platRun z p.val).psr) = true ∧ (platRun z
    p.val).psrExit ≠ some k then frameCrc (if scans z p.val then count z (394 + 2 * p.val) else z) p.val (k - 1) else
    (if scans z p.val then count z (394 + 2 * p.val) else z)) p.val))

/-- The configuration store, the counters and the error log have their effect (R449 to R452, R477 to R485): records are
read, written, deleted and listed, a write that is waiting is done, a sector is compacted, a snapshot is taken and
written, the counter clock is read, and errors of the memories are corrected, marked, scrubbed and told. -/
def Obligations.StoreAndCountersRun : Prop :=
  (∀ (s : State) f r q d, Runs s.dev f.val r.val 0x680 [] (chkStore false full) q d → currentRec d (storeName q).1
    (storeName q).2 = none → exec (.storeRwRead f r) s = ran s f.val r.val (complete d f.val r.val q.idx stOK
    0xFFFFFFFF)) ∧
  (∀ (s : State) f r q d x e, Runs s.dev f.val r.val 0x680 [] (chkStore false full) q d → currentRec d (storeName q).1
    (storeName q).2 = some x → ¬ (at4 q.words 0x20).toNat < x.len → memWritePages (pagesFuel x.len) d f.val f.val (at8
    q.words 0x18) ((wordBytes x.payload).take x.len) = (e, true) → exec (.storeRwRead f r) s = ran s f.val r.val
    (complete e f.val r.val q.idx stOK x.len)) ∧
  (∀ (s : State) f r q d m, Runs s.dev f.val r.val 0x681 [m] (chkStore true 65496) q d → (at4 q.words 0x20).toNat = 0
    → exec (.storeRwWrite f r m) s = ran s f.val r.val (storeWrite d (storeName q).1 (storeName q).2 [] 0 false (some
    (f.val, r.val, q.idx)))) ∧
  (∀ (s : State) f r q d m e ws, Runs s.dev f.val r.val 0x681 [m] (chkStore true 65496) q d → (at4 q.words 0x20).toNat
    ≠ 0 → memRead d f.val f.val (at8 q.words 0x18) (cdiv (at4 q.words 0x20).toNat 4) (q.mem.headD
    { data := [], ecc := false, ats := false }) = (e, .words ws) → exec (.storeRwWrite f r m) s = ran s f.val r.val
    (storeWrite e (storeName q).1 (storeName q).2 (padWords ws (at4 q.words 0x20).toNat) (at4 q.words 0x20).toNat
    false (some (f.val, r.val, q.idx)))) ∧
  (∀ (s : State) f r q d, Runs s.dev f.val r.val 0x682 [] (chkStore true full) q d → exec (.storeRwDelete f r) s = ran
    s f.val r.val (storeWrite d (storeName q).1 (storeName q).2 [] 0 true (some (f.val, r.val, q.idx)))) ∧
  (∀ (s : State) f r q d e ok, Runs s.dev f.val r.val 0x683 [] (chkStore false full) q d → memWrite d f.val f.val (at8
    q.words 0x18) ([d.pm.storeSectors * 65536, (erasedSectors d).length, ((topRecs d).filter (fun r =>
    !r.deleted)).length, d.pm.storeErases.foldl (fun m p => max m p.2) 0].flatMap (leBytes 4)) = (e, ok) → exec
    (.storeRwInfo f r) s = ran s f.val r.val (complete e f.val r.val q.idx (if ok then stOK else stERR_FAULT))) ∧
  (∀ (s : State) j js d e, s.dev.pm.storeJobs = j :: js → d = { s.dev with pm := { s.dev.pm with storeJobs := js } } →
    appendRec d { j.item with seq := d.pm.storeSeq } = some e → exec .storeWriteDone s = after s (storeAnswer
    (showStore { e with pm := { e.pm with storeSeq := e.pm.storeSeq + 1 } }) j.waiter stOK)) ∧
  (∀ (s : State) j js d, s.dev.pm.storeJobs = j :: js → d = { s.dev with pm := { s.dev.pm with storeJobs := js } } →
    appendRec d { j.item with seq := d.pm.storeSeq } = none → exec .storeWriteDone s = after s (storeAnswer (showStore
    d) j.waiter stNO_RESOURCE)) ∧
  (∀ (s : State) k d, ¬ (erasedSectors s.dev).length ≥ 2 → oldestSector s.dev = some k → copyRecs ((topRecs
    s.dev).filter (fun r => decide (r.sector = k) && !r.deleted)) s.dev = some d → exec .storeCompaction s = after s
    (showStore
    { d with pm := { d.pm with store := d.pm.store.filter (fun r => r.sector != k), storeErases := SMap.mod d.pm.storeErases k (fun n => n + 1) } })) ∧
  (∀ (s : State) f r q0 rest q d, (ringSt s.dev f.val r.val).queue = q0 :: rest → descRefusal s.dev f.val r.val q0
    chkSnapshot = none → Runs s.dev f.val r.val 0x660 [] chkSnapshot q d → exec (.snapshot f r) s = ran s f.val r.val
    (freeze d 0xFFFF [(r.val, q.idx, at8 q.words 0x18)])) ∧
  (∀ (s : State) n d e x, s.dev.ctr.busy = true → x = advance s.dev.ctr.freezeDt s.dev → n = (x.ctr.seq + 1) % 2 ^ 32
    → d = x.ctr.jobs.foldl (fun d j => writeSnap d n j) x → e =
    { d with ctr := { d.ctr with busy := false, jobs := [], seq := n } } → exec .snapshotDone s = after s (fs (fs e
    CT_SNAP_STAT CT_SNAP_STAT_BUSY 0) CT_SNAP_STAT CT_SNAP_STAT_SEQ (n % 65536))) ∧
  (∀ (s : State) a d e, serveDomain s.dev 4 = (d, true) → reachesBar0 a = true → e =
    { d with tt := { d.tt with ctHi := SMap.set d.tt.ctHi a.mid.toNat (ctShown d / 2 ^ 32) }, freeCtr := d.freeCtr + 1 }
    → exec (.counterRead a) s = after s (emit e (.readData a.mid.toNat CT_VAL_LO (maskBytes a.be (loWord (ctShown
    d)))))) ∧
  (∀ (s : State) src addr c n d e, c = eccChannel src addr → n = (if (SMap.get s.dev.ctr.ceRun (16 * eccCode src +
    c)).1 = s.dev.dt / 10 ^ 9 then (SMap.get s.dev.ctr.ceRun (16 * eccCode src + c)).2 + 1 else 1) → d = eccRegs
    { s.dev with ctr := { s.dev.ctr with ceRun := SMap.set s.dev.ctr.ceRun (16 * eccCode src + c) (s.dev.dt / 10 ^ 9, n) } }
    src addr false → e = (if src = .dram then count d (578 + 4 * c + 2) else d) → exec (.eccCorrected (.memory src)
    addr) s = after s (if fg s.dev MC_ECC_CFG MC_ECC_CFG_CE_THR ≠ 0 ∧ n = fg s.dev MC_ECC_CFG MC_ECC_CFG_CE_THR + 1
    then post e 0 clERROR 3 0 (pb 0 (eccCode src) + pb 1 c + pw32 4 n) else e)) ∧
  (∀ (s : State) k addr, exec (.eccCorrected (.cluster k) addr) s = after s (fs (bump s.dev GX_TM_ECC
    GX_TM_ECC_CORRECTED) GX_TM_ECC GX_TM_ECC_CLUSTER k.val)) ∧
  (∀ (s : State) src addr mid pw d, d = eccUe s.dev src addr mid.toNat → exec (.eccUncorrectable src addr mid pw) s =
    after s (if pw ∧ src = .dram ∧ addr < dramSize s.dev then
    { d with err := { d.err with badLines := SMap.set d.err.badLines (addr / 64) true } } else d)) ∧
  (∀ (s : State) d, domState s.dev 5 < 3 → d = (if SMap.get s.dev.err.badLines s.dev.err.patrol then eccUe s.dev .dram
    (64 * s.dev.err.patrol) 0xFF else s.dev) → exec (.patrolScrub .dram) s = after s (if 64 * (s.dev.err.patrol + 1) ≥
    dramSize s.dev then fs { d with err := { d.err with patrol := 0 } } MC_SCRUB_STAT MC_SCRUB_STAT_PASSES (fg d
    MC_SCRUB_STAT MC_SCRUB_STAT_PASSES + 1) else { d with err := { d.err with patrol := s.dev.err.patrol + 1 } })) ∧
  (∀ (s : State) d, s.dev.err.unreported ≠ 0 → fb s.dev ER_CTRL ER_CTRL_EVT_EN = true → d = (s.dev.err.lastPost.map
    (fun t => advance (t + 10 ^ 6) s.dev)).getD s.dev → exec .errLogged s = after s (post
    { d with err := { d.err with unreported := 0, lastPost := some d.dt } } 0 clERROR 1 0 (pw32 4
    s.dev.err.unreported)))

/-- The pair has its effect (R407 to R412, R416, R418 to R423): the fence input is obeyed and released, a pair is formed,
left and swapped, a resynchronisation ends, records are sent again, the link or the heartbeat is lost, and the
watchdog of the software acts. -/
def Obligations.PairRuns : Prop :=
  (∀ (s : State) d, s.dev.pair.fenceIn = false → d = onPair s.dev (fun x => { x with fenceIn := true }) → exec
    .fenceInAssert s = after s (if dhState d = 0 then fs (fencePorts d) GL_MODE GL_MODE_FENCED 1 else if fenceIgnored
    d then d else obeyFence d false)) ∧
  (∀ (s : State), s.dev.pair.fenceIn = true → exec .fenceInRelease s = after s (unfence (onPair s.dev (fun x =>
    { x with fenceIn := false })))) ∧
  (∀ (s : State) f r q d e g, s.dev.pair.form = none → Runs s.dev f.val r.val 0x650 [] chkForm q d → e = onPair d (fun
    x => { x with form := some { ring := r.val, idx := q.idx, role := bits (at4 q.words 0x10) 27 27, t0 := d.dt } }) →
    g = purgeRing (if dhState d = 0 ∨ dhState d = 7 then setHeartbeat (setDh (setRole e (bits (at4 q.words 0x10) 27 27
    == 1)) 1) true else e) f.val r.val → exec (.pairForm f r none) s = after s g) ∧
  (∀ (s : State) f r q d e g x, s.dev.pair.form = none → Runs s.dev f.val r.val 0x650 [] chkForm q d → e = onPair d
    (fun x =>
    { x with form := some { ring := r.val, idx := q.idx, role := bits (at4 q.words 0x10) 27 27, t0 := d.dt } }) → g =
    purgeRing (if dhState d = 0 ∨ dhState d = 7 then setHeartbeat (setDh (setRole e (bits (at4 q.words 0x10) 27 27 ==
    1)) 1) true else e) f.val r.val → domUp g 15 = true → exec (.pairForm f r (some x)) s = after s (formMeets g x)) ∧
  (∀ (s : State) f r q d, Runs s.dev f.val r.val 0x651 [] chkLeave q d → exec (.pairLeave f r) s = ran s f.val r.val
    (complete (toStandalone d) 0 r.val q.idx stOK)) ∧
  (∀ (s : State) f r q d a, Runs s.dev f.val r.val 0x652 [] chkSwap q d → a = bits (at4 q.words 0x10) 3 0 → q.cp =
    none → exec (.pairSwap f r) s = ran s f.val r.val (onPair (acceptCommit d f.val (.desc f.val r.val q.idx) a
    (maskOfList (a :: enabledPlats d)) q.cp false true [.swap]) (fun x => { x with swapping := true }))) ∧
  (∀ (s : State) j d, s.dev.pair.form = some j → dhState s.dev ≠ 2 → d = endForm (advance (j.t0 + 1000000000) s.dev)
    stERR_DOWN 0 → exec .formTimeout s = after s (if dhState d = 1 then toStandalone d else d)) ∧
  (∀ (s : State), dhState s.dev = 2 → dhBanker s.dev = true → s.dev.pair.copyDone = true → (enabledPlats s.dev).all
    (fun p => flState s.dev p == 2) = true → exec .bankerHot s = after s (pairEvent (endForm (setDh s.dev 4) stOK 0) 1
    1)) ∧
  (∀ (s : State), dhState s.dev = 2 → dhBanker s.dev = false → exec .bankerHot s = after s (pairEvent (endForm (setDh
    s.dev 3) stOK 0) 1 0)) ∧
  (∀ (s : State), dhState s.dev = 3 → s.dev.pair.swapping = true → (ctxKeys s.dev).all (fun c => (gctx s.dev
    c).job.isNone) = true → s.dev.pair.acked ≥ s.dev.pair.seqOut → swapLanded s.dev = true → exec .swapTakeEffect s =
    after s (giveLead s.dev)) ∧
  (∀ (s : State) x, dhState s.dev = 4 → heldSwap s.dev = some x → exec .swapTakeEffect s = after s (takeLead s.dev x)) ∧
  (∀ (s : State), mirroring s.dev = true → exec .doneRecordSend s = after s (linkSend s.dev 0x07 (s.dev.fns.flatMap
    (fun p => (p.2.rings.filter (fun r => r.2.c != 0)).flatMap (fun r => if r.2.entry.type = 4 then [p.1, r.1, 0,
    r.2.c] else [p.1, r.1, r.2.c, 0]))))) ∧
  (∀ (s : State), exec .rasterRecordSend s = after s (linkSend (sendBaselines s.dev) 0x0A (s.dev.dt :: (enabledPlats
    s.dev).flatMap (fun p => [p, (lineNow s.dev p).1, (lineNow s.dev p).2, frameDt s.dev p])))) ∧
  (∀ (s : State), linkRuns s.dev = true → ¬ s.dev.pair.acked ≥ s.dev.pair.seqOut → s.dev.pair.retries ≥ 3 → exec
    .linkRetransmitTimeout s = after s (linkLost (onPair s.dev (fun x => { x with retries := 0 })) 1)) ∧
  (∀ (s : State), linkRuns s.dev = true → ¬ s.dev.pair.acked ≥ s.dev.pair.seqOut → ¬ s.dev.pair.retries ≥ 3 → exec
    .linkRetransmitTimeout s = after s (bump (onPair (count s.dev 638) (fun x => { x with retries := x.retries + 1 }))
    DH_LINK_STAT DH_LINK_STAT_RETRIES)) ∧
  (∀ (s : State), linkRuns s.dev = true → fb s.dev DH_STATUS DH_STATUS_HB_ALIVE = true → exec .linkSilenceTimeout s =
    after s (linkLost s.dev 3)) ∧
  (∀ (s : State) d, d = fs (setForward s.dev []) DH_STATUS DH_STATUS_HB_ALIVE 0 → dhState d = 4 → exec .heartbeatLost
    s = after s (takeover d)) ∧
  (∀ (s : State) d, d = fs (setForward s.dev []) DH_STATUS DH_STATUS_HB_ALIVE 0 → dhState d = 2 → exec .heartbeatLost
    s = after s (pairEvent (setDh (endForm d stERR_DOWN 0) 6) 4 (1 - (dhBanker (setDh (endForm d stERR_DOWN 0)
    6)).toNat))) ∧
  (∀ (s : State) d, d = fs (setForward s.dev []) DH_STATUS DH_STATUS_HB_ALIVE 0 → dhState d = 6 → exec .heartbeatLost
    s = after s (pairEvent (setDh (endForm d stERR_DOWN 0) 6) 4 (1 - (dhBanker (setDh (endForm d stERR_DOWN 0)
    6)).toNat))) ∧
  (∀ (s : State) d, d = fs (setForward s.dev []) DH_STATUS DH_STATUS_HB_ALIVE 0 → dhState d = 3 → exec .heartbeatLost
    s = after s (pairEvent (setFenceOut (setDh d 5) true) 4 (1 - (dhBanker (setFenceOut (setDh d 5) true)).toNat))) ∧
  (∀ (s : State), s.dev.pair.polling = true → exec .takeoverDoorbellPoll s = after s (readAllRings s.dev)) ∧
  (∀ (s : State) a v d n, Written s.dev a DH_CTRL v d n → exec (.remapDone a v) s = after s (if bit n 0 then onPair d
    (fun x => { x with polling := false }) else d)) ∧
  (∀ (s : State) a v d n, Written s.dev a DH_ALIVE v d n → exec (.aliveWrite a v) s = after s (if dhState (onPair d
    (fun x => { x with aliveDt := d.dt })) = 0 then onPair d (fun x => { x with aliveDt := d.dt }) else setHeartbeat
    (onPair d (fun x => { x with aliveDt := d.dt })) true)) ∧
  (∀ (s : State), fg s.dev DH_HB_CFG DH_HB_CFG_ALIVE_MS ≠ 0 → dhState s.dev ≠ 0 → exec .aliveTimeout s = after s
    (setHeartbeat (advance (s.dev.pair.aliveDt + fg s.dev DH_HB_CFG DH_HB_CFG_ALIVE_MS * 1000000) s.dev) false)) ∧
  (∀ (s : State) f flr, dhState s.dev = 4 → exec (.configDiverge f flr) s = after s (pairEvent (setDh s.dev 6) 9
    (f.val + flr.toNat * 256))) ∧
  (∀ (s : State) d, linkRuns s.dev = true → d = bump s.dev DH_LINK_STAT DH_LINK_STAT_AUTH_FAILS → s.dev.pair.authRun ≥
    2 → exec .authenticationFail s = after s (linkLost (onPair d (fun x => { x with authRun := 0 })) 2)) ∧
  (∀ (s : State) d, linkRuns s.dev = true → d = bump s.dev DH_LINK_STAT DH_LINK_STAT_AUTH_FAILS → ¬ s.dev.pair.authRun
    ≥ 2 → exec .authenticationFail s = after s (onPair d (fun x => { x with authRun := x.authRun + 1 })))

/-- A record that comes next has its effect on the banker (R405, R406, R410, R412, R415 to R417): descriptors, landings,
writes, states, completions, signatures, positions and rasters of the lead are taken, an acknowledgement moves the
window, the last of a resynchronisation ends it, and a rejection fences. -/
def Obligations.RecordsRun : Prop :=
  (∀ (s : State) h f r slot ws tables d, NextRec s.dev h d → exec (.recDesc h f r slot ws tables) s = after s
    (applyDesc f.val r.val slot ws tables d)) ∧
  (∀ (s : State) h id o anchor group land d, NextRec s.dev h d → exec (.recCommit h id o anchor group land) s = after
    s (applyCommit id (srcOf o) anchor.val group.toNat (natLand land) d)) ∧
  (∀ (s : State) h id land d, NextRec s.dev h d → exec (.recRestamp h id land) s = after s (applyRestamp id (land.map
    natLand) d)) ∧
  (∀ (s : State) h addr bytes mask d, NextRec s.dev h d → exec (.recWrite h addr bytes mask) s = after s (applyWrite
    addr bytes mask.toNat d)) ∧
  (∀ (s : State) h item d, NextRec s.dev h d → exec (.recState h item) s = after s (applyItem item d)) ∧
  (∀ (s : State) h f r slot w d, NextRec s.dev h d → exec (.recOut h f r slot w) s = after s (applyOut
    { f := f.val, r := r.val, slot := slot, words := w } d)) ∧
  (∀ (s : State) h last d, NextRec s.dev h d → exec (.recDone h last) s = after s (last.foldl (fun d x => trimOut d
    { f := x.1.val, r := x.2.1.val, comp := x.2.2.1, evt := x.2.2.2 }) d)) ∧
  (∀ (s : State) h p r frame crc subst landIn d, NextRec s.dev h d → exec (.recSig h p r frame crc subst landIn) s =
    after s (applySig { plat := p.val, region := r.val, frame := frame, crc := crc } d)) ∧
  (∀ (s : State) h bs pos d, NextRec s.dev h d → exec (.recMedia h bs pos) s = after s (applyMedia (bs.map (fun b =>
    (b.1.val, b.2))) (pos.map (fun b => (b.1.val, b.2))) d)) ∧
  (∀ (s : State) h leadDt rpos d, NextRec s.dev h d → exec (.recRaster h leadDt rpos) s = after s (applyRaster leadDt
    (natLand rpos) d)) ∧
  (∀ (s : State) h addr bytes items last d, NextRec s.dev h d → exec (.recSync h addr bytes items last) s = after s
    (applySync addr bytes items last d)) ∧
  (∀ (s : State) h upTo rttNs d, dhState s.dev ≠ 0 → dhState s.dev ≠ 7 → domUp s.dev 15 = true → d = onPair (count
    s.dev 637) (fun x => { x with authRun := 0 }) → staleRec d h = false → exec (.recAck h upTo rttNs) s = after s
    (applyAck upTo.toNat rttNs (if crewEpoch d = h.epoch.toNat then d else fs d DH_STATUS DH_STATUS_CREW_EPOCH
    h.epoch.toNat))) ∧
  (∀ (s : State) h theirs, dhState s.dev ≠ 0 → dhState s.dev ≠ 7 → domUp s.dev 15 = true → staleRec s.dev h = false →
    exec (.recReject h theirs) s = after s (obeyFence (count s.dev 637) true))

/-- Functions have their effect (R121 to R125, R127, R128, R134, R138 to R144): the partition table changes, a function
departs, is quiesced, saved, restored and resumed, its writes are logged, VFs come and go, and invalidations run to
their end. -/
def Obligations.GuestsRun : Prop :=
  (∀ (s : State) f r q d, Runs s.dev f.val r.val 0x600 [] chkPartition q d → exec (.partition f r) s = ran s f.val
    r.val (acceptCommit d f.val (.desc f.val r.val q.idx) (ptAnchor d q) (ptNewGroup d q) q.cp (strictOf q.words) true
    [.partition (ptFn q) (ptNew q)])) ∧
  (∀ (s : State) a v d k ws e b, ptWordWrite a 0 v s.dev = (d, true) → k = ptSelOf d a.mid.toNat → ws = v ::
    (List.range 15).map (fun j => (SMap.get (SMap.get d.ptStage a.mid.toNat) (j + 1)).getD (wd (futurePt d k) (j +
    1))) → e = { d with ptStage := SMap.set d.ptStage a.mid.toNat [] } → d.heritage = false → ptBad e k ws = some b →
    exec (.partitionWindowSubmit a v) s = after s (logErr (fs e HS_PT_STAT HS_PT_STAT_LAST b.1) ecCONFLICT a.mid.toNat
    (HS_PT_W 0) v a.secure)) ∧
  (∀ (s : State) a v d k ws e g, ptWordWrite a 0 v s.dev = (d, true) → k = ptSelOf d a.mid.toNat → ws = v ::
    (List.range 15).map (fun j => (SMap.get (SMap.get d.ptStage a.mid.toNat) (j + 1)).getD (wd (futurePt d k) (j +
    1))) → e = { d with ptStage := SMap.set d.ptStage a.mid.toNat [] } → d.heritage = false → ptBad e k ws = none →
    d.pm.cut.window = false → g = ptGroup e k ws → exec (.partitionWindowSubmit a v) s = after s (acceptCommit (fs e
    HS_PT_STAT HS_PT_STAT_BUSY 1) 0 (.window a.mid.toNat) (lowestOf g) g none false true [.partition k ws])) ∧
  (∀ (s : State) a v d, maskedWrite a HS_PT_SEL v s.dev = (d, true) → bits v 4 0 ≠ ptSelOf d a.mid.toNat → exec
    (.ptSelWrite a v) s = after s
    { d with ptSel := SMap.set d.ptSel a.mid.toNat (bits v 4 0), ptStage := SMap.set d.ptStage a.mid.toNat [] }) ∧
  (∀ (s : State) a v d, maskedWrite a HS_PT_SEL v s.dev = (d, true) → bits v 4 0 = ptSelOf d a.mid.toNat → exec
    (.ptSelWrite a v) s = after s d) ∧
  (∀ (s : State) f r q d, Runs s.dev f.val r.val 0x611 [] chkDepart q d → exec (.fnCtrlDepart f r) s = ran s f.val
    r.val (onFn (startDeparture d (fcFn q) 3) (fcFn q) (fun x =>
    { x with dep := { x.dep with waiters := x.dep.waiters ++ [(r.val, q.idx)] } }))) ∧
  (∀ (s : State) f r q d k e, Runs s.dev f.val r.val 0x612 [] (chkFnCtrl [1]) q d → k = fcFn q → e = onFn d k (fun x
    =>
    { x with qui := { on := true, ring := r.val, idx := q.idx, limit := d.dt + 1000 * (if (at4 q.words 0x14).toNat = 0 then 10000 else (at4 q.words 0x14).toNat), done := false, dtQ := 0, frames := [] } })
    → exec (.fnCtrlQuiesce f r) s = ran s f.val r.val (gpuRun (quiesceHaptics (pauseStreams (quiesceJobs
    { e with commits := e.commits.map (fun c => if c.fn = k ∧ !c.bound ∧ c.landed = [] then { c with held := true } else c) }
    k) k) k))) ∧
  (∀ (s : State) f, (fnSt s.dev f.val).qui.on = true → quiesceOver s.dev f.val = true → exec (.quiesceDone f) s =
    after s (endQuiesce (setFnState (onFn (noteQuiesced s.dev f.val) f.val (fun x =>
    { x with qui := { x.qui with done := true } })) f.val 3) f.val stOK)) ∧
  (∀ (s : State) f, (fnSt s.dev f.val).qui.on = true → exec (.quiesceTimeout f) s = after s (gpuRun (rerunRings
    (resumeStreams (unholdAll (endQuiesce (advance (fnSt s.dev f.val).qui.limit s.dev) f.val stLATE) f.val) f.val)
    f.val))) ∧
  (∀ (s : State) f r q d k x e, Runs s.dev f.val r.val 0x613 [] (chkFnCtrl [3]) q d → k = fcFn q → x = (fnSt d
    k).restored → e = onFn (setFnState d k 1) k (fun y => { y with restored := default, qui := default }) → exec
    (.fnCtrlResume f r) s = ran s f.val r.val (gpuRun (complete (rerunRings (resumeStreams (x.commits.foldl
    (acceptRestored k) (unholdAll (if x.on ∧ x.layers ≠ [] ∧ ptPlatforms e k ≠ 0 then acceptCommit e k .device
    (lowestOf (ptPlatforms e k)) (ptPlatforms e k) none false false (x.layers.map (fun l => .layer l.layer k l.words))
    else e) k)) k) k) f.val r.val q.idx stOK))) ∧
  (∀ (s : State) f r q d len g ok, Runs s.dev f.val r.val 0x614 [] (chkFnCtrl [3]) q d → len = 0x9C + (fnSt d (fcFn
    q)).qui.blobLen → ¬ (at4 q.words 0x30).toNat < len → memWritePages (pagesFuel len) d 0 0 (at8 q.words 0x18)
    (blobBytes d (fcFn q)) = (g, ok) → exec (.fnCtrlSave f r) s = ran s f.val r.val (complete g f.val r.val q.idx (if
    ok then stOK else stERR_FAULT))) ∧
  (∀ (s : State) f r q d len, Runs s.dev f.val r.val 0x614 [] (chkFnCtrl [3]) q d → len = 0x9C + (fnSt d (fcFn
    q)).qui.blobLen → (at4 q.words 0x30).toNat < len → exec (.fnCtrlSave f r) s = ran s f.val r.val (complete d f.val
    r.val q.idx stNO_RESOURCE len)) ∧
  (∀ (s : State) f r blob m q d x e, Runs
    { s.dev with blobs := s.dev.blobs ++ [{ ring := r.val, idx := ((ringSt s.dev f.val r.val).queue.head?.map (fun q => q.idx)).getD 0, blob := blob }] }
    f.val r.val 0x615 [m] chkRestore q d → d.blobs.find? (fun x => decide (x.ring = r.val) && decide (x.idx = q.idx))
    = some x → e = purgeRing (restoreBlob x.blob f.val r.val q d) f.val r.val → exec (.fnCtrlRestore f r blob m) s =
    after s { e with blobs := e.blobs.filter (fun x => (liveDesc e 0 x.ring x.idx).isSome) }) ∧
  (∀ (s : State) f r q d, Runs s.dev f.val r.val 0x616 [] chkDlStart q d → exec (.fnCtrlDlStart f r) s = ran s f.val
    r.val (complete (onFn { d with dirty := d.dirty.filter (fun x => x.f != fcFn q) } (fcFn q) (fun x =>
    { x with dl := { on := true, mapA := at8 q.words 0x18, mapB := at8 q.words 0x20, base := at8 q.words 0x28, pages := (at4 q.words 0x30).toNat, activeB := false } }))
    f.val r.val q.idx stOK)) ∧
  (∀ (s : State) f r q d e ok, Runs s.dev f.val r.val 0x617 [] chkDl q d → writeBack d (fcFn q) = (e, ok) → exec
    (.fnCtrlHarvest f r) s = ran s f.val r.val (complete (onFn e (fcFn q) (fun x =>
    { x with dl := { x.dl with activeB := !x.dl.activeB } })) f.val r.val q.idx (if ok then stOK else stERR_FAULT))) ∧
  (∀ (s : State) f r q d e ok, Runs s.dev f.val r.val 0x618 [] chkDl q d → writeBack d (fcFn q) = (e, ok) → exec
    (.fnCtrlDlStop f r) s = ran s f.val r.val (complete (onFn e (fcFn q) (fun x => { x with dl := default })) f.val
    r.val q.idx (if ok then stOK else stERR_FAULT))) ∧
  (∀ (s : State) num, s.dev.heritage = false → s.dev.vfEnable = false → s.dev.pm.recovery = false → exec (.vfEnableSet
    num) s = after s (((List.range num.val).map (fun k => k + 1)).foldl (fun d n => if fnState d n = 0 then setFnState
    d n 1 else countEnable d n) { s.dev with vfEnable := true, numVfs := num.val })) ∧
  (∀ (s : State) num, s.dev.heritage = false → s.dev.vfEnable = true → s.dev.pm.recovery = false → exec (.vfEnableSet
    num) s = after s (((List.range s.dev.numVfs).map (fun k => k + 1)).foldl countEnable s.dev)) ∧
  (∀ (s : State) num, s.dev.heritage = false → exec (.vfEnableClear num) s = after s ((vfsThere s.dev).foldl (fun d n
    => startDeparture (addCause d 4 n 0) n 1) { s.dev with vfEnable := false, numVfs := num.val })) ∧
  (∀ (s : State) f d e, fnState s.dev f.val = 2 → departOver s.dev f.val = true → d = departLast (leaveAll s.dev
    f.val) f.val → e = onFn d f.val (fun x => { (default : FnSt) with rings := x.rings }) → f.val = 0 → exec
    (.functionDeparted f) s = after s { setFnState e 0 1 with vfEnable := false }) ∧
  (∀ (s : State) f d e, fnState s.dev f.val = 2 → departOver s.dev f.val = true → d = departLast (leaveAll s.dev
    f.val) f.val → e = onFn d f.val (fun x => { (default : FnSt) with rings := x.rings }) → f.val ≠ 0 → exec
    (.functionDeparted f) s = after s ((fnSt d f.val).dep.waiters.foldl (fun d w => complete d 0 w.1 w.2 stOK) (post
    (setFnState e f.val 0) 0 clFUNCTION 1 f.val (departPay f.val (fnSt d f.val).dep false)))) ∧
  (∀ (s : State), (fnSt s.dev 0).dep.on = true → fnState s.dev 0 = 1 → vfsThere s.dev = [] → exec .f0DepartureStart s
    = after s (startDeparture s.dev 0 0)) ∧
  (∀ (s : State) a v f d n, Written s.dev a (MM_ROOT_LO f.val) v d n → exec (.mmuRootWrite a f v) s = after s
    (beginInval d)) ∧
  (∀ (s : State) a v w d n, w = putBits v 31 30 0 → Written s.dev a MM_INVAL w d n → fb s.dev MM_INVAL_STAT
    MM_INVAL_STAT_DONE = true → ¬ (bits n 31 30 = 1 ∧ bits n 29 13 = 0) → exec (.invalidateFunction a v) s = after s
    (beginInval d)) ∧
  (∀ (s : State) a v w d n, w = putBits v 31 30 1 → Written s.dev a MM_INVAL w d n → fb s.dev MM_INVAL_STAT
    MM_INVAL_STAT_DONE = true → ¬ (bits n 31 30 = 1 ∧ bits n 29 13 = 0) → exec (.invalidateRange a v) s = after s
    (beginInval d)) ∧
  (∀ (s : State) a v w d n, w = putBits v 31 30 2 → Written s.dev a MM_INVAL w d n → fb s.dev MM_INVAL_STAT
    MM_INVAL_STAT_DONE = true → ¬ (bits n 31 30 = 1 ∧ bits n 29 13 = 0) → exec (.invalidateAll a v) s = after s
    (beginInval d)) ∧
  (∀ (s : State), exec .invalidationDone s = after s (fs s.dev MM_INVAL_STAT MM_INVAL_STAT_DONE 1)) ∧
  (∀ (s : State) f iova pages, exec (.atsInvalidate f iova pages) s = after s (emit s.dev (.atsDone f.val iova.toNat
    pages)))

/-- The Heritage interface has its effect (R458, R464 to R469): an update arms a capture, the capture lands or is refused
whole, shadows are written, a soft reset runs to its end, the extension key opens and closes the window, and the
aperture is read and written. -/
def Obligations.HeritageRuns : Prop :=
  (∀ (s : State) be n v, exec (.dispUpdate be n v) s = after s (mdhWrite be (dispCtrl n.val + 8) v s.dev)) ∧
  (∀ (s : State) n d e x, s.dev.heritage = true → bit (mdhReg s.dev (dispCtrl n.val + 8)) 0 = true → d = (if dispOn
    s.dev n.val then advance (nextFrameDt s.dev n.val) s.dev else s.dev) → e = mdhIrq (setMdh d (dispCtrl n.val + 8)
    0) (8 + n.val) → captureFails n.val (captureWords d n.val) = some x → exec (.capture n) s = after s (mdhError e
    n.val x)) ∧
  (∀ (s : State) n d e, s.dev.heritage = true → bit (mdhReg s.dev (dispCtrl n.val + 8)) 0 = true → d = (if dispOn
    s.dev n.val then advance (nextFrameDt s.dev n.val) s.dev else s.dev) → e = mdhIrq (setMdh d (dispCtrl n.val + 8)
    0) (8 + n.val) → captureFails n.val (captureWords d n.val) = none → exec (.capture n) s = after s (acceptCapture e
    n.val (captureWords d n.val))) ∧
  (∀ (s : State) be off v m, s.dev.heritage = true → mdhOccupied off.toNat = true → shadowMask off.toNat = some m →
    exec (.mdhShadowWrite be off v) s = after s (setMdh s.dev off.toNat (BitVec.ofNat 32 ((mdhReg s.dev
    off.toNat).toNat - ((mdhReg s.dev off.toNat).toNat &&& (byteMask be &&& m)) + (v.toNat &&& (byteMask be &&&
    m)))))) ∧
  (∀ (s : State) be v, s.dev.heritage = true → hasBit be.toNat 0 = true → bit v 0 = true → bit (mdhReg s.dev 0x08) 0 =
    false → exec (.softRst be v) s = after s (softReset (setMdh s.dev 0x08 (putBits (mdhReg s.dev 0x08) 1 1 (bits v 1
    1))))) ∧
  (∀ (s : State) t d, s.dev.mdh.softAt = some t → d = (List.range 8).foldl (fun d n => if (platRun d
    n).disFrame.isSome then doPlatformDisable n d else d) (advance t s.dev) → exec .softRstDone s = after s (setMdh
    (onMdh d (fun m => { m with softAt := none })) 0x08 (putBits (mdhReg d 0x08) 0 0 0))) ∧
  (∀ (s : State) a v e d n, Written s.dev a GL_EXT_KEY v d n → v = 0 → e = onMdh d (fun m => { m with key := none }) →
    exec (.extKeyWrite a v) s = after s (fs e GL_EXT_STAT GL_EXT_STAT_STATE 0)) ∧
  (∀ (s : State) a v e d n, Written s.dev a GL_EXT_KEY v d n → v = 0xA11E → s.dev.mdh.key = none → e = onMdh d (fun m
    => { m with key := none }) → exec (.extKeyWrite a v) s = after s (onMdh e (fun m => { m with key := some d.dt }))) ∧
  (∀ (s : State) a v t e d n, Written s.dev a GL_EXT_KEY v d n → v = 0xE11A → s.dev.mdh.key = some t → d.dt ≤ t +
    1000000 → e = onMdh d (fun m => { m with key := none }) → exec (.extKeyWrite a v) s = after s (fs e GL_EXT_STAT
    GL_EXT_STAT_STATE 1)) ∧
  (∀ (s : State) a v e d n, Written s.dev a GL_EXT_KEY v d n → v ≠ 0 → v ≠ 0xA11E → v ≠ 0xE11A → e = onMdh d (fun m =>
    { m with key := none }) → exec (.extKeyWrite a v) s = after s (logErr e ecBAD_SEQUENCE a.mid.toNat GL_EXT_KEY v
    a.secure)) ∧
  (∀ (s : State) off bs len a, s.dev.heritage = true → a = apertureBase s.dev + off.toNat → exec (.apertureAccess off
    (some bs) len) s = after s (dramStore (cleanLines s.dev a (bs.take (2 ^ 28 - off.toNat)).length) a (bs.take (2 ^
    28 - off.toNat)))) ∧
  (∀ (s : State) off len a, s.dev.heritage = true → a = apertureBase s.dev + off.toNat → exec (.apertureAccess off
    none len) s = after s (emit s.dev (.aperture off.toNat (dramBytes s.dev a (min len (2 ^ 28 - off.toNat))))))

/-- A step takes the command at the front of the queue and runs it on the device with the rest of the queue (the interface
of the block, notes/assumptions/1). -/
def Obligations.StepRunsFront : Prop :=
  ∀ (s : State) c rest, s.pending = c :: rest → step s = exec c { s with pending := rest }

/-- On an empty queue one nanosecond of device time passes, or the time to the next step of 40 ns while the clock keeper counts
(R46, R47), and nothing else happens but the counting of running time. That a step is one count is the model's choice
(notes/assumptions/1): no row of the table ticks. -/
def Obligations.IdleStepTicks : Prop :=
  ∀ s : State, s.pending = [] → ∃ d, step s = after s d ∧ d = advance (s.dev.dt + 1) s.dev ∧
    d.dt = (if clockStopped s.dev then (s.dev.dt / 40 + 1) * 40 else s.dev.dt + 1) ∧
    d.regs = s.dev.regs ∧ d.dram = s.dev.dram ∧ d.fns = s.dev.fns ∧ d.out = s.dev.out

/-- Every command answers a next state in every state, and leaves the queue alone: no command of the block faults and none is
refused. -/
def Obligations.EveryCommandIsServed : Prop := ∀ (c : Instr) (s : State), ∃ d, exec c s = after s d

/-- After reset the memory and the register file have their canonical form, every register reads its reset value, device time
is zero (R46), no command waits, and every ring of every function is disabled. -/
def Obligations.ResetState : Prop :=
  State.reset.pending = [] ∧ State.reset.dev.dt = 0 ∧ State.reset.dev.ramOk = true ∧ State.reset.dev.regsOk = true ∧
  (∀ off, rd State.reset.dev off = regReset off) ∧ (∀ a, dramByte State.reset.dev a = 0) ∧
  (∀ n r, (ringSt State.reset.dev n r).state = .disabled) ∧ State.reset.dev.commits = [] ∧
  modeOf State.reset.dev = mICY ∧ dhState State.reset.dev = 0 ∧ (∀ t, (tok State.reset.dev t).holder = none)

/-- Every step, a cold reset included, keeps the canonical form of the memory and of the register file, so that equal
memories and equal registers are equal data. -/
def Obligations.StepKeepsCanonicalForm : Prop :=
  ∀ s t : State, step s = .next t → s.dev.ramOk = true ∧ s.dev.regsOk = true → t.dev.ramOk = true ∧ t.dev.regsOk = true

/-- No step but a cold reset takes back device time (R47), the numbers of commits and free values, anything that left the
device, the straps (R5), the installed memory or the canonical forms. -/
def Obligations.StepTakesNothingBack : Prop :=
  ∀ s t : State, step s = .next t → (∀ c, s.pending.head? = some c → isCold c = false) → Grows s.dev t.dev

/-- Over a run of any length without a cold reset, device time never goes back, what left the device stays said, and the
straps hold (R5, R47). -/
def Obligations.RunTakesNothingBack : Prop :=
  ∀ (n : Nat) (s : State), (∀ c ∈ s.pending, isCold c = false) →
    s.dev.dt ≤ (run n s).dev.dt ∧ s.dev.out <:+ (run n s).dev.out ∧ (run n s).dev.heritage = s.dev.heritage ∧
    (run n s).pending = s.pending.drop n

/-- The strap HERITAGE is sampled at a cold reset and at nothing else (R5): every other command keeps what was sampled, and a
cold reset takes the level of the pin. -/
def Obligations.HeritageStrapIsHeld : Prop :=
  (∀ (c : Instr) (s t : State), exec c s = .next t → isCold c = false → t.dev.heritage = s.dev.heritage) ∧
  (∀ (s t : State) st, exec (.coldReset st) s = .next t → t.dev.heritage = st.heritage)

/-- A cold reset leaves device time at zero, an empty log of errors, no ring, no commit, and every byte of memory as reset
leaves it (R44, R46). -/
def Obligations.ColdResetStartsAgain : Prop :=
  ∀ (s t : State) st, exec (.coldReset st) s = .next t → t.dev.dt = 0 ∧ t.dev.commits = [] ∧ t.dev.fns = [] ∧
    t.dev.err.recs = [] ∧ t.dev.dram = [] ∧ t.dev.bells.toks = [] ∧ t.dev.tt = default ∧ t.pending = s.pending

/-- A register write with fewer than four byte enables is discarded, whatever the register, and where the access is served it
is recorded in the error log (R12): the newest record names the master and the register, and no register has changed but the
count of the log and the state of a domain that woke for the access. -/
def Obligations.PartialWriteIsDiscarded : Prop :=
  ∀ (a : Acc) (off : Nat) (v : Word) (d : Dev), a.be ≠ 0xF →
    (regWrite a off v d).2 = .discarded ∧
    (reachesBar0 a = true → (serveDomain d (domOf off)).2 = true →
      (regWrite a off v d).1.err.recs.head?.any (fun e => decide (e.mid = a.mid.toNat) && decide (e.addr = off)) = true ∧
      ∀ o, sideWord o = false → rd (regWrite a off v d).1 o = rd d o)

/-- A write that carries a reserved encoding leaves the whole register unchanged and is recorded in the error log (R16). -/
def Obligations.ReservedEncodingIsDiscarded : Prop :=
  ∀ (a : Acc) (off : Nat) (v : Word) (d : Dev) r k, rowOf off = some (r, k) → badEncoding r v = true →
    (regWrite a off v d).2 = .discarded ∧ (sideWord off = false → rd (regWrite a off v d).1 off = rd d off) ∧
    (reachesBar0 a = true → (serveDomain d (domOf off)).2 = true →
      (regWrite a off v d).1.err.recs.head?.any (fun e => decide (e.mid = a.mid.toNat) && decide (e.addr = off)) = true)

/-- A write that is done changes its own register and no other, but for the count of the error log and the state of the domain
that it wakes; it leaves the memory, the rings and device time alone. -/
def Obligations.RegisterWriteFrame : Prop :=
  ∀ (a : Acc) (off : Nat) (v n : Word) (d e : Dev), Written d a off v e n →
    (∀ o, o ≠ off → sideWord o = false → rd e o = rd d o) ∧ (∀ x, dramByte e x = dramByte d x) ∧
    e.dt = d.dt ∧ e.fns = d.fns ∧ e.commits = d.commits ∧ e.tt = d.tt

/-- A register write that is not done leaves every register but the log's count and a waking domain's state as it was, and the
memory too; a staged one changes only what waits for the commit. -/
def Obligations.UndoneWriteFrame : Prop :=
  ∀ (a : Acc) (off : Nat) (v : Word) (d : Dev), (∀ n, (regWrite a off v d).2 ≠ .done n) →
    (∀ o, sideWord o = false → rd (regWrite a off v d).1 o = rd d o) ∧
    (∀ x, dramByte (regWrite a off v d).1 x = dramByte d x) ∧ (regWrite a off v d).1.fns = d.fns

/-- Once a section's lock is set, a write leaves every lockable field of its registers as it is, takes the other fields, and is
recorded with cause LOCKED exactly when it carries another value for a locked field (R13, for registers that are not staged
and whose fields lie apart, as all of the table's do). -/
def Obligations.LockedFieldsKeep : Prop :=
  ∀ (a : Acc) (off : Nat) (v n : Word) (d e : Dev) r k, Written d a off v e n → rowOf off = some (r, k) →
    r.staged = false → rowLocked (serveDomain d (domOf off)).1 r = true → r.fields.any (fun f => f.acc == .wo) = false →
    n = BitVec.ofNat 32 (writeFields true (rd (serveDomain d (domOf off)).1 off) v r.fields) ∧
    (lockedChange r (rd (serveDomain d (domOf off)).1 off) v = true →
      e.err.recs.head?.any (fun x => decide (x.cause = ecLOCKED) && decide (x.addr = off)) = true) ∧
    (lockedChange r (rd (serveDomain d (domOf off)).1 off) v = false → e.err = d.err)

/-- Only the safety island, and the pair section that repeats the lead's writes on a banker (notes/assumptions/14), write the
registers of the safety section that are the island's alone; the write of any other master is discarded and recorded (R391). -/
def Obligations.OnlyTheIslandWritesItsRegisters : Prop :=
  ∀ (a : Acc) (off : Nat) (v : Word) (d : Dev) r k, rowOf off = some (r, k) → r.world = .island →
    a.mid.toNat ≠ midSI → a.mid.toNat ≠ midPAIR →
    (regWrite a off v d).2 = .discarded ∧
    (reachesBar0 a = true → (serveDomain d (domOf off)).2 = true →
      (regWrite a off v d).1.err.recs.head?.any (fun e => decide (e.mid = a.mid.toNat) && decide (e.addr = off)) = true)

/-- A full read of a token gives 0 and the token to a permitted reader of a free token, 0x80000000 and the holder's number of a
held one, and 0x40000000 to a reader that is not permitted, which is counted and recorded; a partial read acquires nothing
and returns the addressed bytes of the held word, or of all ones for a free token (R372). -/
def Obligations.TokenReadFollowsItsState : Prop :=
  ∀ (s : State) t a d, bellServed s.dev false = (d, true) → windowThere d a.mid.toNat = true →
    (a.be = 0xF → mayToken d a.mid.toNat t.val = true → (tok d t.val).holder = none →
      exec (.tokenAcquire t [a]) s = after s (emit (onTok d t.val (fun x => { x with holder := some a.mid.toNat }))
        (.readData a.mid.toNat (tokOff t.val) 0))) ∧
    (∀ m, a.be = 0xF → mayToken d a.mid.toNat t.val = true → (tok d t.val).holder = some m →
      exec (.tokenAcquire t [a]) s = after s (emit d (.readData a.mid.toNat (tokOff t.val) (BitVec.ofNat 32 (0x80000000 + m))))) ∧
    (a.be = 0xF → mayToken d a.mid.toNat t.val = false →
      exec (.tokenAcquire t [a]) s = after s (emit (logErr (bump d TK_STATUS TK_STATUS_DENIED) ecNOT_PERMITTED a.mid.toNat
        (tokOff t.val) 0 a.secure) (.readData a.mid.toNat (tokOff t.val) 0x40000000))) ∧
    (∀ m, a.be ≠ 0xF → (tok d t.val).holder = some m →
      exec (.tokenAcquire t [a]) s = after s (emit d (.readData a.mid.toNat (tokOff t.val)
        (maskBytes a.be (BitVec.ofNat 32 (0x80000000 + m)))))) ∧
    (a.be ≠ 0xF → (tok d t.val).holder = none →
      exec (.tokenAcquire t [a]) s = after s (emit d (.readData a.mid.toNat (tokOff t.val) (maskBytes a.be 0xFFFFFFFF))))

/-- When several permitted masters read a free token on one edge, exactly the first that is served gets 0 and the token, and
each later one reads that master's number (R373). -/
def Obligations.OneReaderTakesTheToken : Prop :=
  ∀ (d : Dev) (t : Nat) (a : Acc) (rs : List Acc), (∀ x ∈ a :: rs, contends d t x = true) → (tok d t).holder = none →
    (tok ((a :: rs).foldl (tokenRead t) d) t).holder = some a.mid.toNat ∧
    ((a :: rs).foldl (tokenRead t) d).out =
      (rs.map (fun x => Out.readData x.mid.toNat (tokOff t) (heldWord a.mid.toNat))).reverse ++
        .readData a.mid.toNat (tokOff t) 0 :: d.out

/-- A function that is not secure never reaches memory below the watermark, a frozen composition band or memory that is not
installed: wherever its translation answers a place in the local memory, the place lies at or above the secure range (R381)
and inside the installed memory (R132). -/
def Obligations.NormalFunctionsStayAboveTheWatermark : Prop :=
  ∀ (d : Dev) (n iova : Nat) (isWr ats : Bool) (a : Nat), ptSecure d n = false →
    translate d n iova isWr ats = .ok (.dram a) → dramSecureTop d ≤ a ∧ a < dramSize d ∧ inFreight d a = false

/-- A write through a function's translation changes no byte of the local memory outside the bytes that it stores: the
address stored to is the one that `translate` gives for the write, and where the write faults or goes to the host nothing of
the memory changes. While dirty pages are logged and the cache of 512 words is full, one word of a bitmap makes room and is
stored too (R140): where F0's translation, after the write, puts it. A write inside a page is one such store; one that would
fault in any page it touches changes nothing. -/
def Obligations.TranslatedWriteFrame : Prop :=
  ∀ (d : Dev) (n mid iova : Nat) (bs : List Byte),
    (∀ p x, translate d n iova true = .ok p → (∀ a, p = .dram a → x < a ∨ a + bs.length ≤ x) →
      (512 ≤ d.dirty.length → ∀ y b, d.dirty.getLast? = some y →
        translate (place d n iova p bs) 0 (dirtyMap d y.f + 8 * y.word) true = .ok (.dram b) → x < b ∨ b + 8 ≤ x) →
      dramByte (memWritePage d n mid iova bs).1 x = dramByte d x) ∧
    (∀ t, translate d n iova true = .fault t →
      (memWritePage d n mid iova bs).2 = false ∧ ∀ x, dramByte (memWritePage d n mid iova bs).1 x = dramByte d x) ∧
    (iova % 4096 + bs.length ≤ 4096 → memWrite d n mid iova bs = memWritePage d n mid iova bs) ∧
    (∀ y, firstFault d n true false (pagesOf iova bs.length) = some y →
      (memWrite d n mid iova bs).2 = false ∧ ∀ x, dramByte (memWrite d n mid iova bs).1 x = dramByte d x)

/-- What the conversion unit and the landings compute (R72, R80): the device time of a line lies before that of the next, and
the line that runs at the device time of a line's start is that line, on every raster whose lines last a nanosecond or more;
a framelock correction is spread over the lines of the frame that carries it. -/
def Obligations.LineTimesAreConsistent : Prop :=
  ∀ (x : Raster) (a k : Nat), x.hold = none → a = x.fRef * x.vtot + x.lRef + k → 0 < x.pxDen → 0 < x.vtot →
    x.pxDen ≤ x.htot * x.pxNum → (x.pxDen : Int) ≤ ((x.htot : Int) + x.corr / (x.vtot : Int)) * (x.pxNum : Int) →
    absAt x (dtOfAbs x a) = a ∧ dtOfAbs x a < dtOfAbs x (a + 1) ∧
    (dtOfAbs x a : Int) = (x.dtRef : Int) +
      ((k : Int) * x.htot + (if k < x.vtot then x.corr * (k : Int) / (x.vtot : Int) else x.corr)) * x.pxNum / x.pxDen

/-- The landing line is the smallest strip boundary at or after the apply point, where the boundaries of a frame are the
multiples of the strip height below the active height (R30, R70). -/
def Obligations.LandingIsTheNextBoundary : Prop :=
  ∀ (x : Raster) (h a : Nat), 0 < h → 0 < x.vact → x.vact ≤ x.vtot →
    x.boundary h (boundaryFrom x h a) ∧ a ≤ boundaryFrom x h a ∧
    ∀ b, x.boundary h b → a ≤ b → boundaryFrom x h a ≤ b

/-- A signal sets its fence to the value or adds it modulo 2^64, and leaves the other fences of its function and those of
every other function alone (R102). -/
def Obligations.SignalMovesItsFence : Prop :=
  ∀ (d : Dev) (n : Nat) (ws : List Word), bankerLike d = false → ∀ k v, k = bits (at4 ws 0x10) 3 0 →
    v = (if bit (at4 ws 0x10) 8 then (SMap.get (fnSt d n).fences k + at8 ws 0x18) % 2 ^ 64 else at8 ws 0x18) →
    SMap.rising d.fns = true → SMap.rising (fnSt d n).fences = true →
    SMap.get (fnSt (signalFence d n ws) n).fences k = v ∧
    (∀ j, j ≠ k → SMap.get (fnSt (signalFence d n ws) n).fences j = SMap.get (fnSt d n).fences j) ∧
    (∀ m, m ≠ n → fnSt (signalFence d n ws) m = fnSt d m)

/-- While a wait of a ring is incomplete, no later descriptor of that ring starts (R102): a start changes nothing at all. -/
def Obligations.WaitHoldsItsRing : Prop :=
  ∀ (d : Dev) (f r key : Nat) m park chk act, waitHolds d f r = true → startDesc d f r key m park chk act = d

/-- No master's selection or staging write of the calling-point window touches another master's selection or staging copy (R60). -/
def Obligations.StagingIsPerMaster : Prop :=
  ∀ (s t : State) (a : Acc) (v : Word) (m : Nat), m ≠ a.mid.toNat → SMap.rising s.dev.tt.sel = true →
    SMap.rising s.dev.tt.stage = true →
    (exec (.cpSelWrite a v) s = .next t ∨ (∃ k, exec (.cpStageWrite a k v) s = .next t)) →
    SMap.get t.dev.tt.sel m = SMap.get s.dev.tt.sel m ∧ SMap.get t.dev.tt.stage m = SMap.get s.dev.tt.stage m

/-- A write of a channel's binding that names a master above 0x25, the same master twice, another value of any field but EN of
an enabled channel, or an enable while no block of the BELL reserve is free, is discarded and recorded (R359). -/
def Obligations.BadBindingIsDiscarded : Prop :=
  ∀ (s : State) a c v d n, Written s.dev a (BL_BIND c.val) v d n →
    (bits n 11 6 > 0x25 ∨ bits n 5 0 > 0x25) ∨ bits n 11 6 = bits n 5 0 ∨
      (bit (rd s.dev (BL_BIND c.val)) 31 = true ∧ bits n 30 0 ≠ bits (rd s.dev (BL_BIND c.val)) 30 0) ∨
      (bit n 31 = true ∧ bit (rd s.dev (BL_BIND c.val)) 31 = false ∧ skUsed s.dev 3 ≥ skRes s.dev 3) →
    ∃ cause, exec (.bellBindWrite a c v) s = after s (logErr (serveDomain s.dev (domOf (BL_BIND c.val))).1 cause a.mid.toNat
      (BL_BIND c.val) v a.secure)

/-- The messages of a channel are taken in the order in which they were posted (R364, R368): a post that is accepted puts its
message behind those that wait, with the next number, and a pop takes the one in front. -/
def Obligations.BellIsFirstInFirstOut : Prop :=
  (∀ (d : Dev) (c len : Nat), SMap.rising d.bells.chans = true → ∃ m : BellMsg,
    (bellChan (queueMsg d c len) c).msgs = (bellChan d c).msgs ++ [m] ∧ m.seq = (bellChan d c).seq ∧
    m.words = (List.range len).map (SMap.get (bellChan d c).stage)) ∧
  (∀ (s : State) a c v d m ms, viewWrite a c.val 2 0x1C v s.dev = (d, true) → bit v 0 = true →
    seenMsgs d c.val = m :: ms → SMap.rising d.bells.chans = true →
    ∃ t, exec (.bellPop a c v) s = .next t ∧ (bellChan t.dev c.val).msgs = (bellChan d c.val).msgs.tail)

/-- A freeze puts every counter into its shadow as it stands at one instant T (R478): what is counted up to T enters the shadow
too, and counting after T does not move it. -/
def Obligations.FreezeLatchesEveryCounter : Prop :=
  ∀ (d : Dev) cp jobs, domUp d 4 = true → d.ctr.busy = false →
    (freeze d cp jobs).ctr.shadow = d.ctr.now ∧ (freeze d cp jobs).ctr.freezeDt = d.dt + freezeDelay ∧
    (freeze d cp jobs).ctr.now = d.ctr.now ∧
    (∀ e i n, e.ctr = (freeze d cp jobs).ctr → d.dt + freezeDelay < e.dt →
      (count e i n).ctr.shadow = d.ctr.now ∧ (count e i n).ctr.now = SMap.mod d.ctr.now i (fun x => (x + n) % 2 ^ 64)) ∧
    (∀ e i n, e.ctr = (freeze d cp jobs).ctr → e.dt ≤ d.dt + freezeDelay → n ≠ 0 →
      (count e i n).ctr.shadow = SMap.mod d.ctr.now i (fun x => (x + n) % 2 ^ 64) ∧
      (count e i n).ctr.now = SMap.mod d.ctr.now i (fun x => (x + n) % 2 ^ 64))

/-- An error that equals the newest record in cause, master and address, and comes within 1 us of its latest occurrence,
raises that record's count, up to 255; any other is a new record in front of at most 255 older ones (R485). -/
def Obligations.ErrorsMerge : Prop :=
  ∀ (d : Dev) (cause mid addr : Nat) (data : Word) (sec : Bool),
    (∀ e es, d.err.recs = e :: es → e.cause = cause → e.mid = mid → e.addr = addr → d.dt - e.last ≤ 1000 → e.count < 255 →
      (logErr d cause mid addr data sec).err.recs = { e with count := e.count + 1, last := d.dt } :: es ∧
      (logErr d cause mid addr data sec).regs = d.regs) ∧
    ((∀ e, d.err.recs.head? = some e →
        ¬ (e.cause = cause ∧ e.mid = mid ∧ e.addr = addr ∧ d.dt - e.last ≤ 1000 ∧ e.count < 255)) →
      ∃ x, (logErr d cause mid addr data sec).err.recs = x :: d.err.recs.take 255 ∧ x.cause = cause ∧ x.mid = mid ∧
        x.addr = addr ∧ x.data = data ∧ x.count = 1 ∧ x.dt = d.dt ∧ x.seq = (d.err.seq + 1) % 2 ^ 32)

/-- Holds count from 0 to 255: an acquire at 255 and a release at 0 are discarded and recorded, and change no count (R386). -/
def Obligations.HoldsStayInRange : Prop :=
  ∀ (s : State) a k d n,
    (Written s.dev a SE_HOLD_OP (BitVec.ofNat 32 k.val) d n → fg s.dev (SE_HOLD k.val) SE_HOLD_PWR = 255 →
      exec (.acquirePower a k) s = after s (logErr (serveDomain s.dev (domOf SE_HOLD_OP)).1 ecCONFLICT a.mid.toNat
        SE_HOLD_OP (BitVec.ofNat 32 k.val) a.secure)) ∧
    (Written s.dev a SE_HOLD_OP (BitVec.ofNat 32 (2 ^ 30 + k.val)) d n → fg s.dev (SE_HOLD k.val) SE_HOLD_PWR = 0 →
      exec (.releasePower a k) s = after s (logErr (serveDomain s.dev (domOf SE_HOLD_OP)).1 ecCONFLICT a.mid.toNat
        SE_HOLD_OP (BitVec.ofNat 32 (2 ^ 30 + k.val)) a.secure)) ∧
    (Written s.dev a SE_HOLD_OP (BitVec.ofNat 32 (2 * 2 ^ 30 + k.val)) d n → fg s.dev (SE_HOLD k.val) SE_HOLD_CLK = 255 →
      exec (.acquireClock a k) s = after s (logErr (serveDomain s.dev (domOf SE_HOLD_OP)).1 ecCONFLICT a.mid.toNat
        SE_HOLD_OP (BitVec.ofNat 32 (2 * 2 ^ 30 + k.val)) a.secure)) ∧
    (Written s.dev a SE_HOLD_OP (BitVec.ofNat 32 (3 * 2 ^ 30 + k.val)) d n → fg s.dev (SE_HOLD k.val) SE_HOLD_CLK = 0 →
      exec (.releaseClock a k) s = after s (logErr (serveDomain s.dev (domOf SE_HOLD_OP)).1 ecCONFLICT a.mid.toNat
        SE_HOLD_OP (BitVec.ofNat 32 (3 * 2 ^ 30 + k.val)) a.secure))

/-- A record with an old crew epoch changes nothing of what the banker mirrors: it is counted, and a rejection with the
receiver's own epoch goes back (R405). -/
def Obligations.StaleRecordIsRejected : Prop :=
  ∀ (s : State) h (d e : Dev), dhState s.dev ≠ 0 → dhState s.dev ≠ 7 → domUp s.dev 15 = true →
    d = onPair (count s.dev 637) (fun x => { x with authRun := 0 }) → staleRec d h = true →
    e = bump (sendBack d 0x0D [crewEpoch d]) DH_REJECT DH_REJECT_COUNT →
    (∀ addr bytes mask, exec (.recWrite h addr bytes mask) s = after s e) ∧
    (∀ item, exec (.recState h item) s = after s e) ∧
    (∀ f r slot ws tables, exec (.recDesc h f r slot ws tables) s = after s e) ∧
    (∀ upTo rtt, exec (.recAck h upTo rtt) s = after s e)

/-- A translated write that is done stores its bytes: each byte of the local memory where the translation puts it, in order;
only the word of a dirty bitmap that makes room may lie over one (R140). -/
def Obligations.TranslatedWriteStores : Prop :=
  ∀ (d e : Dev) (n mid iova : Nat) (bs : List Byte) (a : Nat), memWritePage d n mid iova bs = (e, true) →
    translate d n iova true = .ok (.dram a) → ∀ k, k < bs.length →
    (512 ≤ d.dirty.length → ∀ y b, d.dirty.getLast? = some y →
      translate (place d n iova (.dram a) bs) 0 (dirtyMap d y.f + 8 * y.word) true = .ok (.dram b) → a + k < b ∨ b + 8 ≤ a + k) →
    dramByte e (a + k) = bs.getD k 0

/-- The token and doorbell commands leave the memory, the rings, the commits, the Timetable and the GPU alone, and move no
device time: they change the tokens, the doorbells, the log and the answer alone, and the state of the woken domain. -/
def Obligations.TokenCommandsFrame : Prop :=
  ∀ (s t : State) (c : Instr), (∃ k rs, c = .tokenAcquire k rs) ∨ (∃ a k v, c = .tokenRelease a k v) →
    exec c s = .next t → (∀ x, dramByte t.dev x = dramByte s.dev x) ∧ t.dev.fns = s.dev.fns ∧
    t.dev.commits = s.dev.commits ∧ t.dev.tt = s.dev.tt ∧ t.dev.gpu = s.dev.gpu ∧ t.dev.dt = s.dev.dt ∧
    t.dev.bells.chans = s.dev.bells.chans ∧ t.dev.plat = s.dev.plat

/-- The reads of device time, of a raster position and of the counter clock, the window of the calling points and the
conversion unit leave the memory, the rings, the calling points, the commits and the platforms alone, and move no device
time. -/
def Obligations.TimetableAccessFrame : Prop :=
  ∀ (s t : State) (c : Instr), (∃ a, c = .dtRead a) ∨ (∃ a p, c = .rposRead a p) ∨ (∃ a, c = .counterRead a) ∨
      (∃ a v, c = .cpSelWrite a v) ∨ (∃ a k v, c = .cpStageWrite a k v) ∨ (∃ a v, c = .convStart a v) ∨ c = .convDone →
    exec c s = .next t → (∀ x, dramByte t.dev x = dramByte s.dev x) ∧ t.dev.fns = s.dev.fns ∧
    t.dev.commits = s.dev.commits ∧ t.dev.plat = s.dev.plat ∧ t.dev.gpu = s.dev.gpu ∧ t.dev.dt = s.dev.dt ∧
    t.dev.tt.cps = s.dev.tt.cps ∧ t.dev.tt.run = s.dev.tt.run ∧ t.dev.tt.raster = s.dev.tt.raster

/-- The writes of a DPLL, of the mute mask and of an AUX command leave the memory, the rings, the commits, the rasters and the
platforms alone, and move no device time. -/
def Obligations.ScanOutAccessFrame : Prop :=
  ∀ (s t : State) (c : Instr), (∃ a k w v, c = .dpllWrite a k w v) ∨ (∃ k, c = .dpllLock k) ∨ (∃ a v, c = .muteWrite a v) ∨
      (∃ a p v, c = .auxNativeWrite a p v ∨ c = .auxNativeRead a p v ∨ c = .auxI2cWrite a p v ∨ c = .auxI2cRead a p v) →
    exec c s = .next t → (∀ x, dramByte t.dev x = dramByte s.dev x) ∧ t.dev.fns = s.dev.fns ∧
    t.dev.commits = s.dev.commits ∧ t.dev.plat = s.dev.plat ∧ t.dev.tt = s.dev.tt ∧ t.dev.dt = s.dev.dt ∧
    t.dev.gpu = s.dev.gpu
end

