-- ==== Sys2Proof/Laws/SMap.lean ====
section
/-! SUPPORT. The laws of the sparse maps: what a read finds after a change, and that changes keep the canonical form. -/

namespace Sys2Proof

variable {α : Type}

/-- Every key of a map is at least k. -/
def SMap.atLeast (k : Nat) (m : SMap α) : Prop := ∀ p ∈ m, k ≤ p.1

/-- Rising keys, as a proposition on the tail. -/
theorem SMap.rising_cons (k : Nat) (v : α) (m : SMap α) :
    SMap.rising ((k, v) :: m) = true ↔ SMap.atLeast (k + 1) m ∧ SMap.rising m = true := by
  induction m generalizing k v with
  | nil => simp [SMap.rising, SMap.atLeast]
  | cons q m ih =>
    obtain ⟨k', v'⟩ := q
    constructor
    · intro h
      simp only [SMap.rising, Bool.and_eq_true, decide_eq_true_eq] at h
      refine ⟨?_, h.2⟩
      intro p hp
      rcases List.mem_cons.1 hp with rfl | hp
      · exact h.1
      · have := ((ih k' v').1 h.2).1 p hp
        omega
    · rintro ⟨h1, h2⟩
      simp only [SMap.rising, Bool.and_eq_true, decide_eq_true_eq]
      exact ⟨h1 (k', v') (List.mem_cons_self ..), h2⟩

theorem SMap.find?_insert (m : SMap α) (i j : Nat) (a : α) :
    SMap.find? (SMap.insert m i a) j = if j = i then some a else SMap.find? m j := by
  induction m with
  | nil => simp [SMap.insert, SMap.find?]
  | cons p m ih =>
    obtain ⟨k, v⟩ := p
    simp only [SMap.insert]
    split
    · subst_vars; simp only [SMap.find?]; split <;> rfl
    · split
      · simp only [SMap.find?]
      · simp only [SMap.find?, ih]
        split <;> split <;> first | rfl | (subst_vars; contradiction)

theorem SMap.find?_none_of_atLeast (m : SMap α) (i : Nat) (h : SMap.atLeast (i + 1) m) : SMap.find? m i = none := by
  induction m with
  | nil => rfl
  | cons p m ih =>
    obtain ⟨k, v⟩ := p
    have hk : i + 1 ≤ k := h (k, v) (List.mem_cons_self ..)
    have : i ≠ k := by omega
    simp only [SMap.find?, this, if_false]
    exact ih (fun q hq => h q (List.mem_cons_of_mem _ hq))

theorem SMap.find?_erase (m : SMap α) (i j : Nat) (h : SMap.rising m = true) :
    SMap.find? (SMap.erase m i) j = if j = i then none else SMap.find? m j := by
  induction m with
  | nil => simp [SMap.erase, SMap.find?]
  | cons p m ih =>
    obtain ⟨k, v⟩ := p
    have hr := (SMap.rising_cons k v m).1 h
    simp only [SMap.erase]
    split
    · rename_i hik
      subst hik
      by_cases hj : j = i
      · subst hj; simpa using SMap.find?_none_of_atLeast m j hr.1
      · simp [SMap.find?, hj]
    · rename_i hik
      simp only [SMap.find?, ih hr.2]
      by_cases hj : j = k
      · subst hj
        have : j ≠ i := fun e => hik e.symm
        simp [this]
      · simp [hj]

theorem SMap.atLeast_insert (m : SMap α) (k i : Nat) (a : α) (h : SMap.atLeast k m) (hi : k ≤ i) :
    SMap.atLeast k (SMap.insert m i a) := by
  induction m with
  | nil => intro p hp; simp only [SMap.insert, List.mem_singleton] at hp; subst hp; exact hi
  | cons q m ih =>
    obtain ⟨j, v⟩ := q
    have hm : SMap.atLeast k m := fun p hp => h p (List.mem_cons_of_mem _ hp)
    have hj : k ≤ j := h (j, v) (List.mem_cons_self ..)
    simp only [SMap.insert]
    split
    · intro p hp
      rcases List.mem_cons.1 hp with rfl | hp
      · exact hi
      · exact hm p hp
    · split
      · intro p hp
        rcases List.mem_cons.1 hp with rfl | hp
        · exact hi
        · exact h p hp
      · intro p hp
        rcases List.mem_cons.1 hp with rfl | hp
        · exact hj
        · exact ih hm p hp

/-- An insertion keeps the keys rising. -/
theorem SMap.rising_insert (m : SMap α) (i : Nat) (a : α) (h : SMap.rising m = true) :
    SMap.rising (SMap.insert m i a) = true := by
  induction m with
  | nil => rfl
  | cons q m ih =>
    obtain ⟨k, v⟩ := q
    have hr := (SMap.rising_cons k v m).1 h
    simp only [SMap.insert]
    split
    · rename_i hik; subst hik; exact (SMap.rising_cons i a m).2 hr
    · split
      · rename_i hlt
        refine (SMap.rising_cons i a _).2 ⟨?_, h⟩
        intro p hp
        rcases List.mem_cons.1 hp with rfl | hp
        · exact hlt
        · have := hr.1 p hp; omega
      · refine (SMap.rising_cons k v _).2 ⟨?_, ih hr.2⟩
        exact SMap.atLeast_insert m (k + 1) i a hr.1 (by omega)

theorem SMap.mem_erase (m : SMap α) (i : Nat) (p : Nat × α) (h : p ∈ SMap.erase m i) : p ∈ m := by
  induction m with
  | nil => exact h
  | cons q m ih =>
    obtain ⟨k, v⟩ := q
    simp only [SMap.erase] at h
    split at h
    · exact List.mem_cons_of_mem _ h
    · rcases List.mem_cons.1 h with rfl | h
      · exact List.mem_cons_self ..
      · exact List.mem_cons_of_mem _ (ih h)

/-- Leaving an entry out keeps the keys rising. -/
theorem SMap.rising_erase (m : SMap α) (i : Nat) (h : SMap.rising m = true) : SMap.rising (SMap.erase m i) = true := by
  induction m with
  | nil => rfl
  | cons q m ih =>
    obtain ⟨k, v⟩ := q
    have hr := (SMap.rising_cons k v m).1 h
    simp only [SMap.erase]
    split
    · exact hr.2
    · exact (SMap.rising_cons k v _).2 ⟨fun p hp => hr.1 p (SMap.mem_erase m i p hp), ih hr.2⟩

/-- Leaving entries out keeps the keys rising. -/
theorem SMap.rising_filter (m : SMap α) (f : Nat × α → Bool) (h : SMap.rising m = true) :
    SMap.rising (m.filter f) = true := by
  induction m with
  | nil => rfl
  | cons q m ih =>
    obtain ⟨k, v⟩ := q
    have hr := (SMap.rising_cons k v m).1 h
    simp only [List.filter_cons]
    split
    · exact (SMap.rising_cons k v _).2 ⟨fun p hp => hr.1 p (List.mem_filter.1 hp).1, ih hr.2⟩
    · exact ih hr.2

/-- Two rising maps, the first below the second, rise together. -/
theorem SMap.rising_append (a b : SMap α) (ha : SMap.rising a = true) (hb : SMap.rising b = true)
    (h : ∀ p ∈ a, ∀ q ∈ b, p.1 < q.1) : SMap.rising (a ++ b) = true := by
  induction a with
  | nil => exact hb
  | cons p a ih =>
    obtain ⟨k, v⟩ := p
    have hr := (SMap.rising_cons k v a).1 ha
    rw [List.cons_append]
    refine (SMap.rising_cons k v (a ++ b)).2 ⟨?_, ih hr.2 (fun p hp q hq => h p (List.mem_cons_of_mem _ hp) q hq)⟩
    intro q hq
    rcases List.mem_append.1 hq with hq | hq
    · exact hr.1 q hq
    · exact h (k, v) (List.mem_cons_self ..) q hq

/-- A splice keeps the keys rising when the segment rises within its bounds. -/
theorem SMap.rising_splice (m seg : SMap α) (lo hi : Nat) (hm : SMap.rising m = true) (hs : SMap.rising seg = true)
    (hin : ∀ p ∈ seg, lo ≤ p.1 ∧ p.1 < hi) (hle : lo ≤ hi) : SMap.rising (SMap.splice m lo hi seg) = true := by
  unfold SMap.splice
  refine SMap.rising_append _ _ (SMap.rising_append _ _ (SMap.rising_filter _ _ hm) hs ?_) (SMap.rising_filter _ _ hm) ?_
  · intro p hp q hq
    have h1 := (List.mem_filter.1 hp).2
    have h2 := hin q hq
    simp only [decide_eq_true_eq] at h1
    omega
  · intro p hp q hq
    have h2 := (List.mem_filter.1 hq).2
    simp only [decide_eq_true_eq] at h2
    rcases List.mem_append.1 hp with hp | hp
    · have h1 := (List.mem_filter.1 hp).2
      simp only [decide_eq_true_eq] at h1
      omega
    · have := hin p hp
      omega

theorem SMap.find?_append (a b : SMap α) (i : Nat) :
    SMap.find? (a ++ b) i = match SMap.find? a i with
      | some v => some v
      | none => SMap.find? b i := by
  induction a with
  | nil => rfl
  | cons p a ih =>
    obtain ⟨k, v⟩ := p
    simp only [List.cons_append, SMap.find?, ih]
    split <;> rfl

theorem SMap.find?_filter (m : SMap α) (f : Nat → Bool) (i : Nat) :
    SMap.find? (m.filter (fun p => f p.1)) i = if f i then SMap.find? m i else none := by
  induction m with
  | nil => simp [SMap.find?]
  | cons p m ih =>
    obtain ⟨k, v⟩ := p
    simp only [List.filter_cons]
    by_cases hik : i = k
    · subst hik
      cases hf : f i <;> simp_all [SMap.find?]
    · cases hf : f k <;> simp [SMap.find?, hik, ih]

/-- What a read finds after a splice. -/
theorem SMap.find?_splice (m seg : SMap α) (lo hi i : Nat) (hin : ∀ p ∈ seg, lo ≤ p.1 ∧ p.1 < hi) (hle : lo ≤ hi) :
    SMap.find? (SMap.splice m lo hi seg) i = if lo ≤ i ∧ i < hi then SMap.find? seg i else SMap.find? m i := by
  have hout : ¬ (lo ≤ i ∧ i < hi) → SMap.find? seg i = none := by
    intro h
    clear hle
    induction seg with
    | nil => rfl
    | cons p seg ih =>
      obtain ⟨k, v⟩ := p
      have hk := hin (k, v) (List.mem_cons_self ..)
      have : i ≠ k := by rintro rfl; exact h hk
      simp only [SMap.find?, this, if_false]
      exact ih (fun q hq => hin q (List.mem_cons_of_mem _ hq))
  unfold SMap.splice
  rw [SMap.find?_append, SMap.find?_append, SMap.find?_filter m (fun k => decide (k < lo)),
    SMap.find?_filter m (fun k => decide (hi ≤ k))]
  by_cases h1 : i < lo
  · have h2 : ¬ (lo ≤ i ∧ i < hi) := by omega
    have h3 : ¬ hi ≤ i := by omega
    simp only [h1, decide_true, if_true, h2, if_false, h3, decide_false, hout h2, Bool.false_eq_true]
    cases SMap.find? m i <;> rfl
  · by_cases h2 : i < hi
    · have h3 : lo ≤ i ∧ i < hi := by omega
      have h4 : ¬ hi ≤ i := by omega
      simp only [h1, decide_false, h3, and_self, if_true, h4, Bool.false_eq_true, if_false]
      cases SMap.find? seg i <;> rfl
    · have h3 : ¬ (lo ≤ i ∧ i < hi) := by omega
      have h4 : hi ≤ i := by omega
      simp only [h1, decide_false, h3, if_false, h4, decide_true, if_true, hout h3, Bool.false_eq_true]

/-- A cell of a rising map is what a read finds. -/
theorem SMap.find?_of_mem (m : SMap α) (p : Nat × α) (h : SMap.rising m = true) (hp : p ∈ m) :
    SMap.find? m p.1 = some p.2 := by
  induction m with
  | nil => exact absurd hp List.not_mem_nil
  | cons q m ih =>
    obtain ⟨k, v⟩ := q
    have hr := (SMap.rising_cons k v m).1 h
    rcases List.mem_cons.1 hp with rfl | hp
    · simp [SMap.find?]
    · have hk : k + 1 ≤ p.1 := hr.1 p hp
      have : p.1 ≠ k := by omega
      simp only [SMap.find?, this, if_false]
      exact ih hr.2 hp

/-- A read after a change of the map, in its default form. -/
theorem SMap.get_set [Inhabited α] [DecidableEq α] (m : SMap α) (i j : Nat) (a : α) (h : SMap.rising m = true) :
    SMap.get (SMap.set m i a) j = if j = i then a else SMap.get m j := by
  unfold SMap.get SMap.set
  split
  · rename_i ha
    rw [SMap.find?_erase m i j h]
    split <;> simp_all
  · rw [SMap.find?_insert]
    split <;> simp_all

end Sys2Proof
end

