-- ==== Sys2Proof/Laws/Grows.lean ====
section
/-! SUPPORT. The base of the laws that say what no command but cold reset undoes (`Grows`): its closure under the shapes in
which meanings are written, and the operations that change a field it speaks of. -/

namespace Sys2Proof.Machine

theorem Grows.refl (d : Dev) : Grows d d :=
  ⟨Nat.le_refl _, Nat.le_refl _, Nat.le_refl _, List.suffix_refl _, rfl, rfl, rfl, rfl, id, id⟩

theorem Grows.trans {a b c : Dev} (h1 : Grows a b) (h2 : Grows b c) : Grows a c :=
  ⟨Nat.le_trans h1.dt h2.dt, Nat.le_trans h1.commits h2.commits, Nat.le_trans h1.free h2.free, h1.out.trans h2.out,
    h2.heritage.trans h1.heritage, h2.seat.trans h1.seat, h2.boot.trans h1.boot, h2.units.trans h1.units,
    fun h => h2.ram (h1.ram h), fun h => h2.regs (h1.regs h)⟩

/-- A record update that leaves the fields of `Grows` alone asks for it before. -/
theorem Grows.update_iff {d0 d : Dev} {stg stgSI tt fns dirty pt ptSel ptStage blobs vfEnable numVfs plat commits accept err ctr
    buf gpu comp scan hap touch audio bells pm safe pair mdh gpio} :
    Grows d0 { dt := d.dt, heritage := d.heritage, seatB := d.seatB, bootMode := d.bootMode, dramUnits := d.dramUnits,
               regs := d.regs, stg := stg, stgSI := stgSI, dram := d.dram, dramFree := d.dramFree, tt := tt, fns := fns,
               dirty := dirty, pt := pt, ptSel := ptSel, ptStage := ptStage, blobs := blobs, vfEnable := vfEnable, numVfs := numVfs,
               plat := plat, commits := commits, nextCommit := d.nextCommit, accept := accept, err := err, ctr := ctr,
               buf := buf, gpu := gpu, comp := comp, scan := scan, hap := hap, touch := touch, audio := audio,
               bells := bells, pm := pm, safe := safe, pair := pair, mdh := mdh, gpio := gpio, freeCtr := d.freeCtr,
               out := d.out } ↔ Grows d0 d :=
  ⟨fun h => ⟨h.dt, h.commits, h.free, h.out, h.heritage, h.seat, h.boot, h.units, fun hr => h.ram hr, fun hr => h.regs hr⟩,
    fun h => ⟨h.dt, h.commits, h.free, h.out, h.heritage, h.seat, h.boot, h.units, fun hr => h.ram hr, fun hr => h.regs hr⟩⟩

/-- The same for an update that also moves the numbers of commits and of free values on, and says something more. -/
theorem Grows.count {d0 d : Dev} {stg stgSI tt fns dirty pt ptSel ptStage blobs vfEnable numVfs plat commits nextCommit accept
    err ctr buf gpu comp scan hap touch audio bells pm safe pair mdh gpio freeCtr out dt} (h : Grows d0 d)
    (hd : d.dt ≤ dt) (hc : d.nextCommit ≤ nextCommit) (hf : d.freeCtr ≤ freeCtr) (ho : d.out <:+ out) :
    Grows d0 { dt := dt, heritage := d.heritage, seatB := d.seatB, bootMode := d.bootMode, dramUnits := d.dramUnits,
               regs := d.regs, stg := stg, stgSI := stgSI, dram := d.dram, dramFree := d.dramFree, tt := tt, fns := fns,
               dirty := dirty, pt := pt, ptSel := ptSel, ptStage := ptStage, blobs := blobs, vfEnable := vfEnable, numVfs := numVfs,
               plat := plat, commits := commits, nextCommit := nextCommit, accept := accept, err := err, ctr := ctr,
               buf := buf, gpu := gpu, comp := comp, scan := scan, hap := hap, touch := touch, audio := audio,
               bells := bells, pm := pm, safe := safe, pair := pair, mdh := mdh, gpio := gpio, freeCtr := freeCtr,
               out := out } :=
  ⟨Nat.le_trans h.dt hd, Nat.le_trans h.commits hc, Nat.le_trans h.free hf, h.out.trans ho, h.heritage, h.seat, h.boot,
    h.units, fun hr => h.ram hr, fun hr => h.regs hr⟩

/-- A choice keeps it where both sides do. -/
theorem Grows.ite {d0 a b : Dev} {c : Prop} [Decidable c] (ha : Grows d0 a) (hb : Grows d0 b) :
    Grows d0 (if c then a else b) := by
  split <;> assumption

theorem Grows.itePair {β : Type} {d0 : Dev} {a b : Dev × β} {c : Prop} [Decidable c] (ha : Grows d0 a.1)
    (hb : Grows d0 b.1) : Grows d0 (if c then a else b).1 := by
  split <;> assumption

/-- A fold keeps it where each round does. -/
theorem Grows.fold {α : Type} {d0 : Dev} {f : Dev → α → Dev} {l : List α} {d : Dev}
    (hf : ∀ d a, Grows d0 d → Grows d0 (f d a)) (h : Grows d0 d) : Grows d0 (l.foldl f d) := by
  induction l generalizing d with
  | nil => exact h
  | cons a l ih => exact ih (hf d a h)

/-- The same for a fold that carries something beside the device. -/
theorem Grows.foldPair {α β : Type} {d0 : Dev} {f : Dev × β → α → Dev × β} {l : List α} {p : Dev × β}
    (hf : ∀ p a, Grows d0 p.1 → Grows d0 (f p a).1) (h : Grows d0 p.1) : Grows d0 (l.foldl f p).1 := by
  induction l generalizing p with
  | nil => exact h
  | cons a l ih => exact ih (hf p a h)

/-- The same with the device in the second place. -/
theorem Grows.foldSnd {α β : Type} {d0 : Dev} {f : β × Dev → α → β × Dev} {l : List α} {p : β × Dev}
    (hf : ∀ p a, Grows d0 p.2 → Grows d0 (f p a).2) (h : Grows d0 p.2) : Grows d0 (l.foldl f p).2 := by
  induction l generalizing p with
  | nil => exact h
  | cons a l ih => exact ih (hf p a h)

/-! ### The registers -/

theorem Dev.regsOk_iff (d : Dev) :
    d.regsOk = true ↔ SMap.rising d.regs = true ∧ ∀ p ∈ d.regs, p.2 ≠ regReset p.1 := by
  simp [Dev.regsOk, List.all_eq_true]

theorem mem_insert {α : Type} (m : SMap α) (i : Nat) (a : α) (p : Nat × α) (h : p ∈ SMap.insert m i a) :
    p = (i, a) ∨ p ∈ m := by
  induction m with
  | nil => exact .inl (by simpa [SMap.insert] using h)
  | cons q m ih =>
    simp only [SMap.insert] at h
    split at h
    · rcases List.mem_cons.1 h with h | h
      · exact .inl h
      · exact .inr (List.mem_cons_of_mem _ h)
    · split at h
      · rcases List.mem_cons.1 h with h | h
        · exact .inl h
        · exact .inr h
      · rcases List.mem_cons.1 h with h | h
        · exact .inr (h ▸ List.mem_cons_self ..)
        · rcases ih h with h | h
          · exact .inl h
          · exact .inr (List.mem_cons_of_mem _ h)

/-- A register write keeps the canonical form of the register file. -/
theorem regsOk_wr (d : Dev) (off : Nat) (v : Word) (h : d.regsOk = true) : (wr d off v).regsOk = true := by
  rw [Dev.regsOk_iff] at h ⊢
  unfold wr
  dsimp only
  split
  · exact ⟨SMap.rising_erase _ _ h.1, fun p hp => h.2 p (SMap.mem_erase _ _ p hp)⟩
  · rename_i hv
    refine ⟨SMap.rising_insert _ _ _ h.1, fun p hp => ?_⟩
    rcases mem_insert _ _ _ p hp with rfl | hp
    · exact hv
    · exact h.2 p hp

theorem wr_grows {d0 d : Dev} {off v} (h : Grows d0 d) : Grows d0 (wr d off v) :=
  ⟨h.dt, h.commits, h.free, h.out, h.heritage, h.seat, h.boot, h.units, fun hr => h.ram hr,
    fun hr => regsOk_wr d off v (h.regs hr)⟩

/-- Registers left out keep the canonical form. -/
theorem regsOk_filter (d : Dev) (k : Nat → Bool) {stg stgSI} (h : d.regsOk = true) :
    ({ d with regs := d.regs.filter (fun p => k p.1), stg := stg, stgSI := stgSI }).regsOk = true := by
  rw [Dev.regsOk_iff] at h ⊢
  exact ⟨SMap.rising_filter _ _ h.1, fun p hp => h.2 p (List.mem_filter.1 hp).1⟩

/-! ### The memory -/

theorem Dev.ramOk_iff (d : Dev) :
    d.ramOk = true ↔ SMap.rising d.dram = true ∧ ∀ p ∈ d.dram, p.2 ≠ dramUnlisted d p.1 := by
  simp [Dev.ramOk, List.all_eq_true]

theorem mem_dramSeg (d : Dev) (a : Nat) (bs : List Byte) (p : Nat × Byte) (h : p ∈ dramSeg d a bs) :
    a ≤ p.1 ∧ p.1 < a + bs.length ∧ p.2 ≠ dramUnlisted d p.1 := by
  induction bs generalizing a with
  | nil => simp [dramSeg] at h
  | cons b bs ih =>
    simp only [dramSeg] at h
    split at h
    · have := ih (a + 1) h
      simp only [List.length_cons]
      exact ⟨by omega, by omega, this.2.2⟩
    · rename_i hb
      rcases List.mem_cons.1 h with rfl | h
      · refine ⟨Nat.le_refl _, ?_, hb⟩
        simp only [List.length_cons]; omega
      · have := ih (a + 1) h
        simp only [List.length_cons]
        exact ⟨by omega, by omega, this.2.2⟩

theorem rising_dramSeg (d : Dev) (a : Nat) (bs : List Byte) : SMap.rising (dramSeg d a bs) = true := by
  induction bs generalizing a with
  | nil => rfl
  | cons b bs ih =>
    simp only [dramSeg]
    split
    · exact ih (a + 1)
    · refine (SMap.rising_cons a b _).2 ⟨?_, ih (a + 1)⟩
      intro p hp
      exact (mem_dramSeg d (a + 1) bs p hp).1

/-- What the segment of a store holds at an address. -/
theorem find?_dramSeg (d : Dev) (a : Nat) (bs : List Byte) (k : Nat) (hk : k < bs.length) :
    (SMap.find? (dramSeg d a bs) (a + k)).getD (dramUnlisted d (a + k)) = bs[k] := by
  induction bs generalizing a k with
  | nil => exact absurd hk (Nat.not_lt_zero _)
  | cons b bs ih =>
    simp only [dramSeg]
    cases k with
    | zero =>
      split
      · rename_i hb
        have hn : SMap.find? (dramSeg d (a + 1) bs) (a + 0) = none :=
          SMap.find?_none_of_atLeast _ _ (fun p hp => (mem_dramSeg d (a + 1) bs p hp).1)
        rw [hn]
        simp [hb]
      · simp [SMap.find?]
    | succ k =>
      have e : a + (k + 1) = a + 1 + k := by omega
      have hk' : k < bs.length := by simpa using hk
      have hr := ih (a + 1) k hk'
      split
      · rw [e]; simpa using hr
      · have hne : a + (k + 1) ≠ a := by omega
        simp only [SMap.find?, hne, if_false]
        rw [e]; simpa using hr

/-- What unlisted bytes read as depends on the free ranges alone. -/
theorem dramUnlisted_congr {d e : Dev} (h : d.dramFree = e.dramFree) (a : Nat) : dramUnlisted d a = dramUnlisted e a := by
  unfold dramUnlisted
  rw [h]

theorem mem_splice {α : Type} (m seg : SMap α) (lo hi : Nat) (p : Nat × α) (h : p ∈ SMap.splice m lo hi seg) :
    (p ∈ m ∧ (p.1 < lo ∨ hi ≤ p.1)) ∨ p ∈ seg := by
  unfold SMap.splice at h
  rcases List.mem_append.1 h with h | h
  · rcases List.mem_append.1 h with h | h
    · have := List.mem_filter.1 h
      exact .inl ⟨this.1, .inl (by simpa using this.2)⟩
    · exact .inr h
  · have := List.mem_filter.1 h
    exact .inl ⟨this.1, .inr (by simpa using this.2)⟩

/-- A store keeps the canonical form of the memory. -/
theorem ramOk_dramStore (d : Dev) (a : Nat) (bs : List Byte) (h : d.ramOk = true) : (dramStore d a bs).ramOk = true := by
  rw [Dev.ramOk_iff] at h ⊢
  refine ⟨SMap.rising_splice _ _ _ _ h.1 (rising_dramSeg d a bs) ?_ (Nat.le_add_right _ _), ?_⟩
  · intro p hp
    have := mem_dramSeg d a bs p hp
    exact ⟨this.1, this.2.1⟩
  · intro p hp
    rcases mem_splice _ _ _ _ p hp with hp | hp
    · exact h.2 p hp.1
    · exact (mem_dramSeg d a bs p hp).2.2

/-- So does a range that takes free bytes. -/
theorem ramOk_dramRelease (d : Dev) (a len : Nat) (h : d.ramOk = true) : (dramRelease d a len).ramOk = true := by
  rw [Dev.ramOk_iff] at h ⊢
  refine ⟨SMap.rising_splice _ _ _ _ h.1 rfl (by simp) (Nat.le_add_right _ _), ?_⟩
  intro p hp
  rcases mem_splice _ _ _ _ p hp with hp | hp
  · have hq := h.2 p hp.1
    have hn : (decide (a ≤ p.1) && decide (p.1 < a + len)) = false := by
      have := hp.2
      simp only [Bool.and_eq_false_iff, decide_eq_false_iff_not]
      omega
    have e : dramUnlisted (dramRelease d a len) p.1 = dramUnlisted d p.1 := by
      unfold dramUnlisted dramRelease
      simp only [List.find?_cons, hn]
    rw [e]
    exact hq
  · exact absurd hp List.not_mem_nil

/-- A read of DRAM after a store: the byte stored, or what the address held before (R131). -/
theorem dramByte_dramStore (d : Dev) (a : Nat) (bs : List Byte) (x : Nat) :
    dramByte (dramStore d a bs) x = if h : a ≤ x ∧ x < a + bs.length then bs[x - a]'(by omega) else dramByte d x := by
  have hin : ∀ p ∈ dramSeg d a bs, a ≤ p.1 ∧ p.1 < a + bs.length :=
    fun p hp => ⟨(mem_dramSeg d a bs p hp).1, (mem_dramSeg d a bs p hp).2.1⟩
  have hu : dramUnlisted (dramStore d a bs) x = dramUnlisted d x := dramUnlisted_congr rfl x
  have hs : SMap.find? (dramStore d a bs).dram x = if a ≤ x ∧ x < a + bs.length then SMap.find? (dramSeg d a bs) x
      else SMap.find? d.dram x :=
    SMap.find?_splice d.dram (dramSeg d a bs) a (a + bs.length) x hin (Nat.le_add_right _ _)
  unfold dramByte
  rw [hu, hs]
  split
  · rename_i h
    obtain ⟨k, rfl⟩ := Nat.exists_eq_add_of_le h.1
    rw [find?_dramSeg d a bs k (by omega)]
    simp
  · rfl

/-- The register file and the memory of the machine right after reset have the canonical form. -/
theorem ok_reset : Dev.reset.ramOk = true ∧ Dev.reset.regsOk = true := ⟨rfl, rfl⟩

theorem dramStore_grows {d0 d : Dev} {a bs} (h : Grows d0 d) : Grows d0 (dramStore d a bs) :=
  ⟨h.dt, h.commits, h.free, h.out, h.heritage, h.seat, h.boot, h.units, fun hr => ramOk_dramStore d a bs (h.ram hr),
    fun hr => h.regs hr⟩

theorem dramRelease_grows {d0 d : Dev} {a len} (h : Grows d0 d) : Grows d0 (dramRelease d a len) :=
  ⟨h.dt, h.commits, Nat.le_trans h.free (Nat.le_add_right _ _), h.out, h.heritage, h.seat, h.boot, h.units,
    fun hr => ramOk_dramRelease d a len (h.ram hr), fun hr => h.regs hr⟩

end Sys2Proof.Machine
end

