-- ==== Sys2Proof/Laws/GrowsOps.lean ====
section
/-! SUPPORT. No operation of Machine/Ops.lean undoes what `Grows` keeps. -/

set_option linter.unusedTactic false
set_option linter.unreachableTactic false
set_option linter.unusedSimpArgs false
set_option linter.unusedVariables false

namespace Sys2Proof.Machine

theorem fs_grows {d0 d : Dev} {a1 a2 a3} (h : Grows d0 d) : Grows d0 (fs d a1 a2 a3) := by
  unfold fs
  repeat' first
    | with_reducible assumption
    | with_reducible first | apply wr_grows
    | dsimp only

theorem bump_grows {d0 d : Dev} {a1 a2 a3} (h : Grows d0 d) : Grows d0 (bump d a1 a2 a3) := by
  unfold bump
  repeat' first
    | with_reducible assumption
    | with_reducible first | apply fs_grows
    | dsimp only

theorem wrs_grows {d0 d : Dev} {a1 a2} (h : Grows d0 d) : Grows d0 (wrs d a1 a2) := by
  induction a2 generalizing d a1 with
  | nil =>
    unfold wrs
    repeat' first
      | with_reducible assumption
      | with_reducible first | apply wr_grows
      | dsimp only
      | split
  | cons _ _ ih =>
    unfold wrs
    repeat' first
      | with_reducible assumption
      | with_reducible apply ih
      | with_reducible first | apply wr_grows
      | dsimp only
      | split

theorem wr64_grows {d0 d : Dev} {a1 a2} (h : Grows d0 d) : Grows d0 (wr64 d a1 a2) := by
  unfold wr64
  repeat' first
    | with_reducible assumption
    | with_reducible first | apply wr_grows
    | dsimp only

theorem count_grows {d0 d : Dev} {a1 a2} (h : Grows d0 d) : Grows d0 (count d a1 a2) := by
  unfold count
  repeat' first
    | with_reducible assumption
    | with_reducible apply Grows.ite
    | simp only [Grows.update_iff]
    | dsimp only

theorem countRun_grows {d0 d : Dev} {n} (h : Grows d0 d) : Grows d0 (countRun d n) := by
  unfold countRun
  refine Grows.fold (fun d k h => ?_) h
  split
  · exact Grows.update_iff.2 h
  · exact h

theorem countRun_dt (d : Dev) (n : Nat) : (countRun d n).dt = d.dt := by
  unfold countRun
  generalize List.range 16 = l
  induction l generalizing d with
  | nil => rfl
  | cons k l ih =>
    rw [List.foldl_cons, ih]
    split <;> rfl

theorem le_keeperDt (d : Dev) (t : Nat) : t ≤ keeperDt d t := by
  unfold keeperDt
  split <;> omega

theorem advance_grows {d0 d : Dev} {t} (h : Grows d0 d) : Grows d0 (advance t d) := by
  unfold advance
  split
  · exact h
  · exact Grows.count (countRun_grows h) (by have := le_keeperDt d t; rw [countRun_dt]; omega) (Nat.le_refl _) (Nat.le_refl _)
      (List.suffix_refl _)

theorem emit_grows {d0 d : Dev} {o} (h : Grows d0 d) : Grows d0 (emit d o) :=
  Grows.count h (Nat.le_refl _) (Nat.le_refl _) (Nat.le_refl _) (List.suffix_cons _ _)

theorem takeFree_grows {d0 d : Dev} (h : Grows d0 d) : Grows d0 (takeFree d).2 :=
  Grows.count h (Nat.le_refl _) (Nat.le_refl _) (Nat.le_succ _) (List.suffix_refl _)

theorem onFn_grows {d0 d : Dev} {a1 a2} (h : Grows d0 d) : Grows d0 (onFn d a1 a2) := by
  unfold onFn
  repeat' first
    | with_reducible assumption
    | simp only [Grows.update_iff]
    | dsimp only

theorem onRing_grows {d0 d : Dev} {a1 a2 a3} (h : Grows d0 d) : Grows d0 (onRing d a1 a2 a3) := by
  unfold onRing
  repeat' first
    | with_reducible assumption
    | with_reducible first | apply onFn_grows
    | simp only [Grows.update_iff]
    | dsimp only

theorem setFnState_grows {d0 d : Dev} {a1 a2} (h : Grows d0 d) : Grows d0 (setFnState d a1 a2) := by
  unfold setFnState
  repeat' first
    | with_reducible assumption
    | with_reducible first | apply fs_grows
    | dsimp only

theorem setPt_grows {d0 d : Dev} {a1 a2} (h : Grows d0 d) : Grows d0 (setPt d a1 a2) := by
  unfold setPt
  repeat' first
    | intro _
    | with_reducible assumption
    | with_reducible apply Grows.ite
    | with_reducible apply Grows.fold
    | simp only [Grows.update_iff]
    | dsimp only

theorem logErr_grows {d0 d : Dev} {a1 a2 a3 a4 a5} (h : Grows d0 d) : Grows d0 (logErr d a1 a2 a3 a4 a5) := by
  unfold logErr
  repeat' first
    | with_reducible assumption
    | with_reducible first | apply bump_grows | apply fs_grows | apply count_grows
    | with_reducible apply Grows.ite
    | simp only [Grows.update_iff]
    | dsimp only
    | split

theorem linkSend_grows {d0 d : Dev} {a1 a2} (h : Grows d0 d) : Grows d0 (linkSend d a1 a2) := by
  unfold linkSend
  repeat' first
    | with_reducible assumption
    | with_reducible first | apply count_grows | apply emit_grows
    | with_reducible apply Grows.ite
    | simp only [Grows.update_iff]
    | dsimp only

theorem noteFault_grows {d0 d : Dev} {a1 a2 a3 a4 a5} (h : Grows d0 d) : Grows d0 (noteFault d a1 a2 a3 a4 a5) := by
  unfold noteFault
  repeat' first
    | with_reducible assumption
    | with_reducible first | apply onFn_grows | apply count_grows | apply wr_grows
    | simp only [Grows.update_iff]
    | dsimp only

theorem cleanLines_grows {d0 d : Dev} {a1 a2} (h : Grows d0 d) : Grows d0 (cleanLines d a1 a2) := by
  unfold cleanLines
  repeat' first
    | with_reducible assumption
    | with_reducible apply Grows.ite
    | with_reducible apply Grows.itePair
    | simp only [Grows.update_iff]
    | dsimp only

theorem setForward_grows {d0 d : Dev} {a1} (h : Grows d0 d) : Grows d0 (setForward d a1) := by
  unfold setForward
  repeat' first
    | with_reducible assumption
    | with_reducible first | apply fs_grows
    | simp only [Grows.update_iff]
    | dsimp only

theorem forwardLine_grows {d0 d : Dev} {a1} (h : Grows d0 d) : Grows d0 (forwardLine d a1) := by
  unfold forwardLine
  repeat' first
    | with_reducible assumption
    | with_reducible first | apply bump_grows | apply linkSend_grows | apply setForward_grows
    | with_reducible apply Grows.ite
    | dsimp only

theorem mirrorLines_grows {d0 d : Dev} {a1 a2} (h : Grows d0 d) : Grows d0 (mirrorLines d a1 a2) := by
  unfold mirrorLines
  repeat' first
    | intro _
    | with_reducible assumption
    | with_reducible first | apply forwardLine_grows
    | with_reducible apply Grows.ite
    | with_reducible apply Grows.fold
    | dsimp only

theorem setMemBits_grows {d0 d : Dev} {a1 a2} (h : Grows d0 d) : Grows d0 (setMemBits d a1 a2).1 := by
  unfold setMemBits
  repeat' first
    | with_reducible assumption
    | with_reducible first | apply noteFault_grows | apply mirrorLines_grows | apply dramStore_grows | apply emit_grows
    | dsimp only
    | split

theorem writeDirty_grows {d0 d : Dev} {a1} (h : Grows d0 d) : Grows d0 (writeDirty d a1).1 := by
  unfold writeDirty
  repeat' first
    | with_reducible assumption
    | with_reducible first | apply setMemBits_grows
    | with_reducible apply Grows.ite
    | with_reducible apply Grows.itePair
    | dsimp only

theorem evictDirty_grows {d0 d : Dev} (h : Grows d0 d) : Grows d0 (evictDirty d) := by
  unfold evictDirty
  repeat' first
    | with_reducible assumption
    | with_reducible first | apply writeDirty_grows
    | with_reducible apply Grows.ite
    | with_reducible apply Grows.itePair
    | simp only [Grows.update_iff]
    | dsimp only
    | split

theorem logDirty_grows {d0 d : Dev} {a1 a2} (h : Grows d0 d) : Grows d0 (logDirty d a1 a2) := by
  unfold logDirty
  repeat' first
    | with_reducible assumption
    | with_reducible first | apply evictDirty_grows
    | with_reducible apply Grows.ite
    | simp only [Grows.update_iff]
    | dsimp only

theorem place_grows {d0 d : Dev} {a1 a2 a3 a4} (h : Grows d0 d) : Grows d0 (place d a1 a2 a3 a4) := by
  unfold place
  repeat' first
    | with_reducible assumption
    | with_reducible first | apply mirrorLines_grows | apply dramStore_grows | apply cleanLines_grows | apply emit_grows
    | with_reducible apply Grows.ite
    | simp only [Grows.update_iff]
    | dsimp only
    | split

theorem memWritePage_grows {d0 d : Dev} {a1 a2 a3 a4} (h : Grows d0 d) : Grows d0 (memWritePage d a1 a2 a3 a4).1 := by
  unfold memWritePage
  repeat' first
    | with_reducible assumption
    | with_reducible first | apply noteFault_grows | apply count_grows | apply logDirty_grows | apply place_grows
    | dsimp only
    | split

theorem memWritePages_grows {d0 d : Dev} {a0 a2 a3 a4 a5} (h : Grows d0 d) : Grows d0 (memWritePages a0 d a2 a3 a4 a5).1 := by
  induction a0 generalizing d a2 a3 a4 a5 with
  | zero =>
    unfold memWritePages
    repeat' first
      | with_reducible assumption
      | with_reducible first | apply memWritePage_grows
      | with_reducible apply Grows.ite
      | with_reducible apply Grows.itePair
      | dsimp only
      | split
  | succ _ ih =>
    unfold memWritePages
    repeat' first
      | with_reducible assumption
      | with_reducible apply ih
      | with_reducible first | apply memWritePage_grows
      | with_reducible apply Grows.ite
      | with_reducible apply Grows.itePair
      | dsimp only
      | split

theorem memWrite_grows {d0 d : Dev} {a1 a2 a3 a4} (h : Grows d0 d) : Grows d0 (memWrite d a1 a2 a3 a4).1 := by
  unfold memWrite
  repeat' first
    | with_reducible assumption
    | with_reducible first | apply noteFault_grows | apply memWritePage_grows | apply memWritePages_grows
    | with_reducible apply Grows.ite
    | with_reducible apply Grows.itePair
    | dsimp only
    | split

theorem writeSlot_grows {d0 d : Dev} {a1 a2 a3} (h : Grows d0 d) : Grows d0 (writeSlot d a1 a2 a3).1 := by
  unfold writeSlot
  repeat' first
    | with_reducible assumption
    | with_reducible first | apply memWrite_grows
    | with_reducible apply Grows.ite
    | with_reducible apply Grows.itePair
    | dsimp only

theorem memFreePage_grows {d0 d : Dev} {a1 a2 a3 a4} (h : Grows d0 d) : Grows d0 (memFreePage d a1 a2 a3 a4).1 := by
  unfold memFreePage
  repeat' first
    | with_reducible assumption
    | with_reducible first | apply noteFault_grows | apply logDirty_grows | apply mirrorLines_grows | apply dramRelease_grows | apply cleanLines_grows | apply emit_grows
    | dsimp only
    | split

theorem memFree_grows {d0 d : Dev} {a0 a2 a3 a4 a5} (h : Grows d0 d) : Grows d0 (memFree a0 d a2 a3 a4 a5).1 := by
  induction a0 generalizing d a2 a3 a4 a5 with
  | zero =>
    unfold memFree
    repeat' first
      | with_reducible assumption
      | with_reducible first | apply memFreePage_grows
      | with_reducible apply Grows.ite
      | with_reducible apply Grows.itePair
      | dsimp only
      | split
  | succ _ ih =>
    unfold memFree
    repeat' first
      | with_reducible assumption
      | with_reducible apply ih
      | with_reducible first | apply memFreePage_grows
      | with_reducible apply Grows.ite
      | with_reducible apply Grows.itePair
      | dsimp only
      | split

theorem memFreeQuiet_grows {d0 d : Dev} {a0 a2 a3 a4 a5} (h : Grows d0 d) : Grows d0 (memFreeQuiet a0 d a2 a3 a4 a5) := by
  induction a0 generalizing d a2 a3 a4 a5 with
  | zero =>
    unfold memFreeQuiet
    repeat' first
      | with_reducible assumption
      | with_reducible first | apply memFreePage_grows
      | with_reducible apply Grows.ite
      | with_reducible apply Grows.itePair
      | dsimp only
      | split
  | succ _ ih =>
    unfold memFreeQuiet
    repeat' first
      | with_reducible assumption
      | with_reducible apply ih
      | with_reducible first | apply memFreePage_grows
      | with_reducible apply Grows.ite
      | with_reducible apply Grows.itePair
      | dsimp only
      | split

theorem readWide_grows {d0 d : Dev} {a1 a2 a3 a4} (h : Grows d0 d) : Grows d0 (readWide d a1 a2 a3 a4).1 := by
  unfold readWide
  repeat' first
    | with_reducible assumption
    | with_reducible apply Grows.ite
    | with_reducible apply Grows.itePair
    | dsimp only
    | split

theorem memRead_grows {d0 d : Dev} {a1 a2 a3 a4 a5} (h : Grows d0 d) : Grows d0 (memRead d a1 a2 a3 a4 a5).1 := by
  unfold memRead
  repeat' first
    | with_reducible assumption
    | with_reducible first | apply noteFault_grows | apply readWide_grows
    | with_reducible apply Grows.ite
    | with_reducible apply Grows.itePair
    | dsimp only
    | split

theorem onVec_grows {d0 d : Dev} {a1 a2 a3} (h : Grows d0 d) : Grows d0 (onVec d a1 a2 a3) := by
  unfold onVec
  repeat' first
    | with_reducible assumption
    | with_reducible first | apply onFn_grows
    | simp only [Grows.update_iff]
    | dsimp only

theorem setMdh_grows {d0 d : Dev} {a1 a2} (h : Grows d0 d) : Grows d0 (setMdh d a1 a2) := by
  unfold setMdh
  repeat' first
    | with_reducible assumption
    | simp only [Grows.update_iff]
    | dsimp only

theorem mdhIrq_grows {d0 d : Dev} {a1} (h : Grows d0 d) : Grows d0 (mdhIrq d a1) := by
  unfold mdhIrq
  repeat' first
    | with_reducible assumption
    | with_reducible first | apply setMdh_grows | apply emit_grows
    | with_reducible apply Grows.ite
    | dsimp only

theorem sendMsi_grows {d0 d : Dev} {a1 a2} (h : Grows d0 d) : Grows d0 (sendMsi d a1 a2) := by
  unfold sendMsi
  repeat' first
    | with_reducible assumption
    | with_reducible first | apply onVec_grows | apply mdhIrq_grows | apply emit_grows
    | with_reducible apply Grows.ite
    | simp only [Grows.update_iff]
    | dsimp only

theorem report_grows {d0 d : Dev} {a1 a2 a3} (h : Grows d0 d) : Grows d0 (report d a1 a2 a3) := by
  unfold report
  repeat' first
    | with_reducible assumption
    | with_reducible first | apply onVec_grows | apply sendMsi_grows
    | with_reducible apply Grows.ite
    | simp only [Grows.update_iff]
    | dsimp only

theorem noRoute_grows {d0 d : Dev} {a1 a2} (h : Grows d0 d) : Grows d0 (noRoute d a1 a2) := by
  unfold noRoute
  repeat' first
    | with_reducible assumption
    | with_reducible first | apply onFn_grows
    | simp only [Grows.update_iff]
    | dsimp only

theorem sendOut_grows {d0 d : Dev} {a1 a2 a3 a4} (h : Grows d0 d) : Grows d0 (sendOut d a1 a2 a3 a4) := by
  unfold sendOut
  repeat' first
    | with_reducible assumption
    | with_reducible first | apply linkSend_grows
    | dsimp only

theorem postList_grows {d0 d : Dev} {a0 a2 a3} (h : Grows d0 d) : Grows d0 (postList a0 d a2 a3) := by
  induction a0 generalizing d a2 a3 with
  | zero =>
    unfold postList
    repeat' first
      | intro _
      | with_reducible assumption
      | with_reducible first | apply noRoute_grows | apply onRing_grows | apply sendOut_grows | apply memWrite_grows | apply emit_grows | apply report_grows | apply count_grows
      | with_reducible apply Grows.ite
      | with_reducible apply Grows.itePair
      | with_reducible apply Grows.fold
      | simp only [Grows.update_iff]
      | dsimp only
      | split
  | succ _ ih =>
    unfold postList
    repeat' first
      | intro _
      | with_reducible assumption
      | with_reducible apply ih
      | with_reducible first | apply noRoute_grows | apply onRing_grows | apply sendOut_grows | apply memWrite_grows | apply emit_grows | apply report_grows | apply count_grows
      | with_reducible apply Grows.ite
      | with_reducible apply Grows.itePair
      | with_reducible apply Grows.fold
      | simp only [Grows.update_iff]
      | dsimp only
      | split

theorem post_grows {d0 d : Dev} {a1 a2 a3 a4 a5} (h : Grows d0 d) : Grows d0 (post d a1 a2 a3 a4 a5) := by
  unfold post
  repeat' first
    | with_reducible assumption
    | with_reducible first | apply postList_grows
    | with_reducible apply Grows.ite
    | dsimp only

theorem postRing_grows {d0 d : Dev} {a1 a2 a3 a4 a5 a6} (h : Grows d0 d) : Grows d0 (postRing d a1 a2 a3 a4 a5 a6) := by
  unfold postRing
  repeat' first
    | with_reducible assumption
    | with_reducible first | apply post_grows
    | dsimp only

theorem rerouteHeld_grows {d0 d : Dev} {a1 a2} (h : Grows d0 d) : Grows d0 (rerouteHeld d a1 a2) := by
  unfold rerouteHeld
  repeat' first
    | with_reducible assumption
    | with_reducible first | apply onRing_grows | apply postList_grows
    | simp only [Grows.update_iff]
    | dsimp only

theorem stallRing_grows {d0 d : Dev} {a1 a2 a3 a4} (h : Grows d0 d) : Grows d0 (stallRing d a1 a2 a3 a4) := by
  unfold stallRing
  repeat' first
    | with_reducible assumption
    | with_reducible first | apply onRing_grows | apply rerouteHeld_grows | apply postRing_grows
    | with_reducible apply Grows.ite
    | simp only [Grows.update_iff]
    | dsimp only

theorem writeCompletion_grows {d0 d : Dev} {a1 a2 a3 a4 a5 a6 a7} (h : Grows d0 d) : Grows d0 (writeCompletion d a1 a2 a3 a4 a5 a6 a7) := by
  unfold writeCompletion
  repeat' first
    | with_reducible assumption
    | with_reducible first | apply onRing_grows | apply writeSlot_grows | apply sendOut_grows | apply emit_grows | apply report_grows | apply count_grows | apply stallRing_grows
    | with_reducible apply Grows.ite
    | with_reducible apply Grows.itePair
    | simp only [Grows.update_iff]
    | dsimp only
    | split

theorem dropLive_grows {d0 d : Dev} {a1 a2 a3} (h : Grows d0 d) : Grows d0 (dropLive d a1 a2 a3) := by
  unfold dropLive
  repeat' first
    | with_reducible assumption
    | with_reducible first | apply onRing_grows
    | simp only [Grows.update_iff]
    | dsimp only

theorem drainDone_grows {d0 d : Dev} {a1 a2} (h : Grows d0 d) : Grows d0 (drainDone d a1 a2) := by
  unfold drainDone
  repeat' first
    | with_reducible assumption
    | with_reducible first | apply onRing_grows
    | with_reducible apply Grows.ite
    | simp only [Grows.update_iff]
    | dsimp only

theorem signalFence_grows {d0 d : Dev} {a1 a2} (h : Grows d0 d) : Grows d0 (signalFence d a1 a2) := by
  unfold signalFence
  repeat' first
    | with_reducible assumption
    | with_reducible first | apply onFn_grows | apply linkSend_grows
    | with_reducible apply Grows.ite
    | simp only [Grows.update_iff]
    | dsimp only

theorem lockBits_grows {d0 d : Dev} {a1} (h : Grows d0 d) : Grows d0 (lockBits d a1) := by
  unfold lockBits
  repeat' first
    | with_reducible assumption
    | with_reducible first | apply linkSend_grows | apply wr_grows
    | dsimp only

theorem orderedAct_grows {d0 d : Dev} {a1 a2} (h : Grows d0 d) : Grows d0 (orderedAct d a1 a2).1 := by
  unfold orderedAct
  repeat' first
    | with_reducible assumption
    | with_reducible first | apply signalFence_grows | apply lockBits_grows
    | with_reducible apply Grows.ite
    | with_reducible apply Grows.itePair
    | dsimp only

theorem finish_grows {d0 d : Dev} {a1 a2 a3 a4 a5 a6 a7} (h : Grows d0 d) : Grows d0 (finish d a1 a2 a3 a4 a5 a6 a7) := by
  unfold finish
  repeat' first
    | with_reducible assumption
    | with_reducible first | apply drainDone_grows | apply writeCompletion_grows | apply dropLive_grows
    | dsimp only

theorem settle_grows {d0 d : Dev} {a0 a2} (h : Grows d0 d) : Grows d0 (settle a0 d a2) := by
  induction a0 generalizing d a2 with
  | zero =>
    unfold settle
    repeat' first
      | with_reducible assumption
      | with_reducible first | apply finish_grows | apply orderedAct_grows
      | dsimp only
      | split
  | succ _ ih =>
    unfold settle
    repeat' first
      | with_reducible assumption
      | with_reducible apply ih
      | with_reducible first | apply finish_grows | apply orderedAct_grows
      | dsimp only
      | split

theorem completeAt_grows {d0 d : Dev} {a1 a2 a3 a4 a5 a6 a7} (h : Grows d0 d) : Grows d0 (completeAt d a1 a2 a3 a4 a5 a6 a7) := by
  unfold completeAt
  repeat' first
    | with_reducible assumption
    | with_reducible first | apply finish_grows | apply settle_grows
    | dsimp only
    | split

theorem complete_grows {d0 d : Dev} {a1 a2 a3 a4 a5 a6} (h : Grows d0 d) : Grows d0 (complete d a1 a2 a3 a4 a5 a6) := by
  unfold complete
  repeat' first
    | with_reducible assumption
    | with_reducible first | apply completeAt_grows
    | dsimp only

theorem setRaster_grows {d0 d : Dev} {a1 a2} (h : Grows d0 d) : Grows d0 (setRaster d a1 a2) := by
  unfold setRaster
  repeat' first
    | with_reducible assumption
    | simp only [Grows.update_iff]
    | dsimp only

theorem onPlat_grows {d0 d : Dev} {a1 a2} (h : Grows d0 d) : Grows d0 (onPlat d a1 a2) := by
  unfold onPlat
  repeat' first
    | with_reducible assumption
    | simp only [Grows.update_iff]
    | dsimp only

end Sys2Proof.Machine
end

