-- ==== Sys2Proof/Laws/GrowsDescs.lean ====
section
/-! SUPPORT. No operation of Machine/Descs.lean undoes what `Grows` keeps. -/

set_option linter.unusedTactic false
set_option linter.unreachableTactic false
set_option linter.unusedSimpArgs false
set_option linter.unusedVariables false

namespace Sys2Proof.Machine

theorem startWake_grows {d0 d : Dev} {a1} (h : Grows d0 d) : Grows d0 (startWake d a1) := by
  unfold startWake
  repeat' first
    | with_reducible assumption
    | with_reducible apply Grows.ite
    | simp only [Grows.update_iff]
    | dsimp only

theorem beginDesc_grows {d0 d : Dev} {a1 a2 a3} (h : Grows d0 d) : Grows d0 (beginDesc d a1 a2 a3) := by
  unfold beginDesc
  repeat' first
    | with_reducible assumption
    | with_reducible first | apply onRing_grows
    | simp only [Grows.update_iff]
    | dsimp only

theorem onLive_grows {d0 d : Dev} {a1 a2 a3 a4} (h : Grows d0 d) : Grows d0 (onLive d a1 a2 a3 a4) := by
  unfold onLive
  repeat' first
    | with_reducible assumption
    | with_reducible first | apply onRing_grows
    | with_reducible apply Grows.ite
    | simp only [Grows.update_iff]
    | dsimp only

theorem purge_grows {d0 d : Dev} {a0 a2 a3} (h : Grows d0 d) : Grows d0 (purge a0 d a2 a3) := by
  induction a0 generalizing d a2 a3 with
  | zero =>
    unfold purge
    repeat' first
      | with_reducible assumption
      | with_reducible first | apply complete_grows | apply beginDesc_grows
      | with_reducible apply Grows.ite
      | simp only [Grows.update_iff]
      | dsimp only
      | split
  | succ _ ih =>
    unfold purge
    repeat' first
      | with_reducible assumption
      | with_reducible apply ih
      | with_reducible first | apply complete_grows | apply beginDesc_grows
      | with_reducible apply Grows.ite
      | simp only [Grows.update_iff]
      | dsimp only
      | split

theorem purgeRing_grows {d0 d : Dev} {a1 a2} (h : Grows d0 d) : Grows d0 (purgeRing d a1 a2) := by
  unfold purgeRing
  repeat' first
    | with_reducible assumption
    | with_reducible first | apply purge_grows
    | dsimp only

theorem startDesc_grows {d0 d : Dev} {n r key m park chk act} (ha : ∀ n r q d, Grows d0 d → Grows d0 (act n r q d))
    (h : Grows d0 d) : Grows d0 (startDesc d n r key m park chk act) := by
  unfold startDesc
  try dsimp only
  repeat' first
    | with_reducible assumption
    | with_reducible first | apply startWake_grows | apply purgeRing_grows | apply beginDesc_grows | apply complete_grows | apply onLive_grows | apply ha
    | split

end Sys2Proof.Machine
end

