-- ==== Sys2Proof/Laws/GrowsRefs.lean ====
section
/-! SUPPORT. No operation of Machine/Refs.lean undoes what `Grows` keeps. -/

set_option linter.unusedTactic false
set_option linter.unreachableTactic false
set_option linter.unusedSimpArgs false
set_option linter.unusedVariables false

namespace Sys2Proof.Machine

theorem onBuf_grows {d0 d : Dev} {a1 a2} (h : Grows d0 d) : Grows d0 (onBuf d a1 a2) := by
  unfold onBuf
  repeat' first
    | with_reducible assumption
    | simp only [Grows.update_iff]
    | dsimp only

theorem markRefs_grows {d0 d : Dev} {a1} (h : Grows d0 d) : Grows d0 (markRefs d a1) := by
  unfold markRefs
  repeat' first
    | intro _
    | with_reducible assumption
    | with_reducible first | apply onBuf_grows
    | with_reducible apply Grows.ite
    | with_reducible apply Grows.fold
    | simp only [Grows.update_iff]
    | dsimp only
    | split

theorem showEntries_grows {d0 d : Dev} (h : Grows d0 d) : Grows d0 (showEntries d) := by
  unfold showEntries
  repeat' first
    | with_reducible assumption
    | with_reducible first | apply fs_grows
    | dsimp only

theorem sendBuf_grows {d0 d : Dev} {a1} (h : Grows d0 d) : Grows d0 (sendBuf d a1) := by
  unfold sendBuf
  repeat' first
    | with_reducible assumption
    | with_reducible first | apply linkSend_grows
    | dsimp only

theorem freeEntry_grows {d0 d : Dev} {a1} (h : Grows d0 d) : Grows d0 (freeEntry d a1) := by
  unfold freeEntry
  repeat' first
    | with_reducible assumption
    | with_reducible first | apply showEntries_grows | apply sendBuf_grows | apply onBuf_grows
    | with_reducible apply Grows.ite
    | simp only [Grows.update_iff]
    | dsimp only

theorem endWait_grows {d0 d : Dev} {a1 a2} (h : Grows d0 d) : Grows d0 (endWait d a1 a2) := by
  unfold endWait
  repeat' first
    | with_reducible assumption
    | with_reducible first | apply complete_grows | apply freeEntry_grows
    | with_reducible apply Grows.ite
    | dsimp only

theorem settleBuf_grows {d0 d : Dev} {a1} (h : Grows d0 d) : Grows d0 (settleBuf d a1) := by
  unfold settleBuf
  repeat' first
    | intro _
    | with_reducible assumption
    | with_reducible first | apply onBuf_grows | apply post_grows | apply endWait_grows
    | with_reducible apply Grows.ite
    | with_reducible apply Grows.fold
    | simp only [Grows.update_iff]
    | dsimp only

theorem castOffSweep_grows {d0 d : Dev} (h : Grows d0 d) : Grows d0 (castOffSweep d) := by
  unfold castOffSweep
  repeat' first
    | intro _
    | with_reducible assumption
    | with_reducible first | apply settleBuf_grows
    | with_reducible apply Grows.ite
    | with_reducible apply Grows.itePair
    | with_reducible apply Grows.fold
    | dsimp only

theorem showSkein_grows {d0 d : Dev} (h : Grows d0 d) : Grows d0 (showSkein d) := by
  unfold showSkein
  repeat' first
    | intro _
    | with_reducible assumption
    | with_reducible first | apply fs_grows
    | with_reducible apply Grows.fold
    | dsimp only

theorem skTakeHigh_grows {d0 d : Dev} {a1 a2 a3 a4} (h : Grows d0 d) : Grows d0 (skTakeHigh d a1 a2 a3 a4) := by
  unfold skTakeHigh
  repeat' first
    | with_reducible assumption
    | with_reducible first | apply count_grows | apply showSkein_grows
    | simp only [Grows.update_iff]
    | dsimp only

theorem skTakeLow_grows {d0 d : Dev} {a1 a2 a3 a4 a5} (h : Grows d0 d) : Grows d0 (skTakeLow d a1 a2 a3 a4 a5) := by
  unfold skTakeLow
  repeat' first
    | with_reducible assumption
    | with_reducible first | apply count_grows
    | with_reducible apply Grows.ite
    | simp only [Grows.update_iff]
    | dsimp only

theorem skGive_grows {d0 d : Dev} {a1} (h : Grows d0 d) : Grows d0 (skGive d a1) := by
  unfold skGive
  repeat' first
    | with_reducible assumption
    | with_reducible first | apply showSkein_grows
    | simp only [Grows.update_iff]
    | dsimp only

end Sys2Proof.Machine
end

