-- ==== Sys2Proof/Laws/GrowsCommits.lean ====
section
/-! SUPPORT. No operation of Machine/Commits.lean undoes what `Grows` keeps. -/

set_option linter.unusedTactic false
set_option linter.unreachableTactic false
set_option linter.unusedSimpArgs false
set_option linter.unusedVariables false

namespace Sys2Proof.Machine

theorem onCommit_grows {d0 d : Dev} {a1 a2} (h : Grows d0 d) : Grows d0 (onCommit d a1 a2) := by
  unfold onCommit
  repeat' first
    | with_reducible assumption
    | with_reducible apply Grows.ite
    | simp only [Grows.update_iff]
    | dsimp only [id]
    | dsimp only

theorem dropCommit_grows {d0 d : Dev} {a1} (h : Grows d0 d) : Grows d0 (dropCommit d a1) := by
  unfold dropCommit
  repeat' first
    | with_reducible assumption
    | simp only [Grows.update_iff]
    | dsimp only [id]
    | dsimp only

theorem showPending_grows {d0 d : Dev} (h : Grows d0 d) : Grows d0 (showPending d) := by
  unfold showPending
  repeat' first
    | with_reducible assumption
    | with_reducible first | apply fs_grows
    | dsimp only
    | split

theorem leaveCommit_grows {d0 d : Dev} {a1} (h : Grows d0 d) : Grows d0 (leaveCommit d a1) := by
  unfold leaveCommit
  repeat' first
    | with_reducible assumption
    | with_reducible first | apply castOffSweep_grows | apply showPending_grows | apply dropCommit_grows
    | dsimp only

theorem stageStatus_grows {d0 d : Dev} {a1 a2 a3} (h : Grows d0 d) : Grows d0 (stageStatus d a1 a2 a3) := by
  unfold stageStatus
  repeat' first
    | with_reducible assumption
    | with_reducible first | apply fs_grows
    | with_reducible apply Grows.ite
    | dsimp only

theorem endCommit_grows {d0 d : Dev} {a1 a2} (h : Grows d0 d) : Grows d0 (endCommit d a1 a2) := by
  unfold endCommit
  repeat' first
    | with_reducible assumption
    | with_reducible first | apply leaveCommit_grows | apply completeAt_grows | apply stageStatus_grows | apply fs_grows
    | with_reducible apply Grows.ite
    | dsimp only [id]
    | dsimp only
    | split

theorem restampOne_grows {d0 d : Dev} {a1} (h : Grows d0 d) : Grows d0 (restampOne d a1) := by
  unfold restampOne
  repeat' first
    | with_reducible assumption
    | with_reducible first | apply endCommit_grows | apply linkSend_grows | apply onCommit_grows
    | with_reducible apply Grows.ite
    | with_reducible apply Grows.itePair
    | simp only [Grows.update_iff]
    | dsimp only
    | split

theorem restampUnacked_grows {d0 d : Dev} {a1 a2 a3} (h : Grows d0 d) : Grows d0 (restampUnacked d a1 a2 a3) := by
  unfold restampUnacked
  repeat' first
    | intro _
    | with_reducible assumption
    | with_reducible first | apply restampOne_grows
    | with_reducible apply Grows.ite
    | with_reducible apply Grows.itePair
    | with_reducible apply Grows.fold
    | dsimp only [id]
    | dsimp only

theorem restampAll_grows {d0 d : Dev} {a1} (h : Grows d0 d) : Grows d0 (restampAll d a1) := by
  unfold restampAll
  repeat' first
    | intro _
    | with_reducible assumption
    | with_reducible first | apply restampOne_grows
    | with_reducible apply Grows.fold
    | dsimp only [id]
    | dsimp only

theorem psrWake_grows {d0 d : Dev} {a1} (h : Grows d0 d) : Grows d0 (psrWake d a1) := by
  unfold psrWake
  repeat' first
    | with_reducible assumption
    | with_reducible first | apply emit_grows | apply onPlat_grows
    | with_reducible apply Grows.ite
    | simp only [Grows.update_iff]
    | dsimp only

theorem renumber_grows {d0 d : Dev} {a1 a2} (h : Grows d0 d) : Grows d0 (renumber d a1 a2) := by
  unfold renumber
  repeat' first
    | with_reducible assumption
    | with_reducible apply Grows.ite
    | simp only [Grows.update_iff]
    | dsimp only [id]
    | dsimp only

theorem yieldId_grows {d0 d : Dev} {i} (h : Grows d0 d) : Grows d0 (yieldId d i) :=
  Grows.count (renumber_grows h) (Nat.le_refl _) (Nat.le_trans (Nat.le_max_left d.nextCommit _) (Nat.le_succ _))
    (Nat.le_refl _) (List.suffix_refl _)

theorem takeRecord_grows {d0 d : Dev} {a1 a2} (h : Grows d0 d) : Grows d0 (takeRecord d a1 a2) := by
  unfold takeRecord
  repeat' first
    | with_reducible assumption
    | with_reducible first | apply renumber_grows | apply yieldId_grows | apply onCommit_grows | apply endCommit_grows
    | with_reducible apply Grows.ite
    | simp only [Grows.update_iff]
    | dsimp only [id]
    | dsimp only
    | split

theorem bankerCommit_grows {d0 d : Dev} {a1} (h : Grows d0 d) : Grows d0 (bankerCommit d a1) := by
  unfold bankerCommit
  repeat' first
    | with_reducible assumption
    | with_reducible first | apply takeRecord_grows
    | refine Grows.count (d := d) ?_ (Nat.le_refl _) (Nat.le_succ _) (Nat.le_refl _) (List.suffix_refl _)
    | simp only [Grows.update_iff]
    | dsimp only [id]
    | dsimp only
    | split

theorem noteBanks_grows {d0 d : Dev} {a1} (h : Grows d0 d) : Grows d0 (noteBanks d a1) := by
  unfold noteBanks
  repeat' first
    | intro _
    | with_reducible assumption
    | with_reducible apply Grows.ite
    | with_reducible apply Grows.fold
    | simp only [Grows.update_iff]
    | dsimp only
    | split

theorem acceptCommit_grows {d0 d : Dev} {a1 a2 a3 a4 a5 a6 a7 a8} (h : Grows d0 d) : Grows d0 (acceptCommit d a1 a2 a3 a4 a5 a6 a7 a8) := by
  unfold acceptCommit
  repeat' first
    | intro _
    | with_reducible assumption
    | with_reducible first | apply bankerCommit_grows | apply noteBanks_grows | apply markRefs_grows | apply endCommit_grows | apply linkSend_grows | apply psrWake_grows
    | refine Grows.count (d := d) ?_ (Nat.le_refl _) (Nat.le_succ _) (Nat.le_refl _) (List.suffix_refl _)
    | with_reducible apply Grows.ite
    | with_reducible apply Grows.itePair
    | with_reducible apply Grows.fold
    | simp only [Grows.update_iff]
    | dsimp only [id]
    | dsimp only

theorem deviceCommit_grows {d0 d : Dev} {a1 a2 a3} (h : Grows d0 d) : Grows d0 (deviceCommit d a1 a2 a3) := by
  unfold deviceCommit
  repeat' first
    | with_reducible assumption
    | refine Grows.count (d := d) ?_ (Nat.le_refl _) (Nat.le_succ _) (Nat.le_refl _) (List.suffix_refl _)
    | simp only [Grows.update_iff]
    | dsimp only [id]
    | dsimp only

theorem abortCommits_grows {d0 d : Dev} {a1 a2} (h : Grows d0 d) : Grows d0 (abortCommits d a1 a2) := by
  unfold abortCommits
  repeat' first
    | intro _
    | with_reducible assumption
    | with_reducible first | apply endCommit_grows
    | with_reducible apply Grows.fold
    | dsimp only

theorem bindCommits_grows {d0 d : Dev} {a1 a2 a3} (h : Grows d0 d) : Grows d0 (bindCommits d a1 a2 a3) := by
  unfold bindCommits
  repeat' first
    | with_reducible assumption
    | with_reducible apply Grows.ite
    | with_reducible apply Grows.itePair
    | simp only [Grows.update_iff]
    | dsimp only

theorem tagLanding_grows {d0 d : Dev} {a1 a2 a3} (h : Grows d0 d) : Grows d0 (tagLanding d a1 a2 a3) := by
  unfold tagLanding
  repeat' first
    | with_reducible assumption
    | with_reducible first | apply wr_grows
    | dsimp only

theorem landedOn_grows {d0 d : Dev} {a1 a2} (h : Grows d0 d) : Grows d0 (landedOn d a1 a2) := by
  unfold landedOn
  repeat' first
    | with_reducible assumption
    | with_reducible first | apply onCommit_grows | apply endCommit_grows
    | with_reducible apply Grows.ite
    | simp only [Grows.update_iff]
    | dsimp only
    | split

end Sys2Proof.Machine
end

