-- ==== Sys2Proof/Laws/GrowsAccess.lean ====
section
/-! SUPPORT. No operation of Machine/Access.lean undoes what `Grows` keeps. -/

set_option linter.unusedTactic false
set_option linter.unreachableTactic false
set_option linter.unusedSimpArgs false
set_option linter.unusedVariables false

namespace Sys2Proof.Machine

theorem serveDomain_grows {d0 d : Dev} {a1} (h : Grows d0 d) : Grows d0 (serveDomain d a1).1 := by
  unfold serveDomain
  repeat' first
    | with_reducible assumption
    | with_reducible first | apply fs_grows | apply startWake_grows
    | with_reducible apply Grows.ite
    | with_reducible apply Grows.itePair
    | simp only [Grows.update_iff]
    | dsimp only

theorem mirrorReg_grows {d0 d : Dev} {a1 a2} (h : Grows d0 d) : Grows d0 (mirrorReg d a1 a2) := by
  unfold mirrorReg
  repeat' first
    | with_reducible assumption
    | with_reducible first | apply linkSend_grows
    | with_reducible apply Grows.ite
    | dsimp only

theorem noteLocked_grows {d0 d : Dev} {a0 a1 a2 a4} (h : Grows d0 d) : Grows d0 (noteLocked a0 a1 a2 d a4) := by
  unfold noteLocked
  repeat' first
    | with_reducible assumption
    | with_reducible first | apply logErr_grows
    | with_reducible apply Grows.ite
    | dsimp only

theorem regTake_grows {d0 d : Dev} {a0 a1 a2 a4} (h : Grows d0 d) : Grows d0 (regTake a0 a1 a2 d a4).1 := by
  unfold regTake
  repeat' first
    | with_reducible assumption
    | with_reducible first | apply noteLocked_grows | apply linkSend_grows | apply mirrorReg_grows | apply wr_grows
    | with_reducible apply Grows.ite
    | with_reducible apply Grows.itePair
    | simp only [Grows.update_iff]
    | dsimp only

theorem regWrite_grows {d0 d : Dev} {a0 a1 a2} (h : Grows d0 d) : Grows d0 (regWrite a0 a1 a2 d).1 := by
  unfold regWrite
  repeat' first
    | with_reducible assumption
    | with_reducible first | apply serveDomain_grows | apply logErr_grows | apply regTake_grows
    | with_reducible apply Grows.ite
    | with_reducible apply Grows.itePair
    | dsimp only
    | split

theorem guardWrite_grows {d0 d : Dev} {a0 a1 a2 a3} (h : Grows d0 d) : Grows d0 (guardWrite a0 a1 a2 a3 d).1 := by
  unfold guardWrite
  repeat' first
    | with_reducible assumption
    | with_reducible first | apply regWrite_grows | apply logErr_grows | apply serveDomain_grows
    | dsimp only
    | split

theorem regRead_grows {d0 d : Dev} {a0 a1 a2} (h : Grows d0 d) : Grows d0 (regRead a0 a1 a2 d) := by
  unfold regRead
  repeat' first
    | with_reducible assumption
    | with_reducible first | apply serveDomain_grows | apply emit_grows | apply logErr_grows | apply wr_grows
    | with_reducible apply Grows.ite
    | with_reducible apply Grows.itePair
    | dsimp only
    | split

end Sys2Proof.Machine
end

