-- ==== Sys2Proof/Laws/GrowsTimetable.lean ====
section
/-! SUPPORT. No operation of Machine/Timetable.lean undoes what `Grows` keeps. -/

set_option linter.unusedTactic false
set_option linter.unreachableTactic false
set_option linter.unusedSimpArgs false
set_option linter.unusedVariables false

namespace Sys2Proof.Machine

theorem setCp_grows {d0 d : Dev} {a1 a2} (h : Grows d0 d) : Grows d0 (setCp d a1 a2) := by
  unfold setCp
  repeat' first
    | with_reducible assumption
    | simp only [Grows.update_iff]
    | dsimp only

theorem onCpRun_grows {d0 d : Dev} {a1 a2} (h : Grows d0 d) : Grows d0 (onCpRun d a1 a2) := by
  unfold onCpRun
  repeat' first
    | with_reducible assumption
    | simp only [Grows.update_iff]
    | dsimp only

theorem showArmed_grows {d0 d : Dev} (h : Grows d0 d) : Grows d0 (showArmed d) := by
  unfold showArmed
  repeat' first
    | with_reducible assumption
    | with_reducible first | apply fs_grows
    | with_reducible apply Grows.ite
    | dsimp only

theorem endBound_grows {d0 d : Dev} {a1 a2 a3} (h : Grows d0 d) : Grows d0 (endBound d a1 a2 a3) := by
  unfold endBound
  repeat' first
    | intro _
    | with_reducible assumption
    | with_reducible first | apply abortCommits_grows | apply complete_grows
    | with_reducible apply Grows.ite
    | with_reducible apply Grows.itePair
    | with_reducible apply Grows.fold
    | dsimp only

theorem armPoint_grows {d0 d : Dev} {a1} (h : Grows d0 d) : Grows d0 (armPoint d a1) := by
  unfold armPoint
  repeat' first
    | with_reducible assumption
    | with_reducible first | apply showArmed_grows | apply onCpRun_grows
    | with_reducible apply Grows.ite
    | simp only [Grows.update_iff]
    | dsimp only

theorem freeUp_grows {d0 d : Dev} (h : Grows d0 d) : Grows d0 (freeUp d) := by
  unfold freeUp
  repeat' first
    | with_reducible assumption
    | with_reducible first | apply armPoint_grows
    | with_reducible apply Grows.ite
    | with_reducible apply Grows.itePair
    | dsimp only
    | split

theorem disarm_grows {d0 d : Dev} {a1 a2} (h : Grows d0 d) : Grows d0 (disarm d a1 a2) := by
  unfold disarm
  repeat' first
    | with_reducible assumption
    | with_reducible first | apply freeUp_grows | apply showArmed_grows | apply onCpRun_grows | apply setCp_grows
    | simp only [Grows.update_iff]
    | dsimp only

theorem storeEntry_grows {d0 d : Dev} {a1 a2} (h : Grows d0 d) : Grows d0 (storeEntry d a1 a2) := by
  unfold storeEntry
  repeat' first
    | with_reducible assumption
    | with_reducible first | apply endBound_grows | apply setCp_grows | apply freeUp_grows | apply showArmed_grows | apply onCpRun_grows
    | with_reducible apply Grows.ite
    | dsimp only

theorem doDtRead_grows {d0 d : Dev} {a0} (h : Grows d0 d) : Grows d0 (doDtRead a0 d) := by
  unfold doDtRead
  repeat' first
    | with_reducible assumption
    | with_reducible first | apply serveDomain_grows | apply emit_grows
    | with_reducible apply Grows.ite
    | with_reducible apply Grows.itePair
    | simp only [Grows.update_iff]
    | dsimp only

theorem doRposRead_grows {d0 d : Dev} {a0 a1} (h : Grows d0 d) : Grows d0 (doRposRead a0 a1 d) := by
  unfold doRposRead
  repeat' first
    | with_reducible assumption
    | with_reducible first | apply serveDomain_grows | apply wr64_grows | apply wr_grows | apply emit_grows
    | with_reducible apply Grows.ite
    | with_reducible apply Grows.itePair
    | dsimp only

theorem maskedWrite_grows {d0 d : Dev} {a0 a1 a2} (h : Grows d0 d) : Grows d0 (maskedWrite a0 a1 a2 d).1 := by
  unfold maskedWrite
  repeat' first
    | with_reducible assumption
    | with_reducible first | apply regWrite_grows | apply wr_grows
    | dsimp only
    | split

theorem doCpSelWrite_grows {d0 d : Dev} {a0 a1} (h : Grows d0 d) : Grows d0 (doCpSelWrite a0 a1 d) := by
  unfold doCpSelWrite
  repeat' first
    | with_reducible assumption
    | with_reducible first | apply logErr_grows | apply maskedWrite_grows
    | with_reducible apply Grows.ite
    | with_reducible apply Grows.itePair
    | simp only [Grows.update_iff]
    | dsimp only

theorem doCpStageWrite_grows {d0 d : Dev} {a0 a1 a2} (h : Grows d0 d) : Grows d0 (doCpStageWrite a0 a1 a2 d) := by
  unfold doCpStageWrite
  repeat' first
    | with_reducible assumption
    | with_reducible first | apply logErr_grows | apply maskedWrite_grows
    | with_reducible apply Grows.ite
    | with_reducible apply Grows.itePair
    | simp only [Grows.update_iff]
    | dsimp only

theorem cpStoreCheck_grows {d0 d : Dev} {a0 a1} (h : Grows d0 d) : Grows d0 (cpStoreCheck a0 a1 d).1 := by
  unfold cpStoreCheck
  repeat' first
    | with_reducible assumption
    | with_reducible first | apply logErr_grows | apply maskedWrite_grows
    | with_reducible apply Grows.ite
    | with_reducible apply Grows.itePair
    | simp only [Grows.update_iff]
    | dsimp only

theorem doComparatorFree_grows {d0 d : Dev} (h : Grows d0 d) : Grows d0 (doComparatorFree d) := by
  unfold doComparatorFree
  repeat' first
    | with_reducible assumption
    | with_reducible first | apply freeUp_grows
    | with_reducible apply Grows.ite
    | simp only [Grows.update_iff]
    | dsimp only

theorem stopComparators_grows {d0 d : Dev} (h : Grows d0 d) : Grows d0 (stopComparators d) := by
  unfold stopComparators
  repeat' first
    | with_reducible assumption
    | with_reducible first | apply showArmed_grows
    | simp only [Grows.update_iff]
    | dsimp only

theorem setFlState_grows {d0 d : Dev} {a1 a2} (h : Grows d0 d) : Grows d0 (setFlState d a1 a2) := by
  unfold setFlState
  repeat' first
    | with_reducible assumption
    | with_reducible first | apply fs_grows
    | dsimp only

theorem onFl_grows {d0 d : Dev} {a1 a2} (h : Grows d0 d) : Grows d0 (onFl d a1 a2) := by
  unfold onFl
  repeat' first
    | with_reducible assumption
    | simp only [Grows.update_iff]
    | dsimp only

theorem flEvent_grows {d0 d : Dev} {a1 a2} (h : Grows d0 d) : Grows d0 (flEvent d a1 a2) := by
  unfold flEvent
  repeat' first
    | with_reducible assumption
    | with_reducible first | apply post_grows
    | dsimp only

theorem doFlCtrlWrite_grows {d0 d : Dev} {a0 a1 a2} (h : Grows d0 d) : Grows d0 (doFlCtrlWrite a0 a1 a2 d) := by
  unfold doFlCtrlWrite
  repeat' first
    | with_reducible assumption
    | with_reducible first | apply guardWrite_grows | apply onFl_grows | apply setFlState_grows
    | with_reducible apply Grows.ite
    | with_reducible apply Grows.itePair
    | simp only [Grows.update_iff]
    | dsimp only
    | split

theorem doFramelockHoldover_grows {d0 d : Dev} {a0} (h : Grows d0 d) : Grows d0 (doFramelockHoldover a0 d) := by
  unfold doFramelockHoldover
  repeat' first
    | with_reducible assumption
    | with_reducible first | apply flEvent_grows | apply setFlState_grows
    | with_reducible apply Grows.ite
    | dsimp only

theorem doFramelockHoldoverExpire_grows {d0 d : Dev} {a0} (h : Grows d0 d) : Grows d0 (doFramelockHoldoverExpire a0 d) := by
  unfold doFramelockHoldoverExpire
  repeat' first
    | with_reducible assumption
    | with_reducible first | apply onFl_grows | apply setFlState_grows
    | with_reducible apply Grows.ite
    | simp only [Grows.update_iff]
    | dsimp only

theorem doConvStart_grows {d0 d : Dev} {a0 a1} (h : Grows d0 d) : Grows d0 (doConvStart a0 a1 d) := by
  unfold doConvStart
  repeat' first
    | with_reducible assumption
    | with_reducible first | apply regWrite_grows | apply wr64_grows | apply logErr_grows
    | with_reducible apply Grows.ite
    | with_reducible apply Grows.itePair
    | simp only [Grows.update_iff]
    | dsimp only
    | split

theorem doConvDone_grows {d0 d : Dev} (h : Grows d0 d) : Grows d0 (doConvDone d) := by
  unfold doConvDone
  repeat' first
    | with_reducible assumption
    | with_reducible first | apply wr64_grows
    | with_reducible apply Grows.ite
    | simp only [Grows.update_iff]
    | dsimp only

theorem ttFnReset_grows {d0 d : Dev} {a1} (h : Grows d0 d) : Grows d0 (ttFnReset d a1) := by
  unfold ttFnReset
  repeat' first
    | intro _
    | with_reducible assumption
    | with_reducible first | apply endBound_grows | apply disarm_grows
    | with_reducible apply Grows.fold
    | dsimp only

theorem ttResetDue_grows {d0 d : Dev} {a1} (h : Grows d0 d) : Grows d0 (ttResetDue d a1) := by
  unfold ttResetDue
  repeat' first
    | intro _
    | with_reducible assumption
    | with_reducible first | apply setCp_grows
    | with_reducible apply Grows.fold
    | simp only [Grows.update_iff]
    | dsimp only

theorem ttClear_grows {d0 d : Dev} (h : Grows d0 d) : Grows d0 (ttClear d) := by
  unfold ttClear
  repeat' first
    | intro _
    | with_reducible assumption
    | with_reducible first | apply endBound_grows | apply showArmed_grows
    | with_reducible apply Grows.fold
    | simp only [Grows.update_iff]
    | dsimp only

end Sys2Proof.Machine
end

