-- ==== Sys2Proof/Laws/GrowsRings.lean ====
section
/-! SUPPORT. No operation of Machine/Rings.lean undoes what `Grows` keeps. -/

set_option linter.unusedTactic false
set_option linter.unreachableTactic false
set_option linter.unusedSimpArgs false
set_option linter.unusedVariables false

namespace Sys2Proof.Machine

theorem kickArrives_grows {d0 d : Dev} {a0 a1 a2} (h : Grows d0 d) : Grows d0 (kickArrives a0 a1 a2 d).1 := by
  unfold kickArrives
  repeat' first
    | with_reducible assumption
    | with_reducible first | apply regWrite_grows | apply logErr_grows
    | with_reducible apply Grows.ite
    | with_reducible apply Grows.itePair
    | dsimp only
    | split

theorem readDbr_grows {d0 d : Dev} {a1 a2} (h : Grows d0 d) : Grows d0 (readDbr d a1 a2) := by
  unfold readDbr
  repeat' first
    | with_reducible assumption
    | with_reducible first | apply emit_grows | apply onRing_grows
    | simp only [Grows.update_iff]
    | dsimp only

theorem ignoreKick_grows {d0 d : Dev} {a1 a2} (h : Grows d0 d) : Grows d0 (ignoreKick d a1 a2) := by
  unfold ignoreKick
  repeat' first
    | with_reducible assumption
    | with_reducible first | apply onRing_grows
    | simp only [Grows.update_iff]
    | dsimp only

theorem kickRing_grows {d0 d : Dev} {a1 a2} (h : Grows d0 d) : Grows d0 (kickRing d a1 a2) := by
  unfold kickRing
  repeat' first
    | with_reducible assumption
    | with_reducible first | apply ignoreKick_grows | apply onRing_grows | apply readDbr_grows
    | with_reducible apply Grows.ite
    | simp only [Grows.update_iff]
    | dsimp only

theorem doKick_grows {d0 d : Dev} {a0 a1 a2} (h : Grows d0 d) : Grows d0 (doKick a0 a1 a2 d) := by
  unfold doKick
  repeat' first
    | with_reducible assumption
    | with_reducible first | apply kickArrives_grows | apply kickRing_grows
    | with_reducible apply Grows.ite
    | with_reducible apply Grows.itePair
    | dsimp only

theorem refuseReload_grows {d0 d : Dev} {a1 a2 a3} (h : Grows d0 d) : Grows d0 (refuseReload d a1 a2 a3) := by
  unfold refuseReload
  repeat' first
    | with_reducible assumption
    | with_reducible first | apply postRing_grows
    | dsimp only

theorem abortQueue_grows {d0 d : Dev} {a1 a2 a3} (h : Grows d0 d) : Grows d0 (abortQueue d a1 a2 a3) := by
  unfold abortQueue
  repeat' first
    | intro _
    | with_reducible assumption
    | with_reducible first | apply writeCompletion_grows | apply onRing_grows
    | with_reducible apply Grows.fold
    | simp only [Grows.update_iff]
    | dsimp only

theorem drainRing_grows {d0 d : Dev} {a1 a2} (h : Grows d0 d) : Grows d0 (drainRing d a1 a2) := by
  unfold drainRing
  repeat' first
    | intro _
    | with_reducible assumption
    | with_reducible first | apply abortQueue_grows | apply onRing_grows | apply rerouteHeld_grows | apply abortCommits_grows | apply drainDone_grows | apply complete_grows
    | with_reducible apply Grows.ite
    | with_reducible apply Grows.fold
    | simp only [Grows.update_iff]
    | dsimp only
    | split

theorem takeEntry_grows {d0 d : Dev} {a1 a2 a3} (h : Grows d0 d) : Grows d0 (takeEntry d a1 a2 a3) := by
  unfold takeEntry
  repeat' first
    | with_reducible assumption
    | with_reducible first | apply onFn_grows | apply linkSend_grows | apply refuseReload_grows | apply drainRing_grows | apply onRing_grows
    | with_reducible apply Grows.ite
    | simp only [Grows.update_iff]
    | dsimp only
    | split

theorem reloadEntry_grows {d0 d : Dev} {a1 a2 a3} (h : Grows d0 d) : Grows d0 (reloadEntry d a1 a2 a3) := by
  unfold reloadEntry
  repeat' first
    | with_reducible assumption
    | with_reducible first | apply memRead_grows | apply refuseReload_grows | apply takeEntry_grows
    | dsimp only
    | split

theorem doReloadRing_grows {d0 d : Dev} {a0 a1 a2 a3} (h : Grows d0 d) : Grows d0 (doReloadRing a0 a1 a2 a3 d) := by
  unfold doReloadRing
  repeat' first
    | with_reducible assumption
    | with_reducible first | apply kickArrives_grows | apply ignoreKick_grows | apply reloadEntry_grows
    | with_reducible apply Grows.ite
    | with_reducible apply Grows.itePair
    | dsimp only

theorem refuseMods_grows {d0 d : Dev} {a1 a2} (h : Grows d0 d) : Grows d0 (refuseMods d a1 a2) := by
  unfold refuseMods
  repeat' first
    | with_reducible assumption
    | with_reducible first | apply postRing_grows
    | dsimp only

theorem doReloadVectors_grows {d0 d : Dev} {a0 a1 a2} (h : Grows d0 d) : Grows d0 (doReloadVectors a0 a1 a2 d) := by
  unfold doReloadVectors
  repeat' first
    | intro _
    | with_reducible assumption
    | with_reducible first | apply kickArrives_grows | apply ignoreKick_grows | apply memRead_grows | apply refuseMods_grows | apply onFn_grows | apply linkSend_grows
    | with_reducible apply Grows.ite
    | with_reducible apply Grows.itePair
    | with_reducible apply Grows.fold
    | simp only [Grows.update_iff]
    | dsimp only
    | split

theorem doMsixHoldoffExpire_grows {d0 d : Dev} {a0 a1} (h : Grows d0 d) : Grows d0 (doMsixHoldoffExpire a0 a1 d) := by
  unfold doMsixHoldoffExpire
  repeat' first
    | with_reducible assumption
    | with_reducible first | apply sendMsi_grows | apply advance_grows
    | with_reducible apply Grows.ite
    | dsimp only

theorem endRead_grows {d0 d : Dev} {a1 a2} (h : Grows d0 d) : Grows d0 (endRead d a1 a2) := by
  unfold endRead
  repeat' first
    | with_reducible assumption
    | with_reducible first | apply onRing_grows | apply readDbr_grows
    | with_reducible apply Grows.ite
    | simp only [Grows.update_iff]
    | dsimp only

theorem spaceReturn_grows {d0 d : Dev} {a0 a2 a3} (h : Grows d0 d) : Grows d0 (spaceReturn a0 d a2 a3) := by
  induction a0 generalizing d a2 a3 with
  | zero =>
    unfold spaceReturn
    repeat' first
      | with_reducible assumption
      | with_reducible first | apply memWrite_grows | apply sendOut_grows | apply emit_grows | apply onRing_grows | apply report_grows | apply count_grows | apply postList_grows
      | with_reducible apply Grows.ite
      | with_reducible apply Grows.itePair
      | simp only [Grows.update_iff]
      | dsimp only
      | split
  | succ _ ih =>
    unfold spaceReturn
    repeat' first
      | with_reducible assumption
      | with_reducible apply ih
      | with_reducible first | apply memWrite_grows | apply sendOut_grows | apply emit_grows | apply onRing_grows | apply report_grows | apply count_grows | apply postList_grows
      | with_reducible apply Grows.ite
      | with_reducible apply Grows.itePair
      | simp only [Grows.update_iff]
      | dsimp only
      | split

theorem issueFetch_grows {d0 d : Dev} {a1 a2} (h : Grows d0 d) : Grows d0 (issueFetch d a1 a2) := by
  unfold issueFetch
  repeat' first
    | with_reducible assumption
    | with_reducible first | apply emit_grows
    | with_reducible apply Grows.ite
    | dsimp only

theorem resumeFetch_grows {d0 d e : Dev} (h : Grows d0 d) : Grows d0 (resumeFetch e d) := by
  unfold resumeFetch
  exact Grows.fold (fun d p h => Grows.fold (fun d r h => Grows.ite (issueFetch_grows h) h) h) h

theorem stallFetch_grows {d0 d : Dev} {a1 a2 a3 a4} (h : Grows d0 d) : Grows d0 (stallFetch d a1 a2 a3 a4) := by
  unfold stallFetch
  repeat' first
    | intro _
    | with_reducible assumption
    | with_reducible first | apply writeCompletion_grows | apply onRing_grows | apply stallRing_grows
    | with_reducible apply Grows.fold
    | simp only [Grows.update_iff]
    | dsimp only

theorem doDoorbellRecordArrive_grows {d0 d : Dev} {a0 a1 a2} (h : Grows d0 d) : Grows d0 (doDoorbellRecordArrive a0 a1 a2 d) := by
  unfold doDoorbellRecordArrive
  repeat' first
    | with_reducible assumption
    | with_reducible first | apply memRead_grows | apply stallFetch_grows | apply onRing_grows | apply endRead_grows | apply postRing_grows | apply spaceReturn_grows | apply issueFetch_grows
    | with_reducible apply Grows.ite
    | with_reducible apply Grows.itePair
    | simp only [Grows.update_iff]
    | dsimp only
    | split

theorem doDbrRetry_grows {d0 d : Dev} {a0 a1} (h : Grows d0 d) : Grows d0 (doDbrRetry a0 a1 d) := by
  unfold doDbrRetry
  repeat' first
    | with_reducible assumption
    | with_reducible first | apply emit_grows | apply advance_grows
    | with_reducible apply Grows.ite
    | dsimp only

theorem pushSlot_grows {d0 d : Dev} {a1 a2 a3 a4 a5} (h : Grows d0 d) : Grows d0 (pushSlot d a1 a2 a3 a4 a5) := by
  unfold pushSlot
  repeat' first
    | with_reducible assumption
    | with_reducible first | apply onRing_grows
    | with_reducible apply Grows.ite
    | with_reducible apply Grows.itePair
    | simp only [Grows.update_iff]
    | dsimp only

theorem fetchSlot_grows {d0 d : Dev} {a1 a2 a3} (h : Grows d0 d) : Grows d0 (fetchSlot d a1 a2 a3) := by
  unfold fetchSlot
  repeat' first
    | with_reducible assumption
    | with_reducible first | apply pushSlot_grows | apply linkSend_grows | apply count_grows
    | with_reducible apply Grows.ite
    | dsimp only

theorem fetchSlots_grows {d0 d : Dev} {a0 a2 a3 a4} (h : Grows d0 d) : Grows d0 (fetchSlots a0 d a2 a3 a4) := by
  induction a0 generalizing d a2 a3 a4 with
  | zero =>
    unfold fetchSlots
    repeat' first
      | with_reducible assumption
      | with_reducible first | apply memRead_grows | apply stallFetch_grows | apply fetchSlot_grows
      | simp only [Grows.update_iff]
      | dsimp only
      | split
  | succ _ ih =>
    unfold fetchSlots
    repeat' first
      | with_reducible assumption
      | with_reducible apply ih
      | with_reducible first | apply memRead_grows | apply stallFetch_grows | apply fetchSlot_grows
      | simp only [Grows.update_iff]
      | dsimp only
      | split

theorem doDescriptorArrive_grows {d0 d : Dev} {a0 a1 a2 a3} (h : Grows d0 d) : Grows d0 (doDescriptorArrive a0 a1 a2 a3 d) := by
  unfold doDescriptorArrive
  repeat' first
    | with_reducible assumption
    | with_reducible first | apply fetchSlots_grows | apply purgeRing_grows | apply issueFetch_grows
    | with_reducible apply Grows.ite
    | dsimp only

theorem actNop_grows {d0 d : Dev} {a0 a1 a2} (h : Grows d0 d) : Grows d0 (actNop a0 a1 a2 d) := by
  unfold actNop
  repeat' first
    | with_reducible assumption
    | with_reducible first | apply complete_grows
    | dsimp only

theorem doNop_grows {d0 d : Dev} {a0 a1} (h : Grows d0 d) : Grows d0 (doNop a0 a1 d) := by
  unfold doNop
  repeat' first
    | intro _
    | with_reducible assumption
    | with_reducible first | apply startDesc_grows | apply actNop_grows
    | dsimp only

theorem actSignal_grows {d0 d : Dev} {a0 a1 a2} (h : Grows d0 d) : Grows d0 (actSignal a0 a1 a2 d) := by
  unfold actSignal
  repeat' first
    | with_reducible assumption
    | with_reducible first | apply onLive_grows | apply settle_grows
    | simp only [Grows.update_iff]
    | dsimp only

theorem doSignal_grows {d0 d : Dev} {a0 a1} (h : Grows d0 d) : Grows d0 (doSignal a0 a1 d) := by
  unfold doSignal
  repeat' first
    | intro _
    | with_reducible assumption
    | with_reducible first | apply startDesc_grows | apply actSignal_grows
    | dsimp only

theorem actWait_grows {d0 d : Dev} {a0 a1 a2} (h : Grows d0 d) : Grows d0 (actWait a0 a1 a2 d) := by
  unfold actWait
  repeat' first
    | with_reducible assumption
    | with_reducible first | apply settle_grows
    | dsimp only

theorem doWait_grows {d0 d : Dev} {a0 a1} (h : Grows d0 d) : Grows d0 (doWait a0 a1 d) := by
  unfold doWait
  repeat' first
    | intro _
    | with_reducible assumption
    | with_reducible first | apply startDesc_grows | apply actWait_grows
    | dsimp only

theorem actCpRead_grows {d0 d : Dev} {a0 a1 a2} (h : Grows d0 d) : Grows d0 (actCpRead a0 a1 a2 d) := by
  unfold actCpRead
  repeat' first
    | with_reducible assumption
    | with_reducible first | apply memWrite_grows | apply complete_grows
    | with_reducible apply Grows.ite
    | with_reducible apply Grows.itePair
    | dsimp only

theorem doCpRead_grows {d0 d : Dev} {a0 a1} (h : Grows d0 d) : Grows d0 (doCpRead a0 a1 d) := by
  unfold doCpRead
  repeat' first
    | intro _
    | with_reducible assumption
    | with_reducible first | apply startDesc_grows | apply actCpRead_grows
    | dsimp only

end Sys2Proof.Machine
end

