-- ==== Sys2Proof/Laws/GrowsCounters.lean ====
section
/-! SUPPORT. No operation of Machine/Counters.lean undoes what `Grows` keeps. -/

set_option linter.unusedTactic false
set_option linter.unreachableTactic false
set_option linter.unusedSimpArgs false
set_option linter.unusedVariables false

namespace Sys2Proof.Machine

theorem doCounterRead_grows {d0 d : Dev} {a0} (h : Grows d0 d) : Grows d0 (doCounterRead a0 d) := by
  unfold doCounterRead
  repeat' first
    | with_reducible assumption
    | with_reducible first | apply serveDomain_grows | apply emit_grows
    | refine Grows.count (d := (serveDomain _ 4).1) ?_ (Nat.le_refl _) (Nat.le_refl _) (Nat.le_add_right _ _) (List.suffix_refl _)
    | with_reducible apply Grows.ite
    | with_reducible apply Grows.itePair
    | simp only [Grows.update_iff]
    | dsimp only

theorem snapLast_grows {d0 d : Dev} {a1} (h : Grows d0 d) : Grows d0 (snapLast d a1) := by
  unfold snapLast
  repeat' first
    | with_reducible assumption
    | with_reducible first | apply fs_grows
    | dsimp only

theorem endSnaps_grows {d0 d : Dev} {a1 a2} (h : Grows d0 d) : Grows d0 (endSnaps d a1 a2) := by
  unfold endSnaps
  repeat' first
    | intro _
    | with_reducible assumption
    | with_reducible first | apply snapLast_grows | apply complete_grows
    | with_reducible apply Grows.fold
    | with_reducible apply Grows.foldPair
    | dsimp only

theorem freeze_grows {d0 d : Dev} {a1 a2} (h : Grows d0 d) : Grows d0 (freeze d a1 a2) := by
  unfold freeze
  repeat' first
    | with_reducible assumption
    | with_reducible first | apply endSnaps_grows | apply fs_grows | apply wr64_grows
    | refine Grows.count (d := d) ?_ (Nat.le_refl _) (Nat.le_refl _) (Nat.le_add_right _ _) (List.suffix_refl _)
    | with_reducible apply Grows.ite
    | simp only [Grows.update_iff]
    | dsimp only

theorem actSnapshot_grows {d0 d : Dev} {a0 a1 a2} (h : Grows d0 d) : Grows d0 (actSnapshot a0 a1 a2 d) := by
  unfold actSnapshot
  repeat' first
    | with_reducible assumption
    | with_reducible first | apply freeze_grows
    | dsimp only

theorem doSnapshot_grows {d0 d : Dev} {a0 a1} (h : Grows d0 d) : Grows d0 (doSnapshot a0 a1 d) := by
  unfold doSnapshot
  repeat' first
    | intro _
    | with_reducible assumption
    | with_reducible first | apply startDesc_grows | apply actSnapshot_grows | apply snapLast_grows
    | with_reducible apply Grows.ite
    | dsimp only
    | split

theorem writeSnap_grows {d0 d : Dev} {a1 a2} (h : Grows d0 d) : Grows d0 (writeSnap d a1 a2) := by
  unfold writeSnap
  repeat' first
    | with_reducible assumption
    | with_reducible first | apply memWritePages_grows | apply snapLast_grows | apply complete_grows
    | with_reducible apply Grows.ite
    | with_reducible apply Grows.itePair
    | dsimp only

theorem doSnapshotDone_grows {d0 d : Dev} (h : Grows d0 d) : Grows d0 (doSnapshotDone d) := by
  unfold doSnapshotDone
  repeat' first
    | intro _
    | with_reducible assumption
    | with_reducible first | apply advance_grows | apply writeSnap_grows | apply fs_grows
    | with_reducible apply Grows.ite
    | with_reducible apply Grows.fold
    | simp only [Grows.update_iff]
    | dsimp only

theorem eccRegs_grows {d0 d : Dev} {a1 a2 a3} (h : Grows d0 d) : Grows d0 (eccRegs d a1 a2 a3) := by
  unfold eccRegs
  repeat' first
    | with_reducible assumption
    | with_reducible first | apply bump_grows | apply wr_grows
    | with_reducible apply Grows.ite
    | dsimp only
    | split

theorem memCorrected_grows {d0 d : Dev} {a0 a1} (h : Grows d0 d) : Grows d0 (memCorrected a0 a1 d) := by
  unfold memCorrected
  repeat' first
    | with_reducible assumption
    | with_reducible first | apply eccRegs_grows | apply count_grows | apply post_grows
    | with_reducible apply Grows.ite
    | with_reducible apply Grows.itePair
    | simp only [Grows.update_iff]
    | dsimp only

theorem clusterCorrected_grows {d0 d : Dev} {a0} (h : Grows d0 d) : Grows d0 (clusterCorrected a0 d) := by
  unfold clusterCorrected
  repeat' first
    | with_reducible assumption
    | with_reducible first | apply fs_grows | apply bump_grows
    | dsimp only

theorem doEccCorrected_grows {d0 d : Dev} {a0 a1} (h : Grows d0 d) : Grows d0 (doEccCorrected a0 a1 d) := by
  unfold doEccCorrected
  repeat' first
    | with_reducible assumption
    | with_reducible first | apply memCorrected_grows | apply clusterCorrected_grows
    | dsimp only
    | split

theorem eccUe_grows {d0 d : Dev} {a1 a2 a3} (h : Grows d0 d) : Grows d0 (eccUe d a1 a2 a3) := by
  unfold eccUe
  repeat' first
    | with_reducible assumption
    | with_reducible first | apply logErr_grows | apply eccRegs_grows | apply post_grows
    | with_reducible apply Grows.ite
    | dsimp only

theorem doEccUncorrectable_grows {d0 d : Dev} {a0 a1 a2 a3} (h : Grows d0 d) : Grows d0 (doEccUncorrectable a0 a1 a2 a3 d) := by
  unfold doEccUncorrectable
  repeat' first
    | with_reducible assumption
    | with_reducible first | apply eccUe_grows
    | with_reducible apply Grows.ite
    | simp only [Grows.update_iff]
    | dsimp only

theorem doPatrolScrub_grows {d0 d : Dev} {a0} (h : Grows d0 d) : Grows d0 (doPatrolScrub a0 d) := by
  unfold doPatrolScrub
  repeat' first
    | with_reducible assumption
    | with_reducible first | apply eccUe_grows | apply fs_grows
    | with_reducible apply Grows.ite
    | simp only [Grows.update_iff]
    | dsimp only

theorem doErrLogged_grows {d0 d : Dev} (h : Grows d0 d) : Grows d0 (doErrLogged d) := by
  unfold doErrLogged
  repeat' first
    | with_reducible assumption
    | with_reducible first | apply advance_grows | apply post_grows
    | with_reducible apply Grows.ite
    | simp only [Grows.update_iff]
    | dsimp only
    | split

end Sys2Proof.Machine
end

