-- ==== Sys2Proof/Laws/GrowsStoreRecs.lean ====
section
/-! SUPPORT. No operation of Machine/StoreRecs.lean undoes what `Grows` keeps. -/

set_option linter.unusedTactic false
set_option linter.unreachableTactic false
set_option linter.unusedSimpArgs false
set_option linter.unusedVariables false

namespace Sys2Proof.Machine

theorem showStore_grows {d0 d : Dev} (h : Grows d0 d) : Grows d0 (showStore d) := by
  unfold showStore
  repeat' first
    | with_reducible assumption
    | with_reducible first | apply fs_grows
    | dsimp only

theorem freshSector_grows {d0 d : Dev} (h : Grows d0 d) : Grows d0 (freshSector d) := by
  unfold freshSector
  split
  · exact h
  · split <;> simpa only [Grows.update_iff] using h

theorem storeRoom_grows {d0 d e : Dev} {n} (he : storeRoom d n = some e) (h : Grows d0 d) : Grows d0 e := by
  unfold storeRoom at he
  split at he
  · cases he; exact h
  · obtain ⟨k, -, rfl⟩ := Option.map_eq_some_iff.1 he
    exact Grows.update_iff.2 h

theorem appendRec_grows {d0 d e : Dev} {r} (he : appendRec d r = some e) (h : Grows d0 d) : Grows d0 e := by
  obtain ⟨x, hx, rfl⟩ := Option.map_eq_some_iff.1 he
  exact Grows.update_iff.2 (storeRoom_grows hx h)

theorem storeWrite_grows {d0 d : Dev} {a1 a2 a3 a4 a5 a6} (h : Grows d0 d) : Grows d0 (storeWrite d a1 a2 a3 a4 a5 a6) := by
  unfold storeWrite
  repeat' first
    | with_reducible assumption
    | with_reducible first | apply showStore_grows
    | simp only [Grows.update_iff]
    | dsimp only

theorem storeNow_grows {d0 d : Dev} {a1 a2 a3} (h : Grows d0 d) : Grows d0 (storeNow d a1 a2 a3) := by
  unfold storeNow
  repeat' first
    | with_reducible assumption
    | with_reducible first | apply showStore_grows
    | refine appendRec_grows (by with_reducible assumption) ?_
    | simp only [Grows.update_iff]
    | dsimp only
    | split

end Sys2Proof.Machine
end

