-- ==== Sys2Proof/Laws/GrowsGpu.lean ====
section
/-! SUPPORT. No operation of Machine/Gpu.lean undoes what `Grows` keeps. -/

set_option linter.unusedTactic false
set_option linter.unreachableTactic false
set_option linter.unusedSimpArgs false
set_option linter.unusedVariables false

namespace Sys2Proof.Machine

theorem onCtx_grows {d0 d : Dev} {a1 a2} (h : Grows d0 d) : Grows d0 (onCtx d a1 a2) := by
  unfold onCtx
  repeat' first
    | with_reducible assumption
    | simp only [Grows.update_iff]
    | dsimp only

theorem onJob_grows {d0 d : Dev} {a1 a2} (h : Grows d0 d) : Grows d0 (onJob d a1 a2) := by
  unfold onJob
  repeat' first
    | with_reducible assumption
    | with_reducible first | apply onCtx_grows
    | simp only [Grows.update_iff]
    | dsimp only

theorem onSlot_grows {d0 d : Dev} {a1 a2} (h : Grows d0 d) : Grows d0 (onSlot d a1 a2) := by
  unfold onSlot
  repeat' first
    | with_reducible assumption
    | simp only [Grows.update_iff]
    | dsimp only

theorem chargeCtx_grows {d0 d : Dev} {a1} (h : Grows d0 d) : Grows d0 (chargeCtx d a1) := by
  unfold chargeCtx
  repeat' first
    | intro _
    | with_reducible assumption
    | with_reducible first | apply onSlot_grows | apply onCtx_grows
    | with_reducible apply Grows.ite
    | with_reducible apply Grows.fold
    | simp only [Grows.update_iff]
    | dsimp only

theorem chargeAll_grows {d0 d : Dev} (h : Grows d0 d) : Grows d0 (chargeAll d) := by
  unfold chargeAll
  repeat' first
    | intro _
    | with_reducible assumption
    | with_reducible first | apply chargeCtx_grows
    | with_reducible apply Grows.fold
    | dsimp only

theorem dropSlot_grows {d0 d : Dev} {a1} (h : Grows d0 d) : Grows d0 (dropSlot d a1) := by
  unfold dropSlot
  repeat' first
    | with_reducible assumption
    | with_reducible first | apply onSlot_grows | apply chargeCtx_grows
    | simp only [Grows.update_iff]
    | dsimp only
    | split

theorem dropSlots_grows {d0 d : Dev} {a1} (h : Grows d0 d) : Grows d0 (dropSlots d a1) := by
  unfold dropSlots
  repeat' first
    | intro _
    | with_reducible assumption
    | with_reducible first | apply dropSlot_grows
    | with_reducible apply Grows.fold
    | dsimp only

theorem preemptSlot_grows {d0 d : Dev} {a1} (h : Grows d0 d) : Grows d0 (preemptSlot d a1) := by
  unfold preemptSlot
  repeat' first
    | with_reducible assumption
    | with_reducible first | apply dropSlot_grows | apply onCtx_grows
    | with_reducible apply Grows.ite
    | simp only [Grows.update_iff]
    | dsimp only
    | split

theorem jobEvent_grows {d0 d : Dev} {a1 a2 a3} (h : Grows d0 d) : Grows d0 (jobEvent d a1 a2 a3) := by
  unfold jobEvent
  repeat' first
    | with_reducible assumption
    | with_reducible first | apply post_grows
    | dsimp only
    | split

theorem rasterEvent_grows {d0 d : Dev} {a1 a2} (h : Grows d0 d) : Grows d0 (rasterEvent d a1 a2) := by
  unfold rasterEvent
  repeat' first
    | with_reducible assumption
    | with_reducible first | apply post_grows
    | dsimp only

theorem freeRegions_grows {d0 d : Dev} {a1 a2 a3} (h : Grows d0 d) : Grows d0 (freeRegions d a1 a2 a3).1 := by
  induction a3 generalizing d a1 a2 with
  | nil =>
    unfold freeRegions
    repeat' first
      | with_reducible assumption
      | with_reducible first | apply memFree_grows
      | with_reducible apply Grows.ite
      | with_reducible apply Grows.itePair
      | dsimp only
      | split
  | cons _ _ ih =>
    unfold freeRegions
    repeat' first
      | with_reducible assumption
      | with_reducible apply ih
      | with_reducible first | apply memFree_grows
      | with_reducible apply Grows.ite
      | with_reducible apply Grows.itePair
      | dsimp only
      | split

theorem spoilRegions_grows {d0 d : Dev} {a1 a2 a3} (h : Grows d0 d) : Grows d0 (spoilRegions d a1 a2 a3) := by
  unfold spoilRegions
  repeat' first
    | intro _
    | with_reducible assumption
    | with_reducible first | apply memFreeQuiet_grows
    | with_reducible apply Grows.fold
    | with_reducible apply Grows.foldPair
    | dsimp only

theorem spoilJob_grows {d0 d : Dev} {a1 a2} (h : Grows d0 d) : Grows d0 (spoilJob d a1 a2) := by
  unfold spoilJob
  repeat' first
    | with_reducible assumption
    | with_reducible first | apply spoilRegions_grows
    | with_reducible apply Grows.ite
    | dsimp only
    | split

theorem endJob_grows {d0 d : Dev} {a1 a2 a3} (h : Grows d0 d) : Grows d0 (endJob d a1 a2 a3) := by
  unfold endJob
  repeat' first
    | with_reducible assumption
    | with_reducible first | apply spoilJob_grows | apply jobEvent_grows | apply dropSlots_grows | apply onCtx_grows | apply count_grows | apply complete_grows
    | with_reducible apply Grows.ite
    | simp only [Grows.update_iff]
    | dsimp only
    | split

theorem applySetup_grows {d0 d : Dev} {a1 a2 a3} (h : Grows d0 d) : Grows d0 (applySetup d a1 a2 a3) := by
  unfold applySetup
  repeat' first
    | with_reducible assumption
    | with_reducible first | apply onCtx_grows
    | simp only [Grows.update_iff]
    | dsimp only

theorem applyPool_grows {d0 d : Dev} {a1 a2} (h : Grows d0 d) : Grows d0 (applyPool d a1 a2) := by
  unfold applyPool
  repeat' first
    | with_reducible assumption
    | with_reducible first | apply onCtx_grows
    | simp only [Grows.update_iff]
    | dsimp only

theorem pumpCtx_grows {d0 d : Dev} {a0 a2} (h : Grows d0 d) : Grows d0 (pumpCtx a0 d a2) := by
  induction a0 generalizing d a2 with
  | zero =>
    unfold pumpCtx
    repeat' first
      | with_reducible assumption
      | with_reducible first | apply complete_grows | apply applySetup_grows | apply applyPool_grows
      | with_reducible apply Grows.ite
      | dsimp only
      | split
  | succ _ ih =>
    unfold pumpCtx
    repeat' first
      | with_reducible assumption
      | with_reducible apply ih
      | with_reducible first | apply complete_grows | apply applySetup_grows | apply applyPool_grows
      | with_reducible apply Grows.ite
      | dsimp only
      | split

theorem startJob_grows {d0 d : Dev} {a1} (h : Grows d0 d) : Grows d0 (startJob d a1) := by
  unfold startJob
  repeat' first
    | with_reducible assumption
    | with_reducible first | apply onCtx_grows
    | simp only [Grows.update_iff]
    | dsimp only
    | split

theorem takeSlot_grows {d0 d : Dev} {a1 a2} (h : Grows d0 d) : Grows d0 (takeSlot d a1 a2) := by
  unfold takeSlot
  repeat' first
    | with_reducible assumption
    | with_reducible first | apply startJob_grows | apply onCtx_grows | apply onSlot_grows
    | with_reducible apply Grows.ite
    | simp only [Grows.update_iff]
    | dsimp only

theorem fillSlots_grows {d0 d : Dev} {a1} (h : Grows d0 d) : Grows d0 (fillSlots d a1) := by
  unfold fillSlots
  repeat' first
    | intro _
    | with_reducible assumption
    | with_reducible first | apply takeSlot_grows
    | with_reducible apply Grows.ite
    | with_reducible apply Grows.fold
    | dsimp only

theorem resumeCheck_grows {d0 d : Dev} {a1} (h : Grows d0 d) : Grows d0 (resumeCheck d a1) := by
  unfold resumeCheck
  repeat' first
    | with_reducible assumption
    | with_reducible first | apply endJob_grows | apply noteFault_grows | apply onCtx_grows
    | simp only [Grows.update_iff]
    | dsimp only
    | split

theorem serveCand_grows {d0 d : Dev} {a1} (h : Grows d0 d) : Grows d0 (serveCand d a1) := by
  unfold serveCand
  repeat' first
    | with_reducible assumption
    | with_reducible first | apply fillSlots_grows | apply resumeCheck_grows
    | with_reducible apply Grows.ite
    | dsimp only

theorem yieldSlot_grows {d0 d : Dev} {a1 a2} (h : Grows d0 d) : Grows d0 (yieldSlot d a1 a2) := by
  unfold yieldSlot
  repeat' first
    | with_reducible assumption
    | with_reducible first | apply onSlot_grows
    | with_reducible apply Grows.ite
    | simp only [Grows.update_iff]
    | dsimp only

theorem tpEnforce_grows {d0 d : Dev} (h : Grows d0 d) : Grows d0 (tpEnforce d) := by
  unfold tpEnforce
  repeat' first
    | intro _
    | with_reducible assumption
    | with_reducible first | apply yieldSlot_grows
    | with_reducible apply Grows.ite
    | with_reducible apply Grows.fold
    | simp only [Grows.update_iff]
    | dsimp only

theorem yieldSpent_grows {d0 d : Dev} (h : Grows d0 d) : Grows d0 (yieldSpent d) := by
  unfold yieldSpent
  repeat' first
    | intro _
    | with_reducible assumption
    | with_reducible first | apply yieldSlot_grows
    | with_reducible apply Grows.ite
    | with_reducible apply Grows.fold
    | dsimp only

theorem wakeForJobs_grows {d0 d : Dev} (h : Grows d0 d) : Grows d0 (wakeForJobs d) := by
  unfold wakeForJobs
  repeat' first
    | intro _
    | with_reducible assumption
    | with_reducible first | apply startWake_grows
    | with_reducible apply Grows.ite
    | with_reducible apply Grows.fold
    | dsimp only

theorem gpuRun_grows {d0 d : Dev} (h : Grows d0 d) : Grows d0 (gpuRun d) := by
  unfold gpuRun
  repeat' first
    | intro _
    | with_reducible assumption
    | with_reducible first | apply tpEnforce_grows | apply pumpCtx_grows | apply yieldSpent_grows | apply serveCand_grows | apply wakeForJobs_grows
    | with_reducible apply Grows.ite
    | with_reducible apply Grows.fold
    | dsimp only

theorem endJobRun_grows {d0 d : Dev} {a1 a2 a3} (h : Grows d0 d) : Grows d0 (endJobRun d a1 a2 a3) := by
  unfold endJobRun
  repeat' first
    | with_reducible assumption
    | with_reducible first | apply gpuRun_grows | apply endJob_grows
    | dsimp only

theorem actJobSubmit_grows {d0 d : Dev} {a0 a1 a2} (h : Grows d0 d) : Grows d0 (actJobSubmit a0 a1 a2 d) := by
  unfold actJobSubmit
  repeat' first
    | with_reducible assumption
    | with_reducible first | apply gpuRun_grows | apply onLive_grows
    | with_reducible apply Grows.ite
    | simp only [Grows.update_iff]
    | dsimp only

theorem doJobSubmit_grows {d0 d : Dev} {a0 a1} (h : Grows d0 d) : Grows d0 (doJobSubmit a0 a1 d) := by
  unfold doJobSubmit
  repeat' first
    | intro _
    | with_reducible assumption
    | with_reducible first | apply startDesc_grows | apply actJobSubmit_grows
    | with_reducible apply Grows.ite
    | dsimp only

theorem actCtxItem_grows {d0 d : Dev} {a0 a1 a2} (h : Grows d0 d) : Grows d0 (actCtxItem a0 a1 a2 d) := by
  unfold actCtxItem
  repeat' first
    | with_reducible assumption
    | with_reducible first | apply gpuRun_grows | apply onLive_grows
    | simp only [Grows.update_iff]
    | dsimp only

theorem doCtxSetup_grows {d0 d : Dev} {a0 a1} (h : Grows d0 d) : Grows d0 (doCtxSetup a0 a1 d) := by
  unfold doCtxSetup
  repeat' first
    | intro _
    | with_reducible assumption
    | with_reducible first | apply startDesc_grows | apply actCtxItem_grows
    | dsimp only

theorem doTilePool_grows {d0 d : Dev} {a0 a1} (h : Grows d0 d) : Grows d0 (doTilePool a0 a1 d) := by
  unfold doTilePool
  repeat' first
    | intro _
    | with_reducible assumption
    | with_reducible first | apply startDesc_grows | apply actCtxItem_grows
    | dsimp only

theorem dropQueued_grows {d0 d : Dev} {a1 a2 a3} (h : Grows d0 d) : Grows d0 (dropQueued d a1 a2 a3) := by
  unfold dropQueued
  repeat' first
    | intro _
    | with_reducible assumption
    | with_reducible first | apply complete_grows
    | with_reducible apply Grows.ite
    | with_reducible apply Grows.itePair
    | with_reducible apply Grows.fold
    | dsimp only
    | split

theorem freeCtx_grows {d0 d : Dev} {a1 a2 a3} (h : Grows d0 d) : Grows d0 (freeCtx d a1 a2 a3) := by
  unfold freeCtx
  repeat' first
    | with_reducible assumption
    | with_reducible first | apply endJob_grows | apply dropQueued_grows
    | simp only [Grows.update_iff]
    | dsimp only

theorem actCtxDestroy_grows {d0 d : Dev} {a0 a1 a2} (h : Grows d0 d) : Grows d0 (actCtxDestroy a0 a1 a2 d) := by
  unfold actCtxDestroy
  repeat' first
    | with_reducible assumption
    | with_reducible first | apply gpuRun_grows | apply complete_grows | apply freeCtx_grows
    | dsimp only

theorem doCtxDestroy_grows {d0 d : Dev} {a0 a1} (h : Grows d0 d) : Grows d0 (doCtxDestroy a0 a1 d) := by
  unfold doCtxDestroy
  repeat' first
    | intro _
    | with_reducible assumption
    | with_reducible first | apply startDesc_grows | apply actCtxDestroy_grows
    | dsimp only

theorem cancelQueued_grows {d0 d : Dev} {a1 a2 a3 a4} (h : Grows d0 d) : Grows d0 (cancelQueued d a1 a2 a3 a4) := by
  unfold cancelQueued
  repeat' first
    | with_reducible assumption
    | with_reducible first | apply complete_grows
    | with_reducible apply Grows.ite
    | with_reducible apply Grows.itePair
    | simp only [Grows.update_iff]
    | dsimp only

theorem actJobCancel_grows {d0 d : Dev} {a0 a1 a2} (h : Grows d0 d) : Grows d0 (actJobCancel a0 a1 a2 d) := by
  unfold actJobCancel
  repeat' first
    | with_reducible assumption
    | with_reducible first | apply complete_grows | apply endJob_grows | apply cancelQueued_grows | apply gpuRun_grows
    | with_reducible apply Grows.ite
    | dsimp only
    | split

theorem doJobCancel_grows {d0 d : Dev} {a0 a1} (h : Grows d0 d) : Grows d0 (doJobCancel a0 a1 d) := by
  unfold doJobCancel
  repeat' first
    | intro _
    | with_reducible assumption
    | with_reducible first | apply startDesc_grows | apply actJobCancel_grows
    | dsimp only

theorem doClearLine_grows {d0 d : Dev} {a0} (h : Grows d0 d) : Grows d0 (doClearLine a0 d) := by
  unfold doClearLine
  repeat' first
    | intro _
    | with_reducible assumption
    | with_reducible first | apply advance_grows | apply yieldSlot_grows | apply gpuRun_grows
    | with_reducible apply Grows.ite
    | with_reducible apply Grows.fold
    | simp only [Grows.update_iff]
    | dsimp only
    | split

theorem saveSlot_grows {d0 d : Dev} {a1 a2} (h : Grows d0 d) : Grows d0 (saveSlot d a1 a2) := by
  unfold saveSlot
  repeat' first
    | with_reducible assumption
    | with_reducible first | apply freeRegions_grows | apply onCtx_grows | apply endJob_grows
    | with_reducible apply Grows.ite
    | with_reducible apply Grows.itePair
    | simp only [Grows.update_iff]
    | dsimp only
    | split

theorem hardOut_grows {d0 d : Dev} {a1} (h : Grows d0 d) : Grows d0 (hardOut d a1) := by
  unfold hardOut
  repeat' first
    | with_reducible assumption
    | with_reducible first | apply preemptSlot_grows | apply saveSlot_grows
    | dsimp only
    | split

theorem doSoftYieldDone_grows {d0 d : Dev} {a0} (h : Grows d0 d) : Grows d0 (doSoftYieldDone a0 d) := by
  unfold doSoftYieldDone
  repeat' first
    | with_reducible assumption
    | with_reducible first | apply gpuRun_grows | apply preemptSlot_grows | apply saveSlot_grows
    | with_reducible apply Grows.ite
    | dsimp only
    | split

theorem doHardPreempt_grows {d0 d : Dev} {a0} (h : Grows d0 d) : Grows d0 (doHardPreempt a0 d) := by
  unfold doHardPreempt
  repeat' first
    | with_reducible assumption
    | with_reducible first | apply advance_grows | apply onSlot_grows | apply count_grows
    | with_reducible apply Grows.ite
    | simp only [Grows.update_iff]
    | dsimp only
    | split

theorem doSaveFirstPartDone_grows {d0 d : Dev} {a0} (h : Grows d0 d) : Grows d0 (doSaveFirstPartDone a0 d) := by
  unfold doSaveFirstPartDone
  repeat' first
    | with_reducible assumption
    | with_reducible first | apply advance_grows | apply preemptSlot_grows | apply saveSlot_grows | apply gpuRun_grows | apply onSlot_grows
    | with_reducible apply Grows.ite
    | simp only [Grows.update_iff]
    | dsimp only
    | split

theorem doBudgetExhausted_grows {d0 d : Dev} {a0} (h : Grows d0 d) : Grows d0 (doBudgetExhausted a0 d) := by
  unfold doBudgetExhausted
  repeat' first
    | with_reducible assumption
    | with_reducible first | apply chargeCtx_grows | apply advance_grows | apply onCtx_grows | apply jobEvent_grows | apply gpuRun_grows
    | with_reducible apply Grows.ite
    | simp only [Grows.update_iff]
    | dsimp only

theorem doBudgetReset_grows {d0 d : Dev} (h : Grows d0 d) : Grows d0 (doBudgetReset d) := by
  unfold doBudgetReset
  repeat' first
    | intro _
    | with_reducible assumption
    | with_reducible first | apply advance_grows | apply gpuRun_grows | apply onCtx_grows | apply chargeCtx_grows
    | with_reducible apply Grows.ite
    | with_reducible apply Grows.itePair
    | with_reducible apply Grows.fold
    | simp only [Grows.update_iff]
    | dsimp only

theorem doTpWindowStart_grows {d0 d : Dev} {a0} (h : Grows d0 d) : Grows d0 (doTpWindowStart a0 d) := by
  unfold doTpWindowStart
  repeat' first
    | with_reducible assumption
    | with_reducible first | apply chargeAll_grows | apply advance_grows | apply gpuRun_grows
    | with_reducible apply Grows.ite
    | simp only [Grows.update_iff]
    | dsimp only

theorem doTpWindowEnd_grows {d0 d : Dev} {a0} (h : Grows d0 d) : Grows d0 (doTpWindowEnd a0 d) := by
  unfold doTpWindowEnd
  repeat' first
    | with_reducible assumption
    | with_reducible first | apply advance_grows | apply chargeAll_grows | apply gpuRun_grows
    | with_reducible apply Grows.ite
    | simp only [Grows.update_iff]
    | dsimp only

theorem setClState_grows {d0 d : Dev} {a1 a2 a3} (h : Grows d0 d) : Grows d0 (setClState d a1 a2 a3) := by
  unfold setClState
  repeat' first
    | with_reducible assumption
    | with_reducible first | apply fs_grows
    | dsimp only

theorem saveMap_grows {d0 d : Dev} (h : Grows d0 d) : Grows d0 (saveMap d) := by
  unfold saveMap
  repeat' first
    | with_reducible assumption
    | with_reducible first | apply storeNow_grows
    | with_reducible apply Grows.ite
    | dsimp only

theorem restoreMap_grows {d0 d : Dev} (h : Grows d0 d) : Grows d0 (restoreMap d) := by
  unfold restoreMap
  repeat' first
    | intro _
    | with_reducible assumption
    | with_reducible first | apply wr_grows
    | with_reducible apply Grows.ite
    | with_reducible apply Grows.fold
    | simp only [Grows.update_iff]
    | dsimp only
    | split

theorem recoverJob_grows {d0 d : Dev} {c k counts tiles} (ht : ∀ d, Grows d0 d → Grows d0 (tiles d)) (h : Grows d0 d) :
    Grows d0 (recoverJob d c k counts tiles) := by
  unfold recoverJob
  repeat' first
    | with_reducible assumption
    | with_reducible apply ht
    | with_reducible first | apply endJob_grows | apply jobEvent_grows | apply onJob_grows | apply onCtx_grows | apply dropSlots_grows
    | with_reducible apply Grows.ite
    | simp only [Grows.update_iff]
    | dsimp only
    | split

theorem recoverWork_grows {d0 d : Dev} {s k counts} (h : Grows d0 d) : Grows d0 (recoverWork d s k counts) := by
  unfold recoverWork
  repeat' first
    | with_reducible assumption
    | refine recoverJob_grows (fun d h => ?_) ?_
    | with_reducible first | apply onSlot_grows | apply onCtx_grows | apply preemptSlot_grows
    | with_reducible apply Grows.ite
    | dsimp only
    | split

theorem relieve_grows {d0 d : Dev} {a1 a2} (h : Grows d0 d) : Grows d0 (relieve d a1 a2) := by
  unfold relieve
  repeat' first
    | with_reducible assumption
    | with_reducible first | apply rasterEvent_grows | apply fs_grows
    | with_reducible apply Grows.ite
    | simp only [Grows.update_iff]
    | dsimp only

theorem retireCluster_grows {d0 d : Dev} {a1 a2} (h : Grows d0 d) : Grows d0 (retireCluster d a1 a2) := by
  unfold retireCluster
  repeat' first
    | with_reducible assumption
    | with_reducible first | apply bump_grows | apply fs_grows | apply setClState_grows
    | simp only [Grows.update_iff]
    | dsimp only

theorem spareDies_grows {d0 d : Dev} {a1 a2} (h : Grows d0 d) : Grows d0 (spareDies d a1 a2) := by
  unfold spareDies
  repeat' first
    | with_reducible assumption
    | with_reducible first | apply rasterEvent_grows | apply retireCluster_grows | apply saveMap_grows | apply fs_grows | apply relieve_grows
    | with_reducible apply Grows.ite
    | simp only [Grows.update_iff]
    | dsimp only
    | split

theorem doClusterDead_grows {d0 d : Dev} {a0 a1} (h : Grows d0 d) : Grows d0 (doClusterDead a0 a1 d) := by
  unfold doClusterDead
  repeat' first
    | with_reducible assumption
    | with_reducible first | apply rasterEvent_grows | apply retireCluster_grows | apply recoverWork_grows | apply gpuRun_grows | apply saveMap_grows | apply relieve_grows | apply spareDies_grows
    | with_reducible apply Grows.ite
    | dsimp only
    | split

theorem fillEmpty_grows {d0 d : Dev} {a1} (h : Grows d0 d) : Grows d0 (fillEmpty d a1) := by
  unfold fillEmpty
  repeat' first
    | with_reducible assumption
    | with_reducible first | apply relieve_grows
    | with_reducible apply Grows.ite
    | dsimp only
    | split

theorem doReliefDone_grows {d0 d : Dev} {a0} (h : Grows d0 d) : Grows d0 (doReliefDone a0 d) := by
  unfold doReliefDone
  repeat' first
    | with_reducible assumption
    | with_reducible first | apply setClState_grows | apply fs_grows | apply gpuRun_grows | apply fillEmpty_grows | apply rasterEvent_grows | apply saveMap_grows
    | simp only [Grows.update_iff]
    | dsimp only
    | split

theorem doLdsEccError_grows {d0 d : Dev} {a0} (h : Grows d0 d) : Grows d0 (doLdsEccError a0 d) := by
  unfold doLdsEccError
  repeat' first
    | with_reducible assumption
    | with_reducible first | apply gpuRun_grows | apply recoverWork_grows
    | with_reducible apply Grows.ite
    | dsimp only
    | split

theorem notePosthumous_grows {d0 d : Dev} {a1 a2} (h : Grows d0 d) : Grows d0 (notePosthumous d a1 a2) := by
  unfold notePosthumous
  repeat' first
    | with_reducible assumption
    | with_reducible first | apply fs_grows | apply bump_grows | apply wr64_grows
    | dsimp only

theorem tellPosthumous_grows {d0 d : Dev} {a1 a2} (h : Grows d0 d) : Grows d0 (tellPosthumous d a1 a2) := by
  unfold tellPosthumous
  repeat' first
    | with_reducible assumption
    | with_reducible first | apply rasterEvent_grows | apply logErr_grows
    | simp only [Grows.update_iff]
    | dsimp only

theorem doPosthumous_grows {d0 d : Dev} {a0 a1} (h : Grows d0 d) : Grows d0 (doPosthumous a0 a1 d) := by
  unfold doPosthumous
  repeat' first
    | with_reducible assumption
    | with_reducible first | apply notePosthumous_grows | apply tellPosthumous_grows
    | with_reducible apply Grows.ite
    | dsimp only

theorem startBist_grows {d0 d : Dev} {a1} (h : Grows d0 d) : Grows d0 (startBist d a1) := by
  unfold startBist
  repeat' first
    | with_reducible assumption
    | with_reducible apply Grows.ite
    | simp only [Grows.update_iff]
    | dsimp only

theorem doBistStart_grows {d0 d : Dev} {a0 a1} (h : Grows d0 d) : Grows d0 (doBistStart a0 a1 d) := by
  unfold doBistStart
  repeat' first
    | with_reducible assumption
    | with_reducible first | apply regWrite_grows | apply logErr_grows | apply wr_grows | apply startBist_grows | apply saveMap_grows | apply fs_grows | apply setClState_grows
    | with_reducible apply Grows.ite
    | with_reducible apply Grows.itePair
    | dsimp only
    | split

theorem bistResult_grows {d0 d : Dev} {a0} (h : Grows d0 d) : Grows d0 (bistResult a0 d) := by
  unfold bistResult
  repeat' first
    | with_reducible assumption
    | with_reducible first | apply fs_grows | apply rasterEvent_grows | apply setClState_grows | apply fillEmpty_grows | apply saveMap_grows
    | with_reducible apply Grows.ite
    | dsimp only

theorem preemptDomain_grows {d0 d : Dev} {a1} (h : Grows d0 d) : Grows d0 (preemptDomain d a1) := by
  unfold preemptDomain
  repeat' first
    | intro _
    | with_reducible assumption
    | with_reducible first | apply hardOut_grows
    | with_reducible apply Grows.fold
    | dsimp only

theorem cutDomainWork_grows {d0 d : Dev} {a1} (h : Grows d0 d) : Grows d0 (cutDomainWork d a1) := by
  unfold cutDomainWork
  repeat' first
    | intro _
    | with_reducible assumption
    | with_reducible first | apply recoverWork_grows
    | with_reducible apply Grows.fold
    | dsimp only

theorem gpuClear_grows {d0 d : Dev} {a1} (h : Grows d0 d) : Grows d0 (gpuClear d a1) := by
  unfold gpuClear
  repeat' first
    | intro _
    | with_reducible assumption
    | with_reducible first | apply freeCtx_grows
    | with_reducible apply Grows.fold
    | simp only [Grows.update_iff]
    | dsimp only

end Sys2Proof.Machine
end

