-- ==== Sys2Proof/Laws/GrowsGpuPackets.lean ====
section
/-! SUPPORT. No operation of Machine/GpuPackets.lean undoes what `Grows` keeps. -/

set_option linter.unusedTactic false
set_option linter.unreachableTactic false
set_option linter.unusedSimpArgs false
set_option linter.unusedVariables false

namespace Sys2Proof.Machine

theorem pktFail_grows {d0 d : Dev} {a1 a2} (h : Grows d0 d) : Grows d0 (pktFail d a1 a2) := by
  unfold pktFail
  repeat' first
    | with_reducible assumption
    | with_reducible first | apply endJobRun_grows
    | dsimp only
    | split

theorem pktNext_grows {d0 d : Dev} {a1 a2} (h : Grows d0 d) : Grows d0 (pktNext d a1 a2) := by
  unfold pktNext
  repeat' first
    | with_reducible assumption
    | with_reducible first | apply onJob_grows
    | with_reducible apply Grows.ite
    | simp only [Grows.update_iff]
    | dsimp only
    | split

theorem pktRun_grows {d0 d : Dev} {c code w ok act} (ha : ∀ j d, Grows d0 d → Grows d0 (act j d).1) (h : Grows d0 d) :
    Grows d0 (pktRun c code w ok act d) := by
  unfold pktRun
  try dsimp only
  repeat' first
    | with_reducible assumption
    | with_reducible first | apply pktFail_grows | apply pktNext_grows | apply gpuRun_grows | apply ha
    | with_reducible apply Grows.ite
    | split

theorem jobFaulted_grows {d0 d : Dev} {a1 a2} (h : Grows d0 d) : Grows d0 (jobFaulted d a1 a2) := by
  unfold jobFaulted
  repeat' first
    | with_reducible assumption
    | with_reducible first | apply pktFail_grows
    | dsimp only

theorem shaderStores_grows {d0 d : Dev} {a1 a2 a3} (h : Grows d0 d) : Grows d0 (shaderStores d a1 a2 a3).1 := by
  induction a3 generalizing d a1 a2 with
  | nil =>
    unfold shaderStores
    repeat' first
      | with_reducible assumption
      | with_reducible first | apply memWritePages_grows
      | with_reducible apply Grows.ite
      | with_reducible apply Grows.itePair
      | dsimp only
      | split
  | cons _ _ ih =>
    unfold shaderStores
    repeat' first
      | with_reducible assumption
      | with_reducible apply ih
      | with_reducible first | apply memWritePages_grows
      | with_reducible apply Grows.ite
      | with_reducible apply Grows.itePair
      | dsimp only
      | split

theorem noteWrote_grows {d0 d : Dev} {a1 a2} (h : Grows d0 d) : Grows d0 (noteWrote d a1 a2) := by
  unfold noteWrote
  repeat' first
    | with_reducible assumption
    | with_reducible first | apply onJob_grows
    | simp only [Grows.update_iff]
    | dsimp only

theorem withStores_grows {d0 d : Dev} {a0 a1 a2} (h : Grows d0 d) : Grows d0 (withStores a0 a1 a2 d).1 := by
  unfold withStores
  repeat' first
    | with_reducible assumption
    | with_reducible first | apply noteWrote_grows | apply shaderStores_grows | apply jobFaulted_grows
    | with_reducible apply Grows.ite
    | with_reducible apply Grows.itePair
    | dsimp only

theorem actTarget_grows {d0 d : Dev} {a0 a1 a2} (h : Grows d0 d) : Grows d0 (actTarget a0 a1 a2 d).1 := by
  unfold actTarget
  repeat' first
    | with_reducible assumption
    | with_reducible first | apply pktFail_grows | apply onJob_grows
    | refine Grows.count (d := d) ?_ (Nat.le_refl _) (Nat.le_refl _) (Nat.le_add_right _ _) (List.suffix_refl _)
    | with_reducible apply Grows.ite
    | with_reducible apply Grows.itePair
    | simp only [Grows.update_iff]
    | dsimp only

theorem doPktTarget_grows {d0 d : Dev} {a0 a1} (h : Grows d0 d) : Grows d0 (doPktTarget a0 a1 d) := by
  unfold doPktTarget
  repeat' first
    | intro _
    | with_reducible assumption
    | with_reducible first | apply pktRun_grows | apply actTarget_grows
    | dsimp only

theorem doPktNop_grows {d0 d : Dev} {a0 a1} (h : Grows d0 d) : Grows d0 (doPktNop a0 a1 d) := by
  unfold doPktNop
  repeat' first
    | intro _
    | with_reducible assumption
    | with_reducible first | apply pktRun_grows
    | dsimp only

theorem readObj_grows {d0 d : Dev} {a1 a2 a3 a4} (h : Grows d0 d) : Grows d0 (readObj d a1 a2 a3 a4).1 := by
  unfold readObj
  repeat' first
    | with_reducible assumption
    | with_reducible first | apply memRead_grows
    | with_reducible apply Grows.ite
    | with_reducible apply Grows.itePair
    | dsimp only
    | split

theorem actState_grows {d0 d : Dev} {a0 a1 a2 a3} (h : Grows d0 d) : Grows d0 (actState a0 a1 a2 a3 d).1 := by
  unfold actState
  repeat' first
    | with_reducible assumption
    | with_reducible first | apply onJob_grows | apply readObj_grows | apply pktFail_grows
    | simp only [Grows.update_iff]
    | dsimp only
    | split

theorem useObjs_grows {d0 d : Dev} {a0 a1 a2} (h : Grows d0 d) : Grows d0 (useObjs a0 a1 a2 d).1 := by
  induction a2 generalizing a0 a1 d with
  | nil =>
    unfold useObjs
    repeat' first
      | with_reducible assumption
      | with_reducible first | apply readObj_grows | apply pktFail_grows | apply onJob_grows
      | with_reducible apply Grows.ite
      | with_reducible apply Grows.itePair
      | simp only [Grows.update_iff]
      | dsimp only
      | split
  | cons _ _ ih =>
    unfold useObjs
    repeat' first
      | with_reducible assumption
      | with_reducible apply ih
      | with_reducible first | apply readObj_grows | apply pktFail_grows | apply onJob_grows
      | with_reducible apply Grows.ite
      | with_reducible apply Grows.itePair
      | simp only [Grows.update_iff]
      | dsimp only
      | split

theorem doPktState_grows {d0 d : Dev} {a0 a1 a2} (h : Grows d0 d) : Grows d0 (doPktState a0 a1 a2 d) := by
  unfold doPktState
  repeat' first
    | intro _
    | with_reducible assumption
    | with_reducible first | apply pktRun_grows | apply actState_grows
    | dsimp only

theorem doPktBind_grows {d0 d : Dev} {a0 a1} (h : Grows d0 d) : Grows d0 (doPktBind a0 a1 d) := by
  unfold doPktBind
  repeat' first
    | intro _
    | with_reducible assumption
    | with_reducible first | apply pktRun_grows | apply onJob_grows
    | simp only [Grows.update_iff]
    | dsimp only

theorem doPktBarrier_grows {d0 d : Dev} {a0 a1} (h : Grows d0 d) : Grows d0 (doPktBarrier a0 a1 d) := by
  unfold doPktBarrier
  repeat' first
    | intro _
    | with_reducible assumption
    | with_reducible first | apply pktRun_grows
    | dsimp only

theorem actCall_grows {d0 d : Dev} {a0 a1 a2} (h : Grows d0 d) : Grows d0 (actCall a0 a1 a2 d).1 := by
  unfold actCall
  repeat' first
    | with_reducible assumption
    | with_reducible first | apply onJob_grows | apply pktNext_grows
    | with_reducible apply Grows.ite
    | with_reducible apply Grows.itePair
    | simp only [Grows.update_iff]
    | dsimp only

theorem doPktCall_grows {d0 d : Dev} {a0 a1} (h : Grows d0 d) : Grows d0 (doPktCall a0 a1 d) := by
  unfold doPktCall
  repeat' first
    | intro _
    | with_reducible assumption
    | with_reducible first | apply pktRun_grows | apply actCall_grows
    | dsimp only

theorem actTimestamp_grows {d0 d : Dev} {a0 a1 a2} (h : Grows d0 d) : Grows d0 (actTimestamp a0 a1 a2 d).1 := by
  unfold actTimestamp
  repeat' first
    | with_reducible assumption
    | with_reducible first | apply memWrite_grows | apply noteWrote_grows | apply jobFaulted_grows
    | with_reducible apply Grows.ite
    | with_reducible apply Grows.itePair
    | dsimp only

theorem doPktTimestamp_grows {d0 d : Dev} {a0 a1} (h : Grows d0 d) : Grows d0 (doPktTimestamp a0 a1 d) := by
  unfold doPktTimestamp
  repeat' first
    | intro _
    | with_reducible assumption
    | with_reducible first | apply pktRun_grows | apply actTimestamp_grows
    | dsimp only

theorem onPass_grows {d0 d : Dev} {a1 a2} (h : Grows d0 d) : Grows d0 (onPass d a1 a2) := by
  unfold onPass
  repeat' first
    | with_reducible assumption
    | with_reducible first | apply onJob_grows
    | simp only [Grows.update_iff]
    | dsimp only

theorem doPktScissor_grows {d0 d : Dev} {a0 a1} (h : Grows d0 d) : Grows d0 (doPktScissor a0 a1 d) := by
  unfold doPktScissor
  repeat' first
    | intro _
    | with_reducible assumption
    | with_reducible first | apply pktRun_grows | apply onPass_grows
    | simp only [Grows.update_iff]
    | dsimp only

theorem doPktClear_grows {d0 d : Dev} {a0 a1} (h : Grows d0 d) : Grows d0 (doPktClear a0 a1 d) := by
  unfold doPktClear
  repeat' first
    | intro _
    | with_reducible assumption
    | with_reducible first | apply pktRun_grows | apply onPass_grows
    | simp only [Grows.update_iff]
    | dsimp only

theorem storePlain_grows {d0 d e : Dev} {f mid p i a} (h : Grows d0 d) : Grows d0 (storePlain e d f mid p i a).1 := by
  unfold storePlain
  try dsimp only
  repeat' first
    | intro _
    | with_reducible assumption
    | with_reducible first | apply freeRegions_grows | apply memWritePages_grows
    | with_reducible apply Grows.itePair
    | with_reducible apply Grows.foldPair

theorem storeHeader_grows {d0 d : Dev} {a1 a2 a3 a4 a5} (h : Grows d0 d) : Grows d0 (storeHeader d a1 a2 a3 a4 a5).1 := by
  unfold storeHeader
  repeat' first
    | with_reducible assumption
    | with_reducible first | apply memWritePages_grows
    | with_reducible apply Grows.ite
    | with_reducible apply Grows.itePair
    | dsimp only
    | split

theorem storeBlock_grows {d0 d : Dev} {a1 a2 a3 a4 a5 a6 a7 a8 a9} (h : Grows d0 d) : Grows d0 (storeBlock d a1 a2 a3 a4 a5 a6 a7 a8 a9).1 := by
  unfold storeBlock
  repeat' first
    | with_reducible assumption
    | with_reducible first | apply memWritePages_grows | apply memWrite_grows
    | with_reducible apply Grows.ite
    | with_reducible apply Grows.itePair
    | dsimp only

theorem storeLbc_grows {d0 d e : Dev} {f mid p i a} (h : Grows d0 d) : Grows d0 (storeLbc e d f mid p i a).1 := by
  unfold storeLbc
  try dsimp only
  repeat' first
    | intro _
    | with_reducible assumption
    | with_reducible first | apply storeHeader_grows | apply storeBlock_grows
    | with_reducible apply Grows.itePair
    | with_reducible apply Grows.foldPair

theorem storePass_grows {d0 d : Dev} {a1 a2 a3 a4} (h : Grows d0 d) : Grows d0 (storePass d a1 a2 a3 a4).1 := by
  unfold storePass
  repeat' first
    | intro _
    | with_reducible assumption
    | with_reducible first | apply storeLbc_grows | apply storePlain_grows
    | with_reducible apply Grows.ite
    | with_reducible apply Grows.itePair
    | with_reducible apply Grows.fold
    | with_reducible apply Grows.foldPair
    | dsimp only

theorem tellBadBlocks_grows {d0 d : Dev} {a1 a2 a3} (h : Grows d0 d) : Grows d0 (tellBadBlocks d a1 a2 a3) := by
  unfold tellBadBlocks
  repeat' first
    | intro _
    | with_reducible assumption
    | with_reducible first | apply jobEvent_grows
    | with_reducible apply Grows.ite
    | with_reducible apply Grows.fold
    | dsimp only

theorem renderPass_grows {d0 d : Dev} {a1 a2 a3 a4} (h : Grows d0 d) : Grows d0 (renderPass d a1 a2 a3 a4).1 := by
  unfold renderPass
  repeat' first
    | with_reducible assumption
    | with_reducible first | apply jobFaulted_grows | apply noteFault_grows | apply storePass_grows | apply tellBadBlocks_grows
    | with_reducible apply Grows.ite
    | with_reducible apply Grows.itePair
    | dsimp only
    | split

theorem splitPass_grows {d0 d : Dev} {a1} (h : Grows d0 d) : Grows d0 (splitPass d a1).1 := by
  unfold splitPass
  repeat' first
    | with_reducible assumption
    | with_reducible first | apply renderPass_grows | apply freeRegions_grows | apply onJob_grows | apply onPass_grows | apply count_grows | apply jobEvent_grows | apply jobFaulted_grows
    | with_reducible apply Grows.ite
    | with_reducible apply Grows.itePair
    | simp only [Grows.update_iff]
    | dsimp only
    | split

theorem noteUse_grows {d0 d : Dev} {a1} (h : Grows d0 d) : Grows d0 (noteUse d a1) := by
  unfold noteUse
  repeat' first
    | with_reducible assumption
    | with_reducible first | apply onJob_grows
    | simp only [Grows.update_iff]
    | dsimp only
    | split

theorem joinSiding_grows {d0 d : Dev} {a1} (h : Grows d0 d) : Grows d0 (joinSiding d a1) := by
  unfold joinSiding
  repeat' first
    | with_reducible assumption
    | with_reducible first | apply onPass_grows | apply onJob_grows | apply count_grows | apply jobEvent_grows
    | with_reducible apply Grows.ite
    | simp only [Grows.update_iff]
    | dsimp only
    | split

theorem overflow_grows {d0 d : Dev} {a1} (h : Grows d0 d) : Grows d0 (overflow d a1).1 := by
  unfold overflow
  repeat' first
    | with_reducible assumption
    | with_reducible first | apply joinSiding_grows | apply splitPass_grows
    | with_reducible apply Grows.ite
    | with_reducible apply Grows.itePair
    | dsimp only
    | split

theorem binPrim_grows {d0 d : Dev} {a1 a2} (h : Grows d0 d) : Grows d0 (binPrim d a1 a2).1 := by
  unfold binPrim
  repeat' first
    | with_reducible assumption
    | with_reducible first | apply freeRegions_grows | apply overflow_grows | apply noteUse_grows | apply onPass_grows | apply jobFaulted_grows
    | with_reducible apply Grows.ite
    | with_reducible apply Grows.itePair
    | dsimp only
    | split

theorem binPrims_grows {d0 d : Dev} {a1 a2} (h : Grows d0 d) : Grows d0 (binPrims d a1 a2).1 := by
  induction a2 generalizing d a1 with
  | nil =>
    unfold binPrims
    repeat' first
      | with_reducible assumption
      | with_reducible first | apply binPrim_grows
      | with_reducible apply Grows.ite
      | with_reducible apply Grows.itePair
      | dsimp only
      | split
  | cons _ _ ih =>
    unfold binPrims
    repeat' first
      | with_reducible assumption
      | with_reducible apply ih
      | with_reducible first | apply binPrim_grows
      | with_reducible apply Grows.ite
      | with_reducible apply Grows.itePair
      | dsimp only
      | split

theorem drawWith_grows {d0 d : Dev} {a0 a1 a2 a3 a4} (h : Grows d0 d) : Grows d0 (drawWith a0 a1 a2 a3 a4 d).1 := by
  unfold drawWith
  repeat' first
    | with_reducible assumption
    | with_reducible first | apply useObjs_grows | apply binPrims_grows | apply withStores_grows
    | with_reducible apply Grows.ite
    | with_reducible apply Grows.itePair
    | dsimp only

theorem doPktDraw_grows {d0 d : Dev} {a0 a1 a2 a3 a4} (h : Grows d0 d) : Grows d0 (doPktDraw a0 a1 a2 a3 a4 d) := by
  unfold doPktDraw
  repeat' first
    | intro _
    | with_reducible assumption
    | with_reducible first | apply pktRun_grows | apply drawWith_grows
    | dsimp only

theorem doPktDrawIndexed_grows {d0 d : Dev} {a0 a1 a2 a3 a4} (h : Grows d0 d) : Grows d0 (doPktDrawIndexed a0 a1 a2 a3 a4 d) := by
  unfold doPktDrawIndexed
  repeat' first
    | intro _
    | with_reducible assumption
    | with_reducible first | apply pktRun_grows | apply drawWith_grows
    | dsimp only

theorem actDrawIndirect_grows {d0 d : Dev} {a0 a1 a2 a3 a4 a5 a6} (h : Grows d0 d) : Grows d0 (actDrawIndirect a0 a1 a2 a3 a4 a5 a6 d).1 := by
  unfold actDrawIndirect
  repeat' first
    | with_reducible assumption
    | with_reducible first | apply jobFaulted_grows | apply noteFault_grows | apply drawWith_grows
    | with_reducible apply Grows.ite
    | with_reducible apply Grows.itePair
    | dsimp only
    | split

theorem doPktDrawIndirect_grows {d0 d : Dev} {a0 a1 a2 a3 a4 a5} (h : Grows d0 d) : Grows d0 (doPktDrawIndirect a0 a1 a2 a3 a4 a5 d) := by
  unfold doPktDrawIndirect
  repeat' first
    | intro _
    | with_reducible assumption
    | with_reducible first | apply pktRun_grows | apply actDrawIndirect_grows
    | dsimp only

theorem doPktDispatch_grows {d0 d : Dev} {a0 a1 a2} (h : Grows d0 d) : Grows d0 (doPktDispatch a0 a1 a2 d) := by
  unfold doPktDispatch
  repeat' first
    | intro _
    | with_reducible assumption
    | with_reducible first | apply pktRun_grows | apply withStores_grows
    | dsimp only

theorem actDispatchIndirect_grows {d0 d : Dev} {a0 a1 a2 a3 a4} (h : Grows d0 d) : Grows d0 (actDispatchIndirect a0 a1 a2 a3 a4 d).1 := by
  unfold actDispatchIndirect
  repeat' first
    | with_reducible assumption
    | with_reducible first | apply memRead_grows | apply jobFaulted_grows | apply withStores_grows
    | dsimp only
    | split

theorem doPktDispatchIndirect_grows {d0 d : Dev} {a0 a1 a2 a3} (h : Grows d0 d) : Grows d0 (doPktDispatchIndirect a0 a1 a2 a3 d) := by
  unfold doPktDispatchIndirect
  repeat' first
    | intro _
    | with_reducible assumption
    | with_reducible first | apply pktRun_grows | apply actDispatchIndirect_grows
    | dsimp only

theorem actPassEnd_grows {d0 d : Dev} {a0 a1} (h : Grows d0 d) : Grows d0 (actPassEnd a0 a1 d).1 := by
  unfold actPassEnd
  repeat' first
    | with_reducible assumption
    | with_reducible first | apply renderPass_grows | apply noteWrote_grows | apply onJob_grows
    | with_reducible apply Grows.ite
    | with_reducible apply Grows.itePair
    | simp only [Grows.update_iff]
    | dsimp only
    | split

theorem doPktPassEnd_grows {d0 d : Dev} {a0 a1} (h : Grows d0 d) : Grows d0 (doPktPassEnd a0 a1 d) := by
  unfold doPktPassEnd
  repeat' first
    | intro _
    | with_reducible assumption
    | with_reducible first | apply pktRun_grows | apply actPassEnd_grows
    | dsimp only

theorem doJobComplete_grows {d0 d : Dev} {a0} (h : Grows d0 d) : Grows d0 (doJobComplete a0 d) := by
  unfold doJobComplete
  repeat' first
    | with_reducible assumption
    | with_reducible first | apply endJobRun_grows
    | with_reducible apply Grows.ite
    | dsimp only
    | split

theorem doJobFault_grows {d0 d : Dev} {a0 a1 a2} (h : Grows d0 d) : Grows d0 (doJobFault a0 a1 a2 d) := by
  unfold doJobFault
  repeat' first
    | with_reducible assumption
    | with_reducible first | apply noteWrote_grows | apply endJobRun_grows | apply noteFault_grows | apply wr_grows
    | with_reducible apply Grows.ite
    | dsimp only
    | split

end Sys2Proof.Machine
end

