-- ==== Sys2Proof/Laws/GrowsBuffers.lean ====
section
/-! SUPPORT. No operation of Machine/Buffers.lean undoes what `Grows` keeps. -/

set_option linter.unusedTactic false
set_option linter.unreachableTactic false
set_option linter.unusedSimpArgs false
set_option linter.unusedVariables false

namespace Sys2Proof.Machine

theorem createEntry_grows {d0 d : Dev} {a1 a2 a3} (h : Grows d0 d) : Grows d0 (createEntry d a1 a2 a3) := by
  unfold createEntry
  repeat' first
    | with_reducible assumption
    | with_reducible first | apply showEntries_grows | apply onBuf_grows
    | simp only [Grows.update_iff]
    | dsimp only

theorem actBufCreate_grows {d0 d : Dev} {a0 a1 a2} (h : Grows d0 d) : Grows d0 (actBufCreate a0 a1 a2 d) := by
  unfold actBufCreate
  repeat' first
    | with_reducible assumption
    | with_reducible first | apply complete_grows | apply takeFree_grows | apply createEntry_grows | apply sendBuf_grows
    | with_reducible apply Grows.ite
    | with_reducible apply Grows.itePair
    | dsimp only

theorem doBufCreate_grows {d0 d : Dev} {a0 a1} (h : Grows d0 d) : Grows d0 (doBufCreate a0 a1 d) := by
  unfold doBufCreate
  repeat' first
    | intro _
    | with_reducible assumption
    | with_reducible first | apply startDesc_grows | apply actBufCreate_grows
    | dsimp only

theorem actRelease_grows {d0 d : Dev} {a0 a1 a2 a3} (h : Grows d0 d) : Grows d0 (actRelease a0 a1 a2 a3 d) := by
  unfold actRelease
  repeat' first
    | with_reducible assumption
    | with_reducible first | apply sendBuf_grows | apply onBuf_grows | apply complete_grows | apply freeEntry_grows | apply ring_grows
    | with_reducible apply Grows.ite
    | simp only [Grows.update_iff]
    | dsimp only

theorem doBufRelease_grows {d0 d : Dev} {a0 a1} (h : Grows d0 d) : Grows d0 (doBufRelease a0 a1 d) := by
  unfold doBufRelease
  repeat' first
    | intro _
    | with_reducible assumption
    | with_reducible first | apply startDesc_grows | apply actRelease_grows
    | dsimp only

theorem doBufDestroy_grows {d0 d : Dev} {a0 a1} (h : Grows d0 d) : Grows d0 (doBufDestroy a0 a1 d) := by
  unfold doBufDestroy
  repeat' first
    | intro _
    | with_reducible assumption
    | with_reducible first | apply startDesc_grows | apply actRelease_grows
    | dsimp only

theorem actBufQuery_grows {d0 d : Dev} {a0 a1 a2} (h : Grows d0 d) : Grows d0 (actBufQuery a0 a1 a2 d) := by
  unfold actBufQuery
  repeat' first
    | with_reducible assumption
    | with_reducible first | apply memWrite_grows | apply complete_grows
    | with_reducible apply Grows.ite
    | with_reducible apply Grows.itePair
    | dsimp only

theorem doBufQuery_grows {d0 d : Dev} {a0 a1} (h : Grows d0 d) : Grows d0 (doBufQuery a0 a1 d) := by
  unfold doBufQuery
  repeat' first
    | intro _
    | with_reducible assumption
    | with_reducible first | apply startDesc_grows | apply actBufQuery_grows
    | dsimp only

theorem actSkeinReserve_grows {d0 d : Dev} {a0 a1 a2} (h : Grows d0 d) : Grows d0 (actSkeinReserve a0 a1 a2 d) := by
  unfold actSkeinReserve
  repeat' first
    | with_reducible assumption
    | with_reducible first | apply linkSend_grows | apply showSkein_grows | apply complete_grows
    | with_reducible apply Grows.ite
    | simp only [Grows.update_iff]
    | dsimp only

theorem doSkeinReserve_grows {d0 d : Dev} {a0 a1} (h : Grows d0 d) : Grows d0 (doSkeinReserve a0 a1 d) := by
  unfold doSkeinReserve
  repeat' first
    | intro _
    | with_reducible assumption
    | with_reducible first | apply startDesc_grows | apply actSkeinReserve_grows
    | dsimp only

theorem reclaim_grows {d0 d : Dev} {a1 a2} (h : Grows d0 d) : Grows d0 (reclaim d a1 a2) := by
  unfold reclaim
  repeat' first
    | with_reducible assumption
    | with_reducible first | apply bump_grows
    | with_reducible apply Grows.ite
    | simp only [Grows.update_iff]
    | dsimp only

theorem prefetch_grows {d0 d : Dev} {a1 a2 a3 a4} (h : Grows d0 d) : Grows d0 (prefetch d a1 a2 a3 a4) := by
  unfold prefetch
  repeat' first
    | with_reducible assumption
    | with_reducible first | apply skTakeLow_grows | apply reclaim_grows | apply showSkein_grows
    | with_reducible apply Grows.ite
    | with_reducible apply Grows.itePair
    | dsimp only

theorem bufDepart_grows {d0 d : Dev} {a1} (h : Grows d0 d) : Grows d0 (bufDepart d a1) := by
  unfold bufDepart
  repeat' first
    | intro _
    | with_reducible assumption
    | with_reducible first | apply freeEntry_grows | apply showSkein_grows
    | with_reducible apply Grows.fold
    | simp only [Grows.update_iff]
    | dsimp only

end Sys2Proof.Machine
end

