-- ==== Sys2Proof/Laws/GrowsComposition.lean ====
section
/-! SUPPORT. No operation of Machine/Composition.lean undoes what `Grows` keeps. -/

set_option linter.unusedTactic false
set_option linter.unreachableTactic false
set_option linter.unusedSimpArgs false
set_option linter.unusedVariables false

namespace Sys2Proof.Machine

theorem actCommitHead_grows {d0 d : Dev} {a0 a1 a2} (h : Grows d0 d) : Grows d0 (actCommitHead a0 a1 a2 d) := by
  unfold actCommitHead
  repeat' first
    | with_reducible assumption
    | with_reducible first | apply acceptCommit_grows
    | dsimp only
    | split

theorem doCommitHead_grows {d0 d : Dev} {a0 a1 a2} (h : Grows d0 d) : Grows d0 (doCommitHead a0 a1 a2 d) := by
  unfold doCommitHead
  repeat' first
    | intro _
    | with_reducible assumption
    | with_reducible first | apply startDesc_grows | apply actCommitHead_grows
    | with_reducible apply Grows.ite
    | dsimp only
    | split

theorem closeRef_grows {d0 d : Dev} {a1 a2 a3 a4} (h : Grows d0 d) : Grows d0 (closeRef d a1 a2 a3 a4) := by
  unfold closeRef
  repeat' first
    | with_reducible assumption
    | with_reducible first | apply settleBuf_grows | apply onBuf_grows
    | with_reducible apply Grows.ite
    | simp only [Grows.update_iff]
    | dsimp only

theorem closeDue_grows {d0 d : Dev} {a1} (h : Grows d0 d) : Grows d0 (closeDue d a1) := by
  unfold closeDue
  repeat' first
    | intro _
    | with_reducible assumption
    | with_reducible first | apply closeRef_grows
    | with_reducible apply Grows.ite
    | with_reducible apply Grows.fold
    | dsimp only
    | split

theorem bindRefs_grows {d0 d : Dev} {a1 a2 a3} (h : Grows d0 d) : Grows d0 (bindRefs d a1 a2 a3) := by
  unfold bindRefs
  repeat' first
    | with_reducible assumption
    | with_reducible apply Grows.ite
    | simp only [Grows.update_iff]
    | dsimp only
    | split

theorem bindAllRefs_grows {d0 d : Dev} {a1 a2 a3} (h : Grows d0 d) : Grows d0 (bindAllRefs d a1 a2 a3) := by
  unfold bindAllRefs
  repeat' first
    | intro _
    | with_reducible assumption
    | with_reducible first | apply closeDue_grows | apply bindRefs_grows
    | with_reducible apply Grows.ite
    | with_reducible apply Grows.fold
    | dsimp only

theorem prefetchAll_grows {d0 d : Dev} {a1 a2 a3} (h : Grows d0 d) : Grows d0 (prefetchAll d a1 a2 a3) := by
  unfold prefetchAll
  repeat' first
    | intro _
    | with_reducible assumption
    | with_reducible first | apply prefetch_grows | apply skGive_grows
    | with_reducible apply Grows.ite
    | with_reducible apply Grows.itePair
    | with_reducible apply Grows.fold
    | with_reducible apply Grows.foldPair
    | dsimp only

theorem doStripComposeBegin_grows {d0 d : Dev} {a0 a1 a2 a3} (h : Grows d0 d) : Grows d0 (doStripComposeBegin a0 a1 a2 a3 d) := by
  unfold doStripComposeBegin
  repeat' first
    | with_reducible assumption
    | with_reducible first | apply advance_grows | apply bindCommits_grows | apply restampUnacked_grows | apply bindAllRefs_grows | apply onPlat_grows | apply prefetchAll_grows
    | with_reducible apply Grows.ite
    | simp only [Grows.update_iff]
    | dsimp only

theorem closeStrip_grows {d0 d : Dev} {a1 a2} (h : Grows d0 d) : Grows d0 (closeStrip d a1 a2) := by
  unfold closeStrip
  repeat' first
    | with_reducible assumption
    | with_reducible first | apply closeDue_grows | apply onPlat_grows
    | simp only [Grows.update_iff]
    | dsimp only

theorem postLate_grows {d0 d : Dev} {a1 a2 a3 a4 a5} (h : Grows d0 d) : Grows d0 (postLate d a1 a2 a3 a4 a5) := by
  unfold postLate
  repeat' first
    | with_reducible assumption
    | with_reducible first | apply emit_grows | apply post_grows
    | dsimp only

theorem noteStrip_grows {d0 d : Dev} {a1 a2 a3} (h : Grows d0 d) : Grows d0 (noteStrip d a1 a2 a3) := by
  unfold noteStrip
  repeat' first
    | with_reducible assumption
    | simp only [Grows.update_iff]
    | dsimp only

theorem snapCfg_grows {d0 d : Dev} {a1 a2} (h : Grows d0 d) : Grows d0 (snapCfg d a1 a2) := by
  unfold snapCfg
  repeat' first
    | with_reducible assumption
    | simp only [Grows.update_iff]
    | dsimp only

theorem sendFallback_grows {d0 d : Dev} {a1 a2 a3} (h : Grows d0 d) : Grows d0 (sendFallback d a1 a2 a3) := by
  unfold sendFallback
  repeat' first
    | with_reducible assumption
    | with_reducible first | apply emit_grows
    | dsimp only

theorem doStripCheckpoint_grows {d0 d : Dev} {a0 a1 a2 a3} (h : Grows d0 d) : Grows d0 (doStripCheckpoint a0 a1 a2 a3 d) := by
  unfold doStripCheckpoint
  repeat' first
    | with_reducible assumption
    | with_reducible first | apply advance_grows | apply noteStrip_grows | apply closeStrip_grows | apply bump_grows | apply postLate_grows | apply count_grows | apply sendFallback_grows | apply onPlat_grows
    | with_reducible apply Grows.ite
    | with_reducible apply Grows.itePair
    | simp only [Grows.update_iff]
    | dsimp only

theorem doFallbackStrip_grows {d0 d : Dev} {a0 a1 a2} (h : Grows d0 d) : Grows d0 (doFallbackStrip a0 a1 a2 d) := by
  unfold doFallbackStrip
  repeat' first
    | with_reducible assumption
    | with_reducible first | apply advance_grows | apply noteStrip_grows | apply closeStrip_grows | apply bump_grows | apply postLate_grows | apply count_grows | apply sendFallback_grows
    | dsimp only
    | split

theorem dropLayerRefs_grows {d0 d : Dev} {a1 a2 a3 a4} (h : Grows d0 d) : Grows d0 (dropLayerRefs d a1 a2 a3 a4) := by
  unfold dropLayerRefs
  repeat' first
    | intro _
    | with_reducible assumption
    | with_reducible first | apply closeRef_grows
    | with_reducible apply Grows.fold
    | dsimp only

theorem setLayerState_grows {d0 d : Dev} {a1 a2} (h : Grows d0 d) : Grows d0 (setLayerState d a1 a2) := by
  unfold setLayerState
  repeat' first
    | with_reducible assumption
    | with_reducible first | apply fs_grows
    | dsimp only

theorem emptyLayer_grows {d0 d : Dev} {a1} (h : Grows d0 d) : Grows d0 (emptyLayer d a1) := by
  unfold emptyLayer
  repeat' first
    | with_reducible assumption
    | with_reducible first | apply wrs_grows | apply wr_grows | apply skGive_grows
    | simp only [Grows.update_iff]
    | dsimp only

theorem loseLayer_grows {d0 d : Dev} {a1 a2 a3 a4 a5} (h : Grows d0 d) : Grows d0 (loseLayer d a1 a2 a3 a4 a5) := by
  unfold loseLayer
  repeat' first
    | with_reducible assumption
    | with_reducible first | apply dropLayerRefs_grows | apply snapCfg_grows | apply emptyLayer_grows | apply skGive_grows | apply fs_grows | apply setLayerState_grows
    | with_reducible apply Grows.ite
    | dsimp only

theorem composeClear_grows {d0 d : Dev} (h : Grows d0 d) : Grows d0 (composeClear d) := by
  unfold composeClear
  repeat' first
    | intro _
    | with_reducible assumption
    | with_reducible first | apply endCommit_grows | apply emptyLayer_grows | apply dropLayerRefs_grows
    | with_reducible apply Grows.ite
    | with_reducible apply Grows.itePair
    | with_reducible apply Grows.fold
    | simp only [Grows.update_iff]
    | dsimp only

theorem demoteLayer_grows {d0 d : Dev} {a1 a2 a3} (h : Grows d0 d) : Grows d0 (demoteLayer d a1 a2 a3) := by
  unfold demoteLayer
  repeat' first
    | with_reducible assumption
    | with_reducible first | apply fs_grows
    | with_reducible apply Grows.ite
    | simp only [Grows.update_iff]
    | dsimp only

theorem demoteAt_grows {d0 d : Dev} {a0 a2} (h : Grows d0 d) : Grows d0 (demoteAt a0 d a2) := by
  unfold demoteAt
  repeat' first
    | intro _
    | with_reducible assumption
    | with_reducible first | apply demoteLayer_grows | apply deviceCommit_grows
    | with_reducible apply Grows.ite
    | with_reducible apply Grows.fold
    | dsimp only

theorem demoteCc3_grows {d0 d : Dev} {a1} (h : Grows d0 d) : Grows d0 (demoteCc3 d a1) := by
  unfold demoteCc3
  repeat' first
    | intro _
    | with_reducible assumption
    | with_reducible first | apply demoteAt_grows
    | with_reducible apply Grows.fold
    | dsimp only

theorem doCc3AuthWrite_grows {d0 d : Dev} {a0 a1} (h : Grows d0 d) : Grows d0 (doCc3AuthWrite a0 a1 d) := by
  unfold doCc3AuthWrite
  repeat' first
    | intro _
    | with_reducible assumption
    | with_reducible first | apply regWrite_grows | apply logErr_grows | apply demoteCc3_grows | apply wr_grows
    | with_reducible apply Grows.ite
    | with_reducible apply Grows.itePair
    | with_reducible apply Grows.fold
    | dsimp only
    | split

end Sys2Proof.Machine
end

