-- ==== Sys2Proof/Laws/GrowsTimings.lean ====
section
/-! SUPPORT. No operation of Machine/Timings.lean undoes what `Grows` keeps. -/

set_option linter.unusedTactic false
set_option linter.unreachableTactic false
set_option linter.unusedSimpArgs false
set_option linter.unusedVariables false

namespace Sys2Proof.Machine

theorem showRate_grows {d0 d : Dev} (h : Grows d0 d) : Grows d0 (showRate d) := by
  unfold showRate
  repeat' first
    | with_reducible assumption
    | with_reducible first | apply fs_grows
    | dsimp only

end Sys2Proof.Machine
end

