-- ==== Sys2Proof/Laws/GrowsPlatforms.lean ====
section
/-! SUPPORT. No operation of Machine/Platforms.lean undoes what `Grows` keeps. -/

set_option linter.unusedTactic false
set_option linter.unreachableTactic false
set_option linter.unusedSimpArgs false
set_option linter.unusedVariables false

namespace Sys2Proof.Machine

theorem scanEvent_grows {d0 d : Dev} {a1 a2 a3 a4} (h : Grows d0 d) : Grows d0 (scanEvent d a1 a2 a3 a4) := by
  unfold scanEvent
  repeat' first
    | with_reducible assumption
    | with_reducible first | apply post_grows
    | dsimp only

theorem portEvent_grows {d0 d : Dev} {a1 a2 a3} (h : Grows d0 d) : Grows d0 (portEvent d a1 a2 a3) := by
  unfold portEvent
  repeat' first
    | with_reducible assumption
    | with_reducible first | apply scanEvent_grows
    | dsimp only

theorem platEvent_grows {d0 d : Dev} {a1 a2 a3} (h : Grows d0 d) : Grows d0 (platEvent d a1 a2 a3) := by
  unfold platEvent
  repeat' first
    | with_reducible assumption
    | with_reducible first | apply scanEvent_grows
    | dsimp only

theorem adjustStrips_grows {d0 d : Dev} {a1} (h : Grows d0 d) : Grows d0 (adjustStrips d a1) := by
  unfold adjustStrips
  repeat' first
    | with_reducible assumption
    | with_reducible first | apply skGive_grows | apply skTakeHigh_grows
    | with_reducible apply Grows.ite
    | dsimp only

theorem showTotals_grows {d0 d : Dev} {a1} (h : Grows d0 d) : Grows d0 (showTotals d a1) := by
  unfold showTotals
  repeat' first
    | with_reducible assumption
    | with_reducible first | apply fs_grows
    | dsimp only

theorem tellLine_grows {d0 d : Dev} {a1} (h : Grows d0 d) : Grows d0 (tellLine d a1) := by
  unfold tellLine
  repeat' first
    | with_reducible assumption
    | with_reducible first | apply emit_grows
    | with_reducible apply Grows.ite
    | with_reducible apply Grows.itePair
    | dsimp only

theorem forceTiming_grows {d0 d : Dev} {a1 a2 a3} (h : Grows d0 d) : Grows d0 (forceTiming d a1 a2 a3) := by
  unfold forceTiming
  repeat' first
    | intro _
    | with_reducible assumption
    | with_reducible first | apply setRaster_grows | apply onPlat_grows | apply showRate_grows | apply adjustStrips_grows | apply showTotals_grows | apply tellLine_grows
    | with_reducible apply Grows.ite
    | with_reducible apply Grows.itePair
    | with_reducible apply Grows.fold
    | simp only [Grows.update_iff]
    | dsimp only
    | split

theorem settleMode_grows {d0 d : Dev} {a1} (h : Grows d0 d) : Grows d0 (settleMode d a1) := by
  unfold settleMode
  repeat' first
    | with_reducible assumption
    | with_reducible first | apply onPlat_grows
    | simp only [Grows.update_iff]
    | dsimp only

theorem goReal_grows {d0 d : Dev} {a1} (h : Grows d0 d) : Grows d0 (goReal d a1) := by
  unfold goReal
  repeat' first
    | with_reducible assumption
    | with_reducible first | apply setRaster_grows | apply onPlat_grows | apply showRate_grows | apply adjustStrips_grows | apply fs_grows | apply settleMode_grows
    | with_reducible apply Grows.ite
    | simp only [Grows.update_iff]
    | dsimp only

theorem firstRaster_grows {d0 d : Dev} {a1 a2} (h : Grows d0 d) : Grows d0 (firstRaster d a1 a2) := by
  unfold firstRaster
  repeat' first
    | with_reducible assumption
    | with_reducible first | apply takeFree_grows | apply setRaster_grows | apply forceTiming_grows | apply restampAll_grows | apply goReal_grows
    | with_reducible apply Grows.ite
    | with_reducible apply Grows.itePair
    | simp only [Grows.update_iff]
    | dsimp only
    | split

theorem doTimingTakeEffect_grows {d0 d : Dev} {a0} (h : Grows d0 d) : Grows d0 (doTimingTakeEffect a0 d) := by
  unfold doTimingTakeEffect
  repeat' first
    | with_reducible assumption
    | with_reducible first | apply restampAll_grows | apply forceTiming_grows | apply advance_grows
    | with_reducible apply Grows.ite
    | dsimp only
    | split

theorem doRasterStart_grows {d0 d : Dev} {a0} (h : Grows d0 d) : Grows d0 (doRasterStart a0 d) := by
  unfold doRasterStart
  repeat' first
    | with_reducible assumption
    | with_reducible first | apply advance_grows | apply restampAll_grows | apply goReal_grows | apply setRaster_grows
    | with_reducible apply Grows.ite
    | simp only [Grows.update_iff]
    | dsimp only
    | split

theorem setPortState_grows {d0 d : Dev} {a1 a2} (h : Grows d0 d) : Grows d0 (setPortState d a1 a2) := by
  unfold setPortState
  repeat' first
    | with_reducible assumption
    | with_reducible first | apply wr_grows
    | dsimp only

theorem onScan_grows {d0 d : Dev} {a1} (h : Grows d0 d) : Grows d0 (onScan d a1) := by
  unfold onScan
  repeat' first
    | with_reducible assumption
    | simp only [Grows.update_iff]
    | dsimp only

theorem tellBkl_grows {d0 d : Dev} {a1} (h : Grows d0 d) : Grows d0 (tellBkl d a1) := by
  unfold tellBkl
  repeat' first
    | with_reducible assumption
    | with_reducible first | apply emit_grows
    | dsimp only
    | split

theorem tellFollow_grows {d0 d : Dev} {a1 a2} (h : Grows d0 d) : Grows d0 (tellFollow d a1 a2) := by
  unfold tellFollow
  repeat' first
    | intro _
    | with_reducible assumption
    | with_reducible first | apply tellBkl_grows
    | with_reducible apply Grows.fold
    | dsimp only

theorem noteLit_grows {d0 d : Dev} (h : Grows d0 d) : Grows d0 (noteLit d) := by
  unfold noteLit
  repeat' first
    | with_reducible assumption
    | with_reducible first | apply tellFollow_grows | apply onScan_grows
    | with_reducible apply Grows.ite
    | simp only [Grows.update_iff]
    | dsimp only

theorem idleSinks_grows {d0 d : Dev} {a1} (h : Grows d0 d) : Grows d0 (idleSinks d a1) := by
  unfold idleSinks
  repeat' first
    | with_reducible assumption
    | with_reducible first | apply noteLit_grows | apply onScan_grows
    | simp only [Grows.update_iff]
    | dsimp only

theorem settlePorts_grows {d0 d : Dev} (h : Grows d0 d) : Grows d0 (settlePorts d) := by
  unfold settlePorts
  repeat' first
    | intro _
    | with_reducible assumption
    | with_reducible first | apply setPortState_grows
    | with_reducible apply Grows.ite
    | with_reducible apply Grows.fold
    | dsimp only

theorem dropPort_grows {d0 d : Dev} {a1 a2} (h : Grows d0 d) : Grows d0 (dropPort d a1 a2) := by
  unfold dropPort
  repeat' first
    | with_reducible assumption
    | with_reducible first | apply setPortState_grows | apply idleSinks_grows
    | dsimp only

theorem linkDown_grows {d0 d : Dev} {a1 a2} (h : Grows d0 d) : Grows d0 (linkDown d a1 a2) := by
  unfold linkDown
  repeat' first
    | with_reducible assumption
    | with_reducible first | apply count_grows | apply portEvent_grows
    | dsimp only

theorem beginTrain_grows {d0 d : Dev} {a1} (h : Grows d0 d) : Grows d0 (beginTrain d a1) := by
  unfold beginTrain
  repeat' first
    | with_reducible assumption
    | with_reducible first | apply onScan_grows | apply dropPort_grows | apply count_grows
    | with_reducible apply Grows.ite
    | simp only [Grows.update_iff]
    | dsimp only

theorem startPort_grows {d0 d : Dev} {a1} (h : Grows d0 d) : Grows d0 (startPort d a1) := by
  unfold startPort
  repeat' first
    | with_reducible assumption
    | with_reducible first | apply dropPort_grows | apply beginTrain_grows
    | with_reducible apply Grows.ite
    | dsimp only

theorem portOff_grows {d0 d : Dev} {a1 a2} (h : Grows d0 d) : Grows d0 (portOff d a1 a2) := by
  unfold portOff
  repeat' first
    | with_reducible assumption
    | with_reducible first | apply linkDown_grows | apply dropPort_grows
    | with_reducible apply Grows.ite
    | dsimp only

theorem linkLoss_grows {d0 d : Dev} {a1 a2} (h : Grows d0 d) : Grows d0 (linkLoss d a1 a2) := by
  unfold linkLoss
  repeat' first
    | with_reducible assumption
    | with_reducible first | apply linkDown_grows | apply beginTrain_grows
    | with_reducible apply Grows.ite
    | dsimp only

theorem writePayload_grows {d0 d : Dev} {a1} (h : Grows d0 d) : Grows d0 (writePayload d a1) := by
  unfold writePayload
  repeat' first
    | intro _
    | with_reducible assumption
    | with_reducible first | apply emit_grows
    | with_reducible apply Grows.ite
    | with_reducible apply Grows.itePair
    | with_reducible apply Grows.fold
    | with_reducible apply Grows.foldPair
    | dsimp only

theorem showSlots_grows {d0 d : Dev} {a1} (h : Grows d0 d) : Grows d0 (showSlots d a1) := by
  unfold showSlots
  repeat' first
    | with_reducible assumption
    | with_reducible first | apply fs_grows | apply writePayload_grows
    | with_reducible apply Grows.ite
    | dsimp only

theorem doLinkTrainDone_grows {d0 d : Dev} {a0 a1} (h : Grows d0 d) : Grows d0 (doLinkTrainDone a0 a1 d) := by
  unfold doLinkTrainDone
  repeat' first
    | with_reducible assumption
    | with_reducible first | apply showSlots_grows | apply setPortState_grows | apply onScan_grows | apply portEvent_grows | apply takeFree_grows | apply bump_grows | apply dropPort_grows | apply count_grows
    | with_reducible apply Grows.ite
    | with_reducible apply Grows.itePair
    | simp only [Grows.update_iff]
    | dsimp only

theorem goLive_grows {d0 d : Dev} {a1} (h : Grows d0 d) : Grows d0 (goLive d a1) := by
  unfold goLive
  repeat' first
    | with_reducible assumption
    | with_reducible first | apply setPortState_grows | apply noteLit_grows | apply tellLine_grows | apply onScan_grows
    | with_reducible apply Grows.ite
    | simp only [Grows.update_iff]
    | dsimp only

theorem doSinkLive_grows {d0 d : Dev} {a0} (h : Grows d0 d) : Grows d0 (doSinkLive a0 d) := by
  unfold doSinkLive
  repeat' first
    | with_reducible assumption
    | with_reducible first | apply goLive_grows | apply advance_grows
    | with_reducible apply Grows.ite
    | dsimp only

theorem doRouteIdle_grows {d0 d : Dev} {a0} (h : Grows d0 d) : Grows d0 (doRouteIdle a0 d) := by
  unfold doRouteIdle
  repeat' first
    | with_reducible assumption
    | with_reducible first | apply advance_grows | apply idleSinks_grows | apply onScan_grows | apply beginTrain_grows | apply showSlots_grows | apply settlePorts_grows
    | with_reducible apply Grows.ite
    | simp only [Grows.update_iff]
    | dsimp only
    | split

theorem doPlatformDisable_grows {d0 d : Dev} {a0} (h : Grows d0 d) : Grows d0 (doPlatformDisable a0 d) := by
  unfold doPlatformDisable
  repeat' first
    | with_reducible assumption
    | with_reducible first | apply setRaster_grows | apply advance_grows | apply onPlat_grows | apply onFl_grows | apply adjustStrips_grows | apply fs_grows | apply restampAll_grows | apply showRate_grows | apply settlePorts_grows | apply idleSinks_grows
    | with_reducible apply Grows.ite
    | simp only [Grows.update_iff]
    | dsimp only
    | split

theorem cutPlatform_grows {d0 d : Dev} {a1} (h : Grows d0 d) : Grows d0 (cutPlatform d a1) := by
  unfold cutPlatform
  repeat' first
    | with_reducible assumption
    | with_reducible first | apply setRaster_grows | apply onPlat_grows | apply onFl_grows | apply adjustStrips_grows | apply fs_grows
    | with_reducible apply Grows.ite
    | simp only [Grows.update_iff]
    | dsimp only

theorem doMuteWrite_grows {d0 d : Dev} {a0 a1} (h : Grows d0 d) : Grows d0 (doMuteWrite a0 a1 d) := by
  unfold doMuteWrite
  repeat' first
    | with_reducible assumption
    | with_reducible first | apply regWrite_grows
    | dsimp only

theorem doMuteApply_grows {d0 d : Dev} {a0} (h : Grows d0 d) : Grows d0 (doMuteApply a0 d) := by
  unfold doMuteApply
  repeat' first
    | intro _
    | with_reducible assumption
    | with_reducible first | apply dropPort_grows | apply idleSinks_grows | apply advance_grows | apply goLive_grows
    | with_reducible apply Grows.ite
    | with_reducible apply Grows.fold
    | dsimp only

theorem doDpllWrite_grows {d0 d : Dev} {a0 a1 a2 a3} (h : Grows d0 d) : Grows d0 (doDpllWrite a0 a1 a2 a3 d) := by
  unfold doDpllWrite
  repeat' first
    | with_reducible assumption
    | with_reducible first | apply guardWrite_grows | apply fs_grows
    | with_reducible apply Grows.ite
    | with_reducible apply Grows.itePair
    | dsimp only
    | split

theorem doDpllLock_grows {d0 d : Dev} {a0} (h : Grows d0 d) : Grows d0 (doDpllLock a0 d) := by
  unfold doDpllLock
  repeat' first
    | with_reducible assumption
    | with_reducible first | apply fs_grows
    | with_reducible apply Grows.ite
    | with_reducible apply Grows.itePair
    | dsimp only

theorem auxWindowWrite_grows {d0 d : Dev} {a0 a1 a2 a3} (h : Grows d0 d) : Grows d0 (auxWindowWrite a0 a1 a2 a3 d).1 := by
  unfold auxWindowWrite
  repeat' first
    | with_reducible assumption
    | with_reducible first | apply guardWrite_grows
    | with_reducible apply Grows.ite
    | with_reducible apply Grows.itePair
    | dsimp only

theorem auxSend_grows {d0 d : Dev} {a1} (h : Grows d0 d) : Grows d0 (auxSend d a1) := by
  unfold auxSend
  repeat' first
    | with_reducible assumption
    | with_reducible first | apply emit_grows
    | with_reducible apply Grows.ite
    | dsimp only

theorem doAuxGo_grows {d0 d : Dev} {a0 a1 a2 a3} (h : Grows d0 d) : Grows d0 (doAuxGo a0 a1 a2 a3 d) := by
  unfold doAuxGo
  repeat' first
    | with_reducible assumption
    | with_reducible first | apply auxWindowWrite_grows | apply auxSend_grows | apply onScan_grows
    | with_reducible apply Grows.ite
    | with_reducible apply Grows.itePair
    | simp only [Grows.update_iff]
    | dsimp only
    | split

theorem auxEnd_grows {d0 d : Dev} {a1 a2 a3} (h : Grows d0 d) : Grows d0 (auxEnd d a1 a2 a3) := by
  unfold auxEnd
  repeat' first
    | with_reducible assumption
    | with_reducible first | apply fs_grows
    | dsimp only

theorem auxFail_grows {d0 d : Dev} {a1 a2} (h : Grows d0 d) : Grows d0 (auxFail d a1 a2) := by
  unfold auxFail
  repeat' first
    | with_reducible assumption
    | with_reducible first | apply takeFree_grows | apply auxEnd_grows
    | dsimp only

theorem auxStore_grows {d0 d : Dev} {a1 a2} (h : Grows d0 d) : Grows d0 (auxStore d a1 a2) := by
  unfold auxStore
  repeat' first
    | with_reducible assumption
    | with_reducible first | apply wrs_grows
    | dsimp only

theorem doAuxReply_grows {d0 d : Dev} {a0 a1} (h : Grows d0 d) : Grows d0 (doAuxReply a0 a1 d) := by
  unfold doAuxReply
  repeat' first
    | with_reducible assumption
    | with_reducible first | apply auxEnd_grows | apply auxFail_grows | apply auxStore_grows | apply auxSend_grows | apply onScan_grows
    | with_reducible apply Grows.ite
    | simp only [Grows.update_iff]
    | dsimp only
    | split

theorem doAuxTimeout_grows {d0 d : Dev} {a0} (h : Grows d0 d) : Grows d0 (doAuxTimeout a0 d) := by
  unfold doAuxTimeout
  repeat' first
    | with_reducible assumption
    | with_reducible first | apply auxFail_grows
    | with_reducible apply Grows.ite
    | dsimp only

theorem doHpdPlug_grows {d0 d : Dev} {a0} (h : Grows d0 d) : Grows d0 (doHpdPlug a0 d) := by
  unfold doHpdPlug
  repeat' first
    | with_reducible assumption
    | with_reducible first | apply startPort_grows | apply portEvent_grows | apply fs_grows
    | with_reducible apply Grows.ite
    | dsimp only

theorem doHpdUnplug_grows {d0 d : Dev} {a0} (h : Grows d0 d) : Grows d0 (doHpdUnplug a0 d) := by
  unfold doHpdUnplug
  repeat' first
    | with_reducible assumption
    | with_reducible first | apply portOff_grows | apply portEvent_grows | apply fs_grows
    | with_reducible apply Grows.ite
    | dsimp only

theorem doHpdIrq_grows {d0 d : Dev} {a0 a1} (h : Grows d0 d) : Grows d0 (doHpdIrq a0 a1 d) := by
  unfold doHpdIrq
  repeat' first
    | with_reducible assumption
    | with_reducible first | apply portEvent_grows | apply linkLoss_grows
    | with_reducible apply Grows.ite
    | dsimp only

theorem doAphyAckTimeout_grows {d0 d : Dev} {a0 a1} (h : Grows d0 d) : Grows d0 (doAphyAckTimeout a0 a1 d) := by
  unfold doAphyAckTimeout
  repeat' first
    | with_reducible assumption
    | with_reducible first | apply count_grows | apply bump_grows | apply onScan_grows | apply linkLoss_grows
    | with_reducible apply Grows.ite
    | simp only [Grows.update_iff]
    | dsimp only

theorem teRelease_grows {d0 d : Dev} {a1 a2} (h : Grows d0 d) : Grows d0 (teRelease d a1 a2) := by
  unfold teRelease
  repeat' first
    | with_reducible assumption
    | with_reducible first | apply restampAll_grows | apply setRaster_grows
    | simp only [Grows.update_iff]
    | dsimp only

theorem teEdgeAt_grows {d0 d : Dev} {a1} (h : Grows d0 d) : Grows d0 (teEdgeAt d a1) := by
  unfold teEdgeAt
  repeat' first
    | with_reducible assumption
    | with_reducible first | apply takeFree_grows | apply teRelease_grows | apply bump_grows
    | with_reducible apply Grows.ite
    | with_reducible apply Grows.itePair
    | dsimp only
    | split

theorem doTeEdge_grows {d0 d : Dev} {a0 a1} (h : Grows d0 d) : Grows d0 (doTeEdge a0 a1 d) := by
  unfold doTeEdge
  repeat' first
    | intro _
    | with_reducible assumption
    | with_reducible first | apply teEdgeAt_grows
    | with_reducible apply Grows.ite
    | with_reducible apply Grows.fold
    | dsimp only

theorem doTeTimeout_grows {d0 d : Dev} {a0} (h : Grows d0 d) : Grows d0 (doTeTimeout a0 d) := by
  unfold doTeTimeout
  repeat' first
    | with_reducible assumption
    | with_reducible first | apply bump_grows | apply advance_grows | apply teRelease_grows | apply platEvent_grows
    | with_reducible apply Grows.ite
    | dsimp only
    | split

theorem doUnderflow_grows {d0 d : Dev} {a0 a1 a2} (h : Grows d0 d) : Grows d0 (doUnderflow a0 a1 a2 d) := by
  unfold doUnderflow
  repeat' first
    | with_reducible assumption
    | with_reducible first | apply onPlat_grows | apply noteStrip_grows | apply mdhIrq_grows | apply setMdh_grows | apply count_grows | apply emit_grows | apply bump_grows | apply platEvent_grows
    | with_reducible apply Grows.ite
    | simp only [Grows.update_iff]
    | dsimp only

theorem rectCrc_grows {d0 d : Dev} {a1 a2 a3 a4 a5 a6 a7} (h : Grows d0 d) : Grows d0 (rectCrc d a1 a2 a3 a4 a5 a6 a7).2 := by
  unfold rectCrc
  repeat' first
    | with_reducible assumption
    | with_reducible first | apply takeFree_grows
    | dsimp only
    | split

theorem latchSig_grows {d0 d : Dev} {a1 a2 a3} (h : Grows d0 d) : Grows d0 (latchSig d a1 a2 a3).1 := by
  unfold latchSig
  repeat' first
    | with_reducible assumption
    | with_reducible first | apply fs_grows | apply rectCrc_grows | apply wr_grows
    | dsimp only
    | split

theorem doPsrEnter_grows {d0 d : Dev} {a0} (h : Grows d0 d) : Grows d0 (doPsrEnter a0 d) := by
  unfold doPsrEnter
  repeat' first
    | with_reducible assumption
    | with_reducible first | apply onPlat_grows | apply fs_grows | apply platEvent_grows | apply restampAll_grows | apply psrWake_grows
    | with_reducible apply Grows.ite
    | simp only [Grows.update_iff]
    | dsimp only

theorem doPsrExit_grows {d0 d : Dev} {a0} (h : Grows d0 d) : Grows d0 (doPsrExit a0 d) := by
  unfold doPsrExit
  repeat' first
    | with_reducible assumption
    | with_reducible first | apply onPlat_grows | apply advance_grows | apply restampAll_grows | apply platEvent_grows | apply fs_grows
    | with_reducible apply Grows.ite
    | simp only [Grows.update_iff]
    | dsimp only
    | split

theorem doDutyWrite_grows {d0 d : Dev} {a0 a1 a2} (h : Grows d0 d) : Grows d0 (doDutyWrite a0 a1 a2 d) := by
  unfold doDutyWrite
  repeat' first
    | with_reducible assumption
    | with_reducible first | apply regWrite_grows | apply tellBkl_grows | apply onScan_grows
    | with_reducible apply Grows.ite
    | with_reducible apply Grows.itePair
    | simp only [Grows.update_iff]
    | dsimp only
    | split

theorem doBklWrite_grows {d0 d : Dev} {a0 a1 a2} (h : Grows d0 d) : Grows d0 (doBklWrite a0 a1 a2 d) := by
  unfold doBklWrite
  repeat' first
    | with_reducible assumption
    | with_reducible first | apply guardWrite_grows | apply tellBkl_grows | apply onScan_grows
    | with_reducible apply Grows.ite
    | with_reducible apply Grows.itePair
    | simp only [Grows.update_iff]
    | dsimp only
    | split

theorem bklFrame_grows {d0 d : Dev} {a1} (h : Grows d0 d) : Grows d0 (bklFrame d a1) := by
  unfold bklFrame
  repeat' first
    | intro _
    | with_reducible assumption
    | with_reducible first | apply tellBkl_grows | apply onScan_grows
    | with_reducible apply Grows.ite
    | with_reducible apply Grows.fold
    | simp only [Grows.update_iff]
    | dsimp only

theorem mdhCrc_grows {d0 d : Dev} {a1 a2} (h : Grows d0 d) : Grows d0 (mdhCrc d a1 a2) := by
  unfold mdhCrc
  repeat' first
    | with_reducible assumption
    | with_reducible first | apply setMdh_grows | apply takeFree_grows
    | dsimp only
    | split

theorem frameCrc_grows {d0 d : Dev} {a1 a2} (h : Grows d0 d) : Grows d0 (frameCrc d a1 a2) := by
  unfold frameCrc
  repeat' first
    | with_reducible assumption
    | with_reducible first | apply rectCrc_grows | apply mdhCrc_grows | apply onPlat_grows | apply wr_grows
    | with_reducible apply Grows.ite
    | with_reducible apply Grows.itePair
    | simp only [Grows.update_iff]
    | dsimp only

theorem takeMode_grows {d0 d : Dev} {a1} (h : Grows d0 d) : Grows d0 (takeMode d a1) := by
  unfold takeMode
  repeat' first
    | with_reducible assumption
    | with_reducible first | apply restampAll_grows | apply adjustStrips_grows | apply settleMode_grows
    | with_reducible apply Grows.ite
    | dsimp only

theorem clearFaults_grows {d0 d : Dev} {a1 a2} (h : Grows d0 d) : Grows d0 (clearFaults d a1 a2) := by
  unfold clearFaults
  repeat' first
    | intro _
    | with_reducible assumption
    | with_reducible first | apply fs_grows
    | with_reducible apply Grows.ite
    | with_reducible apply Grows.fold
    | simp only [Grows.update_iff]
    | dsimp only

theorem pruneCfgs_grows {d0 d : Dev} {a1 a2} (h : Grows d0 d) : Grows d0 (pruneCfgs d a1 a2) := by
  unfold pruneCfgs
  repeat' first
    | with_reducible assumption
    | simp only [Grows.update_iff]
    | dsimp only

theorem flOut_grows {d0 d : Dev} {a1} (h : Grows d0 d) : Grows d0 (flOut d a1) := by
  unfold flOut
  repeat' first
    | with_reducible assumption
    | with_reducible first | apply emit_grows
    | with_reducible apply Grows.ite
    | dsimp only

theorem doFrameStart_grows {d0 d : Dev} {a0} (h : Grows d0 d) : Grows d0 (doFrameStart a0 d) := by
  unfold doFrameStart
  repeat' first
    | with_reducible assumption
    | with_reducible first | apply advance_grows | apply setRaster_grows | apply count_grows | apply onPlat_grows | apply onFl_grows | apply takeMode_grows | apply pruneCfgs_grows | apply clearFaults_grows | apply bklFrame_grows | apply flOut_grows | apply mdhIrq_grows | apply frameCrc_grows
    | with_reducible apply Grows.ite
    | simp only [Grows.update_iff]
    | dsimp only

theorem keepSigs_grows {d0 d : Dev} {a1 a2 a3} (h : Grows d0 d) : Grows d0 (keepSigs d a1 a2 a3) := by
  unfold keepSigs
  repeat' first
    | intro _
    | with_reducible assumption
    | with_reducible first | apply onScan_grows
    | with_reducible apply Grows.fold
    | simp only [Grows.update_iff]
    | dsimp only

theorem platLanded_grows {d0 d : Dev} {a1 a2 a3 a4} (h : Grows d0 d) : Grows d0 (platLanded d a1 a2 a3 a4) := by
  unfold platLanded
  repeat' first
    | with_reducible assumption
    | with_reducible first | apply firstRaster_grows | apply onPlat_grows | apply restampAll_grows
    | with_reducible apply Grows.ite
    | simp only [Grows.update_iff]
    | dsimp only

theorem routeLanded_grows {d0 d : Dev} {a1 a2 a3} (h : Grows d0 d) : Grows d0 (routeLanded d a1 a2 a3) := by
  unfold routeLanded
  repeat' first
    | with_reducible assumption
    | with_reducible first | apply onScan_grows
    | with_reducible apply Grows.ite
    | simp only [Grows.update_iff]
    | dsimp only

theorem cfgLanded_grows {d0 d : Dev} {a1 a2} (h : Grows d0 d) : Grows d0 (cfgLanded d a1 a2) := by
  unfold cfgLanded
  repeat' first
    | with_reducible assumption
    | with_reducible first | apply portOff_grows | apply startPort_grows | apply beginTrain_grows
    | with_reducible apply Grows.ite
    | dsimp only

theorem portsDown_grows {d0 d : Dev} {a1} (h : Grows d0 d) : Grows d0 (portsDown d a1) := by
  unfold portsDown
  repeat' first
    | intro _
    | with_reducible assumption
    | with_reducible first | apply portOff_grows
    | with_reducible apply Grows.fold
    | dsimp only

theorem scanoutReset_grows {d0 d : Dev} (h : Grows d0 d) : Grows d0 (scanoutReset d) := by
  unfold scanoutReset
  repeat' first
    | intro _
    | with_reducible assumption
    | with_reducible first | apply dropPort_grows | apply onScan_grows | apply startPort_grows
    | with_reducible apply Grows.fold
    | simp only [Grows.update_iff]
    | dsimp only

end Sys2Proof.Machine
end

