-- ==== Sys2Proof/Laws/GrowsHaptics.lean ====
section
/-! SUPPORT. No operation of Machine/Haptics.lean undoes what `Grows` keeps. -/

set_option linter.unusedTactic false
set_option linter.unreachableTactic false
set_option linter.unusedSimpArgs false
set_option linter.unusedVariables false

namespace Sys2Proof.Machine

theorem onHap_grows {d0 d : Dev} {a1 a2} (h : Grows d0 d) : Grows d0 (onHap d a1 a2) := by
  unfold onHap
  repeat' first
    | with_reducible assumption
    | simp only [Grows.update_iff]
    | dsimp only

theorem setHapState_grows {d0 d : Dev} {a1 a2} (h : Grows d0 d) : Grows d0 (setHapState d a1 a2) := by
  unfold setHapState
  repeat' first
    | with_reducible assumption
    | with_reducible first | apply fs_grows
    | dsimp only

theorem showDrive_grows {d0 d : Dev} {a1} (h : Grows d0 d) : Grows d0 (showDrive d a1) := by
  unfold showDrive
  repeat' first
    | with_reducible assumption
    | with_reducible first | apply emit_grows
    | with_reducible apply Grows.ite
    | dsimp only

theorem beginBrake_grows {d0 d : Dev} {a1 a2 a3 a4} (h : Grows d0 d) : Grows d0 (beginBrake d a1 a2 a3 a4) := by
  unfold beginBrake
  repeat' first
    | with_reducible assumption
    | with_reducible first | apply onHap_grows | apply showDrive_grows | apply setHapState_grows
    | with_reducible apply Grows.ite
    | simp only [Grows.update_iff]
    | dsimp only

theorem enterSeg_grows {d0 d : Dev} {a0 a2 a3 a4} (h : Grows d0 d) : Grows d0 (enterSeg a0 d a2 a3 a4) := by
  induction a0 generalizing d a2 a3 a4 with
  | zero =>
    unfold enterSeg
    repeat' first
      | with_reducible assumption
      | with_reducible first | apply beginBrake_grows | apply onHap_grows | apply count_grows | apply showDrive_grows
      | with_reducible apply Grows.ite
      | simp only [Grows.update_iff]
      | dsimp only
      | split
  | succ _ ih =>
    unfold enterSeg
    repeat' first
      | with_reducible assumption
      | with_reducible apply ih
      | with_reducible first | apply beginBrake_grows | apply onHap_grows | apply count_grows | apply showDrive_grows
      | with_reducible apply Grows.ite
      | simp only [Grows.update_iff]
      | dsimp only
      | split

theorem dropEnable_grows {d0 d : Dev} {a1} (h : Grows d0 d) : Grows d0 (dropEnable d a1) := by
  unfold dropEnable
  repeat' first
    | with_reducible assumption
    | with_reducible first | apply emit_grows
    | dsimp only

theorem raiseEnable_grows {d0 d : Dev} {a1} (h : Grows d0 d) : Grows d0 (raiseEnable d a1) := by
  unfold raiseEnable
  repeat' first
    | with_reducible assumption
    | with_reducible first | apply emit_grows
    | dsimp only

theorem startEffect_grows {d0 d : Dev} {a1 a2 a3} (h : Grows d0 d) : Grows d0 (startEffect d a1 a2 a3) := by
  unfold startEffect
  repeat' first
    | with_reducible assumption
    | with_reducible first | apply emit_grows | apply onHap_grows | apply count_grows | apply fs_grows | apply setHapState_grows | apply enterSeg_grows | apply raiseEnable_grows
    | with_reducible apply Grows.ite
    | simp only [Grows.update_iff]
    | dsimp only

theorem endTrig_grows {d0 d : Dev} {a1 a2 a3} (h : Grows d0 d) : Grows d0 (endTrig d a1 a2 a3) := by
  unfold endTrig
  repeat' first
    | with_reducible assumption
    | with_reducible first | apply complete_grows
    | dsimp only
    | split

theorem settleLoads_grows {d0 d : Dev} (h : Grows d0 d) : Grows d0 (settleLoads d) := by
  unfold settleLoads
  repeat' first
    | intro _
    | with_reducible assumption
    | with_reducible first | apply complete_grows
    | with_reducible apply Grows.ite
    | with_reducible apply Grows.fold
    | simp only [Grows.update_iff]
    | dsimp only
    | split

theorem endEffect_grows {d0 d : Dev} {a1 a2 a3} (h : Grows d0 d) : Grows d0 (endEffect d a1 a2 a3) := by
  unfold endEffect
  repeat' first
    | with_reducible assumption
    | with_reducible first | apply onHap_grows | apply settleLoads_grows | apply endTrig_grows
    | with_reducible apply Grows.ite
    | simp only [Grows.update_iff]
    | dsimp only
    | split

theorem setPend_grows {d0 d : Dev} {a1 a2} (h : Grows d0 d) : Grows d0 (setPend d a1 a2) := by
  unfold setPend
  repeat' first
    | with_reducible assumption
    | with_reducible first | apply fs_grows | apply onHap_grows
    | simp only [Grows.update_iff]
    | dsimp only

theorem endPend_grows {d0 d : Dev} {a1 a2} (h : Grows d0 d) : Grows d0 (endPend d a1 a2) := by
  unfold endPend
  repeat' first
    | with_reducible assumption
    | with_reducible first | apply setPend_grows | apply bump_grows | apply endTrig_grows
    | with_reducible apply Grows.ite
    | dsimp only
    | split

theorem playNow_grows {d0 d : Dev} {a1 a2 a3} (h : Grows d0 d) : Grows d0 (playNow d a1 a2 a3) := by
  unfold playNow
  repeat' first
    | with_reducible assumption
    | with_reducible first | apply startEffect_grows
    | simp only [Grows.update_iff]
    | dsimp only

theorem brakeOver_grows {d0 d : Dev} {a1 a2} (h : Grows d0 d) : Grows d0 (brakeOver d a1 a2) := by
  unfold brakeOver
  repeat' first
    | with_reducible assumption
    | with_reducible first | apply endPend_grows | apply endEffect_grows | apply dropEnable_grows | apply setHapState_grows | apply onHap_grows | apply playNow_grows | apply setPend_grows | apply emit_grows
    | with_reducible apply Grows.ite
    | simp only [Grows.update_iff]
    | dsimp only
    | split

theorem hapTrigger_grows {d0 d : Dev} {a1 a2} (h : Grows d0 d) : Grows d0 (hapTrigger d a1 a2) := by
  unfold hapTrigger
  repeat' first
    | with_reducible assumption
    | with_reducible first | apply post_grows | apply bump_grows | apply endTrig_grows | apply playNow_grows | apply endEffect_grows | apply endPend_grows | apply setPend_grows | apply beginBrake_grows | apply onHap_grows
    | with_reducible apply Grows.ite
    | simp only [Grows.update_iff]
    | dsimp only
    | split

theorem showFaults_grows {d0 d : Dev} (h : Grows d0 d) : Grows d0 (showFaults d) := by
  unfold showFaults
  repeat' first
    | with_reducible assumption
    | with_reducible first | apply fs_grows
    | dsimp only

theorem hapFault_grows {d0 d : Dev} {a1 a2 a3} (h : Grows d0 d) : Grows d0 (hapFault d a1 a2 a3) := by
  unfold hapFault
  repeat' first
    | with_reducible assumption
    | with_reducible first | apply fs_grows | apply setHapState_grows | apply dropEnable_grows | apply showFaults_grows | apply onHap_grows | apply endPend_grows | apply endEffect_grows | apply post_grows
    | with_reducible apply Grows.ite
    | simp only [Grows.update_iff]
    | dsimp only
    | split

theorem doAmpFault_grows {d0 d : Dev} {a0} (h : Grows d0 d) : Grows d0 (doAmpFault a0 d) := by
  unfold doAmpFault
  repeat' first
    | with_reducible assumption
    | with_reducible first | apply hapFault_grows
    | with_reducible apply Grows.ite
    | dsimp only

theorem measure_grows {d0 d : Dev} {a1 a2 a3} (h : Grows d0 d) : Grows d0 (measure d a1 a2 a3) := by
  unfold measure
  repeat' first
    | with_reducible assumption
    | with_reducible first | apply fs_grows | apply onHap_grows
    | with_reducible apply Grows.ite
    | with_reducible apply Grows.itePair
    | simp only [Grows.update_iff]
    | dsimp only
    | split

theorem takeWindow_grows {d0 d : Dev} {a0 a1 a2} (h : Grows d0 d) : Grows d0 (takeWindow a0 a1 a2 d) := by
  unfold takeWindow
  repeat' first
    | with_reducible assumption
    | with_reducible first | apply measure_grows | apply onHap_grows | apply hapFault_grows | apply showDrive_grows | apply brakeOver_grows | apply enterSeg_grows
    | with_reducible apply Grows.ite
    | with_reducible apply Grows.itePair
    | simp only [Grows.update_iff]
    | dsimp only
    | split

theorem doSenseWindow_grows {d0 d : Dev} {a0 a1 a2} (h : Grows d0 d) : Grows d0 (doSenseWindow a0 a1 a2 d) := by
  unfold doSenseWindow
  repeat' first
    | with_reducible assumption
    | with_reducible first | apply takeWindow_grows | apply raiseEnable_grows | apply dropEnable_grows
    | with_reducible apply Grows.ite
    | dsimp only

theorem doHapticSegmentEnd_grows {d0 d : Dev} {a0} (h : Grows d0 d) : Grows d0 (doHapticSegmentEnd a0 d) := by
  unfold doHapticSegmentEnd
  repeat' first
    | with_reducible assumption
    | with_reducible first | apply advance_grows | apply brakeOver_grows | apply enterSeg_grows
    | with_reducible apply Grows.ite
    | dsimp only

theorem doPendingTriggerTimeout_grows {d0 d : Dev} {a0} (h : Grows d0 d) : Grows d0 (doPendingTriggerTimeout a0 d) := by
  unfold doPendingTriggerTimeout
  repeat' first
    | with_reducible assumption
    | with_reducible first | apply brakeOver_grows | apply advance_grows
    | with_reducible apply Grows.ite
    | dsimp only
    | split

theorem hapLand_grows {d0 d : Dev} {a1 a2} (h : Grows d0 d) : Grows d0 (hapLand d a1 a2) := by
  unfold hapLand
  repeat' first
    | with_reducible assumption
    | with_reducible first | apply wr_grows | apply setHapState_grows | apply onHap_grows | apply beginBrake_grows | apply showFaults_grows
    | with_reducible apply Grows.ite
    | simp only [Grows.update_iff]
    | dsimp only

theorem actHapticPlay_grows {d0 d : Dev} {a0 a1 a2} (h : Grows d0 d) : Grows d0 (actHapticPlay a0 a1 a2 d) := by
  unfold actHapticPlay
  repeat' first
    | with_reducible assumption
    | with_reducible first | apply hapTrigger_grows
    | dsimp only

theorem doHapticPlay_grows {d0 d : Dev} {a0 a1} (h : Grows d0 d) : Grows d0 (doHapticPlay a0 a1 d) := by
  unfold doHapticPlay
  repeat' first
    | intro _
    | with_reducible assumption
    | with_reducible first | apply startDesc_grows | apply actHapticPlay_grows
    | dsimp only

theorem actHapticLoad_grows {d0 d : Dev} {a0 a1 a2} (h : Grows d0 d) : Grows d0 (actHapticLoad a0 a1 a2 d) := by
  unfold actHapticLoad
  repeat' first
    | with_reducible assumption
    | with_reducible first | apply settleLoads_grows | apply memRead_grows | apply complete_grows
    | with_reducible apply Grows.ite
    | with_reducible apply Grows.itePair
    | simp only [Grows.update_iff]
    | dsimp only
    | split

theorem doHapticLoad_grows {d0 d : Dev} {a0 a1 a2} (h : Grows d0 d) : Grows d0 (doHapticLoad a0 a1 a2 d) := by
  unfold doHapticLoad
  repeat' first
    | intro _
    | with_reducible assumption
    | with_reducible first | apply startDesc_grows | apply actHapticLoad_grows
    | dsimp only

theorem actHapticWrite_grows {d0 d : Dev} {a0 a1 a2} (h : Grows d0 d) : Grows d0 (actHapticWrite a0 a1 a2 d) := by
  unfold actHapticWrite
  repeat' first
    | with_reducible assumption
    | with_reducible first | apply acceptCommit_grows
    | dsimp only

theorem doHapticCfgWrite_grows {d0 d : Dev} {a0 a1} (h : Grows d0 d) : Grows d0 (doHapticCfgWrite a0 a1 d) := by
  unfold doHapticCfgWrite
  repeat' first
    | intro _
    | with_reducible assumption
    | with_reducible first | apply startDesc_grows | apply actHapticWrite_grows
    | dsimp only

theorem actHapticClear_grows {d0 d : Dev} {a0 a1 a2} (h : Grows d0 d) : Grows d0 (actHapticClear a0 a1 a2 d) := by
  unfold actHapticClear
  repeat' first
    | with_reducible assumption
    | with_reducible first | apply showFaults_grows | apply setHapState_grows | apply onHap_grows | apply complete_grows
    | with_reducible apply Grows.ite
    | simp only [Grows.update_iff]
    | dsimp only

theorem doHapticCfgClearFault_grows {d0 d : Dev} {a0 a1} (h : Grows d0 d) : Grows d0 (doHapticCfgClearFault a0 a1 d) := by
  unfold doHapticCfgClearFault
  repeat' first
    | intro _
    | with_reducible assumption
    | with_reducible first | apply startDesc_grows | apply actHapticClear_grows
    | dsimp only

theorem hapSilence_grows {d0 d : Dev} {a1} (h : Grows d0 d) : Grows d0 (hapSilence d a1) := by
  unfold hapSilence
  repeat' first
    | with_reducible assumption
    | with_reducible first | apply setPend_grows | apply onHap_grows | apply beginBrake_grows
    | with_reducible apply Grows.ite
    | simp only [Grows.update_iff]
    | dsimp only

theorem hapDepart_grows {d0 d : Dev} {a1} (h : Grows d0 d) : Grows d0 (hapDepart d a1) := by
  unfold hapDepart
  repeat' first
    | intro _
    | with_reducible assumption
    | with_reducible first | apply hapSilence_grows
    | with_reducible apply Grows.fold
    | simp only [Grows.update_iff]
    | dsimp only

theorem hapSection_grows {d0 d : Dev} (h : Grows d0 d) : Grows d0 (hapSection d) := by
  unfold hapSection
  repeat' first
    | intro _
    | with_reducible assumption
    | with_reducible first | apply endPend_grows | apply endEffect_grows | apply onHap_grows | apply beginBrake_grows
    | with_reducible apply Grows.ite
    | with_reducible apply Grows.fold
    | simp only [Grows.update_iff]
    | dsimp only

theorem showHap_grows {d0 d : Dev} (h : Grows d0 d) : Grows d0 (showHap d) := by
  unfold showHap
  repeat' first
    | intro _
    | with_reducible assumption
    | with_reducible first | apply setHapState_grows
    | with_reducible apply Grows.ite
    | with_reducible apply Grows.fold
    | dsimp only

theorem hapDown_grows {d0 d : Dev} (h : Grows d0 d) : Grows d0 (hapDown d) := by
  unfold hapDown
  repeat' first
    | intro _
    | with_reducible assumption
    | with_reducible first | apply dropEnable_grows | apply endPend_grows | apply endEffect_grows
    | with_reducible apply Grows.ite
    | with_reducible apply Grows.fold
    | simp only [Grows.update_iff]
    | dsimp only

end Sys2Proof.Machine
end

