-- ==== Sys2Proof/Laws/GrowsStore.lean ====
section
/-! SUPPORT. No operation of Machine/Store.lean undoes what `Grows` keeps. -/

set_option linter.unusedTactic false
set_option linter.unreachableTactic false
set_option linter.unusedSimpArgs false
set_option linter.unusedVariables false

namespace Sys2Proof.Machine

theorem storeAnswer_grows {d0 d : Dev} {a1 a2} (h : Grows d0 d) : Grows d0 (storeAnswer d a1 a2) := by
  unfold storeAnswer
  repeat' first
    | with_reducible assumption
    | with_reducible first | apply complete_grows
    | dsimp only
    | split

theorem doStoreWriteDone_grows {d0 d : Dev} (h : Grows d0 d) : Grows d0 (doStoreWriteDone d) := by
  unfold doStoreWriteDone
  repeat' first
    | with_reducible assumption
    | with_reducible first | apply storeAnswer_grows | apply showStore_grows
    | refine appendRec_grows (by with_reducible assumption) ?_
    | simp only [Grows.update_iff]
    | dsimp only
    | split

theorem copyRecs_grows {d0 d e : Dev} {l} (he : copyRecs l d = some e) (h : Grows d0 d) : Grows d0 e := by
  induction l generalizing d with
  | nil => cases he; exact h
  | cons r l ih =>
    obtain ⟨x, hx, hy⟩ := Option.bind_eq_some_iff.1 he
    exact ih hy (appendRec_grows hx h)

theorem doStoreCompaction_grows {d0 d : Dev} (h : Grows d0 d) : Grows d0 (doStoreCompaction d) := by
  unfold doStoreCompaction
  repeat' first
    | with_reducible assumption
    | with_reducible first | apply showStore_grows
    | refine copyRecs_grows (by with_reducible assumption) ?_
    | with_reducible apply Grows.ite
    | simp only [Grows.update_iff]
    | dsimp only
    | split

theorem formatStore_grows {d0 d : Dev} (h : Grows d0 d) : Grows d0 (formatStore d) := by
  unfold formatStore
  repeat' first
    | intro _
    | with_reducible assumption
    | with_reducible first | apply showStore_grows
    | with_reducible apply Grows.fold
    | simp only [Grows.update_iff]
    | dsimp only

theorem actStoreRead_grows {d0 d : Dev} {a0 a1 a2} (h : Grows d0 d) : Grows d0 (actStoreRead a0 a1 a2 d) := by
  unfold actStoreRead
  repeat' first
    | with_reducible assumption
    | with_reducible first | apply complete_grows | apply memWritePages_grows
    | with_reducible apply Grows.ite
    | with_reducible apply Grows.itePair
    | dsimp only
    | split

theorem doStoreRwRead_grows {d0 d : Dev} {a0 a1} (h : Grows d0 d) : Grows d0 (doStoreRwRead a0 a1 d) := by
  unfold doStoreRwRead
  repeat' first
    | intro _
    | with_reducible assumption
    | with_reducible first | apply startDesc_grows | apply actStoreRead_grows
    | dsimp only

theorem actStoreWrite_grows {d0 d : Dev} {a0 a1 a2} (h : Grows d0 d) : Grows d0 (actStoreWrite a0 a1 a2 d) := by
  unfold actStoreWrite
  repeat' first
    | with_reducible assumption
    | with_reducible first | apply storeWrite_grows | apply memRead_grows | apply complete_grows
    | with_reducible apply Grows.ite
    | with_reducible apply Grows.itePair
    | simp only [Grows.update_iff]
    | dsimp only
    | split

theorem doStoreRwWrite_grows {d0 d : Dev} {a0 a1 a2} (h : Grows d0 d) : Grows d0 (doStoreRwWrite a0 a1 a2 d) := by
  unfold doStoreRwWrite
  repeat' first
    | intro _
    | with_reducible assumption
    | with_reducible first | apply startDesc_grows | apply actStoreWrite_grows
    | dsimp only

theorem actStoreDelete_grows {d0 d : Dev} {a0 a1 a2} (h : Grows d0 d) : Grows d0 (actStoreDelete a0 a1 a2 d) := by
  unfold actStoreDelete
  repeat' first
    | with_reducible assumption
    | with_reducible first | apply storeWrite_grows
    | dsimp only

theorem doStoreRwDelete_grows {d0 d : Dev} {a0 a1} (h : Grows d0 d) : Grows d0 (doStoreRwDelete a0 a1 d) := by
  unfold doStoreRwDelete
  repeat' first
    | intro _
    | with_reducible assumption
    | with_reducible first | apply startDesc_grows | apply actStoreDelete_grows
    | dsimp only

theorem actStoreInfo_grows {d0 d : Dev} {a0 a1 a2} (h : Grows d0 d) : Grows d0 (actStoreInfo a0 a1 a2 d) := by
  unfold actStoreInfo
  repeat' first
    | intro _
    | with_reducible assumption
    | with_reducible first | apply memWrite_grows | apply complete_grows
    | with_reducible apply Grows.ite
    | with_reducible apply Grows.itePair
    | with_reducible apply Grows.fold
    | dsimp only

theorem doStoreRwInfo_grows {d0 d : Dev} {a0 a1} (h : Grows d0 d) : Grows d0 (doStoreRwInfo a0 a1 d) := by
  unfold doStoreRwInfo
  repeat' first
    | intro _
    | with_reducible assumption
    | with_reducible first | apply startDesc_grows | apply actStoreInfo_grows
    | dsimp only

end Sys2Proof.Machine
end

