-- ==== Sys2Proof/Laws/GrowsTouch.lean ====
section
/-! SUPPORT. No operation of Machine/Touch.lean undoes what `Grows` keeps. -/

set_option linter.unusedTactic false
set_option linter.unreachableTactic false
set_option linter.unusedSimpArgs false
set_option linter.unusedVariables false

namespace Sys2Proof.Machine

theorem onPanel_grows {d0 d : Dev} {a1 a2} (h : Grows d0 d) : Grows d0 (onPanel d a1 a2) := by
  unfold onPanel
  repeat' first
    | with_reducible assumption
    | simp only [Grows.update_iff]
    | dsimp only

theorem setPanelState_grows {d0 d : Dev} {a1 a2} (h : Grows d0 d) : Grows d0 (setPanelState d a1 a2) := by
  unfold setPanelState
  repeat' first
    | with_reducible assumption
    | with_reducible first | apply fs_grows
    | dsimp only

theorem showPanel_grows {d0 d : Dev} {a1} (h : Grows d0 d) : Grows d0 (showPanel d a1) := by
  unfold showPanel
  repeat' first
    | with_reducible assumption
    | with_reducible first | apply fs_grows
    | dsimp only

theorem setKeyDown_grows {d0 d : Dev} {a1 a2} (h : Grows d0 d) : Grows d0 (setKeyDown d a1 a2) := by
  unfold setKeyDown
  repeat' first
    | with_reducible assumption
    | with_reducible first | apply fs_grows
    | with_reducible apply Grows.ite
    | dsimp only

theorem onKey_grows {d0 d : Dev} {a1 a2} (h : Grows d0 d) : Grows d0 (onKey d a1 a2) := by
  unfold onKey
  repeat' first
    | with_reducible assumption
    | simp only [Grows.update_iff]
    | dsimp only

theorem touchEvent_grows {d0 d : Dev} {a1 a2 a3 a4} (h : Grows d0 d) : Grows d0 (touchEvent d a1 a2 a3 a4) := by
  unfold touchEvent
  repeat' first
    | with_reducible assumption
    | with_reducible first | apply postList_grows | apply emit_grows
    | with_reducible apply Grows.ite
    | dsimp only

theorem touchDiag_grows {d0 d : Dev} {a1 a2 a3 a4 a5} (h : Grows d0 d) : Grows d0 (touchDiag d a1 a2 a3 a4 a5) := by
  unfold touchDiag
  repeat' first
    | with_reducible assumption
    | with_reducible first | apply touchEvent_grows
    | dsimp only
    | split

theorem reportContact_grows {d0 d : Dev} {a1 a2 a3 a4 a5 a6 a7} (h : Grows d0 d) : Grows d0 (reportContact d a1 a2 a3 a4 a5 a6 a7) := by
  unfold reportContact
  repeat' first
    | with_reducible assumption
    | with_reducible first | apply touchEvent_grows
    | with_reducible apply Grows.ite
    | dsimp only

theorem cancelContacts_grows {d0 d : Dev} {a1 a2 a3 a4} (h : Grows d0 d) : Grows d0 (cancelContacts d a1 a2 a3 a4) := by
  unfold cancelContacts
  repeat' first
    | intro _
    | with_reducible assumption
    | with_reducible first | apply reportContact_grows | apply showPanel_grows | apply onPanel_grows
    | with_reducible apply Grows.ite
    | with_reducible apply Grows.fold
    | simp only [Grows.update_iff]
    | dsimp only

theorem failFrame_grows {d0 d : Dev} {a1 a2 a3} (h : Grows d0 d) : Grows d0 (failFrame d a1 a2 a3) := by
  unfold failFrame
  repeat' first
    | with_reducible assumption
    | with_reducible first | apply takeFree_grows | apply bump_grows | apply touchDiag_grows | apply onPanel_grows | apply cancelContacts_grows
    | with_reducible apply Grows.ite
    | with_reducible apply Grows.itePair
    | simp only [Grows.update_iff]
    | dsimp only

theorem scanFire_grows {d0 d : Dev} {a1} (h : Grows d0 d) : Grows d0 (scanFire d a1) := by
  unfold scanFire
  repeat' first
    | with_reducible assumption
    | with_reducible first | apply bump_grows | apply failFrame_grows | apply emit_grows | apply onPanel_grows
    | with_reducible apply Grows.ite
    | simp only [Grows.update_iff]
    | dsimp only

theorem spiRead_grows {d0 d : Dev} {a1} (h : Grows d0 d) : Grows d0 (spiRead d a1) := by
  unfold spiRead
  repeat' first
    | with_reducible assumption
    | with_reducible first | apply onPanel_grows | apply emit_grows
    | simp only [Grows.update_iff]
    | dsimp only

theorem doSpiDrdy_grows {d0 d : Dev} {a0} (h : Grows d0 d) : Grows d0 (doSpiDrdy a0 d) := by
  unfold doSpiDrdy
  repeat' first
    | with_reducible assumption
    | with_reducible first | apply spiRead_grows
    | with_reducible apply Grows.ite
    | dsimp only

theorem doSpiDrdyTimeout_grows {d0 d : Dev} {a0} (h : Grows d0 d) : Grows d0 (doSpiDrdyTimeout a0 d) := by
  unfold doSpiDrdyTimeout
  repeat' first
    | with_reducible assumption
    | with_reducible first | apply advance_grows | apply spiRead_grows | apply failFrame_grows | apply onPanel_grows
    | with_reducible apply Grows.ite
    | simp only [Grows.update_iff]
    | dsimp only

theorem keyEvent_grows {d0 d : Dev} {a1 a2 a3 a4 a5} (h : Grows d0 d) : Grows d0 (keyEvent d a1 a2 a3 a4 a5) := by
  unfold keyEvent
  repeat' first
    | with_reducible assumption
    | with_reducible first | apply setKeyDown_grows | apply hapTrigger_grows | apply touchEvent_grows
    | with_reducible apply Grows.ite
    | dsimp only

theorem keyCount_grows {d0 d : Dev} {a1} (h : Grows d0 d) : Grows d0 (keyCount d a1) := by
  unfold keyCount
  repeat' first
    | with_reducible assumption
    | with_reducible first | apply onKey_grows
    | with_reducible apply Grows.ite
    | dsimp only

theorem doKeys_grows {d0 d : Dev} {a1 a2 a3 a4 a5} (h : Grows d0 d) : Grows d0 (doKeys d a1 a2 a3 a4 a5) := by
  unfold doKeys
  repeat' first
    | intro _
    | with_reducible assumption
    | with_reducible first | apply keyCount_grows | apply keyEvent_grows | apply onKey_grows
    | with_reducible apply Grows.ite
    | with_reducible apply Grows.fold
    | simp only [Grows.update_iff]
    | dsimp only

theorem doContacts_grows {d0 d : Dev} {a1 a2 a3 a4 a5} (h : Grows d0 d) : Grows d0 (doContacts d a1 a2 a3 a4 a5) := by
  unfold doContacts
  repeat' first
    | intro _
    | with_reducible assumption
    | with_reducible first | apply reportContact_grows | apply count_grows | apply onPanel_grows
    | with_reducible apply Grows.ite
    | with_reducible apply Grows.itePair
    | with_reducible apply Grows.fold
    | with_reducible apply Grows.foldPair
    | simp only [Grows.update_iff]
    | dsimp only [id]
    | dsimp only
    | split

theorem doDumps_grows {d0 d : Dev} {a1 a2 a3 a4} (h : Grows d0 d) : Grows d0 (doDumps d a1 a2 a3 a4) := by
  unfold doDumps
  repeat' first
    | intro _
    | with_reducible assumption
    | with_reducible first | apply memWritePages_grows | apply complete_grows | apply onPanel_grows
    | with_reducible apply Grows.ite
    | with_reducible apply Grows.itePair
    | with_reducible apply Grows.fold
    | simp only [Grows.update_iff]
    | dsimp only

theorem runFrame_grows {d0 d : Dev} {a1 a2 a3 a4 a5} (h : Grows d0 d) : Grows d0 (runFrame d a1 a2 a3 a4 a5) := by
  unfold runFrame
  repeat' first
    | with_reducible assumption
    | with_reducible first | apply bump_grows | apply onPanel_grows | apply doContacts_grows | apply doKeys_grows | apply doDumps_grows | apply touchDiag_grows
    | with_reducible apply Grows.ite
    | with_reducible apply Grows.itePair
    | simp only [Grows.update_iff]
    | dsimp only

theorem startFrame_grows {d0 d : Dev} {a1 a2 a3} (h : Grows d0 d) : Grows d0 (startFrame d a1 a2 a3) := by
  unfold startFrame
  repeat' first
    | with_reducible assumption
    | with_reducible first | apply doContacts_grows | apply doDumps_grows | apply setPanelState_grows | apply onPanel_grows | apply touchDiag_grows
    | with_reducible apply Grows.ite
    | with_reducible apply Grows.itePair
    | simp only [Grows.update_iff]
    | dsimp only

theorem takeFrame_grows {d0 d : Dev} {a1 a2 a3 a4} (h : Grows d0 d) : Grows d0 (takeFrame d a1 a2 a3 a4) := by
  unfold takeFrame
  repeat' first
    | with_reducible assumption
    | with_reducible first | apply onPanel_grows | apply failFrame_grows | apply wr_grows | apply count_grows | apply showPanel_grows | apply startFrame_grows | apply runFrame_grows
    | with_reducible apply Grows.ite
    | simp only [Grows.update_iff]
    | dsimp only

theorem doTouchFrameProcess_grows {d0 d : Dev} {a0 a1 a2 a3} (h : Grows d0 d) : Grows d0 (doTouchFrameProcess a0 a1 a2 a3 d) := by
  unfold doTouchFrameProcess
  repeat' first
    | with_reducible assumption
    | with_reducible first | apply advance_grows | apply takeFrame_grows
    | with_reducible apply Grows.ite
    | dsimp only

theorem doLongContact_grows {d0 d : Dev} {a0 a1} (h : Grows d0 d) : Grows d0 (doLongContact a0 a1 d) := by
  unfold doLongContact
  repeat' first
    | with_reducible assumption
    | with_reducible first | apply reportContact_grows | apply advance_grows | apply onPanel_grows
    | with_reducible apply Grows.ite
    | simp only [Grows.update_iff]
    | dsimp only [id]
    | dsimp only
    | split

theorem doForcedRelease_grows {d0 d : Dev} {a0 a1} (h : Grows d0 d) : Grows d0 (doForcedRelease a0 a1 d) := by
  unfold doForcedRelease
  repeat' first
    | with_reducible assumption
    | with_reducible first | apply reportContact_grows | apply advance_grows | apply showPanel_grows | apply onPanel_grows
    | with_reducible apply Grows.ite
    | simp only [Grows.update_iff]
    | dsimp only [id]
    | dsimp only
    | split

theorem onTun_grows {d0 d : Dev} {a1 a2} (h : Grows d0 d) : Grows d0 (onTun d a1 a2) := by
  unfold onTun
  repeat' first
    | with_reducible assumption
    | simp only [Grows.update_iff]
    | dsimp only

theorem tunDiscard_grows {d0 d : Dev} {a1 a2} (h : Grows d0 d) : Grows d0 (tunDiscard d a1 a2) := by
  unfold tunDiscard
  repeat' first
    | with_reducible assumption
    | with_reducible first | apply onTun_grows | apply failFrame_grows | apply bump_grows
    | dsimp only
    | split

theorem tunNews_grows {d0 d : Dev} {a1 a2 a3} (h : Grows d0 d) : Grows d0 (tunNews d a1 a2 a3) := by
  unfold tunNews
  repeat' first
    | with_reducible assumption
    | with_reducible first | apply touchEvent_grows | apply wr_grows
    | with_reducible apply Grows.ite
    | dsimp only

theorem tunMessage_grows {d0 d : Dev} {a1 a2 a3} (h : Grows d0 d) : Grows d0 (tunMessage d a1 a2 a3) := by
  unfold tunMessage
  repeat' first
    | with_reducible assumption
    | with_reducible first | apply onTun_grows | apply tunDiscard_grows | apply tunNews_grows | apply bump_grows | apply onPanel_grows
    | refine Grows.count (d := onTun d a1 fun _ => default) ?_ (Nat.le_refl _) (Nat.le_refl _) (Nat.le_add_right _ _) (List.suffix_refl _)
    | with_reducible apply Grows.ite
    | simp only [Grows.update_iff]
    | dsimp only
    | split

theorem doTunnelSegment_grows {d0 d : Dev} {a0 a1} (h : Grows d0 d) : Grows d0 (doTunnelSegment a0 a1 d) := by
  unfold doTunnelSegment
  repeat' first
    | with_reducible assumption
    | with_reducible first | apply tunDiscard_grows | apply tunMessage_grows | apply onTun_grows
    | with_reducible apply Grows.ite
    | dsimp only

theorem doTunnelFrameTimeout_grows {d0 d : Dev} {a0} (h : Grows d0 d) : Grows d0 (doTunnelFrameTimeout a0 d) := by
  unfold doTunnelFrameTimeout
  repeat' first
    | with_reducible assumption
    | with_reducible first | apply advance_grows | apply cancelContacts_grows
    | with_reducible apply Grows.ite
    | dsimp only

theorem hushContacts_grows {d0 d : Dev} {a1 a2} (h : Grows d0 d) : Grows d0 (hushContacts d a1 a2) := by
  unfold hushContacts
  repeat' first
    | with_reducible assumption
    | with_reducible first | apply showPanel_grows | apply onPanel_grows
    | with_reducible apply Grows.ite
    | simp only [Grows.update_iff]
    | dsimp only

theorem stopPanel_grows {d0 d : Dev} {a1 a2} (h : Grows d0 d) : Grows d0 (stopPanel d a1 a2) := by
  unfold stopPanel
  repeat' first
    | intro _
    | with_reducible assumption
    | with_reducible first | apply cancelContacts_grows | apply onKey_grows | apply setKeyDown_grows | apply showPanel_grows | apply onPanel_grows
    | with_reducible apply Grows.fold
    | simp only [Grows.update_iff]
    | dsimp only

theorem touchLand_grows {d0 d : Dev} {a1 a2} (h : Grows d0 d) : Grows d0 (touchLand d a1 a2) := by
  unfold touchLand
  repeat' first
    | intro _
    | with_reducible assumption
    | with_reducible first | apply wr_grows | apply stopPanel_grows | apply onPanel_grows | apply setPanelState_grows
    | with_reducible apply Grows.ite
    | with_reducible apply Grows.itePair
    | with_reducible apply Grows.fold
    | with_reducible apply Grows.foldPair
    | simp only [Grows.update_iff]
    | dsimp only

theorem touchKeyLand_grows {d0 d : Dev} {a1 a2} (h : Grows d0 d) : Grows d0 (touchKeyLand d a1 a2) := by
  unfold touchKeyLand
  repeat' first
    | with_reducible assumption
    | with_reducible first | apply onKey_grows | apply setKeyDown_grows | apply wrs_grows
    | dsimp only

theorem touchRemove_grows {d0 d : Dev} {a1} (h : Grows d0 d) : Grows d0 (touchRemove d a1) := by
  unfold touchRemove
  repeat' first
    | with_reducible assumption
    | with_reducible first | apply fs_grows | apply stopPanel_grows | apply setPanelState_grows | apply onPanel_grows
    | with_reducible apply Grows.ite
    | simp only [Grows.update_iff]
    | dsimp only

theorem touchSweep_grows {d0 d : Dev} (h : Grows d0 d) : Grows d0 (touchSweep d) := by
  unfold touchSweep
  repeat' first
    | intro _
    | with_reducible assumption
    | with_reducible first | apply cancelContacts_grows
    | with_reducible apply Grows.ite
    | with_reducible apply Grows.fold
    | dsimp only
    | split

theorem touchDepart_grows {d0 d : Dev} {a1} (h : Grows d0 d) : Grows d0 (touchDepart d a1) := by
  unfold touchDepart
  repeat' first
    | intro _
    | with_reducible assumption
    | with_reducible first | apply hushContacts_grows | apply wr_grows | apply onPanel_grows
    | with_reducible apply Grows.ite
    | with_reducible apply Grows.fold
    | simp only [Grows.update_iff]
    | dsimp only

theorem touchSection_grows {d0 d : Dev} (h : Grows d0 d) : Grows d0 (touchSection d) := by
  unfold touchSection
  repeat' first
    | intro _
    | with_reducible assumption
    | with_reducible first | apply onPanel_grows | apply complete_grows | apply showPanel_grows | apply setPanelState_grows
    | with_reducible apply Grows.ite
    | with_reducible apply Grows.itePair
    | with_reducible apply Grows.fold
    | simp only [Grows.update_iff]
    | dsimp only

theorem showPanels_grows {d0 d : Dev} (h : Grows d0 d) : Grows d0 (showPanels d) := by
  unfold showPanels
  repeat' first
    | intro _
    | with_reducible assumption
    | with_reducible first | apply setPanelState_grows
    | with_reducible apply Grows.ite
    | with_reducible apply Grows.fold
    | dsimp only

theorem actTouchCfg_grows {d0 d : Dev} {a0 a1 a2} (h : Grows d0 d) : Grows d0 (actTouchCfg a0 a1 a2 d) := by
  unfold actTouchCfg
  repeat' first
    | with_reducible assumption
    | with_reducible first | apply complete_grows | apply wr_grows | apply acceptCommit_grows
    | with_reducible apply Grows.ite
    | with_reducible apply Grows.itePair
    | dsimp only

theorem doTouchCfg_grows {d0 d : Dev} {a0 a1} (h : Grows d0 d) : Grows d0 (doTouchCfg a0 a1 d) := by
  unfold doTouchCfg
  repeat' first
    | intro _
    | with_reducible assumption
    | with_reducible first | apply startDesc_grows | apply actTouchCfg_grows
    | dsimp only

theorem actBaseReload_grows {d0 d : Dev} {a0 a1 a2} (h : Grows d0 d) : Grows d0 (actBaseReload a0 a1 a2 d) := by
  unfold actBaseReload
  repeat' first
    | with_reducible assumption
    | with_reducible first | apply onPanel_grows | apply complete_grows | apply setPanelState_grows
    | with_reducible apply Grows.ite
    | simp only [Grows.update_iff]
    | dsimp only

theorem doTouchBaselineReload_grows {d0 d : Dev} {a0 a1} (h : Grows d0 d) : Grows d0 (doTouchBaselineReload a0 a1 d) := by
  unfold doTouchBaselineReload
  repeat' first
    | intro _
    | with_reducible assumption
    | with_reducible first | apply startDesc_grows | apply actBaseReload_grows
    | dsimp only

theorem actBaseRebase_grows {d0 d : Dev} {a0 a1 a2} (h : Grows d0 d) : Grows d0 (actBaseRebase a0 a1 a2 d) := by
  unfold actBaseRebase
  repeat' first
    | with_reducible assumption
    | with_reducible first | apply complete_grows | apply onPanel_grows
    | simp only [Grows.update_iff]
    | dsimp only

theorem doTouchBaselineRebase_grows {d0 d : Dev} {a0 a1} (h : Grows d0 d) : Grows d0 (doTouchBaselineRebase a0 a1 d) := by
  unfold doTouchBaselineRebase
  repeat' first
    | intro _
    | with_reducible assumption
    | with_reducible first | apply startDesc_grows | apply actBaseRebase_grows
    | dsimp only

theorem actBaseSave_grows {d0 d : Dev} {a0 a1 a2} (h : Grows d0 d) : Grows d0 (actBaseSave a0 a1 a2 d) := by
  unfold actBaseSave
  repeat' first
    | with_reducible assumption
    | with_reducible first | apply complete_grows | apply storeWrite_grows
    | refine Grows.count (d := d) ?_ (Nat.le_refl _) (Nat.le_refl _) (Nat.le_add_right _ _) (List.suffix_refl _)
    | with_reducible apply Grows.ite
    | with_reducible apply Grows.itePair
    | simp only [Grows.update_iff]
    | dsimp only

theorem doTouchBaselineSave_grows {d0 d : Dev} {a0 a1} (h : Grows d0 d) : Grows d0 (doTouchBaselineSave a0 a1 d) := by
  unfold doTouchBaselineSave
  repeat' first
    | intro _
    | with_reducible assumption
    | with_reducible first | apply startDesc_grows | apply actBaseSave_grows
    | dsimp only

theorem actBaseDump_grows {d0 d : Dev} {a0 a1 a2} (h : Grows d0 d) : Grows d0 (actBaseDump a0 a1 a2 d) := by
  unfold actBaseDump
  repeat' first
    | with_reducible assumption
    | with_reducible first | apply onPanel_grows
    | simp only [Grows.update_iff]
    | dsimp only

theorem doTouchBaselineDump_grows {d0 d : Dev} {a0 a1} (h : Grows d0 d) : Grows d0 (doTouchBaselineDump a0 a1 d) := by
  unfold doTouchBaselineDump
  repeat' first
    | intro _
    | with_reducible assumption
    | with_reducible first | apply startDesc_grows | apply actBaseDump_grows
    | dsimp only

theorem showTesting_grows {d0 d : Dev} (h : Grows d0 d) : Grows d0 (showTesting d) := by
  unfold showTesting
  repeat' first
    | with_reducible assumption
    | with_reducible first | apply fs_grows
    | dsimp only

theorem beginTest_grows {d0 d : Dev} {a1} (h : Grows d0 d) : Grows d0 (beginTest d a1) := by
  unfold beginTest
  repeat' first
    | intro _
    | with_reducible assumption
    | with_reducible first | apply cancelContacts_grows | apply keyEvent_grows | apply onKey_grows | apply showTesting_grows | apply setPanelState_grows | apply showPanel_grows | apply onPanel_grows
    | with_reducible apply Grows.fold
    | simp only [Grows.update_iff]
    | dsimp only

theorem actTouchTest_grows {d0 d : Dev} {a0 a1 a2} (h : Grows d0 d) : Grows d0 (actTouchTest a0 a1 a2 d) := by
  unfold actTouchTest
  repeat' first
    | with_reducible assumption
    | with_reducible first | apply beginTest_grows | apply onPanel_grows
    | with_reducible apply Grows.ite
    | simp only [Grows.update_iff]
    | dsimp only

theorem doTouchTestRef_grows {d0 d : Dev} {a0 a1} (h : Grows d0 d) : Grows d0 (doTouchTestRef a0 a1 d) := by
  unfold doTouchTestRef
  repeat' first
    | intro _
    | with_reducible assumption
    | with_reducible first | apply startDesc_grows | apply actTouchTest_grows
    | dsimp only

theorem doTouchTestOpen_grows {d0 d : Dev} {a0 a1} (h : Grows d0 d) : Grows d0 (doTouchTestOpen a0 a1 d) := by
  unfold doTouchTestOpen
  repeat' first
    | intro _
    | with_reducible assumption
    | with_reducible first | apply startDesc_grows | apply actTouchTest_grows
    | dsimp only

theorem doTouchTestShort_grows {d0 d : Dev} {a0 a1} (h : Grows d0 d) : Grows d0 (doTouchTestShort a0 a1 d) := by
  unfold doTouchTestShort
  repeat' first
    | intro _
    | with_reducible assumption
    | with_reducible first | apply startDesc_grows | apply actTouchTest_grows
    | dsimp only

theorem doTouchTestDone_grows {d0 d : Dev} {a0 a1 a2 a3} (h : Grows d0 d) : Grows d0 (doTouchTestDone a0 a1 a2 a3 d) := by
  unfold doTouchTestDone
  repeat' first
    | with_reducible assumption
    | with_reducible first | apply showTesting_grows | apply setPanelState_grows | apply onPanel_grows | apply memWritePages_grows | apply complete_grows | apply beginTest_grows
    | with_reducible apply Grows.ite
    | with_reducible apply Grows.itePair
    | simp only [Grows.update_iff]
    | dsimp only
    | split

end Sys2Proof.Machine
end

