-- ==== Sys2Proof/Laws/GrowsAudio.lean ====
section
/-! SUPPORT. No operation of Machine/Audio.lean undoes what `Grows` keeps. -/

set_option linter.unusedTactic false
set_option linter.unreachableTactic false
set_option linter.unusedSimpArgs false
set_option linter.unusedVariables false

namespace Sys2Proof.Machine

theorem onAudio_grows {d0 d : Dev} {a1} (h : Grows d0 d) : Grows d0 (onAudio d a1) := by
  unfold onAudio
  repeat' first
    | with_reducible assumption
    | simp only [Grows.update_iff]
    | dsimp only

theorem onStream_grows {d0 d : Dev} {a1 a2} (h : Grows d0 d) : Grows d0 (onStream d a1 a2) := by
  unfold onStream
  repeat' first
    | with_reducible assumption
    | with_reducible first | apply onAudio_grows
    | simp only [Grows.update_iff]
    | dsimp only

theorem setStreamState_grows {d0 d : Dev} {a1 a2} (h : Grows d0 d) : Grows d0 (setStreamState d a1 a2) := by
  unfold setStreamState
  repeat' first
    | with_reducible assumption
    | with_reducible first | apply fs_grows | apply emit_grows
    | with_reducible apply Grows.ite
    | dsimp only

theorem onRoute_grows {d0 d : Dev} {a1 a2} (h : Grows d0 d) : Grows d0 (onRoute d a1 a2) := by
  unfold onRoute
  repeat' first
    | with_reducible assumption
    | with_reducible first | apply onAudio_grows
    | simp only [Grows.update_iff]
    | dsimp only

theorem onChime_grows {d0 d : Dev} {a1 a2} (h : Grows d0 d) : Grows d0 (onChime d a1 a2) := by
  unfold onChime
  repeat' first
    | with_reducible assumption
    | with_reducible first | apply onAudio_grows
    | simp only [Grows.update_iff]
    | dsimp only

theorem auEnd_grows {d0 d : Dev} {a1 a2 a3} (h : Grows d0 d) : Grows d0 (auEnd d a1 a2 a3) := by
  unfold auEnd
  repeat' first
    | with_reducible assumption
    | with_reducible first | apply complete_grows
    | dsimp only

theorem auEnds_grows {d0 d : Dev} {a1 a2} (h : Grows d0 d) : Grows d0 (auEnds d a1 a2) := by
  unfold auEnds
  repeat' first
    | intro _
    | with_reducible assumption
    | with_reducible first | apply auEnd_grows
    | with_reducible apply Grows.fold
    | dsimp only

theorem auEvent_grows {d0 d : Dev} {a1 a2 a3 a4 a5} (h : Grows d0 d) : Grows d0 (auEvent d a1 a2 a3 a4 a5) := by
  unfold auEvent
  repeat' first
    | with_reducible assumption
    | with_reducible first | apply post_grows
    | dsimp only

theorem showDom_grows {d0 d : Dev} {a1} (h : Grows d0 d) : Grows d0 (showDom d a1) := by
  unfold showDom
  repeat' first
    | with_reducible assumption
    | with_reducible first | apply takeFree_grows | apply fs_grows
    | with_reducible apply Grows.ite
    | with_reducible apply Grows.itePair
    | dsimp only

theorem showChimes_grows {d0 d : Dev} (h : Grows d0 d) : Grows d0 (showChimes d) := by
  unfold showChimes
  repeat' first
    | intro _
    | with_reducible assumption
    | with_reducible first | apply fs_grows | apply emit_grows | apply auEvent_grows
    | with_reducible apply Grows.fold
    | dsimp only

theorem showPort_grows {d0 d : Dev} {a1} (h : Grows d0 d) : Grows d0 (showPort d a1) := by
  unfold showPort
  repeat' first
    | with_reducible assumption
    | with_reducible first | apply fs_grows | apply emit_grows
    | with_reducible apply Grows.ite
    | dsimp only

theorem showScale_grows {d0 d : Dev} {a1 a2} (h : Grows d0 d) : Grows d0 (showScale d a1 a2) := by
  unfold showScale
  repeat' first
    | with_reducible assumption
    | with_reducible first | apply fs_grows | apply emit_grows
    | with_reducible apply Grows.ite
    | dsimp only

theorem showAudio_grows {d0 d : Dev} (h : Grows d0 d) : Grows d0 (showAudio d) := by
  unfold showAudio
  repeat' first
    | intro _
    | with_reducible assumption
    | with_reducible first | apply showDom_grows | apply showPort_grows | apply showChimes_grows | apply showScale_grows
    | with_reducible apply Grows.fold
    | dsimp only

theorem doClockLoss_grows {d0 d : Dev} {a0} (h : Grows d0 d) : Grows d0 (doClockLoss a0 d) := by
  unfold doClockLoss
  repeat' first
    | with_reducible assumption
    | with_reducible first | apply bump_grows | apply fs_grows | apply bridgeRamp_grows | apply showAudio_grows | apply auEvent_grows
    | with_reducible apply Grows.ite
    | dsimp only

theorem doPortFrameError_grows {d0 d : Dev} {a0} (h : Grows d0 d) : Grows d0 (doPortFrameError a0 d) := by
  unfold doPortFrameError
  repeat' first
    | with_reducible assumption
    | with_reducible first | apply bump_grows
    | with_reducible apply Grows.ite
    | dsimp only

theorem auDomWrite_grows {d0 d : Dev} {a0 a1 a2} (h : Grows d0 d) : Grows d0 (auDomWrite a0 a1 a2 d) := by
  unfold auDomWrite
  repeat' first
    | with_reducible assumption
    | with_reducible first | apply guardWrite_grows | apply showAudio_grows | apply fs_grows
    | with_reducible apply Grows.ite
    | with_reducible apply Grows.itePair
    | dsimp only
    | split

theorem auPortWrite_grows {d0 d : Dev} {a0 a1 a2} (h : Grows d0 d) : Grows d0 (auPortWrite a0 a1 a2 d) := by
  unfold auPortWrite
  repeat' first
    | with_reducible assumption
    | with_reducible first | apply guardWrite_grows | apply showAudio_grows | apply fs_grows
    | with_reducible apply Grows.ite
    | with_reducible apply Grows.itePair
    | dsimp only
    | split

theorem auBusWrite_grows {d0 d : Dev} {a0 a1 a2} (h : Grows d0 d) : Grows d0 (auBusWrite a0 a1 a2 d) := by
  unfold auBusWrite
  repeat' first
    | with_reducible assumption
    | with_reducible first | apply showAudio_grows | apply guardWrite_grows
    | with_reducible apply Grows.ite
    | with_reducible apply Grows.itePair
    | dsimp only

theorem auBridgeWrite_grows {d0 d : Dev} {a0 a1 a2} (h : Grows d0 d) : Grows d0 (auBridgeWrite a0 a1 a2 d) := by
  unfold auBridgeWrite
  repeat' first
    | with_reducible assumption
    | with_reducible first | apply guardWrite_grows | apply showAudio_grows | apply fs_grows
    | with_reducible apply Grows.ite
    | with_reducible apply Grows.itePair
    | dsimp only
    | split

theorem bridgeRamp_grows {d0 d : Dev} {a1 a2} (h : Grows d0 d) : Grows d0 (bridgeRamp d a1 a2) := by
  unfold bridgeRamp
  exact emit_grows h

theorem doBridgeLock_grows {d0 d : Dev} {a0} (h : Grows d0 d) : Grows d0 (doBridgeLock a0 d) := by
  unfold doBridgeLock
  repeat' first
    | with_reducible assumption
    | with_reducible first | apply takeFree_grows | apply bridgeRamp_grows | apply fs_grows | apply showAudio_grows
    | with_reducible apply Grows.ite
    | with_reducible apply Grows.itePair
    | dsimp only

theorem doBridgeUnlock_grows {d0 d : Dev} {a0 a1} (h : Grows d0 d) : Grows d0 (doBridgeUnlock a0 a1 d) := by
  unfold doBridgeUnlock
  repeat' first
    | with_reducible assumption
    | with_reducible first | apply fs_grows | apply bridgeRamp_grows | apply showAudio_grows | apply auEvent_grows
    | with_reducible apply Grows.ite
    | dsimp only

theorem showGain_grows {d0 d : Dev} {a1} (h : Grows d0 d) : Grows d0 (showGain d a1) := by
  unfold showGain
  repeat' first
    | with_reducible assumption
    | with_reducible first | apply fs_grows
    | with_reducible apply Grows.ite
    | dsimp only

theorem startRamp_grows {d0 d : Dev} {a1 a2 a3 a4} (h : Grows d0 d) : Grows d0 (startRamp d a1 a2 a3 a4) := by
  unfold startRamp
  repeat' first
    | with_reducible assumption
    | with_reducible first | apply onAudio_grows | apply showGain_grows | apply auEnd_grows
    | with_reducible apply Grows.ite
    | simp only [Grows.update_iff]
    | dsimp only
    | split

theorem doGainRampEnd_grows {d0 d : Dev} {a0 a1} (h : Grows d0 d) : Grows d0 (doGainRampEnd a0 a1 d) := by
  unfold doGainRampEnd
  repeat' first
    | with_reducible assumption
    | with_reducible first | apply advance_grows | apply showGain_grows | apply onAudio_grows | apply auEnd_grows
    | with_reducible apply Grows.ite
    | simp only [Grows.update_iff]
    | dsimp only
    | split

theorem actAudioGain_grows {d0 d : Dev} {a0 a1 a2} (h : Grows d0 d) : Grows d0 (actAudioGain a0 a1 a2 d) := by
  unfold actAudioGain
  repeat' first
    | with_reducible assumption
    | with_reducible first | apply startRamp_grows | apply wr_grows
    | with_reducible apply Grows.ite
    | dsimp only

theorem doAudioGain_grows {d0 d : Dev} {a0 a1} (h : Grows d0 d) : Grows d0 (doAudioGain a0 a1 d) := by
  unfold doAudioGain
  repeat' first
    | intro _
    | with_reducible assumption
    | with_reducible first | apply startDesc_grows | apply actAudioGain_grows
    | dsimp only

theorem eqMove_grows {d0 d : Dev} {a1 a2 a3} (h : Grows d0 d) : Grows d0 (eqMove d a1 a2 a3) := by
  unfold eqMove
  repeat' first
    | with_reducible assumption
    | with_reducible first | apply onAudio_grows
    | simp only [Grows.update_iff]
    | dsimp only

theorem doEqSectionMove_grows {d0 d : Dev} {a0 a1 a2 a3} (h : Grows d0 d) : Grows d0 (doEqSectionMove a0 a1 a2 a3 d) := by
  unfold doEqSectionMove
  repeat' first
    | with_reducible assumption
    | with_reducible first | apply regWrite_grows | apply eqMove_grows
    | dsimp only
    | split

theorem actAudioCoef_grows {d0 d : Dev} {a0 a1 a2} (h : Grows d0 d) : Grows d0 (actAudioCoef a0 a1 a2 d) := by
  unfold actAudioCoef
  repeat' first
    | intro _
    | with_reducible assumption
    | with_reducible first | apply memRead_grows | apply complete_grows | apply eqMove_grows | apply wrs_grows
    | with_reducible apply Grows.fold
    | simp only [Grows.update_iff]
    | dsimp only
    | split

theorem doAudioCoef_grows {d0 d : Dev} {a0 a1 a2} (h : Grows d0 d) : Grows d0 (doAudioCoef a0 a1 a2 d) := by
  unfold doAudioCoef
  repeat' first
    | intro _
    | with_reducible assumption
    | with_reducible first | apply startDesc_grows | apply actAudioCoef_grows
    | dsimp only

theorem actAudioRoute_grows {d0 d : Dev} {a0 a1 a2} (h : Grows d0 d) : Grows d0 (actAudioRoute a0 a1 a2 d) := by
  unfold actAudioRoute
  repeat' first
    | with_reducible assumption
    | with_reducible first | apply acceptCommit_grows
    | dsimp only

theorem doAudioRoute_grows {d0 d : Dev} {a0 a1} (h : Grows d0 d) : Grows d0 (doAudioRoute a0 a1 d) := by
  unfold doAudioRoute
  repeat' first
    | intro _
    | with_reducible assumption
    | with_reducible first | apply startDesc_grows | apply actAudioRoute_grows
    | dsimp only

theorem routeLand_grows {d0 d : Dev} {a1 a2} (h : Grows d0 d) : Grows d0 (routeLand d a1 a2) := by
  unfold routeLand
  repeat' first
    | with_reducible assumption
    | with_reducible first | apply onRoute_grows
    | simp only [Grows.update_iff]
    | dsimp only

theorem showRoute_grows {d0 d : Dev} {a1 a2} (h : Grows d0 d) : Grows d0 (showRoute d a1 a2) := by
  unfold showRoute
  repeat' first
    | with_reducible assumption
    | with_reducible first | apply fs_grows
    | dsimp only

theorem applyRoute_grows {d0 d : Dev} {a1 a2} (h : Grows d0 d) : Grows d0 (applyRoute d a1 a2) := by
  unfold applyRoute
  repeat' first
    | with_reducible assumption
    | with_reducible first | apply wrs_grows | apply onAudio_grows | apply onRoute_grows | apply auEnd_grows | apply showRoute_grows | apply emit_grows | apply startRamp_grows
    | with_reducible apply Grows.ite
    | simp only [Grows.update_iff]
    | dsimp only
    | split

theorem doRouteTableChange_grows {d0 d : Dev} {a0} (h : Grows d0 d) : Grows d0 (doRouteTableChange a0 d) := by
  unfold doRouteTableChange
  repeat' first
    | intro _
    | with_reducible assumption
    | with_reducible first | apply showAudio_grows | apply onRoute_grows | apply showRoute_grows | apply applyRoute_grows
    | with_reducible apply Grows.ite
    | with_reducible apply Grows.fold
    | simp only [Grows.update_iff]
    | dsimp only

theorem endFade_grows {d0 d : Dev} {a1} (h : Grows d0 d) : Grows d0 (endFade d a1) := by
  unfold endFade
  repeat' first
    | with_reducible assumption
    | with_reducible first | apply onRoute_grows | apply showRoute_grows | apply applyRoute_grows
    | with_reducible apply Grows.ite
    | simp only [Grows.update_iff]
    | dsimp only

theorem doCrossfadeEnd_grows {d0 d : Dev} {a0} (h : Grows d0 d) : Grows d0 (doCrossfadeEnd a0 d) := by
  unfold doCrossfadeEnd
  repeat' first
    | with_reducible assumption
    | with_reducible first | apply showAudio_grows | apply endFade_grows | apply advance_grows
    | with_reducible apply Grows.ite
    | dsimp only

theorem giveStream_grows {d0 d : Dev} {a1} (h : Grows d0 d) : Grows d0 (giveStream d a1) := by
  unfold giveStream
  repeat' first
    | with_reducible assumption
    | with_reducible first | apply fs_grows | apply onStream_grows | apply skGive_grows
    | simp only [Grows.update_iff]
    | dsimp only

theorem stopStream_grows {d0 d : Dev} {a1} (h : Grows d0 d) : Grows d0 (stopStream d a1) := by
  unfold stopStream
  repeat' first
    | with_reducible assumption
    | with_reducible first | apply giveStream_grows | apply setStreamState_grows | apply onStream_grows | apply showAudio_grows | apply auEnds_grows
    | simp only [Grows.update_iff]
    | dsimp only

theorem rampDown_grows {d0 d : Dev} {a1} (h : Grows d0 d) : Grows d0 (rampDown d a1) := by
  unfold rampDown
  repeat' first
    | with_reducible assumption
    | with_reducible first | apply showAudio_grows | apply setStreamState_grows | apply onStream_grows
    | simp only [Grows.update_iff]
    | dsimp only

theorem faultStream_grows {d0 d : Dev} {a1 a2} (h : Grows d0 d) : Grows d0 (faultStream d a1 a2) := by
  unfold faultStream
  repeat' first
    | with_reducible assumption
    | with_reducible first | apply onStream_grows | apply auEvent_grows | apply auEnds_grows | apply rampDown_grows
    | with_reducible apply Grows.ite
    | simp only [Grows.update_iff]
    | dsimp only

theorem doStreamFault_grows {d0 d : Dev} {a0 a1} (h : Grows d0 d) : Grows d0 (doStreamFault a0 a1 d) := by
  unfold doStreamFault
  repeat' first
    | with_reducible assumption
    | with_reducible first | apply faultStream_grows
    | dsimp only
    | split

theorem doRampDownEnd_grows {d0 d : Dev} {a0} (h : Grows d0 d) : Grows d0 (doRampDownEnd a0 d) := by
  unfold doRampDownEnd
  repeat' first
    | with_reducible assumption
    | with_reducible first | apply stopStream_grows | apply advance_grows
    | with_reducible apply Grows.ite
    | dsimp only

theorem readAppl_grows {d0 d : Dev} {a1 a2} (h : Grows d0 d) : Grows d0 (readAppl d a1 a2).1 := by
  unfold readAppl
  repeat' first
    | with_reducible assumption
    | with_reducible first | apply memRead_grows | apply onStream_grows | apply faultStream_grows
    | simp only [Grows.update_iff]
    | dsimp only
    | split

theorem capture_grows {d0 d : Dev} {a1 a2} (h : Grows d0 d) : Grows d0 (capture d a1 a2).1 := by
  unfold capture
  repeat' first
    | with_reducible assumption
    | with_reducible first | apply memFree_grows
    | with_reducible apply Grows.ite
    | with_reducible apply Grows.itePair
    | dsimp only

theorem crossFrames_grows {d0 d : Dev} {a1 a2 a3} (h : Grows d0 d) : Grows d0 (crossFrames d a1 a2 a3) := by
  unfold crossFrames
  repeat' first
    | with_reducible assumption
    | with_reducible first | apply capture_grows | apply onStream_grows | apply count_grows | apply faultStream_grows | apply memWrite_grows
    | with_reducible apply Grows.ite
    | with_reducible apply Grows.itePair
    | simp only [Grows.update_iff]
    | dsimp only

theorem doStreamPeriod_grows {d0 d : Dev} {a0 a1} (h : Grows d0 d) : Grows d0 (doStreamPeriod a0 a1 d) := by
  unfold doStreamPeriod
  repeat' first
    | with_reducible assumption
    | with_reducible first | apply readAppl_grows | apply crossFrames_grows | apply onStream_grows | apply linkSend_grows | apply stopStream_grows
    | with_reducible apply Grows.ite
    | with_reducible apply Grows.itePair
    | simp only [Grows.update_iff]
    | dsimp only
    | split

theorem doStreamUnderrun_grows {d0 d : Dev} {a0} (h : Grows d0 d) : Grows d0 (doStreamUnderrun a0 d) := by
  unfold doStreamUnderrun
  repeat' first
    | with_reducible assumption
    | with_reducible first | apply bump_grows | apply setStreamState_grows | apply crossFrames_grows | apply showAudio_grows | apply auEvent_grows
    | with_reducible apply Grows.ite
    | dsimp only

theorem doStreamRefill_grows {d0 d : Dev} {a0 a1} (h : Grows d0 d) : Grows d0 (doStreamRefill a0 a1 d) := by
  unfold doStreamRefill
  repeat' first
    | with_reducible assumption
    | with_reducible first | apply readAppl_grows | apply showAudio_grows | apply setStreamState_grows
    | with_reducible apply Grows.ite
    | with_reducible apply Grows.itePair
    | dsimp only
    | split

theorem doStreamOverrun_grows {d0 d : Dev} {a0} (h : Grows d0 d) : Grows d0 (doStreamOverrun a0 d) := by
  unfold doStreamOverrun
  repeat' first
    | with_reducible assumption
    | with_reducible first | apply crossFrames_grows | apply auEvent_grows | apply bump_grows | apply onStream_grows
    | with_reducible apply Grows.ite
    | simp only [Grows.update_iff]
    | dsimp only

theorem actStreamConfig_grows {d0 d : Dev} {a0 a1 a2} (h : Grows d0 d) : Grows d0 (actStreamConfig a0 a1 a2 d) := by
  unfold actStreamConfig
  repeat' first
    | with_reducible assumption
    | with_reducible first | apply onStream_grows | apply complete_grows | apply fs_grows
    | simp only [Grows.update_iff]
    | dsimp only

theorem doAudioStreamConfig_grows {d0 d : Dev} {a0 a1} (h : Grows d0 d) : Grows d0 (doAudioStreamConfig a0 a1 d) := by
  unfold doAudioStreamConfig
  repeat' first
    | intro _
    | with_reducible assumption
    | with_reducible first | apply startDesc_grows | apply actStreamConfig_grows
    | dsimp only

theorem actStreamStart_grows {d0 d : Dev} {a0 a1 a2} (h : Grows d0 d) : Grows d0 (actStreamStart a0 a1 a2 d) := by
  unfold actStreamStart
  repeat' first
    | with_reducible assumption
    | with_reducible first | apply complete_grows | apply onStream_grows | apply skTakeHigh_grows | apply showAudio_grows | apply setStreamState_grows | apply fs_grows
    | with_reducible apply Grows.ite
    | simp only [Grows.update_iff]
    | dsimp only

theorem doAudioStreamStart_grows {d0 d : Dev} {a0 a1} (h : Grows d0 d) : Grows d0 (doAudioStreamStart a0 a1 d) := by
  unfold doAudioStreamStart
  repeat' first
    | intro _
    | with_reducible assumption
    | with_reducible first | apply startDesc_grows | apply actStreamStart_grows
    | dsimp only

theorem actStreamStop_grows {d0 d : Dev} {a0 a1 a2} (h : Grows d0 d) : Grows d0 (actStreamStop a0 a1 a2 d) := by
  unfold actStreamStop
  repeat' first
    | with_reducible assumption
    | with_reducible first | apply complete_grows | apply onStream_grows | apply rampDown_grows
    | with_reducible apply Grows.ite
    | simp only [Grows.update_iff]
    | dsimp only

theorem doAudioStreamStop_grows {d0 d : Dev} {a0 a1} (h : Grows d0 d) : Grows d0 (doAudioStreamStop a0 a1 d) := by
  unfold doAudioStreamStop
  repeat' first
    | intro _
    | with_reducible assumption
    | with_reducible first | apply startDesc_grows | apply actStreamStop_grows
    | dsimp only

theorem actStreamDrain_grows {d0 d : Dev} {a0 a1 a2} (h : Grows d0 d) : Grows d0 (actStreamDrain a0 a1 a2 d) := by
  unfold actStreamDrain
  repeat' first
    | with_reducible assumption
    | with_reducible first | apply complete_grows | apply onStream_grows | apply stopStream_grows
    | with_reducible apply Grows.ite
    | simp only [Grows.update_iff]
    | dsimp only

theorem doAudioStreamDrain_grows {d0 d : Dev} {a0 a1} (h : Grows d0 d) : Grows d0 (doAudioStreamDrain a0 a1 d) := by
  unfold doAudioStreamDrain
  repeat' first
    | intro _
    | with_reducible assumption
    | with_reducible first | apply startDesc_grows | apply actStreamDrain_grows
    | dsimp only

theorem tellDuck_grows {e d0 d : Dev} {a1} (h : Grows d0 d) : Grows d0 (tellDuck e d a1) := by
  unfold tellDuck
  repeat' first
    | intro _
    | with_reducible assumption
    | with_reducible first | apply emit_grows
    | with_reducible apply Grows.fold
    | dsimp only

theorem endChime_grows {d0 d : Dev} {a1} (h : Grows d0 d) : Grows d0 (endChime d a1) := by
  unfold endChime
  repeat' first
    | with_reducible assumption
    | with_reducible first | apply showChimes_grows | apply tellDuck_grows | apply onChime_grows | apply emit_grows | apply auEnd_grows
    | with_reducible apply Grows.ite
    | dsimp only
    | split

theorem startChime_grows {d0 d : Dev} {a1 a2 a3} (h : Grows d0 d) : Grows d0 (startChime d a1 a2 a3) := by
  unfold startChime
  repeat' first
    | with_reducible assumption
    | with_reducible first | apply endChime_grows | apply showChimes_grows | apply tellDuck_grows | apply onChime_grows | apply emit_grows
    | dsimp only

theorem doChimeEnd_grows {d0 d : Dev} {a0} (h : Grows d0 d) : Grows d0 (doChimeEnd a0 d) := by
  unfold doChimeEnd
  repeat' first
    | with_reducible assumption
    | with_reducible first | apply endChime_grows | apply advance_grows
    | with_reducible apply Grows.ite
    | dsimp only

theorem chimeWrite_grows {d0 d : Dev} {a0 a1 a2 a3} (h : Grows d0 d) : Grows d0 (chimeWrite a0 a1 a2 a3 d) := by
  unfold chimeWrite
  repeat' first
    | with_reducible assumption
    | with_reducible first | apply guardWrite_grows | apply startChime_grows | apply endChime_grows
    | with_reducible apply Grows.ite
    | with_reducible apply Grows.itePair
    | dsimp only
    | split

theorem doSafetyChimeStart_grows {d0 d : Dev} {a0 a1 a2} (h : Grows d0 d) : Grows d0 (doSafetyChimeStart a0 a1 a2 d) := by
  unfold doSafetyChimeStart
  repeat' first
    | with_reducible assumption
    | with_reducible first | apply chimeWrite_grows
    | dsimp only

theorem doSafetyChimeStop_grows {d0 d : Dev} {a0 a1 a2} (h : Grows d0 d) : Grows d0 (doSafetyChimeStop a0 a1 a2 d) := by
  unfold doSafetyChimeStop
  repeat' first
    | with_reducible assumption
    | with_reducible first | apply chimeWrite_grows
    | dsimp only

theorem actChimeStart_grows {d0 d : Dev} {a0 a1 a2} (h : Grows d0 d) : Grows d0 (actChimeStart a0 a1 a2 d) := by
  unfold actChimeStart
  repeat' first
    | with_reducible assumption
    | with_reducible first | apply startChime_grows | apply wrs_grows
    | dsimp only

theorem doAudioChimeStart_grows {d0 d : Dev} {a0 a1} (h : Grows d0 d) : Grows d0 (doAudioChimeStart a0 a1 d) := by
  unfold doAudioChimeStart
  repeat' first
    | intro _
    | with_reducible assumption
    | with_reducible first | apply startDesc_grows | apply actChimeStart_grows
    | dsimp only

theorem actChimeStop_grows {d0 d : Dev} {a0 a1 a2} (h : Grows d0 d) : Grows d0 (actChimeStop a0 a1 a2 d) := by
  unfold actChimeStop
  repeat' first
    | with_reducible assumption
    | with_reducible first | apply complete_grows | apply endChime_grows
    | dsimp only

theorem doAudioChimeStop_grows {d0 d : Dev} {a0 a1} (h : Grows d0 d) : Grows d0 (doAudioChimeStop a0 a1 d) := by
  unfold doAudioChimeStop
  repeat' first
    | intro _
    | with_reducible assumption
    | with_reducible first | apply startDesc_grows | apply actChimeStop_grows
    | dsimp only

theorem dropStream_grows {d0 d : Dev} {a1} (h : Grows d0 d) : Grows d0 (dropStream d a1) := by
  unfold dropStream
  repeat' first
    | with_reducible assumption
    | with_reducible first | apply onStream_grows | apply rampDown_grows
    | with_reducible apply Grows.ite
    | simp only [Grows.update_iff]
    | dsimp only

theorem audioDepart_grows {d0 d : Dev} {a1} (h : Grows d0 d) : Grows d0 (audioDepart d a1) := by
  unfold audioDepart
  repeat' first
    | intro _
    | with_reducible assumption
    | with_reducible first | apply fs_grows | apply dropStream_grows
    | with_reducible apply Grows.fold
    | dsimp only

theorem pauseStreams_grows {d0 d : Dev} {a1} (h : Grows d0 d) : Grows d0 (pauseStreams d a1) := by
  unfold pauseStreams
  repeat' first
    | intro _
    | with_reducible assumption
    | with_reducible first | apply showAudio_grows | apply setStreamState_grows
    | with_reducible apply Grows.ite
    | with_reducible apply Grows.fold
    | dsimp only

theorem resumeStreams_grows {d0 d : Dev} {a1} (h : Grows d0 d) : Grows d0 (resumeStreams d a1) := by
  unfold resumeStreams
  repeat' first
    | intro _
    | with_reducible assumption
    | with_reducible first | apply showAudio_grows | apply setStreamState_grows
    | with_reducible apply Grows.ite
    | with_reducible apply Grows.fold
    | dsimp only

theorem audioSection_grows {d0 d : Dev} (h : Grows d0 d) : Grows d0 (audioSection d) := by
  unfold audioSection
  repeat' first
    | intro _
    | with_reducible assumption
    | with_reducible first | apply tellDuck_grows | apply onStream_grows | apply auEnds_grows | apply rampDown_grows | apply endFade_grows | apply onChime_grows | apply onAudio_grows | apply showGain_grows
    | with_reducible apply Grows.ite
    | with_reducible apply Grows.itePair
    | with_reducible apply Grows.fold
    | simp only [Grows.update_iff]
    | dsimp only

theorem showStreams_grows {d0 d : Dev} (h : Grows d0 d) : Grows d0 (showStreams d) := by
  unfold showStreams
  repeat' first
    | intro _
    | with_reducible assumption
    | with_reducible first | apply fs_grows | apply setStreamState_grows
    | with_reducible apply Grows.ite
    | with_reducible apply Grows.fold
    | dsimp only

theorem audioDown_grows {d0 d : Dev} (h : Grows d0 d) : Grows d0 (audioDown d) := by
  unfold audioDown
  repeat' first
    | intro _
    | with_reducible assumption
    | with_reducible first | apply giveStream_grows | apply audioSection_grows | apply onAudio_grows
    | with_reducible apply Grows.fold
    | simp only [Grows.update_iff]
    | dsimp only

theorem audioReturn_grows {d0 d : Dev} (h : Grows d0 d) : Grows d0 (audioReturn d) := by
  unfold audioReturn
  repeat' first
    | with_reducible assumption
    | with_reducible first | apply showAudio_grows
    | dsimp only

end Sys2Proof.Machine
end

