-- ==== Sys2Proof/Laws/GrowsBellsTokens.lean ====
section
/-! SUPPORT. No operation of Machine/BellsTokens.lean undoes what `Grows` keeps. -/

set_option linter.unusedTactic false
set_option linter.unreachableTactic false
set_option linter.unusedSimpArgs false
set_option linter.unusedVariables false

namespace Sys2Proof.Machine

theorem onBell_grows {d0 d : Dev} {a1 a2} (h : Grows d0 d) : Grows d0 (onBell d a1 a2) := by
  unfold onBell
  repeat' first
    | with_reducible assumption
    | simp only [Grows.update_iff]
    | dsimp only

theorem showBells_grows {d0 d : Dev} (h : Grows d0 d) : Grows d0 (showBells d) := by
  unfold showBells
  repeat' first
    | with_reducible assumption
    | with_reducible first | apply fs_grows
    | dsimp only

theorem setDoorbells_grows {d0 d : Dev} {a1 a2 a3} (h : Grows d0 d) : Grows d0 (setDoorbells d a1 a2 a3) := by
  unfold setDoorbells
  repeat' first
    | intro _
    | with_reducible assumption
    | with_reducible first | apply post_grows | apply emit_grows
    | with_reducible apply Grows.ite
    | with_reducible apply Grows.fold
    | simp only [Grows.update_iff]
    | dsimp only

theorem ring_grows {d0 d : Dev} {a1 a2} (h : Grows d0 d) : Grows d0 (ring d a1 a2) := by
  unfold ring
  repeat' first
    | with_reducible assumption
    | with_reducible first | apply setDoorbells_grows
    | dsimp only

theorem tellSender_grows {d0 d : Dev} {a1 a2 a3 a4 a5} (h : Grows d0 d) : Grows d0 (tellSender d a1 a2 a3 a4 a5) := by
  unfold tellSender
  repeat' first
    | with_reducible assumption
    | with_reducible first | apply post_grows | apply ring_grows | apply onBell_grows
    | with_reducible apply Grows.ite
    | dsimp only

theorem discardMsgs_grows {d0 d : Dev} {a1 a2} (h : Grows d0 d) : Grows d0 (discardMsgs d a1 a2) := by
  unfold discardMsgs
  repeat' first
    | with_reducible assumption
    | with_reducible first | apply showBells_grows | apply onBell_grows | apply tellSender_grows
    | with_reducible apply Grows.ite
    | simp only [Grows.update_iff]
    | dsimp only
    | split

theorem receiverReset_grows {d0 d : Dev} {a1} (h : Grows d0 d) : Grows d0 (receiverReset d a1) := by
  unfold receiverReset
  repeat' first
    | with_reducible assumption
    | with_reducible first | apply discardMsgs_grows | apply onBell_grows | apply setDoorbells_grows
    | simp only [Grows.update_iff]
    | dsimp only

theorem senderReset_grows {d0 d : Dev} {a1} (h : Grows d0 d) : Grows d0 (senderReset d a1) := by
  unfold senderReset
  repeat' first
    | with_reducible assumption
    | with_reducible first | apply onBell_grows
    | simp only [Grows.update_iff]
    | dsimp only

theorem enableBell_grows {d0 d : Dev} {a1} (h : Grows d0 d) : Grows d0 (enableBell d a1) := by
  unfold enableBell
  repeat' first
    | with_reducible assumption
    | with_reducible first | apply onBell_grows | apply skTakeHigh_grows
    | simp only [Grows.update_iff]
    | dsimp only

theorem doBellBindWrite_grows {d0 d : Dev} {a0 a1 a2} (h : Grows d0 d) : Grows d0 (doBellBindWrite a0 a1 a2 d) := by
  unfold doBellBindWrite
  repeat' first
    | with_reducible assumption
    | with_reducible first | apply guardWrite_grows | apply enableBell_grows | apply skGive_grows | apply receiverReset_grows
    | with_reducible apply Grows.ite
    | with_reducible apply Grows.itePair
    | dsimp only
    | split

theorem bellServed_grows {d0 d : Dev} {a1} (h : Grows d0 d) : Grows d0 (bellServed d a1).1 := by
  unfold bellServed
  repeat' first
    | with_reducible assumption
    | with_reducible first | apply startWake_grows
    | with_reducible apply Grows.ite
    | with_reducible apply Grows.itePair
    | dsimp only

theorem bellDown_grows {d0 d : Dev} {a1} (h : Grows d0 d) : Grows d0 (bellDown d a1) := by
  unfold bellDown
  repeat' first
    | with_reducible assumption
    | with_reducible first | apply emit_grows
    | dsimp only

theorem viewWrite_grows {d0 d : Dev} {a0 a1 a2 a3 a4} (h : Grows d0 d) : Grows d0 (viewWrite a0 a1 a2 a3 a4 d).1 := by
  unfold viewWrite
  repeat' first
    | with_reducible assumption
    | with_reducible first | apply bellServed_grows | apply bellDown_grows | apply logErr_grows
    | with_reducible apply Grows.ite
    | with_reducible apply Grows.itePair
    | dsimp only

theorem bellStage_grows {d0 d : Dev} {a0 a1 a2 a3} (h : Grows d0 d) : Grows d0 (bellStage a0 a1 a2 a3 d) := by
  unfold bellStage
  repeat' first
    | with_reducible assumption
    | with_reducible first | apply viewWrite_grows | apply onBell_grows
    | with_reducible apply Grows.ite
    | with_reducible apply Grows.itePair
    | simp only [Grows.update_iff]
    | dsimp only

theorem queueMsg_grows {d0 d : Dev} {a1 a2} (h : Grows d0 d) : Grows d0 (queueMsg d a1 a2) := by
  unfold queueMsg
  repeat' first
    | with_reducible assumption
    | with_reducible first | apply onBell_grows | apply count_grows | apply showBells_grows | apply ring_grows
    | with_reducible apply Grows.ite
    | simp only [Grows.update_iff]
    | dsimp only

theorem refusePost_grows {d0 d : Dev} {a1 a2 a3} (h : Grows d0 d) : Grows d0 (refusePost d a1 a2 a3) := by
  unfold refusePost
  repeat' first
    | with_reducible assumption
    | with_reducible first | apply bump_grows | apply onBell_grows | apply emit_grows
    | with_reducible apply Grows.ite
    | simp only [Grows.update_iff]
    | dsimp only

theorem doBellPost_grows {d0 d : Dev} {a0 a1 a2} (h : Grows d0 d) : Grows d0 (doBellPost a0 a1 a2 d) := by
  unfold doBellPost
  repeat' first
    | with_reducible assumption
    | with_reducible first | apply viewWrite_grows | apply queueMsg_grows | apply refusePost_grows
    | with_reducible apply Grows.ite
    | with_reducible apply Grows.itePair
    | dsimp only

theorem doBellPop_grows {d0 d : Dev} {a0 a1 a2} (h : Grows d0 d) : Grows d0 (doBellPop a0 a1 a2 d) := by
  unfold doBellPop
  repeat' first
    | with_reducible assumption
    | with_reducible first | apply viewWrite_grows | apply onBell_grows | apply tellSender_grows
    | with_reducible apply Grows.ite
    | with_reducible apply Grows.itePair
    | simp only [Grows.update_iff]
    | dsimp only
    | split

theorem dbWrite_grows {d0 d : Dev} {a0 a1 a2} (h : Grows d0 d) : Grows d0 (dbWrite a0 a1 a2 d).1 := by
  unfold dbWrite
  repeat' first
    | with_reducible assumption
    | with_reducible first | apply bellServed_grows | apply bellDown_grows | apply logErr_grows
    | with_reducible apply Grows.ite
    | with_reducible apply Grows.itePair
    | dsimp only

theorem doDoorbellClear_grows {d0 d : Dev} {a0 a1} (h : Grows d0 d) : Grows d0 (doDoorbellClear a0 a1 d) := by
  unfold doDoorbellClear
  repeat' first
    | with_reducible assumption
    | with_reducible first | apply dbWrite_grows | apply setDoorbells_grows
    | with_reducible apply Grows.ite
    | with_reducible apply Grows.itePair
    | dsimp only

theorem doDoorbellMaskWrite_grows {d0 d : Dev} {a0 a1} (h : Grows d0 d) : Grows d0 (doDoorbellMaskWrite a0 a1 d) := by
  unfold doDoorbellMaskWrite
  repeat' first
    | with_reducible assumption
    | with_reducible first | apply dbWrite_grows | apply setDoorbells_grows
    | with_reducible apply Grows.ite
    | with_reducible apply Grows.itePair
    | dsimp only

theorem bellWake_grows {d0 d : Dev} {a1} (h : Grows d0 d) : Grows d0 (bellWake d a1) := by
  unfold bellWake
  repeat' first
    | intro _
    | with_reducible assumption
    | with_reducible first | apply showBells_grows | apply ring_grows | apply onBell_grows
    | with_reducible apply Grows.ite
    | with_reducible apply Grows.fold
    | simp only [Grows.update_iff]
    | dsimp only

theorem showToks_grows {d0 d : Dev} (h : Grows d0 d) : Grows d0 (showToks d) := by
  unfold showToks
  repeat' first
    | with_reducible assumption
    | with_reducible first | apply fs_grows
    | dsimp only

theorem onTok_grows {d0 d : Dev} {a1 a2} (h : Grows d0 d) : Grows d0 (onTok d a1 a2) := by
  unfold onTok
  repeat' first
    | with_reducible assumption
    | with_reducible first | apply showToks_grows
    | simp only [Grows.update_iff]
    | dsimp only

theorem setBroken_grows {d0 d : Dev} {a1 a2} (h : Grows d0 d) : Grows d0 (setBroken d a1 a2) := by
  unfold setBroken
  repeat' first
    | with_reducible assumption
    | with_reducible first | apply fs_grows
    | dsimp only

theorem tokenRead_grows {d0 d : Dev} {a0 a2} (h : Grows d0 d) : Grows d0 (tokenRead a0 d a2) := by
  unfold tokenRead
  repeat' first
    | with_reducible assumption
    | with_reducible first | apply emit_grows | apply logErr_grows | apply bump_grows | apply onTok_grows
    | with_reducible apply Grows.ite
    | simp only [Grows.update_iff]
    | dsimp only
    | split

theorem doTokenAcquire_grows {d0 d : Dev} {a0 a1} (h : Grows d0 d) : Grows d0 (doTokenAcquire a0 a1 d) := by
  unfold doTokenAcquire
  repeat' first
    | intro _
    | with_reducible assumption
    | with_reducible first | apply bellServed_grows | apply bellDown_grows | apply onTok_grows | apply bump_grows | apply tokenRead_grows
    | with_reducible apply Grows.ite
    | with_reducible apply Grows.itePair
    | with_reducible apply Grows.fold
    | simp only [Grows.update_iff]
    | dsimp only
    | split

theorem doTokenRelease_grows {d0 d : Dev} {a0 a1 a2} (h : Grows d0 d) : Grows d0 (doTokenRelease a0 a1 a2 d) := by
  unfold doTokenRelease
  repeat' first
    | with_reducible assumption
    | with_reducible first | apply dbWrite_grows | apply setBroken_grows | apply onTok_grows | apply bump_grows
    | with_reducible apply Grows.ite
    | with_reducible apply Grows.itePair
    | simp only [Grows.update_iff]
    | dsimp only

theorem breakTokens_grows {d0 d : Dev} {a1} (h : Grows d0 d) : Grows d0 (breakTokens d a1) := by
  unfold breakTokens
  repeat' first
    | intro _
    | with_reducible assumption
    | with_reducible first | apply post_grows | apply setBroken_grows | apply onTok_grows
    | with_reducible apply Grows.fold
    | simp only [Grows.update_iff]
    | dsimp only

theorem bellFnReset_grows {d0 d : Dev} {a1} (h : Grows d0 d) : Grows d0 (bellFnReset d a1) := by
  unfold bellFnReset
  repeat' first
    | intro _
    | with_reducible assumption
    | with_reducible first | apply receiverReset_grows | apply senderReset_grows | apply setDoorbells_grows
    | with_reducible apply Grows.fold
    | dsimp only

theorem bellWarm_grows {d0 d : Dev} (h : Grows d0 d) : Grows d0 (bellWarm d) := by
  unfold bellWarm
  repeat' first
    | with_reducible assumption
    | simp only [Grows.update_iff]
    | dsimp only

theorem bellNap_grows {d0 d : Dev} (h : Grows d0 d) : Grows d0 (bellNap d) := by
  unfold bellNap
  repeat' first
    | with_reducible assumption
    | simp only [Grows.update_iff]
    | dsimp only

theorem bellTrip_grows {d0 d : Dev} (h : Grows d0 d) : Grows d0 (bellTrip d) := by
  unfold bellTrip
  repeat' first
    | intro _
    | with_reducible assumption
    | with_reducible first | apply onBell_grows | apply discardMsgs_grows | apply setBroken_grows | apply onTok_grows | apply bellNap_grows
    | with_reducible apply Grows.fold
    | simp only [Grows.update_iff]
    | dsimp only

end Sys2Proof.Machine
end

