-- ==== Sys2Proof/Laws/GrowsFormation.lean ====
section
/-! SUPPORT. No operation of Machine/Formation.lean undoes what `Grows` keeps. -/

set_option linter.unusedTactic false
set_option linter.unreachableTactic false
set_option linter.unusedSimpArgs false
set_option linter.unusedVariables false

namespace Sys2Proof.Machine

theorem restore_grows {d0 d : Dev} {t keep} (h : Grows d0 d) : Grows d0 (restore d t keep) :=
  ⟨h.dt, h.commits, h.free, h.out, h.heritage, h.seat, h.boot, h.units, fun hr => h.ram hr,
    fun hr => regsOk_filter d (fun k => keep k || !restores t k) (h.regs hr)⟩

theorem addCause_grows {d0 d : Dev} {a1 a2 a3} (h : Grows d0 d) : Grows d0 (addCause d a1 a2 a3) := by
  unfold addCause
  repeat' first
    | with_reducible assumption
    | with_reducible first | apply count_grows
    | simp only [Grows.update_iff]
    | dsimp only

theorem showFormation_grows {d0 d : Dev} (h : Grows d0 d) : Grows d0 (showFormation d) := by
  unfold showFormation
  repeat' first
    | with_reducible assumption
    | with_reducible first | apply fs_grows
    | with_reducible apply Grows.ite
    | dsimp only

theorem showMedia_grows {d0 d : Dev} {a0} (h : Grows d0 d) : Grows d0 (showMedia a0 d) := by
  unfold showMedia
  repeat' first
    | with_reducible assumption
    | with_reducible first | apply emit_grows
    | with_reducible apply Grows.ite
    | dsimp only

theorem setDh_grows {d0 d : Dev} {a1} (h : Grows d0 d) : Grows d0 (setDh d a1) := by
  unfold setDh
  repeat' first
    | with_reducible assumption
    | with_reducible first | apply showMedia_grows | apply showFormation_grows | apply fs_grows
    | dsimp only

theorem setRole_grows {d0 d : Dev} {a1} (h : Grows d0 d) : Grows d0 (setRole d a1) := by
  unfold setRole
  repeat' first
    | with_reducible assumption
    | with_reducible first | apply showMedia_grows | apply showFormation_grows | apply fs_grows
    | dsimp only

theorem pairEvent_grows {d0 d : Dev} {a1 a2} (h : Grows d0 d) : Grows d0 (pairEvent d a1 a2) := by
  unfold pairEvent
  repeat' first
    | with_reducible assumption
    | with_reducible first | apply post_grows
    | dsimp only

theorem setFenceOut_grows {d0 d : Dev} {a1} (h : Grows d0 d) : Grows d0 (setFenceOut d a1) := by
  unfold setFenceOut
  repeat' first
    | with_reducible assumption
    | with_reducible first | apply emit_grows
    | with_reducible apply Grows.ite
    | simp only [Grows.update_iff]
    | dsimp only

theorem setHeartbeat_grows {d0 d : Dev} {a1} (h : Grows d0 d) : Grows d0 (setHeartbeat d a1) := by
  unfold setHeartbeat
  repeat' first
    | with_reducible assumption
    | with_reducible first | apply emit_grows
    | with_reducible apply Grows.ite
    | simp only [Grows.update_iff]
    | dsimp only

theorem endForm_grows {d0 d : Dev} {a1 a2} (h : Grows d0 d) : Grows d0 (endForm d a1 a2) := by
  unfold endForm
  repeat' first
    | with_reducible assumption
    | with_reducible first | apply complete_grows
    | simp only [Grows.update_iff]
    | dsimp only
    | split

theorem unfence_grows {d0 d : Dev} (h : Grows d0 d) : Grows d0 (unfence d) := by
  unfold unfence
  repeat' first
    | intro _
    | with_reducible assumption
    | with_reducible first | apply fs_grows | apply setPortState_grows
    | with_reducible apply Grows.fold
    | dsimp only

theorem toStandalone_grows {d0 d : Dev} (h : Grows d0 d) : Grows d0 (toStandalone d) := by
  unfold toStandalone
  repeat' first
    | intro _
    | with_reducible assumption
    | with_reducible first | apply setHeartbeat_grows | apply setFenceOut_grows | apply endForm_grows | apply setRole_grows | apply setDh_grows | apply fs_grows | apply kickRing_grows | apply unfence_grows
    | with_reducible apply Grows.ite
    | with_reducible apply Grows.itePair
    | with_reducible apply Grows.fold
    | simp only [Grows.update_iff]
    | dsimp only

theorem pairSection_grows {d0 d : Dev} (h : Grows d0 d) : Grows d0 (pairSection d) := by
  unfold pairSection
  repeat' first
    | with_reducible assumption
    | with_reducible first | apply restore_grows | apply toStandalone_grows
    | dsimp only

end Sys2Proof.Machine
end

