-- ==== Sys2Proof/Laws/GrowsPower.lean ====
section
/-! SUPPORT. No operation of Machine/Power.lean undoes what `Grows` keeps. -/

set_option linter.unusedTactic false
set_option linter.unreachableTactic false
set_option linter.unusedSimpArgs false
set_option linter.unusedVariables false

namespace Sys2Proof.Machine

theorem powerEvent_grows {d0 d : Dev} {a1 a2 a3} (h : Grows d0 d) : Grows d0 (powerEvent d a1 a2 a3) := by
  unfold powerEvent
  repeat' first
    | with_reducible assumption
    | with_reducible first | apply post_grows
    | dsimp only

theorem loseDomain_grows {d0 d : Dev} {a1 a2 a3} (h : Grows d0 d) : Grows d0 (loseDomain d a1 a2 a3) := by
  unfold loseDomain
  repeat' first
    | with_reducible assumption
    | with_reducible first | apply cutDomainWork_grows | apply preemptDomain_grows | apply bellTrip_grows | apply bellNap_grows | apply stopComparators_grows | apply ttClear_grows | apply restore_grows | apply composeClear_grows | apply portsDown_grows | apply touchSection_grows | apply audioDown_grows | apply hapDown_grows | apply pairSection_grows
    | with_reducible apply Grows.ite
    | dsimp only

theorem goDown_grows {d0 d : Dev} {a1 a2 a3} (h : Grows d0 d) : Grows d0 (goDown d a1 a2 a3) := by
  unfold goDown
  repeat' first
    | with_reducible assumption
    | with_reducible first | apply loseDomain_grows | apply fs_grows
    | with_reducible apply Grows.ite
    | simp only [Grows.update_iff]
    | dsimp only

theorem readAllRings_grows {d0 d : Dev} (h : Grows d0 d) : Grows d0 (readAllRings d) := by
  unfold readAllRings
  repeat' first
    | intro _
    | with_reducible assumption
    | with_reducible first | apply kickRing_grows
    | with_reducible apply Grows.ite
    | with_reducible apply Grows.itePair
    | with_reducible apply Grows.fold
    | dsimp only

theorem goUp_grows {d0 d : Dev} {a1} (h : Grows d0 d) : Grows d0 (goUp d a1) := by
  unfold goUp
  repeat' first
    | intro _
    | with_reducible assumption
    | with_reducible first | apply bellWake_grows | apply fs_grows | apply gpuRun_grows | apply startPort_grows | apply audioReturn_grows | apply readAllRings_grows
    | with_reducible apply Grows.ite
    | with_reducible apply Grows.fold
    | simp only [Grows.update_iff]
    | dsimp only

theorem wakeHeld_grows {d0 d : Dev} {a1} (h : Grows d0 d) : Grows d0 (wakeHeld d a1) := by
  unfold wakeHeld
  repeat' first
    | with_reducible assumption
    | with_reducible apply Grows.ite
    | simp only [Grows.update_iff]
    | dsimp only

theorem applyDom_grows {d0 d : Dev} {a0 a1 a3} (h : Grows d0 d) : Grows d0 (applyDom a0 a1 d a3) := by
  unfold applyDom
  repeat' first
    | with_reducible assumption
    | with_reducible first | apply wr_grows | apply fs_grows | apply wakeHeld_grows | apply goDown_grows
    | with_reducible apply Grows.ite
    | dsimp only

theorem showQueued_grows {d0 d : Dev} (h : Grows d0 d) : Grows d0 (showQueued d) := by
  unfold showQueued
  repeat' first
    | intro _
    | with_reducible assumption
    | with_reducible first | apply fs_grows
    | with_reducible apply Grows.fold
    | dsimp only

theorem setReqStatus_grows {d0 d : Dev} {a1 a2} (h : Grows d0 d) : Grows d0 (setReqStatus d a1 a2) := by
  unfold setReqStatus
  repeat' first
    | intro _
    | with_reducible assumption
    | with_reducible first | apply fs_grows
    | with_reducible apply Grows.fold
    | dsimp only

theorem askDomains_grows {d0 d : Dev} {a1 a2 a3 a4 a5 a6} (h : Grows d0 d) : Grows d0 (askDomains d a1 a2 a3 a4 a5 a6).1 := by
  unfold askDomains
  repeat' first
    | intro _
    | with_reducible assumption
    | with_reducible first | apply setReqStatus_grows | apply logErr_grows | apply applyDom_grows | apply showQueued_grows
    | with_reducible apply Grows.ite
    | with_reducible apply Grows.itePair
    | with_reducible apply Grows.fold
    | with_reducible apply Grows.foldPair
    | simp only [Grows.update_iff]
    | dsimp only

theorem modeOffDomain_grows {d0 d : Dev} {a1} (h : Grows d0 d) : Grows d0 (modeOffDomain d a1) := by
  unfold modeOffDomain
  repeat' first
    | with_reducible assumption
    | with_reducible first | apply showQueued_grows | apply goDown_grows
    | with_reducible apply Grows.ite
    | simp only [Grows.update_iff]
    | dsimp only

theorem runReq_grows {d0 d : Dev} {a1 a2} (h : Grows d0 d) : Grows d0 (runReq d a1 a2) := by
  unfold runReq
  repeat' first
    | intro _
    | with_reducible assumption
    | with_reducible first | apply goDown_grows | apply setReqStatus_grows | apply applyDom_grows | apply powerEvent_grows
    | with_reducible apply Grows.ite
    | with_reducible apply Grows.fold
    | dsimp only

theorem runReqs_grows {d0 d : Dev} {a0 a1} (h : Grows d0 d) : Grows d0 (runReqs a0 a1 d) := by
  induction a1 generalizing a0 d with
  | zero =>
    unfold runReqs
    repeat' first
      | with_reducible assumption
      | with_reducible first | apply runReq_grows | apply showQueued_grows
      | simp only [Grows.update_iff]
      | dsimp only
      | split
  | succ _ ih =>
    unfold runReqs
    repeat' first
      | with_reducible assumption
      | with_reducible apply ih
      | with_reducible first | apply runReq_grows | apply showQueued_grows
      | simp only [Grows.update_iff]
      | dsimp only
      | split

theorem doHoldOp_grows {d0 d : Dev} {a0 a1 a2} (h : Grows d0 d) : Grows d0 (doHoldOp a0 a1 a2 d) := by
  unfold doHoldOp
  repeat' first
    | with_reducible assumption
    | with_reducible first | apply guardWrite_grows | apply fs_grows | apply wakeHeld_grows | apply runReqs_grows
    | with_reducible apply Grows.ite
    | with_reducible apply Grows.itePair
    | dsimp only
    | split

theorem doDomainCtrlWrite_grows {d0 d : Dev} {a0 a1 a2} (h : Grows d0 d) : Grows d0 (doDomainCtrlWrite a0 a1 a2 d) := by
  unfold doDomainCtrlWrite
  repeat' first
    | with_reducible assumption
    | with_reducible first | apply maskedWrite_grows | apply askDomains_grows
    | with_reducible apply Grows.ite
    | with_reducible apply Grows.itePair
    | simp only [Grows.update_iff]
    | dsimp only

theorem doBistDone_grows {d0 d : Dev} {a0} (h : Grows d0 d) : Grows d0 (doBistDone a0 d) := by
  unfold doBistDone
  repeat' first
    | with_reducible assumption
    | with_reducible first | apply bistResult_grows | apply modeOffDomain_grows
    | with_reducible apply Grows.ite
    | dsimp only

theorem doPmuDepthDecision_grows {d0 d : Dev} {a0 a1} (h : Grows d0 d) : Grows d0 (doPmuDepthDecision a0 a1 d) := by
  unfold doPmuDepthDecision
  repeat' first
    | with_reducible assumption
    | with_reducible first | apply goDown_grows | apply wakeHeld_grows
    | with_reducible apply Grows.ite
    | dsimp only

theorem doDomainWake_grows {d0 d : Dev} {a0} (h : Grows d0 d) : Grows d0 (doDomainWake a0 d) := by
  unfold doDomainWake
  repeat' first
    | with_reducible assumption
    | with_reducible first | apply goUp_grows
    | with_reducible apply Grows.ite
    | dsimp only

theorem showGpu_grows {d0 d : Dev} (h : Grows d0 d) : Grows d0 (showGpu d) := by
  unfold showGpu
  repeat' first
    | with_reducible assumption
    | with_reducible first | apply fs_grows
    | with_reducible apply Grows.ite
    | dsimp only

theorem takeCap_grows {d0 d : Dev} {a1} (h : Grows d0 d) : Grows d0 (takeCap d a1) := by
  unfold takeCap
  repeat' first
    | with_reducible assumption
    | with_reducible first | apply fs_grows
    | with_reducible apply Grows.ite
    | simp only [Grows.update_iff]
    | dsimp only

theorem setMode_grows {d0 d : Dev} {a1} (h : Grows d0 d) : Grows d0 (setMode d a1) := by
  unfold setMode
  repeat' first
    | intro _
    | with_reducible assumption
    | with_reducible first | apply linkSend_grows | apply showGpu_grows | apply takeCap_grows | apply fs_grows | apply onPlat_grows | apply hardOut_grows | apply gpuRun_grows | apply modeOffDomain_grows
    | with_reducible apply Grows.ite
    | with_reducible apply Grows.fold
    | simp only [Grows.update_iff]
    | dsimp only

theorem landMode_grows {d0 d : Dev} {a1} (h : Grows d0 d) : Grows d0 (landMode d a1) := by
  unfold landMode
  repeat' first
    | with_reducible assumption
    | with_reducible first | apply setMode_grows
    | with_reducible apply Grows.ite
    | dsimp only

theorem actSetMode_grows {d0 d : Dev} {a0 a1 a2} (h : Grows d0 d) : Grows d0 (actSetMode a0 a1 a2 d) := by
  unfold actSetMode
  repeat' first
    | with_reducible assumption
    | with_reducible first | apply showPending_grows | apply acceptCommit_grows
    | dsimp only

theorem doModeSetMode_grows {d0 d : Dev} {a0 a1} (h : Grows d0 d) : Grows d0 (doModeSetMode a0 a1 d) := by
  unfold doModeSetMode
  repeat' first
    | intro _
    | with_reducible assumption
    | with_reducible first | apply startDesc_grows | apply actSetMode_grows
    | dsimp only

theorem actModeDomain_grows {d0 d : Dev} {a0 a1 a2} (h : Grows d0 d) : Grows d0 (actModeDomain a0 a1 a2 d) := by
  unfold actModeDomain
  repeat' first
    | with_reducible assumption
    | with_reducible first | apply askDomains_grows | apply complete_grows
    | dsimp only

theorem doModeDomain_grows {d0 d : Dev} {a0 a1} (h : Grows d0 d) : Grows d0 (doModeDomain a0 a1 d) := by
  unfold doModeDomain
  repeat' first
    | intro _
    | with_reducible assumption
    | with_reducible first | apply startDesc_grows | apply actModeDomain_grows
    | dsimp only

theorem actHibernate_grows {d0 d : Dev} {a0 a1 a2} (h : Grows d0 d) : Grows d0 (actHibernate a0 a1 a2 d) := by
  unfold actHibernate
  repeat' first
    | intro _
    | with_reducible assumption
    | with_reducible first | apply complete_grows | apply fs_grows | apply stopComparators_grows
    | with_reducible apply Grows.ite
    | with_reducible apply Grows.fold
    | simp only [Grows.update_iff]
    | dsimp only

theorem doModeHibernate_grows {d0 d : Dev} {a0 a1} (h : Grows d0 d) : Grows d0 (doModeHibernate a0 a1 d) := by
  unfold doModeHibernate
  repeat' first
    | intro _
    | with_reducible assumption
    | with_reducible first | apply startDesc_grows | apply actHibernate_grows
    | dsimp only

theorem doHibernateWake_grows {d0 d : Dev} {a0} (h : Grows d0 d) : Grows d0 (doHibernateWake a0 d) := by
  unfold doHibernateWake
  repeat' first
    | intro _
    | with_reducible assumption
    | with_reducible first | apply advance_grows | apply readAllRings_grows | apply goUp_grows
    | with_reducible apply Grows.ite
    | with_reducible apply Grows.fold
    | simp only [Grows.update_iff]
    | dsimp only

theorem capStep_grows {d0 d : Dev} (h : Grows d0 d) : Grows d0 (capStep d) := by
  unfold capStep
  repeat' first
    | with_reducible assumption
    | with_reducible first | apply showGpu_grows | apply yieldSlot_grows
    | with_reducible apply Grows.ite
    | simp only [Grows.update_iff]
    | dsimp only
    | split

theorem capBack_grows {d0 d : Dev} (h : Grows d0 d) : Grows d0 (capBack d) := by
  unfold capBack
  repeat' first
    | with_reducible assumption
    | with_reducible first | apply gpuRun_grows | apply showGpu_grows
    | with_reducible apply Grows.ite
    | simp only [Grows.update_iff]
    | dsimp only
    | split

theorem doPowerEstimate_grows {d0 d : Dev} {a0} (h : Grows d0 d) : Grows d0 (doPowerEstimate a0 d) := by
  unfold doPowerEstimate
  repeat' first
    | with_reducible assumption
    | with_reducible first | apply advance_grows | apply fs_grows | apply capStep_grows | apply powerEvent_grows | apply capBack_grows
    | with_reducible apply Grows.ite
    | simp only [Grows.update_iff]
    | dsimp only

theorem showTherm_grows {d0 d : Dev} (h : Grows d0 d) : Grows d0 (showTherm d) := by
  unfold showTherm
  repeat' first
    | with_reducible assumption
    | with_reducible first | apply fs_grows
    | with_reducible apply Grows.ite
    | dsimp only

theorem endTherm_grows {d0 d : Dev} {a1} (h : Grows d0 d) : Grows d0 (endTherm d a1) := by
  unfold endTherm
  repeat' first
    | with_reducible assumption
    | with_reducible first | apply showGpu_grows | apply showTherm_grows
    | with_reducible apply Grows.ite
    | simp only [Grows.update_iff]
    | dsimp only

theorem tripOver_grows {d0 d : Dev} (h : Grows d0 d) : Grows d0 (tripOver d) := by
  unfold tripOver
  repeat' first
    | with_reducible assumption
    | with_reducible first | apply emit_grows | apply endTherm_grows
    | with_reducible apply Grows.ite
    | dsimp only

theorem thermRelease_grows {d0 d : Dev} (h : Grows d0 d) : Grows d0 (thermRelease d) := by
  unfold thermRelease
  repeat' first
    | with_reducible assumption
    | with_reducible first | apply tripOver_grows
    | with_reducible apply Grows.ite
    | simp only [Grows.update_iff]
    | dsimp only

theorem doThermalSample_grows {d0 d : Dev} {a0} (h : Grows d0 d) : Grows d0 (doThermalSample a0 d) := by
  unfold doThermalSample
  repeat' first
    | with_reducible assumption
    | with_reducible first | apply fs_grows | apply endTherm_grows
    | with_reducible apply Grows.ite
    | simp only [Grows.update_iff]
    | dsimp only

theorem tjActs_grows {d0 d e : Dev} {l} (he : tjActs d l = some e) (h : Grows d0 d) : Grows d0 e := by
  unfold tjActs at he
  split at he
  · cases he
  · obtain ⟨o, -, rfl⟩ := Option.map_eq_some_iff.1 he
    exact advance_grows h

theorem beginTherm_grows {d0 d e : Dev} {l} (he : beginTherm d l = some e) (h : Grows d0 d) : Grows d0 e := by
  unfold beginTherm at he
  split at he
  · cases he
  · obtain ⟨x, hx, rfl⟩ := Option.map_eq_some_iff.1 he
    exact showGpu_grows (showTherm_grows (Grows.update_iff.2 (tjActs_grows hx h)))

theorem doThermalWarn_grows {d0 d : Dev} (h : Grows d0 d) : Grows d0 (doThermalWarn d) := by
  unfold doThermalWarn
  repeat' first
    | with_reducible assumption
    | with_reducible first | apply powerEvent_grows
    | refine beginTherm_grows (by with_reducible assumption) ?_
    | dsimp only
    | split

theorem doThermalThrottle_grows {d0 d : Dev} (h : Grows d0 d) : Grows d0 (doThermalThrottle d) := by
  unfold doThermalThrottle
  repeat' first
    | with_reducible assumption
    | with_reducible first | apply powerEvent_grows
    | refine beginTherm_grows (by with_reducible assumption) ?_
    | dsimp only
    | split

theorem forcedLoss_grows {d0 d : Dev} {a1} (h : Grows d0 d) : Grows d0 (forcedLoss d a1) := by
  unfold forcedLoss
  repeat' first
    | intro _
    | with_reducible assumption
    | with_reducible first | apply wr_grows | apply showQueued_grows | apply addCause_grows | apply emit_grows
    | with_reducible apply Grows.ite
    | with_reducible apply Grows.fold
    | simp only [Grows.update_iff]
    | dsimp only

theorem doThermalTrip_grows {d0 d : Dev} (h : Grows d0 d) : Grows d0 (doThermalTrip d) := by
  unfold doThermalTrip
  repeat' first
    | intro _
    | with_reducible assumption
    | with_reducible first | apply forcedLoss_grows | apply emit_grows | apply goDown_grows | apply gpuRun_grows | apply powerEvent_grows | apply addCause_grows
    | refine beginTherm_grows (by with_reducible assumption) ?_
    | with_reducible apply Grows.fold
    | simp only [Grows.update_iff]
    | dsimp only
    | split

theorem doThermalCritical_grows {d0 d : Dev} (h : Grows d0 d) : Grows d0 (doThermalCritical d) := by
  unfold doThermalCritical
  repeat' first
    | intro _
    | with_reducible assumption
    | with_reducible first | apply forcedLoss_grows | apply addCause_grows | apply emit_grows | apply goDown_grows
    | refine tjActs_grows (by with_reducible assumption) ?_
    | with_reducible apply Grows.fold
    | simp only [Grows.update_iff]
    | dsimp only
    | split

end Sys2Proof.Machine
end

