-- ==== Sys2Proof/Laws/GrowsBoot.lean ====
section
/-! SUPPORT. No operation of Machine/Boot.lean undoes what `Grows` keeps. -/

set_option linter.unusedTactic false
set_option linter.unreachableTactic false
set_option linter.unusedSimpArgs false
set_option linter.unusedVariables false

namespace Sys2Proof.Machine

theorem writeBootState_grows {d0 d : Dev} {a1} (h : Grows d0 d) : Grows d0 (writeBootState d a1) := by
  unfold writeBootState
  repeat' first
    | with_reducible assumption
    | with_reducible first | apply storeNow_grows
    | with_reducible apply Grows.ite
    | dsimp only

theorem setLdr_grows {d0 d : Dev} {a1 a2} (h : Grows d0 d) : Grows d0 (setLdr d a1 a2) := by
  unfold setLdr
  repeat' first
    | with_reducible assumption
    | with_reducible first | apply fs_grows
    | dsimp only

theorem enterRecovery_grows {d0 d : Dev} {a1} (h : Grows d0 d) : Grows d0 (enterRecovery d a1) := by
  unfold enterRecovery
  repeat' first
    | with_reducible assumption
    | with_reducible first | apply setLdr_grows
    | simp only [Grows.update_iff]
    | dsimp only

theorem trainDram_grows {d0 d : Dev} (h : Grows d0 d) : Grows d0 (trainDram d) := by
  unfold trainDram
  repeat' first
    | intro _
    | with_reducible assumption
    | with_reducible first | apply takeFree_grows | apply storeNow_grows
    | with_reducible apply Grows.fold
    | dsimp only

theorem doBootStart_grows {d0 d : Dev} (h : Grows d0 d) : Grows d0 (doBootStart d) := by
  unfold doBootStart
  repeat' first
    | with_reducible assumption
    | with_reducible first | apply showStore_grows | apply fs_grows | apply freshSector_grows | apply trainDram_grows | apply logErr_grows | apply enterRecovery_grows | apply setLdr_grows
    | with_reducible apply Grows.ite
    | simp only [Grows.update_iff]
    | dsimp only

theorem ldrWrite_grows {d0 d : Dev} {a0 a1} (h : Grows d0 d) : Grows d0 (ldrWrite a0 a1 d) := by
  unfold ldrWrite
  repeat' first
    | with_reducible assumption
    | with_reducible first | apply regWrite_grows | apply writeBootState_grows | apply fs_grows | apply setLdr_grows | apply emit_grows | apply formatStore_grows | apply logErr_grows
    | with_reducible apply Grows.ite
    | with_reducible apply Grows.itePair
    | simp only [Grows.update_iff]
    | dsimp only
    | split

theorem doLoaderLoad_grows {d0 d : Dev} {a0 a1} (h : Grows d0 d) : Grows d0 (doLoaderLoad a0 a1 d) := by
  unfold doLoaderLoad
  repeat' first
    | with_reducible assumption
    | with_reducible first | apply ldrWrite_grows
    | dsimp only

theorem doStoreFormat_grows {d0 d : Dev} {a0 a1} (h : Grows d0 d) : Grows d0 (doStoreFormat a0 a1 d) := by
  unfold doStoreFormat
  repeat' first
    | with_reducible assumption
    | with_reducible first | apply ldrWrite_grows
    | dsimp only

theorem bootFailed_grows {d0 d : Dev} {a1} (h : Grows d0 d) : Grows d0 (bootFailed d a1) := by
  unfold bootFailed
  repeat' first
    | with_reducible assumption
    | with_reducible first | apply enterRecovery_grows | apply setLdr_grows
    | with_reducible apply Grows.ite
    | simp only [Grows.update_iff]
    | dsimp only

theorem setSlot_grows {d0 d : Dev} {a1 a2} (h : Grows d0 d) : Grows d0 (setSlot d a1 a2) := by
  unfold setSlot
  repeat' first
    | with_reducible assumption
    | with_reducible first | apply fs_grows
    | dsimp only

theorem putImage_grows {d0 d : Dev} {a1 a2} (h : Grows d0 d) : Grows d0 (putImage d a1 a2) := by
  unfold putImage
  repeat' first
    | with_reducible assumption
    | simp only [Grows.update_iff]
    | dsimp only

theorem startDeadman_grows {d0 d : Dev} (h : Grows d0 d) : Grows d0 (startDeadman d) := by
  unfold startDeadman
  repeat' first
    | with_reducible assumption
    | simp only [Grows.update_iff]
    | dsimp only

theorem releaseOuts_grows {d0 d : Dev} (h : Grows d0 d) : Grows d0 (releaseOuts d) := by
  unfold releaseOuts
  exact emit_grows (emit_grows h)

theorem doImageVerifyDone_grows {d0 d : Dev} {a0} (h : Grows d0 d) : Grows d0 (doImageVerifyDone a0 d) := by
  unfold doImageVerifyDone
  repeat' first
    | with_reducible assumption
    | with_reducible first | apply fs_grows | apply bootFailed_grows | apply releaseOuts_grows | apply putImage_grows | apply setLdr_grows | apply startDeadman_grows
    | with_reducible apply Grows.ite
    | simp only [Grows.update_iff]
    | dsimp only

theorem doBootTimeout_grows {d0 d : Dev} (h : Grows d0 d) : Grows d0 (doBootTimeout d) := by
  unfold doBootTimeout
  repeat' first
    | with_reducible assumption
    | with_reducible first | apply bootFailed_grows | apply advance_grows
    | with_reducible apply Grows.ite
    | dsimp only

theorem bootDisplay_grows {d0 d : Dev} {a1} (h : Grows d0 d) : Grows d0 (bootDisplay d a1) := by
  unfold bootDisplay
  repeat' first
    | with_reducible assumption
    | with_reducible first | apply wrs_grows | apply wr_grows | apply cfgLanded_grows | apply routeLanded_grows | apply platLanded_grows
    | dsimp only

theorem noteHeritage_grows {d0 d : Dev} {a1} (h : Grows d0 d) : Grows d0 (noteHeritage d a1) := by
  unfold noteHeritage
  repeat' first
    | with_reducible assumption
    | with_reducible first | apply logErr_grows
    | with_reducible apply Grows.ite
    | dsimp only

theorem heritageBoot_grows {d0 d : Dev} (h : Grows d0 d) : Grows d0 (heritageBoot d) := by
  unfold heritageBoot
  repeat' first
    | intro _
    | with_reducible assumption
    | with_reducible first | apply wr_grows | apply wr64_grows | apply noteHeritage_grows | apply fs_grows
    | with_reducible apply Grows.fold
    | dsimp only

theorem copyCauses_grows {d0 d : Dev} (h : Grows d0 d) : Grows d0 (copyCauses d) := by
  unfold copyCauses
  repeat' first
    | with_reducible assumption
    | with_reducible first | apply storeWrite_grows
    | with_reducible apply Grows.ite
    | simp only [Grows.update_iff]
    | dsimp only

theorem bootDisplayOf_grows {d0 d : Dev} {a1} (h : Grows d0 d) : Grows d0 (bootDisplayOf d a1) := by
  unfold bootDisplayOf
  repeat' first
    | with_reducible assumption
    | with_reducible first | apply bootDisplay_grows
    | dsimp only
    | split

theorem doBootRunning_grows {d0 d : Dev} (h : Grows d0 d) : Grows d0 (doBootRunning d) := by
  unfold doBootRunning
  repeat' first
    | intro _
    | with_reducible assumption
    | with_reducible first | apply setSlot_grows | apply wr_grows | apply setLdr_grows | apply writeBootState_grows | apply fs_grows | apply copyCauses_grows | apply restoreMap_grows | apply heritageBoot_grows | apply showRate_grows | apply bootDisplayOf_grows
    | with_reducible apply Grows.ite
    | with_reducible apply Grows.fold
    | simp only [Grows.update_iff]
    | dsimp only

theorem stageImage_grows {d0 d : Dev} {a1 a2 a3 a4 a5} (h : Grows d0 d) : Grows d0 (stageImage d a1 a2 a3 a4 a5) := by
  unfold stageImage
  repeat' first
    | with_reducible assumption
    | with_reducible first | apply complete_grows | apply putImage_grows | apply setSlot_grows
    | with_reducible apply Grows.ite
    | dsimp only

theorem actFwLoad_grows {d0 d : Dev} {a0 a1 a2} (h : Grows d0 d) : Grows d0 (actFwLoad a0 a1 a2 d) := by
  unfold actFwLoad
  repeat' first
    | with_reducible assumption
    | with_reducible first | apply complete_grows | apply stageImage_grows
    | simp only [Grows.update_iff]
    | dsimp only
    | split

theorem doFwStageLoad_grows {d0 d : Dev} {a0 a1 a2} (h : Grows d0 d) : Grows d0 (doFwStageLoad a0 a1 a2 d) := by
  unfold doFwStageLoad
  repeat' first
    | intro _
    | with_reducible assumption
    | with_reducible first | apply startDesc_grows | apply actFwLoad_grows | apply ring_grows
    | with_reducible apply Grows.ite
    | simp only [Grows.update_iff]
    | dsimp only
    | split

theorem actFwDiscard_grows {d0 d : Dev} {a0 a1 a2} (h : Grows d0 d) : Grows d0 (actFwDiscard a0 a1 a2 d) := by
  unfold actFwDiscard
  repeat' first
    | with_reducible assumption
    | with_reducible first | apply complete_grows | apply putImage_grows | apply setSlot_grows
    | with_reducible apply Grows.ite
    | dsimp only

theorem doFwStageDiscard_grows {d0 d : Dev} {a0 a1} (h : Grows d0 d) : Grows d0 (doFwStageDiscard a0 a1 d) := by
  unfold doFwStageDiscard
  repeat' first
    | intro _
    | with_reducible assumption
    | with_reducible first | apply startDesc_grows | apply actFwDiscard_grows
    | dsimp only

theorem onCut_grows {d0 d : Dev} {a1} (h : Grows d0 d) : Grows d0 (onCut d a1) := by
  unfold onCut
  repeat' first
    | with_reducible assumption
    | simp only [Grows.update_iff]
    | dsimp only

theorem cutPreempt_grows {d0 d : Dev} (h : Grows d0 d) : Grows d0 (cutPreempt d) := by
  unfold cutPreempt
  repeat' first
    | intro _
    | with_reducible assumption
    | with_reducible first | apply yieldSlot_grows
    | with_reducible apply Grows.fold
    | dsimp only

theorem openWindow_grows {d0 d : Dev} {a1 a2} (h : Grows d0 d) : Grows d0 (openWindow d a1 a2) := by
  unfold openWindow
  repeat' first
    | with_reducible assumption
    | with_reducible first | apply startDeadman_grows | apply cutPreempt_grows | apply setDh_grows
    | with_reducible apply Grows.ite
    | simp only [Grows.update_iff]
    | dsimp only

theorem actCutoverNow_grows {d0 d : Dev} {a0 a1 a2} (h : Grows d0 d) : Grows d0 (actCutoverNow a0 a1 a2 d) := by
  unfold actCutoverNow
  repeat' first
    | with_reducible assumption
    | with_reducible first | apply complete_grows | apply openWindow_grows
    | dsimp only
    | split

theorem actFwCutover_grows {d0 d : Dev} {a0 a1 a2} (h : Grows d0 d) : Grows d0 (actFwCutover a0 a1 a2 d) := by
  unfold actFwCutover
  repeat' first
    | with_reducible assumption
    | with_reducible first | apply actCutoverNow_grows | apply complete_grows | apply onCut_grows
    | with_reducible apply Grows.ite
    | simp only [Grows.update_iff]
    | dsimp only

theorem doFwCutover_grows {d0 d : Dev} {a0 a1} (h : Grows d0 d) : Grows d0 (doFwCutover a0 a1 d) := by
  unfold doFwCutover
  repeat' first
    | intro _
    | with_reducible assumption
    | with_reducible first | apply startDesc_grows | apply actFwCutover_grows
    | dsimp only

theorem cutoverFrame_grows {d0 d : Dev} {a1} (h : Grows d0 d) : Grows d0 (cutoverFrame d a1) := by
  unfold cutoverFrame
  repeat' first
    | with_reducible assumption
    | with_reducible first | apply onCut_grows | apply actCutoverNow_grows
    | with_reducible apply Grows.ite
    | with_reducible apply Grows.itePair
    | simp only [Grows.update_iff]
    | dsimp only
    | split

theorem cutoverAction_grows {d0 d : Dev} {a1} (h : Grows d0 d) : Grows d0 (cutoverAction d a1).1 := by
  unfold cutoverAction
  repeat' first
    | with_reducible assumption
    | with_reducible first | apply powerEvent_grows | apply openWindow_grows
    | dsimp only
    | split

theorem lateLanding_grows {d0 d : Dev} {a1} (h : Grows d0 d) : Grows d0 (lateLanding d a1) := by
  unfold lateLanding
  repeat' first
    | with_reducible assumption
    | with_reducible first | apply endCommit_grows | apply linkSend_grows | apply onCommit_grows
    | with_reducible apply Grows.ite
    | with_reducible apply Grows.itePair
    | simp only [Grows.update_iff]
    | dsimp only
    | split

theorem closeWindow_grows {d0 d : Dev} {a1 a2} (h : Grows d0 d) : Grows d0 (closeWindow d a1 a2) := by
  unfold closeWindow
  repeat' first
    | intro _
    | with_reducible assumption
    | with_reducible first | apply complete_grows | apply gpuRun_grows | apply lateLanding_grows | apply readAllRings_grows
    | with_reducible apply Grows.fold
    | simp only [Grows.update_iff]
    | dsimp only [id]
    | dsimp only
    | split

theorem doFirmwareReady_grows {d0 d : Dev} (h : Grows d0 d) : Grows d0 (doFirmwareReady d) := by
  unfold doFirmwareReady
  repeat' first
    | with_reducible assumption
    | with_reducible first | apply closeWindow_grows | apply addCause_grows | apply setSlot_grows | apply wr_grows | apply fs_grows | apply powerEvent_grows
    | with_reducible apply Grows.ite
    | simp only [Grows.update_iff]
    | dsimp only

theorem doCutoverTimeout_grows {d0 d : Dev} (h : Grows d0 d) : Grows d0 (doCutoverTimeout d) := by
  unfold doCutoverTimeout
  repeat' first
    | with_reducible assumption
    | with_reducible first | apply advance_grows | apply closeWindow_grows | apply addCause_grows | apply powerEvent_grows | apply setSlot_grows | apply startDeadman_grows | apply onCut_grows
    | with_reducible apply Grows.ite
    | simp only [Grows.update_iff]
    | dsimp only

end Sys2Proof.Machine
end

