-- ==== Sys2Proof/Laws/GrowsWorlds.lean ====
section
/-! SUPPORT. No operation of Machine/Worlds.lean undoes what `Grows` keeps. -/

set_option linter.unusedTactic false
set_option linter.unreachableTactic false
set_option linter.unusedSimpArgs false
set_option linter.unusedVariables false

namespace Sys2Proof.Machine

theorem onSafe_grows {d0 d : Dev} {a1} (h : Grows d0 d) : Grows d0 (onSafe d a1) := by
  unfold onSafe
  repeat' first
    | with_reducible assumption
    | simp only [Grows.update_iff]
    | dsimp only

theorem safetyEvent_grows {d0 d : Dev} {a1 a2 a3} (h : Grows d0 d) : Grows d0 (safetyEvent d a1 a2 a3) := by
  unfold safetyEvent
  repeat' first
    | with_reducible assumption
    | with_reducible first | apply post_grows
    | dsimp only

theorem spdmSay_grows {d0 d : Dev} {a1 a2 a3} (h : Grows d0 d) : Grows d0 (spdmSay d a1 a2 a3) := by
  unfold spdmSay
  repeat' first
    | with_reducible assumption
    | with_reducible first | apply emit_grows
    | dsimp only

theorem setSess_grows {d0 d : Dev} {a1 a2} (h : Grows d0 d) : Grows d0 (setSess d a1 a2) := by
  unfold setSess
  repeat' first
    | with_reducible assumption
    | with_reducible first | apply onSafe_grows
    | simp only [Grows.update_iff]
    | dsimp only

theorem spdmAsk_grows {d0 d : Dev} {f ok code arg g} (hg : ∀ d, Grows d0 d → Grows d0 (g d)) (h : Grows d0 d) :
    Grows d0 (spdmAsk d f ok code arg g) := by
  unfold spdmAsk
  exact Grows.ite h (Grows.ite (spdmSay_grows (hg d h)) (spdmSay_grows h))

theorem doSpdmGetVersion_grows {d0 d : Dev} {a0} (h : Grows d0 d) : Grows d0 (doSpdmGetVersion a0 d) := by
  unfold doSpdmGetVersion
  repeat' first
    | intro _
    | with_reducible assumption
    | with_reducible first | apply spdmAsk_grows | apply setSess_grows | apply onSafe_grows
    | simp only [Grows.update_iff]
    | dsimp only

theorem doSpdmGetCapabilities_grows {d0 d : Dev} {a0} (h : Grows d0 d) : Grows d0 (doSpdmGetCapabilities a0 d) := by
  unfold doSpdmGetCapabilities
  repeat' first
    | intro _
    | with_reducible assumption
    | with_reducible first | apply spdmAsk_grows | apply onSafe_grows
    | simp only [Grows.update_iff]
    | dsimp only

theorem doSpdmNegotiateAlgorithms_grows {d0 d : Dev} {a0} (h : Grows d0 d) : Grows d0 (doSpdmNegotiateAlgorithms a0 d) := by
  unfold doSpdmNegotiateAlgorithms
  repeat' first
    | intro _
    | with_reducible assumption
    | with_reducible first | apply spdmAsk_grows | apply onSafe_grows
    | simp only [Grows.update_iff]
    | dsimp only

theorem doSpdmGetDigests_grows {d0 d : Dev} {a0} (h : Grows d0 d) : Grows d0 (doSpdmGetDigests a0 d) := by
  unfold doSpdmGetDigests
  repeat' first
    | intro _
    | with_reducible assumption
    | with_reducible first | apply spdmAsk_grows
    | dsimp only [id]
    | dsimp only

theorem spdmSlot_grows {d0 d : Dev} {a1 a2 a3} (h : Grows d0 d) : Grows d0 (spdmSlot d a1 a2 a3) := by
  unfold spdmSlot
  repeat' first
    | intro _
    | with_reducible assumption
    | with_reducible first | apply spdmSay_grows | apply spdmAsk_grows
    | with_reducible apply Grows.ite
    | dsimp only [id]
    | dsimp only

theorem doSpdmGetCertificate_grows {d0 d : Dev} {a0 a1} (h : Grows d0 d) : Grows d0 (doSpdmGetCertificate a0 a1 d) := by
  unfold doSpdmGetCertificate
  repeat' first
    | with_reducible assumption
    | with_reducible first | apply spdmSlot_grows
    | dsimp only

theorem doSpdmChallenge_grows {d0 d : Dev} {a0 a1} (h : Grows d0 d) : Grows d0 (doSpdmChallenge a0 a1 d) := by
  unfold doSpdmChallenge
  repeat' first
    | with_reducible assumption
    | with_reducible first | apply spdmSlot_grows
    | dsimp only

theorem doSpdmGetMeasurements_grows {d0 d : Dev} {a0 a1} (h : Grows d0 d) : Grows d0 (doSpdmGetMeasurements a0 a1 d) := by
  unfold doSpdmGetMeasurements
  repeat' first
    | intro _
    | with_reducible assumption
    | with_reducible first | apply spdmSay_grows | apply spdmAsk_grows
    | with_reducible apply Grows.ite
    | dsimp only [id]
    | dsimp only

theorem doSpdmKeyExchange_grows {d0 d : Dev} {a0} (h : Grows d0 d) : Grows d0 (doSpdmKeyExchange a0 d) := by
  unfold doSpdmKeyExchange
  repeat' first
    | intro _
    | with_reducible assumption
    | with_reducible first | apply spdmAsk_grows | apply setSess_grows
    | dsimp only

theorem doSpdmFinish_grows {d0 d : Dev} {a0} (h : Grows d0 d) : Grows d0 (doSpdmFinish a0 d) := by
  unfold doSpdmFinish
  repeat' first
    | intro _
    | with_reducible assumption
    | with_reducible first | apply spdmAsk_grows | apply setSess_grows
    | dsimp only

theorem doSpdmKeyUpdate_grows {d0 d : Dev} {a0} (h : Grows d0 d) : Grows d0 (doSpdmKeyUpdate a0 d) := by
  unfold doSpdmKeyUpdate
  repeat' first
    | intro _
    | with_reducible assumption
    | with_reducible first | apply spdmAsk_grows
    | dsimp only [id]
    | dsimp only

theorem doSpdmHeartbeat_grows {d0 d : Dev} {a0} (h : Grows d0 d) : Grows d0 (doSpdmHeartbeat a0 d) := by
  unfold doSpdmHeartbeat
  repeat' first
    | intro _
    | with_reducible assumption
    | with_reducible first | apply spdmAsk_grows
    | dsimp only [id]
    | dsimp only

theorem doSpdmEndSession_grows {d0 d : Dev} {a0} (h : Grows d0 d) : Grows d0 (doSpdmEndSession a0 d) := by
  unfold doSpdmEndSession
  repeat' first
    | intro _
    | with_reducible assumption
    | with_reducible first | apply spdmAsk_grows | apply setSess_grows
    | dsimp only

theorem flushHeld_grows {d0 d : Dev} (h : Grows d0 d) : Grows d0 (flushHeld d) := by
  unfold flushHeld
  repeat' first
    | intro _
    | with_reducible assumption
    | with_reducible first | apply emit_grows | apply onSafe_grows
    | with_reducible apply Grows.ite
    | with_reducible apply Grows.fold
    | simp only [Grows.update_iff]
    | dsimp only

theorem doIdeKmKeyProg_grows {d0 d : Dev} {a0 a1} (h : Grows d0 d) : Grows d0 (doIdeKmKeyProg a0 a1 d) := by
  unfold doIdeKmKeyProg
  repeat' first
    | intro _
    | with_reducible assumption
    | with_reducible first | apply spdmAsk_grows | apply onSafe_grows
    | simp only [Grows.update_iff]
    | dsimp only

theorem doIdeKSetGo_grows {d0 d : Dev} {a0 a1} (h : Grows d0 d) : Grows d0 (doIdeKSetGo a0 a1 d) := by
  unfold doIdeKSetGo
  repeat' first
    | intro _
    | with_reducible assumption
    | with_reducible first | apply spdmAsk_grows | apply flushHeld_grows | apply fs_grows | apply onSafe_grows
    | simp only [Grows.update_iff]
    | dsimp only

theorem doIdeFail_grows {d0 d : Dev} {a0} (h : Grows d0 d) : Grows d0 (doIdeFail a0 d) := by
  unfold doIdeFail
  repeat' first
    | with_reducible assumption
    | with_reducible first | apply post_grows | apply bump_grows | apply fs_grows
    | with_reducible apply Grows.ite
    | dsimp only

theorem secureDepart_grows {d0 d : Dev} {a1} (h : Grows d0 d) : Grows d0 (secureDepart d a1) := by
  unfold secureDepart
  repeat' first
    | intro _
    | with_reducible assumption
    | with_reducible first | apply onSafe_grows | apply fs_grows
    | with_reducible apply Grows.ite
    | with_reducible apply Grows.fold
    | simp only [Grows.update_iff]
    | dsimp only

theorem unlisted_flatMap (l : List FreeRange) (g : FreeRange → List FreeRange) (a : Nat)
    (hin : ∀ r, (decide (r.lo ≤ a) && decide (a < r.lo + r.len)) = true →
      ∃ r', (g r).find? (fun r => decide (r.lo ≤ a) && decide (a < r.lo + r.len)) = some r' ∧
        r'.key + (a - r'.lo) = r.key + (a - r.lo))
    (hout : ∀ r, (decide (r.lo ≤ a) && decide (a < r.lo + r.len)) = false →
      (g r).find? (fun r => decide (r.lo ≤ a) && decide (a < r.lo + r.len)) = none) :
    (match (l.flatMap g).find? (fun r => decide (r.lo ≤ a) && decide (a < r.lo + r.len)) with
      | some r => Config.freeByte (r.key + (a - r.lo))
      | none => 0) =
    (match l.find? (fun r => decide (r.lo ≤ a) && decide (a < r.lo + r.len)) with
      | some r => Config.freeByte (r.key + (a - r.lo))
      | none => 0) := by
  induction l with
  | nil => rfl
  | cons r l ih =>
    rw [List.flatMap_cons, List.find?_append, List.find?_cons]
    cases hr : (decide (r.lo ≤ a) && decide (a < r.lo + r.len)) with
    | true =>
      obtain ⟨r', h1, h2⟩ := hin r hr
      simp only [h1, Option.some_or, h2]
    | false => simpa only [hout r hr, Option.none_or] using ih

theorem zeroDram_grows {d0 d : Dev} {lo hi} (h : Grows d0 d) : Grows d0 (zeroDram d lo hi) := by
  have hc : Grows d0 (cleanLines d lo (hi - lo)) := cleanLines_grows h
  unfold zeroDram
  generalize cleanLines d lo (hi - lo) = d1 at hc
  by_cases hle : hi ≤ lo
  · simp only [hle, if_true]; exact h
  simp only [hle, if_false]
  refine ⟨hc.dt, hc.commits, hc.free, hc.out, hc.heritage, hc.seat, hc.boot, hc.units, fun hr => ?_, fun hr => hc.regs hr⟩
  have hk := (Dev.ramOk_iff d1).1 (hc.ram hr)
  rw [Dev.ramOk_iff]
  refine ⟨SMap.rising_splice _ _ _ _ hk.1 rfl (by simp) (by omega), fun p hp => ?_⟩
  rcases mem_splice _ _ _ _ p hp with hp | hp
  · have hq := hk.2 p hp.1
    have ho := hp.2
    suffices e : dramUnlisted d1 p.1 = dramUnlisted _ p.1 from e ▸ hq
    unfold dramUnlisted
    refine (unlisted_flatMap _ _ _ (fun r hr => ?_) (fun r hr => ?_)).symm
    · simp only [Bool.and_eq_true, decide_eq_true_eq] at hr
      split
      · exact ⟨r, by simp [hr], rfl⟩
      · rename_i hn
        rcases ho with ho | ho
        · have h1 : r.lo < lo := by omega
          refine ⟨{ r with len := min r.len (lo - r.lo) }, ?_, rfl⟩
          have h2 : p.1 < r.lo + min r.len (lo - r.lo) := by omega
          simp [h1, hr.1, h2]
        · have h1 : hi < r.lo + r.len := by omega
          have h2 : ¬ p.1 < r.lo + min r.len (lo - r.lo) := by omega
          have h3 : max hi r.lo ≤ p.1 := by omega
          have h4 : p.1 < max hi r.lo + (r.lo + r.len - max hi r.lo) := by omega
          refine ⟨{ lo := max hi r.lo, len := r.lo + r.len - max hi r.lo, key := r.key + (max hi r.lo - r.lo) }, ?_, ?_⟩
          · rw [List.find?_append]
            have e : List.find? (fun r => decide (r.lo ≤ p.1) && decide (p.1 < r.lo + r.len))
                (if r.lo < lo then [{ r with len := min r.len (lo - r.lo) }] else []) = none := by
              split <;> simp [h2]
            rw [e]
            simp only [h1, if_true, List.find?_cons, h3, h4, decide_true, Bool.and_self, Option.none_or]
          · dsimp only; omega
    · simp only [Bool.and_eq_false_iff, decide_eq_false_iff_not] at hr
      split
      · simp only [List.find?_cons, List.find?_nil]
        have : (decide (r.lo ≤ p.1) && decide (p.1 < r.lo + r.len)) = false := by
          simp only [Bool.and_eq_false_iff, decide_eq_false_iff_not]; exact hr
        simp only [this]
      · rw [List.find?_eq_none]
        intro x hx
        simp only [Bool.and_eq_true, decide_eq_true_eq]
        rcases List.mem_append.1 hx with hx | hx
        · split at hx
          · simp only [List.mem_singleton] at hx; subst hx; dsimp only; omega
          · exact absurd hx List.not_mem_nil
        · split at hx
          · simp only [List.mem_singleton] at hx; subst hx; dsimp only; omega
          · exact absurd hx List.not_mem_nil
  · exact absurd hp List.not_mem_nil

theorem setBusy_grows {d0 d : Dev} {a1 a2} (h : Grows d0 d) : Grows d0 (setBusy d a1 a2) := by
  unfold setBusy
  repeat' first
    | with_reducible assumption
    | with_reducible first | apply fs_grows
    | dsimp only
    | split

theorem beginScrub_grows {d0 d : Dev} {a1 a2 a3 a4} (h : Grows d0 d) : Grows d0 (beginScrub d a1 a2 a3 a4) := by
  unfold beginScrub
  repeat' first
    | with_reducible assumption
    | with_reducible first | apply setBusy_grows | apply onSafe_grows | apply fs_grows | apply zeroDram_grows
    | simp only [Grows.update_iff]
    | dsimp only
    | split

theorem dropPrefetch_grows {d0 d : Dev} {a1 a2} (h : Grows d0 d) : Grows d0 (dropPrefetch d a1 a2) := by
  unfold dropPrefetch
  repeat' first
    | with_reducible assumption
    | with_reducible first | apply showSkein_grows
    | with_reducible apply Grows.ite
    | simp only [Grows.update_iff]
    | dsimp only

theorem doWatermarkRaise_grows {d0 d : Dev} {a0 a1 a2} (h : Grows d0 d) : Grows d0 (doWatermarkRaise a0 a1 a2 d) := by
  unfold doWatermarkRaise
  repeat' first
    | with_reducible assumption
    | with_reducible first | apply guardWrite_grows | apply wr_grows | apply beginScrub_grows | apply dropPrefetch_grows
    | with_reducible apply Grows.ite
    | with_reducible apply Grows.itePair
    | dsimp only
    | split

theorem doWatermarkLower_grows {d0 d : Dev} {a0 a1 a2} (h : Grows d0 d) : Grows d0 (doWatermarkLower a0 a1 a2 d) := by
  unfold doWatermarkLower
  repeat' first
    | with_reducible assumption
    | with_reducible first | apply guardWrite_grows | apply beginScrub_grows
    | with_reducible apply Grows.ite
    | with_reducible apply Grows.itePair
    | dsimp only
    | split

theorem doScrubDone_grows {d0 d : Dev} {a0} (h : Grows d0 d) : Grows d0 (doScrubDone a0 d) := by
  unfold doScrubDone
  repeat' first
    | with_reducible assumption
    | with_reducible first | apply advance_grows | apply setBusy_grows | apply onSafe_grows | apply fs_grows | apply wr_grows | apply showSkein_grows
    | with_reducible apply Grows.ite
    | simp only [Grows.update_iff]
    | dsimp only
    | split

theorem doDeadmanKick_grows {d0 d : Dev} {a0 a1} (h : Grows d0 d) : Grows d0 (doDeadmanKick a0 a1 d) := by
  unfold doDeadmanKick
  repeat' first
    | with_reducible assumption
    | with_reducible first | apply regWrite_grows | apply onSafe_grows | apply startDeadman_grows | apply logErr_grows | apply bump_grows
    | with_reducible apply Grows.ite
    | with_reducible apply Grows.itePair
    | simp only [Grows.update_iff]
    | dsimp only
    | split

theorem showErr_grows {d0 d : Dev} (h : Grows d0 d) : Grows d0 (showErr d) := by
  unfold showErr
  repeat' first
    | with_reducible assumption
    | with_reducible first | apply fs_grows | apply emit_grows
    | with_reducible apply Grows.ite
    | dsimp only

theorem safeState_grows {d0 d : Dev} (h : Grows d0 d) : Grows d0 (safeState d) := by
  unfold safeState
  repeat' first
    | with_reducible assumption
    | with_reducible first | apply emit_grows | apply fs_grows
    | with_reducible apply Grows.ite
    | dsimp only

theorem latchMonitor_grows {d0 d : Dev} {a1} (h : Grows d0 d) : Grows d0 (latchMonitor d a1) := by
  unfold latchMonitor
  repeat' first
    | with_reducible assumption
    | with_reducible first | apply safetyEvent_grows | apply showErr_grows | apply fs_grows
    | dsimp only

theorem doMonitorDetect_grows {d0 d : Dev} {a0} (h : Grows d0 d) : Grows d0 (doMonitorDetect a0 d) := by
  unfold doMonitorDetect
  repeat' first
    | with_reducible assumption
    | with_reducible first | apply latchMonitor_grows
    | with_reducible apply Grows.ite
    | dsimp only

theorem doLockstepFault_grows {d0 d : Dev} (h : Grows d0 d) : Grows d0 (doLockstepFault d) := by
  unfold doLockstepFault
  repeat' first
    | with_reducible assumption
    | with_reducible first | apply latchMonitor_grows | apply safeState_grows | apply fs_grows | apply onSafe_grows
    | with_reducible apply Grows.ite
    | simp only [Grows.update_iff]
    | dsimp only

theorem tellAll_grows {d0 d : Dev} {a1 a2} (h : Grows d0 d) : Grows d0 (tellAll d a1 a2) := by
  unfold tellAll
  repeat' first
    | intro _
    | with_reducible assumption
    | with_reducible first | apply safetyEvent_grows
    | with_reducible apply Grows.ite
    | with_reducible apply Grows.fold
    | dsimp only

theorem cautionGpu_grows {d0 d : Dev} (h : Grows d0 d) : Grows d0 (cautionGpu d) := by
  unfold cautionGpu
  repeat' first
    | intro _
    | with_reducible assumption
    | with_reducible first | apply gpuRun_grows | apply hardOut_grows | apply showGpu_grows
    | with_reducible apply Grows.ite
    | with_reducible apply Grows.fold
    | dsimp only
    | split

theorem darken_grows {d0 d : Dev} {a1} (h : Grows d0 d) : Grows d0 (darken d a1) := by
  unfold darken
  repeat' first
    | with_reducible assumption
    | with_reducible first | apply onPlat_grows | apply onSafe_grows
    | with_reducible apply Grows.ite
    | simp only [Grows.update_iff]
    | dsimp only

theorem enterCaution_grows {d0 d : Dev} {a1} (h : Grows d0 d) : Grows d0 (enterCaution d a1) := by
  unfold enterCaution
  repeat' first
    | intro _
    | with_reducible assumption
    | with_reducible first | apply fs_grows | apply takeCap_grows | apply linkSend_grows | apply onSafe_grows | apply endCommit_grows | apply darken_grows | apply tellAll_grows | apply cautionGpu_grows | apply showPending_grows
    | with_reducible apply Grows.ite
    | with_reducible apply Grows.fold
    | simp only [Grows.update_iff]
    | dsimp only

theorem leaveCaution_grows {d0 d : Dev} (h : Grows d0 d) : Grows d0 (leaveCaution d) := by
  unfold leaveCaution
  repeat' first
    | with_reducible assumption
    | with_reducible first | apply acceptCommit_grows | apply fs_grows
    | with_reducible apply Grows.ite
    | dsimp only

theorem cautionTaken_grows {d0 d : Dev} {a0 a1} (h : Grows d0 d) : Grows d0 (cautionTaken a0 a1 d) := by
  unfold cautionTaken
  repeat' first
    | with_reducible assumption
    | with_reducible first | apply fs_grows | apply enterCaution_grows | apply leaveCaution_grows | apply cautionGpu_grows
    | with_reducible apply Grows.ite
    | dsimp only

theorem cautionWrite_grows {d0 d : Dev} {a0 a1} (h : Grows d0 d) : Grows d0 (cautionWrite a0 a1 d) := by
  unfold cautionWrite
  repeat' first
    | with_reducible assumption
    | with_reducible first | apply guardWrite_grows | apply cautionTaken_grows
    | dsimp only
    | split

theorem doCautionEnter_grows {d0 d : Dev} {a0 a1} (h : Grows d0 d) : Grows d0 (doCautionEnter a0 a1 d) := by
  unfold doCautionEnter
  repeat' first
    | with_reducible assumption
    | with_reducible first | apply cautionWrite_grows
    | dsimp only

theorem doCautionExit_grows {d0 d : Dev} {a0 a1} (h : Grows d0 d) : Grows d0 (doCautionExit a0 a1 d) := by
  unfold doCautionExit
  repeat' first
    | with_reducible assumption
    | with_reducible first | apply cautionWrite_grows
    | dsimp only

theorem landCautionExit_grows {d0 d : Dev} {a1} (h : Grows d0 d) : Grows d0 (landCautionExit d a1) := by
  unfold landCautionExit
  repeat' first
    | with_reducible assumption
    | with_reducible first | apply fs_grows | apply tellAll_grows | apply setMode_grows
    | dsimp only

theorem exitOn_grows {d0 d : Dev} {a1 a2} (h : Grows d0 d) : Grows d0 (exitOn d a1 a2) := by
  unfold exitOn
  repeat' first
    | with_reducible assumption
    | with_reducible first | apply onSafe_grows | apply onPlat_grows
    | with_reducible apply Grows.ite
    | simp only [Grows.update_iff]
    | dsimp only

theorem react_grows {d0 d : Dev} {a1 a2 a3} (h : Grows d0 d) : Grows d0 (react d a1 a2 a3) := by
  unfold react
  repeat' first
    | with_reducible assumption
    | with_reducible first | apply fs_grows | apply showErr_grows | apply safeState_grows | apply safetyEvent_grows | apply enterCaution_grows
    | with_reducible apply Grows.ite
    | dsimp only

theorem sigEvent_grows {d0 d : Dev} {a1 a2 a3 a4} (h : Grows d0 d) : Grows d0 (sigEvent d a1 a2 a3 a4) := by
  unfold sigEvent
  repeat' first
    | with_reducible assumption
    | with_reducible first | apply safetyEvent_grows
    | with_reducible apply Grows.ite
    | dsimp only

theorem countSig_grows {d0 d : Dev} {a1 a2 a3 a4 a5 a6 a7} (h : Grows d0 d) : Grows d0 (countSig d a1 a2 a3 a4 a5 a6 a7) := by
  unfold countSig
  repeat' first
    | with_reducible assumption
    | with_reducible first | apply onSafe_grows | apply fs_grows | apply sigEvent_grows | apply react_grows
    | with_reducible apply Grows.ite
    | simp only [Grows.update_iff]
    | dsimp only

theorem diverge_grows {d0 d : Dev} {a1 a2 a3} (h : Grows d0 d) : Grows d0 (diverge d a1 a2 a3) := by
  unfold diverge
  repeat' first
    | with_reducible assumption
    | with_reducible first | apply bump_grows | apply fs_grows | apply pairEvent_grows | apply setDh_grows
    | with_reducible apply Grows.ite
    | dsimp only

theorem shadowOwn_grows {d0 d : Dev} {a1} (h : Grows d0 d) : Grows d0 (shadowOwn d a1) := by
  unfold shadowOwn
  repeat' first
    | with_reducible assumption
    | with_reducible first | apply diverge_grows
    | with_reducible apply Grows.ite
    | simp only [Grows.update_iff]
    | dsimp only

theorem doSignatureResult_grows {d0 d : Dev} {a0 a1 a2} (h : Grows d0 d) : Grows d0 (doSignatureResult a0 a1 a2 d) := by
  unfold doSignatureResult
  repeat' first
    | with_reducible assumption
    | with_reducible first | apply latchSig_grows | apply shadowOwn_grows | apply countSig_grows | apply linkSend_grows
    | with_reducible apply Grows.ite
    | with_reducible apply Grows.itePair
    | simp only [Grows.update_iff]
    | dsimp only
    | split

end Sys2Proof.Machine
end

