-- ==== Sys2Proof/Laws/GrowsGuests.lean ====
section
/-! SUPPORT. No operation of Machine/Guests.lean undoes what `Grows` keeps. -/

set_option linter.unusedTactic false
set_option linter.unreachableTactic false
set_option linter.unusedSimpArgs false
set_option linter.unusedVariables false

namespace Sys2Proof.Machine

theorem doPtSelWrite_grows {d0 d : Dev} {a0 a1} (h : Grows d0 d) : Grows d0 (doPtSelWrite a0 a1 d) := by
  unfold doPtSelWrite
  repeat' first
    | with_reducible assumption
    | with_reducible first | apply maskedWrite_grows
    | with_reducible apply Grows.ite
    | with_reducible apply Grows.itePair
    | simp only [Grows.update_iff]
    | dsimp only

theorem ptWordWrite_grows {d0 d : Dev} {a0 a1 a2} (h : Grows d0 d) : Grows d0 (ptWordWrite a0 a1 a2 d).1 := by
  unfold ptWordWrite
  repeat' first
    | with_reducible assumption
    | with_reducible first | apply maskedWrite_grows | apply logErr_grows
    | with_reducible apply Grows.ite
    | with_reducible apply Grows.itePair
    | dsimp only

theorem ptStageWrite_grows {d0 d : Dev} {a0 a1 a2} (h : Grows d0 d) : Grows d0 (ptStageWrite a0 a1 a2 d) := by
  unfold ptStageWrite
  repeat' first
    | with_reducible assumption
    | with_reducible first | apply ptWordWrite_grows
    | with_reducible apply Grows.ite
    | with_reducible apply Grows.itePair
    | simp only [Grows.update_iff]
    | dsimp only

theorem doPartitionWindowSubmit_grows {d0 d : Dev} {a0 a1} (h : Grows d0 d) : Grows d0 (doPartitionWindowSubmit a0 a1 d) := by
  unfold doPartitionWindowSubmit
  repeat' first
    | with_reducible assumption
    | with_reducible first | apply ptWordWrite_grows | apply logErr_grows | apply fs_grows | apply acceptCommit_grows
    | with_reducible apply Grows.ite
    | with_reducible apply Grows.itePair
    | simp only [Grows.update_iff]
    | dsimp only
    | split

theorem actPartition_grows {d0 d : Dev} {a0 a1 a2} (h : Grows d0 d) : Grows d0 (actPartition a0 a1 a2 d) := by
  unfold actPartition
  repeat' first
    | with_reducible assumption
    | with_reducible first | apply acceptCommit_grows
    | dsimp only

theorem doPartition_grows {d0 d : Dev} {a0 a1} (h : Grows d0 d) : Grows d0 (doPartition a0 a1 d) := by
  unfold doPartition
  repeat' first
    | intro _
    | with_reducible assumption
    | with_reducible first | apply startDesc_grows | apply actPartition_grows
    | dsimp only

theorem endQuiesce_grows {d0 d : Dev} {a1 a2} (h : Grows d0 d) : Grows d0 (endQuiesce d a1 a2) := by
  unfold endQuiesce
  repeat' first
    | with_reducible assumption
    | with_reducible first | apply onFn_grows | apply complete_grows
    | with_reducible apply Grows.ite
    | simp only [Grows.update_iff]
    | dsimp only

theorem leaveAt_grows {d0 d : Dev} {a0 a2} (h : Grows d0 d) : Grows d0 (leaveAt a0 d a2) := by
  unfold leaveAt
  repeat' first
    | intro _
    | with_reducible assumption
    | with_reducible first | apply loseLayer_grows | apply deviceCommit_grows
    | with_reducible apply Grows.ite
    | with_reducible apply Grows.fold
    | dsimp only

theorem loseLayers_grows {d0 d : Dev} {a1} (h : Grows d0 d) : Grows d0 (loseLayers d a1) := by
  unfold loseLayers
  repeat' first
    | intro _
    | with_reducible assumption
    | with_reducible first | apply leaveAt_grows
    | with_reducible apply Grows.fold
    | dsimp only

theorem departWork_grows {d0 d : Dev} {a1} (h : Grows d0 d) : Grows d0 (departWork d a1) := by
  unfold departWork
  repeat' first
    | intro _
    | with_reducible assumption
    | with_reducible first | apply freeCtx_grows | apply leaveCommit_grows | apply touchDepart_grows | apply hapDepart_grows | apply audioDepart_grows | apply loseLayers_grows | apply secureDepart_grows | apply breakTokens_grows | apply bellFnReset_grows | apply ttFnReset_grows | apply gpuRun_grows | apply onFn_grows
    | with_reducible apply Grows.fold
    | simp only [Grows.update_iff]
    | dsimp only [id]
    | dsimp only

theorem departLast_grows {d0 d : Dev} {a1} (h : Grows d0 d) : Grows d0 (departLast d a1) := by
  unfold departLast
  repeat' first
    | with_reducible assumption
    | with_reducible first | apply fs_grows | apply wr_grows | apply bufDepart_grows
    | dsimp only

theorem startDeparture_grows {d0 d : Dev} {a1 a2} (h : Grows d0 d) : Grows d0 (startDeparture d a1 a2) := by
  unfold startDeparture
  repeat' first
    | with_reducible assumption
    | with_reducible first | apply endQuiesce_grows | apply departWork_grows | apply ttResetDue_grows | apply linkSend_grows | apply setFnState_grows | apply onFn_grows
    | with_reducible apply Grows.ite
    | simp only [Grows.update_iff]
    | dsimp only

theorem pfDeparture_grows {d0 d : Dev} (h : Grows d0 d) : Grows d0 (pfDeparture d) := by
  unfold pfDeparture
  repeat' first
    | intro _
    | with_reducible assumption
    | with_reducible first | apply startDeparture_grows | apply addCause_grows | apply onFn_grows
    | with_reducible apply Grows.fold
    | simp only [Grows.update_iff]
    | dsimp only

theorem doF0DepartureStart_grows {d0 d : Dev} (h : Grows d0 d) : Grows d0 (doF0DepartureStart d) := by
  unfold doF0DepartureStart
  repeat' first
    | with_reducible assumption
    | with_reducible first | apply startDeparture_grows
    | with_reducible apply Grows.ite
    | dsimp only

theorem countEnable_grows {d0 d : Dev} {a1} (h : Grows d0 d) : Grows d0 (countEnable d a1) := by
  unfold countEnable
  repeat' first
    | with_reducible assumption
    | with_reducible first | apply onFn_grows
    | with_reducible apply Grows.ite
    | simp only [Grows.update_iff]
    | dsimp only

theorem doVfEnableSet_grows {d0 d : Dev} {a0} (h : Grows d0 d) : Grows d0 (doVfEnableSet a0 d) := by
  unfold doVfEnableSet
  repeat' first
    | intro _
    | with_reducible assumption
    | with_reducible first | apply countEnable_grows | apply setFnState_grows
    | with_reducible apply Grows.ite
    | with_reducible apply Grows.fold
    | simp only [Grows.update_iff]
    | dsimp only

theorem doVfEnableClear_grows {d0 d : Dev} {a0} (h : Grows d0 d) : Grows d0 (doVfEnableClear a0 d) := by
  unfold doVfEnableClear
  repeat' first
    | intro _
    | with_reducible assumption
    | with_reducible first | apply startDeparture_grows | apply addCause_grows
    | with_reducible apply Grows.ite
    | with_reducible apply Grows.fold
    | simp only [Grows.update_iff]
    | dsimp only

theorem beginInval_grows {d0 d : Dev} (h : Grows d0 d) : Grows d0 (beginInval d) := by
  unfold beginInval
  repeat' first
    | with_reducible assumption
    | with_reducible first | apply fs_grows
    | dsimp only

theorem doMmuRootWrite_grows {d0 d : Dev} {a0 a1 a2} (h : Grows d0 d) : Grows d0 (doMmuRootWrite a0 a1 a2 d) := by
  unfold doMmuRootWrite
  repeat' first
    | with_reducible assumption
    | with_reducible first | apply regWrite_grows | apply beginInval_grows
    | dsimp only
    | split

theorem mmInval_grows {d0 d : Dev} {a0 a1} (h : Grows d0 d) : Grows d0 (mmInval a0 a1 d) := by
  unfold mmInval
  repeat' first
    | with_reducible assumption
    | with_reducible first | apply guardWrite_grows | apply beginInval_grows
    | with_reducible apply Grows.ite
    | with_reducible apply Grows.itePair
    | dsimp only
    | split

theorem doInvalidateFunction_grows {d0 d : Dev} {a0 a1} (h : Grows d0 d) : Grows d0 (doInvalidateFunction a0 a1 d) := by
  unfold doInvalidateFunction
  repeat' first
    | with_reducible assumption
    | with_reducible first | apply mmInval_grows
    | dsimp only

theorem doInvalidateRange_grows {d0 d : Dev} {a0 a1} (h : Grows d0 d) : Grows d0 (doInvalidateRange a0 a1 d) := by
  unfold doInvalidateRange
  repeat' first
    | with_reducible assumption
    | with_reducible first | apply mmInval_grows
    | dsimp only

theorem doInvalidateAll_grows {d0 d : Dev} {a0 a1} (h : Grows d0 d) : Grows d0 (doInvalidateAll a0 a1 d) := by
  unfold doInvalidateAll
  repeat' first
    | with_reducible assumption
    | with_reducible first | apply mmInval_grows
    | dsimp only

theorem doInvalidationDone_grows {d0 d : Dev} (h : Grows d0 d) : Grows d0 (doInvalidationDone d) := by
  unfold doInvalidationDone
  repeat' first
    | with_reducible assumption
    | with_reducible first | apply fs_grows
    | dsimp only

theorem doAtsInvalidate_grows {d0 d : Dev} {a0 a1 a2} (h : Grows d0 d) : Grows d0 (doAtsInvalidate a0 a1 a2 d) := by
  unfold doAtsInvalidate
  repeat' first
    | with_reducible assumption
    | with_reducible first | apply emit_grows
    | dsimp only

theorem actDepart_grows {d0 d : Dev} {a0 a1 a2} (h : Grows d0 d) : Grows d0 (actDepart a0 a1 a2 d) := by
  unfold actDepart
  repeat' first
    | with_reducible assumption
    | with_reducible first | apply startDeparture_grows | apply onFn_grows
    | simp only [Grows.update_iff]
    | dsimp only

theorem doFnCtrlDepart_grows {d0 d : Dev} {a0 a1} (h : Grows d0 d) : Grows d0 (doFnCtrlDepart a0 a1 d) := by
  unfold doFnCtrlDepart
  repeat' first
    | intro _
    | with_reducible assumption
    | with_reducible first | apply startDesc_grows | apply actDepart_grows
    | dsimp only

theorem writeBack_grows {d0 d : Dev} {a1} (h : Grows d0 d) : Grows d0 (writeBack d a1).1 := by
  unfold writeBack
  repeat' first
    | intro _
    | with_reducible assumption
    | with_reducible first | apply writeDirty_grows
    | with_reducible apply Grows.fold
    | with_reducible apply Grows.foldPair
    | simp only [Grows.update_iff]
    | dsimp only

theorem actDlStart_grows {d0 d : Dev} {a0 a1 a2} (h : Grows d0 d) : Grows d0 (actDlStart a0 a1 a2 d) := by
  unfold actDlStart
  repeat' first
    | with_reducible assumption
    | with_reducible first | apply complete_grows | apply onFn_grows
    | simp only [Grows.update_iff]
    | dsimp only

theorem doFnCtrlDlStart_grows {d0 d : Dev} {a0 a1} (h : Grows d0 d) : Grows d0 (doFnCtrlDlStart a0 a1 d) := by
  unfold doFnCtrlDlStart
  repeat' first
    | intro _
    | with_reducible assumption
    | with_reducible first | apply startDesc_grows | apply actDlStart_grows
    | dsimp only

theorem actHarvest_grows {d0 d : Dev} {a0 a1 a2} (h : Grows d0 d) : Grows d0 (actHarvest a0 a1 a2 d) := by
  unfold actHarvest
  repeat' first
    | with_reducible assumption
    | with_reducible first | apply writeBack_grows | apply onFn_grows | apply complete_grows
    | with_reducible apply Grows.ite
    | with_reducible apply Grows.itePair
    | simp only [Grows.update_iff]
    | dsimp only

theorem doFnCtrlHarvest_grows {d0 d : Dev} {a0 a1} (h : Grows d0 d) : Grows d0 (doFnCtrlHarvest a0 a1 d) := by
  unfold doFnCtrlHarvest
  repeat' first
    | intro _
    | with_reducible assumption
    | with_reducible first | apply startDesc_grows | apply actHarvest_grows
    | dsimp only

theorem actDlStop_grows {d0 d : Dev} {a0 a1 a2} (h : Grows d0 d) : Grows d0 (actDlStop a0 a1 a2 d) := by
  unfold actDlStop
  repeat' first
    | with_reducible assumption
    | with_reducible first | apply writeBack_grows | apply complete_grows | apply onFn_grows
    | with_reducible apply Grows.ite
    | with_reducible apply Grows.itePair
    | simp only [Grows.update_iff]
    | dsimp only

theorem doFnCtrlDlStop_grows {d0 d : Dev} {a0 a1} (h : Grows d0 d) : Grows d0 (doFnCtrlDlStop a0 a1 d) := by
  unfold doFnCtrlDlStop
  repeat' first
    | intro _
    | with_reducible assumption
    | with_reducible first | apply startDesc_grows | apply actDlStop_grows
    | dsimp only

theorem quiesceJobs_grows {d0 d : Dev} {a1} (h : Grows d0 d) : Grows d0 (quiesceJobs d a1) := by
  unfold quiesceJobs
  repeat' first
    | intro _
    | with_reducible assumption
    | with_reducible first | apply hardOut_grows
    | with_reducible apply Grows.ite
    | with_reducible apply Grows.fold
    | dsimp only
    | split

theorem quiesceHaptics_grows {d0 d : Dev} {a1} (h : Grows d0 d) : Grows d0 (quiesceHaptics d a1) := by
  unfold quiesceHaptics
  repeat' first
    | intro _
    | with_reducible assumption
    | with_reducible first | apply endPend_grows | apply beginBrake_grows
    | with_reducible apply Grows.ite
    | with_reducible apply Grows.fold
    | dsimp only

theorem actQuiesce_grows {d0 d : Dev} {a0 a1 a2} (h : Grows d0 d) : Grows d0 (actQuiesce a0 a1 a2 d) := by
  unfold actQuiesce
  repeat' first
    | with_reducible assumption
    | with_reducible first | apply onFn_grows | apply gpuRun_grows | apply quiesceHaptics_grows | apply pauseStreams_grows | apply quiesceJobs_grows | apply ring_grows
    | with_reducible apply Grows.ite
    | simp only [Grows.update_iff]
    | dsimp only

theorem doFnCtrlQuiesce_grows {d0 d : Dev} {a0 a1} (h : Grows d0 d) : Grows d0 (doFnCtrlQuiesce a0 a1 d) := by
  unfold doFnCtrlQuiesce
  repeat' first
    | intro _
    | with_reducible assumption
    | with_reducible first | apply startDesc_grows | apply actQuiesce_grows
    | dsimp only

theorem noteQuiesced_grows {d0 d : Dev} {a1} (h : Grows d0 d) : Grows d0 (noteQuiesced d a1) := by
  unfold noteQuiesced
  repeat' first
    | with_reducible assumption
    | with_reducible first | apply takeFree_grows | apply onFn_grows
    | simp only [Grows.update_iff]
    | dsimp only

theorem doQuiesceDone_grows {d0 d : Dev} {a0} (h : Grows d0 d) : Grows d0 (doQuiesceDone a0 d) := by
  unfold doQuiesceDone
  repeat' first
    | with_reducible assumption
    | with_reducible first | apply noteQuiesced_grows | apply endQuiesce_grows | apply setFnState_grows | apply onFn_grows
    | with_reducible apply Grows.ite
    | simp only [Grows.update_iff]
    | dsimp only

theorem unhold_grows {d0 d : Dev} {a1} (h : Grows d0 d) : Grows d0 (unhold d a1) := by
  unfold unhold
  repeat' first
    | with_reducible assumption
    | with_reducible first | apply acceptCommit_grows | apply dropCommit_grows
    | dsimp only [id]
    | dsimp only

theorem unholdAll_grows {d0 d : Dev} {a1} (h : Grows d0 d) : Grows d0 (unholdAll d a1) := by
  unfold unholdAll
  repeat' first
    | intro _
    | with_reducible assumption
    | with_reducible first | apply unhold_grows
    | with_reducible apply Grows.fold
    | dsimp only

theorem rerunRings_grows {d0 d : Dev} {a1} (h : Grows d0 d) : Grows d0 (rerunRings d a1) := by
  unfold rerunRings
  repeat' first
    | intro _
    | with_reducible assumption
    | with_reducible first | apply readDbr_grows | apply spaceReturn_grows
    | with_reducible apply Grows.ite
    | with_reducible apply Grows.itePair
    | with_reducible apply Grows.fold
    | dsimp only

theorem doQuiesceTimeout_grows {d0 d : Dev} {a0} (h : Grows d0 d) : Grows d0 (doQuiesceTimeout a0 d) := by
  unfold doQuiesceTimeout
  repeat' first
    | with_reducible assumption
    | with_reducible first | apply endQuiesce_grows | apply advance_grows | apply gpuRun_grows | apply rerunRings_grows | apply resumeStreams_grows | apply unholdAll_grows
    | with_reducible apply Grows.ite
    | dsimp only

theorem acceptRestored_grows {d0 d : Dev} {a0 a2} (h : Grows d0 d) : Grows d0 (acceptRestored a0 d a2) := by
  unfold acceptRestored
  repeat' first
    | with_reducible assumption
    | with_reducible first | apply complete_grows | apply actCommitHead_grows | apply actTouchCfg_grows | apply actHapticWrite_grows | apply actAudioRoute_grows
    | dsimp only
    | split

theorem actResume_grows {d0 d : Dev} {a0 a1 a2} (h : Grows d0 d) : Grows d0 (actResume a0 a1 a2 d) := by
  unfold actResume
  repeat' first
    | intro _
    | with_reducible assumption
    | with_reducible first | apply onFn_grows | apply setFnState_grows | apply acceptCommit_grows | apply acceptRestored_grows | apply unholdAll_grows | apply gpuRun_grows | apply complete_grows | apply rerunRings_grows | apply resumeStreams_grows
    | with_reducible apply Grows.ite
    | with_reducible apply Grows.fold
    | simp only [Grows.update_iff]
    | dsimp only

theorem doFnCtrlResume_grows {d0 d : Dev} {a0 a1} (h : Grows d0 d) : Grows d0 (doFnCtrlResume a0 a1 d) := by
  unfold doFnCtrlResume
  repeat' first
    | intro _
    | with_reducible assumption
    | with_reducible first | apply startDesc_grows | apply actResume_grows
    | dsimp only

theorem actSave_grows {d0 d : Dev} {a0 a1 a2} (h : Grows d0 d) : Grows d0 (actSave a0 a1 a2 d) := by
  unfold actSave
  repeat' first
    | with_reducible assumption
    | with_reducible first | apply complete_grows | apply memWritePages_grows
    | with_reducible apply Grows.ite
    | with_reducible apply Grows.itePair
    | dsimp only

theorem doFnCtrlSave_grows {d0 d : Dev} {a0 a1} (h : Grows d0 d) : Grows d0 (doFnCtrlSave a0 a1 d) := by
  unfold doFnCtrlSave
  repeat' first
    | intro _
    | with_reducible assumption
    | with_reducible first | apply startDesc_grows | apply actSave_grows
    | dsimp only

theorem restoreCp_grows {d0 d : Dev} {a1 a2} (h : Grows d0 d) : Grows d0 (restoreCp d a1 a2) := by
  unfold restoreCp
  repeat' first
    | with_reducible assumption
    | with_reducible first | apply storeEntry_grows
    | simp only [Grows.update_iff]
    | dsimp only
    | split

theorem loadBlob_grows {d0 d : Dev} {a1 a2 a3} (h : Grows d0 d) : Grows d0 (loadBlob d a1 a2 a3) := by
  unfold loadBlob
  repeat' first
    | intro _
    | with_reducible assumption
    | with_reducible first | apply onFn_grows | apply restoreCp_grows | apply onCtx_grows | apply onBuf_grows | apply onStream_grows | apply skTakeHigh_grows | apply setStreamState_grows | apply fs_grows | apply showEntries_grows
    | with_reducible apply Grows.ite
    | with_reducible apply Grows.itePair
    | with_reducible apply Grows.fold
    | simp only [Grows.update_iff]
    | dsimp only

theorem restoreBlob_grows {d0 d : Dev} {a0 a1 a2 a3} (h : Grows d0 d) : Grows d0 (restoreBlob a0 a1 a2 a3 d) := by
  unfold restoreBlob
  repeat' first
    | with_reducible assumption
    | with_reducible first | apply memRead_grows | apply complete_grows | apply setFnState_grows | apply noteQuiesced_grows | apply loadBlob_grows
    | with_reducible apply Grows.ite
    | with_reducible apply Grows.itePair
    | simp only [Grows.update_iff]
    | dsimp only
    | split

theorem actRestore_grows {d0 d : Dev} {a0 a1 a2} (h : Grows d0 d) : Grows d0 (actRestore a0 a1 a2 d) := by
  unfold actRestore
  repeat' first
    | with_reducible assumption
    | with_reducible first | apply restoreBlob_grows
    | dsimp only
    | split

theorem doFnCtrlRestore_grows {d0 d : Dev} {a0 a1 a2 a3} (h : Grows d0 d) : Grows d0 (doFnCtrlRestore a0 a1 a2 a3 d) := by
  unfold doFnCtrlRestore
  repeat' first
    | intro _
    | with_reducible assumption
    | with_reducible first | apply startDesc_grows | apply actRestore_grows | apply ring_grows
    | simp only [Grows.update_iff]
    | dsimp only

end Sys2Proof.Machine
end

