-- ==== Sys2Proof/Laws/GrowsFiring.lean ====
section
/-! SUPPORT. No operation of Machine/Firing.lean undoes what `Grows` keeps. -/

set_option linter.unusedTactic false
set_option linter.unreachableTactic false
set_option linter.unusedSimpArgs false
set_option linter.unusedVariables false

namespace Sys2Proof.Machine

theorem actLock_grows {d0 d : Dev} {a0 a1 a2} (h : Grows d0 d) : Grows d0 (actLock a0 a1 a2 d) := by
  unfold actLock
  repeat' first
    | with_reducible assumption
    | with_reducible first | apply onLive_grows | apply settle_grows
    | simp only [Grows.update_iff]
    | dsimp only

theorem doLock_grows {d0 d : Dev} {a0 a1} (h : Grows d0 d) : Grows d0 (doLock a0 a1 d) := by
  unfold doLock
  repeat' first
    | intro _
    | with_reducible assumption
    | with_reducible first | apply startDesc_grows | apply actLock_grows
    | dsimp only

theorem boundAct_grows {key act} (e : boundAct key = some act) {d0 d : Dev} {f r q} (h : Grows d0 d) :
    Grows d0 (act f r q d) := by
  unfold boundAct at e
  split at e
  all_goals first
    | exact absurd e (by simp only [reduceCtorEq, not_false_eq_true])
    | (rw [← Option.some.inj e]; with_reducible first
        | exact actNop_grows h
        | exact actSignal_grows h
        | exact actCtxItem_grows h
        | exact actCtxDestroy_grows h
        | exact actJobCancel_grows h
        | exact actBufCreate_grows h
        | exact actRelease_grows h
        | exact actSkeinReserve_grows h
        | exact actBufQuery_grows h
        | exact actTouchCfg_grows h
        | exact actBaseReload_grows h
        | exact actBaseRebase_grows h
        | exact actBaseSave_grows h
        | exact actBaseDump_grows h
        | exact actTouchTest_grows h
        | exact actHapticPlay_grows h
        | exact actHapticLoad_grows h
        | exact actHapticClear_grows h
        | exact actStreamConfig_grows h
        | exact actStreamStart_grows h
        | exact actStreamStop_grows h
        | exact actStreamDrain_grows h
        | exact actAudioGain_grows h
        | exact actAudioCoef_grows h
        | exact actChimeStart_grows h
        | exact actChimeStop_grows h
        | exact actDepart_grows h
        | exact actQuiesce_grows h
        | exact actResume_grows h
        | exact actSave_grows h
        | exact actRestore_grows h
        | exact actDlStart_grows h
        | exact actHarvest_grows h
        | exact actDlStop_grows h
        | exact actModeDomain_grows h
        | exact actHibernate_grows h
        | exact actFwLoad_grows h
        | exact actFwDiscard_grows h
        | exact actFwCutover_grows h
        | exact actLock_grows h
        | exact actStoreRead_grows h
        | exact actStoreWrite_grows h
        | exact actStoreDelete_grows h
        | exact actStoreInfo_grows h)

theorem fireBound_grows {d0 d : Dev} {x} (h : Grows d0 d) : Grows d0 (fireBound d x) := by
  unfold fireBound
  dsimp only
  split
  · exact h
  · split
    · exact complete_grows (onLive_grows h)
    · split
      · rename_i hb
        obtain ⟨k, -, hk⟩ := Option.bind_eq_some_iff.1 hb
        exact boundAct_grows hk (onLive_grows h)
      · exact onLive_grows h

theorem pointAction_grows {d0 d : Dev} {a1 a2} (h : Grows d0 d) : Grows d0 (pointAction d a1 a2) := by
  unfold pointAction
  repeat' first
    | intro _
    | with_reducible assumption
    | with_reducible first | apply kickRing_grows | apply scanFire_grows | apply hapTrigger_grows | apply onLive_grows | apply freeze_grows | apply wakeHeld_grows | apply cutoverAction_grows | apply emit_grows
    | with_reducible apply Grows.ite
    | with_reducible apply Grows.itePair
    | with_reducible apply Grows.fold
    | simp only [Grows.update_iff]
    | dsimp only
    | split

theorem fireCommits_grows {d0 d : Dev} {a1} (h : Grows d0 d) : Grows d0 (fireCommits d a1) := by
  unfold fireCommits
  repeat' first
    | with_reducible assumption
    | with_reducible apply Grows.ite
    | simp only [Grows.update_iff]
    | dsimp only

theorem fireEvents_grows {d0 d : Dev} {a1 a2 a3 a4 a5} (h : Grows d0 d) : Grows d0 (fireEvents d a1 a2 a3 a4 a5) := by
  unfold fireEvents
  repeat' first
    | with_reducible assumption
    | with_reducible first | apply post_grows | apply bump_grows
    | with_reducible apply Grows.ite
    | dsimp only

theorem countFire_grows {d0 d : Dev} {a1} (h : Grows d0 d) : Grows d0 (countFire d a1) := by
  unfold countFire
  repeat' first
    | with_reducible assumption
    | with_reducible first | apply count_grows
    | with_reducible apply Grows.ite
    | dsimp only

theorem tellVecs_grows {d0 d : Dev} {a1} (h : Grows d0 d) : Grows d0 (tellVecs d a1) := by
  unfold tellVecs
  repeat' first
    | intro _
    | with_reducible assumption
    | with_reducible first | apply sendMsi_grows
    | with_reducible apply Grows.ite
    | with_reducible apply Grows.itePair
    | with_reducible apply Grows.fold
    | dsimp only

theorem firePoint_grows {d0 d : Dev} {a1 a2 a3} (h : Grows d0 d) : Grows d0 (firePoint d a1 a2 a3) := by
  unfold firePoint
  repeat' first
    | intro _
    | with_reducible assumption
    | with_reducible first | apply setCp_grows | apply onCpRun_grows | apply showArmed_grows | apply fireEvents_grows | apply countFire_grows | apply tellVecs_grows | apply endBound_grows | apply pointAction_grows | apply fireBound_grows | apply fireCommits_grows | apply gpuRun_grows
    | with_reducible apply Grows.ite
    | with_reducible apply Grows.fold
    | simp only [Grows.update_iff]
    | dsimp only

theorem matchPoint_grows {d0 d : Dev} {a1} (h : Grows d0 d) : Grows d0 (matchPoint d a1) := by
  unfold matchPoint
  repeat' first
    | with_reducible assumption
    | with_reducible first | apply firePoint_grows | apply advance_grows
    | with_reducible apply Grows.ite
    | dsimp only
    | split

theorem doCpFire_grows {d0 d : Dev} {a0} (h : Grows d0 d) : Grows d0 (doCpFire a0 d) := by
  unfold doCpFire
  repeat' first
    | intro _
    | with_reducible assumption
    | with_reducible first | apply matchPoint_grows
    | with_reducible apply Grows.ite
    | with_reducible apply Grows.fold
    | dsimp only
    | split

theorem doCpFireDeferred_grows {d0 d : Dev} {a0} (h : Grows d0 d) : Grows d0 (doCpFireDeferred a0 d) := by
  unfold doCpFireDeferred
  repeat' first
    | with_reducible assumption
    | with_reducible first | apply firePoint_grows
    | with_reducible apply Grows.ite
    | dsimp only

theorem walkEntry_grows {d0 d : Dev} {a1} (h : Grows d0 d) : Grows d0 (walkEntry d a1) := by
  unfold walkEntry
  repeat' first
    | with_reducible assumption
    | with_reducible first | apply armPoint_grows | apply onCpRun_grows | apply firePoint_grows
    | with_reducible apply Grows.ite
    | simp only [Grows.update_iff]
    | dsimp only
    | split

theorem doLoaderWalk_grows {d0 d : Dev} (h : Grows d0 d) : Grows d0 (doLoaderWalk d) := by
  unfold doLoaderWalk
  repeat' first
    | intro _
    | with_reducible assumption
    | with_reducible first | apply walkEntry_grows
    | with_reducible apply Grows.ite
    | with_reducible apply Grows.fold
    | dsimp only

theorem writeEntry_grows {d0 d : Dev} {a1 a2} (h : Grows d0 d) : Grows d0 (writeEntry d a1 a2) := by
  unfold writeEntry
  repeat' first
    | with_reducible assumption
    | with_reducible first | apply linkSend_grows | apply storeEntry_grows | apply firePoint_grows
    | with_reducible apply Grows.ite
    | dsimp only

theorem doCpStoreWrite_grows {d0 d : Dev} {a0 a1} (h : Grows d0 d) : Grows d0 (doCpStoreWrite a0 a1 d) := by
  unfold doCpStoreWrite
  repeat' first
    | with_reducible assumption
    | with_reducible first | apply cpStoreCheck_grows | apply writeEntry_grows
    | dsimp only
    | split

theorem actCpWrite_grows {d0 d : Dev} {a0 a1 a2} (h : Grows d0 d) : Grows d0 (actCpWrite a0 a1 a2 d) := by
  unfold actCpWrite
  repeat' first
    | with_reducible assumption
    | with_reducible first | apply complete_grows | apply writeEntry_grows
    | dsimp only

theorem doCpWrite_grows {d0 d : Dev} {a0 a1} (h : Grows d0 d) : Grows d0 (doCpWrite a0 a1 d) := by
  unfold doCpWrite
  repeat' first
    | intro _
    | with_reducible assumption
    | with_reducible first | apply startDesc_grows | apply actCpWrite_grows
    | dsimp only

theorem jumpLandings_grows {d0 d : Dev} {a1 a2 a3 a4} (h : Grows d0 d) : Grows d0 (jumpLandings d a1 a2 a3 a4) := by
  unfold jumpLandings
  repeat' first
    | with_reducible assumption
    | with_reducible apply Grows.ite
    | with_reducible apply Grows.itePair
    | simp only [Grows.update_iff]
    | dsimp only

theorem flJump_grows {d0 d : Dev} {a1} (h : Grows d0 d) : Grows d0 (flJump d a1) := by
  unfold flJump
  repeat' first
    | intro _
    | with_reducible assumption
    | with_reducible first | apply setRaster_grows | apply onPlat_grows | apply goReal_grows | apply jumpLandings_grows | apply firePoint_grows | apply onCpRun_grows | apply restampAll_grows
    | with_reducible apply Grows.ite
    | with_reducible apply Grows.itePair
    | with_reducible apply Grows.fold
    | simp only [Grows.update_iff]
    | dsimp only

theorem flStep_grows {d0 d : Dev} {a1 a2} (h : Grows d0 d) : Grows d0 (flStep d a1 a2) := by
  unfold flStep
  repeat' first
    | with_reducible assumption
    | with_reducible first | apply onFl_grows | apply setFlState_grows | apply flEvent_grows
    | with_reducible apply Grows.ite
    | simp only [Grows.update_iff]
    | dsimp only

theorem doFramelockRefEdge_grows {d0 d : Dev} {a0 a1 a2} (h : Grows d0 d) : Grows d0 (doFramelockRefEdge a0 a1 a2 d) := by
  unfold doFramelockRefEdge
  repeat' first
    | with_reducible assumption
    | with_reducible first | apply onFl_grows | apply setFlState_grows | apply fs_grows | apply flEvent_grows | apply flJump_grows | apply flStep_grows
    | with_reducible apply Grows.ite
    | simp only [Grows.update_iff]
    | dsimp only

end Sys2Proof.Machine
end

