-- ==== Sys2Proof/Laws/GrowsPair.lean ====
section
/-! SUPPORT. No operation of Machine/Pair.lean undoes what `Grows` keeps. -/

set_option linter.unusedTactic false
set_option linter.unreachableTactic false
set_option linter.unusedSimpArgs false
set_option linter.unusedVariables false

namespace Sys2Proof.Machine

theorem onPair_grows {d0 d : Dev} {a1} (h : Grows d0 d) : Grows d0 (onPair d a1) := by
  unfold onPair
  repeat' first
    | with_reducible assumption
    | simp only [Grows.update_iff]
    | dsimp only

theorem muteAll_grows {d0 d : Dev} {a1} (h : Grows d0 d) : Grows d0 (muteAll d a1) := by
  unfold muteAll
  repeat' first
    | with_reducible assumption
    | with_reducible first | apply wr_grows
    | with_reducible apply Grows.ite
    | dsimp only

theorem actForm_grows {d0 d : Dev} {a0 a1 a2} (h : Grows d0 d) : Grows d0 (actForm a0 a1 a2 d) := by
  unfold actForm
  repeat' first
    | with_reducible assumption
    | with_reducible first | apply onPair_grows | apply setHeartbeat_grows | apply setDh_grows | apply setRole_grows | apply ring_grows
    | with_reducible apply Grows.ite
    | simp only [Grows.update_iff]
    | dsimp only

theorem stepDt_grows {d0 d : Dev} {t} (h : Grows d0 d) : Grows d0 (stepDt d t) := by
  unfold stepDt
  split
  · exact h
  · exact pairEvent_grows (Grows.fold (fun _ _ hx => firePoint_grows hx)
      (Grows.count h (by omega) (Nat.le_refl _) (Nat.le_refl _) (List.suffix_refl _)))

theorem sendSync_grows {d0 d : Dev} (h : Grows d0 d) : Grows d0 (sendSync d) := by
  unfold sendSync
  repeat' first
    | intro _
    | with_reducible assumption
    | with_reducible first | apply linkSend_grows | apply sendBuf_grows
    | with_reducible apply Grows.fold
    | dsimp only [id]
    | dsimp only

theorem becomeBanker_grows {d0 d : Dev} (h : Grows d0 d) : Grows d0 (becomeBanker d) := by
  unfold becomeBanker
  repeat' first
    | intro _
    | with_reducible assumption
    | with_reducible first | apply setFlState_grows | apply wr_grows | apply muteAll_grows
    | with_reducible apply Grows.fold
    | dsimp only

theorem unlinkAll_grows {d0 d : Dev} (h : Grows d0 d) : Grows d0 (unlinkAll d) := by
  unfold unlinkAll
  simpa only [Grows.update_iff] using h

theorem formMeets_grows {d0 d : Dev} {a1} (h : Grows d0 d) : Grows d0 (formMeets d a1) := by
  unfold formMeets
  repeat' first
    | with_reducible assumption
    | with_reducible first | apply endForm_grows | apply toStandalone_grows | apply setFenceOut_grows | apply onPair_grows | apply fs_grows | apply setDh_grows | apply setRole_grows | apply setHeartbeat_grows | apply stepDt_grows | apply becomeBanker_grows | apply sendSync_grows | apply unlinkAll_grows | apply unfence_grows
    | with_reducible apply Grows.ite
    | with_reducible apply Grows.itePair
    | simp only [Grows.update_iff]
    | dsimp only
    | split

theorem doPairForm_grows {d0 d : Dev} {a0 a1 a2} (h : Grows d0 d) : Grows d0 (doPairForm a0 a1 a2 d) := by
  unfold doPairForm
  repeat' first
    | intro _
    | with_reducible assumption
    | with_reducible first | apply startDesc_grows | apply actForm_grows | apply formMeets_grows
    | with_reducible apply Grows.ite
    | dsimp only
    | split

theorem doFormTimeout_grows {d0 d : Dev} (h : Grows d0 d) : Grows d0 (doFormTimeout d) := by
  unfold doFormTimeout
  repeat' first
    | with_reducible assumption
    | with_reducible first | apply endForm_grows | apply advance_grows | apply toStandalone_grows
    | with_reducible apply Grows.ite
    | dsimp only
    | split

theorem doBankerHot_grows {d0 d : Dev} (h : Grows d0 d) : Grows d0 (doBankerHot d) := by
  unfold doBankerHot
  repeat' first
    | with_reducible assumption
    | with_reducible first | apply pairEvent_grows | apply endForm_grows | apply setDh_grows
    | with_reducible apply Grows.ite
    | dsimp only

theorem actLeave_grows {d0 d : Dev} {a0 a1 a2} (h : Grows d0 d) : Grows d0 (actLeave a0 a1 a2 d) := by
  unfold actLeave
  repeat' first
    | with_reducible assumption
    | with_reducible first | apply toStandalone_grows | apply complete_grows
    | with_reducible apply Grows.ite
    | dsimp only

theorem doPairLeave_grows {d0 d : Dev} {a0 a1} (h : Grows d0 d) : Grows d0 (doPairLeave a0 a1 d) := by
  unfold doPairLeave
  repeat' first
    | intro _
    | with_reducible assumption
    | with_reducible first | apply startDesc_grows | apply actLeave_grows
    | dsimp only

theorem actSwap_grows {d0 d : Dev} {a0 a1 a2} (h : Grows d0 d) : Grows d0 (actSwap a0 a1 a2 d) := by
  unfold actSwap
  repeat' first
    | with_reducible assumption
    | with_reducible first | apply acceptCommit_grows | apply onPair_grows
    | with_reducible apply Grows.ite
    | simp only [Grows.update_iff]
    | dsimp only

theorem doPairSwap_grows {d0 d : Dev} {a0 a1} (h : Grows d0 d) : Grows d0 (doPairSwap a0 a1 d) := by
  unfold doPairSwap
  repeat' first
    | intro _
    | with_reducible assumption
    | with_reducible first | apply startDesc_grows | apply actSwap_grows
    | dsimp only

theorem exchange_grows {d0 d : Dev} {a1} (h : Grows d0 d) : Grows d0 (exchange d a1) := by
  unfold exchange
  repeat' first
    | with_reducible assumption
    | with_reducible first | apply fs_grows | apply setDh_grows | apply setRole_grows | apply pairEvent_grows | apply muteAll_grows
    | with_reducible apply Grows.ite
    | dsimp only

theorem giveLead_grows {d0 d : Dev} (h : Grows d0 d) : Grows d0 (giveLead d) := by
  unfold giveLead
  repeat' first
    | intro _
    | with_reducible assumption
    | with_reducible first | apply dropLive_grows | apply leaveCommit_grows | apply exchange_grows | apply onPair_grows
    | with_reducible apply Grows.fold
    | simp only [Grows.update_iff]
    | dsimp only [id]
    | dsimp only
    | split

theorem takeLead_grows {d0 d : Dev} {a1} (h : Grows d0 d) : Grows d0 (takeLead d a1) := by
  unfold takeLead
  repeat' first
    | with_reducible assumption
    | with_reducible first | apply exchange_grows | apply onPair_grows | apply unlinkAll_grows | apply gpuRun_grows | apply readAllRings_grows | apply writeCompletion_grows
    | simp only [Grows.update_iff]
    | dsimp only

theorem doSwapTakeEffect_grows {d0 d : Dev} (h : Grows d0 d) : Grows d0 (doSwapTakeEffect d) := by
  unfold doSwapTakeEffect
  repeat' first
    | with_reducible assumption
    | with_reducible first | apply giveLead_grows | apply takeLead_grows
    | with_reducible apply Grows.ite
    | dsimp only
    | split

theorem fencePorts_grows {d0 d : Dev} (h : Grows d0 d) : Grows d0 (fencePorts d) := by
  unfold fencePorts
  repeat' first
    | intro _
    | with_reducible assumption
    | with_reducible apply dropPort_grows
    | with_reducible apply Grows.fold
    | dsimp only

theorem obeyFence_grows {d0 d : Dev} {a1} (h : Grows d0 d) : Grows d0 (obeyFence d a1) := by
  unfold obeyFence
  repeat' first
    | intro _
    | with_reducible assumption
    | with_reducible first | apply fencePorts_grows | apply setFenceOut_grows | apply gpuClear_grows | apply endForm_grows | apply endCommit_grows | apply complete_grows | apply abortQueue_grows | apply fs_grows | apply pairEvent_grows | apply setDh_grows
    | with_reducible apply Grows.fold
    | dsimp only
    | split

theorem doFenceInAssert_grows {d0 d : Dev} (h : Grows d0 d) : Grows d0 (doFenceInAssert d) := by
  unfold doFenceInAssert
  repeat' first
    | with_reducible assumption
    | with_reducible first | apply onPair_grows | apply obeyFence_grows | apply fencePorts_grows | apply fs_grows
    | with_reducible apply Grows.ite
    | simp only [Grows.update_iff]
    | dsimp only

theorem doFenceInRelease_grows {d0 d : Dev} (h : Grows d0 d) : Grows d0 (doFenceInRelease d) := by
  unfold doFenceInRelease
  repeat' first
    | with_reducible assumption
    | with_reducible first | apply unfence_grows | apply onPair_grows
    | with_reducible apply Grows.ite
    | simp only [Grows.update_iff]
    | dsimp only

theorem rewriteSlot_grows {d0 d : Dev} {a1} (h : Grows d0 d) : Grows d0 (rewriteSlot d a1) := by
  unfold rewriteSlot
  repeat' first
    | with_reducible assumption
    | with_reducible first | apply memWrite_grows | apply report_grows
    | with_reducible apply Grows.ite
    | with_reducible apply Grows.itePair
    | dsimp only

theorem payOwed_grows {d0 d : Dev} (h : Grows d0 d) : Grows d0 (payOwed d) := by
  unfold payOwed
  repeat' first
    | intro _
    | with_reducible assumption
    | with_reducible first | apply onPair_grows | apply writeCompletion_grows
    | with_reducible apply Grows.fold
    | simp only [Grows.update_iff]
    | dsimp only

theorem loseJobs_grows {d0 d : Dev} (h : Grows d0 d) : Grows d0 (loseJobs d) := by
  unfold loseJobs
  repeat' first
    | intro _
    | with_reducible assumption
    | with_reducible first | apply count_grows | apply complete_grows | apply post_grows
    | with_reducible apply Grows.ite
    | with_reducible apply Grows.fold
    | dsimp only
    | split

theorem takeTouch_grows {d0 d : Dev} (h : Grows d0 d) : Grows d0 (takeTouch d) := by
  unfold takeTouch
  repeat' first
    | intro _
    | with_reducible assumption
    | with_reducible first | apply setPanelState_grows | apply onPanel_grows | apply touchEvent_grows | apply onPair_grows
    | with_reducible apply Grows.ite
    | with_reducible apply Grows.fold
    | simp only [Grows.update_iff]
    | dsimp only

theorem takeHaptics_grows {d0 d : Dev} (h : Grows d0 d) : Grows d0 (takeHaptics d) := by
  unfold takeHaptics
  repeat' first
    | intro _
    | with_reducible assumption
    | with_reducible first | apply endPend_grows | apply endEffect_grows | apply setHapState_grows
    | with_reducible apply Grows.ite
    | with_reducible apply Grows.fold
    | dsimp only

theorem takeAudio_grows {d0 d : Dev} (h : Grows d0 d) : Grows d0 (takeAudio d) := by
  unfold takeAudio
  repeat' first
    | intro _
    | with_reducible assumption
    | with_reducible first | apply showAudio_grows | apply onStream_grows
    | with_reducible apply Grows.fold
    | simp only [Grows.update_iff]
    | dsimp only

theorem takeover_grows {d0 d : Dev} (h : Grows d0 d) : Grows d0 (takeover d) := by
  unfold takeover
  repeat' first
    | intro _
    | with_reducible assumption
    | with_reducible first | apply count_grows | apply advance_grows | apply setFenceOut_grows | apply fs_grows | apply setDh_grows | apply setRole_grows | apply pairEvent_grows | apply payOwed_grows | apply rewriteSlot_grows | apply onPair_grows | apply takeAudio_grows | apply takeHaptics_grows | apply takeTouch_grows | apply loseJobs_grows | apply readAllRings_grows | apply muteAll_grows | apply gpuRun_grows
    | with_reducible apply Grows.fold
    | simp only [Grows.update_iff]
    | dsimp only

theorem doHeartbeatLost_grows {d0 d : Dev} (h : Grows d0 d) : Grows d0 (doHeartbeatLost d) := by
  unfold doHeartbeatLost
  repeat' first
    | with_reducible assumption
    | with_reducible first | apply fs_grows | apply setForward_grows | apply pairEvent_grows | apply takeover_grows | apply setDh_grows | apply endForm_grows | apply setFenceOut_grows
    | with_reducible apply Grows.ite
    | dsimp only

theorem linkLost_grows {d0 d : Dev} {a1} (h : Grows d0 d) : Grows d0 (linkLost d a1) := by
  unfold linkLost
  repeat' first
    | with_reducible assumption
    | with_reducible first | apply fs_grows | apply setForward_grows | apply toStandalone_grows | apply pairEvent_grows | apply setDh_grows
    | dsimp only
    | split

theorem doLinkRetransmitTimeout_grows {d0 d : Dev} (h : Grows d0 d) : Grows d0 (doLinkRetransmitTimeout d) := by
  unfold doLinkRetransmitTimeout
  repeat' first
    | with_reducible assumption
    | with_reducible first | apply linkLost_grows | apply onPair_grows | apply bump_grows | apply count_grows
    | with_reducible apply Grows.ite
    | simp only [Grows.update_iff]
    | dsimp only

theorem doAuthenticationFail_grows {d0 d : Dev} (h : Grows d0 d) : Grows d0 (doAuthenticationFail d) := by
  unfold doAuthenticationFail
  repeat' first
    | with_reducible assumption
    | with_reducible first | apply bump_grows | apply linkLost_grows | apply onPair_grows
    | with_reducible apply Grows.ite
    | simp only [Grows.update_iff]
    | dsimp only

theorem doLinkSilenceTimeout_grows {d0 d : Dev} (h : Grows d0 d) : Grows d0 (doLinkSilenceTimeout d) := by
  unfold doLinkSilenceTimeout
  repeat' first
    | with_reducible assumption
    | with_reducible first | apply linkLost_grows
    | with_reducible apply Grows.ite
    | dsimp only

theorem doDoneRecordSend_grows {d0 d : Dev} (h : Grows d0 d) : Grows d0 (doDoneRecordSend d) := by
  unfold doDoneRecordSend
  repeat' first
    | with_reducible assumption
    | with_reducible first | apply linkSend_grows
    | with_reducible apply Grows.ite
    | with_reducible apply Grows.itePair
    | dsimp only

theorem sendBaselines_grows {d0 d : Dev} (h : Grows d0 d) : Grows d0 (sendBaselines d) := by
  unfold sendBaselines
  repeat' first
    | intro _
    | with_reducible assumption
    | with_reducible first | apply linkSend_grows | apply onPair_grows
    | with_reducible apply Grows.ite
    | with_reducible apply Grows.fold
    | simp only [Grows.update_iff]
    | dsimp only

theorem doRasterRecordSend_grows {d0 d : Dev} (h : Grows d0 d) : Grows d0 (doRasterRecordSend d) := by
  unfold doRasterRecordSend
  repeat' first
    | with_reducible assumption
    | with_reducible first | apply linkSend_grows | apply sendBaselines_grows
    | dsimp only

theorem doTakeoverDoorbellPoll_grows {d0 d : Dev} (h : Grows d0 d) : Grows d0 (doTakeoverDoorbellPoll d) := by
  unfold doTakeoverDoorbellPoll
  repeat' first
    | with_reducible assumption
    | with_reducible first | apply readAllRings_grows
    | with_reducible apply Grows.ite
    | dsimp only

theorem doRemapDone_grows {d0 d : Dev} {a0 a1} (h : Grows d0 d) : Grows d0 (doRemapDone a0 a1 d) := by
  unfold doRemapDone
  repeat' first
    | with_reducible assumption
    | with_reducible first | apply regWrite_grows | apply onPair_grows
    | with_reducible apply Grows.ite
    | with_reducible apply Grows.itePair
    | simp only [Grows.update_iff]
    | dsimp only
    | split

theorem doAliveWrite_grows {d0 d : Dev} {a0 a1} (h : Grows d0 d) : Grows d0 (doAliveWrite a0 a1 d) := by
  unfold doAliveWrite
  repeat' first
    | with_reducible assumption
    | with_reducible first | apply regWrite_grows | apply onPair_grows | apply setHeartbeat_grows
    | with_reducible apply Grows.ite
    | with_reducible apply Grows.itePair
    | simp only [Grows.update_iff]
    | dsimp only
    | split

theorem doAliveTimeout_grows {d0 d : Dev} (h : Grows d0 d) : Grows d0 (doAliveTimeout d) := by
  unfold doAliveTimeout
  repeat' first
    | with_reducible assumption
    | with_reducible first | apply setHeartbeat_grows | apply advance_grows
    | with_reducible apply Grows.ite
    | dsimp only

theorem doConfigDiverge_grows {d0 d : Dev} {a0 a1} (h : Grows d0 d) : Grows d0 (doConfigDiverge a0 a1 d) := by
  unfold doConfigDiverge
  repeat' first
    | with_reducible assumption
    | with_reducible first | apply pairEvent_grows | apply setDh_grows
    | with_reducible apply Grows.ite
    | dsimp only

end Sys2Proof.Machine
end

