-- ==== Sys2Proof/Laws/GrowsHeritage.lean ====
section
/-! SUPPORT. No operation of Machine/Heritage.lean undoes what `Grows` keeps. -/

set_option linter.unusedTactic false
set_option linter.unreachableTactic false
set_option linter.unusedSimpArgs false
set_option linter.unusedVariables false

namespace Sys2Proof.Machine

theorem onMdh_grows {d0 d : Dev} {a1} (h : Grows d0 d) : Grows d0 (onMdh d a1) := by
  unfold onMdh
  repeat' first
    | with_reducible assumption
    | simp only [Grows.update_iff]
    | dsimp only

theorem mdhRead_grows {d0 d : Dev} {a0 a1} (h : Grows d0 d) : Grows d0 (mdhRead a0 a1 d) := by
  unfold mdhRead
  repeat' first
    | with_reducible assumption
    | with_reducible first | apply emit_grows | apply logErr_grows | apply setMdh_grows
    | with_reducible apply Grows.ite
    | dsimp only

theorem mdhError_grows {d0 d : Dev} {a1 a2} (h : Grows d0 d) : Grows d0 (mdhError d a1 a2) := by
  unfold mdhError
  repeat' first
    | with_reducible assumption
    | with_reducible first | apply setMdh_grows
    | dsimp only

theorem acceptCapture_grows {d0 d : Dev} {n ws} (h : Grows d0 d) : Grows d0 (acceptCapture d n ws) := by
  unfold acceptCapture
  refine Grows.ite h (Grows.ite ?_ (onCommit_grows (acceptCommit_grows h)))
  exact Grows.count h (Nat.le_refl _) (Nat.le_succ _) (Nat.le_refl _) (List.suffix_refl _)

theorem doCapture_grows {d0 d : Dev} {a0} (h : Grows d0 d) : Grows d0 (doCapture a0 d) := by
  unfold doCapture
  repeat' first
    | with_reducible assumption
    | with_reducible first | apply advance_grows | apply mdhIrq_grows | apply setMdh_grows | apply mdhError_grows | apply acceptCapture_grows
    | with_reducible apply Grows.ite
    | dsimp only
    | split

theorem capturePlat_grows {d0 d : Dev} {a1 a2} (h : Grows d0 d) : Grows d0 (capturePlat d a1 a2) := by
  unfold capturePlat
  repeat' first
    | with_reducible assumption
    | with_reducible first | apply wr_grows | apply fs_grows | apply doDpllLock_grows
    | with_reducible apply Grows.ite
    | with_reducible apply Grows.itePair
    | dsimp only

theorem emptyMdhLayers_grows {d0 d : Dev} {a1} (h : Grows d0 d) : Grows d0 (emptyMdhLayers d a1) := by
  unfold emptyMdhLayers
  repeat' first
    | intro _
    | with_reducible assumption
    | with_reducible first | apply emptyLayer_grows
    | with_reducible apply Grows.fold
    | dsimp only

theorem mdhClear_grows {d0 d : Dev} (h : Grows d0 d) : Grows d0 (mdhClear d) := by
  unfold mdhClear
  repeat' first
    | with_reducible assumption
    | simp only [Grows.update_iff]
    | dsimp only
    | split

theorem softReset_grows {d0 d : Dev} (h : Grows d0 d) : Grows d0 (softReset d) := by
  unfold softReset
  repeat' first
    | intro _
    | with_reducible assumption
    | with_reducible first | apply setMdh_grows | apply mdhClear_grows | apply emptyMdhLayers_grows | apply wr_grows | apply fs_grows | apply platLanded_grows | apply onMdh_grows
    | with_reducible apply Grows.ite
    | with_reducible apply Grows.fold
    | simp only [Grows.update_iff]
    | dsimp only

theorem mdhCtrl_grows {d0 d : Dev} {a0 a1} (h : Grows d0 d) : Grows d0 (mdhCtrl a0 a1 d) := by
  unfold mdhCtrl
  repeat' first
    | with_reducible assumption
    | with_reducible first | apply setMdh_grows | apply softReset_grows
    | with_reducible apply Grows.ite
    | dsimp only

theorem mdhWrite_grows {d0 d : Dev} {a0 a1 a2} (h : Grows d0 d) : Grows d0 (mdhWrite a0 a1 a2 d) := by
  unfold mdhWrite
  repeat' first
    | with_reducible assumption
    | with_reducible first | apply logErr_grows | apply setMdh_grows | apply mdhCtrl_grows
    | with_reducible apply Grows.ite
    | dsimp only
    | split

theorem doDispUpdate_grows {d0 d : Dev} {a0 a1 a2} (h : Grows d0 d) : Grows d0 (doDispUpdate a0 a1 a2 d) := by
  unfold doDispUpdate
  repeat' first
    | with_reducible assumption
    | with_reducible first | apply mdhWrite_grows
    | dsimp only

theorem doMdhShadowWrite_grows {d0 d : Dev} {a0 a1 a2} (h : Grows d0 d) : Grows d0 (doMdhShadowWrite a0 a1 a2 d) := by
  unfold doMdhShadowWrite
  repeat' first
    | with_reducible assumption
    | with_reducible first | apply mdhWrite_grows
    | dsimp only

theorem doSoftRst_grows {d0 d : Dev} {a0 a1} (h : Grows d0 d) : Grows d0 (doSoftRst a0 a1 d) := by
  unfold doSoftRst
  repeat' first
    | with_reducible assumption
    | with_reducible first | apply mdhWrite_grows
    | dsimp only

theorem doSoftRstDone_grows {d0 d : Dev} (h : Grows d0 d) : Grows d0 (doSoftRstDone d) := by
  unfold doSoftRstDone
  repeat' first
    | intro _
    | with_reducible assumption
    | with_reducible first | apply doPlatformDisable_grows | apply advance_grows | apply setMdh_grows | apply onMdh_grows
    | with_reducible apply Grows.ite
    | with_reducible apply Grows.fold
    | simp only [Grows.update_iff]
    | dsimp only
    | split

theorem doApertureAccess_grows {d0 d : Dev} {a0 a1 a2} (h : Grows d0 d) : Grows d0 (doApertureAccess a0 a1 a2 d) := by
  unfold doApertureAccess
  repeat' first
    | with_reducible assumption
    | with_reducible first | apply dramStore_grows | apply cleanLines_grows | apply emit_grows | apply wr_grows
    | with_reducible apply Grows.ite
    | dsimp only
    | split

theorem doExtKeyWrite_grows {d0 d : Dev} {a0 a1} (h : Grows d0 d) : Grows d0 (doExtKeyWrite a0 a1 d) := by
  unfold doExtKeyWrite
  repeat' first
    | with_reducible assumption
    | with_reducible first | apply regWrite_grows | apply onMdh_grows | apply logErr_grows | apply fs_grows
    | with_reducible apply Grows.ite
    | with_reducible apply Grows.itePair
    | simp only [Grows.update_iff]
    | dsimp only
    | split

theorem closeExt_grows {d0 d : Dev} (h : Grows d0 d) : Grows d0 (closeExt d) := by
  unfold closeExt
  repeat' first
    | with_reducible assumption
    | with_reducible first | apply fs_grows | apply onMdh_grows
    | simp only [Grows.update_iff]
    | dsimp only

end Sys2Proof.Machine
end

