-- ==== Sys2Proof/Laws/GrowsStaging.lean ====
section
/-! SUPPORT. No operation of Machine/Staging.lean undoes what `Grows` keeps. -/

set_option linter.unusedTactic false
set_option linter.unreachableTactic false
set_option linter.unusedSimpArgs false
set_option linter.unusedVariables false

namespace Sys2Proof.Machine

theorem clearStage_grows {d0 d : Dev} {a1} (h : Grows d0 d) : Grows d0 (clearStage d a1) := by
  unfold clearStage
  repeat' first
    | with_reducible assumption
    | with_reducible apply Grows.ite
    | simp only [Grows.update_iff]
    | dsimp only

theorem withParts_grows {d0 d : Dev} {a1} (h : Grows d0 d) : Grows d0 (withParts d a1) := by
  unfold withParts
  repeat' first
    | with_reducible assumption
    | simp only [Grows.update_iff]
    | dsimp only [id]
    | dsimp only

theorem commitStage_grows {d0 d : Dev} {a1 a2 a3 a4} (h : Grows d0 d) : Grows d0 (commitStage d a1 a2 a3 a4) := by
  unfold commitStage
  repeat' first
    | with_reducible assumption
    | with_reducible first | apply clearStage_grows | apply fs_grows | apply stageStatus_grows | apply acceptCommit_grows
    | with_reducible apply Grows.ite
    | with_reducible apply Grows.itePair
    | dsimp only
    | split

theorem doStageCommit_grows {d0 d : Dev} {a0 a1 a2} (h : Grows d0 d) : Grows d0 (doStageCommit a0 a1 a2 d) := by
  unfold doStageCommit
  repeat' first
    | with_reducible assumption
    | with_reducible first | apply guardWrite_grows | apply commitStage_grows
    | simp only [Grows.update_iff]
    | dsimp only
    | split

theorem doSiCommit_grows {d0 d : Dev} {a0 a1 a2} (h : Grows d0 d) : Grows d0 (doSiCommit a0 a1 a2 d) := by
  unfold doSiCommit
  repeat' first
    | with_reducible assumption
    | with_reducible first | apply guardWrite_grows | apply commitStage_grows
    | simp only [Grows.update_iff]
    | dsimp only
    | split

end Sys2Proof.Machine
end

