-- ==== Sys2Proof/Laws/GrowsLanding.lean ====
section
/-! SUPPORT. No operation of Machine/Landing.lean undoes what `Grows` keeps. -/

set_option linter.unusedTactic false
set_option linter.unreachableTactic false
set_option linter.unusedSimpArgs false
set_option linter.unusedVariables false

namespace Sys2Proof.Machine

theorem leaveGhost_grows {d0 d : Dev} {a1 a2 a3} (h : Grows d0 d) : Grows d0 (leaveGhost d a1 a2 a3) := by
  unfold leaveGhost
  repeat' first
    | with_reducible assumption
    | with_reducible apply Grows.ite
    | simp only [Grows.update_iff]
    | dsimp only
    | split

theorem landLineStore_grows {d0 d : Dev} {a1 a2 a3} (h : Grows d0 d) : Grows d0 (landLineStore d a1 a2 a3) := by
  unfold landLineStore
  repeat' first
    | with_reducible assumption
    | with_reducible first | apply skGive_grows | apply skTakeHigh_grows
    | with_reducible apply Grows.ite
    | dsimp only

theorem joinLayer_grows {d0 d : Dev} {a1 a2 a3 a4 a5 a6} (h : Grows d0 d) : Grows d0 (joinLayer d a1 a2 a3 a4 a5 a6) := by
  unfold joinLayer
  repeat' first
    | with_reducible assumption
    | with_reducible first | apply leaveGhost_grows | apply wrs_grows | apply skGive_grows | apply fs_grows | apply setLayerState_grows | apply landLineStore_grows
    | with_reducible apply Grows.ite
    | simp only [Grows.update_iff]
    | dsimp only [id]
    | dsimp only

theorem quitLayer_grows {d0 d : Dev} {a1 a2} (h : Grows d0 d) : Grows d0 (quitLayer d a1 a2) := by
  unfold quitLayer
  repeat' first
    | with_reducible assumption
    | with_reducible apply Grows.ite
    | simp only [Grows.update_iff]
    | dsimp only

theorem landLayer_grows {d0 d : Dev} {a1 a2 a3 a4 a5 a6 a7} (h : Grows d0 d) : Grows d0 (landLayer d a1 a2 a3 a4 a5 a6 a7) := by
  unfold landLayer
  repeat' first
    | with_reducible assumption
    | with_reducible first | apply joinLayer_grows | apply quitLayer_grows | apply emptyLayer_grows
    | with_reducible apply Grows.ite
    | dsimp only [id]
    | dsimp only

theorem clearPatches_grows {d0 d : Dev} {a1} (h : Grows d0 d) : Grows d0 (clearPatches d a1) := by
  unfold clearPatches
  repeat' first
    | intro _
    | with_reducible assumption
    | with_reducible first | apply emptyLayer_grows
    | with_reducible apply Grows.ite
    | with_reducible apply Grows.fold
    | dsimp only

theorem landColour_grows {d0 d : Dev} {a1 a2 a3 a4 a5 a6} (h : Grows d0 d) : Grows d0 (landColour d a1 a2 a3 a4 a5 a6) := by
  unfold landColour
  repeat' first
    | with_reducible assumption
    | with_reducible first | apply wr_grows | apply wrs_grows | apply clearPatches_grows
    | with_reducible apply Grows.ite
    | simp only [Grows.update_iff]
    | dsimp only
    | split

theorem landMdhLayer_grows {d0 d : Dev} {a1 a2 a3} (h : Grows d0 d) : Grows d0 (landMdhLayer d a1 a2 a3) := by
  unfold landMdhLayer
  repeat' first
    | with_reducible assumption
    | with_reducible first | apply landLineStore_grows | apply setLayerState_grows | apply wrs_grows | apply emptyLayer_grows
    | with_reducible apply Grows.ite
    | dsimp only

theorem captureLayers_grows {d0 d : Dev} {a1 a2} (h : Grows d0 d) : Grows d0 (captureLayers d a1 a2) := by
  unfold captureLayers
  repeat' first
    | intro _
    | with_reducible assumption
    | with_reducible first | apply wr_grows | apply landMdhLayer_grows
    | with_reducible apply Grows.fold
    | simp only [Grows.update_iff]
    | dsimp only

theorem loseHere_grows {d0 d : Dev} {a1 a2 a3 a4 a5 a6} (h : Grows d0 d) : Grows d0 (loseHere d a1 a2 a3 a4 a5 a6) := by
  unfold loseHere
  repeat' first
    | intro _
    | with_reducible assumption
    | with_reducible first | apply loseLayer_grows
    | with_reducible apply Grows.ite
    | with_reducible apply Grows.fold
    | dsimp only

theorem exitCapture_grows {d0 d : Dev} {a1} (h : Grows d0 d) : Grows d0 (exitCapture d a1) := by
  unfold exitCapture
  repeat' first
    | with_reducible assumption
    | with_reducible first | apply mdhError_grows | apply captureLayers_grows
    | with_reducible apply Grows.ite
    | dsimp only
    | split

theorem compItem_grows {d0 d : Dev} {a0 a1 a2 a3 a5} (h : Grows d0 d) : Grows d0 (compItem a0 a1 a2 a3 d a5) := by
  unfold compItem
  repeat' first
    | with_reducible assumption
    | with_reducible first | apply landLayer_grows | apply wrs_grows | apply landColour_grows | apply loseHere_grows | apply loseLayer_grows | apply demoteLayer_grows | apply captureLayers_grows | apply exitCapture_grows | apply exitOn_grows
    | with_reducible apply Grows.ite
    | dsimp only [id]
    | dsimp only
    | split

theorem abortParked_grows {d0 d : Dev} {a1 a2} (h : Grows d0 d) : Grows d0 (abortParked d a1 a2) := by
  unfold abortParked
  repeat' first
    | intro _
    | with_reducible assumption
    | with_reducible first | apply complete_grows
    | with_reducible apply Grows.fold
    | dsimp only

theorem loseCtx_grows {d0 d : Dev} {a1 a2 a3} (h : Grows d0 d) : Grows d0 (loseCtx d a1 a2 a3) := by
  unfold loseCtx
  repeat' first
    | intro _
    | with_reducible assumption
    | with_reducible first | apply freeCtx_grows | apply abortParked_grows | apply stallFetch_grows
    | with_reducible apply Grows.ite
    | with_reducible apply Grows.fold
    | dsimp only

theorem losePoint_grows {d0 d : Dev} {a1} (h : Grows d0 d) : Grows d0 (losePoint d a1) := by
  unfold losePoint
  repeat' first
    | with_reducible assumption
    | with_reducible first | apply endBound_grows | apply disarm_grows
    | dsimp only

theorem loseStream_grows {d0 d : Dev} {a1} (h : Grows d0 d) : Grows d0 (loseStream d a1) := by
  unfold loseStream
  repeat' first
    | with_reducible assumption
    | with_reducible first | apply dropStream_grows | apply auEnds_grows | apply onStream_grows
    | simp only [Grows.update_iff]
    | dsimp only

theorem loseHaptic_grows {d0 d : Dev} {a1} (h : Grows d0 d) : Grows d0 (loseHaptic d a1) := by
  unfold loseHaptic
  repeat' first
    | with_reducible assumption
    | with_reducible first | apply endPend_grows | apply beginBrake_grows
    | with_reducible apply Grows.ite
    | dsimp only

theorem landPartition_grows {d0 d : Dev} {a1 a2 a3} (h : Grows d0 d) : Grows d0 (landPartition d a1 a2 a3) := by
  unfold landPartition
  repeat' first
    | intro _
    | with_reducible assumption
    | with_reducible first | apply linkSend_grows | apply setPt_grows | apply loseCtx_grows | apply losePoint_grows | apply touchRemove_grows | apply loseHaptic_grows | apply loseStream_grows | apply abortParked_grows | apply loseHere_grows | apply onCommit_grows | apply gpuRun_grows | apply post_grows
    | with_reducible apply Grows.ite
    | with_reducible apply Grows.itePair
    | with_reducible apply Grows.fold
    | simp only [Grows.update_iff]
    | dsimp only [id]
    | dsimp only

theorem landExpH_grows {d0 d : Dev} {a1} (h : Grows d0 d) : Grows d0 (landExpH d a1) := by
  unfold landExpH
  repeat' first
    | intro _
    | with_reducible assumption
    | with_reducible first | apply fs_grows | apply onPlat_grows
    | with_reducible apply Grows.ite
    | with_reducible apply Grows.fold
    | simp only [Grows.update_iff]
    | dsimp only

theorem landReg_grows {d0 d : Dev} {a1 a2 a3 a4 a5} (h : Grows d0 d) : Grows d0 (landReg d a1 a2 a3 a4 a5) := by
  unfold landReg
  repeat' first
    | with_reducible assumption
    | with_reducible first | apply landExpH_grows | apply wr_grows | apply routeLanded_grows | apply cfgLanded_grows
    | with_reducible apply Grows.ite
    | dsimp only
    | split

theorem restItem_grows {d0 d : Dev} {a0 a1 a2 a4} (h : Grows d0 d) : Grows d0 (restItem a0 a1 a2 d a4) := by
  unfold restItem
  repeat' first
    | with_reducible assumption
    | with_reducible first | apply landReg_grows | apply touchLand_grows | apply touchKeyLand_grows | apply hapLand_grows | apply routeLand_grows | apply landPartition_grows | apply landMode_grows | apply capturePlat_grows | apply landCautionExit_grows
    | with_reducible apply Grows.ite
    | dsimp only
    | split

theorem endRefs_grows {d0 d : Dev} {a1 a2 a3} (h : Grows d0 d) : Grows d0 (endRefs d a1 a2 a3) := by
  unfold endRefs
  repeat' first
    | with_reducible assumption
    | with_reducible first | apply closeDue_grows | apply bindRefs_grows
    | dsimp only

theorem applyPart_grows {d0 d : Dev} {a0 a1 a2 a3 a4 a6} (h : Grows d0 d) : Grows d0 (applyPart a0 a1 a2 a3 a4 d a6) := by
  unfold applyPart
  repeat' first
    | with_reducible assumption
    | with_reducible first | apply restItem_grows | apply compItem_grows
    | dsimp only
    | split

theorem landOne_grows {d0 d : Dev} {a0 a1 a2 a4} (h : Grows d0 d) : Grows d0 (landOne a0 a1 a2 d a4) := by
  unfold landOne
  repeat' first
    | intro _
    | with_reducible assumption
    | with_reducible first | apply endCommit_grows | apply keepSigs_grows | apply endRefs_grows | apply applyPart_grows | apply platLanded_grows | apply onPlat_grows | apply landedOn_grows | apply snapCfg_grows | apply tagLanding_grows
    | with_reducible apply Grows.ite
    | with_reducible apply Grows.itePair
    | with_reducible apply Grows.fold
    | simp only [Grows.update_iff]
    | dsimp only
    | split

theorem doCommitLand_grows {d0 d : Dev} {a0 a1 a2} (h : Grows d0 d) : Grows d0 (doCommitLand a0 a1 a2 d) := by
  unfold doCommitLand
  repeat' first
    | intro _
    | with_reducible assumption
    | with_reducible first | apply landOne_grows | apply advance_grows | apply resumeFetch_grows | apply gpuRun_grows | apply showPending_grows | apply touchSweep_grows | apply closeDue_grows
    | with_reducible apply Grows.ite
    | with_reducible apply Grows.itePair
    | with_reducible apply Grows.fold
    | dsimp only [id]
    | dsimp only
    | split

theorem leaveAll_grows {d0 d : Dev} {a1} (h : Grows d0 d) : Grows d0 (leaveAll d a1) := by
  unfold leaveAll
  repeat' first
    | intro _
    | with_reducible assumption
    | with_reducible first | apply landOne_grows | apply advance_grows
    | with_reducible apply Grows.fold
    | dsimp only [id]
    | dsimp only

theorem doFunctionDeparted_grows {d0 d : Dev} {a0} (h : Grows d0 d) : Grows d0 (doFunctionDeparted a0 d) := by
  unfold doFunctionDeparted
  repeat' first
    | intro _
    | with_reducible assumption
    | with_reducible first | apply departLast_grows | apply leaveAll_grows | apply onFn_grows | apply setFnState_grows | apply post_grows | apply complete_grows
    | with_reducible apply Grows.ite
    | with_reducible apply Grows.itePair
    | with_reducible apply Grows.fold
    | simp only [Grows.update_iff]
    | dsimp only

theorem tableAt_grows {d0 d : Dev} {a1} (h : Grows d0 d) : Grows d0 (tableAt d a1) := by
  unfold tableAt
  repeat' first
    | intro _
    | with_reducible assumption
    | with_reducible first | apply setPt_grows
    | with_reducible apply Grows.fold
    | dsimp only
    | split

theorem viewAt_grows {d0 d : Dev} {a1 a2} (h : Grows d0 d) : Grows d0 (viewAt d a1 a2) := by
  unfold viewAt
  repeat' first
    | intro _
    | with_reducible assumption
    | with_reducible first | apply compItem_grows
    | with_reducible apply Grows.fold
    | dsimp only

theorem readHeaders_grows {d0 d : Dev} {a1 a2 a3} (h : Grows d0 d) : Grows d0 (readHeaders d a1 a2 a3) := by
  unfold readHeaders
  repeat' first
    | with_reducible assumption
    | with_reducible apply Grows.ite
    | simp only [Grows.update_iff]
    | dsimp only
    | split

theorem storeBand_grows {d0 d : Dev} {a1 a2 a3} (h : Grows d0 d) : Grows d0 (storeBand d a1 a2 a3) := by
  unfold storeBand
  repeat' first
    | with_reducible assumption
    | with_reducible first | apply dramRelease_grows
    | with_reducible apply Grows.ite
    | dsimp only

theorem sendUpdate_grows {d0 d : Dev} {a1 a2 a3 a4} (h : Grows d0 d) : Grows d0 (sendUpdate d a1 a2 a3 a4) := by
  unfold sendUpdate
  repeat' first
    | with_reducible assumption
    | with_reducible first | apply emit_grows
    | with_reducible apply Grows.ite
    | dsimp only
    | split

theorem doStripComposeDone_grows {d0 d : Dev} {a0 a1 a2 a3} (h : Grows d0 d) : Grows d0 (doStripComposeDone a0 a1 a2 a3 d) := by
  unfold doStripComposeDone
  repeat' first
    | with_reducible assumption
    | with_reducible first | apply readHeaders_grows | apply viewAt_grows | apply emit_grows | apply sendUpdate_grows | apply count_grows | apply storeBand_grows | apply noteStrip_grows | apply bump_grows | apply postLate_grows | apply closeStrip_grows
    | with_reducible apply Grows.ite
    | with_reducible apply Grows.itePair
    | simp only [Grows.update_iff]
    | dsimp only
    | split

theorem dropFetch_grows {d0 d : Dev} {a1 a2 a3 a4} (h : Grows d0 d) : Grows d0 (dropFetch d a1 a2 a3 a4) := by
  unfold dropFetch
  repeat' first
    | with_reducible assumption
    | with_reducible first | apply snapCfg_grows | apply bump_grows | apply fs_grows
    | with_reducible apply Grows.ite
    | simp only [Grows.update_iff]
    | dsimp only

theorem doFetchFault_grows {d0 d : Dev} {a0 a1 a2 a3 a4} (h : Grows d0 d) : Grows d0 (doFetchFault a0 a1 a2 a3 a4 d) := by
  unfold doFetchFault
  repeat' first
    | with_reducible assumption
    | with_reducible first | apply bump_grows | apply post_grows | apply dropFetch_grows | apply noteFault_grows
    | with_reducible apply Grows.ite
    | simp only [Grows.update_iff]
    | dsimp only
    | split

end Sys2Proof.Machine
end

