-- ==== Sys2Proof/Laws/GrowsResets.lean ====
section
/-! SUPPORT. No operation of Machine/Resets.lean undoes what `Grows` keeps. -/

set_option linter.unusedTactic false
set_option linter.unreachableTactic false
set_option linter.unusedSimpArgs false
set_option linter.unusedVariables false

namespace Sys2Proof.Machine

theorem latchStraps_grows (st : Straps) {d : Dev} :
    Grows { d with heritage := st.heritage, seatB := st.seatB, bootMode := st.bootMode.toNat } (latchStraps d st) :=
  fs_grows (fs_grows (fs_grows (Grows.refl _)))

theorem resetMode_grows {d0 d : Dev} (h : Grows d0 d) : Grows d0 (resetMode d) := by
  unfold resetMode
  repeat' first
    | with_reducible assumption
    | with_reducible first | apply setMode_grows
    | with_reducible apply Grows.ite
    | dsimp only

theorem doColdReset_grows (st : Straps) (d : Dev) :
    Grows { Dev.reset with heritage := st.heritage, seatB := st.seatB, bootMode := st.bootMode.toNat,
                           dramUnits := d.dramUnits, pm := keepStore d.pm, freeCtr := d.freeCtr, out := d.out }
      (doColdReset st d) :=
  resetMode_grows (restoreMap_grows (latchStraps_grows st
    (d := { Dev.reset with dramUnits := d.dramUnits, pm := keepStore d.pm, freeCtr := d.freeCtr, out := d.out })))

theorem warmDram_grows {d0 d : Dev} (h : Grows d0 d) : Grows d0 (warmDram d) := by
  unfold warmDram
  repeat' first
    | with_reducible assumption
    | with_reducible first | apply dramRelease_grows | apply zeroDram_grows
    | with_reducible apply Grows.ite
    | dsimp only

theorem warmTable_grows {d0 d : Dev} (h : Grows d0 d) : Grows d0 (warmTable d) := by
  unfold warmTable
  repeat' first
    | with_reducible assumption
    | with_reducible apply Grows.ite
    | simp only [Grows.update_iff]
    | dsimp only

theorem warmIsland_grows {d0 d old : Dev} (h : Grows d0 d) : Grows d0 (warmIsland old d) := by
  unfold warmIsland
  exact showErr_grows (fs_grows (fs_grows (fs_grows (wr_grows h))))

theorem warmDomains_grows {d0 d : Dev} (h : Grows d0 d) : Grows d0 (warmDomains d) := by
  unfold warmDomains
  repeat' first
    | intro _
    | with_reducible assumption
    | with_reducible first | apply wr_grows
    | with_reducible apply Grows.fold
    | dsimp only

theorem warmUnits_grows {d0 d : Dev} (h : Grows d0 d) : Grows d0 (warmUnits d) := by
  unfold warmUnits
  repeat' first
    | intro _
    | with_reducible assumption
    | with_reducible first | apply cutPlatform_grows
    | with_reducible apply Grows.fold
    | simp only [Grows.update_iff]
    | dsimp only

theorem warmMmu_grows {d0 d : Dev} (h : Grows d0 d) : Grows d0 (warmMmu d) := by
  unfold warmMmu
  repeat' first
    | intro _
    | with_reducible assumption
    | with_reducible first | apply fs_grows
    | with_reducible apply Grows.fold
    | dsimp only

theorem warm_grows {d0 d : Dev} {a1} (h : Grows d0 d) : Grows d0 (warm d a1) := by
  unfold warm
  repeat' first
    | with_reducible assumption
    | with_reducible first | apply addCause_grows | apply bellWarm_grows | apply warmUnits_grows | apply setHeartbeat_grows | apply setFenceOut_grows | apply warmMmu_grows | apply restore_grows | apply warmTable_grows | apply fs_grows | apply warmDomains_grows | apply warmIsland_grows | apply showMedia_grows | apply showSkein_grows | apply resetMode_grows | apply restoreMap_grows | apply warmDram_grows
    | dsimp only

theorem doWarmReset_grows {d0 d : Dev} {a0} (h : Grows d0 d) : Grows d0 (doWarmReset a0 d) := by
  unfold doWarmReset
  repeat' first
    | with_reducible assumption
    | with_reducible first | apply takeFree_grows | apply warm_grows | apply regWrite_grows
    | with_reducible apply Grows.ite
    | with_reducible apply Grows.itePair
    | dsimp only
    | split

theorem doDeadmanExpire_grows {d0 d : Dev} (h : Grows d0 d) : Grows d0 (doDeadmanExpire d) := by
  unfold doDeadmanExpire
  repeat' first
    | with_reducible assumption
    | with_reducible first | apply warm_grows | apply advance_grows
    | dsimp only
    | split

theorem doFunctionReset_grows {d0 d : Dev} {a0} (h : Grows d0 d) : Grows d0 (doFunctionReset a0 d) := by
  unfold doFunctionReset
  repeat' first
    | with_reducible assumption
    | with_reducible first | apply restore_grows | apply pfDeparture_grows | apply addCause_grows | apply closeExt_grows | apply softReset_grows | apply startDeparture_grows
    | with_reducible apply Grows.ite
    | dsimp only

theorem hpdAlone_grows {d0 d : Dev} (h : Grows d0 d) : Grows d0 (hpdAlone d) := by
  unfold hpdAlone
  repeat' first
    | intro _
    | with_reducible assumption
    | with_reducible first | apply wr_grows
    | with_reducible apply Grows.fold
    | dsimp only

theorem sectWork_grows {d0 d : Dev} {a1} (h : Grows d0 d) : Grows d0 (sectWork d a1) := by
  unfold sectWork
  repeat' first
    | with_reducible assumption
    | with_reducible first | apply restore_grows | apply ttClear_grows | apply gpuClear_grows | apply composeClear_grows | apply scanoutReset_grows | apply hpdAlone_grows | apply showPanels_grows | apply showHap_grows | apply showAudio_grows | apply showStreams_grows | apply touchSection_grows | apply audioSection_grows | apply hapSection_grows | apply pairSection_grows
    | dsimp only
    | split

theorem sectReset_grows {d0 d : Dev} {a1} (h : Grows d0 d) : Grows d0 (sectReset d a1) := by
  unfold sectReset
  repeat' first
    | with_reducible assumption
    | with_reducible first | apply wr_grows | apply sectWork_grows | apply addCause_grows
    | with_reducible apply Grows.ite
    | dsimp only

theorem sectWrite_grows {d0 d : Dev} {a0 a1} (h : Grows d0 d) : Grows d0 (sectWrite a0 a1 d) := by
  unfold sectWrite
  repeat' first
    | intro _
    | with_reducible assumption
    | with_reducible first | apply guardWrite_grows | apply sectReset_grows | apply wr_grows
    | with_reducible apply Grows.ite
    | with_reducible apply Grows.itePair
    | with_reducible apply Grows.fold
    | dsimp only
    | split

theorem doSectRstTt_grows {d0 d : Dev} {a0} (h : Grows d0 d) : Grows d0 (doSectRstTt a0 d) := by
  unfold doSectRstTt
  repeat' first
    | with_reducible assumption
    | with_reducible first | apply sectWrite_grows
    | dsimp only

theorem doSectRstRaster_grows {d0 d : Dev} {a0} (h : Grows d0 d) : Grows d0 (doSectRstRaster a0 d) := by
  unfold doSectRstRaster
  repeat' first
    | with_reducible assumption
    | with_reducible first | apply sectWrite_grows
    | dsimp only

theorem doSectRstCompose_grows {d0 d : Dev} {a0} (h : Grows d0 d) : Grows d0 (doSectRstCompose a0 d) := by
  unfold doSectRstCompose
  repeat' first
    | with_reducible assumption
    | with_reducible first | apply sectWrite_grows
    | dsimp only

theorem doSectRstScanout_grows {d0 d : Dev} {a0} (h : Grows d0 d) : Grows d0 (doSectRstScanout a0 d) := by
  unfold doSectRstScanout
  repeat' first
    | with_reducible assumption
    | with_reducible first | apply sectWrite_grows
    | dsimp only

theorem doSectRstMedia_grows {d0 d : Dev} {a0} (h : Grows d0 d) : Grows d0 (doSectRstMedia a0 d) := by
  unfold doSectRstMedia
  repeat' first
    | with_reducible assumption
    | with_reducible first | apply sectWrite_grows
    | dsimp only

theorem doSectRstPair_grows {d0 d : Dev} {a0} (h : Grows d0 d) : Grows d0 (doSectRstPair a0 d) := by
  unfold doSectRstPair
  repeat' first
    | with_reducible assumption
    | with_reducible first | apply sectWrite_grows
    | dsimp only

theorem doSectionResetDone_grows {d0 d : Dev} {a0} (h : Grows d0 d) : Grows d0 (doSectionResetDone a0 d) := by
  unfold doSectionResetDone
  repeat' first
    | with_reducible assumption
    | with_reducible first | apply wr_grows | apply gpuRun_grows | apply audioReturn_grows
    | with_reducible apply Grows.ite
    | simp only [Grows.update_iff]
    | dsimp only
    | split

theorem doLockWrite_grows {d0 d : Dev} {a0 a1} (h : Grows d0 d) : Grows d0 (doLockWrite a0 a1 d) := by
  unfold doLockWrite
  repeat' first
    | with_reducible assumption
    | with_reducible first | apply regWrite_grows
    | dsimp only

end Sys2Proof.Machine
end

