-- ==== Sys2Proof/Laws/GrowsRegWrite.lean ====
section
/-! SUPPORT. No operation of Machine/RegWrite.lean undoes what `Grows` keeps. -/

set_option linter.unusedTactic false
set_option linter.unreachableTactic false
set_option linter.unusedSimpArgs false
set_option linter.unusedVariables false

namespace Sys2Proof.Machine

theorem plainWrite_grows {d0 d : Dev} {a0 a1 a2} (h : Grows d0 d) : Grows d0 (plainWrite a0 a1 a2 d) := by
  unfold plainWrite
  repeat' first
    | with_reducible assumption
    | with_reducible first | apply regWrite_grows
    | dsimp only

theorem testedWrite_grows {d0 d : Dev} {a0 a1 a2 a3} (h : Grows d0 d) : Grows d0 (testedWrite a0 a1 a2 a3 d) := by
  unfold testedWrite
  repeat' first
    | with_reducible assumption
    | with_reducible first | apply guardWrite_grows
    | dsimp only

theorem thenWrite_grows {d0 d : Dev} {a off v g} (hg : ∀ d, Grows d0 d → Grows d0 (g d)) (h : Grows d0 d) :
    Grows d0 (thenWrite a off v g d) := by
  unfold thenWrite
  have hw := regWrite_grows (a0 := a) (a1 := off) (a2 := v) h
  dsimp only
  split
  · exact hg _ hw
  · exact hw

theorem windowEmpty_grows {d0 d : Dev} {a0 a1 a2} (h : Grows d0 d) : Grows d0 (windowEmpty a0 a1 a2 d) := by
  unfold windowEmpty
  repeat' first
    | with_reducible assumption
    | with_reducible first | apply logErr_grows
    | dsimp only

theorem windowWrite_grows {d0 d : Dev} {a0 a1 a2} (h : Grows d0 d) : Grows d0 (windowWrite a0 a1 a2 d) := by
  unfold windowWrite
  repeat' first
    | with_reducible assumption
    | with_reducible first | apply bellStage_grows | apply doBellPost_grows | apply doBellPop_grows | apply doDoorbellClear_grows | apply doDoorbellMaskWrite_grows | apply dbWrite_grows | apply doTokenRelease_grows | apply windowEmpty_grows
    | with_reducible apply Grows.ite
    | with_reducible apply Grows.itePair
    | dsimp only
    | split

theorem windowRead_grows {d0 d : Dev} {a0 a1} (h : Grows d0 d) : Grows d0 (windowRead a0 a1 d) := by
  unfold windowRead
  repeat' first
    | with_reducible assumption
    | with_reducible first | apply doTokenAcquire_grows | apply bellServed_grows | apply bellDown_grows | apply emit_grows | apply windowEmpty_grows
    | with_reducible apply Grows.ite
    | with_reducible apply Grows.itePair
    | dsimp only
    | split

theorem vecWrite_grows {d0 d : Dev} {a1 a2 a3 a4} (h : Grows d0 d) : Grows d0 (vecWrite d a1 a2 a3 a4) := by
  unfold vecWrite
  repeat' first
    | with_reducible assumption
    | with_reducible first | apply onVec_grows | apply emit_grows
    | with_reducible apply Grows.ite
    | simp only [Grows.update_iff]
    | dsimp only
    | split

theorem bar4Write_grows {d0 d : Dev} {a0 a1 a2 a3} (h : Grows d0 d) : Grows d0 (bar4Write a0 a1 a2 a3 d) := by
  unfold bar4Write
  repeat' first
    | with_reducible assumption
    | with_reducible first | apply vecWrite_grows
    | with_reducible apply Grows.ite
    | dsimp only

theorem bar4Read_grows {d0 d : Dev} {a0 a1 a2} (h : Grows d0 d) : Grows d0 (bar4Read a0 a1 a2 d) := by
  unfold bar4Read
  repeat' first
    | with_reducible assumption
    | with_reducible first | apply emit_grows
    | with_reducible apply Grows.ite
    | dsimp only

theorem kickWrite_grows {d0 d : Dev} {a0 a1 a2} (h : Grows d0 d) : Grows d0 (kickWrite a0 a1 a2 d) := by
  unfold kickWrite
  repeat' first
    | with_reducible assumption
    | with_reducible first | apply doKick_grows | apply doReloadRing_grows | apply doReloadVectors_grows | apply logErr_grows
    | with_reducible apply Grows.ite
    | simp only [Grows.update_iff]
    | dsimp only
    | split

theorem vfWrite_grows {d0 d : Dev} {a0 a1 a2 a3} (h : Grows d0 d) : Grows d0 (vfWrite a0 a1 a2 a3 d) := by
  unfold vfWrite
  repeat' first
    | with_reducible assumption
    | with_reducible first | apply kickWrite_grows | apply windowWrite_grows | apply logErr_grows | apply windowEmpty_grows
    | with_reducible apply Grows.ite
    | dsimp only

theorem vfRead_grows {d0 d : Dev} {a0 a1 a2} (h : Grows d0 d) : Grows d0 (vfRead a0 a1 a2 d) := by
  unfold vfRead
  repeat' first
    | with_reducible assumption
    | with_reducible first | apply windowRead_grows | apply emit_grows | apply windowEmpty_grows
    | with_reducible apply Grows.ite
    | dsimp only
    | split

theorem writeGL_grows {d0 d : Dev} {a0 a1 a2} (h : Grows d0 d) : Grows d0 (writeGL a0 a1 a2 d) := by
  unfold writeGL
  repeat' first
    | with_reducible assumption
    | with_reducible first | apply doLockWrite_grows | apply sectWrite_grows | apply doStageCommit_grows | apply doExtKeyWrite_grows | apply plainWrite_grows
    | with_reducible apply Grows.ite
    | dsimp only

theorem writeTT_grows {d0 d : Dev} {a0 a1 a2} (h : Grows d0 d) : Grows d0 (writeTT a0 a1 a2 d) := by
  unfold writeTT
  repeat' first
    | with_reducible assumption
    | with_reducible first | apply doCpSelWrite_grows | apply doConvStart_grows | apply doCpStoreWrite_grows | apply doCpStageWrite_grows | apply doFlCtrlWrite_grows | apply plainWrite_grows
    | with_reducible apply Grows.ite
    | dsimp only
    | split

theorem writeHS_grows {d0 d : Dev} {a0 a1 a2} (h : Grows d0 d) : Grows d0 (writeHS a0 a1 a2 d) := by
  unfold writeHS
  repeat' first
    | intro _
    | with_reducible assumption
    | with_reducible first | apply kickWrite_grows | apply testedWrite_grows | apply doPtSelWrite_grows | apply thenWrite_grows | apply gpuRun_grows | apply doPartitionWindowSubmit_grows | apply ptStageWrite_grows | apply logErr_grows | apply plainWrite_grows
    | with_reducible apply Grows.ite
    | dsimp only
    | split

theorem writeMM_grows {d0 d : Dev} {a0 a1 a2} (h : Grows d0 d) : Grows d0 (writeMM a0 a1 a2 d) := by
  unfold writeMM
  repeat' first
    | with_reducible assumption
    | with_reducible first | apply mmInval_grows | apply doMmuRootWrite_grows | apply plainWrite_grows
    | with_reducible apply Grows.ite
    | dsimp only
    | split

theorem writeGX_grows {d0 d : Dev} {a0 a1 a2} (h : Grows d0 d) : Grows d0 (writeGX a0 a1 a2 d) := by
  unfold writeGX
  repeat' first
    | intro _
    | with_reducible assumption
    | with_reducible first | apply doBistStart_grows | apply thenWrite_grows | apply gpuRun_grows | apply plainWrite_grows
    | with_reducible apply Grows.ite
    | dsimp only

theorem setLanes_grows {d0 d : Dev} {a0 a1 a3} (h : Grows d0 d) : Grows d0 (setLanes a0 a1 d a3) := by
  unfold setLanes
  repeat' first
    | with_reducible assumption
    | with_reducible first | apply onPlat_grows
    | with_reducible apply Grows.ite
    | with_reducible apply Grows.itePair
    | simp only [Grows.update_iff]
    | dsimp only

theorem cmCtrlWrite_grows {d0 d : Dev} {a0 a1} (h : Grows d0 d) : Grows d0 (cmCtrlWrite a0 a1 d) := by
  unfold cmCtrlWrite
  repeat' first
    | intro _
    | with_reducible assumption
    | with_reducible first | apply thenWrite_grows | apply setLanes_grows | apply fs_grows
    | with_reducible apply Grows.ite
    | with_reducible apply Grows.fold
    | simp only [Grows.update_iff]
    | dsimp only

theorem bankWrite_grows {d0 d : Dev} {a0 a1 a2 a3 a4} (h : Grows d0 d) : Grows d0 (bankWrite a0 a1 a2 a3 a4 d) := by
  unfold bankWrite
  repeat' first
    | with_reducible assumption
    | with_reducible first | apply testedWrite_grows
    | with_reducible apply Grows.ite
    | dsimp only

theorem writeCM_grows {d0 d : Dev} {a0 a1 a2} (h : Grows d0 d) : Grows d0 (writeCM a0 a1 a2 d) := by
  unfold writeCM
  repeat' first
    | with_reducible assumption
    | with_reducible first | apply cmCtrlWrite_grows | apply doCc3AuthWrite_grows | apply doSiCommit_grows | apply bankWrite_grows | apply plainWrite_grows
    | with_reducible apply Grows.ite
    | dsimp only

theorem skResWrite_grows {d0 d : Dev} {a0 a1 a2} (h : Grows d0 d) : Grows d0 (skResWrite a0 a1 a2 d) := by
  unfold skResWrite
  repeat' first
    | with_reducible assumption
    | with_reducible first | apply guardWrite_grows | apply showSkein_grows
    | with_reducible apply Grows.ite
    | with_reducible apply Grows.itePair
    | dsimp only
    | split

theorem writeSK_grows {d0 d : Dev} {a0 a1 a2} (h : Grows d0 d) : Grows d0 (writeSK a0 a1 a2 d) := by
  unfold writeSK
  repeat' first
    | with_reducible assumption
    | with_reducible first | apply doWatermarkRaise_grows | apply doWatermarkLower_grows | apply skResWrite_grows | apply plainWrite_grows
    | with_reducible apply Grows.ite
    | dsimp only
    | split

theorem writeSO_grows {d0 d : Dev} {a0 a1 a2} (h : Grows d0 d) : Grows d0 (writeSO a0 a1 a2 d) := by
  unfold writeSO
  repeat' first
    | with_reducible assumption
    | with_reducible first | apply doMuteWrite_grows | apply doDpllWrite_grows | apply doBklWrite_grows | apply doDutyWrite_grows | apply doAuxGo_grows | apply auxWindowWrite_grows | apply plainWrite_grows
    | with_reducible apply Grows.ite
    | with_reducible apply Grows.itePair
    | dsimp only
    | split

theorem writeAU_grows {d0 d : Dev} {a0 a1 a2} (h : Grows d0 d) : Grows d0 (writeAU a0 a1 a2 d) := by
  unfold writeAU
  repeat' first
    | with_reducible assumption
    | with_reducible first | apply auDomWrite_grows | apply auPortWrite_grows | apply auBusWrite_grows | apply auBridgeWrite_grows | apply chimeWrite_grows | apply doEqSectionMove_grows | apply plainWrite_grows
    | with_reducible apply Grows.ite
    | with_reducible apply Grows.itePair
    | dsimp only
    | split

theorem portWrite_grows {d0 d : Dev} {a0 a1 a2} (h : Grows d0 d) : Grows d0 (portWrite a0 a1 a2 d) := by
  unfold portWrite
  repeat' first
    | with_reducible assumption
    | with_reducible first | apply windowEmpty_grows | apply logErr_grows | apply windowWrite_grows
    | with_reducible apply Grows.ite
    | dsimp only

theorem writeBL_grows {d0 d : Dev} {a0 a1 a2} (h : Grows d0 d) : Grows d0 (writeBL a0 a1 a2 d) := by
  unfold writeBL
  repeat' first
    | with_reducible assumption
    | with_reducible first | apply portWrite_grows | apply doBellBindWrite_grows | apply plainWrite_grows
    | with_reducible apply Grows.ite
    | dsimp only
    | split

theorem writePM_grows {d0 d : Dev} {a0 a1 a2} (h : Grows d0 d) : Grows d0 (writePM a0 a1 a2 d) := by
  unfold writePM
  repeat' first
    | intro _
    | with_reducible assumption
    | with_reducible first | apply doWarmReset_grows | apply ldrWrite_grows | apply testedWrite_grows | apply thenWrite_grows | apply thermRelease_grows | apply doDomainCtrlWrite_grows | apply plainWrite_grows
    | with_reducible apply Grows.ite
    | dsimp only [id]
    | dsimp only
    | split

theorem writeMC_grows {d0 d : Dev} {a0 a1 a2} (h : Grows d0 d) : Grows d0 (writeMC a0 a1 a2 d) := by
  unfold writeMC
  repeat' first
    | with_reducible assumption
    | with_reducible first | apply doWatermarkRaise_grows | apply doWatermarkLower_grows | apply plainWrite_grows
    | with_reducible apply Grows.ite
    | dsimp only

theorem writeSE_grows {d0 d : Dev} {a0 a1 a2} (h : Grows d0 d) : Grows d0 (writeSE a0 a1 a2 d) := by
  unfold writeSE
  repeat' first
    | with_reducible assumption
    | with_reducible first | apply doDeadmanKick_grows | apply testedWrite_grows | apply doHoldOp_grows | apply plainWrite_grows
    | with_reducible apply Grows.ite
    | dsimp only

theorem writeSF_grows {d0 d : Dev} {a0 a1 a2} (h : Grows d0 d) : Grows d0 (writeSF a0 a1 a2 d) := by
  unfold writeSF
  repeat' first
    | intro _
    | with_reducible assumption
    | with_reducible first | apply cautionWrite_grows | apply testedWrite_grows | apply thenWrite_grows | apply cautionGpu_grows | apply showErr_grows | apply plainWrite_grows
    | with_reducible apply Grows.ite
    | dsimp only

theorem writeDH_grows {d0 d : Dev} {a0 a1 a2} (h : Grows d0 d) : Grows d0 (writeDH a0 a1 a2 d) := by
  unfold writeDH
  repeat' first
    | intro _
    | with_reducible assumption
    | with_reducible first | apply doRemapDone_grows | apply doAliveWrite_grows | apply testedWrite_grows | apply thenWrite_grows | apply wr_grows | apply plainWrite_grows
    | with_reducible apply Grows.ite
    | dsimp only

theorem writeBar0_grows {d0 d : Dev} {a0 a1 a2} (h : Grows d0 d) : Grows d0 (writeBar0 a0 a1 a2 d) := by
  unfold writeBar0
  repeat' first
    | with_reducible assumption
    | with_reducible first | apply writeGL_grows | apply writeTT_grows | apply writeHS_grows | apply writeMM_grows | apply writeGX_grows | apply writeCM_grows | apply writeSK_grows | apply writeSO_grows | apply writeAU_grows | apply writeBL_grows | apply writePM_grows | apply writeMC_grows | apply writeSE_grows | apply writeSF_grows | apply writeDH_grows | apply plainWrite_grows
    | dsimp only
    | split

theorem doRegisterWrite_grows {d0 d : Dev} {a0 a1 a2 a3} (h : Grows d0 d) : Grows d0 (doRegisterWrite a0 a1 a2 a3 d) := by
  unfold doRegisterWrite
  repeat' first
    | with_reducible assumption
    | with_reducible first | apply writeBar0_grows | apply vfWrite_grows | apply bar4Write_grows | apply mdhWrite_grows
    | dsimp only
    | split

theorem readBar0_grows {d0 d : Dev} {a0 a1} (h : Grows d0 d) : Grows d0 (readBar0 a0 a1 d) := by
  unfold readBar0
  repeat' first
    | with_reducible assumption
    | with_reducible first | apply doConvDone_grows | apply doDtRead_grows | apply doCounterRead_grows | apply doRposRead_grows | apply windowRead_grows | apply emit_grows | apply regRead_grows
    | with_reducible apply Grows.ite
    | dsimp only
    | split

theorem doReadClear_grows {d0 d : Dev} {a0 a1 a2} (h : Grows d0 d) : Grows d0 (doReadClear a0 a1 a2 d) := by
  unfold doReadClear
  repeat' first
    | with_reducible assumption
    | with_reducible first | apply readBar0_grows | apply vfRead_grows | apply bar4Read_grows | apply mdhRead_grows
    | with_reducible apply Grows.ite
    | dsimp only
    | split

end Sys2Proof.Machine
end

