-- ==== Sys2Proof/Laws/GrowsPairRecords.lean ====
section
/-! SUPPORT. No operation of Machine/PairRecords.lean undoes what `Grows` keeps. -/

set_option linter.unusedTactic false
set_option linter.unreachableTactic false
set_option linter.unusedSimpArgs false
set_option linter.unusedVariables false

namespace Sys2Proof.Machine

theorem sendBack_grows {d0 d : Dev} {a1 a2} (h : Grows d0 d) : Grows d0 (sendBack d a1 a2) := by
  unfold sendBack
  repeat' first
    | with_reducible assumption
    | with_reducible first | apply count_grows | apply emit_grows | apply onPair_grows
    | simp only [Grows.update_iff]
    | dsimp only

theorem takeRec_grows {d0 d : Dev} {x g} (hg : ∀ d, Grows d0 d → Grows d0 (g d)) (h : Grows d0 d) :
    Grows d0 (takeRec x g d) := by
  unfold takeRec
  have h1 := onPair_grows (a1 := fun x => { x with authRun := 0 }) (count_grows (a1 := 637) (a2 := 1) h)
  refine Grows.ite h (Grows.ite (bump_grows (sendBack_grows h1)) (hg _ (Grows.ite h1 (fs_grows h1))))

theorem bankerRec_grows {d0 d : Dev} {x g} (hg : ∀ d, Grows d0 d → Grows d0 (g d)) (h : Grows d0 d) :
    Grows d0 (bankerRec x g d) := by
  refine takeRec_grows (fun d h => ?_) h
  exact Grows.ite h (Grows.ite (hg _ (sendBack_grows (onPair_grows h))) (Grows.ite (sendBack_grows h) h))

theorem applyDesc_grows {d0 d : Dev} {a0 a1 a2 a3 a4} (h : Grows d0 d) : Grows d0 (applyDesc a0 a1 a2 a3 a4 d) := by
  unfold applyDesc
  repeat' first
    | with_reducible assumption
    | with_reducible first | apply onPair_grows | apply onRing_grows | apply purgeRing_grows | apply pushSlot_grows
    | with_reducible apply Grows.ite
    | simp only [Grows.update_iff]
    | dsimp only

theorem doRecDesc_grows {d0 d : Dev} {a0 a1 a2 a3 a4 a5} (h : Grows d0 d) : Grows d0 (doRecDesc a0 a1 a2 a3 a4 a5 d) := by
  unfold doRecDesc
  repeat' first
    | intro _
    | with_reducible assumption
    | with_reducible first | apply bankerRec_grows | apply applyDesc_grows
    | dsimp only

theorem applyCommit_grows {d0 d : Dev} {a0 a1 a2 a3 a4} (h : Grows d0 d) : Grows d0 (applyCommit a0 a1 a2 a3 a4 d) := by
  unfold applyCommit
  repeat' first
    | with_reducible assumption
    | with_reducible first | apply takeRecord_grows | apply onPair_grows
    | with_reducible apply Grows.ite
    | simp only [Grows.update_iff]
    | dsimp only [id]
    | dsimp only
    | split

theorem doRecCommit_grows {d0 d : Dev} {a0 a1 a2 a3 a4 a5} (h : Grows d0 d) : Grows d0 (doRecCommit a0 a1 a2 a3 a4 a5 d) := by
  unfold doRecCommit
  repeat' first
    | intro _
    | with_reducible assumption
    | with_reducible first | apply bankerRec_grows | apply applyCommit_grows
    | dsimp only [id]
    | dsimp only

theorem applyRestamp_grows {d0 d : Dev} {a0 a1} (h : Grows d0 d) : Grows d0 (applyRestamp a0 a1 d) := by
  unfold applyRestamp
  repeat' first
    | with_reducible assumption
    | with_reducible first | apply onCommit_grows | apply endCommit_grows | apply onPair_grows
    | with_reducible apply Grows.ite
    | simp only [Grows.update_iff]
    | dsimp only [id]
    | dsimp only
    | split

theorem doRecRestamp_grows {d0 d : Dev} {a0 a1 a2} (h : Grows d0 d) : Grows d0 (doRecRestamp a0 a1 a2 d) := by
  unfold doRecRestamp
  repeat' first
    | intro _
    | with_reducible assumption
    | with_reducible first | apply bankerRec_grows | apply applyRestamp_grows
    | dsimp only [id]
    | dsimp only

theorem applyWrite_grows {d0 d : Dev} {a0 a1 a2} (h : Grows d0 d) : Grows d0 (applyWrite a0 a1 a2 d) := by
  unfold applyWrite
  repeat' first
    | with_reducible assumption
    | with_reducible first | apply cleanLines_grows | apply dramStore_grows
    | with_reducible apply Grows.ite
    | dsimp only

theorem doRecWrite_grows {d0 d : Dev} {a0 a1 a2 a3} (h : Grows d0 d) : Grows d0 (doRecWrite a0 a1 a2 a3 d) := by
  unfold doRecWrite
  repeat' first
    | intro _
    | with_reducible assumption
    | with_reducible first | apply bankerRec_grows | apply applyWrite_grows
    | dsimp only

theorem mirrorWrite_grows {d0 d : Dev} {a0 a1} (h : Grows d0 d) : Grows d0 (mirrorWrite a0 a1 d) := by
  unfold mirrorWrite
  repeat' first
    | with_reducible assumption
    | with_reducible first | apply writeBar0_grows
    | with_reducible apply Grows.ite
    | dsimp only

theorem putBuffer_grows {d0 d : Dev} {a0 a1 a2 a3 a4} (h : Grows d0 d) : Grows d0 (putBuffer a0 a1 a2 a3 a4 d) := by
  unfold putBuffer
  repeat' first
    | with_reducible assumption
    | with_reducible first | apply showEntries_grows | apply onBuf_grows
    | simp only [Grows.update_iff]
    | dsimp only

theorem putPartition_grows {d0 d : Dev} {a0 a1} (h : Grows d0 d) : Grows d0 (putPartition a0 a1 d) := by
  unfold putPartition
  repeat' first
    | with_reducible assumption
    | with_reducible first | apply landPartition_grows
    | dsimp only [id]
    | dsimp only

theorem putMode_grows {d0 d : Dev} {a0} (h : Grows d0 d) : Grows d0 (putMode a0 d) := by
  unfold putMode
  repeat' first
    | intro _
    | with_reducible assumption
    | with_reducible first | apply landCautionExit_grows | apply exitOn_grows | apply setMode_grows
    | with_reducible apply Grows.ite
    | with_reducible apply Grows.fold
    | dsimp only

theorem putCaution_grows {d0 d : Dev} {a0 a1 a2 a3} (h : Grows d0 d) : Grows d0 (putCaution a0 a1 a2 a3 d) := by
  unfold putCaution
  repeat' first
    | with_reducible assumption
    | with_reducible first | apply wr_grows | apply enterCaution_grows | apply fs_grows
    | with_reducible apply Grows.ite
    | dsimp only

theorem putRing_grows {d0 d : Dev} {a0 a1 a2} (h : Grows d0 d) : Grows d0 (putRing a0 a1 a2 d) := by
  unfold putRing
  repeat' first
    | with_reducible assumption
    | with_reducible first | apply takeEntry_grows
    | with_reducible apply Grows.ite
    | dsimp only

theorem putVectors_grows {d0 d : Dev} {a0 a1} (h : Grows d0 d) : Grows d0 (putVectors a0 a1 d) := by
  unfold putVectors
  repeat' first
    | intro _
    | with_reducible assumption
    | with_reducible first | apply onFn_grows
    | with_reducible apply Grows.ite
    | with_reducible apply Grows.fold
    | simp only [Grows.update_iff]
    | dsimp only

theorem putPoint_grows {d0 d : Dev} {a0 a1} (h : Grows d0 d) : Grows d0 (putPoint a0 a1 d) := by
  unfold putPoint
  repeat' first
    | with_reducible assumption
    | with_reducible first | apply storeEntry_grows
    | dsimp only

theorem putIdx_grows {d0 d : Dev} {a0 a1 a2 a3 a4} (h : Grows d0 d) : Grows d0 (putIdx a0 a1 a2 a3 a4 d) := by
  unfold putIdx
  repeat' first
    | with_reducible assumption
    | with_reducible first | apply onRing_grows
    | with_reducible apply Grows.ite
    | simp only [Grows.update_iff]
    | dsimp only

theorem applyItem_grows {d0 d : Dev} {a0} (h : Grows d0 d) : Grows d0 (applyItem a0 d) := by
  unfold applyItem
  repeat' first
    | with_reducible assumption
    | with_reducible first | apply mirrorWrite_grows | apply onFn_grows | apply settle_grows | apply putBuffer_grows | apply putPartition_grows | apply putPoint_grows | apply wr_grows | apply startDeparture_grows | apply putMode_grows | apply putCaution_grows | apply putRing_grows | apply putVectors_grows | apply putIdx_grows | apply onCtx_grows | apply onStream_grows
    | simp only [Grows.update_iff]
    | dsimp only
    | split

theorem doRecState_grows {d0 d : Dev} {a0 a1} (h : Grows d0 d) : Grows d0 (doRecState a0 a1 d) := by
  unfold doRecState
  repeat' first
    | intro _
    | with_reducible assumption
    | with_reducible first | apply bankerRec_grows | apply applyItem_grows
    | dsimp only

theorem noteTouch_grows {d0 d : Dev} {a0} (h : Grows d0 d) : Grows d0 (noteTouch a0 d) := by
  unfold noteTouch
  repeat' first
    | with_reducible assumption
    | with_reducible first | apply onPair_grows
    | with_reducible apply Grows.ite
    | simp only [Grows.update_iff]
    | dsimp only

theorem noteDone_grows {d0 d : Dev} {a0} (h : Grows d0 d) : Grows d0 (noteDone a0 d) := by
  unfold noteDone
  repeat' first
    | with_reducible assumption
    | with_reducible first | apply onPair_grows | apply settle_grows | apply drainDone_grows | apply dropLive_grows | apply leaveCommit_grows
    | with_reducible apply Grows.ite
    | simp only [Grows.update_iff]
    | dsimp only [id]
    | dsimp only
    | split

theorem dropHeld_grows {d0 d : Dev} {a0} (h : Grows d0 d) : Grows d0 (dropHeld a0 d) := by
  unfold dropHeld
  repeat' first
    | with_reducible assumption
    | with_reducible first | apply onPair_grows
    | simp only [Grows.update_iff]
    | dsimp only
    | split

theorem applyOut_grows {d0 d : Dev} {a0} (h : Grows d0 d) : Grows d0 (applyOut a0 d) := by
  unfold applyOut
  repeat' first
    | with_reducible assumption
    | with_reducible first | apply dropHeld_grows | apply onRing_grows | apply onPair_grows | apply noteTouch_grows | apply noteDone_grows
    | with_reducible apply Grows.ite
    | simp only [Grows.update_iff]
    | dsimp only

theorem doRecOut_grows {d0 d : Dev} {a0 a1 a2 a3 a4} (h : Grows d0 d) : Grows d0 (doRecOut a0 a1 a2 a3 a4 d) := by
  unfold doRecOut
  repeat' first
    | intro _
    | with_reducible assumption
    | with_reducible first | apply bankerRec_grows | apply applyOut_grows
    | dsimp only

theorem trimOut_grows {d0 d : Dev} {a1} (h : Grows d0 d) : Grows d0 (trimOut d a1) := by
  unfold trimOut
  repeat' first
    | with_reducible assumption
    | with_reducible first | apply onPair_grows
    | with_reducible apply Grows.ite
    | simp only [Grows.update_iff]
    | dsimp only

theorem doRecDone_grows {d0 d : Dev} {a0 a1} (h : Grows d0 d) : Grows d0 (doRecDone a0 a1 d) := by
  unfold doRecDone
  repeat' first
    | intro _
    | with_reducible assumption
    | with_reducible first | apply bankerRec_grows | apply trimOut_grows
    | with_reducible apply Grows.fold
    | with_reducible apply Grows.foldPair
    | dsimp only

theorem applySig_grows {d0 d : Dev} {a0} (h : Grows d0 d) : Grows d0 (applySig a0 d) := by
  unfold applySig
  repeat' first
    | with_reducible assumption
    | with_reducible first | apply onPair_grows | apply diverge_grows
    | with_reducible apply Grows.ite
    | simp only [Grows.update_iff]
    | dsimp only

theorem doRecSig_grows {d0 d : Dev} {a0 a1 a2 a3 a4} (h : Grows d0 d) : Grows d0 (doRecSig a0 a1 a2 a3 a4 d) := by
  unfold doRecSig
  repeat' first
    | intro _
    | with_reducible assumption
    | with_reducible first | apply bankerRec_grows | apply applySig_grows
    | dsimp only

theorem applyMedia_grows {d0 d : Dev} {a0 a1} (h : Grows d0 d) : Grows d0 (applyMedia a0 a1 d) := by
  unfold applyMedia
  repeat' first
    | with_reducible assumption
    | with_reducible first | apply onPair_grows
    | simp only [Grows.update_iff]
    | dsimp only

theorem doRecMedia_grows {d0 d : Dev} {a0 a1 a2} (h : Grows d0 d) : Grows d0 (doRecMedia a0 a1 a2 d) := by
  unfold doRecMedia
  repeat' first
    | intro _
    | with_reducible assumption
    | with_reducible first | apply bankerRec_grows | apply applyMedia_grows
    | dsimp only

theorem applyRaster_grows {d0 d : Dev} {a0 a1} (h : Grows d0 d) : Grows d0 (applyRaster a0 a1 d) := by
  unfold applyRaster
  repeat' first
    | with_reducible assumption
    | with_reducible first | apply onPair_grows | apply fs_grows
    | simp only [Grows.update_iff]
    | dsimp only

theorem doRecRaster_grows {d0 d : Dev} {a0 a1 a2} (h : Grows d0 d) : Grows d0 (doRecRaster a0 a1 a2 d) := by
  unfold doRecRaster
  repeat' first
    | intro _
    | with_reducible assumption
    | with_reducible first | apply bankerRec_grows | apply applyRaster_grows
    | dsimp only

theorem applyAck_grows {d0 d : Dev} {a0 a1} (h : Grows d0 d) : Grows d0 (applyAck a0 a1 d) := by
  unfold applyAck
  repeat' first
    | with_reducible assumption
    | with_reducible first | apply fs_grows | apply onPair_grows | apply setForward_grows
    | with_reducible apply Grows.ite
    | simp only [Grows.update_iff]
    | dsimp only

theorem doRecAck_grows {d0 d : Dev} {a0 a1 a2} (h : Grows d0 d) : Grows d0 (doRecAck a0 a1 a2 d) := by
  unfold doRecAck
  repeat' first
    | intro _
    | with_reducible assumption
    | with_reducible first | apply takeRec_grows | apply applyAck_grows
    | dsimp only

theorem syncWord_grows {d0 d : Dev} {a0 a1} (h : Grows d0 d) : Grows d0 (syncWord a0 a1 d) := by
  unfold syncWord
  repeat' first
    | with_reducible assumption
    | with_reducible first | apply putMode_grows | apply wr_grows
    | with_reducible apply Grows.ite
    | with_reducible apply Grows.itePair
    | dsimp only

theorem syncItem_grows {d0 d : Dev} {a0} (h : Grows d0 d) : Grows d0 (syncItem a0 d) := by
  unfold syncItem
  repeat' first
    | with_reducible assumption
    | with_reducible first | apply syncWord_grows | apply setPt_grows | apply onFn_grows | apply applyItem_grows
    | simp only [Grows.update_iff]
    | dsimp only
    | split

theorem syncRefs_grows {d0 d : Dev} (h : Grows d0 d) : Grows d0 (syncRefs d) := by
  unfold syncRefs
  repeat' first
    | intro _
    | with_reducible assumption
    | with_reducible apply Grows.ite
    | with_reducible apply Grows.fold
    | simp only [Grows.update_iff]
    | dsimp only [id]
    | dsimp only

theorem syncLast_grows {d0 d : Dev} (h : Grows d0 d) : Grows d0 (syncLast d) := by
  unfold syncLast
  repeat' first
    | intro _
    | with_reducible assumption
    | with_reducible first | apply onPair_grows | apply syncRefs_grows | apply platLanded_grows | apply cfgLanded_grows | apply showAudio_grows | apply becomeBanker_grows
    | with_reducible apply Grows.ite
    | with_reducible apply Grows.fold
    | simp only [Grows.update_iff]
    | dsimp only

theorem applySync_grows {d0 d : Dev} {a0 a1 a2 a3} (h : Grows d0 d) : Grows d0 (applySync a0 a1 a2 a3 d) := by
  unfold applySync
  repeat' first
    | intro _
    | with_reducible assumption
    | with_reducible first | apply dramStore_grows | apply syncItem_grows | apply syncLast_grows
    | with_reducible apply Grows.ite
    | with_reducible apply Grows.fold
    | dsimp only

theorem doRecSync_grows {d0 d : Dev} {a0 a1 a2 a3 a4} (h : Grows d0 d) : Grows d0 (doRecSync a0 a1 a2 a3 a4 d) := by
  unfold doRecSync
  repeat' first
    | intro _
    | with_reducible assumption
    | with_reducible first | apply bankerRec_grows | apply applySync_grows
    | dsimp only

theorem doRecReject_grows {d0 d : Dev} {a0} (h : Grows d0 d) : Grows d0 (doRecReject a0 d) := by
  unfold doRecReject
  repeat' first
    | intro _
    | with_reducible assumption
    | with_reducible first | apply takeRec_grows | apply obeyFence_grows | apply count_grows
    | with_reducible apply Grows.ite
    | dsimp only

end Sys2Proof.Machine
end

