-- ==== Sys2Proof/Laws/Start.lean ====
section
/-! SUPPORT. What the start of a descriptor comes to: it runs, it is parked, it is refused, or it is not there. -/

namespace Sys2Proof.Machine

theorem withMem_words (q : Desc) (m : List MemIn) : (withMem q m).words = q.words := by
  unfold withMem
  split <;> rfl

theorem boundTo_start (q : Desc) (m : List MemIn) (k : Nat) : boundTo { withMem q m with seq := k } = boundTo q := by
  unfold boundTo
  simp only [withMem_words]

/-- Everything a start can do, from the descriptor at the head of the ring. -/
theorem startDesc_starts {d : Dev} {f r key m chk q} (h : starts d f r key m chk = some q) (park act) :
    startDesc d f r key m park chk act = purgeRing
      (match boundTo q with
        | none => act f r q (beginDesc d f r q)
        | some c =>
          if park then onLive (beginDesc d f r q) f r q.idx (fun x => { x with cp := some c })
          else act f r { q with cp := some c } (onLive (beginDesc d f r q) f r q.idx (fun x => { x with cp := some c }))) f r := by
  unfold starts at h
  unfold startDesc
  split at h
  · cases h
  · rename_i q0 rest hq
    dsimp only at h
    split at h
    · rename_i hc
      obtain ⟨h1, h2, h3, h4⟩ := hc
      have hq' : q = { withMem q0 m with seq := d.accept } := (Option.some.inj h).symm
      subst hq'
      have hd : (needDom (opcodeOf q0.words)).filter (fun k => !domUp d k) = none := by
        cases hn : needDom (opcodeOf q0.words) with
        | none => rfl
        | some k =>
          rw [hn] at h3
          simp only [Option.all_some] at h3
          simp [Option.filter, h3]
      (simp only [hq, h1, h2, hd, h4, ne_eq, not_true_eq_false, Bool.true_eq_false, or_self, if_false]) <;> rfl
    · cases h

/-- A descriptor that runs at once has its effect, and its ring lets go of what is done. -/
theorem startDesc_runs {d0 d : Dev} {f r key m chk q} (h : Runs d0 f r key m chk q d) (park act) :
    startDesc d0 f r key m park chk act = purgeRing (act f r q d) f r := by
  obtain ⟨h1, h2, rfl⟩ := h
  rw [startDesc_starts h1, h2]

/-- A packet that holds has its effect, and the front end goes on to the next one, or the slots take other work. -/
theorem pktRun_packet {d : Dev} {c code w j ok} (h : Packet d c code w j) (hc : code ≤ 0x0E) (hok : ok j = true) (act) :
    pktRun c code w ok act d =
      if (act j d).2 then pktNext (act j d).1 c (pktN w) else gpuRun (act j d).1 := by
  obtain ⟨h1, h2, h3, h4, h5, h6, h7, h8⟩ := h
  cases w with
  | nil => exact absurd rfl h4
  | cons x ws =>
    have e : wd (x :: ws) 0 = x := rfl
    have e1 : ¬ (j.call.isNone = true ∧ j.off ≥ j.dwords) := by
      rintro ⟨n1, n2⟩
      rcases h3 with h | h
      · rw [Option.isNone_iff_eq_none.1 n1] at h; cases h
      · omega
    unfold pktN at h7 h8 ⊢
    rw [e] at h5 h6 h7 h8 ⊢
    have e2 : ¬ code > 0x0E := by omega
    simp only [pktRun, h1, h2, e1, h5, e2, h6, h7, h8, hok, ne_eq, not_true_eq_false, or_self, if_false,
      Bool.false_eq_true, Bool.not_true]

/-- The next record has its effect on the banker that has acknowledged it. -/
theorem bankerRec_next {d0 d : Dev} {h : RecHdr} (hn : NextRec d0 h d) (g : Dev → Dev) : bankerRec h g d0 = g d := by
  obtain ⟨d1, d2, h0, h7, hu, rfl, hs, rfl, ha, hb, rfl⟩ := hn
  simp only [bankerRec, takeRec, h0, h7, hu, hs, ha, hb, Bool.not_true, Bool.false_eq_true, or_self, if_false, if_true]

end Sys2Proof.Machine
end

