-- ==== Sys2Proof/Laws/State.lean ====
section
/-! SUPPORT. What each update of the device leaves alone and what it changes, one lemma per field, so that no proof unfolds
a record update. -/

namespace Sys2Proof.Machine

/-! ### wr -/

@[simp] theorem wr_dt (d : Dev) (off : Nat) (v : Word) : (wr d off v).dt = d.dt := rfl
@[simp] theorem wr_heritage (d : Dev) (off : Nat) (v : Word) : (wr d off v).heritage = d.heritage := rfl
@[simp] theorem wr_seatB (d : Dev) (off : Nat) (v : Word) : (wr d off v).seatB = d.seatB := rfl
@[simp] theorem wr_bootMode (d : Dev) (off : Nat) (v : Word) : (wr d off v).bootMode = d.bootMode := rfl
@[simp] theorem wr_dramUnits (d : Dev) (off : Nat) (v : Word) : (wr d off v).dramUnits = d.dramUnits := rfl
@[simp] theorem wr_stg (d : Dev) (off : Nat) (v : Word) : (wr d off v).stg = d.stg := rfl
@[simp] theorem wr_stgSI (d : Dev) (off : Nat) (v : Word) : (wr d off v).stgSI = d.stgSI := rfl
@[simp] theorem wr_dram (d : Dev) (off : Nat) (v : Word) : (wr d off v).dram = d.dram := rfl
@[simp] theorem wr_dramFree (d : Dev) (off : Nat) (v : Word) : (wr d off v).dramFree = d.dramFree := rfl
@[simp] theorem wr_tt (d : Dev) (off : Nat) (v : Word) : (wr d off v).tt = d.tt := rfl
@[simp] theorem wr_fns (d : Dev) (off : Nat) (v : Word) : (wr d off v).fns = d.fns := rfl
@[simp] theorem wr_dirty (d : Dev) (off : Nat) (v : Word) : (wr d off v).dirty = d.dirty := rfl
@[simp] theorem wr_pt (d : Dev) (off : Nat) (v : Word) : (wr d off v).pt = d.pt := rfl
@[simp] theorem wr_ptSel (d : Dev) (off : Nat) (v : Word) : (wr d off v).ptSel = d.ptSel := rfl
@[simp] theorem wr_ptStage (d : Dev) (off : Nat) (v : Word) : (wr d off v).ptStage = d.ptStage := rfl
@[simp] theorem wr_blobs (d : Dev) (off : Nat) (v : Word) : (wr d off v).blobs = d.blobs := rfl
@[simp] theorem wr_vfEnable (d : Dev) (off : Nat) (v : Word) : (wr d off v).vfEnable = d.vfEnable := rfl
@[simp] theorem wr_numVfs (d : Dev) (off : Nat) (v : Word) : (wr d off v).numVfs = d.numVfs := rfl
@[simp] theorem wr_plat (d : Dev) (off : Nat) (v : Word) : (wr d off v).plat = d.plat := rfl
@[simp] theorem wr_commits (d : Dev) (off : Nat) (v : Word) : (wr d off v).commits = d.commits := rfl
@[simp] theorem wr_nextCommit (d : Dev) (off : Nat) (v : Word) : (wr d off v).nextCommit = d.nextCommit := rfl
@[simp] theorem wr_accept (d : Dev) (off : Nat) (v : Word) : (wr d off v).accept = d.accept := rfl
@[simp] theorem wr_err (d : Dev) (off : Nat) (v : Word) : (wr d off v).err = d.err := rfl
@[simp] theorem wr_ctr (d : Dev) (off : Nat) (v : Word) : (wr d off v).ctr = d.ctr := rfl
@[simp] theorem wr_buf (d : Dev) (off : Nat) (v : Word) : (wr d off v).buf = d.buf := rfl
@[simp] theorem wr_gpu (d : Dev) (off : Nat) (v : Word) : (wr d off v).gpu = d.gpu := rfl
@[simp] theorem wr_comp (d : Dev) (off : Nat) (v : Word) : (wr d off v).comp = d.comp := rfl
@[simp] theorem wr_scan (d : Dev) (off : Nat) (v : Word) : (wr d off v).scan = d.scan := rfl
@[simp] theorem wr_hap (d : Dev) (off : Nat) (v : Word) : (wr d off v).hap = d.hap := rfl
@[simp] theorem wr_touch (d : Dev) (off : Nat) (v : Word) : (wr d off v).touch = d.touch := rfl
@[simp] theorem wr_audio (d : Dev) (off : Nat) (v : Word) : (wr d off v).audio = d.audio := rfl
@[simp] theorem wr_bells (d : Dev) (off : Nat) (v : Word) : (wr d off v).bells = d.bells := rfl
@[simp] theorem wr_pm (d : Dev) (off : Nat) (v : Word) : (wr d off v).pm = d.pm := rfl
@[simp] theorem wr_safe (d : Dev) (off : Nat) (v : Word) : (wr d off v).safe = d.safe := rfl
@[simp] theorem wr_pair (d : Dev) (off : Nat) (v : Word) : (wr d off v).pair = d.pair := rfl
@[simp] theorem wr_mdh (d : Dev) (off : Nat) (v : Word) : (wr d off v).mdh = d.mdh := rfl
@[simp] theorem wr_gpio (d : Dev) (off : Nat) (v : Word) : (wr d off v).gpio = d.gpio := rfl
@[simp] theorem wr_freeCtr (d : Dev) (off : Nat) (v : Word) : (wr d off v).freeCtr = d.freeCtr := rfl
@[simp] theorem wr_out (d : Dev) (off : Nat) (v : Word) : (wr d off v).out = d.out := rfl
theorem wr_regs (d : Dev) (off : Nat) (v : Word) :
    (wr d off v).regs = (if v = regReset off then SMap.erase d.regs off else SMap.insert d.regs off v) := rfl

/-! ### count -/

@[simp] theorem count_dt (d : Dev) (i : Nat) (n : Nat) : (count d i n).dt = d.dt := rfl
@[simp] theorem count_heritage (d : Dev) (i : Nat) (n : Nat) : (count d i n).heritage = d.heritage := rfl
@[simp] theorem count_seatB (d : Dev) (i : Nat) (n : Nat) : (count d i n).seatB = d.seatB := rfl
@[simp] theorem count_bootMode (d : Dev) (i : Nat) (n : Nat) : (count d i n).bootMode = d.bootMode := rfl
@[simp] theorem count_dramUnits (d : Dev) (i : Nat) (n : Nat) : (count d i n).dramUnits = d.dramUnits := rfl
@[simp] theorem count_regs (d : Dev) (i : Nat) (n : Nat) : (count d i n).regs = d.regs := rfl
@[simp] theorem count_stg (d : Dev) (i : Nat) (n : Nat) : (count d i n).stg = d.stg := rfl
@[simp] theorem count_stgSI (d : Dev) (i : Nat) (n : Nat) : (count d i n).stgSI = d.stgSI := rfl
@[simp] theorem count_dram (d : Dev) (i : Nat) (n : Nat) : (count d i n).dram = d.dram := rfl
@[simp] theorem count_dramFree (d : Dev) (i : Nat) (n : Nat) : (count d i n).dramFree = d.dramFree := rfl
@[simp] theorem count_tt (d : Dev) (i : Nat) (n : Nat) : (count d i n).tt = d.tt := rfl
@[simp] theorem count_fns (d : Dev) (i : Nat) (n : Nat) : (count d i n).fns = d.fns := rfl
@[simp] theorem count_dirty (d : Dev) (i : Nat) (n : Nat) : (count d i n).dirty = d.dirty := rfl
@[simp] theorem count_pt (d : Dev) (i : Nat) (n : Nat) : (count d i n).pt = d.pt := rfl
@[simp] theorem count_ptSel (d : Dev) (i : Nat) (n : Nat) : (count d i n).ptSel = d.ptSel := rfl
@[simp] theorem count_ptStage (d : Dev) (i : Nat) (n : Nat) : (count d i n).ptStage = d.ptStage := rfl
@[simp] theorem count_blobs (d : Dev) (i : Nat) (n : Nat) : (count d i n).blobs = d.blobs := rfl
@[simp] theorem count_vfEnable (d : Dev) (i : Nat) (n : Nat) : (count d i n).vfEnable = d.vfEnable := rfl
@[simp] theorem count_numVfs (d : Dev) (i : Nat) (n : Nat) : (count d i n).numVfs = d.numVfs := rfl
@[simp] theorem count_plat (d : Dev) (i : Nat) (n : Nat) : (count d i n).plat = d.plat := rfl
@[simp] theorem count_commits (d : Dev) (i : Nat) (n : Nat) : (count d i n).commits = d.commits := rfl
@[simp] theorem count_nextCommit (d : Dev) (i : Nat) (n : Nat) : (count d i n).nextCommit = d.nextCommit := rfl
@[simp] theorem count_accept (d : Dev) (i : Nat) (n : Nat) : (count d i n).accept = d.accept := rfl
@[simp] theorem count_err (d : Dev) (i : Nat) (n : Nat) : (count d i n).err = d.err := rfl
@[simp] theorem count_buf (d : Dev) (i : Nat) (n : Nat) : (count d i n).buf = d.buf := rfl
@[simp] theorem count_gpu (d : Dev) (i : Nat) (n : Nat) : (count d i n).gpu = d.gpu := rfl
@[simp] theorem count_comp (d : Dev) (i : Nat) (n : Nat) : (count d i n).comp = d.comp := rfl
@[simp] theorem count_scan (d : Dev) (i : Nat) (n : Nat) : (count d i n).scan = d.scan := rfl
@[simp] theorem count_hap (d : Dev) (i : Nat) (n : Nat) : (count d i n).hap = d.hap := rfl
@[simp] theorem count_touch (d : Dev) (i : Nat) (n : Nat) : (count d i n).touch = d.touch := rfl
@[simp] theorem count_audio (d : Dev) (i : Nat) (n : Nat) : (count d i n).audio = d.audio := rfl
@[simp] theorem count_bells (d : Dev) (i : Nat) (n : Nat) : (count d i n).bells = d.bells := rfl
@[simp] theorem count_pm (d : Dev) (i : Nat) (n : Nat) : (count d i n).pm = d.pm := rfl
@[simp] theorem count_safe (d : Dev) (i : Nat) (n : Nat) : (count d i n).safe = d.safe := rfl
@[simp] theorem count_pair (d : Dev) (i : Nat) (n : Nat) : (count d i n).pair = d.pair := rfl
@[simp] theorem count_mdh (d : Dev) (i : Nat) (n : Nat) : (count d i n).mdh = d.mdh := rfl
@[simp] theorem count_gpio (d : Dev) (i : Nat) (n : Nat) : (count d i n).gpio = d.gpio := rfl
@[simp] theorem count_freeCtr (d : Dev) (i : Nat) (n : Nat) : (count d i n).freeCtr = d.freeCtr := rfl
@[simp] theorem count_out (d : Dev) (i : Nat) (n : Nat) : (count d i n).out = d.out := rfl
theorem count_ctr (d : Dev) (i : Nat) (n : Nat) :
    (count d i n).ctr = (addCounter d.ctr i n (if d.dt ≤ d.ctr.freezeDt ∧ d.ctr.freezeDt ≠ 0 then n else 0)) := rfl

/-! ### emit -/

@[simp] theorem emit_dt (d : Dev) (o : Out) : (emit d o).dt = d.dt := rfl
@[simp] theorem emit_heritage (d : Dev) (o : Out) : (emit d o).heritage = d.heritage := rfl
@[simp] theorem emit_seatB (d : Dev) (o : Out) : (emit d o).seatB = d.seatB := rfl
@[simp] theorem emit_bootMode (d : Dev) (o : Out) : (emit d o).bootMode = d.bootMode := rfl
@[simp] theorem emit_dramUnits (d : Dev) (o : Out) : (emit d o).dramUnits = d.dramUnits := rfl
@[simp] theorem emit_regs (d : Dev) (o : Out) : (emit d o).regs = d.regs := rfl
@[simp] theorem emit_stg (d : Dev) (o : Out) : (emit d o).stg = d.stg := rfl
@[simp] theorem emit_stgSI (d : Dev) (o : Out) : (emit d o).stgSI = d.stgSI := rfl
@[simp] theorem emit_dram (d : Dev) (o : Out) : (emit d o).dram = d.dram := rfl
@[simp] theorem emit_dramFree (d : Dev) (o : Out) : (emit d o).dramFree = d.dramFree := rfl
@[simp] theorem emit_tt (d : Dev) (o : Out) : (emit d o).tt = d.tt := rfl
@[simp] theorem emit_fns (d : Dev) (o : Out) : (emit d o).fns = d.fns := rfl
@[simp] theorem emit_dirty (d : Dev) (o : Out) : (emit d o).dirty = d.dirty := rfl
@[simp] theorem emit_pt (d : Dev) (o : Out) : (emit d o).pt = d.pt := rfl
@[simp] theorem emit_ptSel (d : Dev) (o : Out) : (emit d o).ptSel = d.ptSel := rfl
@[simp] theorem emit_ptStage (d : Dev) (o : Out) : (emit d o).ptStage = d.ptStage := rfl
@[simp] theorem emit_blobs (d : Dev) (o : Out) : (emit d o).blobs = d.blobs := rfl
@[simp] theorem emit_vfEnable (d : Dev) (o : Out) : (emit d o).vfEnable = d.vfEnable := rfl
@[simp] theorem emit_numVfs (d : Dev) (o : Out) : (emit d o).numVfs = d.numVfs := rfl
@[simp] theorem emit_plat (d : Dev) (o : Out) : (emit d o).plat = d.plat := rfl
@[simp] theorem emit_commits (d : Dev) (o : Out) : (emit d o).commits = d.commits := rfl
@[simp] theorem emit_nextCommit (d : Dev) (o : Out) : (emit d o).nextCommit = d.nextCommit := rfl
@[simp] theorem emit_accept (d : Dev) (o : Out) : (emit d o).accept = d.accept := rfl
@[simp] theorem emit_err (d : Dev) (o : Out) : (emit d o).err = d.err := rfl
@[simp] theorem emit_ctr (d : Dev) (o : Out) : (emit d o).ctr = d.ctr := rfl
@[simp] theorem emit_buf (d : Dev) (o : Out) : (emit d o).buf = d.buf := rfl
@[simp] theorem emit_gpu (d : Dev) (o : Out) : (emit d o).gpu = d.gpu := rfl
@[simp] theorem emit_comp (d : Dev) (o : Out) : (emit d o).comp = d.comp := rfl
@[simp] theorem emit_scan (d : Dev) (o : Out) : (emit d o).scan = d.scan := rfl
@[simp] theorem emit_hap (d : Dev) (o : Out) : (emit d o).hap = d.hap := rfl
@[simp] theorem emit_touch (d : Dev) (o : Out) : (emit d o).touch = d.touch := rfl
@[simp] theorem emit_audio (d : Dev) (o : Out) : (emit d o).audio = d.audio := rfl
@[simp] theorem emit_bells (d : Dev) (o : Out) : (emit d o).bells = d.bells := rfl
@[simp] theorem emit_pm (d : Dev) (o : Out) : (emit d o).pm = d.pm := rfl
@[simp] theorem emit_safe (d : Dev) (o : Out) : (emit d o).safe = d.safe := rfl
@[simp] theorem emit_pair (d : Dev) (o : Out) : (emit d o).pair = d.pair := rfl
@[simp] theorem emit_mdh (d : Dev) (o : Out) : (emit d o).mdh = d.mdh := rfl
@[simp] theorem emit_gpio (d : Dev) (o : Out) : (emit d o).gpio = d.gpio := rfl
@[simp] theorem emit_freeCtr (d : Dev) (o : Out) : (emit d o).freeCtr = d.freeCtr := rfl
theorem emit_out (d : Dev) (o : Out) :
    (emit d o).out = (o :: d.out) := rfl

/-! ### onFn -/

@[simp] theorem onFn_dt (d : Dev) (n : Nat) (g : FnSt → FnSt) : (onFn d n g).dt = d.dt := rfl
@[simp] theorem onFn_heritage (d : Dev) (n : Nat) (g : FnSt → FnSt) : (onFn d n g).heritage = d.heritage := rfl
@[simp] theorem onFn_seatB (d : Dev) (n : Nat) (g : FnSt → FnSt) : (onFn d n g).seatB = d.seatB := rfl
@[simp] theorem onFn_bootMode (d : Dev) (n : Nat) (g : FnSt → FnSt) : (onFn d n g).bootMode = d.bootMode := rfl
@[simp] theorem onFn_dramUnits (d : Dev) (n : Nat) (g : FnSt → FnSt) : (onFn d n g).dramUnits = d.dramUnits := rfl
@[simp] theorem onFn_regs (d : Dev) (n : Nat) (g : FnSt → FnSt) : (onFn d n g).regs = d.regs := rfl
@[simp] theorem onFn_stg (d : Dev) (n : Nat) (g : FnSt → FnSt) : (onFn d n g).stg = d.stg := rfl
@[simp] theorem onFn_stgSI (d : Dev) (n : Nat) (g : FnSt → FnSt) : (onFn d n g).stgSI = d.stgSI := rfl
@[simp] theorem onFn_dram (d : Dev) (n : Nat) (g : FnSt → FnSt) : (onFn d n g).dram = d.dram := rfl
@[simp] theorem onFn_dramFree (d : Dev) (n : Nat) (g : FnSt → FnSt) : (onFn d n g).dramFree = d.dramFree := rfl
@[simp] theorem onFn_tt (d : Dev) (n : Nat) (g : FnSt → FnSt) : (onFn d n g).tt = d.tt := rfl
@[simp] theorem onFn_dirty (d : Dev) (n : Nat) (g : FnSt → FnSt) : (onFn d n g).dirty = d.dirty := rfl
@[simp] theorem onFn_pt (d : Dev) (n : Nat) (g : FnSt → FnSt) : (onFn d n g).pt = d.pt := rfl
@[simp] theorem onFn_ptSel (d : Dev) (n : Nat) (g : FnSt → FnSt) : (onFn d n g).ptSel = d.ptSel := rfl
@[simp] theorem onFn_ptStage (d : Dev) (n : Nat) (g : FnSt → FnSt) : (onFn d n g).ptStage = d.ptStage := rfl
@[simp] theorem onFn_blobs (d : Dev) (n : Nat) (g : FnSt → FnSt) : (onFn d n g).blobs = d.blobs := rfl
@[simp] theorem onFn_vfEnable (d : Dev) (n : Nat) (g : FnSt → FnSt) : (onFn d n g).vfEnable = d.vfEnable := rfl
@[simp] theorem onFn_numVfs (d : Dev) (n : Nat) (g : FnSt → FnSt) : (onFn d n g).numVfs = d.numVfs := rfl
@[simp] theorem onFn_plat (d : Dev) (n : Nat) (g : FnSt → FnSt) : (onFn d n g).plat = d.plat := rfl
@[simp] theorem onFn_commits (d : Dev) (n : Nat) (g : FnSt → FnSt) : (onFn d n g).commits = d.commits := rfl
@[simp] theorem onFn_nextCommit (d : Dev) (n : Nat) (g : FnSt → FnSt) : (onFn d n g).nextCommit = d.nextCommit := rfl
@[simp] theorem onFn_accept (d : Dev) (n : Nat) (g : FnSt → FnSt) : (onFn d n g).accept = d.accept := rfl
@[simp] theorem onFn_err (d : Dev) (n : Nat) (g : FnSt → FnSt) : (onFn d n g).err = d.err := rfl
@[simp] theorem onFn_ctr (d : Dev) (n : Nat) (g : FnSt → FnSt) : (onFn d n g).ctr = d.ctr := rfl
@[simp] theorem onFn_buf (d : Dev) (n : Nat) (g : FnSt → FnSt) : (onFn d n g).buf = d.buf := rfl
@[simp] theorem onFn_gpu (d : Dev) (n : Nat) (g : FnSt → FnSt) : (onFn d n g).gpu = d.gpu := rfl
@[simp] theorem onFn_comp (d : Dev) (n : Nat) (g : FnSt → FnSt) : (onFn d n g).comp = d.comp := rfl
@[simp] theorem onFn_scan (d : Dev) (n : Nat) (g : FnSt → FnSt) : (onFn d n g).scan = d.scan := rfl
@[simp] theorem onFn_hap (d : Dev) (n : Nat) (g : FnSt → FnSt) : (onFn d n g).hap = d.hap := rfl
@[simp] theorem onFn_touch (d : Dev) (n : Nat) (g : FnSt → FnSt) : (onFn d n g).touch = d.touch := rfl
@[simp] theorem onFn_audio (d : Dev) (n : Nat) (g : FnSt → FnSt) : (onFn d n g).audio = d.audio := rfl
@[simp] theorem onFn_bells (d : Dev) (n : Nat) (g : FnSt → FnSt) : (onFn d n g).bells = d.bells := rfl
@[simp] theorem onFn_pm (d : Dev) (n : Nat) (g : FnSt → FnSt) : (onFn d n g).pm = d.pm := rfl
@[simp] theorem onFn_safe (d : Dev) (n : Nat) (g : FnSt → FnSt) : (onFn d n g).safe = d.safe := rfl
@[simp] theorem onFn_pair (d : Dev) (n : Nat) (g : FnSt → FnSt) : (onFn d n g).pair = d.pair := rfl
@[simp] theorem onFn_mdh (d : Dev) (n : Nat) (g : FnSt → FnSt) : (onFn d n g).mdh = d.mdh := rfl
@[simp] theorem onFn_gpio (d : Dev) (n : Nat) (g : FnSt → FnSt) : (onFn d n g).gpio = d.gpio := rfl
@[simp] theorem onFn_freeCtr (d : Dev) (n : Nat) (g : FnSt → FnSt) : (onFn d n g).freeCtr = d.freeCtr := rfl
@[simp] theorem onFn_out (d : Dev) (n : Nat) (g : FnSt → FnSt) : (onFn d n g).out = d.out := rfl
theorem onFn_fns (d : Dev) (n : Nat) (g : FnSt → FnSt) :
    (onFn d n g).fns = (SMap.mod d.fns n g) := rfl

/-! ### setPt -/

@[simp] theorem setPt_dt (d : Dev) (n : Nat) (ws : List Word) : (setPt d n ws).dt = d.dt := rfl
@[simp] theorem setPt_heritage (d : Dev) (n : Nat) (ws : List Word) : (setPt d n ws).heritage = d.heritage := rfl
@[simp] theorem setPt_seatB (d : Dev) (n : Nat) (ws : List Word) : (setPt d n ws).seatB = d.seatB := rfl
@[simp] theorem setPt_bootMode (d : Dev) (n : Nat) (ws : List Word) : (setPt d n ws).bootMode = d.bootMode := rfl
@[simp] theorem setPt_dramUnits (d : Dev) (n : Nat) (ws : List Word) : (setPt d n ws).dramUnits = d.dramUnits := rfl
@[simp] theorem setPt_regs (d : Dev) (n : Nat) (ws : List Word) : (setPt d n ws).regs = d.regs := rfl
@[simp] theorem setPt_stg (d : Dev) (n : Nat) (ws : List Word) : (setPt d n ws).stg = d.stg := rfl
@[simp] theorem setPt_stgSI (d : Dev) (n : Nat) (ws : List Word) : (setPt d n ws).stgSI = d.stgSI := rfl
@[simp] theorem setPt_dram (d : Dev) (n : Nat) (ws : List Word) : (setPt d n ws).dram = d.dram := rfl
@[simp] theorem setPt_dramFree (d : Dev) (n : Nat) (ws : List Word) : (setPt d n ws).dramFree = d.dramFree := rfl
@[simp] theorem setPt_tt (d : Dev) (n : Nat) (ws : List Word) : (setPt d n ws).tt = d.tt := rfl
@[simp] theorem setPt_fns (d : Dev) (n : Nat) (ws : List Word) : (setPt d n ws).fns = d.fns := rfl
@[simp] theorem setPt_dirty (d : Dev) (n : Nat) (ws : List Word) : (setPt d n ws).dirty = d.dirty := rfl
@[simp] theorem setPt_ptSel (d : Dev) (n : Nat) (ws : List Word) : (setPt d n ws).ptSel = d.ptSel := rfl
@[simp] theorem setPt_ptStage (d : Dev) (n : Nat) (ws : List Word) : (setPt d n ws).ptStage = d.ptStage := rfl
@[simp] theorem setPt_blobs (d : Dev) (n : Nat) (ws : List Word) : (setPt d n ws).blobs = d.blobs := rfl
@[simp] theorem setPt_vfEnable (d : Dev) (n : Nat) (ws : List Word) : (setPt d n ws).vfEnable = d.vfEnable := rfl
@[simp] theorem setPt_numVfs (d : Dev) (n : Nat) (ws : List Word) : (setPt d n ws).numVfs = d.numVfs := rfl
@[simp] theorem setPt_plat (d : Dev) (n : Nat) (ws : List Word) : (setPt d n ws).plat = d.plat := rfl
@[simp] theorem setPt_commits (d : Dev) (n : Nat) (ws : List Word) : (setPt d n ws).commits = d.commits := rfl
@[simp] theorem setPt_nextCommit (d : Dev) (n : Nat) (ws : List Word) : (setPt d n ws).nextCommit = d.nextCommit := rfl
@[simp] theorem setPt_accept (d : Dev) (n : Nat) (ws : List Word) : (setPt d n ws).accept = d.accept := rfl
@[simp] theorem setPt_err (d : Dev) (n : Nat) (ws : List Word) : (setPt d n ws).err = d.err := rfl
@[simp] theorem setPt_ctr (d : Dev) (n : Nat) (ws : List Word) : (setPt d n ws).ctr = d.ctr := rfl
@[simp] theorem setPt_buf (d : Dev) (n : Nat) (ws : List Word) : (setPt d n ws).buf = d.buf := rfl
@[simp] theorem setPt_gpu (d : Dev) (n : Nat) (ws : List Word) : (setPt d n ws).gpu = d.gpu := rfl
@[simp] theorem setPt_comp (d : Dev) (n : Nat) (ws : List Word) : (setPt d n ws).comp = d.comp := rfl
@[simp] theorem setPt_scan (d : Dev) (n : Nat) (ws : List Word) : (setPt d n ws).scan = d.scan := rfl
@[simp] theorem setPt_hap (d : Dev) (n : Nat) (ws : List Word) : (setPt d n ws).hap = d.hap := rfl
@[simp] theorem setPt_touch (d : Dev) (n : Nat) (ws : List Word) : (setPt d n ws).touch = d.touch := rfl
@[simp] theorem setPt_audio (d : Dev) (n : Nat) (ws : List Word) : (setPt d n ws).audio = d.audio := rfl
@[simp] theorem setPt_bells (d : Dev) (n : Nat) (ws : List Word) : (setPt d n ws).bells = d.bells := rfl
@[simp] theorem setPt_pm (d : Dev) (n : Nat) (ws : List Word) : (setPt d n ws).pm = d.pm := rfl
@[simp] theorem setPt_safe (d : Dev) (n : Nat) (ws : List Word) : (setPt d n ws).safe = d.safe := rfl
@[simp] theorem setPt_pair (d : Dev) (n : Nat) (ws : List Word) : (setPt d n ws).pair = d.pair := rfl
@[simp] theorem setPt_mdh (d : Dev) (n : Nat) (ws : List Word) : (setPt d n ws).mdh = d.mdh := rfl
@[simp] theorem setPt_gpio (d : Dev) (n : Nat) (ws : List Word) : (setPt d n ws).gpio = d.gpio := rfl
@[simp] theorem setPt_freeCtr (d : Dev) (n : Nat) (ws : List Word) : (setPt d n ws).freeCtr = d.freeCtr := rfl
@[simp] theorem setPt_out (d : Dev) (n : Nat) (ws : List Word) : (setPt d n ws).out = d.out := rfl
theorem setPt_pt (d : Dev) (n : Nat) (ws : List Word) :
    (setPt d n ws).pt = ((List.range 16).foldl (fun m k => if wd ws k = ptReset n k then SMap.erase m (16 * n + k) else SMap.insert m (16 * n + k) (wd ws k)) d.pt) := rfl

/-! ### dramStore -/

@[simp] theorem dramStore_dt (d : Dev) (a : Nat) (bs : List Byte) : (dramStore d a bs).dt = d.dt := rfl
@[simp] theorem dramStore_heritage (d : Dev) (a : Nat) (bs : List Byte) : (dramStore d a bs).heritage = d.heritage := rfl
@[simp] theorem dramStore_seatB (d : Dev) (a : Nat) (bs : List Byte) : (dramStore d a bs).seatB = d.seatB := rfl
@[simp] theorem dramStore_bootMode (d : Dev) (a : Nat) (bs : List Byte) : (dramStore d a bs).bootMode = d.bootMode := rfl
@[simp] theorem dramStore_dramUnits (d : Dev) (a : Nat) (bs : List Byte) : (dramStore d a bs).dramUnits = d.dramUnits := rfl
@[simp] theorem dramStore_regs (d : Dev) (a : Nat) (bs : List Byte) : (dramStore d a bs).regs = d.regs := rfl
@[simp] theorem dramStore_stg (d : Dev) (a : Nat) (bs : List Byte) : (dramStore d a bs).stg = d.stg := rfl
@[simp] theorem dramStore_stgSI (d : Dev) (a : Nat) (bs : List Byte) : (dramStore d a bs).stgSI = d.stgSI := rfl
@[simp] theorem dramStore_dramFree (d : Dev) (a : Nat) (bs : List Byte) : (dramStore d a bs).dramFree = d.dramFree := rfl
@[simp] theorem dramStore_tt (d : Dev) (a : Nat) (bs : List Byte) : (dramStore d a bs).tt = d.tt := rfl
@[simp] theorem dramStore_fns (d : Dev) (a : Nat) (bs : List Byte) : (dramStore d a bs).fns = d.fns := rfl
@[simp] theorem dramStore_dirty (d : Dev) (a : Nat) (bs : List Byte) : (dramStore d a bs).dirty = d.dirty := rfl
@[simp] theorem dramStore_pt (d : Dev) (a : Nat) (bs : List Byte) : (dramStore d a bs).pt = d.pt := rfl
@[simp] theorem dramStore_ptSel (d : Dev) (a : Nat) (bs : List Byte) : (dramStore d a bs).ptSel = d.ptSel := rfl
@[simp] theorem dramStore_ptStage (d : Dev) (a : Nat) (bs : List Byte) : (dramStore d a bs).ptStage = d.ptStage := rfl
@[simp] theorem dramStore_blobs (d : Dev) (a : Nat) (bs : List Byte) : (dramStore d a bs).blobs = d.blobs := rfl
@[simp] theorem dramStore_vfEnable (d : Dev) (a : Nat) (bs : List Byte) : (dramStore d a bs).vfEnable = d.vfEnable := rfl
@[simp] theorem dramStore_numVfs (d : Dev) (a : Nat) (bs : List Byte) : (dramStore d a bs).numVfs = d.numVfs := rfl
@[simp] theorem dramStore_plat (d : Dev) (a : Nat) (bs : List Byte) : (dramStore d a bs).plat = d.plat := rfl
@[simp] theorem dramStore_commits (d : Dev) (a : Nat) (bs : List Byte) : (dramStore d a bs).commits = d.commits := rfl
@[simp] theorem dramStore_nextCommit (d : Dev) (a : Nat) (bs : List Byte) : (dramStore d a bs).nextCommit = d.nextCommit := rfl
@[simp] theorem dramStore_accept (d : Dev) (a : Nat) (bs : List Byte) : (dramStore d a bs).accept = d.accept := rfl
@[simp] theorem dramStore_err (d : Dev) (a : Nat) (bs : List Byte) : (dramStore d a bs).err = d.err := rfl
@[simp] theorem dramStore_ctr (d : Dev) (a : Nat) (bs : List Byte) : (dramStore d a bs).ctr = d.ctr := rfl
@[simp] theorem dramStore_buf (d : Dev) (a : Nat) (bs : List Byte) : (dramStore d a bs).buf = d.buf := rfl
@[simp] theorem dramStore_gpu (d : Dev) (a : Nat) (bs : List Byte) : (dramStore d a bs).gpu = d.gpu := rfl
@[simp] theorem dramStore_comp (d : Dev) (a : Nat) (bs : List Byte) : (dramStore d a bs).comp = d.comp := rfl
@[simp] theorem dramStore_scan (d : Dev) (a : Nat) (bs : List Byte) : (dramStore d a bs).scan = d.scan := rfl
@[simp] theorem dramStore_hap (d : Dev) (a : Nat) (bs : List Byte) : (dramStore d a bs).hap = d.hap := rfl
@[simp] theorem dramStore_touch (d : Dev) (a : Nat) (bs : List Byte) : (dramStore d a bs).touch = d.touch := rfl
@[simp] theorem dramStore_audio (d : Dev) (a : Nat) (bs : List Byte) : (dramStore d a bs).audio = d.audio := rfl
@[simp] theorem dramStore_bells (d : Dev) (a : Nat) (bs : List Byte) : (dramStore d a bs).bells = d.bells := rfl
@[simp] theorem dramStore_pm (d : Dev) (a : Nat) (bs : List Byte) : (dramStore d a bs).pm = d.pm := rfl
@[simp] theorem dramStore_safe (d : Dev) (a : Nat) (bs : List Byte) : (dramStore d a bs).safe = d.safe := rfl
@[simp] theorem dramStore_pair (d : Dev) (a : Nat) (bs : List Byte) : (dramStore d a bs).pair = d.pair := rfl
@[simp] theorem dramStore_mdh (d : Dev) (a : Nat) (bs : List Byte) : (dramStore d a bs).mdh = d.mdh := rfl
@[simp] theorem dramStore_gpio (d : Dev) (a : Nat) (bs : List Byte) : (dramStore d a bs).gpio = d.gpio := rfl
@[simp] theorem dramStore_freeCtr (d : Dev) (a : Nat) (bs : List Byte) : (dramStore d a bs).freeCtr = d.freeCtr := rfl
@[simp] theorem dramStore_out (d : Dev) (a : Nat) (bs : List Byte) : (dramStore d a bs).out = d.out := rfl
theorem dramStore_dram (d : Dev) (a : Nat) (bs : List Byte) :
    (dramStore d a bs).dram = (SMap.splice d.dram a (a + bs.length) (dramSeg d a bs)) := rfl

/-! ### dramRelease -/

@[simp] theorem dramRelease_dt (d : Dev) (a len : Nat) : (dramRelease d a len).dt = d.dt := rfl
@[simp] theorem dramRelease_heritage (d : Dev) (a len : Nat) : (dramRelease d a len).heritage = d.heritage := rfl
@[simp] theorem dramRelease_seatB (d : Dev) (a len : Nat) : (dramRelease d a len).seatB = d.seatB := rfl
@[simp] theorem dramRelease_bootMode (d : Dev) (a len : Nat) : (dramRelease d a len).bootMode = d.bootMode := rfl
@[simp] theorem dramRelease_dramUnits (d : Dev) (a len : Nat) : (dramRelease d a len).dramUnits = d.dramUnits := rfl
@[simp] theorem dramRelease_regs (d : Dev) (a len : Nat) : (dramRelease d a len).regs = d.regs := rfl
@[simp] theorem dramRelease_stg (d : Dev) (a len : Nat) : (dramRelease d a len).stg = d.stg := rfl
@[simp] theorem dramRelease_stgSI (d : Dev) (a len : Nat) : (dramRelease d a len).stgSI = d.stgSI := rfl
@[simp] theorem dramRelease_tt (d : Dev) (a len : Nat) : (dramRelease d a len).tt = d.tt := rfl
@[simp] theorem dramRelease_fns (d : Dev) (a len : Nat) : (dramRelease d a len).fns = d.fns := rfl
@[simp] theorem dramRelease_dirty (d : Dev) (a len : Nat) : (dramRelease d a len).dirty = d.dirty := rfl
@[simp] theorem dramRelease_pt (d : Dev) (a len : Nat) : (dramRelease d a len).pt = d.pt := rfl
@[simp] theorem dramRelease_ptSel (d : Dev) (a len : Nat) : (dramRelease d a len).ptSel = d.ptSel := rfl
@[simp] theorem dramRelease_ptStage (d : Dev) (a len : Nat) : (dramRelease d a len).ptStage = d.ptStage := rfl
@[simp] theorem dramRelease_blobs (d : Dev) (a len : Nat) : (dramRelease d a len).blobs = d.blobs := rfl
@[simp] theorem dramRelease_vfEnable (d : Dev) (a len : Nat) : (dramRelease d a len).vfEnable = d.vfEnable := rfl
@[simp] theorem dramRelease_numVfs (d : Dev) (a len : Nat) : (dramRelease d a len).numVfs = d.numVfs := rfl
@[simp] theorem dramRelease_plat (d : Dev) (a len : Nat) : (dramRelease d a len).plat = d.plat := rfl
@[simp] theorem dramRelease_commits (d : Dev) (a len : Nat) : (dramRelease d a len).commits = d.commits := rfl
@[simp] theorem dramRelease_nextCommit (d : Dev) (a len : Nat) : (dramRelease d a len).nextCommit = d.nextCommit := rfl
@[simp] theorem dramRelease_accept (d : Dev) (a len : Nat) : (dramRelease d a len).accept = d.accept := rfl
@[simp] theorem dramRelease_err (d : Dev) (a len : Nat) : (dramRelease d a len).err = d.err := rfl
@[simp] theorem dramRelease_ctr (d : Dev) (a len : Nat) : (dramRelease d a len).ctr = d.ctr := rfl
@[simp] theorem dramRelease_buf (d : Dev) (a len : Nat) : (dramRelease d a len).buf = d.buf := rfl
@[simp] theorem dramRelease_gpu (d : Dev) (a len : Nat) : (dramRelease d a len).gpu = d.gpu := rfl
@[simp] theorem dramRelease_comp (d : Dev) (a len : Nat) : (dramRelease d a len).comp = d.comp := rfl
@[simp] theorem dramRelease_scan (d : Dev) (a len : Nat) : (dramRelease d a len).scan = d.scan := rfl
@[simp] theorem dramRelease_hap (d : Dev) (a len : Nat) : (dramRelease d a len).hap = d.hap := rfl
@[simp] theorem dramRelease_touch (d : Dev) (a len : Nat) : (dramRelease d a len).touch = d.touch := rfl
@[simp] theorem dramRelease_audio (d : Dev) (a len : Nat) : (dramRelease d a len).audio = d.audio := rfl
@[simp] theorem dramRelease_bells (d : Dev) (a len : Nat) : (dramRelease d a len).bells = d.bells := rfl
@[simp] theorem dramRelease_pm (d : Dev) (a len : Nat) : (dramRelease d a len).pm = d.pm := rfl
@[simp] theorem dramRelease_safe (d : Dev) (a len : Nat) : (dramRelease d a len).safe = d.safe := rfl
@[simp] theorem dramRelease_pair (d : Dev) (a len : Nat) : (dramRelease d a len).pair = d.pair := rfl
@[simp] theorem dramRelease_mdh (d : Dev) (a len : Nat) : (dramRelease d a len).mdh = d.mdh := rfl
@[simp] theorem dramRelease_gpio (d : Dev) (a len : Nat) : (dramRelease d a len).gpio = d.gpio := rfl
@[simp] theorem dramRelease_out (d : Dev) (a len : Nat) : (dramRelease d a len).out = d.out := rfl
theorem dramRelease_dram (d : Dev) (a len : Nat) :
    (dramRelease d a len).dram = SMap.splice d.dram a (a + len) [] := rfl
theorem dramRelease_dramFree (d : Dev) (a len : Nat) :
    (dramRelease d a len).dramFree = ({ lo := a, len := len, key := d.freeCtr } :: d.dramFree) := rfl
theorem dramRelease_freeCtr (d : Dev) (a len : Nat) : (dramRelease d a len).freeCtr = d.freeCtr + len := rfl

/-! ### setMdh -/

@[simp] theorem setMdh_dt (d : Dev) (off : Nat) (v : Word) : (setMdh d off v).dt = d.dt := rfl
@[simp] theorem setMdh_heritage (d : Dev) (off : Nat) (v : Word) : (setMdh d off v).heritage = d.heritage := rfl
@[simp] theorem setMdh_seatB (d : Dev) (off : Nat) (v : Word) : (setMdh d off v).seatB = d.seatB := rfl
@[simp] theorem setMdh_bootMode (d : Dev) (off : Nat) (v : Word) : (setMdh d off v).bootMode = d.bootMode := rfl
@[simp] theorem setMdh_dramUnits (d : Dev) (off : Nat) (v : Word) : (setMdh d off v).dramUnits = d.dramUnits := rfl
@[simp] theorem setMdh_regs (d : Dev) (off : Nat) (v : Word) : (setMdh d off v).regs = d.regs := rfl
@[simp] theorem setMdh_stg (d : Dev) (off : Nat) (v : Word) : (setMdh d off v).stg = d.stg := rfl
@[simp] theorem setMdh_stgSI (d : Dev) (off : Nat) (v : Word) : (setMdh d off v).stgSI = d.stgSI := rfl
@[simp] theorem setMdh_dram (d : Dev) (off : Nat) (v : Word) : (setMdh d off v).dram = d.dram := rfl
@[simp] theorem setMdh_dramFree (d : Dev) (off : Nat) (v : Word) : (setMdh d off v).dramFree = d.dramFree := rfl
@[simp] theorem setMdh_tt (d : Dev) (off : Nat) (v : Word) : (setMdh d off v).tt = d.tt := rfl
@[simp] theorem setMdh_fns (d : Dev) (off : Nat) (v : Word) : (setMdh d off v).fns = d.fns := rfl
@[simp] theorem setMdh_dirty (d : Dev) (off : Nat) (v : Word) : (setMdh d off v).dirty = d.dirty := rfl
@[simp] theorem setMdh_pt (d : Dev) (off : Nat) (v : Word) : (setMdh d off v).pt = d.pt := rfl
@[simp] theorem setMdh_ptSel (d : Dev) (off : Nat) (v : Word) : (setMdh d off v).ptSel = d.ptSel := rfl
@[simp] theorem setMdh_ptStage (d : Dev) (off : Nat) (v : Word) : (setMdh d off v).ptStage = d.ptStage := rfl
@[simp] theorem setMdh_blobs (d : Dev) (off : Nat) (v : Word) : (setMdh d off v).blobs = d.blobs := rfl
@[simp] theorem setMdh_vfEnable (d : Dev) (off : Nat) (v : Word) : (setMdh d off v).vfEnable = d.vfEnable := rfl
@[simp] theorem setMdh_numVfs (d : Dev) (off : Nat) (v : Word) : (setMdh d off v).numVfs = d.numVfs := rfl
@[simp] theorem setMdh_plat (d : Dev) (off : Nat) (v : Word) : (setMdh d off v).plat = d.plat := rfl
@[simp] theorem setMdh_commits (d : Dev) (off : Nat) (v : Word) : (setMdh d off v).commits = d.commits := rfl
@[simp] theorem setMdh_nextCommit (d : Dev) (off : Nat) (v : Word) : (setMdh d off v).nextCommit = d.nextCommit := rfl
@[simp] theorem setMdh_accept (d : Dev) (off : Nat) (v : Word) : (setMdh d off v).accept = d.accept := rfl
@[simp] theorem setMdh_err (d : Dev) (off : Nat) (v : Word) : (setMdh d off v).err = d.err := rfl
@[simp] theorem setMdh_ctr (d : Dev) (off : Nat) (v : Word) : (setMdh d off v).ctr = d.ctr := rfl
@[simp] theorem setMdh_buf (d : Dev) (off : Nat) (v : Word) : (setMdh d off v).buf = d.buf := rfl
@[simp] theorem setMdh_gpu (d : Dev) (off : Nat) (v : Word) : (setMdh d off v).gpu = d.gpu := rfl
@[simp] theorem setMdh_comp (d : Dev) (off : Nat) (v : Word) : (setMdh d off v).comp = d.comp := rfl
@[simp] theorem setMdh_scan (d : Dev) (off : Nat) (v : Word) : (setMdh d off v).scan = d.scan := rfl
@[simp] theorem setMdh_hap (d : Dev) (off : Nat) (v : Word) : (setMdh d off v).hap = d.hap := rfl
@[simp] theorem setMdh_touch (d : Dev) (off : Nat) (v : Word) : (setMdh d off v).touch = d.touch := rfl
@[simp] theorem setMdh_audio (d : Dev) (off : Nat) (v : Word) : (setMdh d off v).audio = d.audio := rfl
@[simp] theorem setMdh_bells (d : Dev) (off : Nat) (v : Word) : (setMdh d off v).bells = d.bells := rfl
@[simp] theorem setMdh_pm (d : Dev) (off : Nat) (v : Word) : (setMdh d off v).pm = d.pm := rfl
@[simp] theorem setMdh_safe (d : Dev) (off : Nat) (v : Word) : (setMdh d off v).safe = d.safe := rfl
@[simp] theorem setMdh_pair (d : Dev) (off : Nat) (v : Word) : (setMdh d off v).pair = d.pair := rfl
@[simp] theorem setMdh_gpio (d : Dev) (off : Nat) (v : Word) : (setMdh d off v).gpio = d.gpio := rfl
@[simp] theorem setMdh_freeCtr (d : Dev) (off : Nat) (v : Word) : (setMdh d off v).freeCtr = d.freeCtr := rfl
@[simp] theorem setMdh_out (d : Dev) (off : Nat) (v : Word) : (setMdh d off v).out = d.out := rfl
theorem setMdh_mdh (d : Dev) (off : Nat) (v : Word) :
    (setMdh d off v).mdh = ({ d.mdh with regs := SMap.set d.mdh.regs off v }) := rfl

/-! ### setRaster -/

@[simp] theorem setRaster_dt (d : Dev) (p : Nat) (x : Raster) : (setRaster d p x).dt = d.dt := rfl
@[simp] theorem setRaster_heritage (d : Dev) (p : Nat) (x : Raster) : (setRaster d p x).heritage = d.heritage := rfl
@[simp] theorem setRaster_seatB (d : Dev) (p : Nat) (x : Raster) : (setRaster d p x).seatB = d.seatB := rfl
@[simp] theorem setRaster_bootMode (d : Dev) (p : Nat) (x : Raster) : (setRaster d p x).bootMode = d.bootMode := rfl
@[simp] theorem setRaster_dramUnits (d : Dev) (p : Nat) (x : Raster) : (setRaster d p x).dramUnits = d.dramUnits := rfl
@[simp] theorem setRaster_regs (d : Dev) (p : Nat) (x : Raster) : (setRaster d p x).regs = d.regs := rfl
@[simp] theorem setRaster_stg (d : Dev) (p : Nat) (x : Raster) : (setRaster d p x).stg = d.stg := rfl
@[simp] theorem setRaster_stgSI (d : Dev) (p : Nat) (x : Raster) : (setRaster d p x).stgSI = d.stgSI := rfl
@[simp] theorem setRaster_dram (d : Dev) (p : Nat) (x : Raster) : (setRaster d p x).dram = d.dram := rfl
@[simp] theorem setRaster_dramFree (d : Dev) (p : Nat) (x : Raster) : (setRaster d p x).dramFree = d.dramFree := rfl
@[simp] theorem setRaster_fns (d : Dev) (p : Nat) (x : Raster) : (setRaster d p x).fns = d.fns := rfl
@[simp] theorem setRaster_dirty (d : Dev) (p : Nat) (x : Raster) : (setRaster d p x).dirty = d.dirty := rfl
@[simp] theorem setRaster_pt (d : Dev) (p : Nat) (x : Raster) : (setRaster d p x).pt = d.pt := rfl
@[simp] theorem setRaster_ptSel (d : Dev) (p : Nat) (x : Raster) : (setRaster d p x).ptSel = d.ptSel := rfl
@[simp] theorem setRaster_ptStage (d : Dev) (p : Nat) (x : Raster) : (setRaster d p x).ptStage = d.ptStage := rfl
@[simp] theorem setRaster_blobs (d : Dev) (p : Nat) (x : Raster) : (setRaster d p x).blobs = d.blobs := rfl
@[simp] theorem setRaster_vfEnable (d : Dev) (p : Nat) (x : Raster) : (setRaster d p x).vfEnable = d.vfEnable := rfl
@[simp] theorem setRaster_numVfs (d : Dev) (p : Nat) (x : Raster) : (setRaster d p x).numVfs = d.numVfs := rfl
@[simp] theorem setRaster_plat (d : Dev) (p : Nat) (x : Raster) : (setRaster d p x).plat = d.plat := rfl
@[simp] theorem setRaster_commits (d : Dev) (p : Nat) (x : Raster) : (setRaster d p x).commits = d.commits := rfl
@[simp] theorem setRaster_nextCommit (d : Dev) (p : Nat) (x : Raster) : (setRaster d p x).nextCommit = d.nextCommit := rfl
@[simp] theorem setRaster_accept (d : Dev) (p : Nat) (x : Raster) : (setRaster d p x).accept = d.accept := rfl
@[simp] theorem setRaster_err (d : Dev) (p : Nat) (x : Raster) : (setRaster d p x).err = d.err := rfl
@[simp] theorem setRaster_ctr (d : Dev) (p : Nat) (x : Raster) : (setRaster d p x).ctr = d.ctr := rfl
@[simp] theorem setRaster_buf (d : Dev) (p : Nat) (x : Raster) : (setRaster d p x).buf = d.buf := rfl
@[simp] theorem setRaster_gpu (d : Dev) (p : Nat) (x : Raster) : (setRaster d p x).gpu = d.gpu := rfl
@[simp] theorem setRaster_comp (d : Dev) (p : Nat) (x : Raster) : (setRaster d p x).comp = d.comp := rfl
@[simp] theorem setRaster_scan (d : Dev) (p : Nat) (x : Raster) : (setRaster d p x).scan = d.scan := rfl
@[simp] theorem setRaster_hap (d : Dev) (p : Nat) (x : Raster) : (setRaster d p x).hap = d.hap := rfl
@[simp] theorem setRaster_touch (d : Dev) (p : Nat) (x : Raster) : (setRaster d p x).touch = d.touch := rfl
@[simp] theorem setRaster_audio (d : Dev) (p : Nat) (x : Raster) : (setRaster d p x).audio = d.audio := rfl
@[simp] theorem setRaster_bells (d : Dev) (p : Nat) (x : Raster) : (setRaster d p x).bells = d.bells := rfl
@[simp] theorem setRaster_pm (d : Dev) (p : Nat) (x : Raster) : (setRaster d p x).pm = d.pm := rfl
@[simp] theorem setRaster_safe (d : Dev) (p : Nat) (x : Raster) : (setRaster d p x).safe = d.safe := rfl
@[simp] theorem setRaster_pair (d : Dev) (p : Nat) (x : Raster) : (setRaster d p x).pair = d.pair := rfl
@[simp] theorem setRaster_mdh (d : Dev) (p : Nat) (x : Raster) : (setRaster d p x).mdh = d.mdh := rfl
@[simp] theorem setRaster_gpio (d : Dev) (p : Nat) (x : Raster) : (setRaster d p x).gpio = d.gpio := rfl
@[simp] theorem setRaster_freeCtr (d : Dev) (p : Nat) (x : Raster) : (setRaster d p x).freeCtr = d.freeCtr := rfl
@[simp] theorem setRaster_out (d : Dev) (p : Nat) (x : Raster) : (setRaster d p x).out = d.out := rfl
theorem setRaster_tt (d : Dev) (p : Nat) (x : Raster) :
    (setRaster d p x).tt = ({ d.tt with raster := SMap.set d.tt.raster p x }) := rfl

/-! ### onPlat -/

@[simp] theorem onPlat_dt (d : Dev) (p : Nat) (g : PlatRun → PlatRun) : (onPlat d p g).dt = d.dt := rfl
@[simp] theorem onPlat_heritage (d : Dev) (p : Nat) (g : PlatRun → PlatRun) : (onPlat d p g).heritage = d.heritage := rfl
@[simp] theorem onPlat_seatB (d : Dev) (p : Nat) (g : PlatRun → PlatRun) : (onPlat d p g).seatB = d.seatB := rfl
@[simp] theorem onPlat_bootMode (d : Dev) (p : Nat) (g : PlatRun → PlatRun) : (onPlat d p g).bootMode = d.bootMode := rfl
@[simp] theorem onPlat_dramUnits (d : Dev) (p : Nat) (g : PlatRun → PlatRun) : (onPlat d p g).dramUnits = d.dramUnits := rfl
@[simp] theorem onPlat_regs (d : Dev) (p : Nat) (g : PlatRun → PlatRun) : (onPlat d p g).regs = d.regs := rfl
@[simp] theorem onPlat_stg (d : Dev) (p : Nat) (g : PlatRun → PlatRun) : (onPlat d p g).stg = d.stg := rfl
@[simp] theorem onPlat_stgSI (d : Dev) (p : Nat) (g : PlatRun → PlatRun) : (onPlat d p g).stgSI = d.stgSI := rfl
@[simp] theorem onPlat_dram (d : Dev) (p : Nat) (g : PlatRun → PlatRun) : (onPlat d p g).dram = d.dram := rfl
@[simp] theorem onPlat_dramFree (d : Dev) (p : Nat) (g : PlatRun → PlatRun) : (onPlat d p g).dramFree = d.dramFree := rfl
@[simp] theorem onPlat_tt (d : Dev) (p : Nat) (g : PlatRun → PlatRun) : (onPlat d p g).tt = d.tt := rfl
@[simp] theorem onPlat_fns (d : Dev) (p : Nat) (g : PlatRun → PlatRun) : (onPlat d p g).fns = d.fns := rfl
@[simp] theorem onPlat_dirty (d : Dev) (p : Nat) (g : PlatRun → PlatRun) : (onPlat d p g).dirty = d.dirty := rfl
@[simp] theorem onPlat_pt (d : Dev) (p : Nat) (g : PlatRun → PlatRun) : (onPlat d p g).pt = d.pt := rfl
@[simp] theorem onPlat_ptSel (d : Dev) (p : Nat) (g : PlatRun → PlatRun) : (onPlat d p g).ptSel = d.ptSel := rfl
@[simp] theorem onPlat_ptStage (d : Dev) (p : Nat) (g : PlatRun → PlatRun) : (onPlat d p g).ptStage = d.ptStage := rfl
@[simp] theorem onPlat_blobs (d : Dev) (p : Nat) (g : PlatRun → PlatRun) : (onPlat d p g).blobs = d.blobs := rfl
@[simp] theorem onPlat_vfEnable (d : Dev) (p : Nat) (g : PlatRun → PlatRun) : (onPlat d p g).vfEnable = d.vfEnable := rfl
@[simp] theorem onPlat_numVfs (d : Dev) (p : Nat) (g : PlatRun → PlatRun) : (onPlat d p g).numVfs = d.numVfs := rfl
@[simp] theorem onPlat_commits (d : Dev) (p : Nat) (g : PlatRun → PlatRun) : (onPlat d p g).commits = d.commits := rfl
@[simp] theorem onPlat_nextCommit (d : Dev) (p : Nat) (g : PlatRun → PlatRun) : (onPlat d p g).nextCommit = d.nextCommit := rfl
@[simp] theorem onPlat_accept (d : Dev) (p : Nat) (g : PlatRun → PlatRun) : (onPlat d p g).accept = d.accept := rfl
@[simp] theorem onPlat_err (d : Dev) (p : Nat) (g : PlatRun → PlatRun) : (onPlat d p g).err = d.err := rfl
@[simp] theorem onPlat_ctr (d : Dev) (p : Nat) (g : PlatRun → PlatRun) : (onPlat d p g).ctr = d.ctr := rfl
@[simp] theorem onPlat_buf (d : Dev) (p : Nat) (g : PlatRun → PlatRun) : (onPlat d p g).buf = d.buf := rfl
@[simp] theorem onPlat_gpu (d : Dev) (p : Nat) (g : PlatRun → PlatRun) : (onPlat d p g).gpu = d.gpu := rfl
@[simp] theorem onPlat_comp (d : Dev) (p : Nat) (g : PlatRun → PlatRun) : (onPlat d p g).comp = d.comp := rfl
@[simp] theorem onPlat_scan (d : Dev) (p : Nat) (g : PlatRun → PlatRun) : (onPlat d p g).scan = d.scan := rfl
@[simp] theorem onPlat_hap (d : Dev) (p : Nat) (g : PlatRun → PlatRun) : (onPlat d p g).hap = d.hap := rfl
@[simp] theorem onPlat_touch (d : Dev) (p : Nat) (g : PlatRun → PlatRun) : (onPlat d p g).touch = d.touch := rfl
@[simp] theorem onPlat_audio (d : Dev) (p : Nat) (g : PlatRun → PlatRun) : (onPlat d p g).audio = d.audio := rfl
@[simp] theorem onPlat_bells (d : Dev) (p : Nat) (g : PlatRun → PlatRun) : (onPlat d p g).bells = d.bells := rfl
@[simp] theorem onPlat_pm (d : Dev) (p : Nat) (g : PlatRun → PlatRun) : (onPlat d p g).pm = d.pm := rfl
@[simp] theorem onPlat_safe (d : Dev) (p : Nat) (g : PlatRun → PlatRun) : (onPlat d p g).safe = d.safe := rfl
@[simp] theorem onPlat_pair (d : Dev) (p : Nat) (g : PlatRun → PlatRun) : (onPlat d p g).pair = d.pair := rfl
@[simp] theorem onPlat_mdh (d : Dev) (p : Nat) (g : PlatRun → PlatRun) : (onPlat d p g).mdh = d.mdh := rfl
@[simp] theorem onPlat_gpio (d : Dev) (p : Nat) (g : PlatRun → PlatRun) : (onPlat d p g).gpio = d.gpio := rfl
@[simp] theorem onPlat_freeCtr (d : Dev) (p : Nat) (g : PlatRun → PlatRun) : (onPlat d p g).freeCtr = d.freeCtr := rfl
@[simp] theorem onPlat_out (d : Dev) (p : Nat) (g : PlatRun → PlatRun) : (onPlat d p g).out = d.out := rfl
theorem onPlat_plat (d : Dev) (p : Nat) (g : PlatRun → PlatRun) :
    (onPlat d p g).plat = (SMap.mod d.plat p g) := rfl

/-! ### onBuf -/

@[simp] theorem onBuf_dt (d : Dev) (i : Nat) (g : BufEntry → BufEntry) : (onBuf d i g).dt = d.dt := rfl
@[simp] theorem onBuf_heritage (d : Dev) (i : Nat) (g : BufEntry → BufEntry) : (onBuf d i g).heritage = d.heritage := rfl
@[simp] theorem onBuf_seatB (d : Dev) (i : Nat) (g : BufEntry → BufEntry) : (onBuf d i g).seatB = d.seatB := rfl
@[simp] theorem onBuf_bootMode (d : Dev) (i : Nat) (g : BufEntry → BufEntry) : (onBuf d i g).bootMode = d.bootMode := rfl
@[simp] theorem onBuf_dramUnits (d : Dev) (i : Nat) (g : BufEntry → BufEntry) : (onBuf d i g).dramUnits = d.dramUnits := rfl
@[simp] theorem onBuf_regs (d : Dev) (i : Nat) (g : BufEntry → BufEntry) : (onBuf d i g).regs = d.regs := rfl
@[simp] theorem onBuf_stg (d : Dev) (i : Nat) (g : BufEntry → BufEntry) : (onBuf d i g).stg = d.stg := rfl
@[simp] theorem onBuf_stgSI (d : Dev) (i : Nat) (g : BufEntry → BufEntry) : (onBuf d i g).stgSI = d.stgSI := rfl
@[simp] theorem onBuf_dram (d : Dev) (i : Nat) (g : BufEntry → BufEntry) : (onBuf d i g).dram = d.dram := rfl
@[simp] theorem onBuf_dramFree (d : Dev) (i : Nat) (g : BufEntry → BufEntry) : (onBuf d i g).dramFree = d.dramFree := rfl
@[simp] theorem onBuf_tt (d : Dev) (i : Nat) (g : BufEntry → BufEntry) : (onBuf d i g).tt = d.tt := rfl
@[simp] theorem onBuf_fns (d : Dev) (i : Nat) (g : BufEntry → BufEntry) : (onBuf d i g).fns = d.fns := rfl
@[simp] theorem onBuf_dirty (d : Dev) (i : Nat) (g : BufEntry → BufEntry) : (onBuf d i g).dirty = d.dirty := rfl
@[simp] theorem onBuf_pt (d : Dev) (i : Nat) (g : BufEntry → BufEntry) : (onBuf d i g).pt = d.pt := rfl
@[simp] theorem onBuf_ptSel (d : Dev) (i : Nat) (g : BufEntry → BufEntry) : (onBuf d i g).ptSel = d.ptSel := rfl
@[simp] theorem onBuf_ptStage (d : Dev) (i : Nat) (g : BufEntry → BufEntry) : (onBuf d i g).ptStage = d.ptStage := rfl
@[simp] theorem onBuf_blobs (d : Dev) (i : Nat) (g : BufEntry → BufEntry) : (onBuf d i g).blobs = d.blobs := rfl
@[simp] theorem onBuf_vfEnable (d : Dev) (i : Nat) (g : BufEntry → BufEntry) : (onBuf d i g).vfEnable = d.vfEnable := rfl
@[simp] theorem onBuf_numVfs (d : Dev) (i : Nat) (g : BufEntry → BufEntry) : (onBuf d i g).numVfs = d.numVfs := rfl
@[simp] theorem onBuf_plat (d : Dev) (i : Nat) (g : BufEntry → BufEntry) : (onBuf d i g).plat = d.plat := rfl
@[simp] theorem onBuf_commits (d : Dev) (i : Nat) (g : BufEntry → BufEntry) : (onBuf d i g).commits = d.commits := rfl
@[simp] theorem onBuf_nextCommit (d : Dev) (i : Nat) (g : BufEntry → BufEntry) : (onBuf d i g).nextCommit = d.nextCommit := rfl
@[simp] theorem onBuf_accept (d : Dev) (i : Nat) (g : BufEntry → BufEntry) : (onBuf d i g).accept = d.accept := rfl
@[simp] theorem onBuf_err (d : Dev) (i : Nat) (g : BufEntry → BufEntry) : (onBuf d i g).err = d.err := rfl
@[simp] theorem onBuf_ctr (d : Dev) (i : Nat) (g : BufEntry → BufEntry) : (onBuf d i g).ctr = d.ctr := rfl
@[simp] theorem onBuf_gpu (d : Dev) (i : Nat) (g : BufEntry → BufEntry) : (onBuf d i g).gpu = d.gpu := rfl
@[simp] theorem onBuf_comp (d : Dev) (i : Nat) (g : BufEntry → BufEntry) : (onBuf d i g).comp = d.comp := rfl
@[simp] theorem onBuf_scan (d : Dev) (i : Nat) (g : BufEntry → BufEntry) : (onBuf d i g).scan = d.scan := rfl
@[simp] theorem onBuf_hap (d : Dev) (i : Nat) (g : BufEntry → BufEntry) : (onBuf d i g).hap = d.hap := rfl
@[simp] theorem onBuf_touch (d : Dev) (i : Nat) (g : BufEntry → BufEntry) : (onBuf d i g).touch = d.touch := rfl
@[simp] theorem onBuf_audio (d : Dev) (i : Nat) (g : BufEntry → BufEntry) : (onBuf d i g).audio = d.audio := rfl
@[simp] theorem onBuf_bells (d : Dev) (i : Nat) (g : BufEntry → BufEntry) : (onBuf d i g).bells = d.bells := rfl
@[simp] theorem onBuf_pm (d : Dev) (i : Nat) (g : BufEntry → BufEntry) : (onBuf d i g).pm = d.pm := rfl
@[simp] theorem onBuf_safe (d : Dev) (i : Nat) (g : BufEntry → BufEntry) : (onBuf d i g).safe = d.safe := rfl
@[simp] theorem onBuf_pair (d : Dev) (i : Nat) (g : BufEntry → BufEntry) : (onBuf d i g).pair = d.pair := rfl
@[simp] theorem onBuf_mdh (d : Dev) (i : Nat) (g : BufEntry → BufEntry) : (onBuf d i g).mdh = d.mdh := rfl
@[simp] theorem onBuf_gpio (d : Dev) (i : Nat) (g : BufEntry → BufEntry) : (onBuf d i g).gpio = d.gpio := rfl
@[simp] theorem onBuf_freeCtr (d : Dev) (i : Nat) (g : BufEntry → BufEntry) : (onBuf d i g).freeCtr = d.freeCtr := rfl
@[simp] theorem onBuf_out (d : Dev) (i : Nat) (g : BufEntry → BufEntry) : (onBuf d i g).out = d.out := rfl
theorem onBuf_buf (d : Dev) (i : Nat) (g : BufEntry → BufEntry) :
    (onBuf d i g).buf = ({ d.buf with tab := SMap.mod d.buf.tab i g }) := rfl

/-! ### onCommit -/

@[simp] theorem onCommit_dt (d : Dev) (i : Nat) (g : Commit → Commit) : (onCommit d i g).dt = d.dt := rfl
@[simp] theorem onCommit_heritage (d : Dev) (i : Nat) (g : Commit → Commit) : (onCommit d i g).heritage = d.heritage := rfl
@[simp] theorem onCommit_seatB (d : Dev) (i : Nat) (g : Commit → Commit) : (onCommit d i g).seatB = d.seatB := rfl
@[simp] theorem onCommit_bootMode (d : Dev) (i : Nat) (g : Commit → Commit) : (onCommit d i g).bootMode = d.bootMode := rfl
@[simp] theorem onCommit_dramUnits (d : Dev) (i : Nat) (g : Commit → Commit) : (onCommit d i g).dramUnits = d.dramUnits := rfl
@[simp] theorem onCommit_regs (d : Dev) (i : Nat) (g : Commit → Commit) : (onCommit d i g).regs = d.regs := rfl
@[simp] theorem onCommit_stg (d : Dev) (i : Nat) (g : Commit → Commit) : (onCommit d i g).stg = d.stg := rfl
@[simp] theorem onCommit_stgSI (d : Dev) (i : Nat) (g : Commit → Commit) : (onCommit d i g).stgSI = d.stgSI := rfl
@[simp] theorem onCommit_dram (d : Dev) (i : Nat) (g : Commit → Commit) : (onCommit d i g).dram = d.dram := rfl
@[simp] theorem onCommit_dramFree (d : Dev) (i : Nat) (g : Commit → Commit) : (onCommit d i g).dramFree = d.dramFree := rfl
@[simp] theorem onCommit_tt (d : Dev) (i : Nat) (g : Commit → Commit) : (onCommit d i g).tt = d.tt := rfl
@[simp] theorem onCommit_fns (d : Dev) (i : Nat) (g : Commit → Commit) : (onCommit d i g).fns = d.fns := rfl
@[simp] theorem onCommit_dirty (d : Dev) (i : Nat) (g : Commit → Commit) : (onCommit d i g).dirty = d.dirty := rfl
@[simp] theorem onCommit_pt (d : Dev) (i : Nat) (g : Commit → Commit) : (onCommit d i g).pt = d.pt := rfl
@[simp] theorem onCommit_ptSel (d : Dev) (i : Nat) (g : Commit → Commit) : (onCommit d i g).ptSel = d.ptSel := rfl
@[simp] theorem onCommit_ptStage (d : Dev) (i : Nat) (g : Commit → Commit) : (onCommit d i g).ptStage = d.ptStage := rfl
@[simp] theorem onCommit_blobs (d : Dev) (i : Nat) (g : Commit → Commit) : (onCommit d i g).blobs = d.blobs := rfl
@[simp] theorem onCommit_vfEnable (d : Dev) (i : Nat) (g : Commit → Commit) : (onCommit d i g).vfEnable = d.vfEnable := rfl
@[simp] theorem onCommit_numVfs (d : Dev) (i : Nat) (g : Commit → Commit) : (onCommit d i g).numVfs = d.numVfs := rfl
@[simp] theorem onCommit_plat (d : Dev) (i : Nat) (g : Commit → Commit) : (onCommit d i g).plat = d.plat := rfl
@[simp] theorem onCommit_nextCommit (d : Dev) (i : Nat) (g : Commit → Commit) : (onCommit d i g).nextCommit = d.nextCommit := rfl
@[simp] theorem onCommit_accept (d : Dev) (i : Nat) (g : Commit → Commit) : (onCommit d i g).accept = d.accept := rfl
@[simp] theorem onCommit_err (d : Dev) (i : Nat) (g : Commit → Commit) : (onCommit d i g).err = d.err := rfl
@[simp] theorem onCommit_ctr (d : Dev) (i : Nat) (g : Commit → Commit) : (onCommit d i g).ctr = d.ctr := rfl
@[simp] theorem onCommit_buf (d : Dev) (i : Nat) (g : Commit → Commit) : (onCommit d i g).buf = d.buf := rfl
@[simp] theorem onCommit_gpu (d : Dev) (i : Nat) (g : Commit → Commit) : (onCommit d i g).gpu = d.gpu := rfl
@[simp] theorem onCommit_comp (d : Dev) (i : Nat) (g : Commit → Commit) : (onCommit d i g).comp = d.comp := rfl
@[simp] theorem onCommit_scan (d : Dev) (i : Nat) (g : Commit → Commit) : (onCommit d i g).scan = d.scan := rfl
@[simp] theorem onCommit_hap (d : Dev) (i : Nat) (g : Commit → Commit) : (onCommit d i g).hap = d.hap := rfl
@[simp] theorem onCommit_touch (d : Dev) (i : Nat) (g : Commit → Commit) : (onCommit d i g).touch = d.touch := rfl
@[simp] theorem onCommit_audio (d : Dev) (i : Nat) (g : Commit → Commit) : (onCommit d i g).audio = d.audio := rfl
@[simp] theorem onCommit_bells (d : Dev) (i : Nat) (g : Commit → Commit) : (onCommit d i g).bells = d.bells := rfl
@[simp] theorem onCommit_pm (d : Dev) (i : Nat) (g : Commit → Commit) : (onCommit d i g).pm = d.pm := rfl
@[simp] theorem onCommit_safe (d : Dev) (i : Nat) (g : Commit → Commit) : (onCommit d i g).safe = d.safe := rfl
@[simp] theorem onCommit_pair (d : Dev) (i : Nat) (g : Commit → Commit) : (onCommit d i g).pair = d.pair := rfl
@[simp] theorem onCommit_mdh (d : Dev) (i : Nat) (g : Commit → Commit) : (onCommit d i g).mdh = d.mdh := rfl
@[simp] theorem onCommit_gpio (d : Dev) (i : Nat) (g : Commit → Commit) : (onCommit d i g).gpio = d.gpio := rfl
@[simp] theorem onCommit_freeCtr (d : Dev) (i : Nat) (g : Commit → Commit) : (onCommit d i g).freeCtr = d.freeCtr := rfl
@[simp] theorem onCommit_out (d : Dev) (i : Nat) (g : Commit → Commit) : (onCommit d i g).out = d.out := rfl
theorem onCommit_commits (d : Dev) (i : Nat) (g : Commit → Commit) :
    (onCommit d i g).commits = (d.commits.map (fun c => if c.id = i then g c else c)) := rfl

/-! ### dropCommit -/

@[simp] theorem dropCommit_dt (d : Dev) (i : Nat) : (dropCommit d i).dt = d.dt := rfl
@[simp] theorem dropCommit_heritage (d : Dev) (i : Nat) : (dropCommit d i).heritage = d.heritage := rfl
@[simp] theorem dropCommit_seatB (d : Dev) (i : Nat) : (dropCommit d i).seatB = d.seatB := rfl
@[simp] theorem dropCommit_bootMode (d : Dev) (i : Nat) : (dropCommit d i).bootMode = d.bootMode := rfl
@[simp] theorem dropCommit_dramUnits (d : Dev) (i : Nat) : (dropCommit d i).dramUnits = d.dramUnits := rfl
@[simp] theorem dropCommit_regs (d : Dev) (i : Nat) : (dropCommit d i).regs = d.regs := rfl
@[simp] theorem dropCommit_stg (d : Dev) (i : Nat) : (dropCommit d i).stg = d.stg := rfl
@[simp] theorem dropCommit_stgSI (d : Dev) (i : Nat) : (dropCommit d i).stgSI = d.stgSI := rfl
@[simp] theorem dropCommit_dram (d : Dev) (i : Nat) : (dropCommit d i).dram = d.dram := rfl
@[simp] theorem dropCommit_dramFree (d : Dev) (i : Nat) : (dropCommit d i).dramFree = d.dramFree := rfl
@[simp] theorem dropCommit_tt (d : Dev) (i : Nat) : (dropCommit d i).tt = d.tt := rfl
@[simp] theorem dropCommit_fns (d : Dev) (i : Nat) : (dropCommit d i).fns = d.fns := rfl
@[simp] theorem dropCommit_dirty (d : Dev) (i : Nat) : (dropCommit d i).dirty = d.dirty := rfl
@[simp] theorem dropCommit_pt (d : Dev) (i : Nat) : (dropCommit d i).pt = d.pt := rfl
@[simp] theorem dropCommit_ptSel (d : Dev) (i : Nat) : (dropCommit d i).ptSel = d.ptSel := rfl
@[simp] theorem dropCommit_ptStage (d : Dev) (i : Nat) : (dropCommit d i).ptStage = d.ptStage := rfl
@[simp] theorem dropCommit_blobs (d : Dev) (i : Nat) : (dropCommit d i).blobs = d.blobs := rfl
@[simp] theorem dropCommit_vfEnable (d : Dev) (i : Nat) : (dropCommit d i).vfEnable = d.vfEnable := rfl
@[simp] theorem dropCommit_numVfs (d : Dev) (i : Nat) : (dropCommit d i).numVfs = d.numVfs := rfl
@[simp] theorem dropCommit_plat (d : Dev) (i : Nat) : (dropCommit d i).plat = d.plat := rfl
@[simp] theorem dropCommit_nextCommit (d : Dev) (i : Nat) : (dropCommit d i).nextCommit = d.nextCommit := rfl
@[simp] theorem dropCommit_accept (d : Dev) (i : Nat) : (dropCommit d i).accept = d.accept := rfl
@[simp] theorem dropCommit_err (d : Dev) (i : Nat) : (dropCommit d i).err = d.err := rfl
@[simp] theorem dropCommit_ctr (d : Dev) (i : Nat) : (dropCommit d i).ctr = d.ctr := rfl
@[simp] theorem dropCommit_buf (d : Dev) (i : Nat) : (dropCommit d i).buf = d.buf := rfl
@[simp] theorem dropCommit_gpu (d : Dev) (i : Nat) : (dropCommit d i).gpu = d.gpu := rfl
@[simp] theorem dropCommit_comp (d : Dev) (i : Nat) : (dropCommit d i).comp = d.comp := rfl
@[simp] theorem dropCommit_scan (d : Dev) (i : Nat) : (dropCommit d i).scan = d.scan := rfl
@[simp] theorem dropCommit_hap (d : Dev) (i : Nat) : (dropCommit d i).hap = d.hap := rfl
@[simp] theorem dropCommit_touch (d : Dev) (i : Nat) : (dropCommit d i).touch = d.touch := rfl
@[simp] theorem dropCommit_audio (d : Dev) (i : Nat) : (dropCommit d i).audio = d.audio := rfl
@[simp] theorem dropCommit_bells (d : Dev) (i : Nat) : (dropCommit d i).bells = d.bells := rfl
@[simp] theorem dropCommit_pm (d : Dev) (i : Nat) : (dropCommit d i).pm = d.pm := rfl
@[simp] theorem dropCommit_safe (d : Dev) (i : Nat) : (dropCommit d i).safe = d.safe := rfl
@[simp] theorem dropCommit_pair (d : Dev) (i : Nat) : (dropCommit d i).pair = d.pair := rfl
@[simp] theorem dropCommit_mdh (d : Dev) (i : Nat) : (dropCommit d i).mdh = d.mdh := rfl
@[simp] theorem dropCommit_gpio (d : Dev) (i : Nat) : (dropCommit d i).gpio = d.gpio := rfl
@[simp] theorem dropCommit_freeCtr (d : Dev) (i : Nat) : (dropCommit d i).freeCtr = d.freeCtr := rfl
@[simp] theorem dropCommit_out (d : Dev) (i : Nat) : (dropCommit d i).out = d.out := rfl
theorem dropCommit_commits (d : Dev) (i : Nat) :
    (dropCommit d i).commits = (d.commits.filter (fun c => c.id != i)) := rfl

/-! ### setCp -/

@[simp] theorem setCp_dt (d : Dev) (c : Nat) (e : CpEntry) : (setCp d c e).dt = d.dt := rfl
@[simp] theorem setCp_heritage (d : Dev) (c : Nat) (e : CpEntry) : (setCp d c e).heritage = d.heritage := rfl
@[simp] theorem setCp_seatB (d : Dev) (c : Nat) (e : CpEntry) : (setCp d c e).seatB = d.seatB := rfl
@[simp] theorem setCp_bootMode (d : Dev) (c : Nat) (e : CpEntry) : (setCp d c e).bootMode = d.bootMode := rfl
@[simp] theorem setCp_dramUnits (d : Dev) (c : Nat) (e : CpEntry) : (setCp d c e).dramUnits = d.dramUnits := rfl
@[simp] theorem setCp_regs (d : Dev) (c : Nat) (e : CpEntry) : (setCp d c e).regs = d.regs := rfl
@[simp] theorem setCp_stg (d : Dev) (c : Nat) (e : CpEntry) : (setCp d c e).stg = d.stg := rfl
@[simp] theorem setCp_stgSI (d : Dev) (c : Nat) (e : CpEntry) : (setCp d c e).stgSI = d.stgSI := rfl
@[simp] theorem setCp_dram (d : Dev) (c : Nat) (e : CpEntry) : (setCp d c e).dram = d.dram := rfl
@[simp] theorem setCp_dramFree (d : Dev) (c : Nat) (e : CpEntry) : (setCp d c e).dramFree = d.dramFree := rfl
@[simp] theorem setCp_fns (d : Dev) (c : Nat) (e : CpEntry) : (setCp d c e).fns = d.fns := rfl
@[simp] theorem setCp_dirty (d : Dev) (c : Nat) (e : CpEntry) : (setCp d c e).dirty = d.dirty := rfl
@[simp] theorem setCp_pt (d : Dev) (c : Nat) (e : CpEntry) : (setCp d c e).pt = d.pt := rfl
@[simp] theorem setCp_ptSel (d : Dev) (c : Nat) (e : CpEntry) : (setCp d c e).ptSel = d.ptSel := rfl
@[simp] theorem setCp_ptStage (d : Dev) (c : Nat) (e : CpEntry) : (setCp d c e).ptStage = d.ptStage := rfl
@[simp] theorem setCp_blobs (d : Dev) (c : Nat) (e : CpEntry) : (setCp d c e).blobs = d.blobs := rfl
@[simp] theorem setCp_vfEnable (d : Dev) (c : Nat) (e : CpEntry) : (setCp d c e).vfEnable = d.vfEnable := rfl
@[simp] theorem setCp_numVfs (d : Dev) (c : Nat) (e : CpEntry) : (setCp d c e).numVfs = d.numVfs := rfl
@[simp] theorem setCp_plat (d : Dev) (c : Nat) (e : CpEntry) : (setCp d c e).plat = d.plat := rfl
@[simp] theorem setCp_commits (d : Dev) (c : Nat) (e : CpEntry) : (setCp d c e).commits = d.commits := rfl
@[simp] theorem setCp_nextCommit (d : Dev) (c : Nat) (e : CpEntry) : (setCp d c e).nextCommit = d.nextCommit := rfl
@[simp] theorem setCp_accept (d : Dev) (c : Nat) (e : CpEntry) : (setCp d c e).accept = d.accept := rfl
@[simp] theorem setCp_err (d : Dev) (c : Nat) (e : CpEntry) : (setCp d c e).err = d.err := rfl
@[simp] theorem setCp_ctr (d : Dev) (c : Nat) (e : CpEntry) : (setCp d c e).ctr = d.ctr := rfl
@[simp] theorem setCp_buf (d : Dev) (c : Nat) (e : CpEntry) : (setCp d c e).buf = d.buf := rfl
@[simp] theorem setCp_gpu (d : Dev) (c : Nat) (e : CpEntry) : (setCp d c e).gpu = d.gpu := rfl
@[simp] theorem setCp_comp (d : Dev) (c : Nat) (e : CpEntry) : (setCp d c e).comp = d.comp := rfl
@[simp] theorem setCp_scan (d : Dev) (c : Nat) (e : CpEntry) : (setCp d c e).scan = d.scan := rfl
@[simp] theorem setCp_hap (d : Dev) (c : Nat) (e : CpEntry) : (setCp d c e).hap = d.hap := rfl
@[simp] theorem setCp_touch (d : Dev) (c : Nat) (e : CpEntry) : (setCp d c e).touch = d.touch := rfl
@[simp] theorem setCp_audio (d : Dev) (c : Nat) (e : CpEntry) : (setCp d c e).audio = d.audio := rfl
@[simp] theorem setCp_bells (d : Dev) (c : Nat) (e : CpEntry) : (setCp d c e).bells = d.bells := rfl
@[simp] theorem setCp_pm (d : Dev) (c : Nat) (e : CpEntry) : (setCp d c e).pm = d.pm := rfl
@[simp] theorem setCp_safe (d : Dev) (c : Nat) (e : CpEntry) : (setCp d c e).safe = d.safe := rfl
@[simp] theorem setCp_pair (d : Dev) (c : Nat) (e : CpEntry) : (setCp d c e).pair = d.pair := rfl
@[simp] theorem setCp_mdh (d : Dev) (c : Nat) (e : CpEntry) : (setCp d c e).mdh = d.mdh := rfl
@[simp] theorem setCp_gpio (d : Dev) (c : Nat) (e : CpEntry) : (setCp d c e).gpio = d.gpio := rfl
@[simp] theorem setCp_freeCtr (d : Dev) (c : Nat) (e : CpEntry) : (setCp d c e).freeCtr = d.freeCtr := rfl
@[simp] theorem setCp_out (d : Dev) (c : Nat) (e : CpEntry) : (setCp d c e).out = d.out := rfl
theorem setCp_tt (d : Dev) (c : Nat) (e : CpEntry) :
    (setCp d c e).tt = ({ d.tt with cps := SMap.set d.tt.cps c e }) := rfl

/-! ### onCpRun -/

@[simp] theorem onCpRun_dt (d : Dev) (c : Nat) (g : CpRun → CpRun) : (onCpRun d c g).dt = d.dt := rfl
@[simp] theorem onCpRun_heritage (d : Dev) (c : Nat) (g : CpRun → CpRun) : (onCpRun d c g).heritage = d.heritage := rfl
@[simp] theorem onCpRun_seatB (d : Dev) (c : Nat) (g : CpRun → CpRun) : (onCpRun d c g).seatB = d.seatB := rfl
@[simp] theorem onCpRun_bootMode (d : Dev) (c : Nat) (g : CpRun → CpRun) : (onCpRun d c g).bootMode = d.bootMode := rfl
@[simp] theorem onCpRun_dramUnits (d : Dev) (c : Nat) (g : CpRun → CpRun) : (onCpRun d c g).dramUnits = d.dramUnits := rfl
@[simp] theorem onCpRun_regs (d : Dev) (c : Nat) (g : CpRun → CpRun) : (onCpRun d c g).regs = d.regs := rfl
@[simp] theorem onCpRun_stg (d : Dev) (c : Nat) (g : CpRun → CpRun) : (onCpRun d c g).stg = d.stg := rfl
@[simp] theorem onCpRun_stgSI (d : Dev) (c : Nat) (g : CpRun → CpRun) : (onCpRun d c g).stgSI = d.stgSI := rfl
@[simp] theorem onCpRun_dram (d : Dev) (c : Nat) (g : CpRun → CpRun) : (onCpRun d c g).dram = d.dram := rfl
@[simp] theorem onCpRun_dramFree (d : Dev) (c : Nat) (g : CpRun → CpRun) : (onCpRun d c g).dramFree = d.dramFree := rfl
@[simp] theorem onCpRun_fns (d : Dev) (c : Nat) (g : CpRun → CpRun) : (onCpRun d c g).fns = d.fns := rfl
@[simp] theorem onCpRun_dirty (d : Dev) (c : Nat) (g : CpRun → CpRun) : (onCpRun d c g).dirty = d.dirty := rfl
@[simp] theorem onCpRun_pt (d : Dev) (c : Nat) (g : CpRun → CpRun) : (onCpRun d c g).pt = d.pt := rfl
@[simp] theorem onCpRun_ptSel (d : Dev) (c : Nat) (g : CpRun → CpRun) : (onCpRun d c g).ptSel = d.ptSel := rfl
@[simp] theorem onCpRun_ptStage (d : Dev) (c : Nat) (g : CpRun → CpRun) : (onCpRun d c g).ptStage = d.ptStage := rfl
@[simp] theorem onCpRun_blobs (d : Dev) (c : Nat) (g : CpRun → CpRun) : (onCpRun d c g).blobs = d.blobs := rfl
@[simp] theorem onCpRun_vfEnable (d : Dev) (c : Nat) (g : CpRun → CpRun) : (onCpRun d c g).vfEnable = d.vfEnable := rfl
@[simp] theorem onCpRun_numVfs (d : Dev) (c : Nat) (g : CpRun → CpRun) : (onCpRun d c g).numVfs = d.numVfs := rfl
@[simp] theorem onCpRun_plat (d : Dev) (c : Nat) (g : CpRun → CpRun) : (onCpRun d c g).plat = d.plat := rfl
@[simp] theorem onCpRun_commits (d : Dev) (c : Nat) (g : CpRun → CpRun) : (onCpRun d c g).commits = d.commits := rfl
@[simp] theorem onCpRun_nextCommit (d : Dev) (c : Nat) (g : CpRun → CpRun) : (onCpRun d c g).nextCommit = d.nextCommit := rfl
@[simp] theorem onCpRun_accept (d : Dev) (c : Nat) (g : CpRun → CpRun) : (onCpRun d c g).accept = d.accept := rfl
@[simp] theorem onCpRun_err (d : Dev) (c : Nat) (g : CpRun → CpRun) : (onCpRun d c g).err = d.err := rfl
@[simp] theorem onCpRun_ctr (d : Dev) (c : Nat) (g : CpRun → CpRun) : (onCpRun d c g).ctr = d.ctr := rfl
@[simp] theorem onCpRun_buf (d : Dev) (c : Nat) (g : CpRun → CpRun) : (onCpRun d c g).buf = d.buf := rfl
@[simp] theorem onCpRun_gpu (d : Dev) (c : Nat) (g : CpRun → CpRun) : (onCpRun d c g).gpu = d.gpu := rfl
@[simp] theorem onCpRun_comp (d : Dev) (c : Nat) (g : CpRun → CpRun) : (onCpRun d c g).comp = d.comp := rfl
@[simp] theorem onCpRun_scan (d : Dev) (c : Nat) (g : CpRun → CpRun) : (onCpRun d c g).scan = d.scan := rfl
@[simp] theorem onCpRun_hap (d : Dev) (c : Nat) (g : CpRun → CpRun) : (onCpRun d c g).hap = d.hap := rfl
@[simp] theorem onCpRun_touch (d : Dev) (c : Nat) (g : CpRun → CpRun) : (onCpRun d c g).touch = d.touch := rfl
@[simp] theorem onCpRun_audio (d : Dev) (c : Nat) (g : CpRun → CpRun) : (onCpRun d c g).audio = d.audio := rfl
@[simp] theorem onCpRun_bells (d : Dev) (c : Nat) (g : CpRun → CpRun) : (onCpRun d c g).bells = d.bells := rfl
@[simp] theorem onCpRun_pm (d : Dev) (c : Nat) (g : CpRun → CpRun) : (onCpRun d c g).pm = d.pm := rfl
@[simp] theorem onCpRun_safe (d : Dev) (c : Nat) (g : CpRun → CpRun) : (onCpRun d c g).safe = d.safe := rfl
@[simp] theorem onCpRun_pair (d : Dev) (c : Nat) (g : CpRun → CpRun) : (onCpRun d c g).pair = d.pair := rfl
@[simp] theorem onCpRun_mdh (d : Dev) (c : Nat) (g : CpRun → CpRun) : (onCpRun d c g).mdh = d.mdh := rfl
@[simp] theorem onCpRun_gpio (d : Dev) (c : Nat) (g : CpRun → CpRun) : (onCpRun d c g).gpio = d.gpio := rfl
@[simp] theorem onCpRun_freeCtr (d : Dev) (c : Nat) (g : CpRun → CpRun) : (onCpRun d c g).freeCtr = d.freeCtr := rfl
@[simp] theorem onCpRun_out (d : Dev) (c : Nat) (g : CpRun → CpRun) : (onCpRun d c g).out = d.out := rfl
theorem onCpRun_tt (d : Dev) (c : Nat) (g : CpRun → CpRun) :
    (onCpRun d c g).tt = ({ d.tt with run := SMap.mod d.tt.run c g }) := rfl

/-! ### onFl -/

@[simp] theorem onFl_dt (d : Dev) (p : Nat) (g : FlRun → FlRun) : (onFl d p g).dt = d.dt := rfl
@[simp] theorem onFl_heritage (d : Dev) (p : Nat) (g : FlRun → FlRun) : (onFl d p g).heritage = d.heritage := rfl
@[simp] theorem onFl_seatB (d : Dev) (p : Nat) (g : FlRun → FlRun) : (onFl d p g).seatB = d.seatB := rfl
@[simp] theorem onFl_bootMode (d : Dev) (p : Nat) (g : FlRun → FlRun) : (onFl d p g).bootMode = d.bootMode := rfl
@[simp] theorem onFl_dramUnits (d : Dev) (p : Nat) (g : FlRun → FlRun) : (onFl d p g).dramUnits = d.dramUnits := rfl
@[simp] theorem onFl_regs (d : Dev) (p : Nat) (g : FlRun → FlRun) : (onFl d p g).regs = d.regs := rfl
@[simp] theorem onFl_stg (d : Dev) (p : Nat) (g : FlRun → FlRun) : (onFl d p g).stg = d.stg := rfl
@[simp] theorem onFl_stgSI (d : Dev) (p : Nat) (g : FlRun → FlRun) : (onFl d p g).stgSI = d.stgSI := rfl
@[simp] theorem onFl_dram (d : Dev) (p : Nat) (g : FlRun → FlRun) : (onFl d p g).dram = d.dram := rfl
@[simp] theorem onFl_dramFree (d : Dev) (p : Nat) (g : FlRun → FlRun) : (onFl d p g).dramFree = d.dramFree := rfl
@[simp] theorem onFl_fns (d : Dev) (p : Nat) (g : FlRun → FlRun) : (onFl d p g).fns = d.fns := rfl
@[simp] theorem onFl_dirty (d : Dev) (p : Nat) (g : FlRun → FlRun) : (onFl d p g).dirty = d.dirty := rfl
@[simp] theorem onFl_pt (d : Dev) (p : Nat) (g : FlRun → FlRun) : (onFl d p g).pt = d.pt := rfl
@[simp] theorem onFl_ptSel (d : Dev) (p : Nat) (g : FlRun → FlRun) : (onFl d p g).ptSel = d.ptSel := rfl
@[simp] theorem onFl_ptStage (d : Dev) (p : Nat) (g : FlRun → FlRun) : (onFl d p g).ptStage = d.ptStage := rfl
@[simp] theorem onFl_blobs (d : Dev) (p : Nat) (g : FlRun → FlRun) : (onFl d p g).blobs = d.blobs := rfl
@[simp] theorem onFl_vfEnable (d : Dev) (p : Nat) (g : FlRun → FlRun) : (onFl d p g).vfEnable = d.vfEnable := rfl
@[simp] theorem onFl_numVfs (d : Dev) (p : Nat) (g : FlRun → FlRun) : (onFl d p g).numVfs = d.numVfs := rfl
@[simp] theorem onFl_plat (d : Dev) (p : Nat) (g : FlRun → FlRun) : (onFl d p g).plat = d.plat := rfl
@[simp] theorem onFl_commits (d : Dev) (p : Nat) (g : FlRun → FlRun) : (onFl d p g).commits = d.commits := rfl
@[simp] theorem onFl_nextCommit (d : Dev) (p : Nat) (g : FlRun → FlRun) : (onFl d p g).nextCommit = d.nextCommit := rfl
@[simp] theorem onFl_accept (d : Dev) (p : Nat) (g : FlRun → FlRun) : (onFl d p g).accept = d.accept := rfl
@[simp] theorem onFl_err (d : Dev) (p : Nat) (g : FlRun → FlRun) : (onFl d p g).err = d.err := rfl
@[simp] theorem onFl_ctr (d : Dev) (p : Nat) (g : FlRun → FlRun) : (onFl d p g).ctr = d.ctr := rfl
@[simp] theorem onFl_buf (d : Dev) (p : Nat) (g : FlRun → FlRun) : (onFl d p g).buf = d.buf := rfl
@[simp] theorem onFl_gpu (d : Dev) (p : Nat) (g : FlRun → FlRun) : (onFl d p g).gpu = d.gpu := rfl
@[simp] theorem onFl_comp (d : Dev) (p : Nat) (g : FlRun → FlRun) : (onFl d p g).comp = d.comp := rfl
@[simp] theorem onFl_scan (d : Dev) (p : Nat) (g : FlRun → FlRun) : (onFl d p g).scan = d.scan := rfl
@[simp] theorem onFl_hap (d : Dev) (p : Nat) (g : FlRun → FlRun) : (onFl d p g).hap = d.hap := rfl
@[simp] theorem onFl_touch (d : Dev) (p : Nat) (g : FlRun → FlRun) : (onFl d p g).touch = d.touch := rfl
@[simp] theorem onFl_audio (d : Dev) (p : Nat) (g : FlRun → FlRun) : (onFl d p g).audio = d.audio := rfl
@[simp] theorem onFl_bells (d : Dev) (p : Nat) (g : FlRun → FlRun) : (onFl d p g).bells = d.bells := rfl
@[simp] theorem onFl_pm (d : Dev) (p : Nat) (g : FlRun → FlRun) : (onFl d p g).pm = d.pm := rfl
@[simp] theorem onFl_safe (d : Dev) (p : Nat) (g : FlRun → FlRun) : (onFl d p g).safe = d.safe := rfl
@[simp] theorem onFl_pair (d : Dev) (p : Nat) (g : FlRun → FlRun) : (onFl d p g).pair = d.pair := rfl
@[simp] theorem onFl_mdh (d : Dev) (p : Nat) (g : FlRun → FlRun) : (onFl d p g).mdh = d.mdh := rfl
@[simp] theorem onFl_gpio (d : Dev) (p : Nat) (g : FlRun → FlRun) : (onFl d p g).gpio = d.gpio := rfl
@[simp] theorem onFl_freeCtr (d : Dev) (p : Nat) (g : FlRun → FlRun) : (onFl d p g).freeCtr = d.freeCtr := rfl
@[simp] theorem onFl_out (d : Dev) (p : Nat) (g : FlRun → FlRun) : (onFl d p g).out = d.out := rfl
theorem onFl_tt (d : Dev) (p : Nat) (g : FlRun → FlRun) :
    (onFl d p g).tt = ({ d.tt with fl := SMap.mod d.tt.fl p g }) := rfl

/-! ### onCtx -/

@[simp] theorem onCtx_dt (d : Dev) (c : Nat) (g : GpuCtx → GpuCtx) : (onCtx d c g).dt = d.dt := rfl
@[simp] theorem onCtx_heritage (d : Dev) (c : Nat) (g : GpuCtx → GpuCtx) : (onCtx d c g).heritage = d.heritage := rfl
@[simp] theorem onCtx_seatB (d : Dev) (c : Nat) (g : GpuCtx → GpuCtx) : (onCtx d c g).seatB = d.seatB := rfl
@[simp] theorem onCtx_bootMode (d : Dev) (c : Nat) (g : GpuCtx → GpuCtx) : (onCtx d c g).bootMode = d.bootMode := rfl
@[simp] theorem onCtx_dramUnits (d : Dev) (c : Nat) (g : GpuCtx → GpuCtx) : (onCtx d c g).dramUnits = d.dramUnits := rfl
@[simp] theorem onCtx_regs (d : Dev) (c : Nat) (g : GpuCtx → GpuCtx) : (onCtx d c g).regs = d.regs := rfl
@[simp] theorem onCtx_stg (d : Dev) (c : Nat) (g : GpuCtx → GpuCtx) : (onCtx d c g).stg = d.stg := rfl
@[simp] theorem onCtx_stgSI (d : Dev) (c : Nat) (g : GpuCtx → GpuCtx) : (onCtx d c g).stgSI = d.stgSI := rfl
@[simp] theorem onCtx_dram (d : Dev) (c : Nat) (g : GpuCtx → GpuCtx) : (onCtx d c g).dram = d.dram := rfl
@[simp] theorem onCtx_dramFree (d : Dev) (c : Nat) (g : GpuCtx → GpuCtx) : (onCtx d c g).dramFree = d.dramFree := rfl
@[simp] theorem onCtx_tt (d : Dev) (c : Nat) (g : GpuCtx → GpuCtx) : (onCtx d c g).tt = d.tt := rfl
@[simp] theorem onCtx_fns (d : Dev) (c : Nat) (g : GpuCtx → GpuCtx) : (onCtx d c g).fns = d.fns := rfl
@[simp] theorem onCtx_dirty (d : Dev) (c : Nat) (g : GpuCtx → GpuCtx) : (onCtx d c g).dirty = d.dirty := rfl
@[simp] theorem onCtx_pt (d : Dev) (c : Nat) (g : GpuCtx → GpuCtx) : (onCtx d c g).pt = d.pt := rfl
@[simp] theorem onCtx_ptSel (d : Dev) (c : Nat) (g : GpuCtx → GpuCtx) : (onCtx d c g).ptSel = d.ptSel := rfl
@[simp] theorem onCtx_ptStage (d : Dev) (c : Nat) (g : GpuCtx → GpuCtx) : (onCtx d c g).ptStage = d.ptStage := rfl
@[simp] theorem onCtx_blobs (d : Dev) (c : Nat) (g : GpuCtx → GpuCtx) : (onCtx d c g).blobs = d.blobs := rfl
@[simp] theorem onCtx_vfEnable (d : Dev) (c : Nat) (g : GpuCtx → GpuCtx) : (onCtx d c g).vfEnable = d.vfEnable := rfl
@[simp] theorem onCtx_numVfs (d : Dev) (c : Nat) (g : GpuCtx → GpuCtx) : (onCtx d c g).numVfs = d.numVfs := rfl
@[simp] theorem onCtx_plat (d : Dev) (c : Nat) (g : GpuCtx → GpuCtx) : (onCtx d c g).plat = d.plat := rfl
@[simp] theorem onCtx_commits (d : Dev) (c : Nat) (g : GpuCtx → GpuCtx) : (onCtx d c g).commits = d.commits := rfl
@[simp] theorem onCtx_nextCommit (d : Dev) (c : Nat) (g : GpuCtx → GpuCtx) : (onCtx d c g).nextCommit = d.nextCommit := rfl
@[simp] theorem onCtx_accept (d : Dev) (c : Nat) (g : GpuCtx → GpuCtx) : (onCtx d c g).accept = d.accept := rfl
@[simp] theorem onCtx_err (d : Dev) (c : Nat) (g : GpuCtx → GpuCtx) : (onCtx d c g).err = d.err := rfl
@[simp] theorem onCtx_ctr (d : Dev) (c : Nat) (g : GpuCtx → GpuCtx) : (onCtx d c g).ctr = d.ctr := rfl
@[simp] theorem onCtx_buf (d : Dev) (c : Nat) (g : GpuCtx → GpuCtx) : (onCtx d c g).buf = d.buf := rfl
@[simp] theorem onCtx_comp (d : Dev) (c : Nat) (g : GpuCtx → GpuCtx) : (onCtx d c g).comp = d.comp := rfl
@[simp] theorem onCtx_scan (d : Dev) (c : Nat) (g : GpuCtx → GpuCtx) : (onCtx d c g).scan = d.scan := rfl
@[simp] theorem onCtx_hap (d : Dev) (c : Nat) (g : GpuCtx → GpuCtx) : (onCtx d c g).hap = d.hap := rfl
@[simp] theorem onCtx_touch (d : Dev) (c : Nat) (g : GpuCtx → GpuCtx) : (onCtx d c g).touch = d.touch := rfl
@[simp] theorem onCtx_audio (d : Dev) (c : Nat) (g : GpuCtx → GpuCtx) : (onCtx d c g).audio = d.audio := rfl
@[simp] theorem onCtx_bells (d : Dev) (c : Nat) (g : GpuCtx → GpuCtx) : (onCtx d c g).bells = d.bells := rfl
@[simp] theorem onCtx_pm (d : Dev) (c : Nat) (g : GpuCtx → GpuCtx) : (onCtx d c g).pm = d.pm := rfl
@[simp] theorem onCtx_safe (d : Dev) (c : Nat) (g : GpuCtx → GpuCtx) : (onCtx d c g).safe = d.safe := rfl
@[simp] theorem onCtx_pair (d : Dev) (c : Nat) (g : GpuCtx → GpuCtx) : (onCtx d c g).pair = d.pair := rfl
@[simp] theorem onCtx_mdh (d : Dev) (c : Nat) (g : GpuCtx → GpuCtx) : (onCtx d c g).mdh = d.mdh := rfl
@[simp] theorem onCtx_gpio (d : Dev) (c : Nat) (g : GpuCtx → GpuCtx) : (onCtx d c g).gpio = d.gpio := rfl
@[simp] theorem onCtx_freeCtr (d : Dev) (c : Nat) (g : GpuCtx → GpuCtx) : (onCtx d c g).freeCtr = d.freeCtr := rfl
@[simp] theorem onCtx_out (d : Dev) (c : Nat) (g : GpuCtx → GpuCtx) : (onCtx d c g).out = d.out := rfl
theorem onCtx_gpu (d : Dev) (c : Nat) (g : GpuCtx → GpuCtx) :
    (onCtx d c g).gpu = ({ d.gpu with ctxs := SMap.mod d.gpu.ctxs c g }) := rfl

/-! ### onSlot -/

@[simp] theorem onSlot_dt (d : Dev) (s : Nat) (g : SlotRun → SlotRun) : (onSlot d s g).dt = d.dt := rfl
@[simp] theorem onSlot_heritage (d : Dev) (s : Nat) (g : SlotRun → SlotRun) : (onSlot d s g).heritage = d.heritage := rfl
@[simp] theorem onSlot_seatB (d : Dev) (s : Nat) (g : SlotRun → SlotRun) : (onSlot d s g).seatB = d.seatB := rfl
@[simp] theorem onSlot_bootMode (d : Dev) (s : Nat) (g : SlotRun → SlotRun) : (onSlot d s g).bootMode = d.bootMode := rfl
@[simp] theorem onSlot_dramUnits (d : Dev) (s : Nat) (g : SlotRun → SlotRun) : (onSlot d s g).dramUnits = d.dramUnits := rfl
@[simp] theorem onSlot_regs (d : Dev) (s : Nat) (g : SlotRun → SlotRun) : (onSlot d s g).regs = d.regs := rfl
@[simp] theorem onSlot_stg (d : Dev) (s : Nat) (g : SlotRun → SlotRun) : (onSlot d s g).stg = d.stg := rfl
@[simp] theorem onSlot_stgSI (d : Dev) (s : Nat) (g : SlotRun → SlotRun) : (onSlot d s g).stgSI = d.stgSI := rfl
@[simp] theorem onSlot_dram (d : Dev) (s : Nat) (g : SlotRun → SlotRun) : (onSlot d s g).dram = d.dram := rfl
@[simp] theorem onSlot_dramFree (d : Dev) (s : Nat) (g : SlotRun → SlotRun) : (onSlot d s g).dramFree = d.dramFree := rfl
@[simp] theorem onSlot_tt (d : Dev) (s : Nat) (g : SlotRun → SlotRun) : (onSlot d s g).tt = d.tt := rfl
@[simp] theorem onSlot_fns (d : Dev) (s : Nat) (g : SlotRun → SlotRun) : (onSlot d s g).fns = d.fns := rfl
@[simp] theorem onSlot_dirty (d : Dev) (s : Nat) (g : SlotRun → SlotRun) : (onSlot d s g).dirty = d.dirty := rfl
@[simp] theorem onSlot_pt (d : Dev) (s : Nat) (g : SlotRun → SlotRun) : (onSlot d s g).pt = d.pt := rfl
@[simp] theorem onSlot_ptSel (d : Dev) (s : Nat) (g : SlotRun → SlotRun) : (onSlot d s g).ptSel = d.ptSel := rfl
@[simp] theorem onSlot_ptStage (d : Dev) (s : Nat) (g : SlotRun → SlotRun) : (onSlot d s g).ptStage = d.ptStage := rfl
@[simp] theorem onSlot_blobs (d : Dev) (s : Nat) (g : SlotRun → SlotRun) : (onSlot d s g).blobs = d.blobs := rfl
@[simp] theorem onSlot_vfEnable (d : Dev) (s : Nat) (g : SlotRun → SlotRun) : (onSlot d s g).vfEnable = d.vfEnable := rfl
@[simp] theorem onSlot_numVfs (d : Dev) (s : Nat) (g : SlotRun → SlotRun) : (onSlot d s g).numVfs = d.numVfs := rfl
@[simp] theorem onSlot_plat (d : Dev) (s : Nat) (g : SlotRun → SlotRun) : (onSlot d s g).plat = d.plat := rfl
@[simp] theorem onSlot_commits (d : Dev) (s : Nat) (g : SlotRun → SlotRun) : (onSlot d s g).commits = d.commits := rfl
@[simp] theorem onSlot_nextCommit (d : Dev) (s : Nat) (g : SlotRun → SlotRun) : (onSlot d s g).nextCommit = d.nextCommit := rfl
@[simp] theorem onSlot_accept (d : Dev) (s : Nat) (g : SlotRun → SlotRun) : (onSlot d s g).accept = d.accept := rfl
@[simp] theorem onSlot_err (d : Dev) (s : Nat) (g : SlotRun → SlotRun) : (onSlot d s g).err = d.err := rfl
@[simp] theorem onSlot_ctr (d : Dev) (s : Nat) (g : SlotRun → SlotRun) : (onSlot d s g).ctr = d.ctr := rfl
@[simp] theorem onSlot_buf (d : Dev) (s : Nat) (g : SlotRun → SlotRun) : (onSlot d s g).buf = d.buf := rfl
@[simp] theorem onSlot_comp (d : Dev) (s : Nat) (g : SlotRun → SlotRun) : (onSlot d s g).comp = d.comp := rfl
@[simp] theorem onSlot_scan (d : Dev) (s : Nat) (g : SlotRun → SlotRun) : (onSlot d s g).scan = d.scan := rfl
@[simp] theorem onSlot_hap (d : Dev) (s : Nat) (g : SlotRun → SlotRun) : (onSlot d s g).hap = d.hap := rfl
@[simp] theorem onSlot_touch (d : Dev) (s : Nat) (g : SlotRun → SlotRun) : (onSlot d s g).touch = d.touch := rfl
@[simp] theorem onSlot_audio (d : Dev) (s : Nat) (g : SlotRun → SlotRun) : (onSlot d s g).audio = d.audio := rfl
@[simp] theorem onSlot_bells (d : Dev) (s : Nat) (g : SlotRun → SlotRun) : (onSlot d s g).bells = d.bells := rfl
@[simp] theorem onSlot_pm (d : Dev) (s : Nat) (g : SlotRun → SlotRun) : (onSlot d s g).pm = d.pm := rfl
@[simp] theorem onSlot_safe (d : Dev) (s : Nat) (g : SlotRun → SlotRun) : (onSlot d s g).safe = d.safe := rfl
@[simp] theorem onSlot_pair (d : Dev) (s : Nat) (g : SlotRun → SlotRun) : (onSlot d s g).pair = d.pair := rfl
@[simp] theorem onSlot_mdh (d : Dev) (s : Nat) (g : SlotRun → SlotRun) : (onSlot d s g).mdh = d.mdh := rfl
@[simp] theorem onSlot_gpio (d : Dev) (s : Nat) (g : SlotRun → SlotRun) : (onSlot d s g).gpio = d.gpio := rfl
@[simp] theorem onSlot_freeCtr (d : Dev) (s : Nat) (g : SlotRun → SlotRun) : (onSlot d s g).freeCtr = d.freeCtr := rfl
@[simp] theorem onSlot_out (d : Dev) (s : Nat) (g : SlotRun → SlotRun) : (onSlot d s g).out = d.out := rfl
theorem onSlot_gpu (d : Dev) (s : Nat) (g : SlotRun → SlotRun) :
    (onSlot d s g).gpu = ({ d.gpu with slots := SMap.mod d.gpu.slots s g }) := rfl

/-! ### onScan -/

@[simp] theorem onScan_dt (d : Dev) (g : Scan → Scan) : (onScan d g).dt = d.dt := rfl
@[simp] theorem onScan_heritage (d : Dev) (g : Scan → Scan) : (onScan d g).heritage = d.heritage := rfl
@[simp] theorem onScan_seatB (d : Dev) (g : Scan → Scan) : (onScan d g).seatB = d.seatB := rfl
@[simp] theorem onScan_bootMode (d : Dev) (g : Scan → Scan) : (onScan d g).bootMode = d.bootMode := rfl
@[simp] theorem onScan_dramUnits (d : Dev) (g : Scan → Scan) : (onScan d g).dramUnits = d.dramUnits := rfl
@[simp] theorem onScan_regs (d : Dev) (g : Scan → Scan) : (onScan d g).regs = d.regs := rfl
@[simp] theorem onScan_stg (d : Dev) (g : Scan → Scan) : (onScan d g).stg = d.stg := rfl
@[simp] theorem onScan_stgSI (d : Dev) (g : Scan → Scan) : (onScan d g).stgSI = d.stgSI := rfl
@[simp] theorem onScan_dram (d : Dev) (g : Scan → Scan) : (onScan d g).dram = d.dram := rfl
@[simp] theorem onScan_dramFree (d : Dev) (g : Scan → Scan) : (onScan d g).dramFree = d.dramFree := rfl
@[simp] theorem onScan_tt (d : Dev) (g : Scan → Scan) : (onScan d g).tt = d.tt := rfl
@[simp] theorem onScan_fns (d : Dev) (g : Scan → Scan) : (onScan d g).fns = d.fns := rfl
@[simp] theorem onScan_dirty (d : Dev) (g : Scan → Scan) : (onScan d g).dirty = d.dirty := rfl
@[simp] theorem onScan_pt (d : Dev) (g : Scan → Scan) : (onScan d g).pt = d.pt := rfl
@[simp] theorem onScan_ptSel (d : Dev) (g : Scan → Scan) : (onScan d g).ptSel = d.ptSel := rfl
@[simp] theorem onScan_ptStage (d : Dev) (g : Scan → Scan) : (onScan d g).ptStage = d.ptStage := rfl
@[simp] theorem onScan_blobs (d : Dev) (g : Scan → Scan) : (onScan d g).blobs = d.blobs := rfl
@[simp] theorem onScan_vfEnable (d : Dev) (g : Scan → Scan) : (onScan d g).vfEnable = d.vfEnable := rfl
@[simp] theorem onScan_numVfs (d : Dev) (g : Scan → Scan) : (onScan d g).numVfs = d.numVfs := rfl
@[simp] theorem onScan_plat (d : Dev) (g : Scan → Scan) : (onScan d g).plat = d.plat := rfl
@[simp] theorem onScan_commits (d : Dev) (g : Scan → Scan) : (onScan d g).commits = d.commits := rfl
@[simp] theorem onScan_nextCommit (d : Dev) (g : Scan → Scan) : (onScan d g).nextCommit = d.nextCommit := rfl
@[simp] theorem onScan_accept (d : Dev) (g : Scan → Scan) : (onScan d g).accept = d.accept := rfl
@[simp] theorem onScan_err (d : Dev) (g : Scan → Scan) : (onScan d g).err = d.err := rfl
@[simp] theorem onScan_ctr (d : Dev) (g : Scan → Scan) : (onScan d g).ctr = d.ctr := rfl
@[simp] theorem onScan_buf (d : Dev) (g : Scan → Scan) : (onScan d g).buf = d.buf := rfl
@[simp] theorem onScan_gpu (d : Dev) (g : Scan → Scan) : (onScan d g).gpu = d.gpu := rfl
@[simp] theorem onScan_comp (d : Dev) (g : Scan → Scan) : (onScan d g).comp = d.comp := rfl
@[simp] theorem onScan_hap (d : Dev) (g : Scan → Scan) : (onScan d g).hap = d.hap := rfl
@[simp] theorem onScan_touch (d : Dev) (g : Scan → Scan) : (onScan d g).touch = d.touch := rfl
@[simp] theorem onScan_audio (d : Dev) (g : Scan → Scan) : (onScan d g).audio = d.audio := rfl
@[simp] theorem onScan_bells (d : Dev) (g : Scan → Scan) : (onScan d g).bells = d.bells := rfl
@[simp] theorem onScan_pm (d : Dev) (g : Scan → Scan) : (onScan d g).pm = d.pm := rfl
@[simp] theorem onScan_safe (d : Dev) (g : Scan → Scan) : (onScan d g).safe = d.safe := rfl
@[simp] theorem onScan_pair (d : Dev) (g : Scan → Scan) : (onScan d g).pair = d.pair := rfl
@[simp] theorem onScan_mdh (d : Dev) (g : Scan → Scan) : (onScan d g).mdh = d.mdh := rfl
@[simp] theorem onScan_gpio (d : Dev) (g : Scan → Scan) : (onScan d g).gpio = d.gpio := rfl
@[simp] theorem onScan_freeCtr (d : Dev) (g : Scan → Scan) : (onScan d g).freeCtr = d.freeCtr := rfl
@[simp] theorem onScan_out (d : Dev) (g : Scan → Scan) : (onScan d g).out = d.out := rfl
theorem onScan_scan (d : Dev) (g : Scan → Scan) :
    (onScan d g).scan = (g d.scan) := rfl

/-! ### onHap -/

@[simp] theorem onHap_dt (d : Dev) (h : Nat) (g : HapRun → HapRun) : (onHap d h g).dt = d.dt := rfl
@[simp] theorem onHap_heritage (d : Dev) (h : Nat) (g : HapRun → HapRun) : (onHap d h g).heritage = d.heritage := rfl
@[simp] theorem onHap_seatB (d : Dev) (h : Nat) (g : HapRun → HapRun) : (onHap d h g).seatB = d.seatB := rfl
@[simp] theorem onHap_bootMode (d : Dev) (h : Nat) (g : HapRun → HapRun) : (onHap d h g).bootMode = d.bootMode := rfl
@[simp] theorem onHap_dramUnits (d : Dev) (h : Nat) (g : HapRun → HapRun) : (onHap d h g).dramUnits = d.dramUnits := rfl
@[simp] theorem onHap_regs (d : Dev) (h : Nat) (g : HapRun → HapRun) : (onHap d h g).regs = d.regs := rfl
@[simp] theorem onHap_stg (d : Dev) (h : Nat) (g : HapRun → HapRun) : (onHap d h g).stg = d.stg := rfl
@[simp] theorem onHap_stgSI (d : Dev) (h : Nat) (g : HapRun → HapRun) : (onHap d h g).stgSI = d.stgSI := rfl
@[simp] theorem onHap_dram (d : Dev) (h : Nat) (g : HapRun → HapRun) : (onHap d h g).dram = d.dram := rfl
@[simp] theorem onHap_dramFree (d : Dev) (h : Nat) (g : HapRun → HapRun) : (onHap d h g).dramFree = d.dramFree := rfl
@[simp] theorem onHap_tt (d : Dev) (h : Nat) (g : HapRun → HapRun) : (onHap d h g).tt = d.tt := rfl
@[simp] theorem onHap_fns (d : Dev) (h : Nat) (g : HapRun → HapRun) : (onHap d h g).fns = d.fns := rfl
@[simp] theorem onHap_dirty (d : Dev) (h : Nat) (g : HapRun → HapRun) : (onHap d h g).dirty = d.dirty := rfl
@[simp] theorem onHap_pt (d : Dev) (h : Nat) (g : HapRun → HapRun) : (onHap d h g).pt = d.pt := rfl
@[simp] theorem onHap_ptSel (d : Dev) (h : Nat) (g : HapRun → HapRun) : (onHap d h g).ptSel = d.ptSel := rfl
@[simp] theorem onHap_ptStage (d : Dev) (h : Nat) (g : HapRun → HapRun) : (onHap d h g).ptStage = d.ptStage := rfl
@[simp] theorem onHap_blobs (d : Dev) (h : Nat) (g : HapRun → HapRun) : (onHap d h g).blobs = d.blobs := rfl
@[simp] theorem onHap_vfEnable (d : Dev) (h : Nat) (g : HapRun → HapRun) : (onHap d h g).vfEnable = d.vfEnable := rfl
@[simp] theorem onHap_numVfs (d : Dev) (h : Nat) (g : HapRun → HapRun) : (onHap d h g).numVfs = d.numVfs := rfl
@[simp] theorem onHap_plat (d : Dev) (h : Nat) (g : HapRun → HapRun) : (onHap d h g).plat = d.plat := rfl
@[simp] theorem onHap_commits (d : Dev) (h : Nat) (g : HapRun → HapRun) : (onHap d h g).commits = d.commits := rfl
@[simp] theorem onHap_nextCommit (d : Dev) (h : Nat) (g : HapRun → HapRun) : (onHap d h g).nextCommit = d.nextCommit := rfl
@[simp] theorem onHap_accept (d : Dev) (h : Nat) (g : HapRun → HapRun) : (onHap d h g).accept = d.accept := rfl
@[simp] theorem onHap_err (d : Dev) (h : Nat) (g : HapRun → HapRun) : (onHap d h g).err = d.err := rfl
@[simp] theorem onHap_ctr (d : Dev) (h : Nat) (g : HapRun → HapRun) : (onHap d h g).ctr = d.ctr := rfl
@[simp] theorem onHap_buf (d : Dev) (h : Nat) (g : HapRun → HapRun) : (onHap d h g).buf = d.buf := rfl
@[simp] theorem onHap_gpu (d : Dev) (h : Nat) (g : HapRun → HapRun) : (onHap d h g).gpu = d.gpu := rfl
@[simp] theorem onHap_comp (d : Dev) (h : Nat) (g : HapRun → HapRun) : (onHap d h g).comp = d.comp := rfl
@[simp] theorem onHap_scan (d : Dev) (h : Nat) (g : HapRun → HapRun) : (onHap d h g).scan = d.scan := rfl
@[simp] theorem onHap_touch (d : Dev) (h : Nat) (g : HapRun → HapRun) : (onHap d h g).touch = d.touch := rfl
@[simp] theorem onHap_audio (d : Dev) (h : Nat) (g : HapRun → HapRun) : (onHap d h g).audio = d.audio := rfl
@[simp] theorem onHap_bells (d : Dev) (h : Nat) (g : HapRun → HapRun) : (onHap d h g).bells = d.bells := rfl
@[simp] theorem onHap_pm (d : Dev) (h : Nat) (g : HapRun → HapRun) : (onHap d h g).pm = d.pm := rfl
@[simp] theorem onHap_safe (d : Dev) (h : Nat) (g : HapRun → HapRun) : (onHap d h g).safe = d.safe := rfl
@[simp] theorem onHap_pair (d : Dev) (h : Nat) (g : HapRun → HapRun) : (onHap d h g).pair = d.pair := rfl
@[simp] theorem onHap_mdh (d : Dev) (h : Nat) (g : HapRun → HapRun) : (onHap d h g).mdh = d.mdh := rfl
@[simp] theorem onHap_gpio (d : Dev) (h : Nat) (g : HapRun → HapRun) : (onHap d h g).gpio = d.gpio := rfl
@[simp] theorem onHap_freeCtr (d : Dev) (h : Nat) (g : HapRun → HapRun) : (onHap d h g).freeCtr = d.freeCtr := rfl
@[simp] theorem onHap_out (d : Dev) (h : Nat) (g : HapRun → HapRun) : (onHap d h g).out = d.out := rfl
theorem onHap_hap (d : Dev) (h : Nat) (g : HapRun → HapRun) :
    (onHap d h g).hap = ({ d.hap with ch := SMap.mod d.hap.ch h g }) := rfl

/-! ### onPanel -/

@[simp] theorem onPanel_dt (d : Dev) (t : Nat) (g : PanelRun → PanelRun) : (onPanel d t g).dt = d.dt := rfl
@[simp] theorem onPanel_heritage (d : Dev) (t : Nat) (g : PanelRun → PanelRun) : (onPanel d t g).heritage = d.heritage := rfl
@[simp] theorem onPanel_seatB (d : Dev) (t : Nat) (g : PanelRun → PanelRun) : (onPanel d t g).seatB = d.seatB := rfl
@[simp] theorem onPanel_bootMode (d : Dev) (t : Nat) (g : PanelRun → PanelRun) : (onPanel d t g).bootMode = d.bootMode := rfl
@[simp] theorem onPanel_dramUnits (d : Dev) (t : Nat) (g : PanelRun → PanelRun) : (onPanel d t g).dramUnits = d.dramUnits := rfl
@[simp] theorem onPanel_regs (d : Dev) (t : Nat) (g : PanelRun → PanelRun) : (onPanel d t g).regs = d.regs := rfl
@[simp] theorem onPanel_stg (d : Dev) (t : Nat) (g : PanelRun → PanelRun) : (onPanel d t g).stg = d.stg := rfl
@[simp] theorem onPanel_stgSI (d : Dev) (t : Nat) (g : PanelRun → PanelRun) : (onPanel d t g).stgSI = d.stgSI := rfl
@[simp] theorem onPanel_dram (d : Dev) (t : Nat) (g : PanelRun → PanelRun) : (onPanel d t g).dram = d.dram := rfl
@[simp] theorem onPanel_dramFree (d : Dev) (t : Nat) (g : PanelRun → PanelRun) : (onPanel d t g).dramFree = d.dramFree := rfl
@[simp] theorem onPanel_tt (d : Dev) (t : Nat) (g : PanelRun → PanelRun) : (onPanel d t g).tt = d.tt := rfl
@[simp] theorem onPanel_fns (d : Dev) (t : Nat) (g : PanelRun → PanelRun) : (onPanel d t g).fns = d.fns := rfl
@[simp] theorem onPanel_dirty (d : Dev) (t : Nat) (g : PanelRun → PanelRun) : (onPanel d t g).dirty = d.dirty := rfl
@[simp] theorem onPanel_pt (d : Dev) (t : Nat) (g : PanelRun → PanelRun) : (onPanel d t g).pt = d.pt := rfl
@[simp] theorem onPanel_ptSel (d : Dev) (t : Nat) (g : PanelRun → PanelRun) : (onPanel d t g).ptSel = d.ptSel := rfl
@[simp] theorem onPanel_ptStage (d : Dev) (t : Nat) (g : PanelRun → PanelRun) : (onPanel d t g).ptStage = d.ptStage := rfl
@[simp] theorem onPanel_blobs (d : Dev) (t : Nat) (g : PanelRun → PanelRun) : (onPanel d t g).blobs = d.blobs := rfl
@[simp] theorem onPanel_vfEnable (d : Dev) (t : Nat) (g : PanelRun → PanelRun) : (onPanel d t g).vfEnable = d.vfEnable := rfl
@[simp] theorem onPanel_numVfs (d : Dev) (t : Nat) (g : PanelRun → PanelRun) : (onPanel d t g).numVfs = d.numVfs := rfl
@[simp] theorem onPanel_plat (d : Dev) (t : Nat) (g : PanelRun → PanelRun) : (onPanel d t g).plat = d.plat := rfl
@[simp] theorem onPanel_commits (d : Dev) (t : Nat) (g : PanelRun → PanelRun) : (onPanel d t g).commits = d.commits := rfl
@[simp] theorem onPanel_nextCommit (d : Dev) (t : Nat) (g : PanelRun → PanelRun) : (onPanel d t g).nextCommit = d.nextCommit := rfl
@[simp] theorem onPanel_accept (d : Dev) (t : Nat) (g : PanelRun → PanelRun) : (onPanel d t g).accept = d.accept := rfl
@[simp] theorem onPanel_err (d : Dev) (t : Nat) (g : PanelRun → PanelRun) : (onPanel d t g).err = d.err := rfl
@[simp] theorem onPanel_ctr (d : Dev) (t : Nat) (g : PanelRun → PanelRun) : (onPanel d t g).ctr = d.ctr := rfl
@[simp] theorem onPanel_buf (d : Dev) (t : Nat) (g : PanelRun → PanelRun) : (onPanel d t g).buf = d.buf := rfl
@[simp] theorem onPanel_gpu (d : Dev) (t : Nat) (g : PanelRun → PanelRun) : (onPanel d t g).gpu = d.gpu := rfl
@[simp] theorem onPanel_comp (d : Dev) (t : Nat) (g : PanelRun → PanelRun) : (onPanel d t g).comp = d.comp := rfl
@[simp] theorem onPanel_scan (d : Dev) (t : Nat) (g : PanelRun → PanelRun) : (onPanel d t g).scan = d.scan := rfl
@[simp] theorem onPanel_hap (d : Dev) (t : Nat) (g : PanelRun → PanelRun) : (onPanel d t g).hap = d.hap := rfl
@[simp] theorem onPanel_audio (d : Dev) (t : Nat) (g : PanelRun → PanelRun) : (onPanel d t g).audio = d.audio := rfl
@[simp] theorem onPanel_bells (d : Dev) (t : Nat) (g : PanelRun → PanelRun) : (onPanel d t g).bells = d.bells := rfl
@[simp] theorem onPanel_pm (d : Dev) (t : Nat) (g : PanelRun → PanelRun) : (onPanel d t g).pm = d.pm := rfl
@[simp] theorem onPanel_safe (d : Dev) (t : Nat) (g : PanelRun → PanelRun) : (onPanel d t g).safe = d.safe := rfl
@[simp] theorem onPanel_pair (d : Dev) (t : Nat) (g : PanelRun → PanelRun) : (onPanel d t g).pair = d.pair := rfl
@[simp] theorem onPanel_mdh (d : Dev) (t : Nat) (g : PanelRun → PanelRun) : (onPanel d t g).mdh = d.mdh := rfl
@[simp] theorem onPanel_gpio (d : Dev) (t : Nat) (g : PanelRun → PanelRun) : (onPanel d t g).gpio = d.gpio := rfl
@[simp] theorem onPanel_freeCtr (d : Dev) (t : Nat) (g : PanelRun → PanelRun) : (onPanel d t g).freeCtr = d.freeCtr := rfl
@[simp] theorem onPanel_out (d : Dev) (t : Nat) (g : PanelRun → PanelRun) : (onPanel d t g).out = d.out := rfl
theorem onPanel_touch (d : Dev) (t : Nat) (g : PanelRun → PanelRun) :
    (onPanel d t g).touch = ({ d.touch with panels := SMap.mod d.touch.panels t g }) := rfl

/-! ### onKey -/

@[simp] theorem onKey_dt (d : Dev) (k : Nat) (g : KeyRun → KeyRun) : (onKey d k g).dt = d.dt := rfl
@[simp] theorem onKey_heritage (d : Dev) (k : Nat) (g : KeyRun → KeyRun) : (onKey d k g).heritage = d.heritage := rfl
@[simp] theorem onKey_seatB (d : Dev) (k : Nat) (g : KeyRun → KeyRun) : (onKey d k g).seatB = d.seatB := rfl
@[simp] theorem onKey_bootMode (d : Dev) (k : Nat) (g : KeyRun → KeyRun) : (onKey d k g).bootMode = d.bootMode := rfl
@[simp] theorem onKey_dramUnits (d : Dev) (k : Nat) (g : KeyRun → KeyRun) : (onKey d k g).dramUnits = d.dramUnits := rfl
@[simp] theorem onKey_regs (d : Dev) (k : Nat) (g : KeyRun → KeyRun) : (onKey d k g).regs = d.regs := rfl
@[simp] theorem onKey_stg (d : Dev) (k : Nat) (g : KeyRun → KeyRun) : (onKey d k g).stg = d.stg := rfl
@[simp] theorem onKey_stgSI (d : Dev) (k : Nat) (g : KeyRun → KeyRun) : (onKey d k g).stgSI = d.stgSI := rfl
@[simp] theorem onKey_dram (d : Dev) (k : Nat) (g : KeyRun → KeyRun) : (onKey d k g).dram = d.dram := rfl
@[simp] theorem onKey_dramFree (d : Dev) (k : Nat) (g : KeyRun → KeyRun) : (onKey d k g).dramFree = d.dramFree := rfl
@[simp] theorem onKey_tt (d : Dev) (k : Nat) (g : KeyRun → KeyRun) : (onKey d k g).tt = d.tt := rfl
@[simp] theorem onKey_fns (d : Dev) (k : Nat) (g : KeyRun → KeyRun) : (onKey d k g).fns = d.fns := rfl
@[simp] theorem onKey_dirty (d : Dev) (k : Nat) (g : KeyRun → KeyRun) : (onKey d k g).dirty = d.dirty := rfl
@[simp] theorem onKey_pt (d : Dev) (k : Nat) (g : KeyRun → KeyRun) : (onKey d k g).pt = d.pt := rfl
@[simp] theorem onKey_ptSel (d : Dev) (k : Nat) (g : KeyRun → KeyRun) : (onKey d k g).ptSel = d.ptSel := rfl
@[simp] theorem onKey_ptStage (d : Dev) (k : Nat) (g : KeyRun → KeyRun) : (onKey d k g).ptStage = d.ptStage := rfl
@[simp] theorem onKey_blobs (d : Dev) (k : Nat) (g : KeyRun → KeyRun) : (onKey d k g).blobs = d.blobs := rfl
@[simp] theorem onKey_vfEnable (d : Dev) (k : Nat) (g : KeyRun → KeyRun) : (onKey d k g).vfEnable = d.vfEnable := rfl
@[simp] theorem onKey_numVfs (d : Dev) (k : Nat) (g : KeyRun → KeyRun) : (onKey d k g).numVfs = d.numVfs := rfl
@[simp] theorem onKey_plat (d : Dev) (k : Nat) (g : KeyRun → KeyRun) : (onKey d k g).plat = d.plat := rfl
@[simp] theorem onKey_commits (d : Dev) (k : Nat) (g : KeyRun → KeyRun) : (onKey d k g).commits = d.commits := rfl
@[simp] theorem onKey_nextCommit (d : Dev) (k : Nat) (g : KeyRun → KeyRun) : (onKey d k g).nextCommit = d.nextCommit := rfl
@[simp] theorem onKey_accept (d : Dev) (k : Nat) (g : KeyRun → KeyRun) : (onKey d k g).accept = d.accept := rfl
@[simp] theorem onKey_err (d : Dev) (k : Nat) (g : KeyRun → KeyRun) : (onKey d k g).err = d.err := rfl
@[simp] theorem onKey_ctr (d : Dev) (k : Nat) (g : KeyRun → KeyRun) : (onKey d k g).ctr = d.ctr := rfl
@[simp] theorem onKey_buf (d : Dev) (k : Nat) (g : KeyRun → KeyRun) : (onKey d k g).buf = d.buf := rfl
@[simp] theorem onKey_gpu (d : Dev) (k : Nat) (g : KeyRun → KeyRun) : (onKey d k g).gpu = d.gpu := rfl
@[simp] theorem onKey_comp (d : Dev) (k : Nat) (g : KeyRun → KeyRun) : (onKey d k g).comp = d.comp := rfl
@[simp] theorem onKey_scan (d : Dev) (k : Nat) (g : KeyRun → KeyRun) : (onKey d k g).scan = d.scan := rfl
@[simp] theorem onKey_hap (d : Dev) (k : Nat) (g : KeyRun → KeyRun) : (onKey d k g).hap = d.hap := rfl
@[simp] theorem onKey_audio (d : Dev) (k : Nat) (g : KeyRun → KeyRun) : (onKey d k g).audio = d.audio := rfl
@[simp] theorem onKey_bells (d : Dev) (k : Nat) (g : KeyRun → KeyRun) : (onKey d k g).bells = d.bells := rfl
@[simp] theorem onKey_pm (d : Dev) (k : Nat) (g : KeyRun → KeyRun) : (onKey d k g).pm = d.pm := rfl
@[simp] theorem onKey_safe (d : Dev) (k : Nat) (g : KeyRun → KeyRun) : (onKey d k g).safe = d.safe := rfl
@[simp] theorem onKey_pair (d : Dev) (k : Nat) (g : KeyRun → KeyRun) : (onKey d k g).pair = d.pair := rfl
@[simp] theorem onKey_mdh (d : Dev) (k : Nat) (g : KeyRun → KeyRun) : (onKey d k g).mdh = d.mdh := rfl
@[simp] theorem onKey_gpio (d : Dev) (k : Nat) (g : KeyRun → KeyRun) : (onKey d k g).gpio = d.gpio := rfl
@[simp] theorem onKey_freeCtr (d : Dev) (k : Nat) (g : KeyRun → KeyRun) : (onKey d k g).freeCtr = d.freeCtr := rfl
@[simp] theorem onKey_out (d : Dev) (k : Nat) (g : KeyRun → KeyRun) : (onKey d k g).out = d.out := rfl
theorem onKey_touch (d : Dev) (k : Nat) (g : KeyRun → KeyRun) :
    (onKey d k g).touch = ({ d.touch with keys := SMap.mod d.touch.keys k g }) := rfl

/-! ### onTun -/

@[simp] theorem onTun_dt (d : Dev) (q : Nat) (g : TunRun → TunRun) : (onTun d q g).dt = d.dt := rfl
@[simp] theorem onTun_heritage (d : Dev) (q : Nat) (g : TunRun → TunRun) : (onTun d q g).heritage = d.heritage := rfl
@[simp] theorem onTun_seatB (d : Dev) (q : Nat) (g : TunRun → TunRun) : (onTun d q g).seatB = d.seatB := rfl
@[simp] theorem onTun_bootMode (d : Dev) (q : Nat) (g : TunRun → TunRun) : (onTun d q g).bootMode = d.bootMode := rfl
@[simp] theorem onTun_dramUnits (d : Dev) (q : Nat) (g : TunRun → TunRun) : (onTun d q g).dramUnits = d.dramUnits := rfl
@[simp] theorem onTun_regs (d : Dev) (q : Nat) (g : TunRun → TunRun) : (onTun d q g).regs = d.regs := rfl
@[simp] theorem onTun_stg (d : Dev) (q : Nat) (g : TunRun → TunRun) : (onTun d q g).stg = d.stg := rfl
@[simp] theorem onTun_stgSI (d : Dev) (q : Nat) (g : TunRun → TunRun) : (onTun d q g).stgSI = d.stgSI := rfl
@[simp] theorem onTun_dram (d : Dev) (q : Nat) (g : TunRun → TunRun) : (onTun d q g).dram = d.dram := rfl
@[simp] theorem onTun_dramFree (d : Dev) (q : Nat) (g : TunRun → TunRun) : (onTun d q g).dramFree = d.dramFree := rfl
@[simp] theorem onTun_tt (d : Dev) (q : Nat) (g : TunRun → TunRun) : (onTun d q g).tt = d.tt := rfl
@[simp] theorem onTun_fns (d : Dev) (q : Nat) (g : TunRun → TunRun) : (onTun d q g).fns = d.fns := rfl
@[simp] theorem onTun_dirty (d : Dev) (q : Nat) (g : TunRun → TunRun) : (onTun d q g).dirty = d.dirty := rfl
@[simp] theorem onTun_pt (d : Dev) (q : Nat) (g : TunRun → TunRun) : (onTun d q g).pt = d.pt := rfl
@[simp] theorem onTun_ptSel (d : Dev) (q : Nat) (g : TunRun → TunRun) : (onTun d q g).ptSel = d.ptSel := rfl
@[simp] theorem onTun_ptStage (d : Dev) (q : Nat) (g : TunRun → TunRun) : (onTun d q g).ptStage = d.ptStage := rfl
@[simp] theorem onTun_blobs (d : Dev) (q : Nat) (g : TunRun → TunRun) : (onTun d q g).blobs = d.blobs := rfl
@[simp] theorem onTun_vfEnable (d : Dev) (q : Nat) (g : TunRun → TunRun) : (onTun d q g).vfEnable = d.vfEnable := rfl
@[simp] theorem onTun_numVfs (d : Dev) (q : Nat) (g : TunRun → TunRun) : (onTun d q g).numVfs = d.numVfs := rfl
@[simp] theorem onTun_plat (d : Dev) (q : Nat) (g : TunRun → TunRun) : (onTun d q g).plat = d.plat := rfl
@[simp] theorem onTun_commits (d : Dev) (q : Nat) (g : TunRun → TunRun) : (onTun d q g).commits = d.commits := rfl
@[simp] theorem onTun_nextCommit (d : Dev) (q : Nat) (g : TunRun → TunRun) : (onTun d q g).nextCommit = d.nextCommit := rfl
@[simp] theorem onTun_accept (d : Dev) (q : Nat) (g : TunRun → TunRun) : (onTun d q g).accept = d.accept := rfl
@[simp] theorem onTun_err (d : Dev) (q : Nat) (g : TunRun → TunRun) : (onTun d q g).err = d.err := rfl
@[simp] theorem onTun_ctr (d : Dev) (q : Nat) (g : TunRun → TunRun) : (onTun d q g).ctr = d.ctr := rfl
@[simp] theorem onTun_buf (d : Dev) (q : Nat) (g : TunRun → TunRun) : (onTun d q g).buf = d.buf := rfl
@[simp] theorem onTun_gpu (d : Dev) (q : Nat) (g : TunRun → TunRun) : (onTun d q g).gpu = d.gpu := rfl
@[simp] theorem onTun_comp (d : Dev) (q : Nat) (g : TunRun → TunRun) : (onTun d q g).comp = d.comp := rfl
@[simp] theorem onTun_scan (d : Dev) (q : Nat) (g : TunRun → TunRun) : (onTun d q g).scan = d.scan := rfl
@[simp] theorem onTun_hap (d : Dev) (q : Nat) (g : TunRun → TunRun) : (onTun d q g).hap = d.hap := rfl
@[simp] theorem onTun_audio (d : Dev) (q : Nat) (g : TunRun → TunRun) : (onTun d q g).audio = d.audio := rfl
@[simp] theorem onTun_bells (d : Dev) (q : Nat) (g : TunRun → TunRun) : (onTun d q g).bells = d.bells := rfl
@[simp] theorem onTun_pm (d : Dev) (q : Nat) (g : TunRun → TunRun) : (onTun d q g).pm = d.pm := rfl
@[simp] theorem onTun_safe (d : Dev) (q : Nat) (g : TunRun → TunRun) : (onTun d q g).safe = d.safe := rfl
@[simp] theorem onTun_pair (d : Dev) (q : Nat) (g : TunRun → TunRun) : (onTun d q g).pair = d.pair := rfl
@[simp] theorem onTun_mdh (d : Dev) (q : Nat) (g : TunRun → TunRun) : (onTun d q g).mdh = d.mdh := rfl
@[simp] theorem onTun_gpio (d : Dev) (q : Nat) (g : TunRun → TunRun) : (onTun d q g).gpio = d.gpio := rfl
@[simp] theorem onTun_freeCtr (d : Dev) (q : Nat) (g : TunRun → TunRun) : (onTun d q g).freeCtr = d.freeCtr := rfl
@[simp] theorem onTun_out (d : Dev) (q : Nat) (g : TunRun → TunRun) : (onTun d q g).out = d.out := rfl
theorem onTun_touch (d : Dev) (q : Nat) (g : TunRun → TunRun) :
    (onTun d q g).touch = ({ d.touch with tun := SMap.mod d.touch.tun q g }) := rfl

/-! ### onAudio -/

@[simp] theorem onAudio_dt (d : Dev) (g : Audio → Audio) : (onAudio d g).dt = d.dt := rfl
@[simp] theorem onAudio_heritage (d : Dev) (g : Audio → Audio) : (onAudio d g).heritage = d.heritage := rfl
@[simp] theorem onAudio_seatB (d : Dev) (g : Audio → Audio) : (onAudio d g).seatB = d.seatB := rfl
@[simp] theorem onAudio_bootMode (d : Dev) (g : Audio → Audio) : (onAudio d g).bootMode = d.bootMode := rfl
@[simp] theorem onAudio_dramUnits (d : Dev) (g : Audio → Audio) : (onAudio d g).dramUnits = d.dramUnits := rfl
@[simp] theorem onAudio_regs (d : Dev) (g : Audio → Audio) : (onAudio d g).regs = d.regs := rfl
@[simp] theorem onAudio_stg (d : Dev) (g : Audio → Audio) : (onAudio d g).stg = d.stg := rfl
@[simp] theorem onAudio_stgSI (d : Dev) (g : Audio → Audio) : (onAudio d g).stgSI = d.stgSI := rfl
@[simp] theorem onAudio_dram (d : Dev) (g : Audio → Audio) : (onAudio d g).dram = d.dram := rfl
@[simp] theorem onAudio_dramFree (d : Dev) (g : Audio → Audio) : (onAudio d g).dramFree = d.dramFree := rfl
@[simp] theorem onAudio_tt (d : Dev) (g : Audio → Audio) : (onAudio d g).tt = d.tt := rfl
@[simp] theorem onAudio_fns (d : Dev) (g : Audio → Audio) : (onAudio d g).fns = d.fns := rfl
@[simp] theorem onAudio_dirty (d : Dev) (g : Audio → Audio) : (onAudio d g).dirty = d.dirty := rfl
@[simp] theorem onAudio_pt (d : Dev) (g : Audio → Audio) : (onAudio d g).pt = d.pt := rfl
@[simp] theorem onAudio_ptSel (d : Dev) (g : Audio → Audio) : (onAudio d g).ptSel = d.ptSel := rfl
@[simp] theorem onAudio_ptStage (d : Dev) (g : Audio → Audio) : (onAudio d g).ptStage = d.ptStage := rfl
@[simp] theorem onAudio_blobs (d : Dev) (g : Audio → Audio) : (onAudio d g).blobs = d.blobs := rfl
@[simp] theorem onAudio_vfEnable (d : Dev) (g : Audio → Audio) : (onAudio d g).vfEnable = d.vfEnable := rfl
@[simp] theorem onAudio_numVfs (d : Dev) (g : Audio → Audio) : (onAudio d g).numVfs = d.numVfs := rfl
@[simp] theorem onAudio_plat (d : Dev) (g : Audio → Audio) : (onAudio d g).plat = d.plat := rfl
@[simp] theorem onAudio_commits (d : Dev) (g : Audio → Audio) : (onAudio d g).commits = d.commits := rfl
@[simp] theorem onAudio_nextCommit (d : Dev) (g : Audio → Audio) : (onAudio d g).nextCommit = d.nextCommit := rfl
@[simp] theorem onAudio_accept (d : Dev) (g : Audio → Audio) : (onAudio d g).accept = d.accept := rfl
@[simp] theorem onAudio_err (d : Dev) (g : Audio → Audio) : (onAudio d g).err = d.err := rfl
@[simp] theorem onAudio_ctr (d : Dev) (g : Audio → Audio) : (onAudio d g).ctr = d.ctr := rfl
@[simp] theorem onAudio_buf (d : Dev) (g : Audio → Audio) : (onAudio d g).buf = d.buf := rfl
@[simp] theorem onAudio_gpu (d : Dev) (g : Audio → Audio) : (onAudio d g).gpu = d.gpu := rfl
@[simp] theorem onAudio_comp (d : Dev) (g : Audio → Audio) : (onAudio d g).comp = d.comp := rfl
@[simp] theorem onAudio_scan (d : Dev) (g : Audio → Audio) : (onAudio d g).scan = d.scan := rfl
@[simp] theorem onAudio_hap (d : Dev) (g : Audio → Audio) : (onAudio d g).hap = d.hap := rfl
@[simp] theorem onAudio_touch (d : Dev) (g : Audio → Audio) : (onAudio d g).touch = d.touch := rfl
@[simp] theorem onAudio_bells (d : Dev) (g : Audio → Audio) : (onAudio d g).bells = d.bells := rfl
@[simp] theorem onAudio_pm (d : Dev) (g : Audio → Audio) : (onAudio d g).pm = d.pm := rfl
@[simp] theorem onAudio_safe (d : Dev) (g : Audio → Audio) : (onAudio d g).safe = d.safe := rfl
@[simp] theorem onAudio_pair (d : Dev) (g : Audio → Audio) : (onAudio d g).pair = d.pair := rfl
@[simp] theorem onAudio_mdh (d : Dev) (g : Audio → Audio) : (onAudio d g).mdh = d.mdh := rfl
@[simp] theorem onAudio_gpio (d : Dev) (g : Audio → Audio) : (onAudio d g).gpio = d.gpio := rfl
@[simp] theorem onAudio_freeCtr (d : Dev) (g : Audio → Audio) : (onAudio d g).freeCtr = d.freeCtr := rfl
@[simp] theorem onAudio_out (d : Dev) (g : Audio → Audio) : (onAudio d g).out = d.out := rfl
theorem onAudio_audio (d : Dev) (g : Audio → Audio) :
    (onAudio d g).audio = (g d.audio) := rfl

/-! ### onBell -/

@[simp] theorem onBell_dt (d : Dev) (c : Nat) (g : BellChan → BellChan) : (onBell d c g).dt = d.dt := rfl
@[simp] theorem onBell_heritage (d : Dev) (c : Nat) (g : BellChan → BellChan) : (onBell d c g).heritage = d.heritage := rfl
@[simp] theorem onBell_seatB (d : Dev) (c : Nat) (g : BellChan → BellChan) : (onBell d c g).seatB = d.seatB := rfl
@[simp] theorem onBell_bootMode (d : Dev) (c : Nat) (g : BellChan → BellChan) : (onBell d c g).bootMode = d.bootMode := rfl
@[simp] theorem onBell_dramUnits (d : Dev) (c : Nat) (g : BellChan → BellChan) : (onBell d c g).dramUnits = d.dramUnits := rfl
@[simp] theorem onBell_regs (d : Dev) (c : Nat) (g : BellChan → BellChan) : (onBell d c g).regs = d.regs := rfl
@[simp] theorem onBell_stg (d : Dev) (c : Nat) (g : BellChan → BellChan) : (onBell d c g).stg = d.stg := rfl
@[simp] theorem onBell_stgSI (d : Dev) (c : Nat) (g : BellChan → BellChan) : (onBell d c g).stgSI = d.stgSI := rfl
@[simp] theorem onBell_dram (d : Dev) (c : Nat) (g : BellChan → BellChan) : (onBell d c g).dram = d.dram := rfl
@[simp] theorem onBell_dramFree (d : Dev) (c : Nat) (g : BellChan → BellChan) : (onBell d c g).dramFree = d.dramFree := rfl
@[simp] theorem onBell_tt (d : Dev) (c : Nat) (g : BellChan → BellChan) : (onBell d c g).tt = d.tt := rfl
@[simp] theorem onBell_fns (d : Dev) (c : Nat) (g : BellChan → BellChan) : (onBell d c g).fns = d.fns := rfl
@[simp] theorem onBell_dirty (d : Dev) (c : Nat) (g : BellChan → BellChan) : (onBell d c g).dirty = d.dirty := rfl
@[simp] theorem onBell_pt (d : Dev) (c : Nat) (g : BellChan → BellChan) : (onBell d c g).pt = d.pt := rfl
@[simp] theorem onBell_ptSel (d : Dev) (c : Nat) (g : BellChan → BellChan) : (onBell d c g).ptSel = d.ptSel := rfl
@[simp] theorem onBell_ptStage (d : Dev) (c : Nat) (g : BellChan → BellChan) : (onBell d c g).ptStage = d.ptStage := rfl
@[simp] theorem onBell_blobs (d : Dev) (c : Nat) (g : BellChan → BellChan) : (onBell d c g).blobs = d.blobs := rfl
@[simp] theorem onBell_vfEnable (d : Dev) (c : Nat) (g : BellChan → BellChan) : (onBell d c g).vfEnable = d.vfEnable := rfl
@[simp] theorem onBell_numVfs (d : Dev) (c : Nat) (g : BellChan → BellChan) : (onBell d c g).numVfs = d.numVfs := rfl
@[simp] theorem onBell_plat (d : Dev) (c : Nat) (g : BellChan → BellChan) : (onBell d c g).plat = d.plat := rfl
@[simp] theorem onBell_commits (d : Dev) (c : Nat) (g : BellChan → BellChan) : (onBell d c g).commits = d.commits := rfl
@[simp] theorem onBell_nextCommit (d : Dev) (c : Nat) (g : BellChan → BellChan) : (onBell d c g).nextCommit = d.nextCommit := rfl
@[simp] theorem onBell_accept (d : Dev) (c : Nat) (g : BellChan → BellChan) : (onBell d c g).accept = d.accept := rfl
@[simp] theorem onBell_err (d : Dev) (c : Nat) (g : BellChan → BellChan) : (onBell d c g).err = d.err := rfl
@[simp] theorem onBell_ctr (d : Dev) (c : Nat) (g : BellChan → BellChan) : (onBell d c g).ctr = d.ctr := rfl
@[simp] theorem onBell_buf (d : Dev) (c : Nat) (g : BellChan → BellChan) : (onBell d c g).buf = d.buf := rfl
@[simp] theorem onBell_gpu (d : Dev) (c : Nat) (g : BellChan → BellChan) : (onBell d c g).gpu = d.gpu := rfl
@[simp] theorem onBell_comp (d : Dev) (c : Nat) (g : BellChan → BellChan) : (onBell d c g).comp = d.comp := rfl
@[simp] theorem onBell_scan (d : Dev) (c : Nat) (g : BellChan → BellChan) : (onBell d c g).scan = d.scan := rfl
@[simp] theorem onBell_hap (d : Dev) (c : Nat) (g : BellChan → BellChan) : (onBell d c g).hap = d.hap := rfl
@[simp] theorem onBell_touch (d : Dev) (c : Nat) (g : BellChan → BellChan) : (onBell d c g).touch = d.touch := rfl
@[simp] theorem onBell_audio (d : Dev) (c : Nat) (g : BellChan → BellChan) : (onBell d c g).audio = d.audio := rfl
@[simp] theorem onBell_pm (d : Dev) (c : Nat) (g : BellChan → BellChan) : (onBell d c g).pm = d.pm := rfl
@[simp] theorem onBell_safe (d : Dev) (c : Nat) (g : BellChan → BellChan) : (onBell d c g).safe = d.safe := rfl
@[simp] theorem onBell_pair (d : Dev) (c : Nat) (g : BellChan → BellChan) : (onBell d c g).pair = d.pair := rfl
@[simp] theorem onBell_mdh (d : Dev) (c : Nat) (g : BellChan → BellChan) : (onBell d c g).mdh = d.mdh := rfl
@[simp] theorem onBell_gpio (d : Dev) (c : Nat) (g : BellChan → BellChan) : (onBell d c g).gpio = d.gpio := rfl
@[simp] theorem onBell_freeCtr (d : Dev) (c : Nat) (g : BellChan → BellChan) : (onBell d c g).freeCtr = d.freeCtr := rfl
@[simp] theorem onBell_out (d : Dev) (c : Nat) (g : BellChan → BellChan) : (onBell d c g).out = d.out := rfl
theorem onBell_bells (d : Dev) (c : Nat) (g : BellChan → BellChan) :
    (onBell d c g).bells = ({ d.bells with chans := SMap.mod d.bells.chans c g }) := rfl

/-! ### onCut -/

@[simp] theorem onCut_dt (d : Dev) (g : Cutover → Cutover) : (onCut d g).dt = d.dt := rfl
@[simp] theorem onCut_heritage (d : Dev) (g : Cutover → Cutover) : (onCut d g).heritage = d.heritage := rfl
@[simp] theorem onCut_seatB (d : Dev) (g : Cutover → Cutover) : (onCut d g).seatB = d.seatB := rfl
@[simp] theorem onCut_bootMode (d : Dev) (g : Cutover → Cutover) : (onCut d g).bootMode = d.bootMode := rfl
@[simp] theorem onCut_dramUnits (d : Dev) (g : Cutover → Cutover) : (onCut d g).dramUnits = d.dramUnits := rfl
@[simp] theorem onCut_regs (d : Dev) (g : Cutover → Cutover) : (onCut d g).regs = d.regs := rfl
@[simp] theorem onCut_stg (d : Dev) (g : Cutover → Cutover) : (onCut d g).stg = d.stg := rfl
@[simp] theorem onCut_stgSI (d : Dev) (g : Cutover → Cutover) : (onCut d g).stgSI = d.stgSI := rfl
@[simp] theorem onCut_dram (d : Dev) (g : Cutover → Cutover) : (onCut d g).dram = d.dram := rfl
@[simp] theorem onCut_dramFree (d : Dev) (g : Cutover → Cutover) : (onCut d g).dramFree = d.dramFree := rfl
@[simp] theorem onCut_tt (d : Dev) (g : Cutover → Cutover) : (onCut d g).tt = d.tt := rfl
@[simp] theorem onCut_fns (d : Dev) (g : Cutover → Cutover) : (onCut d g).fns = d.fns := rfl
@[simp] theorem onCut_dirty (d : Dev) (g : Cutover → Cutover) : (onCut d g).dirty = d.dirty := rfl
@[simp] theorem onCut_pt (d : Dev) (g : Cutover → Cutover) : (onCut d g).pt = d.pt := rfl
@[simp] theorem onCut_ptSel (d : Dev) (g : Cutover → Cutover) : (onCut d g).ptSel = d.ptSel := rfl
@[simp] theorem onCut_ptStage (d : Dev) (g : Cutover → Cutover) : (onCut d g).ptStage = d.ptStage := rfl
@[simp] theorem onCut_blobs (d : Dev) (g : Cutover → Cutover) : (onCut d g).blobs = d.blobs := rfl
@[simp] theorem onCut_vfEnable (d : Dev) (g : Cutover → Cutover) : (onCut d g).vfEnable = d.vfEnable := rfl
@[simp] theorem onCut_numVfs (d : Dev) (g : Cutover → Cutover) : (onCut d g).numVfs = d.numVfs := rfl
@[simp] theorem onCut_plat (d : Dev) (g : Cutover → Cutover) : (onCut d g).plat = d.plat := rfl
@[simp] theorem onCut_commits (d : Dev) (g : Cutover → Cutover) : (onCut d g).commits = d.commits := rfl
@[simp] theorem onCut_nextCommit (d : Dev) (g : Cutover → Cutover) : (onCut d g).nextCommit = d.nextCommit := rfl
@[simp] theorem onCut_accept (d : Dev) (g : Cutover → Cutover) : (onCut d g).accept = d.accept := rfl
@[simp] theorem onCut_err (d : Dev) (g : Cutover → Cutover) : (onCut d g).err = d.err := rfl
@[simp] theorem onCut_ctr (d : Dev) (g : Cutover → Cutover) : (onCut d g).ctr = d.ctr := rfl
@[simp] theorem onCut_buf (d : Dev) (g : Cutover → Cutover) : (onCut d g).buf = d.buf := rfl
@[simp] theorem onCut_gpu (d : Dev) (g : Cutover → Cutover) : (onCut d g).gpu = d.gpu := rfl
@[simp] theorem onCut_comp (d : Dev) (g : Cutover → Cutover) : (onCut d g).comp = d.comp := rfl
@[simp] theorem onCut_scan (d : Dev) (g : Cutover → Cutover) : (onCut d g).scan = d.scan := rfl
@[simp] theorem onCut_hap (d : Dev) (g : Cutover → Cutover) : (onCut d g).hap = d.hap := rfl
@[simp] theorem onCut_touch (d : Dev) (g : Cutover → Cutover) : (onCut d g).touch = d.touch := rfl
@[simp] theorem onCut_audio (d : Dev) (g : Cutover → Cutover) : (onCut d g).audio = d.audio := rfl
@[simp] theorem onCut_bells (d : Dev) (g : Cutover → Cutover) : (onCut d g).bells = d.bells := rfl
@[simp] theorem onCut_safe (d : Dev) (g : Cutover → Cutover) : (onCut d g).safe = d.safe := rfl
@[simp] theorem onCut_pair (d : Dev) (g : Cutover → Cutover) : (onCut d g).pair = d.pair := rfl
@[simp] theorem onCut_mdh (d : Dev) (g : Cutover → Cutover) : (onCut d g).mdh = d.mdh := rfl
@[simp] theorem onCut_gpio (d : Dev) (g : Cutover → Cutover) : (onCut d g).gpio = d.gpio := rfl
@[simp] theorem onCut_freeCtr (d : Dev) (g : Cutover → Cutover) : (onCut d g).freeCtr = d.freeCtr := rfl
@[simp] theorem onCut_out (d : Dev) (g : Cutover → Cutover) : (onCut d g).out = d.out := rfl
theorem onCut_pm (d : Dev) (g : Cutover → Cutover) :
    (onCut d g).pm = ({ d.pm with cut := g d.pm.cut }) := rfl

/-! ### onSafe -/

@[simp] theorem onSafe_dt (d : Dev) (g : Safe → Safe) : (onSafe d g).dt = d.dt := rfl
@[simp] theorem onSafe_heritage (d : Dev) (g : Safe → Safe) : (onSafe d g).heritage = d.heritage := rfl
@[simp] theorem onSafe_seatB (d : Dev) (g : Safe → Safe) : (onSafe d g).seatB = d.seatB := rfl
@[simp] theorem onSafe_bootMode (d : Dev) (g : Safe → Safe) : (onSafe d g).bootMode = d.bootMode := rfl
@[simp] theorem onSafe_dramUnits (d : Dev) (g : Safe → Safe) : (onSafe d g).dramUnits = d.dramUnits := rfl
@[simp] theorem onSafe_regs (d : Dev) (g : Safe → Safe) : (onSafe d g).regs = d.regs := rfl
@[simp] theorem onSafe_stg (d : Dev) (g : Safe → Safe) : (onSafe d g).stg = d.stg := rfl
@[simp] theorem onSafe_stgSI (d : Dev) (g : Safe → Safe) : (onSafe d g).stgSI = d.stgSI := rfl
@[simp] theorem onSafe_dram (d : Dev) (g : Safe → Safe) : (onSafe d g).dram = d.dram := rfl
@[simp] theorem onSafe_dramFree (d : Dev) (g : Safe → Safe) : (onSafe d g).dramFree = d.dramFree := rfl
@[simp] theorem onSafe_tt (d : Dev) (g : Safe → Safe) : (onSafe d g).tt = d.tt := rfl
@[simp] theorem onSafe_fns (d : Dev) (g : Safe → Safe) : (onSafe d g).fns = d.fns := rfl
@[simp] theorem onSafe_dirty (d : Dev) (g : Safe → Safe) : (onSafe d g).dirty = d.dirty := rfl
@[simp] theorem onSafe_pt (d : Dev) (g : Safe → Safe) : (onSafe d g).pt = d.pt := rfl
@[simp] theorem onSafe_ptSel (d : Dev) (g : Safe → Safe) : (onSafe d g).ptSel = d.ptSel := rfl
@[simp] theorem onSafe_ptStage (d : Dev) (g : Safe → Safe) : (onSafe d g).ptStage = d.ptStage := rfl
@[simp] theorem onSafe_blobs (d : Dev) (g : Safe → Safe) : (onSafe d g).blobs = d.blobs := rfl
@[simp] theorem onSafe_vfEnable (d : Dev) (g : Safe → Safe) : (onSafe d g).vfEnable = d.vfEnable := rfl
@[simp] theorem onSafe_numVfs (d : Dev) (g : Safe → Safe) : (onSafe d g).numVfs = d.numVfs := rfl
@[simp] theorem onSafe_plat (d : Dev) (g : Safe → Safe) : (onSafe d g).plat = d.plat := rfl
@[simp] theorem onSafe_commits (d : Dev) (g : Safe → Safe) : (onSafe d g).commits = d.commits := rfl
@[simp] theorem onSafe_nextCommit (d : Dev) (g : Safe → Safe) : (onSafe d g).nextCommit = d.nextCommit := rfl
@[simp] theorem onSafe_accept (d : Dev) (g : Safe → Safe) : (onSafe d g).accept = d.accept := rfl
@[simp] theorem onSafe_err (d : Dev) (g : Safe → Safe) : (onSafe d g).err = d.err := rfl
@[simp] theorem onSafe_ctr (d : Dev) (g : Safe → Safe) : (onSafe d g).ctr = d.ctr := rfl
@[simp] theorem onSafe_buf (d : Dev) (g : Safe → Safe) : (onSafe d g).buf = d.buf := rfl
@[simp] theorem onSafe_gpu (d : Dev) (g : Safe → Safe) : (onSafe d g).gpu = d.gpu := rfl
@[simp] theorem onSafe_comp (d : Dev) (g : Safe → Safe) : (onSafe d g).comp = d.comp := rfl
@[simp] theorem onSafe_scan (d : Dev) (g : Safe → Safe) : (onSafe d g).scan = d.scan := rfl
@[simp] theorem onSafe_hap (d : Dev) (g : Safe → Safe) : (onSafe d g).hap = d.hap := rfl
@[simp] theorem onSafe_touch (d : Dev) (g : Safe → Safe) : (onSafe d g).touch = d.touch := rfl
@[simp] theorem onSafe_audio (d : Dev) (g : Safe → Safe) : (onSafe d g).audio = d.audio := rfl
@[simp] theorem onSafe_bells (d : Dev) (g : Safe → Safe) : (onSafe d g).bells = d.bells := rfl
@[simp] theorem onSafe_pm (d : Dev) (g : Safe → Safe) : (onSafe d g).pm = d.pm := rfl
@[simp] theorem onSafe_pair (d : Dev) (g : Safe → Safe) : (onSafe d g).pair = d.pair := rfl
@[simp] theorem onSafe_mdh (d : Dev) (g : Safe → Safe) : (onSafe d g).mdh = d.mdh := rfl
@[simp] theorem onSafe_gpio (d : Dev) (g : Safe → Safe) : (onSafe d g).gpio = d.gpio := rfl
@[simp] theorem onSafe_freeCtr (d : Dev) (g : Safe → Safe) : (onSafe d g).freeCtr = d.freeCtr := rfl
@[simp] theorem onSafe_out (d : Dev) (g : Safe → Safe) : (onSafe d g).out = d.out := rfl
theorem onSafe_safe (d : Dev) (g : Safe → Safe) :
    (onSafe d g).safe = (g d.safe) := rfl

/-! ### onPair -/

@[simp] theorem onPair_dt (d : Dev) (g : Pair → Pair) : (onPair d g).dt = d.dt := rfl
@[simp] theorem onPair_heritage (d : Dev) (g : Pair → Pair) : (onPair d g).heritage = d.heritage := rfl
@[simp] theorem onPair_seatB (d : Dev) (g : Pair → Pair) : (onPair d g).seatB = d.seatB := rfl
@[simp] theorem onPair_bootMode (d : Dev) (g : Pair → Pair) : (onPair d g).bootMode = d.bootMode := rfl
@[simp] theorem onPair_dramUnits (d : Dev) (g : Pair → Pair) : (onPair d g).dramUnits = d.dramUnits := rfl
@[simp] theorem onPair_regs (d : Dev) (g : Pair → Pair) : (onPair d g).regs = d.regs := rfl
@[simp] theorem onPair_stg (d : Dev) (g : Pair → Pair) : (onPair d g).stg = d.stg := rfl
@[simp] theorem onPair_stgSI (d : Dev) (g : Pair → Pair) : (onPair d g).stgSI = d.stgSI := rfl
@[simp] theorem onPair_dram (d : Dev) (g : Pair → Pair) : (onPair d g).dram = d.dram := rfl
@[simp] theorem onPair_dramFree (d : Dev) (g : Pair → Pair) : (onPair d g).dramFree = d.dramFree := rfl
@[simp] theorem onPair_tt (d : Dev) (g : Pair → Pair) : (onPair d g).tt = d.tt := rfl
@[simp] theorem onPair_fns (d : Dev) (g : Pair → Pair) : (onPair d g).fns = d.fns := rfl
@[simp] theorem onPair_dirty (d : Dev) (g : Pair → Pair) : (onPair d g).dirty = d.dirty := rfl
@[simp] theorem onPair_pt (d : Dev) (g : Pair → Pair) : (onPair d g).pt = d.pt := rfl
@[simp] theorem onPair_ptSel (d : Dev) (g : Pair → Pair) : (onPair d g).ptSel = d.ptSel := rfl
@[simp] theorem onPair_ptStage (d : Dev) (g : Pair → Pair) : (onPair d g).ptStage = d.ptStage := rfl
@[simp] theorem onPair_blobs (d : Dev) (g : Pair → Pair) : (onPair d g).blobs = d.blobs := rfl
@[simp] theorem onPair_vfEnable (d : Dev) (g : Pair → Pair) : (onPair d g).vfEnable = d.vfEnable := rfl
@[simp] theorem onPair_numVfs (d : Dev) (g : Pair → Pair) : (onPair d g).numVfs = d.numVfs := rfl
@[simp] theorem onPair_plat (d : Dev) (g : Pair → Pair) : (onPair d g).plat = d.plat := rfl
@[simp] theorem onPair_commits (d : Dev) (g : Pair → Pair) : (onPair d g).commits = d.commits := rfl
@[simp] theorem onPair_nextCommit (d : Dev) (g : Pair → Pair) : (onPair d g).nextCommit = d.nextCommit := rfl
@[simp] theorem onPair_accept (d : Dev) (g : Pair → Pair) : (onPair d g).accept = d.accept := rfl
@[simp] theorem onPair_err (d : Dev) (g : Pair → Pair) : (onPair d g).err = d.err := rfl
@[simp] theorem onPair_ctr (d : Dev) (g : Pair → Pair) : (onPair d g).ctr = d.ctr := rfl
@[simp] theorem onPair_buf (d : Dev) (g : Pair → Pair) : (onPair d g).buf = d.buf := rfl
@[simp] theorem onPair_gpu (d : Dev) (g : Pair → Pair) : (onPair d g).gpu = d.gpu := rfl
@[simp] theorem onPair_comp (d : Dev) (g : Pair → Pair) : (onPair d g).comp = d.comp := rfl
@[simp] theorem onPair_scan (d : Dev) (g : Pair → Pair) : (onPair d g).scan = d.scan := rfl
@[simp] theorem onPair_hap (d : Dev) (g : Pair → Pair) : (onPair d g).hap = d.hap := rfl
@[simp] theorem onPair_touch (d : Dev) (g : Pair → Pair) : (onPair d g).touch = d.touch := rfl
@[simp] theorem onPair_audio (d : Dev) (g : Pair → Pair) : (onPair d g).audio = d.audio := rfl
@[simp] theorem onPair_bells (d : Dev) (g : Pair → Pair) : (onPair d g).bells = d.bells := rfl
@[simp] theorem onPair_pm (d : Dev) (g : Pair → Pair) : (onPair d g).pm = d.pm := rfl
@[simp] theorem onPair_safe (d : Dev) (g : Pair → Pair) : (onPair d g).safe = d.safe := rfl
@[simp] theorem onPair_mdh (d : Dev) (g : Pair → Pair) : (onPair d g).mdh = d.mdh := rfl
@[simp] theorem onPair_gpio (d : Dev) (g : Pair → Pair) : (onPair d g).gpio = d.gpio := rfl
@[simp] theorem onPair_freeCtr (d : Dev) (g : Pair → Pair) : (onPair d g).freeCtr = d.freeCtr := rfl
@[simp] theorem onPair_out (d : Dev) (g : Pair → Pair) : (onPair d g).out = d.out := rfl
theorem onPair_pair (d : Dev) (g : Pair → Pair) :
    (onPair d g).pair = (g d.pair) := rfl

/-! ### onMdh -/

@[simp] theorem onMdh_dt (d : Dev) (g : Mdh → Mdh) : (onMdh d g).dt = d.dt := rfl
@[simp] theorem onMdh_heritage (d : Dev) (g : Mdh → Mdh) : (onMdh d g).heritage = d.heritage := rfl
@[simp] theorem onMdh_seatB (d : Dev) (g : Mdh → Mdh) : (onMdh d g).seatB = d.seatB := rfl
@[simp] theorem onMdh_bootMode (d : Dev) (g : Mdh → Mdh) : (onMdh d g).bootMode = d.bootMode := rfl
@[simp] theorem onMdh_dramUnits (d : Dev) (g : Mdh → Mdh) : (onMdh d g).dramUnits = d.dramUnits := rfl
@[simp] theorem onMdh_regs (d : Dev) (g : Mdh → Mdh) : (onMdh d g).regs = d.regs := rfl
@[simp] theorem onMdh_stg (d : Dev) (g : Mdh → Mdh) : (onMdh d g).stg = d.stg := rfl
@[simp] theorem onMdh_stgSI (d : Dev) (g : Mdh → Mdh) : (onMdh d g).stgSI = d.stgSI := rfl
@[simp] theorem onMdh_dram (d : Dev) (g : Mdh → Mdh) : (onMdh d g).dram = d.dram := rfl
@[simp] theorem onMdh_dramFree (d : Dev) (g : Mdh → Mdh) : (onMdh d g).dramFree = d.dramFree := rfl
@[simp] theorem onMdh_tt (d : Dev) (g : Mdh → Mdh) : (onMdh d g).tt = d.tt := rfl
@[simp] theorem onMdh_fns (d : Dev) (g : Mdh → Mdh) : (onMdh d g).fns = d.fns := rfl
@[simp] theorem onMdh_dirty (d : Dev) (g : Mdh → Mdh) : (onMdh d g).dirty = d.dirty := rfl
@[simp] theorem onMdh_pt (d : Dev) (g : Mdh → Mdh) : (onMdh d g).pt = d.pt := rfl
@[simp] theorem onMdh_ptSel (d : Dev) (g : Mdh → Mdh) : (onMdh d g).ptSel = d.ptSel := rfl
@[simp] theorem onMdh_ptStage (d : Dev) (g : Mdh → Mdh) : (onMdh d g).ptStage = d.ptStage := rfl
@[simp] theorem onMdh_blobs (d : Dev) (g : Mdh → Mdh) : (onMdh d g).blobs = d.blobs := rfl
@[simp] theorem onMdh_vfEnable (d : Dev) (g : Mdh → Mdh) : (onMdh d g).vfEnable = d.vfEnable := rfl
@[simp] theorem onMdh_numVfs (d : Dev) (g : Mdh → Mdh) : (onMdh d g).numVfs = d.numVfs := rfl
@[simp] theorem onMdh_plat (d : Dev) (g : Mdh → Mdh) : (onMdh d g).plat = d.plat := rfl
@[simp] theorem onMdh_commits (d : Dev) (g : Mdh → Mdh) : (onMdh d g).commits = d.commits := rfl
@[simp] theorem onMdh_nextCommit (d : Dev) (g : Mdh → Mdh) : (onMdh d g).nextCommit = d.nextCommit := rfl
@[simp] theorem onMdh_accept (d : Dev) (g : Mdh → Mdh) : (onMdh d g).accept = d.accept := rfl
@[simp] theorem onMdh_err (d : Dev) (g : Mdh → Mdh) : (onMdh d g).err = d.err := rfl
@[simp] theorem onMdh_ctr (d : Dev) (g : Mdh → Mdh) : (onMdh d g).ctr = d.ctr := rfl
@[simp] theorem onMdh_buf (d : Dev) (g : Mdh → Mdh) : (onMdh d g).buf = d.buf := rfl
@[simp] theorem onMdh_gpu (d : Dev) (g : Mdh → Mdh) : (onMdh d g).gpu = d.gpu := rfl
@[simp] theorem onMdh_comp (d : Dev) (g : Mdh → Mdh) : (onMdh d g).comp = d.comp := rfl
@[simp] theorem onMdh_scan (d : Dev) (g : Mdh → Mdh) : (onMdh d g).scan = d.scan := rfl
@[simp] theorem onMdh_hap (d : Dev) (g : Mdh → Mdh) : (onMdh d g).hap = d.hap := rfl
@[simp] theorem onMdh_touch (d : Dev) (g : Mdh → Mdh) : (onMdh d g).touch = d.touch := rfl
@[simp] theorem onMdh_audio (d : Dev) (g : Mdh → Mdh) : (onMdh d g).audio = d.audio := rfl
@[simp] theorem onMdh_bells (d : Dev) (g : Mdh → Mdh) : (onMdh d g).bells = d.bells := rfl
@[simp] theorem onMdh_pm (d : Dev) (g : Mdh → Mdh) : (onMdh d g).pm = d.pm := rfl
@[simp] theorem onMdh_safe (d : Dev) (g : Mdh → Mdh) : (onMdh d g).safe = d.safe := rfl
@[simp] theorem onMdh_pair (d : Dev) (g : Mdh → Mdh) : (onMdh d g).pair = d.pair := rfl
@[simp] theorem onMdh_gpio (d : Dev) (g : Mdh → Mdh) : (onMdh d g).gpio = d.gpio := rfl
@[simp] theorem onMdh_freeCtr (d : Dev) (g : Mdh → Mdh) : (onMdh d g).freeCtr = d.freeCtr := rfl
@[simp] theorem onMdh_out (d : Dev) (g : Mdh → Mdh) : (onMdh d g).out = d.out := rfl
theorem onMdh_mdh (d : Dev) (g : Mdh → Mdh) :
    (onMdh d g).mdh = (g d.mdh) := rfl

/-! ### fs -/

@[simp] theorem fs_dt (d : Dev) (off : Nat) (f : Fld) (v : Nat) : (fs d off f v).dt = d.dt := rfl
@[simp] theorem fs_heritage (d : Dev) (off : Nat) (f : Fld) (v : Nat) : (fs d off f v).heritage = d.heritage := rfl
@[simp] theorem fs_seatB (d : Dev) (off : Nat) (f : Fld) (v : Nat) : (fs d off f v).seatB = d.seatB := rfl
@[simp] theorem fs_bootMode (d : Dev) (off : Nat) (f : Fld) (v : Nat) : (fs d off f v).bootMode = d.bootMode := rfl
@[simp] theorem fs_dramUnits (d : Dev) (off : Nat) (f : Fld) (v : Nat) : (fs d off f v).dramUnits = d.dramUnits := rfl
@[simp] theorem fs_stg (d : Dev) (off : Nat) (f : Fld) (v : Nat) : (fs d off f v).stg = d.stg := rfl
@[simp] theorem fs_stgSI (d : Dev) (off : Nat) (f : Fld) (v : Nat) : (fs d off f v).stgSI = d.stgSI := rfl
@[simp] theorem fs_dram (d : Dev) (off : Nat) (f : Fld) (v : Nat) : (fs d off f v).dram = d.dram := rfl
@[simp] theorem fs_dramFree (d : Dev) (off : Nat) (f : Fld) (v : Nat) : (fs d off f v).dramFree = d.dramFree := rfl
@[simp] theorem fs_tt (d : Dev) (off : Nat) (f : Fld) (v : Nat) : (fs d off f v).tt = d.tt := rfl
@[simp] theorem fs_fns (d : Dev) (off : Nat) (f : Fld) (v : Nat) : (fs d off f v).fns = d.fns := rfl
@[simp] theorem fs_dirty (d : Dev) (off : Nat) (f : Fld) (v : Nat) : (fs d off f v).dirty = d.dirty := rfl
@[simp] theorem fs_pt (d : Dev) (off : Nat) (f : Fld) (v : Nat) : (fs d off f v).pt = d.pt := rfl
@[simp] theorem fs_ptSel (d : Dev) (off : Nat) (f : Fld) (v : Nat) : (fs d off f v).ptSel = d.ptSel := rfl
@[simp] theorem fs_ptStage (d : Dev) (off : Nat) (f : Fld) (v : Nat) : (fs d off f v).ptStage = d.ptStage := rfl
@[simp] theorem fs_blobs (d : Dev) (off : Nat) (f : Fld) (v : Nat) : (fs d off f v).blobs = d.blobs := rfl
@[simp] theorem fs_vfEnable (d : Dev) (off : Nat) (f : Fld) (v : Nat) : (fs d off f v).vfEnable = d.vfEnable := rfl
@[simp] theorem fs_numVfs (d : Dev) (off : Nat) (f : Fld) (v : Nat) : (fs d off f v).numVfs = d.numVfs := rfl
@[simp] theorem fs_plat (d : Dev) (off : Nat) (f : Fld) (v : Nat) : (fs d off f v).plat = d.plat := rfl
@[simp] theorem fs_commits (d : Dev) (off : Nat) (f : Fld) (v : Nat) : (fs d off f v).commits = d.commits := rfl
@[simp] theorem fs_nextCommit (d : Dev) (off : Nat) (f : Fld) (v : Nat) : (fs d off f v).nextCommit = d.nextCommit := rfl
@[simp] theorem fs_accept (d : Dev) (off : Nat) (f : Fld) (v : Nat) : (fs d off f v).accept = d.accept := rfl
@[simp] theorem fs_err (d : Dev) (off : Nat) (f : Fld) (v : Nat) : (fs d off f v).err = d.err := rfl
@[simp] theorem fs_ctr (d : Dev) (off : Nat) (f : Fld) (v : Nat) : (fs d off f v).ctr = d.ctr := rfl
@[simp] theorem fs_buf (d : Dev) (off : Nat) (f : Fld) (v : Nat) : (fs d off f v).buf = d.buf := rfl
@[simp] theorem fs_gpu (d : Dev) (off : Nat) (f : Fld) (v : Nat) : (fs d off f v).gpu = d.gpu := rfl
@[simp] theorem fs_comp (d : Dev) (off : Nat) (f : Fld) (v : Nat) : (fs d off f v).comp = d.comp := rfl
@[simp] theorem fs_scan (d : Dev) (off : Nat) (f : Fld) (v : Nat) : (fs d off f v).scan = d.scan := rfl
@[simp] theorem fs_hap (d : Dev) (off : Nat) (f : Fld) (v : Nat) : (fs d off f v).hap = d.hap := rfl
@[simp] theorem fs_touch (d : Dev) (off : Nat) (f : Fld) (v : Nat) : (fs d off f v).touch = d.touch := rfl
@[simp] theorem fs_audio (d : Dev) (off : Nat) (f : Fld) (v : Nat) : (fs d off f v).audio = d.audio := rfl
@[simp] theorem fs_bells (d : Dev) (off : Nat) (f : Fld) (v : Nat) : (fs d off f v).bells = d.bells := rfl
@[simp] theorem fs_pm (d : Dev) (off : Nat) (f : Fld) (v : Nat) : (fs d off f v).pm = d.pm := rfl
@[simp] theorem fs_safe (d : Dev) (off : Nat) (f : Fld) (v : Nat) : (fs d off f v).safe = d.safe := rfl
@[simp] theorem fs_pair (d : Dev) (off : Nat) (f : Fld) (v : Nat) : (fs d off f v).pair = d.pair := rfl
@[simp] theorem fs_mdh (d : Dev) (off : Nat) (f : Fld) (v : Nat) : (fs d off f v).mdh = d.mdh := rfl
@[simp] theorem fs_gpio (d : Dev) (off : Nat) (f : Fld) (v : Nat) : (fs d off f v).gpio = d.gpio := rfl
@[simp] theorem fs_freeCtr (d : Dev) (off : Nat) (f : Fld) (v : Nat) : (fs d off f v).freeCtr = d.freeCtr := rfl
@[simp] theorem fs_out (d : Dev) (off : Nat) (f : Fld) (v : Nat) : (fs d off f v).out = d.out := rfl

/-! ### wr64 -/

@[simp] theorem wr64_dt (d : Dev) (off v : Nat) : (wr64 d off v).dt = d.dt := rfl
@[simp] theorem wr64_heritage (d : Dev) (off v : Nat) : (wr64 d off v).heritage = d.heritage := rfl
@[simp] theorem wr64_seatB (d : Dev) (off v : Nat) : (wr64 d off v).seatB = d.seatB := rfl
@[simp] theorem wr64_bootMode (d : Dev) (off v : Nat) : (wr64 d off v).bootMode = d.bootMode := rfl
@[simp] theorem wr64_dramUnits (d : Dev) (off v : Nat) : (wr64 d off v).dramUnits = d.dramUnits := rfl
@[simp] theorem wr64_stg (d : Dev) (off v : Nat) : (wr64 d off v).stg = d.stg := rfl
@[simp] theorem wr64_stgSI (d : Dev) (off v : Nat) : (wr64 d off v).stgSI = d.stgSI := rfl
@[simp] theorem wr64_dram (d : Dev) (off v : Nat) : (wr64 d off v).dram = d.dram := rfl
@[simp] theorem wr64_dramFree (d : Dev) (off v : Nat) : (wr64 d off v).dramFree = d.dramFree := rfl
@[simp] theorem wr64_tt (d : Dev) (off v : Nat) : (wr64 d off v).tt = d.tt := rfl
@[simp] theorem wr64_fns (d : Dev) (off v : Nat) : (wr64 d off v).fns = d.fns := rfl
@[simp] theorem wr64_dirty (d : Dev) (off v : Nat) : (wr64 d off v).dirty = d.dirty := rfl
@[simp] theorem wr64_pt (d : Dev) (off v : Nat) : (wr64 d off v).pt = d.pt := rfl
@[simp] theorem wr64_ptSel (d : Dev) (off v : Nat) : (wr64 d off v).ptSel = d.ptSel := rfl
@[simp] theorem wr64_ptStage (d : Dev) (off v : Nat) : (wr64 d off v).ptStage = d.ptStage := rfl
@[simp] theorem wr64_blobs (d : Dev) (off v : Nat) : (wr64 d off v).blobs = d.blobs := rfl
@[simp] theorem wr64_vfEnable (d : Dev) (off v : Nat) : (wr64 d off v).vfEnable = d.vfEnable := rfl
@[simp] theorem wr64_numVfs (d : Dev) (off v : Nat) : (wr64 d off v).numVfs = d.numVfs := rfl
@[simp] theorem wr64_plat (d : Dev) (off v : Nat) : (wr64 d off v).plat = d.plat := rfl
@[simp] theorem wr64_commits (d : Dev) (off v : Nat) : (wr64 d off v).commits = d.commits := rfl
@[simp] theorem wr64_nextCommit (d : Dev) (off v : Nat) : (wr64 d off v).nextCommit = d.nextCommit := rfl
@[simp] theorem wr64_accept (d : Dev) (off v : Nat) : (wr64 d off v).accept = d.accept := rfl
@[simp] theorem wr64_err (d : Dev) (off v : Nat) : (wr64 d off v).err = d.err := rfl
@[simp] theorem wr64_ctr (d : Dev) (off v : Nat) : (wr64 d off v).ctr = d.ctr := rfl
@[simp] theorem wr64_buf (d : Dev) (off v : Nat) : (wr64 d off v).buf = d.buf := rfl
@[simp] theorem wr64_gpu (d : Dev) (off v : Nat) : (wr64 d off v).gpu = d.gpu := rfl
@[simp] theorem wr64_comp (d : Dev) (off v : Nat) : (wr64 d off v).comp = d.comp := rfl
@[simp] theorem wr64_scan (d : Dev) (off v : Nat) : (wr64 d off v).scan = d.scan := rfl
@[simp] theorem wr64_hap (d : Dev) (off v : Nat) : (wr64 d off v).hap = d.hap := rfl
@[simp] theorem wr64_touch (d : Dev) (off v : Nat) : (wr64 d off v).touch = d.touch := rfl
@[simp] theorem wr64_audio (d : Dev) (off v : Nat) : (wr64 d off v).audio = d.audio := rfl
@[simp] theorem wr64_bells (d : Dev) (off v : Nat) : (wr64 d off v).bells = d.bells := rfl
@[simp] theorem wr64_pm (d : Dev) (off v : Nat) : (wr64 d off v).pm = d.pm := rfl
@[simp] theorem wr64_safe (d : Dev) (off v : Nat) : (wr64 d off v).safe = d.safe := rfl
@[simp] theorem wr64_pair (d : Dev) (off v : Nat) : (wr64 d off v).pair = d.pair := rfl
@[simp] theorem wr64_mdh (d : Dev) (off v : Nat) : (wr64 d off v).mdh = d.mdh := rfl
@[simp] theorem wr64_gpio (d : Dev) (off v : Nat) : (wr64 d off v).gpio = d.gpio := rfl
@[simp] theorem wr64_freeCtr (d : Dev) (off v : Nat) : (wr64 d off v).freeCtr = d.freeCtr := rfl
@[simp] theorem wr64_out (d : Dev) (off v : Nat) : (wr64 d off v).out = d.out := rfl

/-! ### bump -/

@[simp] theorem bump_dt (d : Dev) (off : Nat) (f : Fld) (n : Nat) : (bump d off f n).dt = d.dt := rfl
@[simp] theorem bump_heritage (d : Dev) (off : Nat) (f : Fld) (n : Nat) : (bump d off f n).heritage = d.heritage := rfl
@[simp] theorem bump_seatB (d : Dev) (off : Nat) (f : Fld) (n : Nat) : (bump d off f n).seatB = d.seatB := rfl
@[simp] theorem bump_bootMode (d : Dev) (off : Nat) (f : Fld) (n : Nat) : (bump d off f n).bootMode = d.bootMode := rfl
@[simp] theorem bump_dramUnits (d : Dev) (off : Nat) (f : Fld) (n : Nat) : (bump d off f n).dramUnits = d.dramUnits := rfl
@[simp] theorem bump_stg (d : Dev) (off : Nat) (f : Fld) (n : Nat) : (bump d off f n).stg = d.stg := rfl
@[simp] theorem bump_stgSI (d : Dev) (off : Nat) (f : Fld) (n : Nat) : (bump d off f n).stgSI = d.stgSI := rfl
@[simp] theorem bump_dram (d : Dev) (off : Nat) (f : Fld) (n : Nat) : (bump d off f n).dram = d.dram := rfl
@[simp] theorem bump_dramFree (d : Dev) (off : Nat) (f : Fld) (n : Nat) : (bump d off f n).dramFree = d.dramFree := rfl
@[simp] theorem bump_tt (d : Dev) (off : Nat) (f : Fld) (n : Nat) : (bump d off f n).tt = d.tt := rfl
@[simp] theorem bump_fns (d : Dev) (off : Nat) (f : Fld) (n : Nat) : (bump d off f n).fns = d.fns := rfl
@[simp] theorem bump_dirty (d : Dev) (off : Nat) (f : Fld) (n : Nat) : (bump d off f n).dirty = d.dirty := rfl
@[simp] theorem bump_pt (d : Dev) (off : Nat) (f : Fld) (n : Nat) : (bump d off f n).pt = d.pt := rfl
@[simp] theorem bump_ptSel (d : Dev) (off : Nat) (f : Fld) (n : Nat) : (bump d off f n).ptSel = d.ptSel := rfl
@[simp] theorem bump_ptStage (d : Dev) (off : Nat) (f : Fld) (n : Nat) : (bump d off f n).ptStage = d.ptStage := rfl
@[simp] theorem bump_blobs (d : Dev) (off : Nat) (f : Fld) (n : Nat) : (bump d off f n).blobs = d.blobs := rfl
@[simp] theorem bump_vfEnable (d : Dev) (off : Nat) (f : Fld) (n : Nat) : (bump d off f n).vfEnable = d.vfEnable := rfl
@[simp] theorem bump_numVfs (d : Dev) (off : Nat) (f : Fld) (n : Nat) : (bump d off f n).numVfs = d.numVfs := rfl
@[simp] theorem bump_plat (d : Dev) (off : Nat) (f : Fld) (n : Nat) : (bump d off f n).plat = d.plat := rfl
@[simp] theorem bump_commits (d : Dev) (off : Nat) (f : Fld) (n : Nat) : (bump d off f n).commits = d.commits := rfl
@[simp] theorem bump_nextCommit (d : Dev) (off : Nat) (f : Fld) (n : Nat) : (bump d off f n).nextCommit = d.nextCommit := rfl
@[simp] theorem bump_accept (d : Dev) (off : Nat) (f : Fld) (n : Nat) : (bump d off f n).accept = d.accept := rfl
@[simp] theorem bump_err (d : Dev) (off : Nat) (f : Fld) (n : Nat) : (bump d off f n).err = d.err := rfl
@[simp] theorem bump_ctr (d : Dev) (off : Nat) (f : Fld) (n : Nat) : (bump d off f n).ctr = d.ctr := rfl
@[simp] theorem bump_buf (d : Dev) (off : Nat) (f : Fld) (n : Nat) : (bump d off f n).buf = d.buf := rfl
@[simp] theorem bump_gpu (d : Dev) (off : Nat) (f : Fld) (n : Nat) : (bump d off f n).gpu = d.gpu := rfl
@[simp] theorem bump_comp (d : Dev) (off : Nat) (f : Fld) (n : Nat) : (bump d off f n).comp = d.comp := rfl
@[simp] theorem bump_scan (d : Dev) (off : Nat) (f : Fld) (n : Nat) : (bump d off f n).scan = d.scan := rfl
@[simp] theorem bump_hap (d : Dev) (off : Nat) (f : Fld) (n : Nat) : (bump d off f n).hap = d.hap := rfl
@[simp] theorem bump_touch (d : Dev) (off : Nat) (f : Fld) (n : Nat) : (bump d off f n).touch = d.touch := rfl
@[simp] theorem bump_audio (d : Dev) (off : Nat) (f : Fld) (n : Nat) : (bump d off f n).audio = d.audio := rfl
@[simp] theorem bump_bells (d : Dev) (off : Nat) (f : Fld) (n : Nat) : (bump d off f n).bells = d.bells := rfl
@[simp] theorem bump_pm (d : Dev) (off : Nat) (f : Fld) (n : Nat) : (bump d off f n).pm = d.pm := rfl
@[simp] theorem bump_safe (d : Dev) (off : Nat) (f : Fld) (n : Nat) : (bump d off f n).safe = d.safe := rfl
@[simp] theorem bump_pair (d : Dev) (off : Nat) (f : Fld) (n : Nat) : (bump d off f n).pair = d.pair := rfl
@[simp] theorem bump_mdh (d : Dev) (off : Nat) (f : Fld) (n : Nat) : (bump d off f n).mdh = d.mdh := rfl
@[simp] theorem bump_gpio (d : Dev) (off : Nat) (f : Fld) (n : Nat) : (bump d off f n).gpio = d.gpio := rfl
@[simp] theorem bump_freeCtr (d : Dev) (off : Nat) (f : Fld) (n : Nat) : (bump d off f n).freeCtr = d.freeCtr := rfl
@[simp] theorem bump_out (d : Dev) (off : Nat) (f : Fld) (n : Nat) : (bump d off f n).out = d.out := rfl

/-! ### onRing -/

@[simp] theorem onRing_dt (d : Dev) (n r : Nat) (g : RingSt → RingSt) : (onRing d n r g).dt = d.dt := rfl
@[simp] theorem onRing_heritage (d : Dev) (n r : Nat) (g : RingSt → RingSt) : (onRing d n r g).heritage = d.heritage := rfl
@[simp] theorem onRing_seatB (d : Dev) (n r : Nat) (g : RingSt → RingSt) : (onRing d n r g).seatB = d.seatB := rfl
@[simp] theorem onRing_bootMode (d : Dev) (n r : Nat) (g : RingSt → RingSt) : (onRing d n r g).bootMode = d.bootMode := rfl
@[simp] theorem onRing_dramUnits (d : Dev) (n r : Nat) (g : RingSt → RingSt) : (onRing d n r g).dramUnits = d.dramUnits := rfl
@[simp] theorem onRing_regs (d : Dev) (n r : Nat) (g : RingSt → RingSt) : (onRing d n r g).regs = d.regs := rfl
@[simp] theorem onRing_stg (d : Dev) (n r : Nat) (g : RingSt → RingSt) : (onRing d n r g).stg = d.stg := rfl
@[simp] theorem onRing_stgSI (d : Dev) (n r : Nat) (g : RingSt → RingSt) : (onRing d n r g).stgSI = d.stgSI := rfl
@[simp] theorem onRing_dram (d : Dev) (n r : Nat) (g : RingSt → RingSt) : (onRing d n r g).dram = d.dram := rfl
@[simp] theorem onRing_dramFree (d : Dev) (n r : Nat) (g : RingSt → RingSt) : (onRing d n r g).dramFree = d.dramFree := rfl
@[simp] theorem onRing_tt (d : Dev) (n r : Nat) (g : RingSt → RingSt) : (onRing d n r g).tt = d.tt := rfl
@[simp] theorem onRing_dirty (d : Dev) (n r : Nat) (g : RingSt → RingSt) : (onRing d n r g).dirty = d.dirty := rfl
@[simp] theorem onRing_pt (d : Dev) (n r : Nat) (g : RingSt → RingSt) : (onRing d n r g).pt = d.pt := rfl
@[simp] theorem onRing_ptSel (d : Dev) (n r : Nat) (g : RingSt → RingSt) : (onRing d n r g).ptSel = d.ptSel := rfl
@[simp] theorem onRing_ptStage (d : Dev) (n r : Nat) (g : RingSt → RingSt) : (onRing d n r g).ptStage = d.ptStage := rfl
@[simp] theorem onRing_blobs (d : Dev) (n r : Nat) (g : RingSt → RingSt) : (onRing d n r g).blobs = d.blobs := rfl
@[simp] theorem onRing_vfEnable (d : Dev) (n r : Nat) (g : RingSt → RingSt) : (onRing d n r g).vfEnable = d.vfEnable := rfl
@[simp] theorem onRing_numVfs (d : Dev) (n r : Nat) (g : RingSt → RingSt) : (onRing d n r g).numVfs = d.numVfs := rfl
@[simp] theorem onRing_plat (d : Dev) (n r : Nat) (g : RingSt → RingSt) : (onRing d n r g).plat = d.plat := rfl
@[simp] theorem onRing_commits (d : Dev) (n r : Nat) (g : RingSt → RingSt) : (onRing d n r g).commits = d.commits := rfl
@[simp] theorem onRing_nextCommit (d : Dev) (n r : Nat) (g : RingSt → RingSt) : (onRing d n r g).nextCommit = d.nextCommit := rfl
@[simp] theorem onRing_accept (d : Dev) (n r : Nat) (g : RingSt → RingSt) : (onRing d n r g).accept = d.accept := rfl
@[simp] theorem onRing_err (d : Dev) (n r : Nat) (g : RingSt → RingSt) : (onRing d n r g).err = d.err := rfl
@[simp] theorem onRing_ctr (d : Dev) (n r : Nat) (g : RingSt → RingSt) : (onRing d n r g).ctr = d.ctr := rfl
@[simp] theorem onRing_buf (d : Dev) (n r : Nat) (g : RingSt → RingSt) : (onRing d n r g).buf = d.buf := rfl
@[simp] theorem onRing_gpu (d : Dev) (n r : Nat) (g : RingSt → RingSt) : (onRing d n r g).gpu = d.gpu := rfl
@[simp] theorem onRing_comp (d : Dev) (n r : Nat) (g : RingSt → RingSt) : (onRing d n r g).comp = d.comp := rfl
@[simp] theorem onRing_scan (d : Dev) (n r : Nat) (g : RingSt → RingSt) : (onRing d n r g).scan = d.scan := rfl
@[simp] theorem onRing_hap (d : Dev) (n r : Nat) (g : RingSt → RingSt) : (onRing d n r g).hap = d.hap := rfl
@[simp] theorem onRing_touch (d : Dev) (n r : Nat) (g : RingSt → RingSt) : (onRing d n r g).touch = d.touch := rfl
@[simp] theorem onRing_audio (d : Dev) (n r : Nat) (g : RingSt → RingSt) : (onRing d n r g).audio = d.audio := rfl
@[simp] theorem onRing_bells (d : Dev) (n r : Nat) (g : RingSt → RingSt) : (onRing d n r g).bells = d.bells := rfl
@[simp] theorem onRing_pm (d : Dev) (n r : Nat) (g : RingSt → RingSt) : (onRing d n r g).pm = d.pm := rfl
@[simp] theorem onRing_safe (d : Dev) (n r : Nat) (g : RingSt → RingSt) : (onRing d n r g).safe = d.safe := rfl
@[simp] theorem onRing_pair (d : Dev) (n r : Nat) (g : RingSt → RingSt) : (onRing d n r g).pair = d.pair := rfl
@[simp] theorem onRing_mdh (d : Dev) (n r : Nat) (g : RingSt → RingSt) : (onRing d n r g).mdh = d.mdh := rfl
@[simp] theorem onRing_gpio (d : Dev) (n r : Nat) (g : RingSt → RingSt) : (onRing d n r g).gpio = d.gpio := rfl
@[simp] theorem onRing_freeCtr (d : Dev) (n r : Nat) (g : RingSt → RingSt) : (onRing d n r g).freeCtr = d.freeCtr := rfl
@[simp] theorem onRing_out (d : Dev) (n r : Nat) (g : RingSt → RingSt) : (onRing d n r g).out = d.out := rfl

/-! ### onVec -/

@[simp] theorem onVec_dt (d : Dev) (n v : Nat) (g : VecRun → VecRun) : (onVec d n v g).dt = d.dt := rfl
@[simp] theorem onVec_heritage (d : Dev) (n v : Nat) (g : VecRun → VecRun) : (onVec d n v g).heritage = d.heritage := rfl
@[simp] theorem onVec_seatB (d : Dev) (n v : Nat) (g : VecRun → VecRun) : (onVec d n v g).seatB = d.seatB := rfl
@[simp] theorem onVec_bootMode (d : Dev) (n v : Nat) (g : VecRun → VecRun) : (onVec d n v g).bootMode = d.bootMode := rfl
@[simp] theorem onVec_dramUnits (d : Dev) (n v : Nat) (g : VecRun → VecRun) : (onVec d n v g).dramUnits = d.dramUnits := rfl
@[simp] theorem onVec_regs (d : Dev) (n v : Nat) (g : VecRun → VecRun) : (onVec d n v g).regs = d.regs := rfl
@[simp] theorem onVec_stg (d : Dev) (n v : Nat) (g : VecRun → VecRun) : (onVec d n v g).stg = d.stg := rfl
@[simp] theorem onVec_stgSI (d : Dev) (n v : Nat) (g : VecRun → VecRun) : (onVec d n v g).stgSI = d.stgSI := rfl
@[simp] theorem onVec_dram (d : Dev) (n v : Nat) (g : VecRun → VecRun) : (onVec d n v g).dram = d.dram := rfl
@[simp] theorem onVec_dramFree (d : Dev) (n v : Nat) (g : VecRun → VecRun) : (onVec d n v g).dramFree = d.dramFree := rfl
@[simp] theorem onVec_tt (d : Dev) (n v : Nat) (g : VecRun → VecRun) : (onVec d n v g).tt = d.tt := rfl
@[simp] theorem onVec_dirty (d : Dev) (n v : Nat) (g : VecRun → VecRun) : (onVec d n v g).dirty = d.dirty := rfl
@[simp] theorem onVec_pt (d : Dev) (n v : Nat) (g : VecRun → VecRun) : (onVec d n v g).pt = d.pt := rfl
@[simp] theorem onVec_ptSel (d : Dev) (n v : Nat) (g : VecRun → VecRun) : (onVec d n v g).ptSel = d.ptSel := rfl
@[simp] theorem onVec_ptStage (d : Dev) (n v : Nat) (g : VecRun → VecRun) : (onVec d n v g).ptStage = d.ptStage := rfl
@[simp] theorem onVec_blobs (d : Dev) (n v : Nat) (g : VecRun → VecRun) : (onVec d n v g).blobs = d.blobs := rfl
@[simp] theorem onVec_vfEnable (d : Dev) (n v : Nat) (g : VecRun → VecRun) : (onVec d n v g).vfEnable = d.vfEnable := rfl
@[simp] theorem onVec_numVfs (d : Dev) (n v : Nat) (g : VecRun → VecRun) : (onVec d n v g).numVfs = d.numVfs := rfl
@[simp] theorem onVec_plat (d : Dev) (n v : Nat) (g : VecRun → VecRun) : (onVec d n v g).plat = d.plat := rfl
@[simp] theorem onVec_commits (d : Dev) (n v : Nat) (g : VecRun → VecRun) : (onVec d n v g).commits = d.commits := rfl
@[simp] theorem onVec_nextCommit (d : Dev) (n v : Nat) (g : VecRun → VecRun) : (onVec d n v g).nextCommit = d.nextCommit := rfl
@[simp] theorem onVec_accept (d : Dev) (n v : Nat) (g : VecRun → VecRun) : (onVec d n v g).accept = d.accept := rfl
@[simp] theorem onVec_err (d : Dev) (n v : Nat) (g : VecRun → VecRun) : (onVec d n v g).err = d.err := rfl
@[simp] theorem onVec_ctr (d : Dev) (n v : Nat) (g : VecRun → VecRun) : (onVec d n v g).ctr = d.ctr := rfl
@[simp] theorem onVec_buf (d : Dev) (n v : Nat) (g : VecRun → VecRun) : (onVec d n v g).buf = d.buf := rfl
@[simp] theorem onVec_gpu (d : Dev) (n v : Nat) (g : VecRun → VecRun) : (onVec d n v g).gpu = d.gpu := rfl
@[simp] theorem onVec_comp (d : Dev) (n v : Nat) (g : VecRun → VecRun) : (onVec d n v g).comp = d.comp := rfl
@[simp] theorem onVec_scan (d : Dev) (n v : Nat) (g : VecRun → VecRun) : (onVec d n v g).scan = d.scan := rfl
@[simp] theorem onVec_hap (d : Dev) (n v : Nat) (g : VecRun → VecRun) : (onVec d n v g).hap = d.hap := rfl
@[simp] theorem onVec_touch (d : Dev) (n v : Nat) (g : VecRun → VecRun) : (onVec d n v g).touch = d.touch := rfl
@[simp] theorem onVec_audio (d : Dev) (n v : Nat) (g : VecRun → VecRun) : (onVec d n v g).audio = d.audio := rfl
@[simp] theorem onVec_bells (d : Dev) (n v : Nat) (g : VecRun → VecRun) : (onVec d n v g).bells = d.bells := rfl
@[simp] theorem onVec_pm (d : Dev) (n v : Nat) (g : VecRun → VecRun) : (onVec d n v g).pm = d.pm := rfl
@[simp] theorem onVec_safe (d : Dev) (n v : Nat) (g : VecRun → VecRun) : (onVec d n v g).safe = d.safe := rfl
@[simp] theorem onVec_pair (d : Dev) (n v : Nat) (g : VecRun → VecRun) : (onVec d n v g).pair = d.pair := rfl
@[simp] theorem onVec_mdh (d : Dev) (n v : Nat) (g : VecRun → VecRun) : (onVec d n v g).mdh = d.mdh := rfl
@[simp] theorem onVec_gpio (d : Dev) (n v : Nat) (g : VecRun → VecRun) : (onVec d n v g).gpio = d.gpio := rfl
@[simp] theorem onVec_freeCtr (d : Dev) (n v : Nat) (g : VecRun → VecRun) : (onVec d n v g).freeCtr = d.freeCtr := rfl
@[simp] theorem onVec_out (d : Dev) (n v : Nat) (g : VecRun → VecRun) : (onVec d n v g).out = d.out := rfl

/-! ### onLive -/

@[simp] theorem onLive_dt (d : Dev) (n r i : Nat) (g : Desc → Desc) : (onLive d n r i g).dt = d.dt := rfl
@[simp] theorem onLive_heritage (d : Dev) (n r i : Nat) (g : Desc → Desc) : (onLive d n r i g).heritage = d.heritage := rfl
@[simp] theorem onLive_seatB (d : Dev) (n r i : Nat) (g : Desc → Desc) : (onLive d n r i g).seatB = d.seatB := rfl
@[simp] theorem onLive_bootMode (d : Dev) (n r i : Nat) (g : Desc → Desc) : (onLive d n r i g).bootMode = d.bootMode := rfl
@[simp] theorem onLive_dramUnits (d : Dev) (n r i : Nat) (g : Desc → Desc) : (onLive d n r i g).dramUnits = d.dramUnits := rfl
@[simp] theorem onLive_regs (d : Dev) (n r i : Nat) (g : Desc → Desc) : (onLive d n r i g).regs = d.regs := rfl
@[simp] theorem onLive_stg (d : Dev) (n r i : Nat) (g : Desc → Desc) : (onLive d n r i g).stg = d.stg := rfl
@[simp] theorem onLive_stgSI (d : Dev) (n r i : Nat) (g : Desc → Desc) : (onLive d n r i g).stgSI = d.stgSI := rfl
@[simp] theorem onLive_dram (d : Dev) (n r i : Nat) (g : Desc → Desc) : (onLive d n r i g).dram = d.dram := rfl
@[simp] theorem onLive_dramFree (d : Dev) (n r i : Nat) (g : Desc → Desc) : (onLive d n r i g).dramFree = d.dramFree := rfl
@[simp] theorem onLive_tt (d : Dev) (n r i : Nat) (g : Desc → Desc) : (onLive d n r i g).tt = d.tt := rfl
@[simp] theorem onLive_dirty (d : Dev) (n r i : Nat) (g : Desc → Desc) : (onLive d n r i g).dirty = d.dirty := rfl
@[simp] theorem onLive_pt (d : Dev) (n r i : Nat) (g : Desc → Desc) : (onLive d n r i g).pt = d.pt := rfl
@[simp] theorem onLive_ptSel (d : Dev) (n r i : Nat) (g : Desc → Desc) : (onLive d n r i g).ptSel = d.ptSel := rfl
@[simp] theorem onLive_ptStage (d : Dev) (n r i : Nat) (g : Desc → Desc) : (onLive d n r i g).ptStage = d.ptStage := rfl
@[simp] theorem onLive_blobs (d : Dev) (n r i : Nat) (g : Desc → Desc) : (onLive d n r i g).blobs = d.blobs := rfl
@[simp] theorem onLive_vfEnable (d : Dev) (n r i : Nat) (g : Desc → Desc) : (onLive d n r i g).vfEnable = d.vfEnable := rfl
@[simp] theorem onLive_numVfs (d : Dev) (n r i : Nat) (g : Desc → Desc) : (onLive d n r i g).numVfs = d.numVfs := rfl
@[simp] theorem onLive_plat (d : Dev) (n r i : Nat) (g : Desc → Desc) : (onLive d n r i g).plat = d.plat := rfl
@[simp] theorem onLive_commits (d : Dev) (n r i : Nat) (g : Desc → Desc) : (onLive d n r i g).commits = d.commits := rfl
@[simp] theorem onLive_nextCommit (d : Dev) (n r i : Nat) (g : Desc → Desc) : (onLive d n r i g).nextCommit = d.nextCommit := rfl
@[simp] theorem onLive_accept (d : Dev) (n r i : Nat) (g : Desc → Desc) : (onLive d n r i g).accept = d.accept := rfl
@[simp] theorem onLive_err (d : Dev) (n r i : Nat) (g : Desc → Desc) : (onLive d n r i g).err = d.err := rfl
@[simp] theorem onLive_ctr (d : Dev) (n r i : Nat) (g : Desc → Desc) : (onLive d n r i g).ctr = d.ctr := rfl
@[simp] theorem onLive_buf (d : Dev) (n r i : Nat) (g : Desc → Desc) : (onLive d n r i g).buf = d.buf := rfl
@[simp] theorem onLive_gpu (d : Dev) (n r i : Nat) (g : Desc → Desc) : (onLive d n r i g).gpu = d.gpu := rfl
@[simp] theorem onLive_comp (d : Dev) (n r i : Nat) (g : Desc → Desc) : (onLive d n r i g).comp = d.comp := rfl
@[simp] theorem onLive_scan (d : Dev) (n r i : Nat) (g : Desc → Desc) : (onLive d n r i g).scan = d.scan := rfl
@[simp] theorem onLive_hap (d : Dev) (n r i : Nat) (g : Desc → Desc) : (onLive d n r i g).hap = d.hap := rfl
@[simp] theorem onLive_touch (d : Dev) (n r i : Nat) (g : Desc → Desc) : (onLive d n r i g).touch = d.touch := rfl
@[simp] theorem onLive_audio (d : Dev) (n r i : Nat) (g : Desc → Desc) : (onLive d n r i g).audio = d.audio := rfl
@[simp] theorem onLive_bells (d : Dev) (n r i : Nat) (g : Desc → Desc) : (onLive d n r i g).bells = d.bells := rfl
@[simp] theorem onLive_pm (d : Dev) (n r i : Nat) (g : Desc → Desc) : (onLive d n r i g).pm = d.pm := rfl
@[simp] theorem onLive_safe (d : Dev) (n r i : Nat) (g : Desc → Desc) : (onLive d n r i g).safe = d.safe := rfl
@[simp] theorem onLive_pair (d : Dev) (n r i : Nat) (g : Desc → Desc) : (onLive d n r i g).pair = d.pair := rfl
@[simp] theorem onLive_mdh (d : Dev) (n r i : Nat) (g : Desc → Desc) : (onLive d n r i g).mdh = d.mdh := rfl
@[simp] theorem onLive_gpio (d : Dev) (n r i : Nat) (g : Desc → Desc) : (onLive d n r i g).gpio = d.gpio := rfl
@[simp] theorem onLive_freeCtr (d : Dev) (n r i : Nat) (g : Desc → Desc) : (onLive d n r i g).freeCtr = d.freeCtr := rfl
@[simp] theorem onLive_out (d : Dev) (n r i : Nat) (g : Desc → Desc) : (onLive d n r i g).out = d.out := rfl

end Sys2Proof.Machine
end

