-- ==== Sys2Proof/Laws/Writes.lean ====
section
/-! SUPPORT. The checked register writes, once for all: what they give when the write is done, and what the write of
SF_CAUTION then does. -/

namespace Sys2Proof.Machine

/-- Writing one register leaves every other as it reads. -/
theorem rd_wr_ne (d : Dev) (o o' : Nat) (v : Word) (h : o' ≠ o) : rd (wr d o v) o' = rd d o' := by
  unfold rd wr
  dsimp only
  split
  · have e : SMap.find? (SMap.erase d.regs o) o' = SMap.find? d.regs o' := by
      generalize d.regs = m
      induction m with
      | nil => rfl
      | cons p m ih =>
        obtain ⟨k, x⟩ := p
        simp only [SMap.erase]
        split
        · rename_i e; subst e; simp [SMap.find?, h]
        · simp only [SMap.find?, ih]
    rw [e]
  · rw [SMap.find?_insert]; simp [h]

theorem rd_fs_ne (d : Dev) (o o' : Nat) (f : Fld) (v : Nat) (h : o' ≠ o) : rd (fs d o f v) o' = rd d o' :=
  rd_wr_ne _ _ _ _ h

/-- The newest record of the error log after an error. -/
theorem logErr_head (d : Dev) (c m a : Nat) (v : Word) (s : Bool) : ∃ x es,
    (logErr d c m a v s).err.recs = x :: es ∧ x.cause = c ∧ x.mid = m ∧ x.addr = a := by
  have hw : ∀ e : Dev, e.err.recs = ({ cause := c, mid := m, count := 1, addr := a, data := v, dt := d.dt, last := d.dt, seq := (d.err.seq + 1) % 2 ^ 32, secure := s } :: d.err.recs).take 256 →
      ∃ x es, e.err.recs = x :: es ∧ x.cause = c ∧ x.mid = m ∧ x.addr = a := by
    intro e he
    exact ⟨_, _, he, rfl, rfl, rfl⟩
  unfold logErr
  dsimp only
  split
  · refine hw _ ?_
    show (if d.err.recs.length ≥ 256 then _ else _ : Dev).err.recs = _
    split <;> rfl
  · split
    · rename_i h
      exact ⟨_, _, rfl, h.1, h.2.1, h.2.2.1⟩
    · refine hw _ ?_
      show (if d.err.recs.length ≥ 256 then _ else _ : Dev).err.recs = _
      split <;> rfl

/-- An access to a domain changes the state word of that domain and what wakes, and nothing else. -/
theorem serveDomain_eq (d : Dev) (k : Nat) : ∃ pm x, (serveDomain d k).1 = wr { d with pm := pm } (PM_DOM_STAT k) x ∨
    (serveDomain d k).1 = { d with pm := pm } := by
  unfold serveDomain
  split
  · exact ⟨d.pm, 0, .inr rfl⟩
  split
  · exact ⟨_, _, .inl rfl⟩
  · unfold startWake
    split
    · exact ⟨d.pm, 0, .inr rfl⟩
    · exact ⟨_, 0, .inr rfl⟩

/-- Everything that a register write can do: it does not reach the registers, its domain sleeps, it is refused and recorded,
or the row takes it. -/
theorem regWrite_cases (a : Acc) (off : Nat) (v : Word) (d : Dev) :
    (reachesBar0 a = false ∧ regWrite a off v d = (d, .discarded)) ∨
    ((serveDomain d (domOf off)).2 = false ∧ regWrite a off v d = ((serveDomain d (domOf off)).1, .discarded)) ∨
    (∃ c, regRefusal a off v (serveDomain d (domOf off)).1 = some c ∧
      regWrite a off v d = (logErr (serveDomain d (domOf off)).1 c.1 a.mid.toNat off v c.2, .discarded)) ∨
    (∃ r k, rowOf off = some (r, k) ∧ regRefusal a off v (serveDomain d (domOf off)).1 = none ∧
      regWrite a off v d = regTake a off v (serveDomain d (domOf off)).1 r) := by
  unfold regWrite
  cases h0 : reachesBar0 a
  · exact .inl ⟨rfl, rfl⟩
  cases h1 : (serveDomain d (domOf off)).2
  · exact .inr (.inl ⟨rfl, rfl⟩)
  cases h2 : regRefusal a off v (serveDomain d (domOf off)).1 with
  | some c => exact .inr (.inr (.inl ⟨c, rfl, by simp only [Bool.not_true, Bool.false_eq_true, if_false, h2]⟩))
  | none =>
    cases h3 : rowOf off with
    | none => simp [regRefusal, h3] at h2; grind
    | some x => exact .inr (.inr (.inr ⟨x.1, x.2, rfl, rfl, by simp only [Bool.not_true, Bool.false_eq_true, if_false, h2]⟩))

/-- A checked write that nothing turns away is the plain write. -/
theorem guardWrite_done {a : Acc} {off : Nat} {v n : Word} {d0 d : Dev} (h : Written d0 a off v d n)
    {bad : Word → Option Nat} (hb : bad n = none) : guardWrite a off v bad d0 = (d, .done n) := by
  unfold Written at h
  simp only [guardWrite, h, hb]

/-- A checked write whose check names a cause is discarded and logged with that cause. -/
theorem guardWrite_bad {a : Acc} {off : Nat} {v n : Word} {d0 d : Dev} (h : Written d0 a off v d n)
    {bad : Word → Option Nat} {c : Nat} (hb : bad n = some c) : guardWrite a off v bad d0 =
      (logErr (serveDomain d0 (domOf off)).1 c a.mid.toNat off v a.secure, .discarded) := by
  unfold Written at h
  simp only [guardWrite, h, hb]

/-- A masked write that is done keeps the register's own word. -/
theorem maskedWrite_done {a : Acc} {off : Nat} {v n : Word} {d0 d : Dev} (h : Written d0 a off v d n) :
    maskedWrite a off v d0 = (wr d off (rd d0 off), true) := by
  unfold Written at h
  simp only [maskedWrite, h]

/-- A write of SF_CAUTION that is done takes its requests. -/
theorem cautionWrite_done {a : Acc} {v n : Word} {d0 d : Dev} (h : Written d0 a SF_CAUTION v d n)
    (hb : cautionBad d0 v = none) : cautionWrite a v d0 = cautionTaken (rd d0 SF_CAUTION) v d := by
  have hg := guardWrite_done (bad := fun _ => cautionBad d0 v) h hb
  unfold cautionWrite
  rw [hg]

/-- The request to enter Caution. -/
theorem cautionTaken_enter {was v : Word} {d : Dev} (h : bit v 31 = true) : cautionTaken was v d =
    enterCaution (fs (fs d SF_CAUTION SF_CAUTION_ENTER (bits was 31 31)) SF_CAUTION SF_CAUTION_EXIT (bits was 30 30)) 0 := by
  unfold cautionTaken
  exact if_pos h

/-- The request to leave Caution. -/
theorem cautionTaken_exit {was v : Word} {d : Dev} (h : bit v 31 = false) (h2 : bit v 30 = true) (h3 : modeOf d = mCAU) :
    cautionTaken was v d = leaveCaution (cautionGpu
      (fs (fs d SF_CAUTION SF_CAUTION_ENTER (bits was 31 31)) SF_CAUTION SF_CAUTION_EXIT (bits was 30 30))) := by
  have h' : ¬ bit v 31 = true := by simp [h]
  unfold cautionTaken
  exact (if_neg h').trans ((if_pos h3).trans (if_pos h2))

end Sys2Proof.Machine
end

