-- ==== Sys2Proof/WellFormed.lean ====
section
/-! DEFINITION. When a command is well formed: its register offset is a whole word inside its space (R10, R20, R21), its
raster position fits the counters (R50), and the data that comes with it has the size the rules give. -/

namespace Sys2Proof

/-- An offset is the place of a whole word of its space (R20: BAR0 is 2 MiB; R21: a VF page is 64 KiB; R115: a BAR4 is 64 KiB; R458: the MDH-8
map is the first 256 bytes). -/
def Space.offOk (sp : Space) (off : Word) : Bool :=
  decide (off.toNat % 4 = 0) &&
  match sp with
  | .bar0 => decide (off.toNat < 2 ^ 21)
  | .vf f => decide (off.toNat < 2 ^ 16) && decide (f ≠ 0)
  | .bar4 _ => decide (off.toNat < 2 ^ 16)
  | .mdh => decide (off.toNat < 2 ^ 16)

/-- A raster position fits the frame, line and pixel counters (R50). -/
def posOk (frame line : Nat) : Bool := decide (frame < 2 ^ 32) && decide (line < 2 ^ 16)

/-- The well-formed commands. -/
def Instr.wellFormed (i : Instr) : Bool :=
  match i with
  | .registerWrite _ sp off _ => sp.offOk off
  | .readClear _ sp off => sp.offOk off
  | .stripComposeBegin _ f l _ => posOk f l
  | .commitLand _ f l => posOk f l
  | .stripComposeDone _ f l _ => posOk f l
  | .stripCheckpoint _ f l _ => posOk f l
  | .fallbackStrip _ f l => posOk f l
  | .fetchFault _ _ f l _ => posOk f l
  | .mdhShadowWrite _ off _ => Space.offOk .mdh off
  | .auxReply _ (.ack bytes) => decide (bytes.length ≤ 16)
  | .tunnelSegment _ bytes => decide (bytes.length ≤ 65536)
  | .apertureAccess _ _ len => decide (1 ≤ len) && decide (len ≤ 4096)
  | .descriptorArrive _ _ n _ => decide (1 ≤ n) && decide (n ≤ 8)
  | .underflow _ line x => posOk 0 line && decide (x < 2 ^ 16)
  | _ => true

end Sys2Proof
end

