-- ==== Sys2Proof/Tests/Slice0.lean ====
section
/-! SUPPORT. The session's own tests: what WellFormed refuses, single steps with values taken from the spec's tables, and for
the statements a concrete state and operands that meet their hypotheses. -/

namespace Sys2Proof.Tests

open Sys2Proof Sys2Proof.Machine

set_option maxRecDepth 100000

/-! ### WellFormed: each check with a command that it refuses -/

/-- F0's access, all bytes, not secure. -/
def f0 : Acc := { mid := 0, secure := false, be := 0xF }

theorem test_wf_offset_is_a_word : Instr.wellFormed (.registerWrite f0 .bar0 0x12 0) = false := by decide
theorem test_wf_offset_in_bar0 : Instr.wellFormed (.readClear f0 .bar0 0x200000) = false := by decide
theorem test_wf_offset_in_vf_page : Instr.wellFormed (.registerWrite f0 (.vf 3) 0x10000 0) = false := by decide
theorem test_wf_vf_is_not_f0 : Instr.wellFormed (.readClear f0 (.vf 0) 0x4000) = false := by decide
theorem test_wf_mdh_offset : Instr.wellFormed (.mdhShadowWrite 0xF 0x10000 0) = false := by decide
theorem test_wf_frame_fits : Instr.wellFormed (.commitLand 0 4294967296 0) = false := by decide
theorem test_wf_line_fits : Instr.wellFormed (.fallbackStrip 0 0 65536) = false ∧
    Instr.wellFormed (.stripComposeBegin 0 0 65536 []) = false ∧ Instr.wellFormed (.stripComposeDone 0 0 65536 []) = false ∧
    Instr.wellFormed (.stripCheckpoint 0 0 65536 0) = false ∧ Instr.wellFormed (.fetchFault 0 .ecc 0 65536 0) = false := by
  decide
theorem test_wf_aux_reply_bytes : Instr.wellFormed (.auxReply 0 (.ack (List.replicate 17 0))) = false := by decide
theorem test_wf_aperture_length : Instr.wellFormed (.apertureAccess 0 none 0) = false ∧
    Instr.wellFormed (.apertureAccess 0 none 4097) = false := by decide
theorem test_wf_fetch_count : Instr.wellFormed (.descriptorArrive 0 0 0 ⟨[], false, false⟩) = false ∧
    Instr.wellFormed (.descriptorArrive 0 0 9 ⟨[], false, false⟩) = false := by decide
theorem test_wf_underflow_place : Instr.wellFormed (.underflow 0 65536 0) = false ∧
    Instr.wellFormed (.underflow 0 0 65536) = false := by decide
theorem test_wf_tunnel_bytes (bs : List Byte) (h : 65536 < bs.length) : Instr.wellFormed (.tunnelSegment 0 bs) = false := by
  simp only [Instr.wellFormed, decide_eq_false_iff_not]; omega
theorem test_wf_takes : Instr.wellFormed (.registerWrite f0 .bar0 0x10 0) = true ∧
    Instr.wellFormed (.descriptorArrive 0 0 8 ⟨[], false, false⟩) = true ∧ Instr.wellFormed (.coldReset ⟨false, false, 0⟩) = true := by
  decide

/-! ### Witnesses: states and operands that meet the hypotheses of the statements -/

/-- A state with an empty queue. -/
def st (d : Dev) : State := { pending := [], dev := d }

/-- The device after reset. -/
def base : Dev := Dev.reset

/-- A full access of a master. -/
def by' (m : Nat) : Acc := { mid := BitVec.ofNat 8 m, secure := m == 0x24, be := 0xF }

/-- The sixteen words of a descriptor: its opcode, and body words by byte offset. -/
def words (op : Nat) (body : List (Nat × Nat)) : List Word :=
  (List.range 16).map (fun k => BitVec.ofNat 32 (if k = 0 then op else ((body.find? (fun p => p.1 == 4 * k)).map (fun p => p.2)).getD 0))

/-- The device with function f ENABLED and its ring r ACTIVE, of a type, with one fetched descriptor. -/
def ringed (d : Dev) (f r t : Nat) (ws : List Word) : Dev :=
  let q : Desc := { idx := 0, words := ws, chain := [], mem := [], cp := none, seq := 0, stage := 0, link := none }
  onRing (if f = 0 then d else setFnState d f 1) f r (fun _ =>
    { (default : RingSt) with state := .active, entry := { (default : RingEntry) with type := t }, queue := [q] })

/-- The word that a write leaves. -/
def doneWord : WriteRes → Word
  | .done n => n
  | _ => 0

def isDone : WriteRes → Bool
  | .done _ => true
  | _ => false

theorem wOk {a : Acc} {off : Nat} {v : Word} {d : Dev} (h : isDone (regWrite a off v d).2 = true) :
    Written d a off v (regWrite a off v d).1 (doneWord (regWrite a off v d).2) := by
  unfold Written
  cases hr : regWrite a off v d with
  | mk e r =>
    rw [hr] at h
    cases r with
    | done n => rfl
    | discarded => cases h
    | staged => cases h

theorem pairOk {α β : Type} {x : α × β} {y : β} (h : x.2 = y) : x = (x.1, y) := by rw [← h]

theorem optOk {α : Type} {x : Option α} (h : x.isSome = true) : x = some (x.get h) := (Option.some_get h).symm

theorem rowOk {α β : Type} {x : Option (α × β)} (h : x.isSome = true) : x = some ((x.get h).1, (x.get h).2) :=
  (Option.some_get h).symm

/-- The words that a read of memory answers. -/
def readWords : ReadRes → List Word
  | .words ws => ws
  | _ => []

def isWords : ReadRes → Bool
  | .words _ => true
  | _ => false

theorem memOk {x : Dev × ReadRes} (h : isWords x.2 = true) : x = (x.1, .words (readWords x.2)) := by
  obtain ⟨d, r⟩ := x
  cases r with
  | words ws => rfl
  | fault => cases h
  | ecc => cases h

theorem runsOk {d : Dev} {f r key : Nat} {m : List MemIn} {chk : Dev → Nat → Nat → Desc → Option (Nat × Nat)}
    (h : (starts d f r key m chk).any (fun q => decide (boundTo q = none)) = true) :
    Runs d f r key m chk ((starts d f r key m chk).getD default) (beginDesc d f r ((starts d f r key m chk).getD default)) := by
  unfold Runs
  cases hs : starts d f r key m chk with
  | none => rw [hs] at h; cases h
  | some q => rw [hs] at h; exact ⟨rfl, of_decide_eq_true h, rfl⟩

theorem pktOk {d : Dev} {c code : Nat} {w : List Word}
    (h : (gctx d c).job.any (fun j => decide ((gctx d c).state = 2) && (j.call.isSome || decide (j.off < j.dwords)) &&
      decide (w ≠ []) && decide (bits (wd w 0) 31 24 = code) && decide (bits (wd w 0) 23 16 = 0) && !pktBeyond j (pktN w) &&
      decide (w.length = pktN w + 1)) = true) : Packet d c code w ((gctx d c).job.getD default) := by
  unfold Packet
  cases hj : (gctx d c).job with
  | none => rw [hj] at h; cases h
  | some j =>
    rw [hj] at h
    simp only [Option.any_some, Bool.and_eq_true, decide_eq_true_eq, Bool.or_eq_true, Bool.not_eq_true'] at h
    exact ⟨rfl, h.1.1.1.1.1.1, h.1.1.1.1.1.2, h.1.1.1.1.2, h.1.1.1.2, h.1.1.2, h.1.2, h.2⟩

/-- A raster of 100 lines of 100 pixels of 100 ns, 64 lines of 64 active. -/
def rast : Raster :=
  { had := true, virt := false, fRef := 0, lRef := 0, dtRef := 0, vtot := 100, htot := 100, vact := 64, hact := 64, pxNum := 100 }

/-- The device with a raster on platform 0. -/
def lit : Dev := setRaster base 0 rast

/-- A commit of F0 that lands on platform 0 at line 0 of frame 0. -/
def aCommit : Commit :=
  { id := 1, fn := 0, src := .staged, anchor := 0, group := 1, cp := none, strict := false, devWide := false, held := false,
    bound := true, items := [], land := [(0, 0, 0, 0)], landed := [], link := none }

/-- What platform 0 keeps, changed. -/
def onP0 (d : Dev) (g : PlatRun → PlatRun) : Dev := onPlat d 0 g

/-- Layer 5 of the device ACTIVE. -/
def layered : Dev := fs base (CM_LAYER_LSTAT 5) CM_LAYER_LSTAT_STATE 1

/-- A DT point that is enabled, armed, and due at 50 ns. -/
def pointed (deferred : Bool) : Dev :=
  { base with tt := { base.tt with
      cps := [(7, { (default : CpEntry) with en := true, basis := .dt, trig := 50 })],
      run := [(7, { written := 0, armed := true, deferred := deferred, waiting := false, due := 50 })] } }

/-- Framelock of platform 0 enabled with a source. -/
def flocked (jump : Nat) : Dev := wr lit (TT_FL_CTRL 0) (BitVec.ofNat 32 (2 ^ 31 + jump * 2 ^ 30 + 2 ^ 28))

/-- The device with an address map for function f: the first GiB goes to host memory and the second to the second GiB of
DRAM, each by one block. -/
def mapped (f : Nat) (d : Dev) : Dev :=
  let d1 := wr (fs (fs d (MM_CTRL f) MM_CTRL_EN 1) (MM_CTRL f) MM_CTRL_SELF 1) (MM_ROOT_LO f) 0x10000
  { d1 with dram := [(0x10000, 0x03), (0x10001, 0x10), (0x10002, 0x01), (0x11000, 0x0D), (0x11007, 0x20), (0x11008, 0x0D),
                     (0x1100B, 0x40)] }

/-- Host memory that answers these words. -/
def mem (ws : List Word) : MemIn := { data := ws, ecc := false, ats := false }

/-- Ring 0 of F0 with its doorbell record being read. -/
def reading (tries : Nat) : Dev := onRing (mapped 0 base) 0 0 (fun x => { x with state := .active, reading := true, tries := tries })

/-- A context 0 of F0 that runs a job with 100 words of its stream left. -/
def jobbed (g : JobRun → JobRun) : Dev :=
  onCtx (mapped 0 base) 0 (fun x => { x with state := 2, job := some (g { (default : JobRun) with dwords := 100 }) })

/-- The same in an open pass without attachments. -/
def passed : Dev := jobbed (fun j => { j with pass := some default })

/-- A packet of a code with its words. -/
def pkt (code : Nat) (ws : List Word) : List Word := BitVec.ofNat 32 (code * 2 ^ 24 + ws.length) :: ws

/-- A context of ring 0 of F0 that is IDLE. -/
def ctxed : Dev := onCtx base (ctxOfRing base 0 0) (fun x => { x with state := 1 })

/-- Buffer entry 4 of F0 LIVE, and a reference of layer 5 to it if asked. -/
def bufd (ref : Bool) : Dev :=
  { mapped 0 base with buf := { base.buf with
      tab := [(4, { (default : BufEntry) with state := 1 })],
      refs := if ref then [{ id := 1, idx := 4, layer := 5, plat := 0, ending := none }] else [] } }

/-- Slot 0 held by context 0, yielding with the end of its grace at 500 ns, or saving since 100 ns. -/
def slotted (save : Bool) : Dev :=
  onSlot base 0 (fun x => { x with ctx := some 0, yields := true, graceEnd := 500, saving := if save then some 100 else none })

/-- An Express context 0 whose job has its deadline at line 5, which is at 50000 ns. -/
def clearing : Dev :=
  onCtx (onRing lit 0 0 (fun x => { x with state := .active, live :=
    [{ idx := 0, words := words 0x10 [(0x10, 2 ^ 28 + 5), (0x20, 4)], chain := [], mem := [], cp := none, seq := 0, stage := 0, link := none }] }))
    0 (fun x => { x with state := 2, express := true, job := some { (default : JobRun) with dwords := 4 } })

/-- Time partition 3 with the raster of platform 0. -/
def partd (w : List Nat) : Dev :=
  let d := fs lit HS_TP_CTRL HS_TP_CTRL_EN 1
  { d with pt := [(48, BitVec.ofNat 32 (2 ^ 31 + 2 ^ 26)), (59, 10)], gpu := { d.gpu with windows := w } }

/-- The device with the raster of platform 0 and the platform enabled. -/
def lit1 : Dev := fs lit (SO_PSTAT 0) SO_PSTAT_STATE 1

/-- Route k changing from a source or from none, with or without a link to train again. -/
def routed (k : Nat) (old : Option Nat) (re : Bool) : Dev :=
  onScan lit1 (fun x => { x with routes := SMap.set x.routes k { on := true, old := old, from0 := 0, retrain := re } })

/-- Port 0 enabled, its state, and the route of its sink 0 from platform 0. -/
def sunk (v : Nat) : Dev :=
  setPortState (wr (wr lit1 (SO_ROUTE 0) 0x80000000) (SO_DP_CFG 0) 0xC0000000) 0 v

/-- An AUX command of port 0 that runs. -/
def auxed (c : Nat) : Dev := fs (fs base (SO_AUX_CMD 0) SO_AUX_CMD_GO 1) (SO_AUX_CMD 0) SO_AUX_CMD_CMD c

/-- A DSI command-mode port 0 whose tearing effect starts platform 0, held at line 5. -/
def torn : Dev :=
  wr (wr (setRaster lit1 0 { rast with hold := some 5 }) (SO_ROUTE 24) 0x80000000) (SO_DS_CFG 0) 0x80800000

/-- What panel t keeps, changed. -/
def panelled (g : PanelRun → PanelRun) : Dev := onPanel (mapped 0 base) 0 g

/-- A contact of panel 0 that the events have told. -/
def held : Contact := { (default : Contact) with id := 3, told := true }

/-- Panel 0 with one configuration word set. -/
def panelWord (d : Dev) (j v : Nat) : Dev := wr d (TC_PANEL 0 j) (BitVec.ofNat 32 v)

/-- Haptic channel 0 PLAYING with its record changed. -/
def humming (v : Nat) (g : HapRun → HapRun) : Dev := setHapState (onHap base 0 g) 0 v

/-- Stream 0 of F0 in a state, its record changed. -/
def streaming (v : Nat) (g : StreamRun → StreamRun) : Dev := setStreamState (onStream (mapped 0 base) 0 g) 0 v

/-- The gain 0 of the first target in a ramp. -/
def ramping (w : Option AuWait) : Dev :=
  onAudio base (fun a => { a with ramps := [(0, { on := true, start := 0, ms := 5, from0 := 0, to0 := 10, wait := w })] })

/-- A bridge 0 that is enabled between two domains that run. -/
def bridged (lock : Nat) : Dev :=
  let d := fs (fs base (AU_DOM_ST 0) AU_DOM_ST_STATE 2) (AU_DOM_ST 1) AU_DOM_ST_STATE 2
  fs (fs d (AU_BRIDGE 0) AU_BRIDGE_EN 1) (AU_BRIDGE_ST 0) AU_BRIDGE_ST_LOCK lock

/-- Channel 0 from F0 to the core 0x20, with the messages given. -/
def belled (ms : List BellMsg) : Dev := onBell (wr base (BL_BIND 0) 0x80C00800) 0 (fun x => { x with msgs := ms })

/-- Token 0 that F0 and the core 0x20 may take. -/
def tokened (h : Option Nat) : Dev :=
  let d := fs (wr base (TK_ALLOW_FN 0) 1) (TK_ALLOW_CORE 0) TK_ALLOW_CORE_CORE 1
  { d with bells := { d.bells with toks := SMap.mod d.bells.toks 0 (fun x => { x with holder := h }) } }

/-- A temperature beyond a level since DT 0. -/
def hot (l : Nat) : Dev := { base with pm := { base.pm with tjOver := [{ level := l, since := 0 }] } }

/-- Function 0 with an SPDM connection and session. -/
def spdm (c s : Nat) : Dev :=
  { base with safe := { base.safe with conn := [(0, c)], sess := [(0, s)], ideKeys := 1 } }

/-- Guard region 0 of platform 0: the first pixel, which composition has given, and the pair's state. -/
def guarded (v : Nat) (banker : Bool) : Dev :=
  let sent := { lit1 with out := [.strip 0 0 0 [{ x := 0, y := 0, r := 1, g := 2, b := 3 }]] }
  let d := wr (wr sent (CM_GUARD 0 0 0) 0x80000000) (CM_GUARD 0 0 2) 0x00010001
  if banker then setRole (setDh d v) true else setDh d v

/-- A scrub that runs from DT 0. -/
def scrubbing (k : WmKind) : Dev :=
  { base with safe := { base.safe with scrubs := [(wmKey k, { lo := 0, hi := 4, t0 := 0, lower := false })] } }

/-- The boot engine: begun, loading or not, in a loader state. -/
def booting (v : Nat) (g : Power → Power) : Dev := setLdr { base with pm := g { base.pm with begun := true } } v 0

/-- A good image of 1 MiB. -/
def goodImg (cause : Fin 9) : ImageInfo :=
  { cause := cause, bytes := 2 ^ 20, version := 1, objVersion := 1, pairMin := 0, pairMax := 0, pairEpoch := 0, stateFormat := 1,
    minRom := 0, secVersion := 0, heritageLayers := 0, heritageRegions := [] }

/-- The device with its store. -/
def stored (rs : List StoreRec) : Dev :=
  let d := fs (mapped 0 base) PM_STORE_STAT PM_STORE_STAT_PRESENT 1
  { d with pm := { d.pm with storePresent := true, storeSectors := 8, storeHead := 1, storePos := 16, store := rs } }

/-- A record of two words. -/
def aRec (sector : Nat) : StoreRec :=
  { (default : StoreRec) with type := 0x8000, key := 1, payload := [5, 6], len := 8, sector := sector }

/-- The pair in a state, as banker or lead. -/
def paired (v : Nat) (banker : Bool) (g : Pair → Pair) : Dev := onPair (setDh (setRole base banker) v) g

/-- The record that the banker waits for. -/
def hdr : RecHdr := { seq := 0, epoch := 0 }

/-- Function 1 in a state. -/
def guest (v : Nat) : Dev := setFnState base 1 v

/-- The function after a QUIESCE that waits. -/
def quiet (v : Nat) : Dev := onFn (guest v) 1 (fun x => { x with qui := { x.qui with on := true } })

/-- A blob with an empty body. -/
def blob : BlobIn :=
  { rings := [], fences := [], mods := [], commits := [], cps := [], ctxs := [], layers := [], bufs := [], claims := [],
    streams := [], rams := [] }

/-- Ring 0 of F0, a SYS ring, with a chain of two descriptors. -/
def chained (ws xs : List Word) : Dev :=
  onRing (ringed base 0 0 5 ws) 0 0 (fun x => { x with queue := x.queue.map (fun q => { q with chain := [xs] }) })

/-- The heritage device with some MDH registers. -/
def old (rs : List (Nat × Nat)) : Dev :=
  rs.foldl (fun d p => setMdh d p.1 (BitVec.ofNat 32 p.2)) { base with heritage := true }

/-- A partner device. -/
def partner : Partner :=
  { role := true, mode := 2, seatB := true, devRev := 0, dramUnits := 0, pairMin := 0, pairMax := 0, pairEpoch := 0, stateFormat := 0,
    mwin := [], fnStates := [], vfEnable := false, numVfs := 0, dt := 0 }

/-! #### ResetsAndRegistersRun -/

theorem test_ResetsAndRegistersRun_met_1 :
    (∃ s : State, ∃ low, (∃ t', exec (.warmReset (.pin low)) s = .next t') ∧ 1000 ≤ low) ∧
    (∃ s : State, ∃ a v d n, (∃ t', exec (.warmReset (.host a v)) s = .next t') ∧ Written s.dev a PM_WARM_REQ v d n ∧
      bits v 31 16 = 0x57A3 ∧ bit v 0 = true) ∧
    (∃ s : State, ∃ f, (∃ t', exec (.functionReset f) s = .next t') ∧ f.val ≠ 0 ∧ fnState s.dev f.val ≠ 0) ∧
    (∃ s : State, ∃ f d, (∃ t', exec (.functionReset f) s = .next t') ∧ f.val = 0 ∧ d = restore (pfDeparture (addCause
      s.dev 4 0 0)) .fn0 (fun _ => false)) ∧
    (∃ s : State, ∃ x d, (∃ t', exec (.sectionResetDone x) s = .next t') ∧ hasBit (rd s.dev GL_SECT_RST).toNat
      (sectNum x) = true ∧ d = wr s.dev GL_SECT_RST (BitVec.ofNat 32 ((rd s.dev GL_SECT_RST).toNat - 2 ^ sectNum x))) ∧
    (∃ s : State, ∃ a v d n, (∃ t', exec (.lockWrite a v) s = .next t') ∧ Written s.dev a GL_LOCK v d n) :=
  ⟨⟨st base, 1000, ⟨_, rfl⟩, by decide⟩,
   ⟨st base, f0, 0x57A30001, _, _, ⟨_, rfl⟩, wOk (by decide), by decide, by decide⟩,
   ⟨st (setFnState base 3 1), 3, ⟨_, rfl⟩, by decide, by decide⟩,
   ⟨st base, 0, _, ⟨_, rfl⟩, by decide, rfl⟩,
   ⟨st (wr base GL_SECT_RST 1), .tt, _, ⟨_, rfl⟩, by decide, rfl⟩,
   ⟨st base, f0, 1, _, _, ⟨_, rfl⟩, wOk (by decide)⟩⟩

theorem test_ResetsAndRegistersRun_met_2 :
    (∃ s : State, ∃ f r q d, (∃ t', exec (.lock f r) s = .next t') ∧ Runs s.dev f.val r.val 0x670 [] chkLock q d) ∧
    (∃ s : State, ∃ a v tables d n, (∃ t', exec (.stageCommit a v tables) s = .next t') ∧ Written s.dev a
      GL_STAGE_COMMIT v d n ∧ commitBad s.dev (fb s.dev GL_STAGE_COMMIT GL_STAGE_COMMIT_BUSY) n = none) ∧
    (∃ s : State, ∃ a off v d n, (∃ t', exec (.registerWrite a .bar0 off v) s = .next t') ∧ off.toNat / 65536 ∈ [5, 6,
      7, 0x1E, 0x1F] ∧ Written s.dev a off.toNat v d n) ∧
    (∃ s : State, ∃ a off r k, (∃ t', exec (.readClear a .bar0 off) s = .next t') ∧ off.toNat / 65536 ∈ [0, 3, 4, 8,
      0x0A, 0x16, 0x1C, 0x1F] ∧ rowOf off.toNat = some (r, k) ∧ writeOnly off.toNat = false ∧ r.world = .any ∧
      reachesBar0 a = true ∧ domState s.dev (domOf off.toNat) = 0 ∧ windowShut s.dev a off.toNat = false ∧
      (inSecureRange off.toNat && !a.secure) = false ∧ a.be = 0xF) ∧
    (∃ s : State, ∃ a off, (∃ t', exec (.readClear a .mdh off) s = .next t') ∧ s.dev.heritage = true) :=
  ⟨⟨st (ringed base 0 0 5 (words 0x67 [(0x10, 1)])), 0, 0, _, _, ⟨_, rfl⟩, runsOk (by decide)⟩,
   ⟨st base, f0, 1, [], _, _, ⟨_, rfl⟩, wOk (by decide), by decide⟩,
   ⟨st base, f0, 0x1E0000, 1, _, _, ⟨_, rfl⟩, by decide, wOk (by decide)⟩,
   ⟨st base, f0, 0x10, _, _, ⟨_, rfl⟩, by decide, rowOk (by decide), by decide, by decide, by decide, by decide, by
     decide, by decide, by decide⟩,
   ⟨st ({ base with heritage := true }), f0, 0, ⟨_, rfl⟩, by decide⟩⟩

/-! #### CompositionRuns -/

theorem test_CompositionRuns_met_1 :
    (∃ s : State, ∃ p frame line want b d, (∃ t', exec (.stripComposeBegin p frame line want) s = .next t') ∧ stripAt
      s.dev p.val line = true ∧ b = frame * (raster s.dev p.val).vtot + line ∧ (platRun s.dev
      p.val).openStrips.contains b = false ∧ d = bindCommits (restampUnacked (advance (dtOfAbs (raster s.dev p.val) (b
      - leadLines s.dev p.val)) s.dev) p.val frame line) p.val frame line) ∧
    (∃ s : State, ∃ p frame line z, (∃ t', exec (.commitLand p frame line) s = .next t') ∧ (landingNow s.dev p.val
      frame line).head?.bind (fun c => landOf c p.val) = some z ∧ (raster s.dev p.val).had = true) ∧
    (∃ s : State, ∃ p frame line z, (∃ t', exec (.commitLand p frame line) s = .next t') ∧ (landingNow s.dev p.val
      frame line).head?.bind (fun c => landOf c p.val) = some z ∧ (raster s.dev p.val).had = false) ∧
    (∃ s : State, ∃ p frame line px b v out d, (∃ t', exec (.stripComposeDone p frame line px) s = .next t') ∧ b =
      frame * (raster s.dev p.val).vtot + line ∧ (platRun s.dev p.val).openStrips.contains b = true ∧ (platRun s.dev
      p.val).late.find? (fun s => s.1 == b) = none ∧ v = readHeaders (viewAt s.dev p.val b) p.val frame line ∧ out =
      ((stripPlaces s.dev p.val line px).filterMap (fun q => outPixel v p.val frame q (if inCaution v p.val b then 3
      else 0))).map (latchPix v p.val) ∧ d = emit (sendUpdate (count (storeBand
      { s.dev with comp := { s.dev.comp with hdrs := v.comp.hdrs } } p.val frame line) (266 + 4 * p.val)) p.val frame
      line out) (.strip p.val frame line out)) ∧
    (∃ s : State, ∃ p frame line px b v out z d, (∃ t', exec (.stripComposeDone p frame line px) s = .next t') ∧ b =
      frame * (raster s.dev p.val).vtot + line ∧ (platRun s.dev p.val).openStrips.contains b = true ∧ (platRun s.dev
      p.val).late.find? (fun s => s.1 == b) = some z ∧ v = readHeaders (viewAt s.dev p.val b) p.val frame line ∧ out =
      ((stripPlaces s.dev p.val line px).filterMap (fun q => outPixel v p.val frame q (if inCaution v p.val b then 3
      else 2))).map (latchPix v p.val) ∧ d = postLate (count (emit (sendUpdate (count (storeBand
      { s.dev with comp := { s.dev.comp with hdrs := v.comp.hdrs } } p.val frame line) (266 + 4 * p.val)) p.val frame
      line out) (.strip p.val frame line out)) (266 + 4 * p.val + 1)) p.val 1 frame line z.2) ∧
    (∃ s : State, ∃ p frame line out b d, (∃ t', exec (.stripCheckpoint p frame line out) s = .next t') ∧ b = frame *
      (raster s.dev p.val).vtot + line ∧ (platRun s.dev p.val).openStrips.contains b = true ∧ (platRun s.dev
      p.val).late.any (fun s => s.1 == b) = false ∧ d = advance (dtOfAbs (raster s.dev p.val) (b - checkDistance s.dev
      p.val)) s.dev ∧ lanesAt d p.val b ≠ 0) :=
  ⟨⟨st lit, 0, 0, 0, [], _, _, ⟨_, rfl⟩, by decide, rfl, by decide, rfl⟩,
   ⟨st ({ lit with commits := [aCommit] }), 0, 0, 0, _, ⟨_, rfl⟩, optOk (by decide), by decide⟩,
   ⟨st ({ base with commits := [aCommit] }), 0, 0, 0, _, ⟨_, rfl⟩, optOk (by decide), by decide⟩,
   ⟨st (onP0 lit (fun y => { y with openStrips := [0] })), 0, 0, 0, [], _, _, _, _, ⟨_, rfl⟩, rfl, by decide, by
     decide, rfl, rfl, rfl⟩,
   ⟨st (onP0 lit (fun y => { y with openStrips := [0], late := [(0, 3)] })), 0, 0, 0, [], _, _, _, _, _, ⟨_, rfl⟩,
     rfl, by decide, optOk (by decide), rfl, rfl, rfl⟩,
   ⟨st (fs (onP0 lit (fun y => { y with openStrips := [0] })) CM_CTRL CM_CTRL_LATE_LANES 1), 0, 0, 0, 0, _, _, ⟨_,
     rfl⟩, rfl, by decide, by decide, rfl, by decide⟩⟩

theorem test_CompositionRuns_met_2 :
    (∃ s : State, ∃ p frame line out b d, (∃ t', exec (.stripCheckpoint p frame line out) s = .next t') ∧ b = frame *
      (raster s.dev p.val).vtot + line ∧ (platRun s.dev p.val).openStrips.contains b = true ∧ (platRun s.dev
      p.val).late.any (fun s => s.1 == b) = false ∧ d = advance (dtOfAbs (raster s.dev p.val) (b - checkDistance s.dev
      p.val)) s.dev ∧ lanesAt d p.val b = 0) ∧
    (∃ s : State, ∃ p frame line b z d, (∃ t', exec (.fallbackStrip p frame line) s = .next t') ∧ b = frame * (raster
      s.dev p.val).vtot + line ∧ (platRun s.dev p.val).late.find? (fun s => s.1 == b) = some z ∧ d = advance (dtOfAbs
      (raster s.dev p.val) b) s.dev) ∧
    (∃ s : State, ∃ l z frame line iova p y e, (∃ t', exec (.fetchFault l (.lbcState z) frame line iova) s = .next t')
      ∧ composedOn s.dev l.val frame line = some (p, y) ∧ layerOut s.dev p l.val frame = false ∧ e = bufEntry s.dev
      (handleIdx (wd y.words 1)) ∧ s.dev.comp.lbcTold.contains (l.val, frame) = false) ∧
    (∃ s : State, ∃ l t frame line iova p y e, (∃ t', exec (.fetchFault l (.dmmu t) frame line iova) s = .next t') ∧
      composedOn s.dev l.val frame line = some (p, y) ∧ layerOut s.dev p l.val frame = false ∧ e = bufEntry s.dev
      (handleIdx (wd y.words 1))) ∧
    (∃ s : State, ∃ l frame line iova p y e, (∃ t', exec (.fetchFault l .ecc frame line iova) s = .next t') ∧
      composedOn s.dev l.val frame line = some (p, y) ∧ layerOut s.dev p l.val frame = false ∧ e = bufEntry s.dev
      (handleIdx (wd y.words 1))) :=
  ⟨⟨st (fs (onP0 lit (fun y => { y with openStrips := [0] })) CM_CTRL CM_CTRL_LATE_LANES 0), 0, 0, 0, 0, _, _, ⟨_,
     rfl⟩, rfl, by decide, by decide, rfl, by decide⟩,
   ⟨st (onP0 lit (fun y => { y with openStrips := [0], late := [(0, 3)] })), 0, 0, 0, _, _, _, ⟨_, rfl⟩, rfl, optOk
     (by decide), rfl⟩,
   ⟨st layered, 5, 0, 0, 0, 0, _, _, _, ⟨_, rfl⟩, rowOk (by decide), by decide, rfl, by decide⟩,
   ⟨st layered, 5, 0, 0, 0, 0, _, _, _, ⟨_, rfl⟩, rowOk (by decide), by decide, rfl⟩,
   ⟨st layered, 5, 0, 0, 0, _, _, _, ⟨_, rfl⟩, rowOk (by decide), by decide, rfl⟩⟩

/-! #### TimetableRuns -/

theorem test_TimetableRuns_met_1 :
    (∃ s : State, ∃ a, (∃ t', exec (.dtRead a) s = .next t') ∧ reachesBar0 a = true ∧ domState s.dev 4 = 0) ∧
    (∃ s : State, ∃ a p, (∃ t', exec (.rposRead a p) s = .next t') ∧ reachesBar0 a = true ∧ domState s.dev 4 = 0 ∧
      (raster s.dev p.val).had = true) ∧
    (∃ s : State, ∃ a v d n, (∃ t', exec (.cpSelWrite a v) s = .next t') ∧ Written s.dev a TT_CP_SEL v d n ∧
      cpWindowMaster a = true ∧ bits v 9 0 ≠ cpSel (wr d TT_CP_SEL (rd s.dev TT_CP_SEL)) a.mid.toNat) ∧
    (∃ s : State, ∃ a v k d n, (∃ t', exec (.cpStageWrite a k v) s = .next t') ∧ Written s.dev a (TT_CP_W (k.val + 1))
      v d n ∧ cpWindowMaster a = true) ∧
    (∃ s : State, ∃ a v d c e, (∃ t', exec (.cpStoreWrite a v) s = .next t') ∧ cpStoreCheck a v s.dev = (d, some (c,
      e))) ∧
    (∃ s : State, (∃ t', exec .loaderWalk s = .next t') ∧ domUp s.dev 4 = true) :=
  ⟨⟨st base, f0, ⟨_, rfl⟩, by decide, by decide⟩,
   ⟨st lit, f0, 0, ⟨_, rfl⟩, by decide, by decide, by decide⟩,
   ⟨st base, f0, 5, _, _, ⟨_, rfl⟩, wOk (by decide), by decide, by decide⟩,
   ⟨st base, f0, 5, 0, _, _, ⟨_, rfl⟩, wOk (by decide), by decide⟩,
   ⟨st base, f0, 0, _, _, _, ⟨_, rfl⟩, pairOk (optOk (by decide))⟩,
   ⟨st base, ⟨_, rfl⟩, by decide⟩⟩

theorem test_TimetableRuns_met_2 :
    (∃ s : State, ∃ c d g, (∃ t', exec (.cpFire c) s = .next t') ∧ mayMatch s.dev c.val = true ∧ d = (dueBefore s.dev
      c.val).foldl matchPoint s.dev ∧ waitsFor d c.val = some g ∧ mayMatch d c.val = true) ∧
    (∃ s : State, ∃ d, (∃ t', exec .comparatorFree s = .next t') ∧ s.dev.tt.cooling ≠ 0 ∧ d =
      { s.dev with tt := { s.dev.tt with cooling := s.dev.tt.cooling - 1 } }) ∧
    (∃ s : State, ∃ c, (∃ t', exec (.cpFireDeferred c) s = .next t') ∧ (cpEntry s.dev c.val).en = true ∧ (cpRun s.dev
      c.val).armed = true ∧ (cpRun s.dev c.val).deferred = true ∧ domUp s.dev 4 = true) ∧
    (∃ s : State, ∃ a v p d n, (∃ t', exec (.flCtrlWrite a p v) s = .next t') ∧ Written s.dev a (TT_FL_CTRL p.val) v d
      n ∧ (¬ (bits n 29 28 = 2 ∧ flCycle s.dev p.val 17 (bits n 27 24) = true)) ∧ bit n 31 = true) ∧
    (∃ s : State, ∃ a v p d n, (∃ t', exec (.flCtrlWrite a p v) s = .next t') ∧ Written s.dev a (TT_FL_CTRL p.val) v d
      n ∧ (¬ (bits n 29 28 = 2 ∧ flCycle s.dev p.val 17 (bits n 27 24) = true)) ∧ bit n 31 = false) ∧
    (∃ s : State, ∃ p periodNs pulse y d e, (∃ t', exec (.framelockRefEdge p ⟨periodNs, pulse⟩) s = .next t') ∧ bit
      (rd s.dev (TT_FL_CTRL p.val)) 31 = true ∧ flMarks s.dev p.val pulse = true ∧ (raster s.dev p.val).had = true ∧
      (raster s.dev p.val).vtot ≠ 0 ∧ domUp s.dev 4 = true ∧ (raster s.dev p.val).virt = false ∧ y = flPeriod s.dev
      p.val periodNs ∧ d = onFl s.dev p.val (fun z =>
      { z with lastEdge := s.dev.dt, period := y, edges := z.edges + 1 }) ∧ flInRange d p.val y = true ∧ e = onFl d
      p.val (fun z => { z with out := false }) ∧ ((SMap.get s.dev.tt.fl p.val).edges + 1) % (bits (rd s.dev
      (TT_FL_CTRL p.val)) 21 20 + 1) = 0 ∧ (bit (rd s.dev (TT_FL_CTRL p.val)) 30 && decide (flState s.dev p.val = 0))
      = false) :=
  ⟨⟨st (pointed false), 7, _, _, ⟨_, rfl⟩, by decide, rfl, optOk (by decide), by decide⟩,
   ⟨st ({ base with tt := { base.tt with cooling := 1 } }), _, ⟨_, rfl⟩, by decide, rfl⟩,
   ⟨st (pointed true), 7, ⟨_, rfl⟩, by decide, by decide, by decide, by decide⟩,
   ⟨st base, f0, 0x90000000, 0, _, _, ⟨_, rfl⟩, wOk (by decide), by decide, by decide⟩,
   ⟨st base, f0, 0x10000000, 0, _, _, ⟨_, rfl⟩, wOk (by decide), by decide, by decide⟩,
   ⟨st (flocked 0), 0, 1000000, ⟨true,100⟩, _, _, _, ⟨_, rfl⟩, by decide, by decide, by decide, by decide, by decide,
     by decide, rfl, rfl, by decide, rfl, by decide, by decide⟩⟩

theorem test_TimetableRuns_met_3 :
    (∃ s : State, ∃ p periodNs pulse y d e, (∃ t', exec (.framelockRefEdge p ⟨periodNs, pulse⟩) s = .next t') ∧ bit
      (rd s.dev (TT_FL_CTRL p.val)) 31 = true ∧ flMarks s.dev p.val pulse = true ∧ (raster s.dev p.val).had = true ∧
      (raster s.dev p.val).vtot ≠ 0 ∧ domUp s.dev 4 = true ∧ (raster s.dev p.val).virt = false ∧ y = flPeriod s.dev
      p.val periodNs ∧ d = onFl s.dev p.val (fun z =>
      { z with lastEdge := s.dev.dt, period := y, edges := z.edges + 1 }) ∧ flInRange d p.val y = true ∧ e = onFl d
      p.val (fun z => { z with out := false }) ∧ ((SMap.get s.dev.tt.fl p.val).edges + 1) % (bits (rd s.dev
      (TT_FL_CTRL p.val)) 21 20 + 1) = 0 ∧ (bit (rd s.dev (TT_FL_CTRL p.val)) 30 && decide (flState s.dev p.val = 0))
      = true) ∧
    (∃ s : State, ∃ p, (∃ t', exec (.framelockHoldover p) s = .next t') ∧ (flState s.dev p.val = 1 ∨ flState s.dev
      p.val = 2)) ∧
    (∃ s : State, ∃ p, (∃ t', exec (.framelockHoldoverExpire p) s = .next t') ∧ flState s.dev p.val = 3) ∧
    (∃ s : State, ∃ a v d n, (∃ t', exec (.convStart a v) s = .next t') ∧ Written s.dev a TT_CONV_LINE v d n ∧ (raster
      s.dev (bits n 19 16)).had = true) ∧
    (∃ s : State, (∃ t', exec .convDone s = .next t') ∧ s.dev.tt.convBusy = true) ∧
    (∃ s : State, ∃ p f0 f t, (∃ t', exec (.timingTakeEffect p) s = .next t') ∧ (platRun s.dev p.val).timingFrame =
      some f0 ∧ (raster s.dev p.val).had = true ∧ (raster s.dev p.val).vtot ≠ 0 ∧ f = max f0 (frameFrom (raster s.dev
      p.val) s.dev.dt) ∧ t = dtOf (raster s.dev p.val) f 0) :=
  ⟨⟨st (flocked 1), 0, 1000000, ⟨true,100⟩, _, _, _, ⟨_, rfl⟩, by decide, by decide, by decide, by decide, by decide,
     by decide, rfl, rfl, by decide, rfl, by decide, by decide⟩,
   ⟨st (setFlState base 0 1), 0, ⟨_, rfl⟩, .inl (by decide)⟩,
   ⟨st (setFlState base 0 3), 0, ⟨_, rfl⟩, by decide⟩,
   ⟨st lit, f0, 0, _, _, ⟨_, rfl⟩, wOk (by decide), by decide⟩,
   ⟨st ({ base with tt := { base.tt with convBusy := true } }), ⟨_, rfl⟩, by decide⟩,
   ⟨st (onP0 lit (fun y => { y with timingFrame := some 1 })), 0, 1, _, _, ⟨_, rfl⟩, optOk (by decide), by decide, by
     decide, rfl, rfl⟩⟩

theorem test_TimetableRuns_met_4 :
    (∃ s : State, ∃ p f0 f t, (∃ t', exec (.rasterStart p) s = .next t') ∧ (platRun s.dev p.val).enFrame = some f0 ∧
      (raster s.dev p.val).had = true ∧ (raster s.dev p.val).vtot ≠ 0 ∧ f = max f0 (frameFrom (raster s.dev p.val)
      s.dev.dt) ∧ t = dtOf (raster s.dev p.val) f 0 ∧ (raster s.dev p.val).virt = true ∧ (fb s.dev (TT_FL_CTRL p.val)
      TT_FL_CTRL_EN && fb s.dev (TT_FL_CTRL p.val) TT_FL_CTRL_JUMP) = false) ∧
    (∃ s : State, ∃ p f0 f t d, (∃ t', exec (.platformDisable p) s = .next t') ∧ (platRun s.dev p.val).disFrame = some
      f0 ∧ (raster s.dev p.val).had = true ∧ (raster s.dev p.val).vtot ≠ 0 ∧ f = max f0 (frameFrom (raster s.dev
      p.val) s.dev.dt) ∧ t = dtOf (raster s.dev p.val) f 0 ∧ d = onPlat (onFl (setRaster (advance t s.dev) p.val
      { (raster s.dev p.val) with fRef := f, lRef := 0, dtRef := t, virt := true, hold := none, corr := 0 }) p.val
      (fun y => { y with corr := 0 })) p.val (fun y =>
      { y with disFrame := none, openStrips := [], late := [], lanes := [], psr := false, psrFrame := none })) :=
  ⟨⟨st (onP0 (setRaster base 0 { rast with virt := true }) (fun y => { y with enFrame := some 1 })), 0, 1, _, _, ⟨_,
     rfl⟩, optOk (by decide), by decide, by decide, rfl, rfl, by decide, by decide⟩,
   ⟨st (onP0 lit (fun y => { y with disFrame := some 1 })), 0, 1, _, _, _, ⟨_, rfl⟩, optOk (by decide), by decide, by
     decide, rfl, rfl, rfl⟩⟩

/-! #### RingsRun -/

theorem test_RingsRun_met_1 :
    (∃ s : State, ∃ a f r d, (∃ t', exec (.kick a f r) s = .next t') ∧ kickArrives a f.val (BitVec.ofNat 32 r.val)
      s.dev = (d, true) ∧ fnState d f.val = 1 ∧ (ringSt d f.val r.val).state = .active ∧ (ringSt d f.val
      r.val).reading = false ∧ bankerLike d = false ∧ d.pm.cut.window = false ∧ (fnSt d f.val).qui.on = false) ∧
    (∃ s : State, ∃ a f r m d e ws, (∃ t', exec (.reloadRing a f r m) s = .next t') ∧ kickArrives a f.val
      (BitVec.ofNat 32 (2 ^ 30 + r.val)) s.dev = (d, true) ∧ fnState d f.val = 1 ∧ bankerLike d = false ∧ memRead d
      f.val f.val (fcbAddr d f.val + 64 * r.val) 16 m = (e, .words ws)) ∧
    (∃ s : State, ∃ a f m d e ws, (∃ t', exec (.reloadVectors a f m) s = .next t') ∧ kickArrives a f.val (BitVec.ofNat
      32 (2 ^ 31)) s.dev = (d, true) ∧ fnState d f.val = 1 ∧ bankerLike d = false ∧ memRead d f.val f.val (fcbAddr d
      f.val + 0x800) 256 m = (e, .words ws) ∧ modsBad e f.val ws = none) ∧
    (∃ s : State, ∃ f r m d ws e, (∃ t', exec (.doorbellRecordArrive f r m) s = .next t') ∧ (ringSt s.dev f.val
      r.val).reading = true ∧ (ringSt s.dev f.val r.val).state = .active ∧ memRead s.dev f.val f.val (ringSt s.dev
      f.val r.val).entry.dbr 16 m = (d, .words ws) ∧ wd ws 0 = wd ws 15 ∧ (ringSt d f.val r.val).seqSeen.any (fun z =>
      seqOlder (wd ws 0).toNat z) = false ∧ dbrOverrun (ringSt d f.val r.val) (wd ws 1).toNat (wd ws 2).toNat = false
      ∧ (ringSt d f.val r.val).entry.type ≠ 4 ∧ e = onRing (onRing d f.val r.val (fun y =>
      { y with seqSeen := some (wd ws 0).toNat })) f.val r.val (fun y =>
      { y with pi := (wd ws 1).toNat, cci := (wd ws 2).toNat })) ∧
    (∃ s : State, ∃ f r m d ws, (∃ t', exec (.doorbellRecordArrive f r m) s = .next t') ∧ (ringSt s.dev f.val
      r.val).reading = true ∧ (ringSt s.dev f.val r.val).state = .active ∧ memRead s.dev f.val f.val (ringSt s.dev
      f.val r.val).entry.dbr 16 m = (d, .words ws) ∧ wd ws 0 ≠ wd ws 15 ∧ (ringSt d f.val r.val).tries < 3) ∧
    (∃ s : State, ∃ f r, (∃ t', exec (.dbrRetry f r) s = .next t') ∧ (ringSt s.dev f.val r.val).reading = true ∧
      (ringSt s.dev f.val r.val).tries > 0) :=
  ⟨⟨st (onRing base 0 0 (fun x => { x with state := .active })), f0, 0, 0, _, ⟨_, rfl⟩, pairOk (by decide), by decide,
     by decide, by decide, by decide, by decide, by decide⟩,
   ⟨st (mapped 0 base), f0, 0, 0, (mem []), _, _, _, ⟨_, rfl⟩, pairOk (by decide), by decide, by decide, memOk (by
     decide)⟩,
   ⟨st (mapped 0 base), f0, 0, (mem []), _, _, _, ⟨_, rfl⟩, pairOk (by decide), by decide, by decide, memOk (by
     decide), by decide⟩,
   ⟨st (reading 0), 0, 0, (mem []), _, _, _, ⟨_, rfl⟩, by decide, by decide, memOk (by decide), by decide, by decide,
     by decide, by decide, rfl⟩,
   ⟨st (reading 0), 0, 0, (mem [1]), _, _, ⟨_, rfl⟩, by decide, by decide, memOk (by decide), by decide, by decide⟩,
   ⟨st (reading 1), 0, 0, ⟨_, rfl⟩, by decide, by decide⟩⟩

theorem test_RingsRun_met_2 :
    (∃ s : State, ∃ f r n m d, (∃ t', exec (.descriptorArrive f r n m) s = .next t') ∧ (ringSt s.dev f.val
      r.val).state = .active ∧ (ringSt s.dev f.val r.val).entry.type ≠ 4 ∧ fnState s.dev f.val = 1 ∧ (fnSt s.dev
      f.val).qui.on = false ∧ s.dev.pm.cut.window = false ∧ bankerLike s.dev = false ∧ s.dev.pair.swapping = false ∧
      jobHold s.dev f.val r.val = false ∧ commitHold s.dev f.val r.val = false ∧ d = fetchSlots (min n (fetchRoom
      (ringSt s.dev f.val r.val))) s.dev f.val r.val m) ∧
    (∃ s : State, ∃ f v, (∃ t', exec (.msixHoldoffExpire f v) s = .next t') ∧ (SMap.get (fnSt s.dev f.val).vecs
      v.val).pending ≠ 0 ∧ (modEntry s.dev f.val v.val).holdoff ≠ 0) ∧
    (∃ s : State, ∃ f r q d, (∃ t', exec (.nop f r) s = .next t') ∧ Runs s.dev f.val r.val 0x000 [] chkNop q d) ∧
    (∃ s : State, ∃ f r q d, (∃ t', exec (.signal f r) s = .next t') ∧ Runs s.dev f.val r.val 0x010 [] chkSignal q d) ∧
    (∃ s : State, ∃ f r q d, (∃ t', exec (.wait f r) s = .next t') ∧ Runs s.dev f.val r.val 0x020 [] chkWait q d) ∧
    (∃ s : State, ∃ f r q d, (∃ t', exec (.cpWrite f r) s = .next t') ∧ Runs s.dev f.val r.val 0x030 [] chkCpWrite q
      d) :=
  ⟨⟨st (onRing base 0 0 (fun x => { x with state := .active })), 0, 0, 1, (mem []), _, ⟨_, rfl⟩, by decide, by decide,
     by decide, by decide, by decide, by decide, by decide, by decide, by decide, rfl⟩,
   ⟨st (onFn base 0 (fun x =>
     { x with mods := [(0, { (default : ModEntry) with holdoff := 5 })], vecs := [(0, { (default : VecRun) with pending := 1 })] })),
     0, 0, ⟨_, rfl⟩, by decide, by decide⟩,
   ⟨st (ringed base 0 0 5 (words 0 [])), 0, 0, _, _, ⟨_, rfl⟩, runsOk (by decide)⟩,
   ⟨st (ringed base 0 0 5 (words 1 [])), 0, 0, _, _, ⟨_, rfl⟩, runsOk (by decide)⟩,
   ⟨st (ringed base 0 0 5 (words 2 [])), 0, 0, _, _, ⟨_, rfl⟩, runsOk (by decide)⟩,
   ⟨st (ringed base 0 0 5 (words 3 [])), 0, 0, _, _, ⟨_, rfl⟩, runsOk (by decide)⟩⟩

theorem test_RingsRun_met_3 :
    (∃ s : State, ∃ f r q d e, (∃ t', exec (.cpRead f r) s = .next t') ∧ Runs s.dev f.val r.val 0x040 [] chkCpRead q d
      ∧ memWrite d f.val f.val (at8 q.words 0x18) (wordBytes (cpWords (cpEntry d (bits (at4 q.words 0x10) 9 0)))) =
      (e, true)) ∧
    (∃ s : State, ∃ f r tables q0 q d items, (∃ t', exec (.commitHead f r tables) s = .next t') ∧ (ringSt s.dev f.val
      r.val).queue.head? = some q0 ∧ commitHolds s.dev f.val q0 = false ∧ Runs s.dev f.val r.val 0x200 tables
      chkCommitHead q d ∧ chkCommitAll d f.val q = .ok items) ∧
    (∃ s : State, ∃ a v tables d n, (∃ t', exec (.siCommit a v tables) s = .next t') ∧ Written s.dev a CM_SI_COMMIT v
      d n ∧ commitBad s.dev (fb s.dev CM_SI_COMMIT CM_SI_COMMIT_BUSY) n = none) ∧
    (∃ s : State, ∃ a v d n, (∃ t', exec (.cc3AuthWrite a v) s = .next t') ∧ Written s.dev a CM_CC3_AUTH v d n ∧
      locked s.dev 3 = false) :=
  ⟨⟨st (ringed (mapped 0 base) 0 0 5 (words 4 [])), 0, 0, _, _, _, ⟨_, rfl⟩, runsOk (by decide), pairOk (by decide)⟩,
   ⟨st (ringed base 0 0 1 (words 32 [(0x10, 0x10000)])), 0, 0, [], _, _, _, [], ⟨_, rfl⟩, optOk (by decide), by
     decide, runsOk (by decide), by decide⟩,
   ⟨st base, (by' 0x25), 1, [], _, _, ⟨_, rfl⟩, wOk (by decide), by decide⟩,
   ⟨st base, (by' 0x25), 1, _, _, ⟨_, rfl⟩, wOk (by decide), by decide⟩⟩

/-! #### PacketsRun -/

theorem test_PacketsRun_met_1 :
    (∃ s : State, ∃ c w j, (∃ t', exec (.pktNop c w) s = .next t') ∧ Packet s.dev c.val 0x00 w j) ∧
    (∃ s : State, ∃ c w j, (∃ t', exec (.pktTarget c w) s = .next t') ∧ Packet s.dev c.val 0x01 w j ∧ targetOk w j =
      true ∧ (¬ ((gctx s.dev c.val).pool.pages * 4096 < toPages (2 * reserveOf (attsOf w)) ∨ (gctx s.dev
      c.val).scratch.pages * 4096 < scratchNeed (attsOf w)))) ∧
    (∃ s : State, ∃ c w m j d e ws us, (∃ t', exec (.pktState c w m) s = .next t') ∧ Packet s.dev c.val 0x02 w j ∧
      pktN w = 2 ∧ j.psos.find? (fun p => decide (p.1 = wd64 w 1)) = none ∧ memRead s.dev j.f (jobMid s.dev c.val)
      (wd64 w 1) 4 m = (d, .words ws) ∧ memRead d j.f (jobMid s.dev c.val) (wd64 w 1) (max 4 (cdiv (wd ws 2).toNat 4))
      m = (e, .words us) ∧ objOk e us = true) ∧
    (∃ s : State, ∃ c w m j p, (∃ t', exec (.pktState c w m) s = .next t') ∧ Packet s.dev c.val 0x02 w j ∧ pktN w = 2
      ∧ j.psos.find? (fun p => decide (p.1 = wd64 w 1)) = some p) ∧
    (∃ s : State, ∃ c w j, (∃ t', exec (.pktBind c w) s = .next t') ∧ Packet s.dev c.val 0x03 w j ∧ pktN w = 3 ∧ bits
      (wd w 1) 31 2 = 0) ∧
    (∃ s : State, ∃ c w objs prims st j e, (∃ t', exec (.pktDraw c w ⟨objs, prims⟩ st) s = .next t') ∧ Packet s.dev
      c.val 0x04 w j ∧ pktN w = 4 ∧ j.pass.isSome = true ∧ drawWith c.val objs prims st j s.dev = (e, true)) :=
  ⟨⟨st (jobbed id), 0, (pkt 0 []), _, ⟨_, rfl⟩, pktOk (by decide)⟩,
   ⟨st (onCtx (jobbed id) 0 (fun x => { x with pool := { base := 0, pages := 1000 } })), 0, (pkt 1 [0]), _, ⟨_, rfl⟩,
     pktOk (by decide), by decide, by decide⟩,
   ⟨st (jobbed id), 0, (pkt 2 [0, 0]), (mem [0x4C4E4F42, 0, 0, 0]), _, _, _, _, _, ⟨_, rfl⟩, pktOk (by decide), by
     decide, by decide, memOk (by decide), memOk (by decide), by decide⟩,
   ⟨st (jobbed (fun x => { x with psos := [(0, 0)] })), 0, (pkt 2 [0, 0]), (mem []), _, _, ⟨_, rfl⟩, pktOk (by
     decide), by decide, optOk (by decide)⟩,
   ⟨st (jobbed id), 0, (pkt 3 [0, 0, 0]), _, ⟨_, rfl⟩, pktOk (by decide), by decide, by decide⟩,
   ⟨st passed, 0, (pkt 4 [0, 0, 0, 0]), [], [], [], _, _, ⟨_, rfl⟩, pktOk (by decide), by decide, by decide, pairOk
     (by decide)⟩⟩

theorem test_PacketsRun_met_2 :
    (∃ s : State, ∃ c w objs prims st j e, (∃ t', exec (.pktDrawIndexed c w ⟨objs, prims⟩ st) s = .next t') ∧ Packet
      s.dev c.val 0x05 w j ∧ pktN w = 7 ∧ j.pass.isSome = true ∧ bit (wd w 6) 1 = false ∧ drawWith c.val objs prims st
      j s.dev = (e, true)) ∧
    (∃ s : State, ∃ c w m objs prims st j e, (∃ t', exec (.pktDrawIndirect c w m ⟨objs, prims⟩ st) s = .next t') ∧
      Packet s.dev c.val 0x06 w j ∧ pktN w = 5 ∧ j.pass.isSome = true ∧ bits (wd w 5) 31 1 = 0 ∧ (if (if (wd w
      3).toNat = 0 then 0 else ((wd w 3).toNat - 1) * (wd w 4).toNat + (if bit (wd w 5) 0 then 20 else 16)) = 0 then
      none else firstFault s.dev j.f false m.ats (pagesOf (wd64 w 1) (if (wd w 3).toNat = 0 then 0 else ((wd w
      3).toNat - 1) * (wd w 4).toNat + (if bit (wd w 5) 0 then 20 else 16)))) = none ∧ (m.ecc || (readPages (pagesFuel
      (if (wd w 3).toNat = 0 then 0 else ((wd w 3).toNat - 1) * (wd w 4).toNat + (if bit (wd w 5) 0 then 20 else 16)))
      s.dev j.f (wd64 w 1) 0 (if (wd w 3).toNat = 0 then 0 else ((wd w 3).toNat - 1) * (wd w 4).toNat + (if bit (wd w
      5) 0 then 20 else 16)) []).isNone) = false ∧ drawWith c.val objs prims st j s.dev = (e, true)) ∧
    (∃ s : State, ∃ c w j, (∃ t', exec (.pktClear c w) s = .next t') ∧ Packet s.dev c.val 0x07 w j ∧ pktN w = 7 ∧
      j.pass.isSome = true ∧ bits (wd w 1) 31 10 = 0 ∧ bits (wd w 7) 31 8 = 0) ∧
    (∃ s : State, ∃ c w j p e, (∃ t', exec (.pktPassEnd c w) s = .next t') ∧ Packet s.dev c.val 0x08 w j ∧ pktN w = 0
      ∧ j.pass.isSome = true ∧ j.pass = some p ∧ loadFault s.dev j p = none ∧ loadBad s.dev j p = false ∧ storePass
      (tellBadBlocks s.dev c.val j p) c.val j p false = (e, true)) ∧
    (∃ s : State, ∃ c w st j e, (∃ t', exec (.pktDispatch c w st) s = .next t') ∧ Packet s.dev c.val 0x09 w j ∧ pktN w
      = 3 ∧ j.pass.isNone = true ∧ shaderStores (noteWrote s.dev c.val (st.map (fun s => (s.iova.toNat,
      s.bytes.length)))) j.f (jobMid s.dev c.val) (orderStores j.lock st) = (e, true)) ∧
    (∃ s : State, ∃ c w m st j d e ws, (∃ t', exec (.pktDispatchIndirect c w m st) s = .next t') ∧ Packet s.dev c.val
      0x0A w j ∧ pktN w = 2 ∧ j.pass.isNone = true ∧ memRead s.dev j.f (jobMid s.dev c.val) (wd64 w 1) 3 m = (d,
      .words ws) ∧ shaderStores (noteWrote d c.val (st.map (fun s => (s.iova.toNat, s.bytes.length)))) j.f (jobMid d
      c.val) (orderStores j.lock st) = (e, true)) :=
  ⟨⟨st passed, 0, (pkt 5 [0, 0, 0, 0, 0, 0, 0]), [], [], [], _, _, ⟨_, rfl⟩, pktOk (by decide), by decide, by decide,
     by decide, pairOk (by decide)⟩,
   ⟨st passed, 0, (pkt 6 [0, 0, 0, 0, 0]), (mem []), [], [], [], _, _, ⟨_, rfl⟩, pktOk (by decide), by decide, by
     decide, by decide, by decide, by decide, pairOk (by decide)⟩,
   ⟨st passed, 0, (pkt 7 [0, 0, 0, 0, 0, 0, 0]), _, ⟨_, rfl⟩, pktOk (by decide), by decide, by decide, by decide, by
     decide⟩,
   ⟨st passed, 0, (pkt 8 []), _, _, _, ⟨_, rfl⟩, pktOk (by decide), by decide, by decide, optOk (by decide), by
     decide, by decide, pairOk (by decide)⟩,
   ⟨st (jobbed id), 0, (pkt 9 [0, 0, 0]), [], _, _, ⟨_, rfl⟩, pktOk (by decide), by decide, by decide, pairOk (by
     decide)⟩,
   ⟨st (jobbed id), 0, (pkt 10 [0, 0]), (mem []), [], _, _, _, _, ⟨_, rfl⟩, pktOk (by decide), by decide, by decide,
     memOk (by decide), pairOk (by decide)⟩⟩

theorem test_PacketsRun_met_3 :
    (∃ s : State, ∃ c w j, (∃ t', exec (.pktBarrier c w) s = .next t') ∧ Packet s.dev c.val 0x0B w j ∧ pktN w = 1 ∧
      bits (wd w 1) 31 2 = 0) ∧
    (∃ s : State, ∃ c w j, (∃ t', exec (.pktCall c w) s = .next t') ∧ Packet s.dev c.val 0x0C w j ∧ pktN w = 3 ∧
      j.call.isNone = true) ∧
    (∃ s : State, ∃ c w j e, (∃ t', exec (.pktTimestamp c w) s = .next t') ∧ Packet s.dev c.val 0x0D w j ∧ pktN w = 2
      ∧ memWrite (noteWrote s.dev c.val [(wd64 w 1, 8)]) j.f (jobMid s.dev c.val) (wd64 w 1) (leBytes 8 s.dev.dt) =
      (e, true)) ∧
    (∃ s : State, ∃ c w j, (∃ t', exec (.pktScissor c w) s = .next t') ∧ Packet s.dev c.val 0x0E w j ∧ pktN w = 2 ∧
      j.pass.isSome = true) :=
  ⟨⟨st (jobbed id), 0, (pkt 11 [0]), _, ⟨_, rfl⟩, pktOk (by decide), by decide, by decide⟩,
   ⟨st (jobbed id), 0, (pkt 12 [0, 0, 0]), _, ⟨_, rfl⟩, pktOk (by decide), by decide, by decide⟩,
   ⟨st (jobbed id), 0, (pkt 13 [0, 0]), _, _, ⟨_, rfl⟩, pktOk (by decide), by decide, pairOk (by decide)⟩,
   ⟨st passed, 0, (pkt 14 [0, 0]), _, ⟨_, rfl⟩, pktOk (by decide), by decide, by decide⟩⟩

/-! #### GpuJobsRun -/

theorem test_GpuJobsRun_met_1 :
    (∃ s : State, ∃ f r q d, (∃ t', exec (.jobSubmit f r) s = .next t') ∧ jobsOf s.dev f.val ≠ ptJobMax s.dev f.val ∧
      Runs s.dev f.val r.val 0x100 [] chkJobSubmit q d) ∧
    (∃ s : State, ∃ f r q d, (∃ t', exec (.ctxSetup f r) s = .next t') ∧ Runs s.dev f.val r.val 0x110 [] chkCtxSetup q
      d) ∧
    (∃ s : State, ∃ f r q d, (∃ t', exec (.tilePool f r) s = .next t') ∧ Runs s.dev f.val r.val 0x140 [] chkTilePool q
      d) ∧
    (∃ s : State, ∃ f r q d, (∃ t', exec (.ctxDestroy f r) s = .next t') ∧ Runs s.dev f.val r.val 0x120 []
      chkCtxDestroy q d) ∧
    (∃ s : State, ∃ f r q d p, (∃ t', exec (.jobCancel f r) s = .next t') ∧ Runs s.dev f.val r.val 0x130 []
      chkJobCancel q d ∧ jobByTag d f.val r.val (bits (at4 q.words 0x10) 15 0) = some p) ∧
    (∃ s : State, ∃ f r q d, (∃ t', exec (.jobCancel f r) s = .next t') ∧ Runs s.dev f.val r.val 0x130 [] chkJobCancel
      q d ∧ jobByTag d f.val r.val (bits (at4 q.words 0x10) 15 0) = none) :=
  ⟨⟨st (ringed ctxed 0 0 0 (words 16 [(0x20, 4)])), 0, 0, _, _, ⟨_, rfl⟩, by decide, runsOk (by decide)⟩,
   ⟨st (ringed base 0 0 0 (words 17 [(0x20, 860160)])), 0, 0, _, _, ⟨_, rfl⟩, runsOk (by decide)⟩,
   ⟨st (ringed ctxed 0 0 0 (words 20 [])), 0, 0, _, _, ⟨_, rfl⟩, runsOk (by decide)⟩,
   ⟨st (ringed ctxed 0 0 0 (words 18 [])), 0, 0, _, _, ⟨_, rfl⟩, runsOk (by decide)⟩,
   ⟨st (onRing (ringed base 0 0 0 (words 19 [])) 0 0 (fun x =>
     { x with live := [{ idx := 9, words := words 0x10 [], chain := [], mem := [], cp := none, seq := 0, stage := 0, link := none }] })),
     0, 0, _, _, _, ⟨_, rfl⟩, runsOk (by decide), optOk (by decide)⟩,
   ⟨st (ringed base 0 0 0 (words 19 [])), 0, 0, _, _, ⟨_, rfl⟩, runsOk (by decide), by decide⟩⟩

theorem test_GpuJobsRun_met_2 :
    (∃ s : State, ∃ c j, (∃ t', exec (.jobComplete c) s = .next t') ∧ (gctx s.dev c.val).job = some j ∧ (gctx s.dev
      c.val).state = 2 ∧ j.call.isSome = false ∧ ¬ j.off < j.dwords) ∧
    (∃ s : State, ∃ c t iova wr lost j, (∃ t', exec (.jobFault c ⟨.translation t iova wr, lost⟩) s = .next t') ∧ (gctx
      s.dev c.val).job = some j ∧ (gctx s.dev c.val).state = 2) ∧
    (∃ s : State, ∃ c lost j, (∃ t', exec (.jobFault c ⟨.ecc, lost⟩) s = .next t') ∧ (gctx s.dev c.val).job = some j ∧
      (gctx s.dev c.val).state = 2) ∧
    (∃ s : State, ∃ c f rel dl d, (∃ t', exec (.clearLine c) s = .next t') ∧ clearJob s.dev c.val = some (f, rel, dl)
      ∧ d = advance (clearPoint s.dev rel dl) s.dev ∧ ownPoints d = true) ∧
    (∃ s : State, ∃ sl c, (∃ t', exec (.softYieldDone sl) s = .next t') ∧ (gslot s.dev sl.val).ctx = some c ∧ (gslot
      s.dev sl.val).yields = true ∧ (gslot s.dev sl.val).saving = none) ∧
    (∃ s : State, ∃ sl c d, (∃ t', exec (.hardPreempt sl) s = .next t') ∧ (gslot s.dev sl.val).ctx = some c ∧ (gslot
      s.dev sl.val).yields = true ∧ (gslot s.dev sl.val).saving = none ∧ (gslot s.dev sl.val).graceEnd ≠ 0 ∧ d =
      onSlot (advance (gslot s.dev sl.val).graceEnd s.dev) sl.val (fun x =>
      { x with saving := some (advance (gslot s.dev sl.val).graceEnd s.dev).dt })) :=
  ⟨⟨st (onCtx base 0 (fun x => { x with state := 2, job := some default })), 0, _, ⟨_, rfl⟩, optOk (by decide), by
     decide, by decide, by decide⟩,
   ⟨st (jobbed id), 0, 0, 0, false, [], _, ⟨_, rfl⟩, optOk (by decide), by decide⟩,
   ⟨st (jobbed id), 0, [], _, ⟨_, rfl⟩, optOk (by decide), by decide⟩,
   ⟨st clearing, 0, 0, 0, 50000, _, ⟨_, rfl⟩, by decide, rfl, by decide⟩,
   ⟨st (slotted false), 0, _, ⟨_, rfl⟩, optOk (by decide), by decide, by decide⟩,
   ⟨st (slotted false), 0, _, _, ⟨_, rfl⟩, optOk (by decide), by decide, by decide, by decide, rfl⟩⟩

theorem test_GpuJobsRun_met_3 :
    (∃ s : State, ∃ sl t c d, (∃ t', exec (.saveFirstPartDone sl) s = .next t') ∧ (gslot s.dev sl.val).saving = some t
      ∧ (gslot s.dev sl.val).ctx = some c ∧ d = preemptSlot (saveSlot (advance (t + 3414) s.dev) c true) sl.val) ∧
    (∃ s : State, ∃ c n d e, (∃ t', exec (.budgetExhausted c) s = .next t') ∧ n = (slotsHeld s.dev c.val).length ∧
      charges s.dev c.val = true ∧ n ≠ 0 ∧ (gctx s.dev c.val).spent = false ∧ d = chargeCtx (advance (s.dev.dt + cdiv
      ((gctx s.dev c.val).budget * 16000 - (gctx (chargeCtx s.dev c.val) c.val).charge) n) s.dev) c.val ∧ e = onCtx d
      c.val (fun x => { x with spent := true, told := true })) ∧
    (∃ s : State, ∃ x d, (∃ t', exec .budgetReset s = .next t') ∧ x = raster s.dev (fg s.dev GX_SCHED_CTRL
      GX_SCHED_CTRL_BUDGET_PLAT) ∧ (d = (if x.had ∧ x.vtot ≠ 0 ∧ absAt x s.dev.dt % x.vtot ≠ 0 then advance (dtOf x
      (absAt x s.dev.dt / x.vtot + 1) 0) s.dev else s.dev)) ∧ ownPoints d = true) ∧
    (∃ s : State, ∃ f p d, (∃ t', exec (.tpWindowStart f) s = .next t') ∧ p = fg s.dev HS_TP_CTRL HS_TP_CTRL_REF ∧
      tpActive s.dev = true ∧ ptValid s.dev f.val = true ∧ ptTimePart s.dev f.val = true ∧ (raster s.dev p).had = true
      ∧ ¬ ptTpStart s.dev f.val ≥ (raster s.dev p).vtot ∧ s.dev.gpu.windows.contains f.val = false ∧ d = chargeAll
      (advance (lineStart s.dev p (ptTpStart s.dev f.val)) s.dev) ∧ ownPoints d = true) ∧
    (∃ s : State, ∃ f p e d, (∃ t', exec (.tpWindowEnd f) s = .next t') ∧ s.dev.gpu.windows.contains f.val = true ∧ p
      = fg s.dev HS_TP_CTRL HS_TP_CTRL_REF ∧ e = ptTpStart s.dev f.val + ptTpLen s.dev f.val ∧ (d = (if (raster s.dev
      p).had = true ∧ (raster s.dev p).vtot ≠ 0 then advance (lineStart s.dev p (if e < (raster s.dev p).vtot then e
      else 0)) s.dev else s.dev)) ∧ ownPoints d = true) ∧
    (∃ s : State, ∃ k cause i, (∃ t', exec (.clusterDead k cause) s = .next t') ∧ clState s.dev k.val = 0 ∧
      (List.range 16).find? (fun i => decide (slotCluster s.dev i = some k.val)) = some i ∧ (¬ (deathCode cause = 1 ∧
      (gslot s.dev i).ctx.isNone = true))) :=
  ⟨⟨st (slotted true), 0, _, _, _, ⟨_, rfl⟩, optOk (by decide), optOk (by decide), rfl⟩,
   ⟨st (onCtx (slotted false) 0 (fun x => { x with budget := 3 })), 0, _, _, _, ⟨_, rfl⟩, rfl, by decide, by decide,
     by decide, rfl, rfl⟩,
   ⟨st base, _, _, ⟨_, rfl⟩, rfl, rfl, by decide⟩,
   ⟨st (partd []), 3, _, _, ⟨_, rfl⟩, rfl, by decide, by decide, by decide, by decide, by decide, by decide, rfl, by
     decide⟩,
   ⟨st (partd [3]), 3, _, _, _, ⟨_, rfl⟩, by decide, rfl, rfl, rfl, by decide⟩,
   ⟨st base, 0, .tmEcc, _, ⟨_, rfl⟩, by decide, optOk (by decide), by decide⟩⟩

theorem test_GpuJobsRun_met_4 :
    (∃ s : State, ∃ k cause, (∃ t', exec (.clusterDead k cause) s = .next t') ∧ clState s.dev k.val = 1 ∧ deathCode
      cause ≠ 1) ∧
    (∃ s : State, ∃ g i o e, (∃ t', exec (.reliefDone g) s = .next t') ∧ SMap.get s.dev.gpu.relief g.val = some i ∧ o
      = fg s.dev (GX_CLMAP g.val) GX_CLMAP_SPARE ∧ e = setClState (fs
      { s.dev with gpu := { s.dev.gpu with relief := SMap.erase s.dev.gpu.relief g.val } } (GX_CLMAP g.val) (clmapFld
      i) o) (5 * g.val + o) 0 (4 * g.val + i)) ∧
    (∃ s : State, ∃ k i, (∃ t', exec (.ldsEccError k) s = .next t') ∧ (List.range 16).find? (fun i => decide
      (slotCluster s.dev i = some k.val)) = some i ∧ clState s.dev k.val = 0) ∧
    (∃ s : State, ∃ k isWr, (∃ t', exec (.posthumous k isWr) s = .next t') ∧ clState s.dev k.val = 2 ∧
      s.dev.gpu.posted.contains k.val = true) ∧
    (∃ s : State, ∃ k isWr, (∃ t', exec (.posthumous k isWr) s = .next t') ∧ clState s.dev k.val = 2 ∧
      s.dev.gpu.posted.contains k.val = false) ∧
    (∃ s : State, ∃ a v d n, (∃ t', exec (.bistStart a v) s = .next t') ∧ Written s.dev a GX_BIST v d n ∧ a.mid.toNat
      = 0 ∧ fb s.dev GX_BIST GX_BIST_START = false ∧ bit v 31 = true ∧ clState s.dev (bits v 4 0) = 2) :=
  ⟨⟨st (setClState base 4 1 0x1F), 4, .tmEcc, ⟨_, rfl⟩, by decide, by decide⟩,
   ⟨st ({ base with gpu := { base.gpu with relief := [(0, some 2)] } }), 0, _, _, _, ⟨_, rfl⟩, optOk (by decide), rfl,
     rfl⟩,
   ⟨st base, 0, _, ⟨_, rfl⟩, optOk (by decide), by decide⟩,
   ⟨st ({ setClState base 4 2 0x1F with gpu := { base.gpu with posted := [4] } }), 4, true, ⟨_, rfl⟩, by decide, by
     decide⟩,
   ⟨st (setClState base 4 2 0x1F), 4, true, ⟨_, rfl⟩, by decide, by decide⟩,
   ⟨st (setClState base 4 2 0x1F), f0, 0x80000004, _, _, ⟨_, rfl⟩, wOk (by decide), by decide, by decide, by decide,
     by decide⟩⟩

theorem test_GpuJobsRun_met_5 :
    (∃ s : State, ∃ pass k e, (∃ t', exec (.bistDone pass) s = .next t') ∧ fb s.dev GX_BIST GX_BIST_START = true ∧ k =
      fg s.dev GX_BIST GX_BIST_CLUSTER ∧ e = bistResult pass s.dev) ∧
    (∃ s : State, ∃ k, fb s.dev GX_BIST GX_BIST_START = true ∧ k = fg s.dev GX_BIST GX_BIST_CLUSTER) ∧
    (∃ s : State, ∃ k e, fb s.dev GX_BIST GX_BIST_START = true ∧ k = fg s.dev GX_BIST GX_BIST_CLUSTER ∧ e = setClState
      (rasterEvent (fs (fs s.dev GX_BIST GX_BIST_START 0) GX_BIST GX_BIST_RESULT 1) 0x16 (k + 256)) k 1 0x1F) :=
  ⟨⟨st (fs base GX_BIST GX_BIST_START 1), true, _, _, ⟨_, rfl⟩, by decide, rfl, rfl⟩,
   ⟨st (fs base GX_BIST GX_BIST_START 1), _, by decide, rfl⟩,
   ⟨st (fs base GX_BIST GX_BIST_START 1), _, _, by decide, rfl, rfl⟩⟩

/-! #### BuffersRun -/

theorem test_BuffersRun_met_1 :
    (∃ s : State, ∃ f r q d i e, (∃ t', exec (.bufCreate f r) s = .next t') ∧ Runs s.dev f.val r.val 0x300 []
      chkBufCreate q d ∧ bankerLike d = false ∧ i = (freeEntries d).getD ((takeFree d).1 % (freeEntries d).length) 0 ∧
      e = createEntry (takeFree d).2 i f.val (atN q.words 0x10 8)) ∧
    (∃ s : State, ∃ f r q d, (∃ t', exec (.bufRelease f r) s = .next t') ∧ Runs s.dev f.val r.val 0x320 [] chkHandle q
      d ∧ refsOf d (handleIdx (at4 q.words 0x10)) = []) ∧
    (∃ s : State, ∃ f r q d, (∃ t', exec (.bufRelease f r) s = .next t') ∧ Runs s.dev f.val r.val 0x320 [] chkHandle q
      d ∧ refsOf d (handleIdx (at4 q.words 0x10)) ≠ []) ∧
    (∃ s : State, ∃ f r q d, (∃ t', exec (.bufDestroy f r) s = .next t') ∧ Runs s.dev f.val r.val 0x310 [] chkHandle q
      d ∧ refsOf (sendBuf (onBuf d (handleIdx (at4 q.words 0x10)) (fun e => { e with state := 2 })) (handleIdx (at4
      q.words 0x10))) (handleIdx (at4 q.words 0x10)) = []) ∧
    (∃ s : State, ∃ f r q d, (∃ t', exec (.bufDestroy f r) s = .next t') ∧ Runs s.dev f.val r.val 0x310 [] chkHandle q
      d ∧ refsOf (sendBuf (onBuf d (handleIdx (at4 q.words 0x10)) (fun e => { e with state := 2 })) (handleIdx (at4
      q.words 0x10))) (handleIdx (at4 q.words 0x10)) ≠ []) ∧
    (∃ s : State, ∃ f r q d c n e, (∃ t', exec (.skeinReserve f r) s = .next t') ∧ Runs s.dev f.val r.val 0x330 []
      chkSkeinReserve q d ∧ c = bits (at4 q.words 0x10) 31 30 ∧ n = bits (at4 q.words 0x10) 13 0 ∧ e =
      { linkSend d 0x05 [2 ^ 32 + 2, f.val, c, n] with buf := { (linkSend d 0x05 [2 ^ 32 + 2, f.val, c, n]).buf with claims := SMap.set (linkSend d 0x05 [2 ^ 32 + 2, f.val, c, n]).buf.claims (4 * f.val + c) n } }) :=
  ⟨⟨st (ringed base 0 0 2 (words 48 [(0x10, 2 ^ 26 + 2 ^ 24), (0x14, 2 ^ 16 + 1), (0x28, 64)])), 0, 0, _, _, _, _, ⟨_,
     rfl⟩, runsOk (by decide), by decide, rfl, rfl⟩,
   ⟨st (ringed (bufd false) 0 0 2 (words 50 [(0x10, 4)])), 0, 0, _, _, ⟨_, rfl⟩, runsOk (by decide), by decide⟩,
   ⟨st (ringed (bufd true) 0 0 2 (words 50 [(0x10, 4)])), 0, 0, _, _, ⟨_, rfl⟩, runsOk (by decide), by decide⟩,
   ⟨st (ringed (bufd false) 0 0 2 (words 49 [(0x10, 4)])), 0, 0, _, _, ⟨_, rfl⟩, runsOk (by decide), by decide⟩,
   ⟨st (ringed (bufd true) 0 0 2 (words 49 [(0x10, 4)])), 0, 0, _, _, ⟨_, rfl⟩, runsOk (by decide), by decide⟩,
   ⟨st (ringed base 0 0 2 (words 51 [])), 0, 0, _, _, _, _, _, ⟨_, rfl⟩, runsOk (by decide), rfl, rfl, rfl⟩⟩

theorem test_BuffersRun_met_2 :
    (∃ s : State, ∃ f r q d x e, (∃ t', exec (.bufQuery f r) s = .next t') ∧ Runs s.dev f.val r.val 0x340 []
      chkBufQuery q d ∧ x = bufEntry d (handleIdx (at4 q.words 0x10)) ∧ memWrite d f.val f.val (at8 q.words 0x18)
      (wordBytes (x.words ++ [BitVec.ofNat 32 (x.state * 2 ^ 30 + sat (refsOf d (handleIdx (at4 q.words 0x10))).length
      65535), BitVec.ofNat 32 (sat (x.waits.filter (fun w => !w.destroy)).length 65535), 0, 0, 0, 0, 0, 0])) = (e,
      true)) :=
  ⟨st (ringed (bufd false) 0 0 2 (words 52 [(0x10, 4)])), 0, 0, _, _, _, _, ⟨_, rfl⟩, runsOk (by decide), rfl, pairOk
    (by decide)⟩

/-! #### ScanOutRuns -/

theorem test_ScanOutRuns_met_1 :
    (∃ s : State, ∃ a k w v d n, (∃ t', exec (.dpllWrite a k w v) s = .next t') ∧ Written s.dev a (if w.val = 0 then
      SO_DPLL_W0 k.val else SO_DPLL_W1 k.val) v d n ∧ dpllUsed s.dev k.val = false ∧ (if w.val = 0 then dpllRangeOk n
      (rd s.dev (SO_DPLL_W1 k.val)) else dpllRangeOk (rd s.dev (SO_DPLL_W0 k.val)) n) = true) ∧
    (∃ s : State, ∃ k, (∃ t', exec (.dpllLock k) s = .next t') ∧ fb s.dev (SO_DPLL_W0 k.val) SO_DPLL_W0_EN = true) ∧
    (∃ s : State, ∃ k q d, (∃ t', exec (.routeIdle k) s = .next t') ∧ (SMap.get s.dev.scan.routes k.val).on = true ∧ q
      = sinkPort k.val ∧ (SMap.get s.dev.scan.routes k.val).old.filter (fun p => scans s.dev p) = none ∧ d = idleSinks
      (onScan (s.dev) (fun x => { x with routes := SMap.set x.routes k.val default })) (fun o => decide (o = k.val)) ∧
      (SMap.get s.dev.scan.routes k.val).retrain = false) ∧
    (∃ s : State, ∃ k q d, (∃ t', exec (.routeIdle k) s = .next t') ∧ (SMap.get s.dev.scan.routes k.val).on = true ∧ q
      = sinkPort k.val ∧ (SMap.get s.dev.scan.routes k.val).old.filter (fun p => scans s.dev p) = none ∧ d = idleSinks
      (onScan (s.dev) (fun x => { x with routes := SMap.set x.routes k.val default })) (fun o => decide (o = k.val)) ∧
      (SMap.get s.dev.scan.routes k.val).retrain = true ∧ (portState d q = 2 ∨ portState d q = 3)) ∧
    (∃ s : State, ∃ k q p d, (∃ t', exec (.routeIdle k) s = .next t') ∧ (SMap.get s.dev.scan.routes k.val).on = true ∧
      q = sinkPort k.val ∧ (SMap.get s.dev.scan.routes k.val).old.filter (fun p => scans s.dev p) = some p ∧ d =
      idleSinks (onScan (advance (dtOfAbs (raster s.dev p) (blankFrom (raster s.dev p) (SMap.get s.dev.scan.routes
      k.val).from0 s.dev.dt)) s.dev) (fun x => { x with routes := SMap.set x.routes k.val default })) (fun o => decide
      (o = k.val)) ∧ (SMap.get s.dev.scan.routes k.val).retrain = false) ∧
    (∃ s : State, ∃ k q p d, (∃ t', exec (.routeIdle k) s = .next t') ∧ (SMap.get s.dev.scan.routes k.val).on = true ∧
      q = sinkPort k.val ∧ (SMap.get s.dev.scan.routes k.val).old.filter (fun p => scans s.dev p) = some p ∧ d =
      idleSinks (onScan (advance (dtOfAbs (raster s.dev p) (blankFrom (raster s.dev p) (SMap.get s.dev.scan.routes
      k.val).from0 s.dev.dt)) s.dev) (fun x => { x with routes := SMap.set x.routes k.val default })) (fun o => decide
      (o = k.val)) ∧ (SMap.get s.dev.scan.routes k.val).retrain = true ∧ (portState d q = 2 ∨ portState d q = 3)) :=
  ⟨⟨st base, f0, 0, 0, 0x80000264, _, _, ⟨_, rfl⟩, wOk (by decide), by decide, by decide⟩,
   ⟨st (fs base (SO_DPLL_W0 0) SO_DPLL_W0_EN 1), 0, ⟨_, rfl⟩, by decide⟩,
   ⟨st (routed 0 none false), 0, _, _, ⟨_, rfl⟩, by decide, rfl, by decide, rfl, by decide⟩,
   ⟨st (setPortState (routed 0 none true) 0 2), 0, _, _, ⟨_, rfl⟩, by decide, rfl, by decide, rfl, by decide, .inl (by
     decide)⟩,
   ⟨st (routed 0 (some 0) false), 0, _, 0, _, ⟨_, rfl⟩, by decide, rfl, by decide, rfl, by decide⟩,
   ⟨st (setPortState (routed 0 (some 0) true) 0 3), 0, _, 0, _, ⟨_, rfl⟩, by decide, rfl, by decide, rfl, by decide,
     .inr (by decide)⟩⟩

theorem test_ScanOutRuns_met_2 :
    (∃ s : State, ∃ k, (∃ t', exec (.sinkLive k) s = .next t') ∧ mayGoLive s.dev k.val = true) ∧
    (∃ s : State, ∃ p d, (∃ t', exec (.linkTrainDone p true) s = .next t') ∧ portState s.dev p.val = 1 ∧ p.val < 4 ∧ d
      = showSlots (setPortState (onScan s.dev (fun x => { x with attempts := SMap.set x.attempts p.val 0 })) p.val 2)
      p.val) ∧
    (∃ s : State, ∃ p d, (∃ t', exec (.linkTrainDone p true) s = .next t') ∧ portState s.dev p.val = 1 ∧ ¬ p.val < 4 ∧
      p.val < 12 ∧ d = showSlots (setPortState (onScan s.dev (fun x =>
      { x with attempts := SMap.set x.attempts p.val 0 })) p.val 2) p.val) ∧
    (∃ s : State, ∃ p d, (∃ t', exec (.linkTrainDone p true) s = .next t') ∧ portState s.dev p.val = 1 ∧ ¬ p.val < 4 ∧
      ¬ p.val < 12 ∧ d = showSlots (setPortState (onScan s.dev (fun x =>
      { x with attempts := SMap.set x.attempts p.val 0 })) p.val 2) p.val) ∧
    (∃ s : State, ∃ p d, (∃ t', exec (.linkTrainDone p false) s = .next t') ∧ portState s.dev p.val = 1 ∧ (SMap.get
      s.dev.scan.attempts p.val + 1) ≥ 3 ∧ d = (if p.val < 4 then bump s.dev (SO_DP_STAT p.val) SO_DP_STAT_TRAIN_FAILS
      else s.dev)) ∧
    (∃ s : State, ∃ p d, (∃ t', exec (.linkTrainDone p false) s = .next t') ∧ portState s.dev p.val = 1 ∧ ¬ (SMap.get
      s.dev.scan.attempts p.val + 1) ≥ 3 ∧ d = onScan (if p.val < 4 then bump s.dev (SO_DP_STAT p.val)
      SO_DP_STAT_TRAIN_FAILS else s.dev) (fun x =>
      { x with attempts := SMap.set x.attempts p.val (SMap.get s.dev.scan.attempts p.val + 1) })) :=
  ⟨⟨st (sunk 2), 0, ⟨_, rfl⟩, by decide⟩,
   ⟨st (sunk 1), 0, _, ⟨_, rfl⟩, by decide, by decide, rfl⟩,
   ⟨st (setPortState base 4 1), 4, _, ⟨_, rfl⟩, by decide, by decide, by decide, rfl⟩,
   ⟨st (setPortState base 12 1), 12, _, ⟨_, rfl⟩, by decide, by decide, by decide, rfl⟩,
   ⟨st (onScan (setPortState base 4 1) (fun x => { x with attempts := [(4, 2)] })), 4, _, ⟨_, rfl⟩, by decide, by
     decide, rfl⟩,
   ⟨st (setPortState base 4 1), 4, _, ⟨_, rfl⟩, by decide, by decide, rfl⟩⟩

theorem test_ScanOutRuns_met_3 :
    (∃ s : State, ∃ a v d n, (∃ t', exec (.muteWrite a v) s = .next t') ∧ Written s.dev a SO_MUTE v d n) ∧
    (∃ s : State, ∃ p, (∃ t', exec (.muteApply p) s = .next t') ∧ hasBit (fg s.dev SO_MUTE SO_MUTE_MUTE) p.val = true
      ∧ portState s.dev p.val = 3) ∧
    (∃ s : State, ∃ p, (∃ t', exec (.muteApply p) s = .next t') ∧ hasBit (fg s.dev SO_MUTE SO_MUTE_MUTE) p.val = false
      ∧ portState s.dev p.val = 2) ∧
    (∃ s : State, ∃ a p v d n, (∃ t', exec (.auxNativeWrite a p v) s = .next t') ∧ Written s.dev a (SO_AUX_CMD p.val)
      v d n ∧ auxBusy s.dev p.val = false ∧ bit n 31 = true ∧ bits n 29 28 = 0) ∧
    (∃ s : State, ∃ a p v d n, (∃ t', exec (.auxNativeRead a p v) s = .next t') ∧ Written s.dev a (SO_AUX_CMD p.val) v
      d n ∧ auxBusy s.dev p.val = false ∧ bit n 31 = true ∧ bits n 29 28 = 1) ∧
    (∃ s : State, ∃ a p v d n, (∃ t', exec (.auxI2cWrite a p v) s = .next t') ∧ Written s.dev a (SO_AUX_CMD p.val) v d
      n ∧ auxBusy s.dev p.val = false ∧ bit n 31 = true ∧ bits n 29 28 = 2) :=
  ⟨⟨st base, f0, 1, _, _, ⟨_, rfl⟩, wOk (by decide)⟩,
   ⟨st (wr (sunk 3) SO_MUTE 0xFFFFFFFF), 0, ⟨_, rfl⟩, by decide, by decide⟩,
   ⟨st (wr (sunk 2) SO_MUTE 0), 0, ⟨_, rfl⟩, by decide, by decide⟩,
   ⟨st base, f0, 0, 0x80000000, _, _, ⟨_, rfl⟩, wOk (by decide), by decide, by decide, by decide⟩,
   ⟨st base, f0, 0, 0x90000000, _, _, ⟨_, rfl⟩, wOk (by decide), by decide, by decide, by decide⟩,
   ⟨st base, f0, 0, 0xA0000000, _, _, ⟨_, rfl⟩, wOk (by decide), by decide, by decide, by decide⟩⟩

theorem test_ScanOutRuns_met_4 :
    (∃ s : State, ∃ a p v d n, (∃ t', exec (.auxI2cRead a p v) s = .next t') ∧ Written s.dev a (SO_AUX_CMD p.val) v d
      n ∧ auxBusy s.dev p.val = false ∧ bit n 31 = true ∧ bits n 29 28 = 3) ∧
    (∃ s : State, ∃ p bytes, (∃ t', exec (.auxReply p (.ack bytes)) s = .next t') ∧ auxBusy s.dev p.val = true ∧ fg
      s.dev (SO_AUX_CMD p.val) SO_AUX_CMD_CMD % 2 = 0) ∧
    (∃ s : State, ∃ p bytes bs, (∃ t', exec (.auxReply p (.ack bytes)) s = .next t') ∧ auxBusy s.dev p.val = true ∧ fg
      s.dev (SO_AUX_CMD p.val) SO_AUX_CMD_CMD % 2 = 1 ∧ bs = bytes.take (fg s.dev (SO_AUX_CMD p.val) SO_AUX_CMD_LEN +
      1)) ∧
    (∃ s : State, ∃ p, (∃ t', exec (.auxReply p .nack) s = .next t') ∧ auxBusy s.dev p.val = true) ∧
    (∃ s : State, ∃ p, (∃ t', exec (.auxReply p .defer) s = .next t') ∧ auxBusy s.dev p.val = true ∧ SMap.get
      s.dev.scan.auxTries p.val < 7) ∧
    (∃ s : State, ∃ p, (∃ t', exec (.auxReply p .defer) s = .next t') ∧ auxBusy s.dev p.val = true ∧ ¬ SMap.get
      s.dev.scan.auxTries p.val < 7) :=
  ⟨⟨st base, f0, 0, 0xB0000000, _, _, ⟨_, rfl⟩, wOk (by decide), by decide, by decide, by decide⟩,
   ⟨st (auxed 0), 0, [], ⟨_, rfl⟩, by decide, by decide⟩,
   ⟨st (auxed 1), 0, [1], _, ⟨_, rfl⟩, by decide, by decide, rfl⟩,
   ⟨st (auxed 0), 0, ⟨_, rfl⟩, by decide⟩,
   ⟨st (auxed 0), 0, ⟨_, rfl⟩, by decide, by decide⟩,
   ⟨st (onScan (auxed 0) (fun x => { x with auxTries := [(0, 7)] })), 0, ⟨_, rfl⟩, by decide, by decide⟩⟩

theorem test_ScanOutRuns_met_5 :
    (∃ s : State, ∃ p, (∃ t', exec (.auxTimeout p) s = .next t') ∧ auxBusy s.dev p.val = true) ∧
    (∃ s : State, ∃ p, (∃ t', exec (.hpdPlug p) s = .next t') ∧ fb s.dev (SO_DP_STAT p.val) SO_DP_STAT_HPD = false) ∧
    (∃ s : State, ∃ p, (∃ t', exec (.hpdUnplug p) s = .next t') ∧ fb s.dev (SO_DP_STAT p.val) SO_DP_STAT_HPD = true) ∧
    (∃ s : State, ∃ p lost, (∃ t', exec (.hpdIrq p lost) s = .next t') ∧ fb s.dev (SO_DP_STAT p.val) SO_DP_STAT_HPD =
      true) ∧
    (∃ s : State, ∃ q sent, (∃ t', exec (.aphyAckTimeout q sent) s = .next t') ∧ (portState s.dev (q.val + 4) = 2 ∨
      portState s.dev (q.val + 4) = 3) ∧ sent.val < 2) ∧
    (∃ s : State, ∃ q sent n d, (∃ t', exec (.aphyAckTimeout q sent) s = .next t') ∧ (portState s.dev (q.val + 4) = 2
      ∨ portState s.dev (q.val + 4) = 3) ∧ ¬ sent.val < 2 ∧ n = (if (SMap.get s.dev.scan.drops q.val).frame =
      portFrame s.dev (q.val + 4) then (SMap.get s.dev.scan.drops q.val).n + 1 else 1) ∧ d = onScan (bump s.dev
      (SO_AP_STAT q.val) SO_AP_STAT_DROPS) (fun x =>
      { x with drops := SMap.set x.drops q.val { frame := portFrame s.dev (q.val + 4), n := if n ≥ 8 then 0 else n } })) :=
  ⟨⟨st (auxed 0), 0, ⟨_, rfl⟩, by decide⟩,
   ⟨st base, 0, ⟨_, rfl⟩, by decide⟩,
   ⟨st (fs base (SO_DP_STAT 0) SO_DP_STAT_HPD 1), 0, ⟨_, rfl⟩, by decide⟩,
   ⟨st (fs base (SO_DP_STAT 0) SO_DP_STAT_HPD 1), 0, false, ⟨_, rfl⟩, by decide⟩,
   ⟨st (setPortState base 4 2), 0, 1, ⟨_, rfl⟩, .inl (by decide), by decide⟩,
   ⟨st (setPortState base 4 3), 0, 2, _, _, ⟨_, rfl⟩, .inr (by decide), by decide, rfl, rfl⟩⟩

theorem test_ScanOutRuns_met_6 :
    (∃ s : State, ∃ t : Fin 4, ∃ e : Pulse, (∃ t', exec (.teEdge ⟨t, e⟩) s = .next t') ∧ ¬ e.lenNs < 100) ∧
    (∃ s : State, ∃ k p h t d, (∃ t', exec (.teTimeout k) s = .next t') ∧ teSource s.dev k.val = some p ∧ (raster
      s.dev p).hold = some h ∧ scans s.dev p = true ∧ t = dtOfAbs (raster s.dev p) (h + fg s.dev (SO_DS_TE k.val)
      SO_DS_TE_TE_TIMEOUT) ∧ d = bump (advance t s.dev) (SO_DS_STAT k.val) SO_DS_STAT_TE_MISSED) ∧
    (∃ s : State, ∃ p line x f d e g, (∃ t', exec (.underflow p line x) s = .next t') ∧ scans s.dev p.val = true ∧
      ((platRun s.dev p.val).mode = mFRT ∨ (platRun s.dev p.val).mode = mHER) ∧ f = frameNow s.dev p.val ∧ d = onPlat
      (noteStrip s.dev p.val (f * (raster s.dev p.val).vtot + line) 3) p.val (fun y =>
      { y with gaps := (f * (raster s.dev p.val).vtot + line, x) :: y.gaps }) ∧ e = (if d.heritage then mdhIrq (setMdh
      d (0x114 + 0x40 * p.val) (BitVec.ofNat 32 (sat ((mdhReg d (0x114 + 0x40 * p.val)).toNat + 1) 65535))) (16 +
      p.val) else d) ∧ g = count (emit (bump e (SO_UFLOW p.val) SO_UFLOW_LINES) (.panel 2 p.val (line * 2 ^ 16 + x)))
      (394 + 2 * p.val + 1)) ∧
    (∃ s : State, ∃ p d e, (∃ t', exec (.psrEnter p) s = .next t') ∧ psrMay s.dev p.val = true ∧ d = onPlat (fs s.dev
      (SO_PSTAT p.val) SO_PSTAT_STATE 2) p.val (fun y =>
      { y with psr := true, psrFrame := none, psrLast := some (frameNow s.dev p.val - 1), openStrips := [], late := [] })
      ∧ e = platEvent d 0x28 p.val (frameNow s.dev p.val)) ∧
    (∃ s : State, ∃ p f, (∃ t', exec (.psrExit p) s = .next t') ∧ (platRun s.dev p.val).psrFrame = some f ∧ (platRun
      s.dev p.val).psr = true) :=
  ⟨⟨st base, 0, ⟨true,100⟩, ⟨_, rfl⟩, by decide⟩,
   ⟨st torn, 0, 0, 5, _, _, ⟨_, rfl⟩, optOk (by decide), optOk (by decide), by decide, rfl, rfl⟩,
   ⟨st (onP0 lit1 (fun y => { y with mode := mFRT })), 0, 3, 7, _, _, _, _, ⟨_, rfl⟩, by decide, .inl (by decide),
     rfl, rfl, rfl, rfl⟩,
   ⟨st (onP0 (fs (wr (sunk 3) (SO_PSR 0) 0x80040000) (GL_LAND_LINE 0) GL_LAND_LINE_COUNT 0) (fun y =>
     { y with same := 9 })), 0, _, _, ⟨_, rfl⟩, by decide, rfl, rfl⟩,
   ⟨st (onP0 lit1 (fun y => { y with psr := true, psrFrame := some 1 })), 0, _, ⟨_, rfl⟩, optOk (by decide), by
     decide⟩⟩

/-! #### TouchRuns -/

theorem test_TouchRuns_met_1 :
    (∃ s : State, ∃ f r q d, (∃ t', exec (.touchCfg f r) s = .next t') ∧ Runs s.dev f.val r.val 0x400 [] chkTouchCfg q
      d ∧ tcSel q = 2) ∧
    (∃ s : State, ∃ f r q d, (∃ t', exec (.touchCfg f r) s = .next t') ∧ Runs s.dev f.val r.val 0x400 [] chkTouchCfg q
      d ∧ tcSel q ≠ 2) ∧
    (∃ s : State, ∃ f r q d e, (∃ t', exec (.touchBaselineReload f r) s = .next t') ∧ Runs s.dev f.val r.val 0x410 []
      (chkBaseline [(0x10, 0xF0000007)]) q d ∧ e = onPanel d (tbPanel q) (fun x => { x with start := true })) ∧
    (∃ s : State, ∃ f r q d, (∃ t', exec (.touchBaselineRebase f r) s = .next t') ∧ Runs s.dev f.val r.val 0x411 []
      (chkBaseline [(0x10, 0xF0000007)]) q d) ∧
    (∃ s : State, ∃ f r q d, (∃ t', exec (.touchBaselineSave f r) s = .next t') ∧ Runs s.dev f.val r.val 0x412 []
      (chkBaseline [(0x10, 0xF0000007)]) q d ∧ storeThere d = true) ∧
    (∃ s : State, ∃ f r q d, (∃ t', exec (.touchBaselineSave f r) s = .next t') ∧ Runs s.dev f.val r.val 0x412 []
      (chkBaseline [(0x10, 0xF0000007)]) q d ∧ storeThere d = false) :=
  ⟨⟨st (ringed base 0 0 3 (words 64 [(0x10, 2147549184), (0x20, 0x80000000)])), 0, 0, _, _, ⟨_, rfl⟩, runsOk (by
     decide), by decide⟩,
   ⟨st (ringed base 0 0 3 (words 64 [(0x10, 1073807360), (0x20, 0)])), 0, 0, _, _, ⟨_, rfl⟩, runsOk (by decide), by
     decide⟩,
   ⟨st (ringed base 0 0 3 (words 65 [(0x10, 0)])), 0, 0, _, _, _, ⟨_, rfl⟩, runsOk (by decide), rfl⟩,
   ⟨st (ringed base 0 0 3 (words 65 [(0x10, 268435456)])), 0, 0, _, _, ⟨_, rfl⟩, runsOk (by decide)⟩,
   ⟨st (ringed (fs base PM_STORE_STAT PM_STORE_STAT_PRESENT 1) 0 0 3 (words 65 [(0x10, 536870912)])), 0, 0, _, _, ⟨_,
     rfl⟩, runsOk (by decide), by decide⟩,
   ⟨st (ringed (fs base PM_STORE_STAT PM_STORE_STAT_PRESENT 0) 0 0 3 (words 65 [(0x10, 536870912)])), 0, 0, _, _, ⟨_,
     rfl⟩, runsOk (by decide), by decide⟩⟩

theorem test_TouchRuns_met_2 :
    (∃ s : State, ∃ f r q d, (∃ t', exec (.touchBaselineDump f r) s = .next t') ∧ Runs s.dev f.val r.val 0x413 []
      (chkBaseline [(0x10, 0xF0000007), (0x18, full), (0x1C, full), (0x20, full)]) q d) ∧
    (∃ s : State, ∃ f r q d, (∃ t', exec (.touchTestRef f r) s = .next t') ∧ Runs s.dev f.val r.val 0x420 []
      chkTouchTest q d ∧ (panel d (tbPanel q)).tests = []) ∧
    (∃ s : State, ∃ f r q d, (∃ t', exec (.touchTestRef f r) s = .next t') ∧ Runs s.dev f.val r.val 0x420 []
      chkTouchTest q d ∧ (panel d (tbPanel q)).tests ≠ []) ∧
    (∃ s : State, ∃ f r q d, (∃ t', exec (.touchTestOpen f r) s = .next t') ∧ Runs s.dev f.val r.val 0x421 []
      chkTouchTest q d ∧ (panel d (tbPanel q)).tests = []) ∧
    (∃ s : State, ∃ f r q d, (∃ t', exec (.touchTestOpen f r) s = .next t') ∧ Runs s.dev f.val r.val 0x421 []
      chkTouchTest q d ∧ (panel d (tbPanel q)).tests ≠ []) ∧
    (∃ s : State, ∃ f r q d, (∃ t', exec (.touchTestShort f r) s = .next t') ∧ Runs s.dev f.val r.val 0x422 []
      chkTouchTest q d ∧ (panel d (tbPanel q)).tests = []) :=
  ⟨⟨st (ringed base 0 0 3 (words 65 [(0x10, 805306368), (0x20, 8192)])), 0, 0, _, _, ⟨_, rfl⟩, runsOk (by decide)⟩,
   ⟨st (ringed base 0 0 3 (words 66 [(0x10, 0)])), 0, 0, _, _, ⟨_, rfl⟩, runsOk (by decide), by decide⟩,
   ⟨st (ringed (onPanel base 0 (fun x => { x with tests := [default] })) 0 0 3 (words 66 [(0x10, 0)])), 0, 0, _, _,
     ⟨_, rfl⟩, runsOk (by decide), by decide⟩,
   ⟨st (ringed base 0 0 3 (words 66 [(0x10, 268435456)])), 0, 0, _, _, ⟨_, rfl⟩, runsOk (by decide), by decide⟩,
   ⟨st (ringed (onPanel base 0 (fun x => { x with tests := [default] })) 0 0 3 (words 66 [(0x10, 268435456)])), 0, 0,
     _, _, ⟨_, rfl⟩, runsOk (by decide), by decide⟩,
   ⟨st (ringed base 0 0 3 (words 66 [(0x10, 536870912)])), 0, 0, _, _, ⟨_, rfl⟩, runsOk (by decide), by decide⟩⟩

theorem test_TouchRuns_met_3 :
    (∃ s : State, ∃ f r q d, (∃ t', exec (.touchTestShort f r) s = .next t') ∧ Runs s.dev f.val r.val 0x422 []
      chkTouchTest q d ∧ (panel d (tbPanel q)).tests ≠ []) ∧
    (∃ s : State, ∃ t raw leaks refs e es fails d g ok, (∃ t', exec (.touchTestDone t raw leaks refs) s = .next t') ∧
      (panel s.dev t.val).tests = e :: es ∧ fails = testFails s.dev (panelWords s.dev t.val) e.kind raw leaks refs ∧ d
      = showTesting (setPanelState (onPanel s.dev t.val (fun x => { x with tests := es })) t.val (if !pnEn (panelWords
      s.dev t.val) then 0 else if (panel s.dev t.val).start then 1 else 2)) ∧ e.f < 32 ∧ memWritePages 3 d e.f
      midTOUCH e.iova (leBytes 8 (maskOfList fails.1) ++ leBytes 8 (maskOfList fails.2) ++ (List.range 48).flatMap
      (fun k => leBytes 2 (if e.kind = 0 then refs.getD k 0 else 0))) = (g, ok)) ∧
    (∃ s : State, ∃ t raw selfTx selfRx x, (∃ t', exec (.touchFrameProcess t raw selfTx selfRx) s = .next t') ∧ x =
      panel s.dev t.val ∧ x.scanning = true ∧ x.ready = true ∧ panelState s.dev t.val ≠ 3) ∧
    (∃ s : State, ∃ t x, (∃ t', exec (.spiDrdy t) s = .next t') ∧ x = panel s.dev t.val ∧ x.scanning = true ∧ x.ready
      = false ∧ pnSource x.words = 2 ∧ pnDrdyGpio x.words ≠ 63) ∧
    (∃ s : State, ∃ t x d, (∃ t', exec (.spiDrdyTimeout t) s = .next t') ∧ x = panel s.dev t.val ∧ x.scanning = true ∧
      x.ready = false ∧ pnSource x.words = 2 ∧ d = advance (x.t0 + pnDrdyUs x.words * 1000) s.dev) ∧
    (∃ s : State, ∃ q bytes x n pos t0 bs, (∃ t', exec (.tunnelSegment q bytes) s = .next t') ∧ x = SMap.get
      s.dev.touch.tun q.val ∧ n = (bytes.getD 3 0).toNat ∧ pos = (bytes.getD 1 0).toNat / 64 ∧ (bytes.getD 0 0).toNat
      = 0xA7 ∧ (pos % 2 == 1) = !x.busy ∧ (x.busy = false ∨ (bytes.getD 2 0).toNat = x.seq) ∧ 1 ≤ n ∧ n ≤ 60 ∧
      ((bytes.drop 4).take n).length = n ∧ domUp s.dev 14 = true ∧ t0 = (if x.busy then x.t0 else s.dev.dt) ∧ bs =
      x.bytes ++ (bytes.drop 4).take n ∧ pos ≥ 2) :=
  ⟨⟨st (ringed (onPanel base 0 (fun x => { x with tests := [default] })) 0 0 3 (words 66 [(0x10, 536870912)])), 0, 0,
     _, _, ⟨_, rfl⟩, runsOk (by decide), by decide⟩,
   ⟨st (panelled (fun x => { x with tests := [default] })), 0, [], [], [], default, [], _, _, _, true, ⟨_, rfl⟩, rfl,
     rfl, rfl, by decide, pairOk (by decide)⟩,
   ⟨st (panelled (fun x => { x with scanning := true, ready := true })), 0, [], [], [], _, ⟨_, rfl⟩, rfl, by decide,
     by decide, by decide⟩,
   ⟨st (panelled (fun x =>
     { x with scanning := true, ready := false, words := [536870912, 0, 0, 0, 0, 0, 0, 0, 0, 0] })), 0, _, ⟨_, rfl⟩,
     rfl, by decide, by decide, by decide, by decide⟩,
   ⟨st (panelled (fun x =>
     { x with scanning := true, ready := false, words := [536870912, 0, 0, 0, 0, 0, 0, 0, 0, 0] })), 0, _, _, ⟨_,
     rfl⟩, rfl, by decide, by decide, by decide, rfl⟩,
   ⟨st base, 0, [0xA7, 0xC0, 0, 1, 5], _, _, _, _, _, ⟨_, rfl⟩, rfl, rfl, rfl, by decide, by decide, .inl (by decide),
     by decide, by decide, by decide, by decide, rfl, rfl, by decide⟩⟩

theorem test_TouchRuns_met_4 :
    (∃ s : State, ∃ q bytes x n pos t0 bs, (∃ t', exec (.tunnelSegment q bytes) s = .next t') ∧ x = SMap.get
      s.dev.touch.tun q.val ∧ n = (bytes.getD 3 0).toNat ∧ pos = (bytes.getD 1 0).toNat / 64 ∧ (bytes.getD 0 0).toNat
      = 0xA7 ∧ (pos % 2 == 1) = !x.busy ∧ (x.busy = false ∨ (bytes.getD 2 0).toNat = x.seq) ∧ 1 ≤ n ∧ n ≤ 60 ∧
      ((bytes.drop 4).take n).length = n ∧ domUp s.dev 14 = true ∧ t0 = (if x.busy then x.t0 else s.dev.dt) ∧ bs =
      x.bytes ++ (bytes.drop 4).take n ∧ ¬ pos ≥ 2 ∧ bs.length ≤ 8212) ∧
    (∃ s : State, ∃ t d, (∃ t', exec (.tunnelFrameTimeout t) s = .next t') ∧ pnEn (panelWords s.dev t.val) = true ∧
      pnSource (panelWords s.dev t.val) = 3 ∧ d = advance ((panel s.dev t.val).lastValid + pnMissMax (panelWords s.dev
      t.val) * 10000000) s.dev) ∧
    (∃ s : State, ∃ t id ws c t0, (∃ t', exec (.longContact t id) s = .next t') ∧ ws = panelWords s.dev t.val ∧ (panel
      s.dev t.val).contacts.find? (fun c => c.id == id.val && c.told) = some c ∧ pnLongS ws ≠ 0 ∧ t0 = c.down +
      (c.longs + 1) * pnLongS ws * 1000000000) ∧
    (∃ s : State, ∃ t id ws c t0, (∃ t', exec (.forcedRelease t id) s = .next t') ∧ ws = panelWords s.dev t.val ∧
      (panel s.dev t.val).contacts.find? (fun c => c.id == id.val && c.told) = some c ∧ pnMaxS ws ≠ 0 ∧ t0 = c.down +
      pnMaxS ws * 1000000000) :=
  ⟨⟨st base, 0, [0xA7, 0x40, 0, 1, 5], _, _, _, _, _, ⟨_, rfl⟩, rfl, rfl, rfl, by decide, by decide, .inl (by decide),
     by decide, by decide, by decide, by decide, rfl, rfl, by decide, by decide⟩,
   ⟨st (panelWord base 0 2952790016), 0, _, ⟨_, rfl⟩, by decide, by decide, rfl⟩,
   ⟨st (panelWord (panelled (fun x => { x with contacts := [held] })) 6 0x00050005), 0, 3, _, held, _, ⟨_, rfl⟩, rfl,
     by decide, by decide, rfl⟩,
   ⟨st (panelWord (panelled (fun x => { x with contacts := [held] })) 6 0x00050005), 0, 3, _, held, _, ⟨_, rfl⟩, rfl,
     by decide, by decide, rfl⟩⟩

/-! #### HapticsRun -/

theorem test_HapticsRun_met_1 :
    (∃ s : State, ∃ f r q d, (∃ t', exec (.hapticPlay f r) s = .next t') ∧ Runs s.dev f.val r.val 0x440 []
      chkHapticPlay q d) ∧
    (∃ s : State, ∃ f r q d m, (∃ t', exec (.hapticLoad f r m) s = .next t') ∧ Runs s.dev f.val r.val 0x450 [m]
      chkHapticLoad q d ∧ bit (at4 q.words 0x10) 31 = true) ∧
    (∃ s : State, ∃ f r q d m e ws, (∃ t', exec (.hapticLoad f r m) s = .next t') ∧ Runs s.dev f.val r.val 0x450 [m]
      chkHapticLoad q d ∧ bit (at4 q.words 0x10) 31 = false ∧ memRead d f.val midHAPTIC (at8 q.words 0x18) ((at4
      q.words 0x20).toNat / 4) (q.mem.headD { data := [], ecc := false, ats := false }) = (e, .words ws) ∧ effectOk ws
      = true) ∧
    (∃ s : State, ∃ f r q d, (∃ t', exec (.hapticCfgWrite f r) s = .next t') ∧ Runs s.dev f.val r.val 0x460 []
      chkHapticWrite q d) ∧
    (∃ s : State, ∃ f r q d h, (∃ t', exec (.hapticCfgClearFault f r) s = .next t') ∧ Runs s.dev f.val r.val 0x461 []
      chkHapticClear q d ∧ h = bits (at4 q.words 0x10) 19 16) ∧
    (∃ s : State, ∃ h hp mv d slow e x, (∃ t', exec (.senseWindow h hp mv) s = .next t') ∧ (hapState s.dev h.val = 2 ∨
      hapState s.dev h.val = 3) ∧ d = measure (raiseEnable (dropEnable s.dev h.val) h.val) h.val hp mv ∧ slow =
      (ermSlow (hapRun d h.val) mv && (driveAmp (hapRun d h.val)).isSome) ∧ e = (if isErm (hapRun d h.val) then onHap
      d h.val (fun x => { x with missed := if slow then x.missed + 1 else 0 }) else d) ∧ x = hapRun e h.val ∧ (slow =
      true ∧ x.missed ≥ bits (wd x.cfg 2) 7 4)) :=
  ⟨⟨st (ringed base 0 0 3 (words 68 [(0x10, 1)])), 0, 0, _, _, ⟨_, rfl⟩, runsOk (by decide)⟩,
   ⟨st (ringed base 0 0 3 (words 69 [(0x10, 2147483776)])), 0, 0, _, _, (mem []), ⟨_, rfl⟩, runsOk (by decide), by
     decide⟩,
   ⟨st (ringed (mapped 0 base) 0 0 3 (words 69 [(0x10, 128), (0x20, 8)])), 0, 0, _, _, (mem [0xE7000001, 0x00010001]),
     _, _, ⟨_, rfl⟩, runsOk (by decide), by decide, memOk (by decide), by decide⟩,
   ⟨st (ringed base 0 0 3 (words 70 [(0x20, 66036), (0x24, 6553610), (0x28, 209715488)])), 0, 0, _, _, ⟨_, rfl⟩,
     runsOk (by decide)⟩,
   ⟨st (ringed base 0 0 3 (words 70 [(0x10, 268435456)])), 0, 0, _, _, _, ⟨_, rfl⟩, runsOk (by decide), rfl⟩,
   ⟨st (humming 2 (fun x => { x with cfg := [0x40000000, 1000, 0x00003210], words := [0, 0x00400000] })), 0, none, 0,
     _, true, _, _, ⟨_, rfl⟩, .inl (by decide), rfl, by decide, rfl, rfl, by decide⟩⟩

theorem test_HapticsRun_met_2 :
    (∃ s : State, ∃ h hp mv d slow e x cv, (∃ t', exec (.senseWindow h hp mv) s = .next t') ∧ (hapState s.dev h.val =
      2 ∨ hapState s.dev h.val = 3) ∧ d = measure (raiseEnable (dropEnable s.dev h.val) h.val) h.val hp mv ∧ slow =
      (ermSlow (hapRun d h.val) mv && (driveAmp (hapRun d h.val)).isSome) ∧ e = (if isErm (hapRun d h.val) then onHap
      d h.val (fun x => { x with missed := if slow then x.missed + 1 else 0 }) else d) ∧ x = hapRun e h.val ∧ (¬ (slow
      = true ∧ x.missed ≥ bits (wd x.cfg 2) 7 4)) ∧ windowFault x hp mv = some cv) ∧
    (∃ s : State, ∃ h hp mv d slow e x, (∃ t', exec (.senseWindow h hp mv) s = .next t') ∧ (hapState s.dev h.val = 2 ∨
      hapState s.dev h.val = 3) ∧ d = measure (raiseEnable (dropEnable s.dev h.val) h.val) h.val hp mv ∧ slow =
      (ermSlow (hapRun d h.val) mv && (driveAmp (hapRun d h.val)).isSome) ∧ e = (if isErm (hapRun d h.val) then onHap
      d h.val (fun x => { x with missed := if slow then x.missed + 1 else 0 }) else d) ∧ x = hapRun e h.val ∧ (¬ (slow
      = true ∧ x.missed ≥ bits (wd x.cfg 2) 7 4)) ∧ windowFault x hp mv = none ∧ x.braking = false) ∧
    (∃ s : State, ∃ h hp mv d slow e x, (∃ t', exec (.senseWindow h hp mv) s = .next t') ∧ (hapState s.dev h.val = 2 ∨
      hapState s.dev h.val = 3) ∧ d = measure (raiseEnable (dropEnable s.dev h.val) h.val) h.val hp mv ∧ slow =
      (ermSlow (hapRun d h.val) mv && (driveAmp (hapRun d h.val)).isSome) ∧ e = (if isErm (hapRun d h.val) then onHap
      d h.val (fun x => { x with missed := if slow then x.missed + 1 else 0 }) else d) ∧ x = hapRun e h.val ∧ (¬ (slow
      = true ∧ x.missed ≥ bits (wd x.cfg 2) 7 4)) ∧ windowFault x hp mv = none ∧ x.braking = true ∧ mv * 100 ≥ 2 *
      bits (wd x.cfg 1) 15 0) ∧
    (∃ s : State, ∃ h hp mv d slow e x, (∃ t', exec (.senseWindow h hp mv) s = .next t') ∧ (hapState s.dev h.val = 2 ∨
      hapState s.dev h.val = 3) ∧ d = measure (raiseEnable (dropEnable s.dev h.val) h.val) h.val hp mv ∧ slow =
      (ermSlow (hapRun d h.val) mv && (driveAmp (hapRun d h.val)).isSome) ∧ e = (if isErm (hapRun d h.val) then onHap
      d h.val (fun x => { x with missed := if slow then x.missed + 1 else 0 }) else d) ∧ x = hapRun e h.val ∧ (¬ (slow
      = true ∧ x.missed ≥ bits (wd x.cfg 2) 7 4)) ∧ windowFault x hp mv = none ∧ x.braking = true ∧ ¬ mv * 100 ≥ 2 *
      bits (wd x.cfg 1) 15 0 ∧ x.quiet = 0) ∧
    (∃ s : State, ∃ h hp mv d slow e x, (∃ t', exec (.senseWindow h hp mv) s = .next t') ∧ (hapState s.dev h.val = 2 ∨
      hapState s.dev h.val = 3) ∧ d = measure (raiseEnable (dropEnable s.dev h.val) h.val) h.val hp mv ∧ slow =
      (ermSlow (hapRun d h.val) mv && (driveAmp (hapRun d h.val)).isSome) ∧ e = (if isErm (hapRun d h.val) then onHap
      d h.val (fun x => { x with missed := if slow then x.missed + 1 else 0 }) else d) ∧ x = hapRun e h.val ∧ (¬ (slow
      = true ∧ x.missed ≥ bits (wd x.cfg 2) 7 4)) ∧ windowFault x hp mv = none ∧ x.braking = true ∧ ¬ mv * 100 ≥ 2 *
      bits (wd x.cfg 1) 15 0 ∧ x.quiet ≠ 0) ∧
    (∃ s : State, ∃ h x, (∃ t', exec (.hapticSegmentEnd h) s = .next t') ∧ (hapState s.dev h.val = 2 ∨ hapState s.dev
      h.val = 3) ∧ x = hapRun s.dev h.val ∧ x.braking = false) :=
  ⟨⟨st (humming 3 (fun x => { x with cfg := [0, 1000, 0x00003210], words := [0, 0x00400000], missed := 5 })), 0, none,
     0, _, false, _, _, _, ⟨_, rfl⟩, .inr (by decide), rfl, by decide, rfl, rfl, by decide, optOk (by decide)⟩,
   ⟨st (humming 2 (fun x => { x with cfg := [0, 1000, 0x00003250], words := [0, 0x00400000] })), 0, none, 500, _,
     false, _, _, ⟨_, rfl⟩, .inl (by decide), rfl, by decide, rfl, rfl, by decide, by decide, by decide⟩,
   ⟨st (humming 2 (fun x =>
     { x with cfg := [0, 1000, 0x00003250], words := [0, 0x00400000], braking := true, quiet := 0 })), 0, none, 500,
     _, false, _, _, ⟨_, rfl⟩, .inl (by decide), rfl, by decide, rfl, rfl, by decide, by decide, by decide, by decide⟩,
   ⟨st (humming 2 (fun x =>
     { x with cfg := [0, 1000, 0x00003250], words := [0, 0x00400000], braking := true, quiet := 0 })), 0, none, 5, _,
     false, _, _, ⟨_, rfl⟩, .inl (by decide), rfl, by decide, rfl, rfl, by decide, by decide, by decide, by decide, by
     decide⟩,
   ⟨st (humming 2 (fun x =>
     { x with cfg := [0, 1000, 0x00003250], words := [0, 0x00400000], braking := true, quiet := 1 })), 0, none, 5, _,
     false, _, _, ⟨_, rfl⟩, .inl (by decide), rfl, by decide, rfl, rfl, by decide, by decide, by decide, by decide, by
     decide⟩,
   ⟨st (humming 2 (fun x => { x with braking := false })), 0, _, ⟨_, rfl⟩, .inl (by decide), rfl, by decide⟩⟩

theorem test_HapticsRun_met_3 :
    (∃ s : State, ∃ h x, (∃ t', exec (.hapticSegmentEnd h) s = .next t') ∧ (hapState s.dev h.val = 2 ∨ hapState s.dev
      h.val = 3) ∧ x = hapRun s.dev h.val ∧ x.braking = true ∧ x.final = true) ∧
    (∃ s : State, ∃ h x, (∃ t', exec (.hapticSegmentEnd h) s = .next t') ∧ (hapState s.dev h.val = 2 ∨ hapState s.dev
      h.val = 3) ∧ x = hapRun s.dev h.val ∧ x.braking = true ∧ x.final = false) ∧
    (∃ s : State, ∃ h t, (∃ t', exec (.pendingTriggerTimeout h) s = .next t') ∧ (hapRun s.dev h.val).pend = some t ∧
      hapState s.dev h.val = 3) ∧
    (∃ s : State, ∃ h, (∃ t', exec (.ampFault h) s = .next t') ∧ (hapState s.dev h.val = 2 ∨ hapState s.dev h.val =
      3)) :=
  ⟨⟨st (humming 2 (fun x => { x with braking := true, final := true })), 0, _, ⟨_, rfl⟩, .inl (by decide), rfl, by
     decide, by decide⟩,
   ⟨st (humming 2 (fun x => { x with braking := true, final := false })), 0, _, ⟨_, rfl⟩, .inl (by decide), rfl, by
     decide, by decide⟩,
   ⟨st (humming 3 (fun x =>
     { x with pend := some { effect := 1, gain := 0, urgent := false, src := .key 0 0, dt := 0 } })), 0, _, ⟨_, rfl⟩,
     optOk (by decide), by decide⟩,
   ⟨st (humming 2 id), 0, ⟨_, rfl⟩, .inl (by decide)⟩⟩

/-! #### AudioRuns -/

theorem test_AudioRuns_met_1 :
    (∃ s : State, ∃ f r q d, (∃ t', exec (.audioStreamConfig f r) s = .next t') ∧ Runs s.dev f.val r.val 0x480 []
      chkStreamConfig q d) ∧
    (∃ s : State, ∃ f r q d k, (∃ t', exec (.audioStreamStart f r) s = .next t') ∧ Runs s.dev f.val r.val 0x481 []
      chkStreamStart q d ∧ streamState d (asStream q) = 0 ∧ k = fifoBlocks d (streamRun d (asStream q))) ∧
    (∃ s : State, ∃ f r q d, (∃ t', exec (.audioStreamStop f r) s = .next t') ∧ Runs s.dev f.val r.val 0x482 []
      chkStreamOp q d ∧ streamState d (asStream q) ≠ 0) ∧
    (∃ s : State, ∃ f r q d, (∃ t', exec (.audioStreamDrain f r) s = .next t') ∧ Runs s.dev f.val r.val 0x483 []
      chkStreamDrain q d ∧ streamState d (asStream q) ≠ 0) ∧
    (∃ s : State, ∃ f r q d, (∃ t', exec (.audioRoute f r) s = .next t') ∧ Runs s.dev f.val r.val 0x490 []
      chkAudioRoute q d) ∧
    (∃ s : State, ∃ f r q d w e, (∃ t', exec (.audioGain f r) s = .next t') ∧ Runs s.dev f.val r.val 0x4A0 []
      chkAudioGain q d ∧ w = at4 q.words 0x10 ∧ e = startRamp d (128 * bits w 31 30 + bits w 29 23) (sext (bits w 11
      0) 12) (bits w 22 16) (some { f := f.val, r := r.val, idx := q.idx })) :=
  ⟨⟨st (ringed base 0 0 3 (words 72 [(0x10, 256), (0x14, 16), (0x20, 64)])), 0, 0, _, _, ⟨_, rfl⟩, runsOk (by decide)⟩,
   ⟨st (ringed (onStream base 0 (fun x => { x with cfg := [0, 0, 0, 0] })) 0 0 3 (words 72 [(0x10, 268435456)])), 0,
     0, _, _, _, ⟨_, rfl⟩, runsOk (by decide), by decide, rfl⟩,
   ⟨st (ringed (setStreamState base 0 1) 0 0 3 (words 72 [(0x10, 536870912)])), 0, 0, _, _, ⟨_, rfl⟩, runsOk (by
     decide), by decide⟩,
   ⟨st (ringed (setStreamState base 0 1) 0 0 3 (words 72 [(0x10, 805306368)])), 0, 0, _, _, ⟨_, rfl⟩, runsOk (by
     decide), by decide⟩,
   ⟨st (ringed base 0 0 3 (words 73 [(0x10, 0)])), 0, 0, _, _, ⟨_, rfl⟩, runsOk (by decide)⟩,
   ⟨st (ringed base 0 0 3 (words 74 [(0x10, 65546)])), 0, 0, _, _, _, _, ⟨_, rfl⟩, runsOk (by decide), rfl, rfl⟩⟩

theorem test_AudioRuns_met_2 :
    (∃ s : State, ∃ f r q d m w e ws, (∃ t', exec (.audioCoef f r m) s = .next t') ∧ Runs s.dev f.val r.val 0x4B0 [m]
      chkAudioCoef q d ∧ w = at4 q.words 0x10 ∧ memRead d f.val midAUDIO (at8 q.words 0x18) (5 * bits w 3 0)
      (q.mem.headD { data := [], ecc := false, ats := false }) = (e, .words ws)) ∧
    (∃ s : State, ∃ f r q d g, (∃ t', exec (.audioChimeStart f r) s = .next t') ∧ Runs s.dev f.val r.val 0x4C0 []
      (chkAudioChime true) q d ∧ g = bits (at4 q.words 0x10) 1 0) ∧
    (∃ s : State, ∃ f r q d, (∃ t', exec (.audioChimeStop f r) s = .next t') ∧ Runs s.dev f.val r.val 0x4C1 []
      (chkAudioChime false) q d) ∧
    (∃ s : State, ∃ a g v w d n, (∃ t', exec (.safetyChimeStart a g v) s = .next t') ∧ w = putBits v 31 28 0 &&&
      chimeMask 0 ∧ Written s.dev a (AU_CHIME g.val 0) w d n ∧ bits n 31 28 = 0 ∧ (2 ≤ g.val ∨ a.mid.toNat = midSI ∨
      a.mid.toNat = midPAIR) ∧ chimeOk (n :: rds s.dev (AU_CHIME g.val 1) 7) = true) ∧
    (∃ s : State, ∃ a g v w d n, (∃ t', exec (.safetyChimeStop a g v) s = .next t') ∧ w = putBits v 31 28 1 &&&
      chimeMask 0 ∧ Written s.dev a (AU_CHIME g.val 0) w d n ∧ bits n 31 28 = 1 ∧ (2 ≤ g.val ∨ a.mid.toNat = midSI ∨
      a.mid.toNat = midPAIR)) ∧
    (∃ s : State, ∃ g x, (∃ t', exec (.chimeEnd g) s = .next t') ∧ x = chimeRun s.dev g.val ∧ x.on = true ∧ bits (wd
      x.words 6) 7 0 ≠ 0) :=
  ⟨⟨st (ringed (mapped 0 base) 0 0 3 (words 75 [(0x10, 1)])), 0, 0, _, _, (mem [0, 0, 0, 0, 0]), _, _, _, ⟨_, rfl⟩,
     runsOk (by decide), rfl, memOk (by decide)⟩,
   ⟨st (ringed base 0 0 3 (words 76 [(0x10, 2), (0x14, 0x40000000), (0x28, 0x100)])), 0, 0, _, _, _, ⟨_, rfl⟩, runsOk
     (by decide), rfl⟩,
   ⟨st (ringed base 0 0 3 (words 76 [(0x10, 268435458)])), 0, 0, _, _, ⟨_, rfl⟩, runsOk (by decide)⟩,
   ⟨st (wr (wr base (AU_CHIME 2 1) 0x40000000) (AU_CHIME 2 6) 0x100), f0, 2, 0, _, _, _, ⟨_, rfl⟩, rfl, wOk (by
     decide), by decide, .inl (by decide), by decide⟩,
   ⟨st base, f0, 2, 0, _, _, _, ⟨_, rfl⟩, rfl, wOk (by decide), by decide, .inl (by decide)⟩,
   ⟨st (onAudio base (fun a =>
     { a with chimes := [(0, { on := true, words := [0, 0, 0, 0, 0, 0, 1, 0], start := 0, wait := none })] })), 0, _,
     ⟨_, rfl⟩, rfl, by decide, by decide⟩⟩

theorem test_AudioRuns_met_3 :
    (∃ s : State, ∃ n, (∃ t', exec (.crossfadeEnd n) s = .next t') ∧ fg s.dev (AU_RT_ST n.val) AU_RT_ST_STATE = 2) ∧
    (∃ s : State, ∃ target index k x d, (∃ t', exec (.gainRampEnd target index) s = .next t') ∧ k = 128 * target.val +
      index.val ∧ x = SMap.get s.dev.audio.ramps k ∧ x.on = true ∧ d = showGain (onAudio (advance (x.start + x.ms *
      1000000) s.dev) (fun a => { a with gains := SMap.set a.gains k x.to0, ramps := SMap.erase a.ramps k })) k ∧
      x.wait = none) ∧
    (∃ s : State, ∃ target index k x d w, (∃ t', exec (.gainRampEnd target index) s = .next t') ∧ k = 128 * target.val
      + index.val ∧ x = SMap.get s.dev.audio.ramps k ∧ x.on = true ∧ d = showGain (onAudio (advance (x.start + x.ms *
      1000000) s.dev) (fun a => { a with gains := SMap.set a.gains k x.to0, ramps := SMap.erase a.ramps k })) k ∧
      x.wait = some w) ∧
    (∃ s : State, ∃ a m k v d n, (∃ t', exec (.eqSectionMove a m k v) s = .next t') ∧ Written s.dev a (AU_EQ m.val
      k.val 4) v d n) ∧
    (∃ s : State, ∃ st appl e ap x g y, (∃ t', exec (.streamPeriod st appl) s = .next t') ∧ streamState s.dev st.val =
      1 ∧ bankerLike s.dev = false ∧ readAppl s.dev st.val appl = (e, some ap) ∧ x = streamRun e st.val ∧ g = linkSend
      (crossFrames (onStream e st.val (fun y =>
      { y with dropping := y.dropping && decide ((if stDir x = 0 then min (stPeriod x) (ap - x.hwPos) else min (stPeriod x) (ap + stFrames x - x.hwPos)) = 0) }))
      st.val (if stDir x = 0 then min (stPeriod x) (ap - x.hwPos) else min (stPeriod x) (ap + stFrames x - x.hwPos))
      true) 0x09 [1, st.val, (streamRun (crossFrames (onStream e st.val (fun y =>
      { y with dropping := y.dropping && decide ((if stDir x = 0 then min (stPeriod x) (ap - x.hwPos) else min (stPeriod x) (ap + stFrames x - x.hwPos)) = 0) }))
      st.val (if stDir x = 0 then min (stPeriod x) (ap - x.hwPos) else min (stPeriod x) (ap + stFrames x - x.hwPos))
      true) st.val).hwPos] ∧ y = streamRun g st.val) ∧
    (∃ s : State, ∃ st x e, (∃ t', exec (.streamUnderrun st) s = .next t') ∧ x = streamRun s.dev st.val ∧ streamState
      s.dev st.val = 1 ∧ stDir x = 0 ∧ x.drains = [] ∧ e = bump (setStreamState (crossFrames s.dev st.val (x.appl -
      x.hwPos) false) st.val 2) AU_STATUS AU_STATUS_UNDERRUNS) :=
  ⟨⟨st (fs base (AU_RT_ST 0) AU_RT_ST_STATE 2), 0, ⟨_, rfl⟩, by decide⟩,
   ⟨st (ramping none), 0, 0, _, _, _, ⟨_, rfl⟩, rfl, rfl, by decide, rfl, by decide⟩,
   ⟨st (ramping (some { f := 0, r := 0, idx := 0 })), 0, 0, _, _, _, _, ⟨_, rfl⟩, rfl, rfl, by decide, rfl, rfl⟩,
   ⟨st base, f0, 0, 0, 0, _, _, ⟨_, rfl⟩, wOk (by decide)⟩,
   ⟨st (streaming 1 id), 0, 8, _, 8, _, _, _, ⟨_, rfl⟩, by decide, by decide, pairOk (by decide), rfl, rfl, rfl⟩,
   ⟨st (streaming 1 (fun x => { x with drains := [] })), 0, _, _, ⟨_, rfl⟩, rfl, by decide, by decide, by decide, rfl⟩⟩

theorem test_AudioRuns_met_4 :
    (∃ s : State, ∃ st appl e ap, (∃ t', exec (.streamRefill st appl) s = .next t') ∧ streamState s.dev st.val = 2 ∧
      readAppl s.dev st.val appl = (e, some ap) ∧ ¬ ap - (streamRun e st.val).hwPos < fifoFrames e (streamRun e
      st.val)) ∧
    (∃ s : State, ∃ st x e, (∃ t', exec (.streamOverrun st) s = .next t') ∧ x = streamRun s.dev st.val ∧ streamState
      s.dev st.val = 1 ∧ stDir x = 1 ∧ e = crossFrames s.dev st.val (x.appl + stFrames x - x.hwPos) false) ∧
    (∃ s : State, ∃ st, (∃ t', exec (.rampDownEnd st) s = .next t') ∧ streamState s.dev st.val = 3) ∧
    (∃ s : State, ∃ k, (∃ t', exec (.clockLoss k) s = .next t') ∧ auDomState s.dev k.val = 2 ∧ fg s.dev (AU_DOM k.val)
      AU_DOM_SRC ≠ 1) ∧
    (∃ s : State, ∃ b d, (∃ t', exec (.bridgeLock b) s = .next t') ∧ fb s.dev (AU_BRIDGE b.val) AU_BRIDGE_EN = true ∧
      fb s.dev (AU_BRIDGE_ST b.val) AU_BRIDGE_ST_LOCK = false ∧ auDomState s.dev (fg s.dev (AU_BRIDGE b.val)
      AU_BRIDGE_IN_DOM) ≠ 0 ∧ auDomState s.dev (fg s.dev (AU_BRIDGE b.val) AU_BRIDGE_OUT_DOM) ≠ 0 ∧ d = bridgeRamp (fs
      s.dev (AU_BRIDGE_ST b.val) AU_BRIDGE_ST_LOCK 1) b.val 1) ∧
    (∃ s : State, ∃ b ppm, (∃ t', exec (.bridgeUnlock b ppm) s = .next t') ∧ fb s.dev (AU_BRIDGE_ST b.val)
      AU_BRIDGE_ST_LOCK = true ∧ ¬ ppm.natAbs ≤ 2000) :=
  ⟨⟨st (streaming 2 id), 0, 100000, _, 100000, ⟨_, rfl⟩, by decide, pairOk (by decide), by decide⟩,
   ⟨st (streaming 1 (fun x => { x with cfg := [0x08000000, 0, 0, 0, 0, 0, 0, 0] })), 0, _, _, ⟨_, rfl⟩, rfl, by
     decide, by decide, rfl⟩,
   ⟨st (streaming 3 id), 0, ⟨_, rfl⟩, by decide⟩,
   ⟨st (fs base (AU_DOM_ST 0) AU_DOM_ST_STATE 2), 0, ⟨_, rfl⟩, by decide, by decide⟩,
   ⟨st (bridged 0), 0, _, ⟨_, rfl⟩, by decide, by decide, by decide, by decide, rfl⟩,
   ⟨st (bridged 1), 0, 3000, ⟨_, rfl⟩, by decide, by decide⟩⟩

theorem test_AudioRuns_met_5 :
    (∃ s : State, ∃ p, (∃ t', exec (.portFrameError p) s = .next t') ∧ p.val < 6 ∧ portRuns s.dev p.val = true ∧ fb
      s.dev (AU_PORT p.val) AU_PORT_MASTER = false) :=
  ⟨st (fs (fs base (AU_PORT 0) AU_PORT_MASTER 0) (AU_PORT_ST 0) AU_PORT_ST_STATE 1), 0, ⟨_, rfl⟩, by decide, by
    decide, by decide⟩

/-! #### BellsAndTokensRun -/

theorem test_BellsAndTokensRun_met_1 :
    (∃ s : State, ∃ a c v d n, (∃ t', exec (.bellBindWrite a c v) s = .next t') ∧ Written s.dev a (BL_BIND c.val) v d
      n ∧ bindBad s.dev a.mid.toNat c.val n = none) ∧
    (∃ s : State, ∃ a c v d, (∃ t', exec (.bellPost a c v) s = .next t') ∧ viewWrite a c.val 1 0x18 v s.dev = (d,
      true) ∧ postStatus d c.val v = stOK) ∧
    (∃ s : State, ∃ a c v d e m ms, (∃ t', exec (.bellPop a c v) s = .next t') ∧ viewWrite a c.val 2 0x1C v s.dev =
      (d, true) ∧ bit v 0 = true ∧ seenMsgs d c.val = m :: ms ∧ e = onBell d c.val (fun x =>
      { x with msgs := x.msgs.tail })) ∧
    (∃ s : State, ∃ a v d, (∃ t', exec (.doorbellClear a v) s = .next t') ∧ dbWrite a 0x1800 v s.dev = (d, true)) ∧
    (∃ s : State, ∃ a v d, (∃ t', exec (.doorbellMaskWrite a v) s = .next t') ∧ dbWrite a 0x1804 v s.dev = (d, true)) ∧
    (∃ s : State, ∃ t readers d rs x y l, (∃ t', exec (.tokenAcquire t readers) s = .next t') ∧ bellServed s.dev false
      = (d, true) ∧ rs = (readers.filter (fun a => windowThere d a.mid.toNat)).foldl (fun l a => insertReader (tok d
      t.val).ptr a l) [] ∧ rs.filter (contends d t.val) = x :: y :: l) :=
  ⟨⟨st base, f0, 0, 0x800, _, _, ⟨_, rfl⟩, wOk (by decide), by decide⟩,
   ⟨st (belled []), f0, 0, 0, _, ⟨_, rfl⟩, pairOk (by decide), by decide⟩,
   ⟨st (belled [default]), (by' 0x20), 0, 1, _, _, default, [], ⟨_, rfl⟩, pairOk (by decide), by decide, by decide,
     rfl⟩,
   ⟨st base, f0, 0, _, ⟨_, rfl⟩, pairOk (by decide)⟩,
   ⟨st base, f0, 0, _, ⟨_, rfl⟩, pairOk (by decide)⟩,
   ⟨st (tokened none), 0, [f0, by' 0x20], _, [f0, by' 0x20], f0, (by' 0x20), [], ⟨_, rfl⟩, pairOk (by decide), by
     decide, by decide⟩⟩

theorem test_BellsAndTokensRun_met_2 :
    (∃ s : State, ∃ t readers d rs x, (∃ t', exec (.tokenAcquire t readers) s = .next t') ∧ bellServed s.dev false =
      (d, true) ∧ rs = (readers.filter (fun a => windowThere d a.mid.toNat)).foldl (fun l a => insertReader (tok d
      t.val).ptr a l) [] ∧ rs.filter (contends d t.val) = [x]) ∧
    (∃ s : State, ∃ t readers d rs, (∃ t', exec (.tokenAcquire t readers) s = .next t') ∧ bellServed s.dev false = (d,
      true) ∧ rs = (readers.filter (fun a => windowThere d a.mid.toNat)).foldl (fun l a => insertReader (tok d
      t.val).ptr a l) [] ∧ rs.filter (contends d t.val) = []) ∧
    (∃ s : State, ∃ a t v d, (∃ t', exec (.tokenRelease a t v) s = .next t') ∧ dbWrite a (tokOff t.val) v s.dev = (d,
      true) ∧ (tok d t.val).holder = some a.mid.toNat) ∧
    (∃ s : State, ∃ a t v d, (∃ t', exec (.tokenRelease a t v) s = .next t') ∧ dbWrite a (tokOff t.val) v s.dev = (d,
      true) ∧ (tok d t.val).holder ≠ some a.mid.toNat) :=
  ⟨⟨st (tokened none), 0, [f0], _, [f0], f0, ⟨_, rfl⟩, pairOk (by decide), by decide, by decide⟩,
   ⟨st (tokened none), 0, [], _, [], ⟨_, rfl⟩, pairOk (by decide), by decide, by decide⟩,
   ⟨st (tokened (some 0)), f0, 0, 0, _, ⟨_, rfl⟩, pairOk (by decide), by decide⟩,
   ⟨st (tokened none), f0, 0, 0, _, ⟨_, rfl⟩, pairOk (by decide), by decide⟩⟩

/-! #### PowerRuns -/

theorem test_PowerRuns_met_1 :
    (∃ s : State, ∃ a k d n e, (∃ t', exec (.acquirePower a k) s = .next t') ∧ Written s.dev a SE_HOLD_OP
      (BitVec.ofNat 32 (0 * 2 ^ 30 + k.val)) d n ∧ fg s.dev (SE_HOLD k.val) SE_HOLD_PWR ≠ 255 ∧ e = fs d (SE_HOLD
      k.val) SE_HOLD_PWR (fg s.dev (SE_HOLD k.val) SE_HOLD_PWR + 1)) ∧
    (∃ s : State, ∃ a k d n e, (∃ t', exec (.releasePower a k) s = .next t') ∧ Written s.dev a SE_HOLD_OP
      (BitVec.ofNat 32 (1 * 2 ^ 30 + k.val)) d n ∧ fg s.dev (SE_HOLD k.val) SE_HOLD_PWR ≠ 0 ∧ e = fs d (SE_HOLD k.val)
      SE_HOLD_PWR (fg s.dev (SE_HOLD k.val) SE_HOLD_PWR - 1)) ∧
    (∃ s : State, ∃ a k d n e, (∃ t', exec (.acquireClock a k) s = .next t') ∧ Written s.dev a SE_HOLD_OP
      (BitVec.ofNat 32 (2 * 2 ^ 30 + k.val)) d n ∧ fg s.dev (SE_HOLD k.val) SE_HOLD_CLK ≠ 255 ∧ e = fs d (SE_HOLD
      k.val) SE_HOLD_CLK (fg s.dev (SE_HOLD k.val) SE_HOLD_CLK + 1)) ∧
    (∃ s : State, ∃ a k d n e, (∃ t', exec (.releaseClock a k) s = .next t') ∧ Written s.dev a SE_HOLD_OP
      (BitVec.ofNat 32 (3 * 2 ^ 30 + k.val)) d n ∧ fg s.dev (SE_HOLD k.val) SE_HOLD_CLK ≠ 0 ∧ e = fs d (SE_HOLD k.val)
      SE_HOLD_CLK (fg s.dev (SE_HOLD k.val) SE_HOLD_CLK - 1)) ∧
    (∃ s : State, ∃ f r q d, (∃ t', exec (.modeSetMode f r) s = .next t') ∧ Runs s.dev f.val r.val 0x620 [] chkSetMode
      q d) ∧
    (∃ s : State, ∃ f r q d e st, (∃ t', exec (.modeDomain f r) s = .next t') ∧ Runs s.dev f.val r.val 0x621 []
      chkModeDomain q d ∧ askDomains d f.val 0 (bits (at4 q.words 0x14) 31 16) (bits (at4 q.words 0x14) 7 4) (bits
      (at4 q.words 0x14) 3 0) (some (tagOf q.words)) = (e, st)) :=
  ⟨⟨st base, (by' 0x24), 4, _, _, _, ⟨_, rfl⟩, wOk (by decide), by decide, rfl⟩,
   ⟨st (fs base (SE_HOLD 4) SE_HOLD_PWR 1), (by' 0x24), 4, _, _, _, ⟨_, rfl⟩, wOk (by decide), by decide, rfl⟩,
   ⟨st base, (by' 0x24), 4, _, _, _, ⟨_, rfl⟩, wOk (by decide), by decide, rfl⟩,
   ⟨st (fs base (SE_HOLD 4) SE_HOLD_CLK 1), (by' 0x24), 4, _, _, _, ⟨_, rfl⟩, wOk (by decide), by decide, rfl⟩,
   ⟨st (ringed base 0 0 5 (words 98 [(0x10, 33554433)])), 0, 0, _, _, ⟨_, rfl⟩, runsOk (by decide)⟩,
   ⟨st (ringed base 0 0 5 (words 98 [(0x10, 268435456), (0x14, 524288)])), 0, 0, _, _, _, _, ⟨_, rfl⟩, runsOk (by
     decide), pairOk rfl⟩⟩

theorem test_PowerRuns_met_2 :
    (∃ s : State, ∃ f r q d e, (∃ t', exec (.modeHibernate f r) s = .next t') ∧ Runs s.dev f.val r.val 0x622 []
      chkHibernate q d ∧ hibFails d = 0 ∧ e = complete d f.val r.val q.idx stOK) ∧
    (∃ s : State, ∃ c d e, (∃ t', exec (.hibernateWake c) s = .next t') ∧ s.dev.pm.hib = true ∧ wakes s.dev c = true ∧
      e = advance (wakeTime s.dev c) s.dev ∧ d =
      { e with pm := { e.pm with hib := false }, safe := { e.safe with dmFrom := (if e.pm.booted then some e.dt else none), dmMs := fg e SE_DEADMAN_CFG SE_DEADMAN_CFG_TIMEOUT_MS } }) ∧
    (∃ s : State, ∃ a k v d e, (∃ t', exec (.domainCtrlWrite a k v) s = .next t') ∧ maskedWrite a (PM_DOM_CTRL k.val)
      v s.dev = (d, true) ∧ e = (askDomains d a.mid.toNat (PM_DOM_CTRL k.val) (2 ^ k.val) (bits v 7 4) (bits v 3 0)
      none).1) ∧
    (∃ s : State, ∃ k x, (∃ t', exec (.pmuDepthDecision k true) s = .next t') ∧ s.dev.pm.hib = false ∧ s.dev.pm.off =
      false ∧ hasBit s.dev.pm.waking k.val = false ∧ hasBit s.dev.pm.tripCut k.val = false ∧ modeHeldOff s.dev k.val =
      false ∧ x = depthOfDom s.dev k.val) ∧
    (∃ s : State, ∃ k, (∃ t', exec (.domainWake k) s = .next t') ∧ s.dev.pm.hib = false ∧ s.dev.pm.off = false ∧
      hasBit s.dev.pm.tripCut k.val = false ∧ (¬ (modeHeldOff s.dev k.val = true ∧ heldFrom s.dev k.val 5 = false)) ∧
      (domState s.dev k.val ≠ 0 ∨ hasBit s.dev.pm.waking k.val = true) ∧ ((forcedState s.dev k.val).any (fun f =>
      decide (f ≠ 0) && !heldFrom s.dev k.val f) = false ∨ domState s.dev k.val = 0)) ∧
    (∃ s : State, ∃ mw d es avg cap e, (∃ t', exec (.powerEstimate mw) s = .next t') ∧ d = advance (s.dev.pm.lastEst +
      100000) s.dev ∧ es = (mw :: d.pm.ests).take 10 ∧ avg = es.sum / es.length ∧ cap = fg d PM_STATUS PM_STATUS_CAP_W
      * 1000 ∧ e = fs { d with pm := { d.pm with ests := es, lastEst := d.dt } } PM_STATUS PM_STATUS_POWER_W (sat (avg
      / 1000) 255) ∧ cap = 0) :=
  ⟨⟨st (ringed base 0 0 5 (words 98 [(0x10, 536870912)])), 0, 0, _, _, _, ⟨_, rfl⟩, runsOk (by decide), by decide,
     rfl⟩,
   ⟨st ({ base with pm := { base.pm with hib := true } }), .hostRequest, _, _, ⟨_, rfl⟩, by decide, by decide, rfl,
     rfl⟩,
   ⟨st base, f0, 3, 0, _, _, ⟨_, rfl⟩, pairOk (by decide), rfl⟩,
   ⟨st base, 3, _, ⟨_, rfl⟩, by decide, by decide, by decide, by decide, by decide, rfl⟩,
   ⟨st (fs base (PM_DOM_STAT 3) PM_DOM_STAT_STATE 3), 3, ⟨_, rfl⟩, by decide, by decide, by decide, by decide, .inl
     (by decide), .inl (by decide)⟩,
   ⟨st (fs base PM_STATUS PM_STATUS_CAP_W 0), 100, _, _, _, _, _, ⟨_, rfl⟩, rfl, rfl, rfl, rfl, rfl, rfl⟩⟩

theorem test_PowerRuns_met_3 :
    (∃ s : State, ∃ mw d es avg cap e, (∃ t', exec (.powerEstimate mw) s = .next t') ∧ d = advance (s.dev.pm.lastEst +
      100000) s.dev ∧ es = (mw :: d.pm.ests).take 10 ∧ avg = es.sum / es.length ∧ cap = fg d PM_STATUS PM_STATUS_CAP_W
      * 1000 ∧ e = fs { d with pm := { d.pm with ests := es, lastEst := d.dt } } PM_STATUS PM_STATUS_POWER_W (sat (avg
      / 1000) 255) ∧ cap ≠ 0 ∧ avg > cap) ∧
    (∃ s : State, ∃ mw d es avg cap e, (∃ t', exec (.powerEstimate mw) s = .next t') ∧ d = advance (s.dev.pm.lastEst +
      100000) s.dev ∧ es = (mw :: d.pm.ests).take 10 ∧ avg = es.sum / es.length ∧ cap = fg d PM_STATUS PM_STATUS_CAP_W
      * 1000 ∧ e = fs { d with pm := { d.pm with ests := es, lastEst := d.dt } } PM_STATUS PM_STATUS_POWER_W (sat (avg
      / 1000) 255) ∧ cap ≠ 0 ∧ ¬ avg > cap ∧ avg * 100 > cap * 95) ∧
    (∃ s : State, ∃ mw d es avg cap e g, (∃ t', exec (.powerEstimate mw) s = .next t') ∧ d = advance (s.dev.pm.lastEst
      + 100000) s.dev ∧ es = (mw :: d.pm.ests).take 10 ∧ avg = es.sum / es.length ∧ cap = fg d PM_STATUS
      PM_STATUS_CAP_W * 1000 ∧ e = fs { d with pm := { d.pm with ests := es, lastEst := d.dt } } PM_STATUS
      PM_STATUS_POWER_W (sat (avg / 1000) 255) ∧ cap ≠ 0 ∧ ¬ avg > cap ∧ ¬ avg * 100 > cap * 95 ∧ g =
      { e with pm := { e.pm with underSince := some (e.pm.underSince.getD e.dt) } }) ∧
    (∃ s : State, ∃ tj d keep new e g, (∃ t', exec (.thermalSample tj) s = .next t') ∧ d = fs s.dev PM_TJ PM_TJ_TJ
      ((tj % 65536).toNat) ∧ keep = d.pm.tjOver.filter (fun o => decide (tj > tjLevel d o.level)) ∧ new = ((List.range
      4).filter (fun l => decide (tj > tjLevel d l) && keep.all (fun o => decide (o.level ≠ l)))).map (fun l =>
      ({ level := l, since := d.dt } : TjOver)) ∧ e = { d with pm := { d.pm with tjOver := keep ++ new } } ∧ g = (if
      tj < tjLevel e 0 - 50 then endTherm e 0 else e)) ∧
    (∃ s : State, ∃ d, (∃ t', exec .thermalWarn s = .next t') ∧ beginTherm s.dev 0 = some d) ∧
    (∃ s : State, ∃ d, (∃ t', exec .thermalThrottle s = .next t') ∧ beginTherm s.dev 1 = some d) :=
  ⟨⟨st base, 50000, _, _, _, _, _, ⟨_, rfl⟩, rfl, rfl, rfl, rfl, rfl, by decide, by decide⟩,
   ⟨st base, 39000, _, _, _, _, _, ⟨_, rfl⟩, rfl, rfl, rfl, rfl, rfl, by decide, by decide, by decide⟩,
   ⟨st base, 100, _, _, _, _, _, _, ⟨_, rfl⟩, rfl, rfl, rfl, rfl, rfl, by decide, by decide, by decide, rfl⟩,
   ⟨st base, 1000, _, _, _, _, _, ⟨_, rfl⟩, rfl, rfl, rfl, rfl, rfl⟩,
   ⟨st (hot 0), _, ⟨_, rfl⟩, optOk (by decide)⟩,
   ⟨st (hot 1), _, ⟨_, rfl⟩, optOk (by decide)⟩⟩

theorem test_PowerRuns_met_4 :
    (∃ s : State, ∃ d mask e, (∃ t', exec .thermalTrip s = .next t') ∧ beginTherm s.dev 2 = some d ∧ mask = fg d
      PM_THERM_MASK PM_THERM_MASK_TRIP_MASK - fg d PM_THERM_MASK PM_THERM_MASK_TRIP_MASK % 2 ∧ e = forcedLoss (emit d
      (.pin 4 0)) mask) ∧
    (∃ s : State, ∃ d e, (∃ t', exec .thermalCritical s = .next t') ∧ tjActs s.dev 3 = some d ∧ e = (List.range
      15).foldl (fun d j => goDown d (j + 1) 5 true) (forcedLoss (addCause (emit d (.pin 4 0)) 8 0 0xFFFE) 0xFFFE)) ∧
    (∃ s : State, ∃ t, (∃ t', exec .deadmanExpire s = .next t') ∧ s.dev.safe.dmFrom = some t) :=
  ⟨⟨st (hot 2), _, _, _, ⟨_, rfl⟩, optOk (by decide), rfl, rfl⟩,
   ⟨st (hot 3), _, _, ⟨_, rfl⟩, optOk (by decide), rfl⟩,
   ⟨st ({ base with safe := { base.safe with dmFrom := some 5 } }), 5, ⟨_, rfl⟩, optOk (by decide)⟩⟩

/-! #### WorldsRun -/

theorem test_WorldsRun_met_1 :
    (∃ s : State, ∃ p r px d, (∃ t', exec (.signatureResult p r px) s = .next t') ∧ latchSig s.dev p.val r.val px =
      (d, none)) ∧
    (∃ s : State, ∃ p r px d out, (∃ t', exec (.signatureResult p r px) s = .next t') ∧ latchSig s.dev p.val r.val px
      = (d, some out) ∧ bankerLike d = true) ∧
    (∃ s : State, ∃ p r px d out, (∃ t', exec (.signatureResult p r px) s = .next t') ∧ latchSig s.dev p.val r.val px
      = (d, some out) ∧ bankerLike d = false) ∧
    (∃ s : State, ∃ f, (∃ t', exec (.spdmGetVersion f) s = .next t') ∧ doeUp s.dev f.val = true) ∧
    (∃ s : State, ∃ f, (∃ t', exec (.spdmGetCapabilities f) s = .next t') ∧ doeUp s.dev f.val = true ∧ 1 ≤ spdmConn
      s.dev f.val) ∧
    (∃ s : State, ∃ f, (∃ t', exec (.spdmNegotiateAlgorithms f) s = .next t') ∧ doeUp s.dev f.val = true ∧ 2 ≤
      spdmConn s.dev f.val) :=
  ⟨⟨st base, 0, 0, [], _, ⟨_, rfl⟩, pairOk (by decide)⟩,
   ⟨st (guarded 2 true), 0, 0, [], _, 2, ⟨_, rfl⟩, pairOk (by decide), by decide⟩,
   ⟨st (guarded 0 false), 0, 0, [], _, 2, ⟨_, rfl⟩, pairOk (by decide), by decide⟩,
   ⟨st base, 0, ⟨_, rfl⟩, by decide⟩,
   ⟨st (spdm 1 0), 0, ⟨_, rfl⟩, by decide, by decide⟩,
   ⟨st (spdm 2 0), 0, ⟨_, rfl⟩, by decide, by decide⟩⟩

theorem test_WorldsRun_met_2 :
    (∃ s : State, ∃ f, (∃ t', exec (.spdmGetDigests f) s = .next t') ∧ doeUp s.dev f.val = true ∧ 3 ≤ spdmConn s.dev
      f.val) ∧
    (∃ s : State, ∃ f slot, (∃ t', exec (.spdmGetCertificate f slot) s = .next t') ∧ doeUp s.dev f.val = true ∧ 3 ≤
      spdmConn s.dev f.val ∧ ¬ 2 ≤ slot.val) ∧
    (∃ s : State, ∃ f slot, (∃ t', exec (.spdmChallenge f slot) s = .next t') ∧ doeUp s.dev f.val = true ∧ 3 ≤
      spdmConn s.dev f.val ∧ ¬ 2 ≤ slot.val) ∧
    (∃ s : State, ∃ f index, (∃ t', exec (.spdmGetMeasurements f index) s = .next t') ∧ doeUp s.dev f.val = true ∧ 3 ≤
      spdmConn s.dev f.val ∧ (¬ (9 < index.val ∧ index.val ≠ 0xFF))) ∧
    (∃ s : State, ∃ f, (∃ t', exec (.spdmKeyExchange f) s = .next t') ∧ doeUp s.dev f.val = true ∧ ptSecure s.dev
      f.val = true ∧ 3 ≤ spdmConn s.dev f.val ∧ spdmSess s.dev f.val = 0) ∧
    (∃ s : State, ∃ f, (∃ t', exec (.spdmFinish f) s = .next t') ∧ doeUp s.dev f.val = true ∧ spdmSess s.dev f.val =
      1) :=
  ⟨⟨st (spdm 3 0), 0, ⟨_, rfl⟩, by decide, by decide⟩,
   ⟨st (spdm 3 0), 0, 1, ⟨_, rfl⟩, by decide, by decide, by decide⟩,
   ⟨st (spdm 3 0), 0, 1, ⟨_, rfl⟩, by decide, by decide, by decide⟩,
   ⟨st (spdm 3 0), 0, 0xFF, ⟨_, rfl⟩, by decide, by decide, by decide⟩,
   ⟨st (spdm 3 0), 0, ⟨_, rfl⟩, by decide, by decide, by decide, by decide⟩,
   ⟨st (spdm 3 1), 0, ⟨_, rfl⟩, by decide, by decide⟩⟩

theorem test_WorldsRun_met_3 :
    (∃ s : State, ∃ f, (∃ t', exec (.spdmKeyUpdate f) s = .next t') ∧ doeUp s.dev f.val = true ∧ spdmSess s.dev f.val
      = 2) ∧
    (∃ s : State, ∃ f, (∃ t', exec (.spdmHeartbeat f) s = .next t') ∧ doeUp s.dev f.val = true ∧ spdmSess s.dev f.val
      = 2) ∧
    (∃ s : State, ∃ f, (∃ t', exec (.spdmEndSession f) s = .next t') ∧ doeUp s.dev f.val = true ∧ spdmSess s.dev f.val
      = 2) ∧
    (∃ s : State, ∃ f k, (∃ t', exec (.ideKmKeyProg f k) s = .next t') ∧ doeUp s.dev f.val = true ∧ ptSecure s.dev
      f.val = true ∧ spdmSess s.dev f.val = 2) ∧
    (∃ s : State, ∃ f k, (∃ t', exec (.ideKSetGo f k) s = .next t') ∧ doeUp s.dev f.val = true ∧ ptSecure s.dev f.val
      = true ∧ spdmSess s.dev f.val = 2 ∧ hasBit s.dev.safe.ideKeys k.val = true) ∧
    (∃ s : State, ∃ f, (∃ t', exec (.spdmGetCapabilities f) s = .next t') ∧ doeUp s.dev f.val = true ∧ ¬ 1 ≤ spdmConn
      s.dev f.val) :=
  ⟨⟨st (spdm 3 2), 0, ⟨_, rfl⟩, by decide, by decide⟩,
   ⟨st (spdm 3 2), 0, ⟨_, rfl⟩, by decide, by decide⟩,
   ⟨st (spdm 3 2), 0, ⟨_, rfl⟩, by decide, by decide⟩,
   ⟨st (spdm 3 2), 0, 0, ⟨_, rfl⟩, by decide, by decide, by decide⟩,
   ⟨st (spdm 3 2), 0, 0, ⟨_, rfl⟩, by decide, by decide, by decide, by decide⟩,
   ⟨st (spdm 0 0), 0, ⟨_, rfl⟩, by decide, by decide⟩⟩

theorem test_WorldsRun_met_4 :
    (∃ s : State, ∃ f, (∃ t', exec (.spdmNegotiateAlgorithms f) s = .next t') ∧ doeUp s.dev f.val = true ∧ ¬ 2 ≤
      spdmConn s.dev f.val) ∧
    (∃ s : State, ∃ f, (∃ t', exec (.spdmGetDigests f) s = .next t') ∧ doeUp s.dev f.val = true ∧ ¬ 3 ≤ spdmConn s.dev
      f.val) ∧
    (∃ s : State, ∃ f slot, (∃ t', exec (.spdmGetCertificate f slot) s = .next t') ∧ doeUp s.dev f.val = true ∧ 3 ≤
      spdmConn s.dev f.val ∧ 2 ≤ slot.val) ∧
    (∃ s : State, ∃ f slot, (∃ t', exec (.spdmChallenge f slot) s = .next t') ∧ doeUp s.dev f.val = true ∧ 3 ≤
      spdmConn s.dev f.val ∧ 2 ≤ slot.val) ∧
    (∃ s : State, ∃ f, (∃ t', exec (.spdmKeyUpdate f) s = .next t') ∧ doeUp s.dev f.val = true ∧ ¬ spdmSess s.dev
      f.val = 2) ∧
    (∃ s : State, ∃ f, (∃ t', exec (.spdmHeartbeat f) s = .next t') ∧ doeUp s.dev f.val = true ∧ ¬ spdmSess s.dev
      f.val = 2) :=
  ⟨⟨st (spdm 1 0), 0, ⟨_, rfl⟩, by decide, by decide⟩,
   ⟨st (spdm 2 0), 0, ⟨_, rfl⟩, by decide, by decide⟩,
   ⟨st (spdm 3 0), 0, 2, ⟨_, rfl⟩, by decide, by decide, by decide⟩,
   ⟨st (spdm 3 0), 0, 2, ⟨_, rfl⟩, by decide, by decide, by decide⟩,
   ⟨st (spdm 3 1), 0, ⟨_, rfl⟩, by decide, by decide⟩,
   ⟨st (spdm 3 1), 0, ⟨_, rfl⟩, by decide, by decide⟩⟩

theorem test_WorldsRun_met_5 :
    (∃ s : State, ∃ f, (∃ t', exec (.spdmEndSession f) s = .next t') ∧ doeUp s.dev f.val = true ∧ ¬ spdmSess s.dev
      f.val = 2) ∧
    (∃ s : State, ∃ f, (∃ t', exec (.spdmFinish f) s = .next t') ∧ doeUp s.dev f.val = true ∧ ¬ spdmSess s.dev f.val =
      1) ∧
    (∃ s : State, ∃ k, (∃ t', exec (.ideFail k) s = .next t') ∧ fg s.dev SE_IDE_STAT (ideFld k.val) = 1) ∧
    (∃ s : State, ∃ a k v d n t, (∃ t', exec (.watermarkRaise a k v) s = .next t') ∧ Written s.dev a (wmOff k) v d n ∧
      t = (if k = .dram then bits v 19 0 else bits v 12 0) ∧ scrubRun s.dev k = none ∧ fb s.dev SE_LOCK SE_LOCK_WM =
      false ∧ ¬ t < wmNow s.dev k ∧ ((k = .skein ∧ skeinConflict s.dev t = true) = False) ∧ ((k = .dram ∧
      s.dev.dramUnits < t) = False)) ∧
    (∃ s : State, ∃ a k v d n t, (∃ t', exec (.watermarkLower a k v) s = .next t') ∧ Written s.dev a (scrubOff k) v d
      n ∧ t = (if k = .dram then bits v 19 0 else bits v 12 0) ∧ scrubRun s.dev k = none ∧ fb s.dev SE_LOCK SE_LOCK_WM
      = false ∧ ¬ wmNow s.dev k < t) ∧
    (∃ s : State, ∃ x d, (∃ t', exec (.scrubDone .dram) s = .next t') ∧ scrubRun s.dev .dram = some x ∧ d = setBusy
      (onSafe (advance (x.t0 + scrubNs .dram x) s.dev) (fun y =>
      { y with scrubs := SMap.erase y.scrubs (wmKey .dram) })) .dram 0) :=
  ⟨⟨st (spdm 3 1), 0, ⟨_, rfl⟩, by decide, by decide⟩,
   ⟨st (spdm 3 2), 0, ⟨_, rfl⟩, by decide, by decide⟩,
   ⟨st (fs base SE_IDE_STAT SE_IDE_STAT_STATE0 1), 0, ⟨_, rfl⟩, by decide⟩,
   ⟨st base, (by' 0x24), .dram, 4, _, _, _, ⟨_, rfl⟩, wOk (by decide), rfl, by decide, by decide, by decide, by
     decide, by decide⟩,
   ⟨st base, (by' 0x24), .skein, 0, _, _, _, ⟨_, rfl⟩, wOk (by decide), rfl, by decide, by decide, by decide⟩,
   ⟨st (scrubbing .dram), _, _, ⟨_, rfl⟩, optOk (by decide), rfl⟩⟩

theorem test_WorldsRun_met_6 :
    (∃ s : State, ∃ x d, (∃ t', exec (.scrubDone .skein) s = .next t') ∧ scrubRun s.dev .skein = some x ∧ d = setBusy
      (onSafe (advance (x.t0 + scrubNs .skein x) s.dev) (fun y =>
      { y with scrubs := SMap.erase y.scrubs (wmKey .skein) })) .skein 0) ∧
    (∃ s : State, ∃ a v d n, (∃ t', exec (.deadmanKick a v) s = .next t') ∧ Written s.dev a SE_DEADMAN_KICK v d n ∧ v
      = 0x5A5A ∧ s.dev.safe.kick = none) ∧
    (∃ s : State, ∃ a v t d n, (∃ t', exec (.deadmanKick a v) s = .next t') ∧ Written s.dev a SE_DEADMAN_KICK v d n ∧
      v = 0xA5A5 ∧ s.dev.safe.kick = some t ∧ s.dev.dt ≤ t + 1000000) ∧
    (∃ s : State, ∃ a v d n, (∃ t', exec (.deadmanKick a v) s = .next t') ∧ Written s.dev a SE_DEADMAN_KICK v d n ∧
      ((v = 0x5A5A ∧ s.dev.safe.kick.isNone = true) = False) ∧ ((v = 0xA5A5 ∧ s.dev.safe.kick.any (fun t => decide
      (s.dev.dt ≤ t + 1000000)) = true) = False)) ∧
    (∃ s : State, ∃ k, (∃ t', exec (.monitorDetect k) s = .next t') ∧ domUp s.dev 2 = true ∧ s.dev.safe.halted =
      false) ∧
    (∃ s : State, (∃ t', exec .lockstepFault s = .next t') ∧ domUp s.dev 2 = true ∧ s.dev.safe.halted = false) :=
  ⟨⟨st (scrubbing .skein), _, _, ⟨_, rfl⟩, optOk (by decide), rfl⟩,
   ⟨st base, (by' 0x24), 0x5A5A, _, _, ⟨_, rfl⟩, wOk (by decide), rfl, by decide⟩,
   ⟨st ({ base with safe := { base.safe with kick := some 0 } }), (by' 0x24), 0xA5A5, 0, _, _, ⟨_, rfl⟩, wOk (by
     decide), rfl, optOk (by decide), by decide⟩,
   ⟨st base, (by' 0x24), 7, _, _, ⟨_, rfl⟩, wOk (by decide), by decide, by decide⟩,
   ⟨st base, 0, ⟨_, rfl⟩, by decide, by decide⟩,
   ⟨st base, ⟨_, rfl⟩, by decide, by decide⟩⟩

theorem test_WorldsRun_met_7 :
    (∃ s : State, ∃ a v w d n, (∃ t', exec (.cautionEnter a v) s = .next t') ∧ w = putBits v 31 30 2 ∧ Written s.dev a
      SF_CAUTION w d n ∧ cautionBad s.dev w = none ∧ bit w 31 = true) ∧
    (∃ s : State, ∃ a v w d n e, (∃ t', exec (.cautionExit a v) s = .next t') ∧ w = putBits v 31 30 1 ∧ Written s.dev
      a SF_CAUTION w d n ∧ cautionBad s.dev w = none ∧ bit w 31 = false ∧ bit w 30 = true ∧ e = fs (fs d SF_CAUTION
      SF_CAUTION_ENTER (bits (rd s.dev SF_CAUTION) 31 31)) SF_CAUTION SF_CAUTION_EXIT (bits (rd s.dev SF_CAUTION) 30
      30) ∧ modeOf d = mCAU) :=
  ⟨⟨st base, (by' 0x25), 0, _, _, _, ⟨_, rfl⟩, rfl, wOk (by decide), by decide, by decide⟩,
   ⟨st (fs base GL_MODE GL_MODE_MODE mCAU), (by' 0x25), 0, _, _, _, _, ⟨_, rfl⟩, rfl, wOk (by decide), by decide, by
     decide, by decide, rfl, by decide⟩⟩

/-! #### BootRuns -/

theorem test_BootRuns_met_1 :
    (∃ s : State, ∃ d e g, (∃ t', exec .bootStart s = .next t') ∧ s.dev.pm.begun = false ∧ d = showStore (fs
      (freshSector { s.dev with pm := { s.dev.pm with begun := true } }) PM_STORE_STAT PM_STORE_STAT_PRESENT
      s.dev.pm.storePresent.toNat) ∧ e = fs d PM_BOOT_STAT PM_BOOT_STAT_FAILS (sat (bootFails d) 15) ∧ (g = (if
      s.dev.bootMode = 1 ∧ s.dev.pm.storePresent then trainDram e else e))) ∧
    (∃ s : State, ∃ a v w d n e, (∃ t', exec (.loaderLoad a v) s = .next t') ∧ w = putBits v 31 28 1 ∧ Written s.dev a
      PM_LDR_CMD w d n ∧ bits w 31 28 = 1 ∧ (ldrState d = 0 ∨ ldrState d = 5 ∨ ldrState d = 6) ∧ d.pm.begun = true ∧ e
      = fs (setLdr
      { (writeBootState d (bootFails d + 1)) with pm := { (writeBootState d (bootFails d + 1)).pm with loading := true } }
      1 0) PM_LDR_STAT PM_LDR_STAT_FETCHED 0) ∧
    (∃ s : State, ∃ a v w d n, (∃ t', exec (.storeFormat a v) s = .next t') ∧ w = putBits v 31 28 2 ∧ Written s.dev a
      PM_LDR_CMD w d n ∧ bits w 31 28 = 2 ∧ ldrState d = 6) ∧
    (∃ s : State, ∃ img d e, (∃ t', exec (.imageVerifyDone img) s = .next t') ∧ s.dev.pm.loading = true ∧ d = fs s.dev
      PM_LDR_STAT PM_LDR_STAT_FETCHED (sat (img.bytes / 2 ^ 20) 65535) ∧ imageCause img = 0 ∧ e = putImage (setLdr d 3
      0) 0 (imageOf img)) ∧
    (∃ s : State, ∃ img d, (∃ t', exec (.imageVerifyDone img) s = .next t') ∧ s.dev.pm.loading = true ∧ d = fs s.dev
      PM_LDR_STAT PM_LDR_STAT_FETCHED (sat (img.bytes / 2 ^ 20) 65535) ∧ imageCause img ≠ 0) ∧
    (∃ s : State, (∃ t', exec .bootTimeout s = .next t') ∧ ldrState s.dev = 3) :=
  ⟨⟨st base, _, _, _, ⟨_, rfl⟩, by decide, rfl, rfl, rfl⟩,
   ⟨st (booting 0 id), f0, 0, _, _, _, _, ⟨_, rfl⟩, rfl, wOk (by decide), by decide, .inl (by decide), by decide, rfl⟩,
   ⟨st (booting 6 id), f0, 0, _, _, _, ⟨_, rfl⟩, rfl, wOk (by decide), by decide, by decide⟩,
   ⟨st (booting 1 (fun x => { x with loading := true })), (goodImg 0), _, _, ⟨_, rfl⟩, by decide, rfl, by decide, rfl⟩,
   ⟨st (booting 1 (fun x => { x with loading := true })), (goodImg 2), _, ⟨_, rfl⟩, by decide, rfl, by decide⟩,
   ⟨st (booting 3 id), ⟨_, rfl⟩, by decide⟩⟩

theorem test_BootRuns_met_2 :
    (∃ s : State, ∃ d e, (∃ t', exec .bootRunning s = .next t') ∧ ldrState s.dev = 3 ∧ e = setSlot (wr (setLdr s.dev 4
      0) PM_FW_VER (slotImage s.dev 0).version) 0 3 ∧ d = copyCauses (restoreMap (writeBootState (fs
      { e with pm := { e.pm with booted := true, recovery := false } } PM_BOOT_STAT PM_BOOT_STAT_SLOT 0) 0)) ∧
      s.dev.heritage = true) ∧
    (∃ s : State, ∃ d e, (∃ t', exec .bootRunning s = .next t') ∧ ldrState s.dev = 3 ∧ e = setSlot (wr (setLdr s.dev 4
      0) PM_FW_VER (slotImage s.dev 0).version) 0 3 ∧ d = copyCauses (restoreMap (writeBootState (fs
      { e with pm := { e.pm with booted := true, recovery := false } } PM_BOOT_STAT PM_BOOT_STAT_SLOT 0) 0)) ∧
      s.dev.heritage = false) ∧
    (∃ s : State, ∃ f r img q0 rest q d x e, (∃ t', exec (.fwStageLoad f r img) s = .next t') ∧ (ringSt s.dev f.val
      r.val).queue = q0 :: rest ∧ Runs
      { s.dev with pm := { s.dev.pm with stagedLoads := { ring := r.val, idx := q0.idx, cause := imageCause img, img := imageOf img } :: s.dev.pm.stagedLoads } }
      f.val r.val 0x630 [] chkFwStage q d ∧ d.pm.stagedLoads.find? (fun y => decide (y.ring = r.val) && decide (y.idx
      = q.idx)) = some x ∧ e = purgeRing (stageImage
      { d with pm := { d.pm with stagedLoads := d.pm.stagedLoads.filter (fun y => y != x) } } f.val r.val q x.cause
      x.img) f.val r.val) ∧
    (∃ s : State, ∃ f r q d, (∃ t', exec (.fwStageDiscard f r) s = .next t') ∧ Runs s.dev f.val r.val 0x631 []
      chkFwStage q d) ∧
    (∃ s : State, ∃ f r q d, (∃ t', exec (.fwCutover f r) s = .next t') ∧ Runs s.dev f.val r.val 0x640 [] chkCutover q
      d ∧ q.cp = none ∧ (raster d (bits (at4 q.words 0x10) 7 4)).had = true ∧ d.pm.cut.pendingOn = none) ∧
    (∃ s : State, ∃ f r q d, (∃ t', exec (.fwCutover f r) s = .next t') ∧ Runs s.dev f.val r.val 0x640 [] chkCutover q
      d ∧ (raster d (bits (at4 q.words 0x10) 7 4)).had = false ∧ cutRefused d (fwSlot q) = none) :=
  ⟨⟨st ({ booting 3 id with heritage := true }), _, _, ⟨_, rfl⟩, by decide, rfl, rfl, by decide⟩,
   ⟨st (booting 3 id), _, _, ⟨_, rfl⟩, by decide, rfl, rfl, by decide⟩,
   ⟨st (ringed base 0 0 5 (words 99 [(0x10, 1), (0x20, 64)])), 0, 0, (goodImg 0), _, [], _, _, _, _, ⟨_, rfl⟩, rfl,
     runsOk (by decide), optOk (by decide), rfl⟩,
   ⟨st (ringed base 0 0 5 (words 99 [(0x10, 268435457)])), 0, 0, _, _, ⟨_, rfl⟩, runsOk (by decide)⟩,
   ⟨st (ringed lit 0 0 5 (words 100 [(0x10, 1)])), 0, 0, _, _, ⟨_, rfl⟩, runsOk (by decide), by decide, by decide, by
     decide⟩,
   ⟨st (ringed (setSlot base 1 2) 0 0 5 (words 100 [(0x10, 1)])), 0, 0, _, _, ⟨_, rfl⟩, runsOk (by decide), by decide,
     by decide⟩⟩

theorem test_BootRuns_met_3 :
    (∃ s : State, (∃ t', exec .firmwareReady s = .next t') ∧ s.dev.pm.cut.window = true ∧ ¬ s.dev.pm.cut.tc + 40000000
      < s.dev.dt ∧ s.dev.pm.cut.rollback = true) ∧
    (∃ s : State, ∃ us d e, (∃ t', exec .firmwareReady s = .next t') ∧ s.dev.pm.cut.window = true ∧ ¬ s.dev.pm.cut.tc
      + 40000000 < s.dev.dt ∧ s.dev.pm.cut.rollback = false ∧ us = (s.dev.dt - s.dev.pm.cut.tc) / 1000 ∧ d = setSlot
      (setSlot s.dev s.dev.pm.running 2) s.dev.pm.cut.slot 3 ∧ e = wr (fs
      { d with pm := { d.pm with running := s.dev.pm.cut.slot } } PM_BOOT_STAT PM_BOOT_STAT_SLOT s.dev.pm.cut.slot)
      PM_FW_VER (slotImage d s.dev.pm.cut.slot).version) ∧
    (∃ s : State, ∃ d, (∃ t', exec .cutoverTimeout s = .next t') ∧ s.dev.pm.cut.window = true ∧ d = advance
      (s.dev.pm.cut.tc + 40000000) s.dev ∧ s.dev.pm.cut.rollback = true) ∧
    (∃ s : State, ∃ d, (∃ t', exec .cutoverTimeout s = .next t') ∧ s.dev.pm.cut.window = true ∧ d = advance
      (s.dev.pm.cut.tc + 40000000) s.dev ∧ s.dev.pm.cut.rollback = false) ∧
    (∃ s : State, ∃ p x k t e d g z, (∃ t', exec (.frameStart p) s = .next t') ∧ x = raster s.dev p.val ∧ x.had = true
      ∧ x.vtot ≠ 0 ∧ teWaits s.dev p.val = false ∧ (scans s.dev p.val && x.hold.any (fun h => decide (h < frameNext
      s.dev p.val * x.vtot))) = false ∧ k = frameNext s.dev p.val ∧ t = dtOf x k 0 ∧ e = advance t s.dev ∧ d = count
      (onPlat (setRaster e p.val (frameRaster e p.val k t)) p.val (fun y => { y with started := some k })) (162 +
      p.val) ∧ g = takeMode (pruneCfgs (clearFaults (bklFrame (flOut (if fb d (TT_FL_CTRL p.val) TT_FL_CTRL_EN then d
      else onFl d p.val (fun y => { y with corr := 0 })) p.val) p.val) p.val k) p.val k) p.val ∧ z = (if g.heritage &&
      scans g p.val then mdhIrq g p.val else g)) :=
  ⟨⟨st ({ base with pm := { base.pm with cut := { base.pm.cut with window := true, rollback := true } } }), ⟨_, rfl⟩,
     by decide, by decide, by decide⟩,
   ⟨st ({ base with pm := { base.pm with cut := { base.pm.cut with window := true, rollback := false } } }), _, _, _,
     ⟨_, rfl⟩, by decide, by decide, by decide, rfl, rfl, rfl⟩,
   ⟨st ({ base with pm := { base.pm with cut := { base.pm.cut with window := true, rollback := true } } }), _, ⟨_,
     rfl⟩, by decide, rfl, by decide⟩,
   ⟨st ({ base with pm := { base.pm with cut := { base.pm.cut with window := true, rollback := false } } }), _, ⟨_,
     rfl⟩, by decide, rfl, by decide⟩,
   ⟨st lit1, 0, _, _, _, _, _, _, _, ⟨_, rfl⟩, rfl, by decide, by decide, by decide, by decide, rfl, rfl, rfl, rfl,
     rfl, rfl⟩⟩

/-! #### StoreAndCountersRun -/

theorem test_StoreAndCountersRun_met_1 :
    (∃ s : State, ∃ f r q d, (∃ t', exec (.storeRwRead f r) s = .next t') ∧ Runs s.dev f.val r.val 0x680 [] (chkStore
      false full) q d ∧ currentRec d (storeName q).1 (storeName q).2 = none) ∧
    (∃ s : State, ∃ f r q d x e, (∃ t', exec (.storeRwRead f r) s = .next t') ∧ Runs s.dev f.val r.val 0x680 []
      (chkStore false full) q d ∧ currentRec d (storeName q).1 (storeName q).2 = some x ∧ ¬ (at4 q.words 0x20).toNat <
      x.len ∧ memWritePages (pagesFuel x.len) d f.val f.val (at8 q.words 0x18) ((wordBytes x.payload).take x.len) =
      (e, true)) ∧
    (∃ s : State, ∃ f r q d m, (∃ t', exec (.storeRwWrite f r m) s = .next t') ∧ Runs s.dev f.val r.val 0x681 [m]
      (chkStore true 65496) q d ∧ (at4 q.words 0x20).toNat = 0) ∧
    (∃ s : State, ∃ f r q d m e ws, (∃ t', exec (.storeRwWrite f r m) s = .next t') ∧ Runs s.dev f.val r.val 0x681 [m]
      (chkStore true 65496) q d ∧ (at4 q.words 0x20).toNat ≠ 0 ∧ memRead d f.val f.val (at8 q.words 0x18) (cdiv (at4
      q.words 0x20).toNat 4) (q.mem.headD { data := [], ecc := false, ats := false }) = (e, .words ws)) ∧
    (∃ s : State, ∃ f r q d, (∃ t', exec (.storeRwDelete f r) s = .next t') ∧ Runs s.dev f.val r.val 0x682 []
      (chkStore true full) q d) ∧
    (∃ s : State, ∃ f r q d e ok, (∃ t', exec (.storeRwInfo f r) s = .next t') ∧ Runs s.dev f.val r.val 0x683 []
      (chkStore false full) q d ∧ memWrite d f.val f.val (at8 q.words 0x18) ([d.pm.storeSectors * 65536,
      (erasedSectors d).length, ((topRecs d).filter (fun r => !r.deleted)).length, d.pm.storeErases.foldl (fun m p =>
      max m p.2) 0].flatMap (leBytes 4)) = (e, ok)) :=
  ⟨⟨st (ringed (stored []) 0 0 5 (words 104 [(0x10, 1)])), 0, 0, _, _, ⟨_, rfl⟩, runsOk (by decide), by decide⟩,
   ⟨st (ringed (stored [aRec 1]) 0 0 5 (words 104 [(0x10, 98304), (0x20, 64)])), 0, 0, _, _, _, _, ⟨_, rfl⟩, runsOk
     (by decide), optOk (by decide), by decide, pairOk (by decide)⟩,
   ⟨st (ringed (stored []) 0 0 5 (words 104 [(0x10, 268533760)])), 0, 0, _, _, (mem []), ⟨_, rfl⟩, runsOk (by decide),
     by decide⟩,
   ⟨st (ringed (stored []) 0 0 5 (words 104 [(0x10, 268533760), (0x20, 8)])), 0, 0, _, _, (mem [5, 6]), _, _, ⟨_,
     rfl⟩, runsOk (by decide), by decide, memOk (by decide)⟩,
   ⟨st (ringed (stored [aRec 1]) 0 0 5 (words 104 [(0x10, 536969216)])), 0, 0, _, _, ⟨_, rfl⟩, runsOk (by decide)⟩,
   ⟨st (ringed (stored [aRec 1]) 0 0 5 (words 104 [(0x10, 805404672)])), 0, 0, _, _, _, _, ⟨_, rfl⟩, runsOk (by
     decide), pairOk rfl⟩⟩

theorem test_StoreAndCountersRun_met_2 :
    (∃ s : State, ∃ j js d e, (∃ t', exec .storeWriteDone s = .next t') ∧ s.dev.pm.storeJobs = j :: js ∧ d =
      { s.dev with pm := { s.dev.pm with storeJobs := js } } ∧ appendRec d { j.item with seq := d.pm.storeSeq } = some
      e) ∧
    (∃ s : State, ∃ j js d, (∃ t', exec .storeWriteDone s = .next t') ∧ s.dev.pm.storeJobs = j :: js ∧ d =
      { s.dev with pm := { s.dev.pm with storeJobs := js } } ∧ appendRec d { j.item with seq := d.pm.storeSeq } =
      none) ∧
    (∃ s : State, ∃ k d, (∃ t', exec .storeCompaction s = .next t') ∧ ¬ (erasedSectors s.dev).length ≥ 2 ∧
      oldestSector s.dev = some k ∧ copyRecs ((topRecs s.dev).filter (fun r => decide (r.sector = k) && !r.deleted))
      s.dev = some d) ∧
    (∃ s : State, ∃ f r q0 rest q d, (∃ t', exec (.snapshot f r) s = .next t') ∧ (ringSt s.dev f.val r.val).queue = q0
      :: rest ∧ descRefusal s.dev f.val r.val q0 chkSnapshot = none ∧ Runs s.dev f.val r.val 0x660 [] chkSnapshot q d) ∧
    (∃ s : State, ∃ n d e x, (∃ t', exec .snapshotDone s = .next t') ∧ s.dev.ctr.busy = true ∧ x = advance
      s.dev.ctr.freezeDt s.dev ∧ n = (x.ctr.seq + 1) % 2 ^ 32 ∧ d = x.ctr.jobs.foldl (fun d j => writeSnap d n j) x ∧
      e = { d with ctr := { d.ctr with busy := false, jobs := [], seq := n } }) ∧
    (∃ s : State, ∃ a d e, (∃ t', exec (.counterRead a) s = .next t') ∧ serveDomain s.dev 4 = (d, true) ∧ reachesBar0
      a = true ∧ e =
      { d with tt := { d.tt with ctHi := SMap.set d.tt.ctHi a.mid.toNat (ctShown d / 2 ^ 32) }, freeCtr := d.freeCtr + 1 }) :=
  ⟨⟨st ({ stored [] with pm := { (stored []).pm with storeJobs := [{ item := aRec 0, waiter := none }] } }), _, [], _,
     _, ⟨_, rfl⟩, rfl, rfl, optOk (by decide)⟩,
   ⟨st
     ({ base with pm := { base.pm with storeSectors := 1, storePos := 65536, storeJobs := [{ item := aRec 0, waiter := none }] } }),
     _, [], _, ⟨_, rfl⟩, rfl, rfl, by decide⟩,
   ⟨st ({ base with pm := { base.pm with storeSectors := 2, storeHead := 1, store := [aRec 0] } }), _, _, ⟨_, rfl⟩, by
     decide, optOk (by decide), optOk (by decide)⟩,
   ⟨st (ringed base 0 0 5 (words 102 [(0x18, 0)])), 0, 0, _, [], _, _, ⟨_, rfl⟩, rfl, by decide, runsOk (by decide)⟩,
   ⟨st ({ base with ctr := { base.ctr with busy := true } }), _, _, _, _, ⟨_, rfl⟩, by decide, rfl, rfl, rfl, rfl⟩,
   ⟨st base, f0, _, _, ⟨_, rfl⟩, pairOk (by decide), by decide, rfl⟩⟩

theorem test_StoreAndCountersRun_met_3 :
    (∃ s : State, ∃ src addr c n d e, (∃ t', exec (.eccCorrected (.memory src) addr) s = .next t') ∧ c = eccChannel
      src addr ∧ n = (if (SMap.get s.dev.ctr.ceRun (16 * eccCode src + c)).1 = s.dev.dt / 10 ^ 9 then (SMap.get
      s.dev.ctr.ceRun (16 * eccCode src + c)).2 + 1 else 1) ∧ d = eccRegs
      { s.dev with ctr := { s.dev.ctr with ceRun := SMap.set s.dev.ctr.ceRun (16 * eccCode src + c) (s.dev.dt / 10 ^ 9, n) } }
      src addr false ∧ e = (if src = .dram then count d (578 + 4 * c + 2) else d)) ∧
    (∃ s : State, ∃ src addr mid pw d, (∃ t', exec (.eccUncorrectable src addr mid pw) s = .next t') ∧ d = eccUe s.dev
      src addr mid.toNat) ∧
    (∃ s : State, ∃ d, (∃ t', exec (.patrolScrub .dram) s = .next t') ∧ domState s.dev 5 < 3 ∧ d = (if SMap.get
      s.dev.err.badLines s.dev.err.patrol then eccUe s.dev .dram (64 * s.dev.err.patrol) 0xFF else s.dev)) ∧
    (∃ s : State, ∃ d, (∃ t', exec .errLogged s = .next t') ∧ s.dev.err.unreported ≠ 0 ∧ fb s.dev ER_CTRL
      ER_CTRL_EVT_EN = true ∧ d = (s.dev.err.lastPost.map (fun t => advance (t + 10 ^ 6) s.dev)).getD s.dev) :=
  ⟨⟨st base, .dram, 64, _, _, _, _, ⟨_, rfl⟩, rfl, rfl, rfl, rfl⟩,
   ⟨st base, .dram, 64, 0, false, _, ⟨_, rfl⟩, rfl⟩,
   ⟨st base, _, ⟨_, rfl⟩, by decide, rfl⟩,
   ⟨st (fs { base with err := { base.err with unreported := 1 } } ER_CTRL ER_CTRL_EVT_EN 1), _, ⟨_, rfl⟩, by decide,
     by decide, rfl⟩⟩

/-! #### PairRuns -/

theorem test_PairRuns_met_1 :
    (∃ s : State, ∃ d, (∃ t', exec .fenceInAssert s = .next t') ∧ s.dev.pair.fenceIn = false ∧ d = onPair s.dev (fun x
      => { x with fenceIn := true })) ∧
    (∃ s : State, (∃ t', exec .fenceInRelease s = .next t') ∧ s.dev.pair.fenceIn = true) ∧
    (∃ s : State, ∃ f r q d e g, (∃ t', exec (.pairForm f r none) s = .next t') ∧ s.dev.pair.form = none ∧ Runs s.dev
      f.val r.val 0x650 [] chkForm q d ∧ e = onPair d (fun x =>
      { x with form := some { ring := r.val, idx := q.idx, role := bits (at4 q.words 0x10) 27 27, t0 := d.dt } }) ∧ (g
      = purgeRing (if dhState d = 0 ∨ dhState d = 7 then setHeartbeat (setDh (setRole e (bits (at4 q.words 0x10) 27 27
      == 1)) 1) true else e) f.val r.val)) ∧
    (∃ s : State, ∃ f r q d e g x, (∃ t', exec (.pairForm f r (some x)) s = .next t') ∧ s.dev.pair.form = none ∧ Runs
      s.dev f.val r.val 0x650 [] chkForm q d ∧ e = onPair d (fun x =>
      { x with form := some { ring := r.val, idx := q.idx, role := bits (at4 q.words 0x10) 27 27, t0 := d.dt } }) ∧ (g
      = purgeRing (if dhState d = 0 ∨ dhState d = 7 then setHeartbeat (setDh (setRole e (bits (at4 q.words 0x10) 27 27
      == 1)) 1) true else e) f.val r.val) ∧ domUp g 15 = true) ∧
    (∃ s : State, ∃ f r q d, (∃ t', exec (.pairLeave f r) s = .next t') ∧ Runs s.dev f.val r.val 0x651 [] chkLeave q
      d) ∧
    (∃ s : State, ∃ f r q d a, (∃ t', exec (.pairSwap f r) s = .next t') ∧ Runs s.dev f.val r.val 0x652 [] chkSwap q d
      ∧ a = bits (at4 q.words 0x10) 3 0 ∧ q.cp = none) :=
  ⟨⟨st base, _, ⟨_, rfl⟩, by decide, rfl⟩,
   ⟨st (onPair base (fun x => { x with fenceIn := true })), ⟨_, rfl⟩, by decide⟩,
   ⟨st (ringed base 0 0 5 (words 101 [(0x10, 0)])), 0, 0, _, _, _, _, ⟨_, rfl⟩, by decide, runsOk (by decide), rfl,
     rfl⟩,
   ⟨st (ringed base 0 0 5 (words 101 [(0x10, 0)])), 0, 0, _, _, _, _, partner, ⟨_, rfl⟩, by decide, runsOk (by
     decide), rfl, rfl, by decide⟩,
   ⟨st (ringed base 0 0 5 (words 101 [(0x10, 268435456)])), 0, 0, _, _, ⟨_, rfl⟩, runsOk (by decide)⟩,
   ⟨st (ringed (paired 3 false id) 0 0 5 (words 101 [(0x10, 536870912)])), 0, 0, _, _, _, ⟨_, rfl⟩, runsOk (by
     decide), rfl, by decide⟩⟩

theorem test_PairRuns_met_2 :
    (∃ s : State, ∃ j d, (∃ t', exec .formTimeout s = .next t') ∧ s.dev.pair.form = some j ∧ dhState s.dev ≠ 2 ∧ d =
      endForm (advance (j.t0 + 1000000000) s.dev) stERR_DOWN 0) ∧
    (∃ s : State, (∃ t', exec .bankerHot s = .next t') ∧ dhState s.dev = 2 ∧ dhBanker s.dev = true ∧
      s.dev.pair.copyDone = true ∧ (enabledPlats s.dev).all (fun p => flState s.dev p == 2) = true) ∧
    (∃ s : State, (∃ t', exec .bankerHot s = .next t') ∧ dhState s.dev = 2 ∧ dhBanker s.dev = false) ∧
    (∃ s : State, (∃ t', exec .swapTakeEffect s = .next t') ∧ dhState s.dev = 3 ∧ s.dev.pair.swapping = true ∧
      (ctxKeys s.dev).all (fun c => (gctx s.dev c).job.isNone) = true ∧ s.dev.pair.acked ≥ s.dev.pair.seqOut ∧
      swapLanded s.dev = true) ∧
    (∃ s : State, ∃ x, (∃ t', exec .swapTakeEffect s = .next t') ∧ dhState s.dev = 4 ∧ heldSwap s.dev = some x) ∧
    (∃ s : State, (∃ t', exec .doneRecordSend s = .next t') ∧ mirroring s.dev = true) :=
  ⟨⟨st (onPair base (fun x => { x with form := some { ring := 0, idx := 0, role := 0, t0 := 0 } })), _, _, ⟨_, rfl⟩,
     rfl, by decide, rfl⟩,
   ⟨st (paired 2 true (fun x => { x with copyDone := true })), ⟨_, rfl⟩, by decide, by decide, by decide, by decide⟩,
   ⟨st (paired 2 false id), ⟨_, rfl⟩, by decide, by decide⟩,
   ⟨st (paired 3 false (fun x => { x with swapping := true })), ⟨_, rfl⟩, by decide, by decide, by decide, by decide,
     by decide⟩,
   ⟨st (paired 4 true (fun x =>
     { x with heldDescs := [{ f := 0, r := 0, slot := 0, words := words 0x65 [(0x10, 536870912)] }] })), _, ⟨_, rfl⟩,
     by decide, optOk (by decide)⟩,
   ⟨st (paired 3 false id), ⟨_, rfl⟩, by decide⟩⟩

theorem test_PairRuns_met_3 :
    (∃ s : State, (∃ t', exec .linkRetransmitTimeout s = .next t') ∧ linkRuns s.dev = true ∧ ¬ s.dev.pair.acked ≥
      s.dev.pair.seqOut ∧ s.dev.pair.retries ≥ 3) ∧
    (∃ s : State, (∃ t', exec .linkRetransmitTimeout s = .next t') ∧ linkRuns s.dev = true ∧ ¬ s.dev.pair.acked ≥
      s.dev.pair.seqOut ∧ ¬ s.dev.pair.retries ≥ 3) ∧
    (∃ s : State, (∃ t', exec .linkSilenceTimeout s = .next t') ∧ linkRuns s.dev = true ∧ fb s.dev DH_STATUS
      DH_STATUS_HB_ALIVE = true) ∧
    (∃ s : State, ∃ d, (∃ t', exec .heartbeatLost s = .next t') ∧ d = fs (setForward s.dev []) DH_STATUS
      DH_STATUS_HB_ALIVE 0 ∧ dhState d = 4) ∧
    (∃ s : State, ∃ d, (∃ t', exec .heartbeatLost s = .next t') ∧ d = fs (setForward s.dev []) DH_STATUS
      DH_STATUS_HB_ALIVE 0 ∧ dhState d = 2) ∧
    (∃ s : State, ∃ d, (∃ t', exec .heartbeatLost s = .next t') ∧ d = fs (setForward s.dev []) DH_STATUS
      DH_STATUS_HB_ALIVE 0 ∧ dhState d = 6) :=
  ⟨⟨st (paired 3 false (fun x => { x with seqOut := 1, retries := 3 })), ⟨_, rfl⟩, by decide, by decide, by decide⟩,
   ⟨st (paired 3 false (fun x => { x with seqOut := 1 })), ⟨_, rfl⟩, by decide, by decide, by decide⟩,
   ⟨st (fs (paired 3 false id) DH_STATUS DH_STATUS_HB_ALIVE 1), ⟨_, rfl⟩, by decide, by decide⟩,
   ⟨st (paired 4 false id), _, ⟨_, rfl⟩, rfl, by decide⟩,
   ⟨st (paired 2 false id), _, ⟨_, rfl⟩, rfl, by decide⟩,
   ⟨st (paired 6 false id), _, ⟨_, rfl⟩, rfl, by decide⟩⟩

theorem test_PairRuns_met_4 :
    (∃ s : State, ∃ d, (∃ t', exec .heartbeatLost s = .next t') ∧ d = fs (setForward s.dev []) DH_STATUS
      DH_STATUS_HB_ALIVE 0 ∧ dhState d = 3) ∧
    (∃ s : State, (∃ t', exec .takeoverDoorbellPoll s = .next t') ∧ s.dev.pair.polling = true) ∧
    (∃ s : State, ∃ a v d n, (∃ t', exec (.remapDone a v) s = .next t') ∧ Written s.dev a DH_CTRL v d n) ∧
    (∃ s : State, ∃ a v d n, (∃ t', exec (.aliveWrite a v) s = .next t') ∧ Written s.dev a DH_ALIVE v d n) ∧
    (∃ s : State, (∃ t', exec .aliveTimeout s = .next t') ∧ fg s.dev DH_HB_CFG DH_HB_CFG_ALIVE_MS ≠ 0 ∧ dhState s.dev
      ≠ 0) ∧
    (∃ s : State, ∃ f flr, (∃ t', exec (.configDiverge f flr) s = .next t') ∧ dhState s.dev = 4) :=
  ⟨⟨st (paired 3 false id), _, ⟨_, rfl⟩, rfl, by decide⟩,
   ⟨st (onPair base (fun x => { x with polling := true })), ⟨_, rfl⟩, by decide⟩,
   ⟨st base, f0, 0, _, _, ⟨_, rfl⟩, wOk (by decide)⟩,
   ⟨st base, f0, 0, _, _, ⟨_, rfl⟩, wOk (by decide)⟩,
   ⟨st (fs (paired 3 false id) DH_HB_CFG DH_HB_CFG_ALIVE_MS 5), ⟨_, rfl⟩, by decide, by decide⟩,
   ⟨st (paired 4 false id), 0, false, ⟨_, rfl⟩, by decide⟩⟩

theorem test_PairRuns_met_5 :
    (∃ s : State, ∃ d, (∃ t', exec .authenticationFail s = .next t') ∧ linkRuns s.dev = true ∧ d = bump s.dev
      DH_LINK_STAT DH_LINK_STAT_AUTH_FAILS ∧ s.dev.pair.authRun ≥ 2) ∧
    (∃ s : State, ∃ d, (∃ t', exec .authenticationFail s = .next t') ∧ linkRuns s.dev = true ∧ d = bump s.dev
      DH_LINK_STAT DH_LINK_STAT_AUTH_FAILS ∧ ¬ s.dev.pair.authRun ≥ 2) :=
  ⟨⟨st (paired 3 false (fun x => { x with authRun := 2 })), _, ⟨_, rfl⟩, by decide, rfl, by decide⟩,
   ⟨st (paired 3 false id), _, ⟨_, rfl⟩, by decide, rfl, by decide⟩⟩

/-! #### RecordsRun -/

theorem test_RecordsRun_met_1 :
    (∃ s : State, ∃ h f r slot ws tables d, (∃ t', exec (.recDesc h f r slot ws tables) s = .next t') ∧ NextRec s.dev
      h d) ∧
    (∃ s : State, ∃ h id o anchor group land d, (∃ t', exec (.recCommit h id o anchor group land) s = .next t') ∧
      NextRec s.dev h d) ∧
    (∃ s : State, ∃ h id land d, (∃ t', exec (.recRestamp h id land) s = .next t') ∧ NextRec s.dev h d) ∧
    (∃ s : State, ∃ h addr bytes mask d, (∃ t', exec (.recWrite h addr bytes mask) s = .next t') ∧ NextRec s.dev h d) ∧
    (∃ s : State, ∃ h item d, (∃ t', exec (.recState h item) s = .next t') ∧ NextRec s.dev h d) ∧
    (∃ s : State, ∃ h f r slot w d, (∃ t', exec (.recOut h f r slot w) s = .next t') ∧ NextRec s.dev h d) :=
  ⟨⟨st (paired 2 true id), hdr, 0, 0, 0, [], [], _, ⟨_, rfl⟩, ⟨_, _, by decide, by decide, by decide, rfl, by decide,
     rfl, by decide, by decide, rfl⟩⟩,
   ⟨st (paired 2 true id), hdr, 0, .device, 0, 1, [], _, ⟨_, rfl⟩, ⟨_, _, by decide, by decide, by decide, rfl, by
     decide, rfl, by decide, by decide, rfl⟩⟩,
   ⟨st (paired 2 true id), hdr, 0, none, _, ⟨_, rfl⟩, ⟨_, _, by decide, by decide, by decide, rfl, by decide, rfl, by
     decide, by decide, rfl⟩⟩,
   ⟨st (paired 2 true id), hdr, 0, [], 0, _, ⟨_, rfl⟩, ⟨_, _, by decide, by decide, by decide, rfl, by decide, rfl, by
     decide, by decide, rfl⟩⟩,
   ⟨st (paired 2 true id), hdr, (.mode 1), _, ⟨_, rfl⟩, ⟨_, _, by decide, by decide, by decide, rfl, by decide, rfl,
     by decide, by decide, rfl⟩⟩,
   ⟨st (paired 2 true id), hdr, 0, 0, 0, [], _, ⟨_, rfl⟩, ⟨_, _, by decide, by decide, by decide, rfl, by decide, rfl,
     by decide, by decide, rfl⟩⟩⟩

theorem test_RecordsRun_met_2 :
    (∃ s : State, ∃ h last d, (∃ t', exec (.recDone h last) s = .next t') ∧ NextRec s.dev h d) ∧
    (∃ s : State, ∃ h p r frame crc subst landIn d, (∃ t', exec (.recSig h p r frame crc subst landIn) s = .next t') ∧
      NextRec s.dev h d) ∧
    (∃ s : State, ∃ h bs pos d, (∃ t', exec (.recMedia h bs pos) s = .next t') ∧ NextRec s.dev h d) ∧
    (∃ s : State, ∃ h leadDt rpos d, (∃ t', exec (.recRaster h leadDt rpos) s = .next t') ∧ NextRec s.dev h d) ∧
    (∃ s : State, ∃ h addr bytes items last d, (∃ t', exec (.recSync h addr bytes items last) s = .next t') ∧ NextRec
      s.dev h d) ∧
    (∃ s : State, ∃ h upTo rttNs d, (∃ t', exec (.recAck h upTo rttNs) s = .next t') ∧ dhState s.dev ≠ 0 ∧ dhState
      s.dev ≠ 7 ∧ domUp s.dev 15 = true ∧ d = onPair (count s.dev 637) (fun x => { x with authRun := 0 }) ∧ staleRec d
      h = false) :=
  ⟨⟨st (paired 2 true id), hdr, [], _, ⟨_, rfl⟩, ⟨_, _, by decide, by decide, by decide, rfl, by decide, rfl, by
     decide, by decide, rfl⟩⟩,
   ⟨st (paired 2 true id), hdr, 0, 0, 0, 0, false, false, _, ⟨_, rfl⟩, ⟨_, _, by decide, by decide, by decide, rfl, by
     decide, rfl, by decide, by decide, rfl⟩⟩,
   ⟨st (paired 2 true id), hdr, [], [], _, ⟨_, rfl⟩, ⟨_, _, by decide, by decide, by decide, rfl, by decide, rfl, by
     decide, by decide, rfl⟩⟩,
   ⟨st (paired 2 true id), hdr, 0, [], _, ⟨_, rfl⟩, ⟨_, _, by decide, by decide, by decide, rfl, by decide, rfl, by
     decide, by decide, rfl⟩⟩,
   ⟨st (paired 2 true id), hdr, 0, [], [], true, _, ⟨_, rfl⟩, ⟨_, _, by decide, by decide, by decide, rfl, by decide,
     rfl, by decide, by decide, rfl⟩⟩,
   ⟨st (paired 2 true id), hdr, 0, 0, _, ⟨_, rfl⟩, by decide, by decide, by decide, rfl, by decide⟩⟩

theorem test_RecordsRun_met_3 :
    (∃ s : State, ∃ h theirs, (∃ t', exec (.recReject h theirs) s = .next t') ∧ dhState s.dev ≠ 0 ∧ dhState s.dev ≠ 7
      ∧ domUp s.dev 15 = true ∧ staleRec s.dev h = false) :=
  ⟨st (paired 2 true id), hdr, 0, ⟨_, rfl⟩, by decide, by decide, by decide, by decide⟩

/-! #### GuestsRun -/

theorem test_GuestsRun_met_1 :
    (∃ s : State, ∃ f r q d, (∃ t', exec (.partition f r) s = .next t') ∧ Runs s.dev f.val r.val 0x600 [] chkPartition
      q d) ∧
    (∃ s : State, ∃ a v d k ws e b, (∃ t', exec (.partitionWindowSubmit a v) s = .next t') ∧ ptWordWrite a 0 v s.dev =
      (d, true) ∧ k = ptSelOf d a.mid.toNat ∧ ws = v :: (List.range 15).map (fun j => (SMap.get (SMap.get d.ptStage
      a.mid.toNat) (j + 1)).getD (wd (futurePt d k) (j + 1))) ∧ e =
      { d with ptStage := SMap.set d.ptStage a.mid.toNat [] } ∧ d.heritage = false ∧ ptBad e k ws = some b) ∧
    (∃ s : State, ∃ a v d k ws e g, (∃ t', exec (.partitionWindowSubmit a v) s = .next t') ∧ ptWordWrite a 0 v s.dev =
      (d, true) ∧ k = ptSelOf d a.mid.toNat ∧ ws = v :: (List.range 15).map (fun j => (SMap.get (SMap.get d.ptStage
      a.mid.toNat) (j + 1)).getD (wd (futurePt d k) (j + 1))) ∧ e =
      { d with ptStage := SMap.set d.ptStage a.mid.toNat [] } ∧ d.heritage = false ∧ ptBad e k ws = none ∧
      d.pm.cut.window = false ∧ g = ptGroup e k ws) ∧
    (∃ s : State, ∃ a v d, (∃ t', exec (.ptSelWrite a v) s = .next t') ∧ maskedWrite a HS_PT_SEL v s.dev = (d, true) ∧
      bits v 4 0 ≠ ptSelOf d a.mid.toNat) ∧
    (∃ s : State, ∃ a v d, (∃ t', exec (.ptSelWrite a v) s = .next t') ∧ maskedWrite a HS_PT_SEL v s.dev = (d, true) ∧
      bits v 4 0 = ptSelOf d a.mid.toNat) ∧
    (∃ s : State, ∃ f r q d, (∃ t', exec (.fnCtrlDepart f r) s = .next t') ∧ Runs s.dev f.val r.val 0x611 [] chkDepart
      q d) :=
  ⟨⟨st (chained (words 0x60 [(0x10, 0x100)]) (words 0x60 [])), 0, 0, _, _, ⟨_, rfl⟩, runsOk (by decide)⟩,
   ⟨st ({ base with ptSel := [(0, 1)] }), f0, 0xFFFF, _, _, _, _, _, ⟨_, rfl⟩, pairOk (by decide), rfl, rfl, rfl, by
     decide, optOk (by decide)⟩,
   ⟨st ({ base with ptSel := [(0, 1)] }), f0, 0, _, _, _, _, _, ⟨_, rfl⟩, pairOk (by decide), rfl, rfl, rfl, by
     decide, by decide, by decide, rfl⟩,
   ⟨st base, f0, 3, _, ⟨_, rfl⟩, pairOk (by decide), by decide⟩,
   ⟨st base, f0, 0, _, ⟨_, rfl⟩, pairOk (by decide), by decide⟩,
   ⟨st (ringed (guest 1) 0 0 5 (words 97 [(0x10, 16777217)])), 0, 0, _, _, ⟨_, rfl⟩, runsOk (by decide)⟩⟩

theorem test_GuestsRun_met_2 :
    (∃ s : State, ∃ f r q d k e, (∃ t', exec (.fnCtrlQuiesce f r) s = .next t') ∧ Runs s.dev f.val r.val 0x612 []
      (chkFnCtrl [1]) q d ∧ k = fcFn q ∧ e = onFn d k (fun x =>
      { x with qui := { on := true, ring := r.val, idx := q.idx, limit := d.dt + 1000 * (if (at4 q.words 0x14).toNat = 0 then 10000 else (at4 q.words 0x14).toNat), done := false, dtQ := 0, frames := [] } })) ∧
    (∃ s : State, ∃ f, (∃ t', exec (.quiesceDone f) s = .next t') ∧ (fnSt s.dev f.val).qui.on = true ∧ quiesceOver
      s.dev f.val = true) ∧
    (∃ s : State, ∃ f, (∃ t', exec (.quiesceTimeout f) s = .next t') ∧ (fnSt s.dev f.val).qui.on = true) ∧
    (∃ s : State, ∃ f r q d k x e, (∃ t', exec (.fnCtrlResume f r) s = .next t') ∧ Runs s.dev f.val r.val 0x613 []
      (chkFnCtrl [3]) q d ∧ k = fcFn q ∧ x = (fnSt d k).restored ∧ e = onFn (setFnState d k 1) k (fun y =>
      { y with restored := default, qui := default })) ∧
    (∃ s : State, ∃ f r q d len g ok, (∃ t', exec (.fnCtrlSave f r) s = .next t') ∧ Runs s.dev f.val r.val 0x614 []
      (chkFnCtrl [3]) q d ∧ len = 0x9C + (fnSt d (fcFn q)).qui.blobLen ∧ ¬ (at4 q.words 0x30).toNat < len ∧
      memWritePages (pagesFuel len) d 0 0 (at8 q.words 0x18) (blobBytes d (fcFn q)) = (g, ok)) ∧
    (∃ s : State, ∃ f r q d len, (∃ t', exec (.fnCtrlSave f r) s = .next t') ∧ Runs s.dev f.val r.val 0x614 []
      (chkFnCtrl [3]) q d ∧ len = 0x9C + (fnSt d (fcFn q)).qui.blobLen ∧ (at4 q.words 0x30).toNat < len) :=
  ⟨⟨st (ringed (guest 1) 0 0 5 (words 97 [(0x10, 33554433)])), 0, 0, _, _, _, _, ⟨_, rfl⟩, runsOk (by decide), rfl,
     rfl⟩,
   ⟨st (quiet 1), 1, ⟨_, rfl⟩, by decide, by decide⟩,
   ⟨st (quiet 1), 1, ⟨_, rfl⟩, by decide⟩,
   ⟨st (ringed (guest 3) 0 0 5 (words 97 [(0x10, 50331649)])), 0, 0, _, _, _, _, _, ⟨_, rfl⟩, runsOk (by decide), rfl,
     rfl, rfl⟩,
   ⟨st (ringed (setFnState (mapped 0 base) 1 3) 0 0 5 (words 97 [(0x10, 67108865), (0x30, 0xFFFFFFFF)])), 0, 0, _, _,
     _, _, _, ⟨_, rfl⟩, runsOk (by decide), rfl, by decide, pairOk rfl⟩,
   ⟨st (ringed (setFnState (mapped 0 base) 1 3) 0 0 5 (words 97 [(0x10, 67108865), (0x30, 4)])), 0, 0, _, _, _, ⟨_,
     rfl⟩, runsOk (by decide), rfl, by decide⟩⟩

theorem test_GuestsRun_met_3 :
    (∃ s : State, ∃ f r blob m q d x e, (∃ t', exec (.fnCtrlRestore f r blob m) s = .next t') ∧ Runs
      { s.dev with blobs := s.dev.blobs ++ [{ ring := r.val, idx := ((ringSt s.dev f.val r.val).queue.head?.map (fun q => q.idx)).getD 0, blob := blob }] }
      f.val r.val 0x615 [m] chkRestore q d ∧ d.blobs.find? (fun x => decide (x.ring = r.val) && decide (x.idx =
      q.idx)) = some x ∧ e = purgeRing (restoreBlob x.blob f.val r.val q d) f.val r.val) ∧
    (∃ s : State, ∃ f r q d, (∃ t', exec (.fnCtrlDlStart f r) s = .next t') ∧ Runs s.dev f.val r.val 0x616 []
      chkDlStart q d) ∧
    (∃ s : State, ∃ f r q d e ok, (∃ t', exec (.fnCtrlHarvest f r) s = .next t') ∧ Runs s.dev f.val r.val 0x617 []
      chkDl q d ∧ writeBack d (fcFn q) = (e, ok)) ∧
    (∃ s : State, ∃ f r q d e ok, (∃ t', exec (.fnCtrlDlStop f r) s = .next t') ∧ Runs s.dev f.val r.val 0x618 []
      chkDl q d ∧ writeBack d (fcFn q) = (e, ok)) ∧
    (∃ s : State, ∃ num, (∃ t', exec (.vfEnableSet num) s = .next t') ∧ s.dev.heritage = false ∧ s.dev.vfEnable =
      false ∧ s.dev.pm.recovery = false) ∧
    (∃ s : State, ∃ num, (∃ t', exec (.vfEnableSet num) s = .next t') ∧ s.dev.heritage = false ∧ s.dev.vfEnable = true
      ∧ s.dev.pm.recovery = false) :=
  ⟨⟨st (ringed (guest 1) 0 0 5 (words 97 [(0x10, 83886081)])), 0, 0, blob, (mem []), _, _, _, _, ⟨_, rfl⟩, runsOk (by
     decide), optOk (by decide), rfl⟩,
   ⟨st (ringed (guest 1) 0 0 5 (words 97 [(0x10, 100663297)])), 0, 0, _, _, ⟨_, rfl⟩, runsOk (by decide)⟩,
   ⟨st (ringed (onFn (guest 1) 1 (fun x => { x with dl := { x.dl with on := true } })) 0 0 5 (words 97 [(0x10,
     117440513)])), 0, 0, _, _, _, _, ⟨_, rfl⟩, runsOk (by decide), pairOk rfl⟩,
   ⟨st (ringed (onFn (guest 1) 1 (fun x => { x with dl := { x.dl with on := true } })) 0 0 5 (words 97 [(0x10,
     134217729)])), 0, 0, _, _, _, _, ⟨_, rfl⟩, runsOk (by decide), pairOk rfl⟩,
   ⟨st base, 3, ⟨_, rfl⟩, by decide, by decide, by decide⟩,
   ⟨st ({ base with vfEnable := true, numVfs := 2 }), 3, ⟨_, rfl⟩, by decide, by decide, by decide⟩⟩

theorem test_GuestsRun_met_4 :
    (∃ s : State, ∃ num, (∃ t', exec (.vfEnableClear num) s = .next t') ∧ s.dev.heritage = false) ∧
    (∃ s : State, ∃ f d e, (∃ t', exec (.functionDeparted f) s = .next t') ∧ fnState s.dev f.val = 2 ∧ departOver
      s.dev f.val = true ∧ d = departLast (leaveAll s.dev f.val) f.val ∧ e = onFn d f.val (fun x =>
      { (default : FnSt) with rings := x.rings }) ∧ f.val = 0) ∧
    (∃ s : State, ∃ f d e, (∃ t', exec (.functionDeparted f) s = .next t') ∧ fnState s.dev f.val = 2 ∧ departOver
      s.dev f.val = true ∧ d = departLast (leaveAll s.dev f.val) f.val ∧ e = onFn d f.val (fun x =>
      { (default : FnSt) with rings := x.rings }) ∧ f.val ≠ 0) ∧
    (∃ s : State, (∃ t', exec .f0DepartureStart s = .next t') ∧ (fnSt s.dev 0).dep.on = true ∧ fnState s.dev 0 = 1 ∧
      vfsThere s.dev = []) ∧
    (∃ s : State, ∃ a v f d n, (∃ t', exec (.mmuRootWrite a f v) s = .next t') ∧ Written s.dev a (MM_ROOT_LO f.val) v
      d n) ∧
    (∃ s : State, ∃ a v w d n, (∃ t', exec (.invalidateFunction a v) s = .next t') ∧ w = putBits v 31 30 0 ∧ Written
      s.dev a MM_INVAL w d n ∧ fb s.dev MM_INVAL_STAT MM_INVAL_STAT_DONE = true ∧ (¬ (bits n 31 30 = 1 ∧ bits n 29 13
      = 0))) :=
  ⟨⟨st base, 3, ⟨_, rfl⟩, by decide⟩,
   ⟨st (setFnState base 0 2), 0, _, _, ⟨_, rfl⟩, by decide, by decide, rfl, rfl, by decide⟩,
   ⟨st (guest 2), 1, _, _, ⟨_, rfl⟩, by decide, by decide, rfl, rfl, by decide⟩,
   ⟨st (onFn (setFnState base 0 1) 0 (fun x => { x with dep := { x.dep with on := true } })), ⟨_, rfl⟩, by decide, by
     decide, by decide⟩,
   ⟨st base, f0, 0, 0, _, _, ⟨_, rfl⟩, wOk (by decide)⟩,
   ⟨st base, f0, 0, _, _, _, ⟨_, rfl⟩, rfl, wOk (by decide), by decide, by decide⟩⟩

theorem test_GuestsRun_met_5 :
    (∃ s : State, ∃ a v w d n, (∃ t', exec (.invalidateRange a v) s = .next t') ∧ w = putBits v 31 30 1 ∧ Written
      s.dev a MM_INVAL w d n ∧ fb s.dev MM_INVAL_STAT MM_INVAL_STAT_DONE = true ∧ (¬ (bits n 31 30 = 1 ∧ bits n 29 13
      = 0))) ∧
    (∃ s : State, ∃ a v w d n, (∃ t', exec (.invalidateAll a v) s = .next t') ∧ w = putBits v 31 30 2 ∧ Written s.dev
      a MM_INVAL w d n ∧ fb s.dev MM_INVAL_STAT MM_INVAL_STAT_DONE = true ∧ (¬ (bits n 31 30 = 1 ∧ bits n 29 13 = 0))) :=
  ⟨⟨st base, f0, 0x10000, _, _, _, ⟨_, rfl⟩, rfl, wOk (by decide), by decide, by decide⟩,
   ⟨st base, f0, 0, _, _, _, ⟨_, rfl⟩, rfl, wOk (by decide), by decide, by decide⟩⟩

/-! #### HeritageRuns -/

theorem test_HeritageRuns_met_1 :
    (∃ s : State, ∃ n d e x, (∃ t', exec (.capture n) s = .next t') ∧ s.dev.heritage = true ∧ bit (mdhReg s.dev
      (dispCtrl n.val + 8)) 0 = true ∧ d = (if dispOn s.dev n.val then advance (nextFrameDt s.dev n.val) s.dev else
      s.dev) ∧ e = mdhIrq (setMdh d (dispCtrl n.val + 8) 0) (8 + n.val) ∧ captureFails n.val (captureWords d n.val) =
      some x) ∧
    (∃ s : State, ∃ n d e, (∃ t', exec (.capture n) s = .next t') ∧ s.dev.heritage = true ∧ bit (mdhReg s.dev
      (dispCtrl n.val + 8)) 0 = true ∧ d = (if dispOn s.dev n.val then advance (nextFrameDt s.dev n.val) s.dev else
      s.dev) ∧ e = mdhIrq (setMdh d (dispCtrl n.val + 8) 0) (8 + n.val) ∧ captureFails n.val (captureWords d n.val) =
      none) ∧
    (∃ s : State, ∃ be off v m, (∃ t', exec (.mdhShadowWrite be off v) s = .next t') ∧ s.dev.heritage = true ∧
      mdhOccupied off.toNat = true ∧ shadowMask off.toNat = some m) ∧
    (∃ s : State, ∃ be v, (∃ t', exec (.softRst be v) s = .next t') ∧ s.dev.heritage = true ∧ hasBit be.toNat 0 = true
      ∧ bit v 0 = true ∧ bit (mdhReg s.dev 0x08) 0 = false) ∧
    (∃ s : State, ∃ t d, (∃ t', exec .softRstDone s = .next t') ∧ s.dev.mdh.softAt = some t ∧ d = (List.range 8).foldl
      (fun d n => if (platRun d n).disFrame.isSome then doPlatformDisable n d else d) (advance t s.dev)) ∧
    (∃ s : State, ∃ a v e d n, (∃ t', exec (.extKeyWrite a v) s = .next t') ∧ Written s.dev a GL_EXT_KEY v d n ∧ v = 0
      ∧ e = onMdh d (fun m => { m with key := none })) :=
  ⟨⟨st (old [(0x108, 1), (0x100, 24)]), 0, _, _, _, ⟨_, rfl⟩, by decide, by decide, rfl, rfl, optOk (by decide)⟩,
   ⟨st (old [(0x108, 1)]), 0, _, _, ⟨_, rfl⟩, by decide, by decide, rfl, rfl, by decide⟩,
   ⟨st (old []), 0xF, 0x100, 0, _, ⟨_, rfl⟩, by decide, by decide, optOk (by decide)⟩,
   ⟨st (old []), 1, 1, ⟨_, rfl⟩, by decide, by decide, by decide, by decide⟩,
   ⟨st ({ base with mdh := { base.mdh with softAt := some 5 } }), 5, _, ⟨_, rfl⟩, optOk (by decide), rfl⟩,
   ⟨st (old []), f0, 0, _, _, _, ⟨_, rfl⟩, wOk (by decide), rfl, rfl⟩⟩

theorem test_HeritageRuns_met_2 :
    (∃ s : State, ∃ a v e d n, (∃ t', exec (.extKeyWrite a v) s = .next t') ∧ Written s.dev a GL_EXT_KEY v d n ∧ v =
      0xA11E ∧ s.dev.mdh.key = none ∧ e = onMdh d (fun m => { m with key := none })) ∧
    (∃ s : State, ∃ a v t e d n, (∃ t', exec (.extKeyWrite a v) s = .next t') ∧ Written s.dev a GL_EXT_KEY v d n ∧ v =
      0xE11A ∧ s.dev.mdh.key = some t ∧ d.dt ≤ t + 1000000 ∧ e = onMdh d (fun m => { m with key := none })) ∧
    (∃ s : State, ∃ a v e d n, (∃ t', exec (.extKeyWrite a v) s = .next t') ∧ Written s.dev a GL_EXT_KEY v d n ∧ v ≠ 0
      ∧ v ≠ 0xA11E ∧ v ≠ 0xE11A ∧ e = onMdh d (fun m => { m with key := none })) ∧
    (∃ s : State, ∃ off bs len a, (∃ t', exec (.apertureAccess off (some bs) len) s = .next t') ∧ s.dev.heritage =
      true ∧ a = apertureBase s.dev + off.toNat) ∧
    (∃ s : State, ∃ off len a, (∃ t', exec (.apertureAccess off none len) s = .next t') ∧ s.dev.heritage = true ∧ a =
      apertureBase s.dev + off.toNat) :=
  ⟨⟨st (old []), f0, 0xA11E, _, _, _, ⟨_, rfl⟩, wOk (by decide), rfl, by decide, rfl⟩,
   ⟨st ({ old [] with mdh := { base.mdh with key := some 0 } }), f0, 0xE11A, 0, _, _, _, ⟨_, rfl⟩, wOk (by decide),
     rfl, optOk (by decide), by decide, rfl⟩,
   ⟨st (old []), f0, 7, _, _, _, ⟨_, rfl⟩, wOk (by decide), by decide, by decide, by decide, rfl⟩,
   ⟨st (old []), 0, [1], 4, _, ⟨_, rfl⟩, by decide, rfl⟩,
   ⟨st (old []), 0, 4, _, ⟨_, rfl⟩, by decide, rfl⟩⟩

/-! The statements about the whole block. -/

theorem test_StepRunsFront_met : ∃ s : State, s.pending = .dtRead f0 :: [] ∧ step s = exec (.dtRead f0) { s with pending := [] } :=
  ⟨{ pending := [.dtRead f0], dev := base }, rfl, rfl⟩

theorem test_IdleStepTicks_met :
    ∃ s u : State, s.pending = [] ∧ u.pending = [] ∧ clockStopped s.dev = false ∧ clockStopped u.dev = true :=
  ⟨st base, st (fs base (PM_DOM_STAT 4) PM_DOM_STAT_STATE 3), rfl, rfl, by decide, by decide⟩

theorem test_StepKeepsCanonicalForm_met :
    ∃ s t : State, step s = .next t ∧ s.dev.ramOk = true ∧ s.dev.regsOk = true ∧ s.pending ≠ [] :=
  ⟨{ pending := [.dtRead f0], dev := mapped 0 base }, _, rfl, by decide, by decide, by decide⟩

theorem test_StepTakesNothingBack_met :
    ∃ s t : State, step s = .next t ∧ (∀ c, s.pending.head? = some c → isCold c = false) ∧ s.pending ≠ [] := by
  refine ⟨{ pending := [.dtRead f0], dev := base }, _, rfl, ?_, by decide⟩
  intro c h
  injection h with h
  subst h
  rfl

theorem test_RunTakesNothingBack_met : ∃ s : State, (∀ c ∈ s.pending, isCold c = false) ∧ s.pending ≠ [] :=
  ⟨{ pending := [.dtRead f0, .convDone], dev := base }, by decide, by decide⟩

theorem test_HeritageStrapIsHeld_met :
    (∃ (c : Instr) (s t : State), exec c s = .next t ∧ isCold c = false) ∧
    (∃ (s t : State) (x : Straps), exec (.coldReset x) s = .next t ∧ x.heritage = true) :=
  ⟨⟨.dtRead f0, st base, _, rfl, rfl⟩, ⟨st base, _, { heritage := true, seatB := false, bootMode := 0 }, rfl, rfl⟩⟩

theorem test_PartialWriteIsDiscarded_met :
    ∃ (a : Acc) (off : Nat) (d : Dev), a.be ≠ 0xF ∧ reachesBar0 a = true ∧ (serveDomain d (domOf off)).2 = true ∧
      sideWord 0x14 = false :=
  ⟨{ f0 with be := 3 }, 0x14, base, by decide, by decide, by decide, by decide⟩

theorem test_ReservedEncodingIsDiscarded_met :
    ∃ (a : Acc) (off : Nat) (v : Word) (d : Dev) (r : RRow) (k : List Nat), rowOf off = some (r, k) ∧ badEncoding r v = true ∧
      sideWord off = false ∧ reachesBar0 a = true ∧ (serveDomain d (domOf off)).2 = true :=
  ⟨f0, AU_DOM 0, 0xC0000000, base, _, _, rowOk (by decide), by decide, by decide, by decide, by decide⟩

theorem test_RegisterWriteFrame_met : ∃ (a : Acc) (off : Nat) (v n : Word) (d e : Dev), Written d a off v e n :=
  ⟨f0, PM_THERM_MASK, 0, _, base, _, wOk (by decide)⟩

theorem test_UndoneWriteFrame_met :
    ∃ (a : Acc) (off : Nat) (v : Word) (d : Dev), ∀ n, (regWrite a off v d).2 ≠ .done n := by
  refine ⟨{ f0 with be := 3 }, 0, 0, base, ?_⟩
  intro n h
  have h2 : isDone (regWrite { f0 with be := 3 } 0 0 base).2 = false := by decide
  rw [h] at h2
  cases h2

theorem test_LockedFieldsKeep_met :
    (∃ (a : Acc) (off : Nat) (v n : Word) (d e : Dev) (r : RRow) (k : List Nat), Written d a off v e n ∧ rowOf off = some (r, k) ∧
      r.staged = false ∧ rowLocked (serveDomain d (domOf off)).1 r = true ∧ r.fields.any (fun f => f.acc == .wo) = false ∧
      lockedChange r (rd (serveDomain d (domOf off)).1 off) v = true) ∧
    (∃ (a : Acc) (off : Nat) (v n : Word) (d e : Dev) (r : RRow) (k : List Nat), Written d a off v e n ∧ rowOf off = some (r, k) ∧
      r.staged = false ∧ rowLocked (serveDomain d (domOf off)).1 r = true ∧ r.fields.any (fun f => f.acc == .wo) = false ∧
      lockedChange r (rd (serveDomain d (domOf off)).1 off) v = false) :=
  ⟨⟨f0, CM_FRT_SIZE, 64, _, wr base GL_LOCK 0x3F, _, _, _, wOk (by decide), rowOk (by decide), by decide, by decide, by decide,
      by decide⟩,
    ⟨f0, CM_FRT_SIZE, 0, _, wr base GL_LOCK 0x3F, _, _, _, wOk (by decide), rowOk (by decide), by decide, by decide, by decide,
      by decide⟩⟩

theorem test_OnlyTheIslandWritesItsRegisters_met :
    ∃ (a : Acc) (off : Nat) (d : Dev) (r : RRow) (k : List Nat), rowOf off = some (r, k) ∧ r.world = .island ∧
      a.mid.toNat ≠ midSI ∧ a.mid.toNat ≠ midPAIR ∧ reachesBar0 a = true ∧ (serveDomain d (domOf off)).2 = true :=
  ⟨f0, SF_CAUTION, base, _, _, rowOk (by decide), by decide, by decide, by decide, by decide, by decide⟩

theorem test_TokenReadFollowsItsState_met :
    ∃ s1 s2 : State, ∃ a b c : Acc, ∃ d1 d2 : Dev, bellServed s1.dev false = (d1, true) ∧ bellServed s2.dev false = (d2, true) ∧
      windowThere d1 a.mid.toNat = true ∧ windowThere d2 a.mid.toNat = true ∧ windowThere d1 b.mid.toNat = true ∧
      windowThere d1 c.mid.toNat = true ∧ windowThere d2 b.mid.toNat = true ∧
      a.be = 0xF ∧ mayToken d1 a.mid.toNat 0 = true ∧ (tok d1 0).holder = none ∧
      mayToken d2 a.mid.toNat 0 = true ∧ (tok d2 0).holder = some 0x20 ∧
      c.be = 0xF ∧ mayToken d1 c.mid.toNat 0 = false ∧ b.be ≠ 0xF :=
  ⟨st (tokened none), st (tokened (some 0x20)), f0, { f0 with be := 3 }, by' 0x21, _, _, pairOk (by decide), pairOk (by decide),
    by decide, by decide, by decide, by decide, by decide, by decide, by decide, by decide, by decide, by decide, by decide,
    by decide, by decide⟩

theorem test_OneReaderTakesTheToken_met :
    ∃ (d : Dev) (a : Acc) (rs : List Acc), (∀ x ∈ a :: rs, contends d 0 x = true) ∧ (tok d 0).holder = none ∧ rs ≠ [] :=
  ⟨tokened none, f0, [by' 0x20], by decide, by decide, by decide⟩

theorem test_NormalFunctionsStayAboveTheWatermark_met :
    ∃ (d : Dev) (a : Nat), ptSecure d 1 = false ∧ translate d 1 (2 ^ 30) true false = .ok (.dram a) :=
  ⟨{ mapped 1 base with dramUnits := 65536 }, 2 ^ 30, by decide, by decide⟩

theorem test_TranslatedWriteFrame_met :
    ∃ d e : Dev, translate d 0 (2 ^ 30) true = .ok (.dram (2 ^ 30)) ∧ translate d 0 0 true = .ok (.host 0) ∧
      translate e 0 0 true = .fault 0 ∧ firstFault e 0 true false (pagesOf 0 1) = some (0, 0) :=
  ⟨mapped 0 base, base, by decide, by decide, by decide, by decide⟩

theorem test_TranslatedWriteFrame_met_evicts :
    ∃ (d : Dev) (y : DirtyWord) (b : Nat), d.dirty.getLast? = some y ∧ 512 ≤ d.dirty.length ∧
      translate (place d 0 0 (.host 0) [1]) 0 (dirtyMap d y.f + 8 * y.word) true = .ok (.dram b) ∧ b + 8 ≤ 2 ^ 31 :=
  ⟨{ mapped 0 base with dirty := List.replicate 512 { (default : DirtyWord) with word := 2 ^ 27 } }, { f := 0, word := 2 ^ 27, bits := 0 },
    2 ^ 30, by decide, by decide, by decide, by decide⟩

theorem test_TranslatedWriteStores_met :
    ∃ d e : Dev, memWritePage d 0 0 (2 ^ 30) [1, 2] = (e, true) ∧ translate d 0 (2 ^ 30) true = .ok (.dram (2 ^ 30)) :=
  ⟨mapped 0 base, _, pairOk (by decide), by decide⟩

theorem test_LineTimesAreConsistent_met :
    ∃ x : Raster, x.hold = none ∧ 5 = x.fRef * x.vtot + x.lRef + 5 ∧ 0 < x.pxDen ∧ 0 < x.vtot ∧ x.pxDen ≤ x.htot * x.pxNum ∧
      (x.pxDen : Int) ≤ ((x.htot : Int) + x.corr / (x.vtot : Int)) * (x.pxNum : Int) ∧ x.corr ≠ 0 :=
  ⟨{ rast with corr := -250 }, by decide, by decide, by decide, by decide, by decide, by decide, by decide⟩

theorem test_LandingIsTheNextBoundary_met :
    ∃ x : Raster, 0 < x.vact ∧ x.vact ≤ x.vtot ∧ x.boundary 16 16 ∧ 1 ≤ 16 :=
  ⟨rast, by decide, by decide, ⟨by decide, by decide⟩, by decide⟩

theorem test_SignalMovesItsFence_met :
    ∃ d : Dev, ∃ ws : List Word, bankerLike d = false ∧ bit (at4 ws 0x10) 8 = true ∧ SMap.rising d.fns = true ∧
      SMap.rising (fnSt d 0).fences = true ∧ (bits (at4 ws 0x10) 3 0) = 2 :=
  ⟨base, words 1 [(0x10, 0x102), (0x18, 7)], by decide, by decide, by decide, by decide, by decide⟩

theorem test_WaitHoldsItsRing_met : ∃ d : Dev, waitHolds d 0 0 = true :=
  ⟨onRing base 0 0 (fun x => { x with state := .active, live :=
    [{ idx := 0, words := words 2 [(0x18, 7)], chain := [], mem := [], cp := none, seq := 0, stage := 0, link := none }] }), by decide⟩

theorem test_StagingIsPerMaster_met :
    ∃ (s t u : State) (m : Nat), m ≠ f0.mid.toNat ∧ SMap.rising s.dev.tt.sel = true ∧ SMap.rising s.dev.tt.stage = true ∧
      exec (.cpSelWrite f0 5) s = .next t ∧ exec (.cpStageWrite f0 0 5) s = .next u :=
  ⟨st base, _, _, 3, by decide, by decide, by decide, rfl, rfl⟩

theorem test_BadBindingIsDiscarded_met :
    (∃ (s : State) (d : Dev) (v n : Word), Written s.dev f0 (BL_BIND 0) v d n ∧ bits n 11 6 > 0x25) ∧
    (∃ (s : State) (d : Dev) (v n : Word), Written s.dev f0 (BL_BIND 0) v d n ∧ bits n 5 0 > 0x25) ∧
    (∃ (s : State) (d : Dev) (v n : Word), Written s.dev f0 (BL_BIND 0) v d n ∧ bits n 11 6 = bits n 5 0) ∧
    (∃ (s : State) (d : Dev) (v n : Word), Written s.dev f0 (BL_BIND 0) v d n ∧ bit (rd s.dev (BL_BIND 0)) 31 = true ∧
      bits n 30 0 ≠ bits (rd s.dev (BL_BIND 0)) 30 0) ∧
    (∃ (s : State) (d : Dev) (v n : Word), Written s.dev f0 (BL_BIND 0) v d n ∧ bit n 31 = true ∧
      bit (rd s.dev (BL_BIND 0)) 31 = false ∧ skUsed s.dev 3 ≥ skRes s.dev 3) :=
  ⟨⟨st base, _, 0x980, _, wOk (by decide), by decide⟩, ⟨st base, _, 0x26, _, wOk (by decide), by decide⟩,
    ⟨st base, _, 0x41, _, wOk (by decide), by decide⟩,
    ⟨st (belled []), _, 0x80000801, _, wOk (by decide), by decide, by decide⟩,
    ⟨st (fs base (SK_RES 3) SK_RES_BLOCKS 0), _, 0x80000800, _, wOk (by decide), by decide, by decide, by decide⟩⟩

theorem test_BellIsFirstInFirstOut_met :
    ∃ (s : State) (d : Dev) (v : Word) (m : BellMsg) (ms : List BellMsg),
      viewWrite (by' 0x20) 0 2 0x1C v s.dev = (d, true) ∧ bit v 0 = true ∧ seenMsgs d 0 = m :: ms ∧
      SMap.rising d.bells.chans = true :=
  ⟨st (belled [default]), _, 1, default, [], pairOk (by decide), by decide, by decide, by decide⟩

theorem test_FreezeLatchesEveryCounter_met :
    ∃ d e e' : Dev, domUp d 4 = true ∧ d.ctr.busy = false ∧ e.ctr = (freeze d 0 []).ctr ∧ d.dt + freezeDelay < e.dt ∧
      e'.ctr = (freeze d 0 []).ctr ∧ e'.dt ≤ d.dt + freezeDelay :=
  ⟨base, { freeze base 0 [] with dt := 10 ^ 9 }, freeze base 0 [], by decide, by decide, rfl, by decide, rfl, by decide⟩

theorem test_ErrorsMerge_met :
    (∃ (d : Dev) (e : ErrRec) (es : List ErrRec), d.err.recs = e :: es ∧ d.dt - e.last ≤ 1000 ∧ e.count < 255 ∧ e.cause = 1) ∧
    (∃ d : Dev, ∀ e, d.err.recs.head? = some e →
      ¬ (e.cause = 2 ∧ e.mid = 0 ∧ e.addr = 0 ∧ d.dt - e.last ≤ 1000 ∧ e.count < 255)) :=
  ⟨⟨logErr base 1 0 0 0 false, _, [], rfl, by decide, by decide, by decide⟩, ⟨base, by intro e h; cases h⟩⟩

theorem test_HoldsStayInRange_met :
    (∃ (s : State) (d : Dev) (n : Word), Written s.dev (by' 0x24) SE_HOLD_OP 4 d n ∧ fg s.dev (SE_HOLD 4) SE_HOLD_PWR = 255) ∧
    (∃ (s : State) (d : Dev) (n : Word), Written s.dev (by' 0x24) SE_HOLD_OP (BitVec.ofNat 32 (2 ^ 30 + 4)) d n ∧
      fg s.dev (SE_HOLD 4) SE_HOLD_PWR = 0) ∧
    (∃ (s : State) (d : Dev) (n : Word), Written s.dev (by' 0x24) SE_HOLD_OP (BitVec.ofNat 32 (2 * 2 ^ 30 + 4)) d n ∧
      fg s.dev (SE_HOLD 4) SE_HOLD_CLK = 255) ∧
    (∃ (s : State) (d : Dev) (n : Word), Written s.dev (by' 0x24) SE_HOLD_OP (BitVec.ofNat 32 (3 * 2 ^ 30 + 4)) d n ∧
      fg s.dev (SE_HOLD 4) SE_HOLD_CLK = 0) :=
  ⟨⟨st (fs base (SE_HOLD 4) SE_HOLD_PWR 255), _, _, wOk (by decide), by decide⟩, ⟨st base, _, _, wOk (by decide), by decide⟩,
    ⟨st (fs base (SE_HOLD 4) SE_HOLD_CLK 255), _, _, wOk (by decide), by decide⟩, ⟨st base, _, _, wOk (by decide), by decide⟩⟩

theorem test_StaleRecordIsRejected_met :
    ∃ (s : State) (h : RecHdr) (d : Dev), dhState s.dev ≠ 0 ∧ dhState s.dev ≠ 7 ∧ domUp s.dev 15 = true ∧
      d = onPair (count s.dev 637) (fun x => { x with authRun := 0 }) ∧ staleRec d h = true :=
  ⟨st (fs (paired 2 true id) DH_STATUS DH_STATUS_CREW_EPOCH 5), { seq := 0, epoch := 4 }, _, by decide, by decide, by decide, rfl,
    by decide⟩

theorem test_AccessFrames_met :
    ∃ s : State, (∃ t, exec (.tokenAcquire 0 [f0]) s = .next t) ∧ (∃ t, exec (.tokenRelease f0 0 0) s = .next t) ∧
      (∃ t, exec (.dtRead f0) s = .next t) ∧ (∃ t, exec (.rposRead f0 0) s = .next t) ∧
      (∃ t, exec (.counterRead f0) s = .next t) ∧ (∃ t, exec (.convStart f0 0) s = .next t) ∧
      (∃ t, exec .convDone s = .next t) ∧ (∃ t, exec (.dpllWrite f0 0 0 0) s = .next t) ∧
      (∃ t, exec (.dpllLock 0) s = .next t) ∧ (∃ t, exec (.muteWrite f0 0) s = .next t) ∧
      (∃ t, exec (.auxNativeWrite f0 0 0x80000000) s = .next t) :=
  ⟨st base, ⟨_, rfl⟩, ⟨_, rfl⟩, ⟨_, rfl⟩, ⟨_, rfl⟩, ⟨_, rfl⟩, ⟨_, rfl⟩, ⟨_, rfl⟩, ⟨_, rfl⟩, ⟨_, rfl⟩, ⟨_, rfl⟩, ⟨_, rfl⟩⟩

theorem test_ResetsAndRegistersRun_met_sections : ∀ x : Sect, ∃ d n, f0.mid.toNat = 0 ∧
    Written base f0 GL_SECT_RST (BitVec.ofNat 32 (2 ^ sectNum x)) d n := by
  intro x
  cases x
  all_goals exact ⟨_, _, by decide, wOk (by decide)⟩

/-! ### Values from the worked examples of the spec -/

/-- Platform 0 with a raster of one line every 10 us, in a mode, at a device time. -/
def running (mode vact vtot dt : Nat) : Dev :=
  let d := onPlat (setRaster base 0 { rast with vact := vact, vtot := vtot }) 0 (fun y => { y with mode := mode })
  { d with dt := dt }

/-- "One commit on a tram cab display": accepted at line 470 of an Intercity platform, it lands at 640. -/
theorem test_open_strip_intercity : openFrom (running 2 800 823 4700000) 0 = 640 := by decide

/-- "Moving a stream between zones": accepted at line 500 in Express, the landing line is 544. -/
theorem test_open_strip_express : openFrom (running 1 1440 1481 5000000) 0 = 544 := by decide

/-- "A cutover under the coach cluster": at line 802.7 the first boundary still open is 864; at line 2150 the next frame's line 0. -/
theorem test_open_strip_cutover : openFrom (running 1 2160 2222 8027000) 0 = 864 ∧
    openFrom (running 1 2160 2222 21500000) 0 = 2222 := by decide

/-- "A late strip on a coach cluster": the strip reserve holds 560 blocks. -/
theorem test_strip_reserve : stripBlocks 3840 32 1 10 + stripBlocks 2560 32 1 10 + 2 * stripBlocks 1280 32 1 10 = 560 := by decide

/-- "A HUD frame against a long compute job": 2,927 pages of save area give a spread of 14, 3,345 a full one. -/
theorem test_spread : spreadOf { (default : GpuCtx) with saveSize := 2927 * 4096 } = 14 ∧
    spreadOf { (default : GpuCtx) with saveSize := 3345 * 4096 } = 16 := by decide

/-- "Joining the wall": at full slew 11.25 lines of 4,400 pixel clocks a frame; in the band 16 % of the error. -/
theorem test_framelock_slew : flCorrection (setRaster base 0 { rast with vtot := 2250, htot := 4400 }) 0 (900 * 4400) = 49500 ∧
    flCorrection (setRaster base 0 { rast with vtot := 2250, htot := 4400 }) 0 100000 = 16000 := by decide

/-- "Moving a stream between zones": stereo at 48 kHz with 10 ms takes 1 block. -/
theorem test_fifo_blocks :
    fifoBlocks base { (default : StreamRun) with cfg := [BitVec.ofNat 32 (2 ^ 18 + 10 * 2 ^ 8)] } = 1 := by decide

/-- A wall console at standard index 39 with 10-bit depth on DPLL0, whose words give 594 MHz, through DP0. -/
def console (rate : Nat) (dsc : Bool) : Dev :=
  let d := wr (wr base (SO_PCTRL 0) (BitVec.ofNat 32 (2 ^ 31 + 2 ^ 30 + 2 * 2 ^ 24 + 39))) (SO_DP_CFG 0)
    (BitVec.ofNat 32 (2 ^ 31 + 2 ^ 29 + 2 ^ 28 + 2 * 2 ^ 24 + rate * 2 ^ 16))
  wr (wr (wr d (SO_ROUTE 0) (BitVec.ofNat 32 (2 ^ 31 + if dsc then 2 ^ 16 else 0))) (SO_DPLL_W1 0) 671089) (SO_DPLL_W0 0)
    (BitVec.ofNat 32 (2 ^ 31 + 4 * 2 ^ 8 + 95))

/-- "A wall console on MST": 30 slots at UHBR10, 22 at UHBR13.5, 12 with DSC at 12.0 bits per pixel. -/
theorem test_mst_slots : mstSlots (console 4 false) (rd (console 4 false)) 0 = 30 ∧
    mstSlots (console 5 false) (rd (console 5 false)) 0 = 22 ∧ mstSlots (console 4 true) (rd (console 4 true)) 0 = 12 := by decide

/-- "A navigation map on a rear-seat screen": 2,040 bins, a reserve of 262,704 bytes. -/
theorem test_pool_reserve :
    reserveOf [[0, 0, 0, 0, BitVec.ofNat 32 (2160 * 2 ^ 16 + 3840), BitVec.ofNat 32 (0x05 * 2 ^ 24 + 2 ^ 20)],
      [0, 0, 0, 0, BitVec.ofNat 32 (2160 * 2 ^ 16 + 3840), BitVec.ofNat 32 (0x22 * 2 ^ 24 + 2 ^ 20)]] = 262704 := by decide

end Sys2Proof.Tests
end

section
/-! SUPPORT. What every command but a cold reset keeps, from the laws of the meanings, and what a cold reset makes of the
straps. -/

namespace Sys2Proof.Machine

/-- Every command but a cold reset runs, and undoes nothing of what `Grows` keeps: one law for each arm of the dispatch. -/
theorem exec_grows (s : State) : ∀ c : Instr, isCold c = false → ∃ d, exec c s = after s d ∧ Grows s.dev d
  | .registerWrite .., _ => ⟨_, rfl, doRegisterWrite_grows (.refl _)⟩
  | .readClear .., _ => ⟨_, rfl, doReadClear_grows (.refl _)⟩
  | .coldReset _, hc => nomatch hc
  | .warmReset _, _ => ⟨_, rfl, doWarmReset_grows (.refl _)⟩
  | .functionReset _, _ => ⟨_, rfl, doFunctionReset_grows (.refl _)⟩
  | .sectRstTt _, _ => ⟨_, rfl, doSectRstTt_grows (.refl _)⟩
  | .sectRstRaster _, _ => ⟨_, rfl, doSectRstRaster_grows (.refl _)⟩
  | .sectRstCompose _, _ => ⟨_, rfl, doSectRstCompose_grows (.refl _)⟩
  | .sectRstScanout _, _ => ⟨_, rfl, doSectRstScanout_grows (.refl _)⟩
  | .sectRstMedia _, _ => ⟨_, rfl, doSectRstMedia_grows (.refl _)⟩
  | .sectRstPair _, _ => ⟨_, rfl, doSectRstPair_grows (.refl _)⟩
  | .sectionResetDone _, _ => ⟨_, rfl, doSectionResetDone_grows (.refl _)⟩
  | .lockWrite .., _ => ⟨_, rfl, doLockWrite_grows (.refl _)⟩
  | .lock .., _ => ⟨_, rfl, doLock_grows (.refl _)⟩
  | .stageCommit .., _ => ⟨_, rfl, doStageCommit_grows (.refl _)⟩
  | .stripComposeBegin .., _ => ⟨_, rfl, doStripComposeBegin_grows (.refl _)⟩
  | .commitLand .., _ => ⟨_, rfl, doCommitLand_grows (.refl _)⟩
  | .stripComposeDone .., _ => ⟨_, rfl, doStripComposeDone_grows (.refl _)⟩
  | .stripCheckpoint .., _ => ⟨_, rfl, doStripCheckpoint_grows (.refl _)⟩
  | .fallbackStrip .., _ => ⟨_, rfl, doFallbackStrip_grows (.refl _)⟩
  | .fetchFault .., _ => ⟨_, rfl, doFetchFault_grows (.refl _)⟩
  | .dtRead _, _ => ⟨_, rfl, doDtRead_grows (.refl _)⟩
  | .rposRead .., _ => ⟨_, rfl, doRposRead_grows (.refl _)⟩
  | .cpSelWrite .., _ => ⟨_, rfl, doCpSelWrite_grows (.refl _)⟩
  | .cpStageWrite .., _ => ⟨_, rfl, doCpStageWrite_grows (.refl _)⟩
  | .cpStoreWrite .., _ => ⟨_, rfl, doCpStoreWrite_grows (.refl _)⟩
  | .loaderWalk, _ => ⟨_, rfl, doLoaderWalk_grows (.refl _)⟩
  | .cpFire _, _ => ⟨_, rfl, doCpFire_grows (.refl _)⟩
  | .comparatorFree, _ => ⟨_, rfl, doComparatorFree_grows (.refl _)⟩
  | .cpFireDeferred _, _ => ⟨_, rfl, doCpFireDeferred_grows (.refl _)⟩
  | .flCtrlWrite .., _ => ⟨_, rfl, doFlCtrlWrite_grows (.refl _)⟩
  | .framelockRefEdge .., _ => ⟨_, rfl, doFramelockRefEdge_grows (.refl _)⟩
  | .framelockHoldover _, _ => ⟨_, rfl, doFramelockHoldover_grows (.refl _)⟩
  | .framelockHoldoverExpire _, _ => ⟨_, rfl, doFramelockHoldoverExpire_grows (.refl _)⟩
  | .convStart .., _ => ⟨_, rfl, doConvStart_grows (.refl _)⟩
  | .convDone, _ => ⟨_, rfl, doConvDone_grows (.refl _)⟩
  | .timingTakeEffect _, _ => ⟨_, rfl, doTimingTakeEffect_grows (.refl _)⟩
  | .rasterStart _, _ => ⟨_, rfl, doRasterStart_grows (.refl _)⟩
  | .platformDisable _, _ => ⟨_, rfl, doPlatformDisable_grows (.refl _)⟩
  | .kick .., _ => ⟨_, rfl, doKick_grows (.refl _)⟩
  | .reloadRing .., _ => ⟨_, rfl, doReloadRing_grows (.refl _)⟩
  | .reloadVectors .., _ => ⟨_, rfl, doReloadVectors_grows (.refl _)⟩
  | .doorbellRecordArrive .., _ => ⟨_, rfl, doDoorbellRecordArrive_grows (.refl _)⟩
  | .dbrRetry .., _ => ⟨_, rfl, doDbrRetry_grows (.refl _)⟩
  | .descriptorArrive .., _ => ⟨_, rfl, doDescriptorArrive_grows (.refl _)⟩
  | .msixHoldoffExpire .., _ => ⟨_, rfl, doMsixHoldoffExpire_grows (.refl _)⟩
  | .nop .., _ => ⟨_, rfl, doNop_grows (.refl _)⟩
  | .signal .., _ => ⟨_, rfl, doSignal_grows (.refl _)⟩
  | .wait .., _ => ⟨_, rfl, doWait_grows (.refl _)⟩
  | .cpWrite .., _ => ⟨_, rfl, doCpWrite_grows (.refl _)⟩
  | .cpRead .., _ => ⟨_, rfl, doCpRead_grows (.refl _)⟩
  | .commitHead .., _ => ⟨_, rfl, doCommitHead_grows (.refl _)⟩
  | .siCommit .., _ => ⟨_, rfl, doSiCommit_grows (.refl _)⟩
  | .cc3AuthWrite .., _ => ⟨_, rfl, doCc3AuthWrite_grows (.refl _)⟩
  | .jobSubmit .., _ => ⟨_, rfl, doJobSubmit_grows (.refl _)⟩
  | .ctxSetup .., _ => ⟨_, rfl, doCtxSetup_grows (.refl _)⟩
  | .ctxDestroy .., _ => ⟨_, rfl, doCtxDestroy_grows (.refl _)⟩
  | .jobCancel .., _ => ⟨_, rfl, doJobCancel_grows (.refl _)⟩
  | .tilePool .., _ => ⟨_, rfl, doTilePool_grows (.refl _)⟩
  | .pktNop .., _ => ⟨_, rfl, doPktNop_grows (.refl _)⟩
  | .pktTarget .., _ => ⟨_, rfl, doPktTarget_grows (.refl _)⟩
  | .pktState .., _ => ⟨_, rfl, doPktState_grows (.refl _)⟩
  | .pktBind .., _ => ⟨_, rfl, doPktBind_grows (.refl _)⟩
  | .pktDraw .., _ => ⟨_, rfl, doPktDraw_grows (.refl _)⟩
  | .pktDrawIndexed .., _ => ⟨_, rfl, doPktDrawIndexed_grows (.refl _)⟩
  | .pktDrawIndirect .., _ => ⟨_, rfl, doPktDrawIndirect_grows (.refl _)⟩
  | .pktClear .., _ => ⟨_, rfl, doPktClear_grows (.refl _)⟩
  | .pktPassEnd .., _ => ⟨_, rfl, doPktPassEnd_grows (.refl _)⟩
  | .pktDispatch .., _ => ⟨_, rfl, doPktDispatch_grows (.refl _)⟩
  | .pktDispatchIndirect .., _ => ⟨_, rfl, doPktDispatchIndirect_grows (.refl _)⟩
  | .pktBarrier .., _ => ⟨_, rfl, doPktBarrier_grows (.refl _)⟩
  | .pktCall .., _ => ⟨_, rfl, doPktCall_grows (.refl _)⟩
  | .pktTimestamp .., _ => ⟨_, rfl, doPktTimestamp_grows (.refl _)⟩
  | .pktScissor .., _ => ⟨_, rfl, doPktScissor_grows (.refl _)⟩
  | .jobComplete _, _ => ⟨_, rfl, doJobComplete_grows (.refl _)⟩
  | .jobFault .., _ => ⟨_, rfl, doJobFault_grows (.refl _)⟩
  | .clearLine _, _ => ⟨_, rfl, doClearLine_grows (.refl _)⟩
  | .softYieldDone _, _ => ⟨_, rfl, doSoftYieldDone_grows (.refl _)⟩
  | .hardPreempt _, _ => ⟨_, rfl, doHardPreempt_grows (.refl _)⟩
  | .saveFirstPartDone _, _ => ⟨_, rfl, doSaveFirstPartDone_grows (.refl _)⟩
  | .budgetExhausted _, _ => ⟨_, rfl, doBudgetExhausted_grows (.refl _)⟩
  | .budgetReset, _ => ⟨_, rfl, doBudgetReset_grows (.refl _)⟩
  | .tpWindowStart _, _ => ⟨_, rfl, doTpWindowStart_grows (.refl _)⟩
  | .tpWindowEnd _, _ => ⟨_, rfl, doTpWindowEnd_grows (.refl _)⟩
  | .clusterDead .., _ => ⟨_, rfl, doClusterDead_grows (.refl _)⟩
  | .reliefDone _, _ => ⟨_, rfl, doReliefDone_grows (.refl _)⟩
  | .ldsEccError _, _ => ⟨_, rfl, doLdsEccError_grows (.refl _)⟩
  | .posthumous .., _ => ⟨_, rfl, doPosthumous_grows (.refl _)⟩
  | .bistStart .., _ => ⟨_, rfl, doBistStart_grows (.refl _)⟩
  | .bistDone _, _ => ⟨_, rfl, doBistDone_grows (.refl _)⟩
  | .bufCreate .., _ => ⟨_, rfl, doBufCreate_grows (.refl _)⟩
  | .bufDestroy .., _ => ⟨_, rfl, doBufDestroy_grows (.refl _)⟩
  | .bufRelease .., _ => ⟨_, rfl, doBufRelease_grows (.refl _)⟩
  | .skeinReserve .., _ => ⟨_, rfl, doSkeinReserve_grows (.refl _)⟩
  | .bufQuery .., _ => ⟨_, rfl, doBufQuery_grows (.refl _)⟩
  | .dpllWrite .., _ => ⟨_, rfl, doDpllWrite_grows (.refl _)⟩
  | .dpllLock _, _ => ⟨_, rfl, doDpllLock_grows (.refl _)⟩
  | .routeIdle _, _ => ⟨_, rfl, doRouteIdle_grows (.refl _)⟩
  | .sinkLive _, _ => ⟨_, rfl, doSinkLive_grows (.refl _)⟩
  | .linkTrainDone .., _ => ⟨_, rfl, doLinkTrainDone_grows (.refl _)⟩
  | .fenceInAssert, _ => ⟨_, rfl, doFenceInAssert_grows (.refl _)⟩
  | .fenceInRelease, _ => ⟨_, rfl, doFenceInRelease_grows (.refl _)⟩
  | .muteWrite .., _ => ⟨_, rfl, doMuteWrite_grows (.refl _)⟩
  | .muteApply _, _ => ⟨_, rfl, doMuteApply_grows (.refl _)⟩
  | .auxNativeWrite .., _ => ⟨_, rfl, doAuxGo_grows (.refl _)⟩
  | .auxNativeRead .., _ => ⟨_, rfl, doAuxGo_grows (.refl _)⟩
  | .auxI2cWrite .., _ => ⟨_, rfl, doAuxGo_grows (.refl _)⟩
  | .auxI2cRead .., _ => ⟨_, rfl, doAuxGo_grows (.refl _)⟩
  | .auxReply .., _ => ⟨_, rfl, doAuxReply_grows (.refl _)⟩
  | .auxTimeout _, _ => ⟨_, rfl, doAuxTimeout_grows (.refl _)⟩
  | .hpdPlug _, _ => ⟨_, rfl, doHpdPlug_grows (.refl _)⟩
  | .hpdUnplug _, _ => ⟨_, rfl, doHpdUnplug_grows (.refl _)⟩
  | .hpdIrq .., _ => ⟨_, rfl, doHpdIrq_grows (.refl _)⟩
  | .aphyAckTimeout .., _ => ⟨_, rfl, doAphyAckTimeout_grows (.refl _)⟩
  | .teEdge _, _ => ⟨_, rfl, doTeEdge_grows (.refl _)⟩
  | .teTimeout _, _ => ⟨_, rfl, doTeTimeout_grows (.refl _)⟩
  | .underflow .., _ => ⟨_, rfl, doUnderflow_grows (.refl _)⟩
  | .signatureResult .., _ => ⟨_, rfl, doSignatureResult_grows (.refl _)⟩
  | .psrEnter _, _ => ⟨_, rfl, doPsrEnter_grows (.refl _)⟩
  | .psrExit _, _ => ⟨_, rfl, doPsrExit_grows (.refl _)⟩
  | .touchCfg .., _ => ⟨_, rfl, doTouchCfg_grows (.refl _)⟩
  | .touchBaselineReload .., _ => ⟨_, rfl, doTouchBaselineReload_grows (.refl _)⟩
  | .touchBaselineRebase .., _ => ⟨_, rfl, doTouchBaselineRebase_grows (.refl _)⟩
  | .touchBaselineSave .., _ => ⟨_, rfl, doTouchBaselineSave_grows (.refl _)⟩
  | .touchBaselineDump .., _ => ⟨_, rfl, doTouchBaselineDump_grows (.refl _)⟩
  | .touchTestRef .., _ => ⟨_, rfl, doTouchTestRef_grows (.refl _)⟩
  | .touchTestOpen .., _ => ⟨_, rfl, doTouchTestOpen_grows (.refl _)⟩
  | .touchTestShort .., _ => ⟨_, rfl, doTouchTestShort_grows (.refl _)⟩
  | .touchTestDone .., _ => ⟨_, rfl, doTouchTestDone_grows (.refl _)⟩
  | .touchFrameProcess .., _ => ⟨_, rfl, doTouchFrameProcess_grows (.refl _)⟩
  | .spiDrdy _, _ => ⟨_, rfl, doSpiDrdy_grows (.refl _)⟩
  | .spiDrdyTimeout _, _ => ⟨_, rfl, doSpiDrdyTimeout_grows (.refl _)⟩
  | .tunnelSegment .., _ => ⟨_, rfl, doTunnelSegment_grows (.refl _)⟩
  | .tunnelFrameTimeout _, _ => ⟨_, rfl, doTunnelFrameTimeout_grows (.refl _)⟩
  | .longContact .., _ => ⟨_, rfl, doLongContact_grows (.refl _)⟩
  | .forcedRelease .., _ => ⟨_, rfl, doForcedRelease_grows (.refl _)⟩
  | .hapticPlay .., _ => ⟨_, rfl, doHapticPlay_grows (.refl _)⟩
  | .hapticLoad .., _ => ⟨_, rfl, doHapticLoad_grows (.refl _)⟩
  | .hapticCfgWrite .., _ => ⟨_, rfl, doHapticCfgWrite_grows (.refl _)⟩
  | .hapticCfgClearFault .., _ => ⟨_, rfl, doHapticCfgClearFault_grows (.refl _)⟩
  | .senseWindow .., _ => ⟨_, rfl, doSenseWindow_grows (.refl _)⟩
  | .hapticSegmentEnd _, _ => ⟨_, rfl, doHapticSegmentEnd_grows (.refl _)⟩
  | .pendingTriggerTimeout _, _ => ⟨_, rfl, doPendingTriggerTimeout_grows (.refl _)⟩
  | .ampFault _, _ => ⟨_, rfl, doAmpFault_grows (.refl _)⟩
  | .clockLoss _, _ => ⟨_, rfl, doClockLoss_grows (.refl _)⟩
  | .audioStreamConfig .., _ => ⟨_, rfl, doAudioStreamConfig_grows (.refl _)⟩
  | .audioStreamStart .., _ => ⟨_, rfl, doAudioStreamStart_grows (.refl _)⟩
  | .audioStreamStop .., _ => ⟨_, rfl, doAudioStreamStop_grows (.refl _)⟩
  | .audioStreamDrain .., _ => ⟨_, rfl, doAudioStreamDrain_grows (.refl _)⟩
  | .audioRoute .., _ => ⟨_, rfl, doAudioRoute_grows (.refl _)⟩
  | .audioGain .., _ => ⟨_, rfl, doAudioGain_grows (.refl _)⟩
  | .audioCoef .., _ => ⟨_, rfl, doAudioCoef_grows (.refl _)⟩
  | .audioChimeStart .., _ => ⟨_, rfl, doAudioChimeStart_grows (.refl _)⟩
  | .audioChimeStop .., _ => ⟨_, rfl, doAudioChimeStop_grows (.refl _)⟩
  | .safetyChimeStart .., _ => ⟨_, rfl, doSafetyChimeStart_grows (.refl _)⟩
  | .safetyChimeStop .., _ => ⟨_, rfl, doSafetyChimeStop_grows (.refl _)⟩
  | .chimeEnd _, _ => ⟨_, rfl, doChimeEnd_grows (.refl _)⟩
  | .routeTableChange _, _ => ⟨_, rfl, doRouteTableChange_grows (.refl _)⟩
  | .crossfadeEnd _, _ => ⟨_, rfl, doCrossfadeEnd_grows (.refl _)⟩
  | .gainRampEnd .., _ => ⟨_, rfl, doGainRampEnd_grows (.refl _)⟩
  | .eqSectionMove .., _ => ⟨_, rfl, doEqSectionMove_grows (.refl _)⟩
  | .streamPeriod .., _ => ⟨_, rfl, doStreamPeriod_grows (.refl _)⟩
  | .streamUnderrun _, _ => ⟨_, rfl, doStreamUnderrun_grows (.refl _)⟩
  | .streamRefill .., _ => ⟨_, rfl, doStreamRefill_grows (.refl _)⟩
  | .streamOverrun _, _ => ⟨_, rfl, doStreamOverrun_grows (.refl _)⟩
  | .streamFault .., _ => ⟨_, rfl, doStreamFault_grows (.refl _)⟩
  | .rampDownEnd _, _ => ⟨_, rfl, doRampDownEnd_grows (.refl _)⟩
  | .bridgeLock _, _ => ⟨_, rfl, doBridgeLock_grows (.refl _)⟩
  | .bridgeUnlock .., _ => ⟨_, rfl, doBridgeUnlock_grows (.refl _)⟩
  | .portFrameError _, _ => ⟨_, rfl, doPortFrameError_grows (.refl _)⟩
  | .bellBindWrite .., _ => ⟨_, rfl, doBellBindWrite_grows (.refl _)⟩
  | .bellPost .., _ => ⟨_, rfl, doBellPost_grows (.refl _)⟩
  | .bellPop .., _ => ⟨_, rfl, doBellPop_grows (.refl _)⟩
  | .doorbellClear .., _ => ⟨_, rfl, doDoorbellClear_grows (.refl _)⟩
  | .doorbellMaskWrite .., _ => ⟨_, rfl, doDoorbellMaskWrite_grows (.refl _)⟩
  | .tokenAcquire .., _ => ⟨_, rfl, doTokenAcquire_grows (.refl _)⟩
  | .tokenRelease .., _ => ⟨_, rfl, doTokenRelease_grows (.refl _)⟩
  | .spdmGetVersion _, _ => ⟨_, rfl, doSpdmGetVersion_grows (.refl _)⟩
  | .spdmGetCapabilities _, _ => ⟨_, rfl, doSpdmGetCapabilities_grows (.refl _)⟩
  | .spdmNegotiateAlgorithms _, _ => ⟨_, rfl, doSpdmNegotiateAlgorithms_grows (.refl _)⟩
  | .spdmGetDigests _, _ => ⟨_, rfl, doSpdmGetDigests_grows (.refl _)⟩
  | .spdmGetCertificate .., _ => ⟨_, rfl, doSpdmGetCertificate_grows (.refl _)⟩
  | .spdmChallenge .., _ => ⟨_, rfl, doSpdmChallenge_grows (.refl _)⟩
  | .spdmGetMeasurements .., _ => ⟨_, rfl, doSpdmGetMeasurements_grows (.refl _)⟩
  | .spdmKeyExchange _, _ => ⟨_, rfl, doSpdmKeyExchange_grows (.refl _)⟩
  | .spdmFinish _, _ => ⟨_, rfl, doSpdmFinish_grows (.refl _)⟩
  | .spdmKeyUpdate _, _ => ⟨_, rfl, doSpdmKeyUpdate_grows (.refl _)⟩
  | .spdmHeartbeat _, _ => ⟨_, rfl, doSpdmHeartbeat_grows (.refl _)⟩
  | .spdmEndSession _, _ => ⟨_, rfl, doSpdmEndSession_grows (.refl _)⟩
  | .ideKmKeyProg .., _ => ⟨_, rfl, doIdeKmKeyProg_grows (.refl _)⟩
  | .ideKSetGo .., _ => ⟨_, rfl, doIdeKSetGo_grows (.refl _)⟩
  | .ideFail _, _ => ⟨_, rfl, doIdeFail_grows (.refl _)⟩
  | .watermarkRaise .., _ => ⟨_, rfl, doWatermarkRaise_grows (.refl _)⟩
  | .watermarkLower .., _ => ⟨_, rfl, doWatermarkLower_grows (.refl _)⟩
  | .scrubDone _, _ => ⟨_, rfl, doScrubDone_grows (.refl _)⟩
  | .acquirePower .., _ => ⟨_, rfl, doHoldOp_grows (.refl _)⟩
  | .releasePower .., _ => ⟨_, rfl, doHoldOp_grows (.refl _)⟩
  | .acquireClock .., _ => ⟨_, rfl, doHoldOp_grows (.refl _)⟩
  | .releaseClock .., _ => ⟨_, rfl, doHoldOp_grows (.refl _)⟩
  | .deadmanKick .., _ => ⟨_, rfl, doDeadmanKick_grows (.refl _)⟩
  | .deadmanExpire, _ => ⟨_, rfl, doDeadmanExpire_grows (.refl _)⟩
  | .monitorDetect _, _ => ⟨_, rfl, doMonitorDetect_grows (.refl _)⟩
  | .lockstepFault, _ => ⟨_, rfl, doLockstepFault_grows (.refl _)⟩
  | .cautionEnter .., _ => ⟨_, rfl, doCautionEnter_grows (.refl _)⟩
  | .cautionExit .., _ => ⟨_, rfl, doCautionExit_grows (.refl _)⟩
  | .pairForm .., _ => ⟨_, rfl, doPairForm_grows (.refl _)⟩
  | .pairLeave .., _ => ⟨_, rfl, doPairLeave_grows (.refl _)⟩
  | .pairSwap .., _ => ⟨_, rfl, doPairSwap_grows (.refl _)⟩
  | .formTimeout, _ => ⟨_, rfl, doFormTimeout_grows (.refl _)⟩
  | .bankerHot, _ => ⟨_, rfl, doBankerHot_grows (.refl _)⟩
  | .swapTakeEffect, _ => ⟨_, rfl, doSwapTakeEffect_grows (.refl _)⟩
  | .recDesc .., _ => ⟨_, rfl, doRecDesc_grows (.refl _)⟩
  | .recCommit .., _ => ⟨_, rfl, doRecCommit_grows (.refl _)⟩
  | .recRestamp .., _ => ⟨_, rfl, doRecRestamp_grows (.refl _)⟩
  | .recWrite .., _ => ⟨_, rfl, doRecWrite_grows (.refl _)⟩
  | .recState .., _ => ⟨_, rfl, doRecState_grows (.refl _)⟩
  | .recOut .., _ => ⟨_, rfl, doRecOut_grows (.refl _)⟩
  | .recDone .., _ => ⟨_, rfl, doRecDone_grows (.refl _)⟩
  | .recSig .., _ => ⟨_, rfl, doRecSig_grows (.refl _)⟩
  | .recMedia .., _ => ⟨_, rfl, doRecMedia_grows (.refl _)⟩
  | .recRaster .., _ => ⟨_, rfl, doRecRaster_grows (.refl _)⟩
  | .recAck .., _ => ⟨_, rfl, doRecAck_grows (.refl _)⟩
  | .recSync .., _ => ⟨_, rfl, doRecSync_grows (.refl _)⟩
  | .recReject .., _ => ⟨_, rfl, doRecReject_grows (.refl _)⟩
  | .doneRecordSend, _ => ⟨_, rfl, doDoneRecordSend_grows (.refl _)⟩
  | .rasterRecordSend, _ => ⟨_, rfl, doRasterRecordSend_grows (.refl _)⟩
  | .linkRetransmitTimeout, _ => ⟨_, rfl, doLinkRetransmitTimeout_grows (.refl _)⟩
  | .linkSilenceTimeout, _ => ⟨_, rfl, doLinkSilenceTimeout_grows (.refl _)⟩
  | .heartbeatLost, _ => ⟨_, rfl, doHeartbeatLost_grows (.refl _)⟩
  | .takeoverDoorbellPoll, _ => ⟨_, rfl, doTakeoverDoorbellPoll_grows (.refl _)⟩
  | .remapDone .., _ => ⟨_, rfl, doRemapDone_grows (.refl _)⟩
  | .aliveWrite .., _ => ⟨_, rfl, doAliveWrite_grows (.refl _)⟩
  | .aliveTimeout, _ => ⟨_, rfl, doAliveTimeout_grows (.refl _)⟩
  | .configDiverge .., _ => ⟨_, rfl, doConfigDiverge_grows (.refl _)⟩
  | .partition .., _ => ⟨_, rfl, doPartition_grows (.refl _)⟩
  | .partitionWindowSubmit .., _ => ⟨_, rfl, doPartitionWindowSubmit_grows (.refl _)⟩
  | .ptSelWrite .., _ => ⟨_, rfl, doPtSelWrite_grows (.refl _)⟩
  | .fnCtrlDepart .., _ => ⟨_, rfl, doFnCtrlDepart_grows (.refl _)⟩
  | .fnCtrlQuiesce .., _ => ⟨_, rfl, doFnCtrlQuiesce_grows (.refl _)⟩
  | .quiesceDone _, _ => ⟨_, rfl, doQuiesceDone_grows (.refl _)⟩
  | .quiesceTimeout _, _ => ⟨_, rfl, doQuiesceTimeout_grows (.refl _)⟩
  | .fnCtrlResume .., _ => ⟨_, rfl, doFnCtrlResume_grows (.refl _)⟩
  | .fnCtrlSave .., _ => ⟨_, rfl, doFnCtrlSave_grows (.refl _)⟩
  | .fnCtrlRestore .., _ => ⟨_, rfl, doFnCtrlRestore_grows (.refl _)⟩
  | .fnCtrlDlStart .., _ => ⟨_, rfl, doFnCtrlDlStart_grows (.refl _)⟩
  | .fnCtrlHarvest .., _ => ⟨_, rfl, doFnCtrlHarvest_grows (.refl _)⟩
  | .fnCtrlDlStop .., _ => ⟨_, rfl, doFnCtrlDlStop_grows (.refl _)⟩
  | .vfEnableSet _, _ => ⟨_, rfl, doVfEnableSet_grows (.refl _)⟩
  | .vfEnableClear _, _ => ⟨_, rfl, doVfEnableClear_grows (.refl _)⟩
  | .functionDeparted _, _ => ⟨_, rfl, doFunctionDeparted_grows (.refl _)⟩
  | .f0DepartureStart, _ => ⟨_, rfl, doF0DepartureStart_grows (.refl _)⟩
  | .mmuRootWrite .., _ => ⟨_, rfl, doMmuRootWrite_grows (.refl _)⟩
  | .invalidateFunction .., _ => ⟨_, rfl, doInvalidateFunction_grows (.refl _)⟩
  | .invalidateRange .., _ => ⟨_, rfl, doInvalidateRange_grows (.refl _)⟩
  | .invalidateAll .., _ => ⟨_, rfl, doInvalidateAll_grows (.refl _)⟩
  | .invalidationDone, _ => ⟨_, rfl, doInvalidationDone_grows (.refl _)⟩
  | .atsInvalidate .., _ => ⟨_, rfl, doAtsInvalidate_grows (.refl _)⟩
  | .modeSetMode .., _ => ⟨_, rfl, doModeSetMode_grows (.refl _)⟩
  | .modeDomain .., _ => ⟨_, rfl, doModeDomain_grows (.refl _)⟩
  | .modeHibernate .., _ => ⟨_, rfl, doModeHibernate_grows (.refl _)⟩
  | .hibernateWake _, _ => ⟨_, rfl, doHibernateWake_grows (.refl _)⟩
  | .domainCtrlWrite .., _ => ⟨_, rfl, tripOver_grows (doDomainCtrlWrite_grows (.refl _))⟩
  | .pmuDepthDecision .., _ => ⟨_, rfl, doPmuDepthDecision_grows (.refl _)⟩
  | .domainWake _, _ => ⟨_, rfl, doDomainWake_grows (.refl _)⟩
  | .powerEstimate _, _ => ⟨_, rfl, doPowerEstimate_grows (.refl _)⟩
  | .thermalSample _, _ => ⟨_, rfl, doThermalSample_grows (.refl _)⟩
  | .thermalWarn, _ => ⟨_, rfl, doThermalWarn_grows (.refl _)⟩
  | .thermalThrottle, _ => ⟨_, rfl, doThermalThrottle_grows (.refl _)⟩
  | .thermalTrip, _ => ⟨_, rfl, doThermalTrip_grows (.refl _)⟩
  | .thermalCritical, _ => ⟨_, rfl, doThermalCritical_grows (.refl _)⟩
  | .bootStart, _ => ⟨_, rfl, doBootStart_grows (.refl _)⟩
  | .loaderLoad .., _ => ⟨_, rfl, doLoaderLoad_grows (.refl _)⟩
  | .imageVerifyDone _, _ => ⟨_, rfl, doImageVerifyDone_grows (.refl _)⟩
  | .storeFormat .., _ => ⟨_, rfl, doStoreFormat_grows (.refl _)⟩
  | .bootTimeout, _ => ⟨_, rfl, doBootTimeout_grows (.refl _)⟩
  | .fwStageLoad .., _ => ⟨_, rfl, doFwStageLoad_grows (.refl _)⟩
  | .fwStageDiscard .., _ => ⟨_, rfl, doFwStageDiscard_grows (.refl _)⟩
  | .fwCutover .., _ => ⟨_, rfl, doFwCutover_grows (.refl _)⟩
  | .firmwareReady, _ => ⟨_, rfl, doFirmwareReady_grows (.refl _)⟩
  | .cutoverTimeout, _ => ⟨_, rfl, doCutoverTimeout_grows (.refl _)⟩
  | .storeRwRead .., _ => ⟨_, rfl, doStoreRwRead_grows (.refl _)⟩
  | .storeRwWrite .., _ => ⟨_, rfl, doStoreRwWrite_grows (.refl _)⟩
  | .storeRwDelete .., _ => ⟨_, rfl, doStoreRwDelete_grows (.refl _)⟩
  | .storeRwInfo .., _ => ⟨_, rfl, doStoreRwInfo_grows (.refl _)⟩
  | .storeWriteDone, _ => ⟨_, rfl, doStoreWriteDone_grows (.refl _)⟩
  | .storeCompaction, _ => ⟨_, rfl, doStoreCompaction_grows (.refl _)⟩
  | .snapshot .., _ => ⟨_, rfl, doSnapshot_grows (.refl _)⟩
  | .snapshotDone, _ => ⟨_, rfl, doSnapshotDone_grows (.refl _)⟩
  | .counterRead _, _ => ⟨_, rfl, doCounterRead_grows (.refl _)⟩
  | .eccCorrected .., _ => ⟨_, rfl, doEccCorrected_grows (.refl _)⟩
  | .eccUncorrectable .., _ => ⟨_, rfl, doEccUncorrectable_grows (.refl _)⟩
  | .patrolScrub _, _ => ⟨_, rfl, doPatrolScrub_grows (.refl _)⟩
  | .errLogged, _ => ⟨_, rfl, doErrLogged_grows (.refl _)⟩
  | .dispUpdate .., _ => ⟨_, rfl, doDispUpdate_grows (.refl _)⟩
  | .capture _, _ => ⟨_, rfl, doCapture_grows (.refl _)⟩
  | .mdhShadowWrite .., _ => ⟨_, rfl, doMdhShadowWrite_grows (.refl _)⟩
  | .softRst .., _ => ⟨_, rfl, doSoftRst_grows (.refl _)⟩
  | .softRstDone, _ => ⟨_, rfl, doSoftRstDone_grows (.refl _)⟩
  | .extKeyWrite .., _ => ⟨_, rfl, doExtKeyWrite_grows (.refl _)⟩
  | .apertureAccess .., _ => ⟨_, rfl, doApertureAccess_grows (.refl _)⟩
  | .frameStart _, _ => ⟨_, rfl, cutoverFrame_grows (doFrameStart_grows (.refl _))⟩
  | .bootRunning, _ => ⟨_, rfl, doBootRunning_grows (.refl _)⟩
  | .authenticationFail, _ => ⟨_, rfl, doAuthenticationFail_grows (.refl _)⟩

/-- The device after a command other than a cold reset. -/
theorem grows_of_exec {c : Instr} {s t : State} (h : exec c s = .next t) (hc : isCold c = false) : Grows s.dev t.dev := by
  obtain ⟨d, he, hg⟩ := exec_grows s c hc
  rw [h] at he
  cases he
  exact hg

/-- A cold reset latches the level of the strap HERITAGE (R5), whatever the device was. -/
theorem doColdReset_heritage (st : Straps) (d : Dev) : (doColdReset st d).heritage = st.heritage :=
  (doColdReset_grows st d).heritage

/-- Settles O28: no command but a cold reset touches the strap, and a cold reset latches the pin. -/
theorem heritageStrapIsHeld : Obligations.HeritageStrapIsHeld := by
  unfold Obligations.HeritageStrapIsHeld
  constructor
  · intro c s t h hc
    exact (grows_of_exec h hc).heritage
  · intro s t st h
    cases h
    exact doColdReset_heritage st s.dev

end Sys2Proof.Machine
end

section
/-! SUPPORT. The register writes that are turned away (R12, R16): what a write that is taken has passed, and what becomes of
one that is refused. -/

namespace Sys2Proof.Machine

/-! ### What reads as before -/

/-- Registers read alike on devices with the same register file. -/
theorem rd_congr {d e : Dev} (h : e.regs = d.regs) (o : Nat) : rd e o = rd d o := by
  unfold rd
  rw [h]

/-- There are sixteen power domains (R19). -/
theorem domOf_lt (off : Nat) : domOf off < 16 := by
  unfold domOf
  split <;> decide

/-- The count of the error log and the state words of the domains are the side words. -/
theorem sideWord_eq_false {o : Nat} (h : sideWord o = false) : o ≠ ER_STATUS ∧ ∀ k < 16, o ≠ PM_DOM_STAT k := by
  simpa [sideWord] using h

/-- Serving an access changes no register but the state word of its domain. -/
theorem rd_serveDomain (d : Dev) (k o : Nat) (h : o ≠ PM_DOM_STAT k) : rd (serveDomain d k).1 o = rd d o := by
  obtain ⟨pm, x, e | e⟩ := serveDomain_eq d k
  · rw [e, rd_wr_ne _ _ _ _ h]
    exact rd_congr rfl o
  · rw [e]
    exact rd_congr rfl o

/-- An error that is recorded changes no register but the count of the log. -/
theorem rd_logErr (d : Dev) (c m a : Nat) (v : Word) (s : Bool) (o : Nat) (h : o ≠ ER_STATUS) :
    rd (logErr d c m a v s) o = rd d o := by
  have hwrite : ∀ (c : Prop) [Decidable c] (e : Dev) (n : Nat), rd e o = rd d o →
      rd (fs (if c then bump e ER_STATUS ER_STATUS_OVERWRITTEN else e) ER_STATUS ER_STATUS_FILL n) o = rd d o := by
    intro c _ e n he
    rw [rd_fs_ne _ _ _ _ _ h]
    split
    · exact (rd_fs_ne _ _ _ _ _ h).trans he
    · exact he
  unfold logErr
  dsimp only
  split
  · exact hwrite _ _ _ (rd_congr rfl o)
  · split
    · exact rd_congr rfl o
    · exact hwrite _ _ _ (rd_congr rfl o)

/-! ### What is turned away -/

/-- A write that nothing turns away has all its byte enables (R12), and its row takes the encodings it carries (R16). -/
theorem regRefusal_none {a : Acc} {off : Nat} {v : Word} {d : Dev} (h : regRefusal a off v d = none) :
    a.be = 0xF ∧ ∀ r k, rowOf off = some (r, k) → badEncoding r v = false := by
  unfold regRefusal at h
  cases hrow : rowOf off with
  | none => simp [hrow, ite_eq_iff] at h
  | some x =>
    simp only [hrow, ite_eq_iff, reduceCtorEq, and_false, false_or, and_true] at h
    obtain ⟨-, -, -, -, -, hbe, -, -, hbad⟩ := h
    refine ⟨not_not.1 hbe, fun r k hx => ?_⟩
    cases hx
    exact Bool.eq_false_iff.2 hbad

/-- A write that is turned away whatever its domain's state is discarded; no register but the side words changes; and where the
access is served, the newest record of the error log names the master and the register (R12, R16). -/
theorem regWrite_refused {a : Acc} {off : Nat} {v : Word} (d : Dev) (h : ∀ e, regRefusal a off v e ≠ none) :
    (regWrite a off v d).2 = .discarded ∧ (∀ o, sideWord o = false → rd (regWrite a off v d).1 o = rd d o) ∧
    (reachesBar0 a = true → (serveDomain d (domOf off)).2 = true →
      (regWrite a off v d).1.err.recs.head?.any (fun e => decide (e.mid = a.mid.toNat) && decide (e.addr = off)) = true) := by
  have hserve : ∀ o, sideWord o = false → rd (serveDomain d (domOf off)).1 o = rd d o := fun o ho =>
    rd_serveDomain d _ o ((sideWord_eq_false ho).2 _ (domOf_lt off))
  rcases regWrite_cases a off v d with ⟨hreach, e⟩ | ⟨hdown, e⟩ | ⟨c, -, e⟩ | ⟨r, k, -, htaken, -⟩
  · rw [e]
    exact ⟨rfl, fun _ _ => rfl, fun hr => absurd hr (by simp [hreach])⟩
  · rw [e]
    exact ⟨rfl, hserve, fun _ hs => absurd hs (by simp [hdown])⟩
  · rw [e]
    refine ⟨rfl, fun o ho => ?_, fun _ _ => ?_⟩
    · rw [rd_logErr _ _ _ _ _ _ _ (sideWord_eq_false ho).1]
      exact hserve o ho
    · obtain ⟨x, es, hrecs, -, hmid, haddr⟩ := logErr_head (serveDomain d (domOf off)).1 c.1 a.mid.toNat off v c.2
      simp [hrecs, hmid, haddr]
  · exact absurd htaken (h _)

/-- Settles O30: a partial write is refused at the latest for its byte enables. -/
theorem partialWriteIsDiscarded : Obligations.PartialWriteIsDiscarded := by
  unfold Obligations.PartialWriteIsDiscarded
  intro a off v d hbe
  obtain ⟨hdisc, hregs, hrec⟩ := regWrite_refused d (fun e hn => hbe (regRefusal_none hn).1)
  exact ⟨hdisc, fun hr hs => ⟨hrec hr hs, hregs⟩⟩

/-- Settles O31: a reserved encoding is refused at the latest for itself. -/
theorem reservedEncodingIsDiscarded : Obligations.ReservedEncodingIsDiscarded := by
  unfold Obligations.ReservedEncodingIsDiscarded
  intro a off v d r k hrow hbad
  have href : ∀ e, regRefusal a off v e ≠ none := fun e hn => by
    simp [(regRefusal_none hn).2 r k hrow] at hbad
  obtain ⟨hdisc, hregs, hrec⟩ := regWrite_refused d href
  exact ⟨hdisc, hregs off, hrec⟩

end Sys2Proof.Machine
end

section
/-! SUPPORT. The binding of a channel that is turned away (R359), and the reads of a token one by one (R372). -/

namespace Sys2Proof.Machine

/-! ### Bindings -/

/-- A word that R359 names is kept out of the binding, with a cause that depends on the writer alone (R487). -/
theorem bindBad_of_badWord {d : Dev} {c : Nat} {w : Word} (mid : Nat)
    (h : (bits w 11 6 > 0x25 ∨ bits w 5 0 > 0x25) ∨ bits w 11 6 = bits w 5 0 ∨
      (bit (rd d (BL_BIND c)) 31 = true ∧ bits w 30 0 ≠ bits (rd d (BL_BIND c)) 30 0) ∨
      (bit w 31 = true ∧ bit (rd d (BL_BIND c)) 31 = false ∧ skUsed d 3 ≥ skRes d 3)) :
    bindBad d mid c w = some (if mid ≠ 0 ∧ mid ≠ midPAIR then ecNOT_PERMITTED else ecCONFLICT) := by
  rw [or_assoc, ← Bool.not_eq_true'] at h
  unfold bindBad
  dsimp only
  rw [if_pos h]
  split <;> rfl

/-- A binding that is kept out leaves one record of the error log and nothing else. -/
theorem doBellBindWrite_bad {a : Acc} {c cause : Nat} {v n : Word} {d0 d : Dev} (h : Written d0 a (BL_BIND c) v d n)
    (hb : bindBad d0 a.mid.toNat c n = some cause) :
    doBellBindWrite a c v d0 = logErr (serveDomain d0 (domOf (BL_BIND c))).1 cause a.mid.toNat (BL_BIND c) v a.secure := by
  unfold doBellBindWrite
  rw [guardWrite_bad h hb]

/-- Settles O45: each of the four cases of R359 is one for which the check of the binding names a cause. -/
theorem badBindingIsDiscarded : Obligations.BadBindingIsDiscarded := by
  unfold Obligations.BadBindingIsDiscarded
  intro s a c v d n hw hbad
  exact ⟨_, congrArg (after s) (doBellBindWrite_bad hw (bindBad_of_badWord a.mid.toNat hbad))⟩

/-! ### Reads of a token -/

/-- A partial read answers the addressed bytes of the held word, or of all ones, and acquires nothing. -/
theorem tokenRead_partial {a : Acc} (t : Nat) (d : Dev) (hbe : a.be ≠ 0xF) :
    tokenRead t d a = emit d (.readData a.mid.toNat (tokOff t)
      (maskBytes a.be (((tok d t).holder.map heldWord).getD 0xFFFFFFFF))) := by
  unfold tokenRead
  dsimp only
  rw [if_pos hbe]
  cases (tok d t).holder <;> rfl

/-- A full read by a master that is not permitted is counted and recorded. -/
theorem tokenRead_denied {a : Acc} {t : Nat} {d : Dev} (hbe : a.be = 0xF) (hmay : mayToken d a.mid.toNat t = false) :
    tokenRead t d a = emit (logErr (bump d TK_STATUS TK_STATUS_DENIED) ecNOT_PERMITTED a.mid.toNat (tokOff t) 0 a.secure)
      (.readData a.mid.toNat (tokOff t) 0x40000000) := by
  simp [tokenRead, hbe, hmay]

/-- A full read of a held token by a permitted master answers the holder's number. -/
theorem tokenRead_held {a : Acc} {t m : Nat} {d : Dev} (hbe : a.be = 0xF) (hmay : mayToken d a.mid.toNat t = true)
    (hm : (tok d t).holder = some m) :
    tokenRead t d a = emit d (.readData a.mid.toNat (tokOff t) (heldWord m)) := by
  simp [tokenRead, hbe, hmay, hm]

/-- A full read of a free token by a permitted master takes it. -/
theorem tokenRead_free {a : Acc} {t : Nat} {d : Dev} (hbe : a.be = 0xF) (hmay : mayToken d a.mid.toNat t = true)
    (hfree : (tok d t).holder = none) :
    tokenRead t d a = emit (onTok d t (fun x => { x with holder := some a.mid.toNat }))
      (.readData a.mid.toNat (tokOff t) 0) := by
  simp [tokenRead, hbe, hmay, hfree]

/-- One reader on a fabric edge contends with no other: the pointer of R373 stays, and its read is all that happens. -/
theorem doTokenAcquire_single {a : Acc} {d0 d : Dev} (t : Nat) (hserved : bellServed d0 false = (d, true))
    (hthere : windowThere d a.mid.toNat = true) : doTokenAcquire t [a] d0 = tokenRead t d a := by
  unfold doTokenAcquire
  cases hc : contends d t a <;> simp [hserved, hthere, insertReader, hc]

/-- Settles O36: a lone reader's command is one read of the token, of which each state gives its own answer. -/
theorem tokenReadFollowsItsState : Obligations.TokenReadFollowsItsState := by
  unfold Obligations.TokenReadFollowsItsState
  intro s t a d hserved hthere
  have hrun : exec (.tokenAcquire t [a]) s = after s (tokenRead t.val d a) :=
    congrArg (after s) (doTokenAcquire_single t.val hserved hthere)
  rw [hrun]
  refine ⟨fun hbe hmay hfree => ?_, fun m hbe hmay hm => ?_, fun hbe hmay => ?_, fun m hbe hm => ?_, fun hbe hfree => ?_⟩
  · rw [tokenRead_free hbe hmay hfree]
  · rw [tokenRead_held hbe hmay hm]
    rfl
  · rw [tokenRead_denied hbe hmay]
  · rw [tokenRead_partial _ _ hbe, hm]
    rfl
  · rw [tokenRead_partial _ _ hbe, hfree]
    rfl

end Sys2Proof.Machine
end

section
/-! SUPPORT. One step of the block: what it runs, what it keeps, and what a run of steps keeps. -/

namespace Sys2Proof.Machine

/-! ### Every command is served -/

/-- Every command answers a next state with the queue as it was: a cold reset too, and every other by the laws of `Grows`. -/
theorem exec_after (c : Instr) (s : State) : ∃ d, exec c s = after s d := by
  cases hc : isCold c with
  | false =>
    obtain ⟨d, he, -⟩ := exec_grows s c hc
    exact ⟨d, he⟩
  | true =>
    cases c with
    | coldReset st => exact ⟨doColdReset st s.dev, rfl⟩
    | _ => exact nomatch hc

/-- Settles O23. -/
theorem everyCommandIsServed : Obligations.EveryCommandIsServed := exec_after

/-- A command leaves the queue as it is. -/
theorem pending_of_exec {c : Instr} {s t : State} (h : exec c s = .next t) : t.pending = s.pending := by
  obtain ⟨d, he⟩ := exec_after c s
  rw [he] at h
  cases h
  rfl

/-! ### Steps -/

/-- A step on an empty queue lets time pass. -/
theorem step_idle {s : State} (h : s.pending = []) : step s = after s (advance (s.dev.dt + 1) s.dev) := by
  obtain ⟨pending, dev⟩ := s
  cases h
  rfl

/-- A step on a queue runs the command at its front. -/
theorem step_front {s : State} {c : Instr} {rest : List Instr} (h : s.pending = c :: rest) :
    step s = exec c { s with pending := rest } := by
  unfold step
  rw [h]

/-- Settles O21. -/
theorem stepRunsFront : Obligations.StepRunsFront := fun _ _ _ h => step_front h

/-- Everything a step can do: time passes on an empty queue, or the command at the front runs. -/
theorem step_cases {s t : State} (h : step s = .next t) :
    (s.pending = [] ∧ t = { s with dev := advance (s.dev.dt + 1) s.dev }) ∨
    ∃ c rest, s.pending = c :: rest ∧ exec c { s with pending := rest } = .next t := by
  rcases hp : s.pending with _ | ⟨c, rest⟩
  · rw [step_idle hp] at h
    cases h
    exact .inl ⟨rfl, by rw [hp]⟩
  · exact .inr ⟨c, rest, rfl, (step_front hp).symm.trans h⟩

/-- Every step answers a next state, and takes one command from the queue. -/
theorem step_next (s : State) : ∃ t, step s = .next t ∧ t.pending = s.pending.tail := by
  cases hp : s.pending with
  | nil => exact ⟨_, step_idle hp, hp⟩
  | cons c rest =>
    obtain ⟨d, he⟩ := exec_after c { s with pending := rest }
    exact ⟨_, (step_front hp).trans he, rfl⟩

/-- The memory that a cold reset leaves has its canonical form, whatever the device was. -/
theorem doColdReset_ramOk (st : Straps) (d : Dev) : (doColdReset st d).ramOk = true := (doColdReset_grows st d).ram rfl

/-- The registers that a cold reset leaves have their canonical form, whatever the device was. -/
theorem doColdReset_regsOk (st : Straps) (d : Dev) : (doColdReset st d).regsOk = true := (doColdReset_grows st d).regs rfl

/-- Settles O25: an idle step and every command but a cold reset keep the forms by `Grows`; a cold reset makes them anew. -/
theorem stepKeepsCanonicalForm : Obligations.StepKeepsCanonicalForm := by
  unfold Obligations.StepKeepsCanonicalForm
  rintro s t h ⟨hram, hregs⟩
  obtain ⟨-, rfl⟩ | ⟨c, rest, -, he⟩ := step_cases h
  · have hg : Grows s.dev (advance (s.dev.dt + 1) s.dev) := advance_grows (.refl _)
    exact ⟨hg.ram hram, hg.regs hregs⟩
  · cases hc : isCold c with
    | false =>
      have hg := grows_of_exec (s := { s with pending := rest }) he hc
      exact ⟨hg.ram hram, hg.regs hregs⟩
    | true =>
      cases c with
      | coldReset st =>
        cases he
        exact ⟨doColdReset_ramOk st s.dev, doColdReset_regsOk st s.dev⟩
      | _ => exact nomatch hc

/-- A step whose command is no cold reset undoes nothing of what `Grows` keeps. -/
theorem grows_of_step {s t : State} (h : step s = .next t) (hc : ∀ c, s.pending.head? = some c → isCold c = false) :
    Grows s.dev t.dev := by
  obtain ⟨-, rfl⟩ | ⟨c, rest, hp, he⟩ := step_cases h
  · exact advance_grows (.refl _)
  · exact grows_of_exec (s := { s with pending := rest }) he (hc c (by rw [hp]; rfl))

/-- Settles O26. -/
theorem stepTakesNothingBack : Obligations.StepTakesNothingBack := fun _ _ => grows_of_step

/-! ### Runs -/

/-- A run is a step and the run of the rest. -/
theorem run_succ {s t : State} (n : Nat) (h : step s = .next t) : run (n + 1) s = run n t := by
  simp only [run, h]

/-- A run without a cold reset undoes nothing of what `Grows` keeps, and takes one command a step from the queue. -/
theorem run_grows (n : Nat) (s : State) (hc : ∀ c ∈ s.pending, isCold c = false) :
    Grows s.dev (run n s).dev ∧ (run n s).pending = s.pending.drop n := by
  induction n generalizing s with
  | zero => exact ⟨.refl _, rfl⟩
  | succ n ih =>
    obtain ⟨t, ht, hp⟩ := step_next s
    have hstep : Grows s.dev t.dev := grows_of_step ht (fun c h => hc c (List.mem_of_mem_head? h))
    obtain ⟨hrest, hdrop⟩ := ih t (fun c h => hc c (List.mem_of_mem_tail (hp ▸ h)))
    rw [run_succ n ht]
    exact ⟨hstep.trans hrest, by rw [hdrop, hp, List.drop_tail]⟩

/-- Settles O27. -/
theorem runTakesNothingBack : Obligations.RunTakesNothingBack := by
  unfold Obligations.RunTakesNothingBack
  intro n s hc
  obtain ⟨hg, hp⟩ := run_grows n s hc
  exact ⟨hg.dt, hg.out, hg.heritage, hp⟩

/-! ### Time and reset -/

/-- Counting running time changes the counters alone. -/
theorem countRun_eq (d : Dev) (n : Nat) : ∃ c, countRun d n = { d with ctr := c } := by
  unfold countRun
  generalize List.range 16 = l
  induction l generalizing d with
  | nil => exact ⟨d.ctr, rfl⟩
  | cons k l ih =>
    rw [List.foldl_cons]
    split
    · obtain ⟨c, hc⟩ := ih { d with ctr := addCounter d.ctr (620 + k) n (min n (d.ctr.freezeDt - d.dt)) }
      exact ⟨c, hc⟩
    · exact ih d

/-- Moving device time on changes the time and the counters alone. -/
theorem advance_eq (t : Nat) (d : Dev) : ∃ x c, advance t d = { d with dt := x, ctr := c } := by
  unfold advance
  split
  · exact ⟨d.dt, d.ctr, rfl⟩
  · obtain ⟨c, hc⟩ := countRun_eq d (keeperDt d t - d.dt)
    exact ⟨keeperDt d t, c, by rw [hc]⟩

/-- Device time after it has moved on to a later time: the keeper's steps count while the clock stands still (R46, R47). -/
theorem advance_dt {d : Dev} {t : Nat} (h : d.dt < t) : (advance t d).dt = keeperDt d t := by
  unfold advance
  rw [if_neg (by omega)]

/-- One nanosecond on, or the next step of the keeper. -/
theorem keeperDt_succ (d : Dev) : keeperDt d (d.dt + 1) = if clockStopped d then (d.dt / 40 + 1) * 40 else d.dt + 1 := by
  unfold keeperDt
  split
  · omega
  · rfl

/-- Settles O22. -/
theorem idleStepTicks : Obligations.IdleStepTicks := by
  unfold Obligations.IdleStepTicks
  intro s hp
  obtain ⟨x, c, he⟩ := advance_eq (s.dev.dt + 1) s.dev
  refine ⟨_, step_idle hp, rfl, ?_, ?_⟩
  · rw [advance_dt (Nat.lt_succ_self _), keeperDt_succ]
  · rw [he]
    exact ⟨rfl, rfl, rfl, rfl⟩

/-- After reset no byte is listed and none is free: every address reads zero (notes/assumptions/5). -/
theorem dramByte_reset (a : Nat) : dramByte State.reset.dev a = 0 := rfl

/-- Settles O24. -/
theorem resetState : Obligations.ResetState := by
  unfold Obligations.ResetState
  refine ⟨rfl, rfl, rfl, rfl, fun _ => rfl, dramByte_reset, fun _ _ => rfl, rfl, ?_, ?_, fun _ => rfl⟩
  · decide
  · decide

end Sys2Proof.Machine
end

section
/-! SUPPORT. What an access leaves alone: the memory, device time, the rings, the commits, the platforms, the GPU, the Timetable,
the bells and the dirty cache, and every register but its own, the count of the error log and the state word of its domain. -/

namespace Sys2Proof.Machine

/-! ### The frame of an access -/

/-- What an access that changes registers, the error log, the counters, the staging copies, the power manager and the pair alone
leaves as it was. -/
structure AccessKeeps (d e : Dev) : Prop where
  dram : e.dram = d.dram
  free : e.dramFree = d.dramFree
  dt : e.dt = d.dt
  fns : e.fns = d.fns
  commits : e.commits = d.commits
  plat : e.plat = d.plat
  gpu : e.gpu = d.gpu
  tt : e.tt = d.tt
  bells : e.bells = d.bells
  dirty : e.dirty = d.dirty

theorem AccessKeeps.refl (d : Dev) : AccessKeeps d d := ⟨rfl, rfl, rfl, rfl, rfl, rfl, rfl, rfl, rfl, rfl⟩

theorem AccessKeeps.trans {a b c : Dev} (h : AccessKeeps a b) (k : AccessKeeps b c) : AccessKeeps a c :=
  ⟨k.dram.trans h.dram, k.free.trans h.free, k.dt.trans h.dt, k.fns.trans h.fns, k.commits.trans h.commits,
    k.plat.trans h.plat, k.gpu.trans h.gpu, k.tt.trans h.tt, k.bells.trans h.bells,
    k.dirty.trans h.dirty⟩

/-- Memory with the same cells and the same free ranges reads alike. -/
theorem dramByte_congr {d e : Dev} (h : e.dram = d.dram) (hf : e.dramFree = d.dramFree) (x : Nat) :
    dramByte e x = dramByte d x := by
  unfold dramByte dramUnlisted
  rw [h, hf]

theorem AccessKeeps.byte {d e : Dev} (h : AccessKeeps d e) (x : Nat) : dramByte e x = dramByte d x :=
  dramByte_congr h.dram h.free x

theorem AccessKeeps.wr (d : Dev) (off : Nat) (v : Word) : AccessKeeps d (wr d off v) :=
  ⟨rfl, rfl, rfl, rfl, rfl, rfl, rfl, rfl, rfl, rfl⟩

theorem AccessKeeps.fs (d : Dev) (off : Nat) (f : Fld) (v : Nat) : AccessKeeps d (fs d off f v) := .wr ..

theorem AccessKeeps.bump (d : Dev) (off : Nat) (f : Fld) (n : Nat) : AccessKeeps d (bump d off f n) := .wr ..

theorem AccessKeeps.wr64 (d : Dev) (off v : Nat) : AccessKeeps d (wr64 d off v) := (AccessKeeps.wr ..).trans (.wr ..)

theorem AccessKeeps.emit (d : Dev) (o : Out) : AccessKeeps d (emit d o) := ⟨rfl, rfl, rfl, rfl, rfl, rfl, rfl, rfl, rfl, rfl⟩

theorem AccessKeeps.count (d : Dev) (i n : Nat) : AccessKeeps d (count d i n) :=
  ⟨rfl, rfl, rfl, rfl, rfl, rfl, rfl, rfl, rfl, rfl⟩

theorem AccessKeeps.staged (d : Dev) (x y : SMap (Option Word)) : AccessKeeps d { d with stg := x, stgSI := y } :=
  ⟨rfl, rfl, rfl, rfl, rfl, rfl, rfl, rfl, rfl, rfl⟩

/-- An error that is recorded changes the log and the register that counts it alone. -/
theorem logErr_eq (d : Dev) (c m a : Nat) (v : Word) (s : Bool) : ∃ regs err, logErr d c m a v s = { d with regs := regs, err
    := err } := by
  unfold logErr
  dsimp only
  split
  · split <;> exact ⟨_, _, rfl⟩
  · split
    · exact ⟨_, _, rfl⟩
    · split <;> exact ⟨_, _, rfl⟩

theorem AccessKeeps.logErr (d : Dev) (c m a : Nat) (v : Word) (s : Bool) : AccessKeeps d (logErr d c m a v s) := by
  obtain ⟨regs, err, h⟩ := logErr_eq d c m a v s
  rw [h]
  exact ⟨rfl, rfl, rfl, rfl, rfl, rfl, rfl, rfl, rfl, rfl⟩

theorem AccessKeeps.serveDomain (d : Dev) (k : Nat) : AccessKeeps d (serveDomain d k).1 := by
  obtain ⟨pm, x, h | h⟩ := serveDomain_eq d k <;> rw [h] <;> exact ⟨rfl, rfl, rfl, rfl, rfl, rfl, rfl, rfl, rfl, rfl⟩

/-- A record for the banker changes the pair, the output and the counters alone. -/
theorem linkSend_eq (d : Dev) (k : Nat) (ws : List Nat) : ∃ pair out ctr,
    linkSend d k ws = { d with pair := pair, out := out, ctr := ctr } := by
  unfold linkSend
  split <;> exact ⟨_, _, _, rfl⟩

theorem AccessKeeps.linkSend (d : Dev) (k : Nat) (ws : List Nat) : AccessKeeps d (linkSend d k ws) := by
  obtain ⟨pair, out, ctr, h⟩ := linkSend_eq d k ws
  rw [h]
  exact ⟨rfl, rfl, rfl, rfl, rfl, rfl, rfl, rfl, rfl, rfl⟩

theorem AccessKeeps.mirrorReg (d : Dev) (off : Nat) (v : Word) : AccessKeeps d (mirrorReg d off v) := by
  unfold Machine.mirrorReg
  split
  · exact .refl d
  · exact .linkSend ..

theorem AccessKeeps.noteLocked (a : Acc) (off : Nat) (v : Word) (d : Dev) (r : RRow) :
    AccessKeeps d (noteLocked a off v d r) := by
  unfold Machine.noteLocked
  split
  · exact .logErr ..
  · exact .refl d

/-- What the row of a register makes of a write that is taken: it waits in a staging copy, it leaves no word, or it is done. -/
theorem regTake_cases (a : Acc) (off : Nat) (v : Word) (d : Dev) (r : RRow) :
    (∃ stgSI, regTake a off v d r = (linkSend { noteLocked a off v d r with stgSI := stgSI } 0x05 [2 ^ 32 + 10, off, v.toNat],
      .staged)) ∨
    (∃ stg, regTake a off v d r = (mirrorReg { noteLocked a off v d r with stg := stg } off v, .staged)) ∨
    regTake a off v d r = (noteLocked a off v d r, .done v) ∨
    regTake a off v d r = (mirrorReg (wr (noteLocked a off v d r) off (regNew d off v r)) off v, .done (regNew d off v r)) := by
  unfold regTake
  dsimp only
  split
  · split
    · exact .inl ⟨_, rfl⟩
    · exact .inr (.inl ⟨_, rfl⟩)
  · split
    · exact .inr (.inr (.inl rfl))
    · exact .inr (.inr (.inr rfl))

theorem AccessKeeps.regTake (a : Acc) (off : Nat) (v : Word) (d : Dev) (r : RRow) : AccessKeeps d (regTake a off v d r).1 := by
  have hnote : AccessKeeps d (Machine.noteLocked a off v d r) := .noteLocked ..
  obtain ⟨x, h⟩ | ⟨x, h⟩ | h | h := regTake_cases a off v d r <;> rw [h]
  · exact (hnote.trans (.staged ..)).trans (.linkSend ..)
  · exact (hnote.trans (.staged ..)).trans (.mirrorReg ..)
  · exact hnote
  · exact hnote.trans ((AccessKeeps.wr ..).trans (.mirrorReg ..))

theorem AccessKeeps.regWrite (a : Acc) (off : Nat) (v : Word) (d : Dev) : AccessKeeps d (regWrite a off v d).1 := by
  obtain ⟨-, h⟩ | ⟨-, h⟩ | ⟨c, -, h⟩ | ⟨r, k, -, -, h⟩ := regWrite_cases a off v d <;> rw [h]
  · exact .refl d
  · exact .serveDomain ..
  · exact (AccessKeeps.serveDomain ..).trans (.logErr ..)
  · exact (AccessKeeps.serveDomain ..).trans (.regTake ..)

/-- A checked write is the plain write, or a record of its cause. -/
theorem guardWrite_cases (a : Acc) (off : Nat) (v : Word) (bad : Word → Option Nat) (d : Dev) :
    guardWrite a off v bad d = regWrite a off v d ∨
    ∃ c, guardWrite a off v bad d = (logErr (serveDomain d (domOf off)).1 c a.mid.toNat off v a.secure, .discarded) := by
  unfold guardWrite
  dsimp only
  split
  · split
    · exact .inr ⟨_, rfl⟩
    · exact .inl rfl
  · exact .inl rfl

theorem AccessKeeps.guardWrite (a : Acc) (off : Nat) (v : Word) (bad : Word → Option Nat) (d : Dev) :
    AccessKeeps d (guardWrite a off v bad d).1 := by
  obtain h | ⟨c, h⟩ := guardWrite_cases a off v bad d <;> rw [h]
  · exact .regWrite ..
  · exact (AccessKeeps.serveDomain ..).trans (.logErr ..)

/-- A masked write is the plain write, with the register's own word put back where it was done. -/
theorem AccessKeeps.maskedWrite (a : Acc) (off : Nat) (v : Word) (d : Dev) : AccessKeeps d (maskedWrite a off v d).1 := by
  unfold Machine.maskedWrite
  dsimp only
  split
  · exact (AccessKeeps.regWrite ..).trans (.wr ..)
  · exact .regWrite ..

/-! ### The registers beside the one that is written -/

theorem rd_linkSend (d : Dev) (k : Nat) (ws : List Nat) (o : Nat) : rd (linkSend d k ws) o = rd d o := by
  obtain ⟨pair, out, ctr, h⟩ := linkSend_eq d k ws
  rw [h]
  exact rd_congr rfl o

theorem rd_mirrorReg (d : Dev) (off : Nat) (v : Word) (o : Nat) : rd (mirrorReg d off v) o = rd d o := by
  unfold mirrorReg
  split
  · rfl
  · exact rd_linkSend ..

theorem rd_noteLocked (a : Acc) (off : Nat) (v : Word) (d : Dev) (r : RRow) {o : Nat} (h : o ≠ ER_STATUS) :
    rd (noteLocked a off v d r) o = rd d o := by
  unfold noteLocked
  split
  · exact rd_logErr _ _ _ _ _ _ _ h
  · rfl

/-- A write that is taken changes its own register, and only where it is done, and the count of the error log. -/
theorem rd_regTake (a : Acc) (off : Nat) (v : Word) (d : Dev) (r : RRow) {o : Nat} (hlog : o ≠ ER_STATUS)
    (h : o ≠ off ∨ ∀ n, (regTake a off v d r).2 ≠ .done n) : rd (regTake a off v d r).1 o = rd d o := by
  have hnote : rd (noteLocked a off v d r) o = rd d o := rd_noteLocked a off v d r hlog
  obtain ⟨x, e⟩ | ⟨x, e⟩ | e | e := regTake_cases a off v d r <;> rw [e] at h ⊢
  · exact (rd_linkSend ..).trans ((rd_congr rfl o).trans hnote)
  · exact (rd_mirrorReg ..).trans ((rd_congr rfl o).trans hnote)
  · exact hnote
  · have hne : o ≠ off := h.resolve_right (fun hn => hn _ rfl)
    exact (rd_mirrorReg ..).trans ((rd_wr_ne _ _ _ _ hne).trans hnote)

/-- A register write changes its own register, and only where it is done, and the side words. -/
theorem rd_regWrite (a : Acc) (off : Nat) (v : Word) (d : Dev) {o : Nat} (hside : sideWord o = false)
    (h : o ≠ off ∨ ∀ n, (regWrite a off v d).2 ≠ .done n) : rd (regWrite a off v d).1 o = rd d o := by
  obtain ⟨hlog, hdom⟩ := sideWord_eq_false hside
  have hserve : rd (serveDomain d (domOf off)).1 o = rd d o := rd_serveDomain d _ o (hdom _ (domOf_lt off))
  obtain ⟨-, e⟩ | ⟨-, e⟩ | ⟨c, -, e⟩ | ⟨r, k, -, -, e⟩ := regWrite_cases a off v d <;> rw [e] at h ⊢
  · exact hserve
  · exact (rd_logErr _ _ _ _ _ _ _ hlog).trans hserve
  · exact (rd_regTake a off v _ r hlog h).trans hserve

/-- Settles O32. -/
theorem registerWriteFrame : Obligations.RegisterWriteFrame := by
  unfold Obligations.RegisterWriteFrame
  intro a off v n d e hw
  have hk : AccessKeeps d (regWrite a off v d).1 := .regWrite ..
  have hr := fun o ho hs => rd_regWrite a off v d (o := o) hs (.inl ho)
  unfold Written at hw
  rw [hw] at hk hr
  exact ⟨hr, hk.byte, hk.dt, hk.fns, hk.commits, hk.tt⟩

/-- Settles O33. -/
theorem undoneWriteFrame : Obligations.UndoneWriteFrame := by
  unfold Obligations.UndoneWriteFrame
  intro a off v d hundone
  have hk : AccessKeeps d (regWrite a off v d).1 := .regWrite ..
  exact ⟨fun o hs => rd_regWrite a off v d hs (.inr hundone), hk.byte, hk.fns⟩

/-! ### The island's registers -/

/-- A write of an island register by another master is turned away at the latest for its master (R391). -/
theorem regRefusal_island {a : Acc} {off : Nat} {v : Word} {d : Dev} {r : RRow} {k : List Nat} (hrow : rowOf off = some (r, k))
    (hworld : r.world = .island) (hsi : a.mid.toNat ≠ midSI) (hpair : a.mid.toNat ≠ midPAIR) :
    regRefusal a off v d ≠ none := by
  intro h
  unfold regRefusal at h
  simp [hrow, hworld, hsi, hpair, ite_eq_iff] at h

/-- Settles O35. -/
theorem onlyTheIslandWritesItsRegisters : Obligations.OnlyTheIslandWritesItsRegisters := by
  unfold Obligations.OnlyTheIslandWritesItsRegisters
  intro a off v d r k hrow hworld hsi hpair
  obtain ⟨hdisc, -, hrec⟩ := regWrite_refused d (fun _ => regRefusal_island hrow hworld hsi hpair)
  exact ⟨hdisc, hrec⟩

end Sys2Proof.Machine
end

section
/-! SUPPORT. What the accesses of the tokens, of the Timetable and of scan-out leave alone. -/

namespace Sys2Proof.Machine

theorem AccessKeeps.startWake (d : Dev) (k : Nat) : AccessKeeps d (startWake d k) := by
  unfold Machine.startWake
  split
  · exact .refl d
  · exact ⟨rfl, rfl, rfl, rfl, rfl, rfl, rfl, rfl, rfl, rfl⟩

/-! ### Tokens (R372, R373) -/

/-- Beside what an access changes, the tokens alone may change. -/
def TokenKeeps (d e : Dev) : Prop := ∃ toks, AccessKeeps { d with bells := { d.bells with toks := toks } } e

theorem AccessKeeps.token {d e : Dev} (h : AccessKeeps d e) : TokenKeeps d e := ⟨d.bells.toks, h⟩

theorem TokenKeeps.trans {a b c : Dev} (h : TokenKeeps a b) (k : TokenKeeps b c) : TokenKeeps a c := by
  obtain ⟨x, h⟩ := h
  obtain ⟨y, k⟩ := k
  refine ⟨y, k.dram.trans h.dram, k.free.trans h.free, k.dt.trans h.dt, k.fns.trans h.fns, k.commits.trans h.commits,
    k.plat.trans h.plat, k.gpu.trans h.gpu, k.tt.trans h.tt, k.bells.trans ?_, k.dirty.trans h.dirty⟩
  show { b.bells with toks := y } = { a.bells with toks := y }
  rw [h.bells]

theorem TokenKeeps.foldl {α : Type} {f : Dev → α → Dev} (h : ∀ d x, TokenKeeps d (f d x)) (l : List α) (d : Dev) :
    TokenKeeps d (l.foldl f d) := by
  induction l generalizing d with
  | nil => exact (AccessKeeps.refl d).token
  | cons x l ih => exact (h d x).trans (ih (f d x))

theorem TokenKeeps.onTok (d : Dev) (t : Nat) (g : TokRun → TokRun) : TokenKeeps d (onTok d t g) := ⟨_, .fs ..⟩

theorem TokenKeeps.tokenRead (t : Nat) (d : Dev) (a : Acc) : TokenKeeps d (tokenRead t d a) := by
  unfold Machine.tokenRead
  dsimp only
  split
  · exact (AccessKeeps.emit ..).token
  · split
    · exact (((AccessKeeps.bump ..).trans (.logErr ..)).trans (.emit ..)).token
    · split
      · exact (AccessKeeps.emit ..).token
      · exact (TokenKeeps.onTok ..).trans (AccessKeeps.emit ..).token

theorem AccessKeeps.bellServed (d : Dev) (hold : Bool) : AccessKeeps d (bellServed d hold).1 := by
  unfold Machine.bellServed
  split
  · exact .refl d
  · exact .startWake ..

theorem AccessKeeps.dbWrite (a : Acc) (off : Nat) (v : Word) (d : Dev) : AccessKeeps d (dbWrite a off v d).1 := by
  have hserved : AccessKeeps d (Machine.bellServed d false).1 := .bellServed ..
  unfold Machine.dbWrite
  dsimp only
  split
  · exact hserved
  · split
    · exact hserved.trans (.emit ..)
    · split
      · exact hserved.trans (.logErr ..)
      · exact hserved

theorem TokenKeeps.doTokenAcquire (t : Nat) (rs : List Acc) (d : Dev) : TokenKeeps d (doTokenAcquire t rs d) := by
  have hserved : TokenKeeps d (Machine.bellServed d false).1 := (AccessKeeps.bellServed ..).token
  unfold Machine.doTokenAcquire
  dsimp only
  split
  · exact hserved.trans (.foldl (fun _ _ => (AccessKeeps.emit ..).token) ..)
  · refine (hserved.trans ?_).trans (.foldl (.tokenRead t) ..)
    split
    · exact (AccessKeeps.bump ..).token.trans (.onTok ..)
    · exact (AccessKeeps.refl _).token

theorem TokenKeeps.doTokenRelease (a : Acc) (t : Nat) (v : Word) (d : Dev) : TokenKeeps d (doTokenRelease a t v d) := by
  have hwrite : TokenKeeps d (Machine.dbWrite a (tokOff t) v d).1 := (AccessKeeps.dbWrite ..).token
  unfold Machine.doTokenRelease
  dsimp only
  split
  · exact hwrite
  · split
    · exact (hwrite.trans (.onTok ..)).trans (AccessKeeps.fs ..).token
    · exact hwrite.trans (AccessKeeps.bump ..).token

/-- Settles O52. -/
theorem tokenCommandsFrame : Obligations.TokenCommandsFrame := by
  unfold Obligations.TokenCommandsFrame
  intro s t c hc h
  have hkeeps : TokenKeeps s.dev t.dev := by
    obtain ⟨k, rs, rfl⟩ | ⟨a, k, v, rfl⟩ := hc <;> cases h
    · exact .doTokenAcquire ..
    · exact .doTokenRelease ..
  obtain ⟨toks, hk⟩ := hkeeps
  exact ⟨hk.byte, hk.fns, hk.commits, hk.tt, hk.gpu, hk.dt, (congrArg Bells.chans hk.bells).trans rfl, hk.plat⟩

/-! ### The Timetable (R49, R50, R60, R514) -/

/-- Beside what an access changes, the Timetable may change, but for its calling points and rasters. -/
def TimetableKeeps (d e : Dev) : Prop :=
  ∃ tt, tt.cps = d.tt.cps ∧ tt.run = d.tt.run ∧ tt.raster = d.tt.raster ∧ AccessKeeps { d with tt := tt } e

theorem AccessKeeps.timetable {d e : Dev} (h : AccessKeeps d e) : TimetableKeeps d e := ⟨d.tt, rfl, rfl, rfl, h⟩

/-- A change of the Timetable beside its points and rasters, between two accesses. -/
theorem AccessKeeps.andTimetable {d e f : Dev} {tt : Timetable} (h : AccessKeeps d e) (k : AccessKeeps { e with tt := tt } f)
    (hcps : tt.cps = e.tt.cps) (hrun : tt.run = e.tt.run) (hraster : tt.raster = e.tt.raster) : TimetableKeeps d f := by
  rw [h.tt] at hcps hrun hraster
  exact ⟨tt, hcps, hrun, hraster, k.dram.trans h.dram, k.free.trans h.free, k.dt.trans h.dt, k.fns.trans h.fns,
    k.commits.trans h.commits, k.plat.trans h.plat, k.gpu.trans h.gpu, k.tt, k.bells.trans h.bells, k.dirty.trans h.dirty⟩

theorem TimetableKeeps.doDtRead (a : Acc) (d : Dev) : TimetableKeeps d (doDtRead a d) := by
  unfold Machine.doDtRead
  dsimp only
  split
  · exact (AccessKeeps.serveDomain ..).timetable
  · exact (AccessKeeps.serveDomain ..).andTimetable (.emit ..) rfl rfl rfl

theorem TimetableKeeps.doRposRead (a : Acc) (p : Nat) (d : Dev) : TimetableKeeps d (doRposRead a p d) := by
  unfold Machine.doRposRead
  dsimp only
  split
  · exact (AccessKeeps.serveDomain ..).timetable
  · exact ((((AccessKeeps.serveDomain ..).trans (.wr ..)).trans (.wr64 ..)).trans (.emit ..)).timetable

theorem TimetableKeeps.doCounterRead (a : Acc) (d : Dev) : TimetableKeeps d (doCounterRead a d) := by
  unfold Machine.doCounterRead
  dsimp only
  split
  · exact (AccessKeeps.serveDomain ..).timetable
  · exact (AccessKeeps.serveDomain ..).andTimetable ⟨rfl, rfl, rfl, rfl, rfl, rfl, rfl, rfl, rfl, rfl⟩ rfl rfl rfl

/-- A write of the window that no master's word may take is recorded where it reaches the registers. -/
theorem AccessKeeps.turnedAway (a : Acc) (off : Nat) (v : Word) (d : Dev) :
    AccessKeeps d (if reachesBar0 a then Machine.logErr d ecNOT_PERMITTED a.mid.toNat off v a.secure else d) := by
  split
  · exact .logErr ..
  · exact .refl d

theorem TimetableKeeps.doCpSelWrite (a : Acc) (v : Word) (d : Dev) : TimetableKeeps d (doCpSelWrite a v d) := by
  unfold Machine.doCpSelWrite
  dsimp only
  split
  · exact (AccessKeeps.turnedAway ..).timetable
  · split
    · exact (AccessKeeps.maskedWrite ..).timetable
    · split
      · exact (AccessKeeps.maskedWrite ..).timetable
      · exact (AccessKeeps.maskedWrite ..).andTimetable (.refl _) rfl rfl rfl

theorem TimetableKeeps.doCpStageWrite (a : Acc) (k : Nat) (v : Word) (d : Dev) : TimetableKeeps d (doCpStageWrite a k v d) := by
  unfold Machine.doCpStageWrite
  dsimp only
  split
  · exact (AccessKeeps.turnedAway ..).timetable
  · split
    · exact (AccessKeeps.maskedWrite ..).timetable
    · exact (AccessKeeps.maskedWrite ..).andTimetable (.refl _) rfl rfl rfl

theorem TimetableKeeps.doConvStart (a : Acc) (v : Word) (d : Dev) : TimetableKeeps d (doConvStart a v d) := by
  unfold Machine.doConvStart
  dsimp only
  split
  · split
    · exact ((AccessKeeps.regWrite ..).trans (.wr64 ..)).andTimetable (.logErr ..) rfl rfl rfl
    · exact (AccessKeeps.regWrite ..).andTimetable (.refl _) rfl rfl rfl
  · exact (AccessKeeps.regWrite ..).timetable

theorem TimetableKeeps.doConvDone (d : Dev) : TimetableKeeps d (doConvDone d) := by
  unfold Machine.doConvDone
  split
  · exact (AccessKeeps.refl d).timetable
  · exact (AccessKeeps.refl d).andTimetable (.wr64 ..) rfl rfl rfl

/-- Settles O53. -/
theorem timetableAccessFrame : Obligations.TimetableAccessFrame := by
  unfold Obligations.TimetableAccessFrame
  intro s t c hc h
  have hkeeps : TimetableKeeps s.dev t.dev := by
    obtain ⟨a, rfl⟩ | ⟨a, p, rfl⟩ | ⟨a, rfl⟩ | ⟨a, v, rfl⟩ | ⟨a, k, v, rfl⟩ | ⟨a, v, rfl⟩ | rfl := hc <;> cases h
    · exact .doDtRead ..
    · exact .doRposRead ..
    · exact .doCounterRead ..
    · exact .doCpSelWrite ..
    · exact .doCpStageWrite ..
    · exact .doConvStart ..
    · exact .doConvDone ..
  obtain ⟨tt, hcps, hrun, hraster, hk⟩ := hkeeps
  have htt : t.dev.tt = tt := hk.tt
  exact ⟨hk.byte, hk.fns, hk.commits, hk.plat, hk.gpu, hk.dt, htt ▸ hcps, htt ▸ hrun, htt ▸ hraster⟩

/-- A value put at one key does not show at another. -/
theorem SMap.get_set_ne {α : Type} [Inhabited α] [DecidableEq α] {m : SMap α} {i j : Nat} (a : α)
    (h : SMap.rising m = true) (hij : j ≠ i) : SMap.get (SMap.set m i a) j = SMap.get m j :=
  (SMap.get_set m i j a h).trans (if_neg hij)

/-! ### The window of the calling points is each master's own (R60) -/

/-- What one master's selection and staging copy become does not show in another's. -/
theorem window_maskedWrite (a : Acc) (off : Nat) (v : Word) (d : Dev) : (maskedWrite a off v d).1.tt = d.tt :=
  (AccessKeeps.maskedWrite a off v d).tt

theorem doCpSelWrite_other (a : Acc) (v : Word) (d : Dev) {m : Nat} (hm : m ≠ a.mid.toNat) (hsel : SMap.rising d.tt.sel = true)
    (hstage : SMap.rising d.tt.stage = true) :
    SMap.get (doCpSelWrite a v d).tt.sel m = SMap.get d.tt.sel m ∧
    SMap.get (doCpSelWrite a v d).tt.stage m = SMap.get d.tt.stage m := by
  have hw := window_maskedWrite a TT_CP_SEL v d
  unfold doCpSelWrite
  dsimp only
  split
  · rw [(AccessKeeps.turnedAway a TT_CP_SEL v d).tt]
    exact ⟨rfl, rfl⟩
  · split
    · rw [hw]
      exact ⟨rfl, rfl⟩
    · split
      · rw [hw]
        exact ⟨rfl, rfl⟩
      · rw [hw]
        exact ⟨SMap.get_set_ne _ hsel hm, SMap.get_set_ne [] hstage hm⟩

theorem doCpStageWrite_other (a : Acc) (k : Nat) (v : Word) (d : Dev) {m : Nat} (hm : m ≠ a.mid.toNat)
    (hstage : SMap.rising d.tt.stage = true) :
    SMap.get (doCpStageWrite a k v d).tt.sel m = SMap.get d.tt.sel m ∧
    SMap.get (doCpStageWrite a k v d).tt.stage m = SMap.get d.tt.stage m := by
  have hw := window_maskedWrite a (TT_CP_W (k + 1)) v d
  unfold doCpStageWrite
  dsimp only
  split
  · rw [(AccessKeeps.turnedAway a (TT_CP_W (k + 1)) v d).tt]
    exact ⟨rfl, rfl⟩
  · split
    · rw [hw]
      exact ⟨rfl, rfl⟩
    · rw [hw]
      exact ⟨rfl, SMap.get_set_ne _ hstage hm⟩

/-- Settles O44. -/
theorem stagingIsPerMaster : Obligations.StagingIsPerMaster := by
  unfold Obligations.StagingIsPerMaster
  intro s t a v m hm hsel hstage h
  obtain h | ⟨k, h⟩ := h <;> cases h
  · exact doCpSelWrite_other a v s.dev hm hsel hstage
  · exact doCpStageWrite_other a k.val v s.dev hm hstage

/-! ### Scan-out (R265, R272, R276) -/

theorem AccessKeeps.doDpllWrite (a : Acc) (k w : Nat) (v : Word) (d : Dev) : AccessKeeps d (doDpllWrite a k w v d) := by
  unfold Machine.doDpllWrite
  dsimp only
  split
  · exact (AccessKeeps.guardWrite ..).trans (.fs ..)
  · exact .guardWrite ..

theorem AccessKeeps.doDpllLock (k : Nat) (d : Dev) : AccessKeeps d (doDpllLock k d) := by
  unfold Machine.doDpllLock
  split
  · exact .refl d
  · exact (AccessKeeps.fs ..).trans (.fs ..)

theorem AccessKeeps.onScan (d : Dev) (g : Scan → Scan) : AccessKeeps d (onScan d g) :=
  ⟨rfl, rfl, rfl, rfl, rfl, rfl, rfl, rfl, rfl, rfl⟩

theorem AccessKeeps.doAuxGo (code : Nat) (a : Acc) (p : Nat) (v : Word) (d : Dev) : AccessKeeps d (doAuxGo code a p v d) := by
  unfold Machine.doAuxGo
  dsimp only
  split
  · split
    · exact (AccessKeeps.guardWrite ..).trans ((AccessKeeps.onScan ..).trans (.emit ..))
    · exact .guardWrite ..
  · exact .guardWrite ..

/-- Settles O54. -/
theorem scanOutAccessFrame : Obligations.ScanOutAccessFrame := by
  unfold Obligations.ScanOutAccessFrame
  intro s t c hc h
  have hk : AccessKeeps s.dev t.dev := by
    obtain ⟨a, k, w, v, rfl⟩ | ⟨k, rfl⟩ | ⟨a, v, rfl⟩ | ⟨a, p, v, rfl | rfl | rfl | rfl⟩ := hc <;> cases h
    · exact .doDpllWrite ..
    · exact .doDpllLock ..
    · exact .regWrite ..
    all_goals exact .doAuxGo ..
  exact ⟨hk.byte, hk.fns, hk.commits, hk.plat, hk.tt, hk.dt, hk.gpu⟩

end Sys2Proof.Machine
end

section
/-! SUPPORT. Readers of a token (R373), the fences and the waits of rings (R102), the counters (R478), the error log (R485),
the holds (R386) and stale records (R405). -/

namespace Sys2Proof.Machine

/-! ### Maps -/

/-- What a change by a function leaves at its own key. -/
theorem SMap.get_mod_same {α : Type} [Inhabited α] [DecidableEq α] {m : SMap α} (i : Nat) (g : α → α)
    (h : SMap.rising m = true) : SMap.get (SMap.mod m i g) i = g (SMap.get m i) :=
  (SMap.get_set m i i _ h).trans (if_pos rfl)

/-- A change at one key does not show at another. -/
theorem SMap.get_mod_ne {α : Type} [Inhabited α] [DecidableEq α] {m : SMap α} {i j : Nat} (g : α → α)
    (h : SMap.rising m = true) (hij : j ≠ i) : SMap.get (SMap.mod m i g) j = SMap.get m j := SMap.get_set_ne _ h hij

/-- A change to a listed value is found in any map, rising or not. -/
theorem SMap.get_mod_listed {α : Type} [Inhabited α] [DecidableEq α] (m : SMap α) (i : Nat) (g : α → α)
    (h : g (SMap.get m i) ≠ default) : SMap.get (SMap.mod m i g) i = g (SMap.get m i) := by
  unfold SMap.mod SMap.set
  rw [if_neg h]
  unfold SMap.get
  rw [SMap.find?_insert, if_pos rfl]
  rfl

/-! ### Several readers of one token (R373) -/

/-- The registers of the permissions lie apart from the register that counts the held tokens. -/
theorem mayToken_wr_status (d : Dev) (v : Word) (mid t : Nat) : mayToken (wr d TK_STATUS v) mid t = mayToken d mid t := by
  have hfn : rd (wr d TK_STATUS v) (TK_ALLOW_FN t) = rd d (TK_ALLOW_FN t) :=
    rd_wr_ne _ _ _ _ (by unfold TK_ALLOW_FN TK_STATUS; omega)
  have hcore : rd (wr d TK_STATUS v) (TK_ALLOW_CORE t) = rd d (TK_ALLOW_CORE t) :=
    rd_wr_ne _ _ _ _ (by unfold TK_ALLOW_CORE TK_STATUS; omega)
  unfold mayToken fg
  rw [hfn, hcore]

/-- Permission depends on the registers alone. -/
theorem mayToken_congr {d e : Dev} (h : e.regs = d.regs) (mid t : Nat) : mayToken e mid t = mayToken d mid t := by
  unfold mayToken fg
  rw [rd_congr h, rd_congr h]

theorem mayToken_emit (d : Dev) (o : Out) (mid t : Nat) : mayToken (emit d o) mid t = mayToken d mid t :=
  mayToken_congr rfl mid t

theorem mayToken_onTok (d : Dev) (t u mid : Nat) (g : TokRun → TokRun) : mayToken (onTok d t g) mid u = mayToken d mid u :=
  (mayToken_wr_status ..).trans (mayToken_congr rfl ..)

/-- A token that is given to a master has that holder. -/
theorem tok_onTok_holder (d : Dev) (t m : Nat) :
    (tok (onTok d t (fun x => { x with holder := some m })) t).holder = some m := by
  have hlisted : { tok d t with holder := some m } ≠ (default : TokRun) := fun h => nomatch congrArg TokRun.holder h
  exact congrArg TokRun.holder (SMap.get_mod_listed d.bells.toks t (fun x => { x with holder := some m }) hlisted)

/-- Readers that come while the token is held read the holder's number, each in its turn, and the token stays where it is. -/
theorem foldl_tokenRead_held {t m : Nat} (rs : List Acc) (d : Dev) (hc : ∀ x ∈ rs, contends d t x = true)
    (hm : (tok d t).holder = some m) :
    (tok (rs.foldl (tokenRead t) d) t).holder = some m ∧
    (rs.foldl (tokenRead t) d).out =
      (rs.map (fun x => Out.readData x.mid.toNat (tokOff t) (heldWord m))).reverse ++ d.out := by
  induction rs generalizing d with
  | nil => exact ⟨hm, rfl⟩
  | cons x rs ih =>
    have hx := hc x List.mem_cons_self
    unfold contends at hx
    rw [Bool.and_eq_true, decide_eq_true_eq] at hx
    rw [List.foldl_cons, tokenRead_held hx.1 hx.2 hm]
    obtain ⟨hholder, hout⟩ := ih (emit d (.readData x.mid.toNat (tokOff t) (heldWord m)))
      (fun y hy => hc y (List.mem_cons_of_mem _ hy)) hm
    refine ⟨hholder, hout.trans ?_⟩
    simp [emit_out]

/-- Settles O37. -/
theorem oneReaderTakesTheToken : Obligations.OneReaderTakesTheToken := by
  unfold Obligations.OneReaderTakesTheToken
  intro d t a rs hc hfree
  have ha := hc a List.mem_cons_self
  unfold contends at ha
  rw [Bool.and_eq_true, decide_eq_true_eq] at ha
  rw [List.foldl_cons, tokenRead_free ha.1 ha.2 hfree]
  refine foldl_tokenRead_held rs _ (fun x hx => ?_) (tok_onTok_holder d t a.mid.toNat)
  have hcx := hc x (List.mem_cons_of_mem _ hx)
  unfold contends at hcx ⊢
  rwa [mayToken_emit, mayToken_onTok]

/-! ### Fences and waits (R102) -/

/-- A record for the banker leaves the functions alone. -/
theorem fnSt_linkSend (d : Dev) (k : Nat) (ws : List Nat) (n : Nat) : fnSt (linkSend d k ws) n = fnSt d n :=
  congrArg (SMap.get · n) (AccessKeeps.linkSend d k ws).fns

/-- A function after its own change. -/
theorem fnSt_onFn_same {d : Dev} (n : Nat) (g : FnSt → FnSt) (h : SMap.rising d.fns = true) :
    fnSt (onFn d n g) n = g (fnSt d n) := SMap.get_mod_same n g h

/-- A function after the change of another. -/
theorem fnSt_onFn_ne {d : Dev} {n m : Nat} (g : FnSt → FnSt) (h : SMap.rising d.fns = true) (hm : m ≠ n) :
    fnSt (onFn d n g) m = fnSt d m := SMap.get_mod_ne g h hm

/-- Settles O42. -/
theorem signalMovesItsFence : Obligations.SignalMovesItsFence := by
  unfold Obligations.SignalMovesItsFence
  intro d n ws hlead k v hk hv hfns hfences
  let e := linkSend d 0x05 [2 ^ 32, n, k, v]
  have he : signalFence d n ws = onFn e n (fun x => { x with fences := SMap.set x.fences k v }) := by
    unfold signalFence
    simp only [hlead, Bool.false_eq_true, if_false, ← hk, ← hv]
    rfl
  have hrise : SMap.rising e.fns = true := (AccessKeeps.linkSend d 0x05 [2 ^ 32, n, k, v]).fns ▸ hfns
  have hown : fnSt (signalFence d n ws) n = { fnSt d n with fences := SMap.set (fnSt d n).fences k v } := by
    rw [he, ← fnSt_linkSend d 0x05 [2 ^ 32, n, k, v] n]
    exact fnSt_onFn_same n _ hrise
  refine ⟨?_, fun j hj => ?_, fun m hm => ?_⟩
  · rw [hown]
    exact (SMap.get_set _ _ _ _ hfences).trans (if_pos rfl)
  · rw [hown]
    exact SMap.get_set_ne v hfences hj
  · rw [he]
    exact (fnSt_onFn_ne _ hrise hm).trans (fnSt_linkSend d 0x05 [2 ^ 32, n, k, v] m)

/-- Nothing may start on a ring that a WAIT holds. -/
theorem canStart_of_waitHolds {d : Dev} {n r : Nat} (h : waitHolds d n r = true) (q : Desc) : canStart d n r q = false := by
  simp [canStart, h]

/-- What may not start is not let go either. -/
theorem purgeRing_of_not_canStart {d : Dev} {n r : Nat} (h : ∀ q, canStart d n r q = false) : purgeRing d n r = d := by
  unfold purgeRing
  cases hq : (ringSt d n r).queue with
  | nil => rfl
  | cons q qs =>
    unfold purge
    simp [hq, h q]

/-- Settles O43. -/
theorem waitHoldsItsRing : Obligations.WaitHoldsItsRing := by
  unfold Obligations.WaitHoldsItsRing
  intro d f r key m park chk act hw
  have hstop := canStart_of_waitHolds hw
  unfold startDesc
  cases hq : (ringSt d f r).queue with
  | nil => rfl
  | cons q qs =>
    dsimp only
    rw [if_pos (.inr (hstop q))]
    exact purgeRing_of_not_canStart hstop

/-! ### Counters (R478) -/

/-- A freeze that finds the domain up and the engine idle latches the counters. -/
theorem freeze_ctr {d : Dev} {cp : Nat} {jobs : List (Nat × Nat × Nat)} (hup : domUp d 4 = true) (hidle : d.ctr.busy = false) :
    (freeze d cp jobs).ctr = { d.ctr with shadow := d.ctr.now, openBase := d.freeCtr, freezeDt := d.dt + freezeDelay,
                                          busy := decide (jobs ≠ []), jobs := jobs, fromCp := cp } := by
  unfold freeze
  rw [hup, hidle]
  rfl

/-- A count after T leaves the shadow alone. -/
theorem count_after_freeze {e : Dev} (h : e.ctr.freezeDt < e.dt) (i n : Nat) :
    (count e i n).ctr.shadow = e.ctr.shadow ∧ (count e i n).ctr.now = SMap.mod e.ctr.now i (fun x => (x + n) % 2 ^ 64) := by
  have hlate : ¬ (e.dt ≤ e.ctr.freezeDt ∧ e.ctr.freezeDt ≠ 0) := by omega
  rw [count_ctr, if_neg hlate]
  exact ⟨rfl, rfl⟩

/-- A count up to T enters the shadow too. -/
theorem count_before_freeze {e : Dev} (h : e.dt ≤ e.ctr.freezeDt) (h0 : e.ctr.freezeDt ≠ 0) (i : Nat) {n : Nat} (hn : n ≠ 0) :
    (count e i n).ctr.shadow = SMap.mod e.ctr.shadow i (fun x => (x + n) % 2 ^ 64) ∧
    (count e i n).ctr.now = SMap.mod e.ctr.now i (fun x => (x + n) % 2 ^ 64) := by
  rw [count_ctr, if_pos ⟨h, h0⟩]
  exact ⟨if_neg hn, rfl⟩

/-- Settles O47. -/
theorem freezeLatchesEveryCounter : Obligations.FreezeLatchesEveryCounter := by
  unfold Obligations.FreezeLatchesEveryCounter
  intro d cp jobs hup hidle
  rw [freeze_ctr hup hidle]
  refine ⟨rfl, rfl, rfl, fun e i n he hlate => ?_, fun e i n he hearly hn => ?_⟩
  · have hcount := count_after_freeze (e := e) (by rw [he]; exact hlate) i n
    rwa [he] at hcount
  · have hT : e.ctr.freezeDt ≠ 0 := by
      rw [he]
      exact Nat.succ_ne_zero _
    have hcount := count_before_freeze (e := e) (by rw [he]; exact hearly) hT i hn
    rwa [he] at hcount

/-! ### The error log (R485) -/

/-- An error that merges into the newest record raises its count and changes nothing else. -/
theorem logErr_merge {d : Dev} {cause mid addr : Nat} {e : ErrRec} {es : List ErrRec} (data : Word) (sec : Bool)
    (h : d.err.recs = e :: es) (hm : e.cause = cause ∧ e.mid = mid ∧ e.addr = addr ∧ d.dt - e.last ≤ 1000 ∧ e.count < 255) :
    logErr d cause mid addr data sec =
      { d with err := { d.err with recs := { e with count := e.count + 1, last := d.dt } :: es } } := by
  unfold logErr
  simp only [h, if_pos hm]

/-- The record that a new error makes (R485, R487). -/
def freshRec (d : Dev) (cause mid addr : Nat) (data : Word) (sec : Bool) : ErrRec :=
  { cause := cause, mid := mid, count := 1, addr := addr, data := data, dt := d.dt, last := d.dt,
    seq := (d.err.seq + 1) % 2 ^ 32, secure := sec }

/-- An error that does not merge is a new record in front. -/
theorem logErr_fresh {d : Dev} {cause mid addr : Nat} (data : Word) (sec : Bool)
    (h : ∀ e, d.err.recs.head? = some e →
      ¬ (e.cause = cause ∧ e.mid = mid ∧ e.addr = addr ∧ d.dt - e.last ≤ 1000 ∧ e.count < 255)) :
    (logErr d cause mid addr data sec).err.recs = freshRec d cause mid addr data sec :: d.err.recs.take 255 := by
  have hwrite : ∀ (c : Prop) [Decidable c] (x : Dev) (n : Nat),
      x.err.recs = (freshRec d cause mid addr data sec :: d.err.recs).take 256 →
      (fs (if c then bump x ER_STATUS ER_STATUS_OVERWRITTEN else x) ER_STATUS ER_STATUS_FILL n).err.recs =
        freshRec d cause mid addr data sec :: d.err.recs.take 255 := by
    intro c _ x n hx
    split <;> exact hx
  unfold logErr
  dsimp only
  split
  · exact hwrite _ _ _ rfl
  · next e es he =>
    rw [if_neg (h e (by rw [he]; rfl))]
    exact hwrite _ _ _ rfl

/-- Settles O48. -/
theorem errorsMerge : Obligations.ErrorsMerge := by
  unfold Obligations.ErrorsMerge
  intro d cause mid addr data sec
  refine ⟨fun e es h hcause hmid haddr hlast hcount => ?_, fun h => ?_⟩
  · rw [logErr_merge data sec h ⟨hcause, hmid, haddr, hlast, hcount⟩]
    exact ⟨rfl, rfl⟩
  · exact ⟨_, logErr_fresh data sec h, rfl, rfl, rfl, rfl, rfl, rfl, rfl⟩

/-! ### Secure holds (R386) -/

/-- The field of SE_HOLD that an operation counts in: power for 0 and 1, the clock for 2 and 3. -/
def holdFld (op : Nat) : Fld := if op ≤ 1 then SE_HOLD_PWR else SE_HOLD_CLK

/-- An acquire at 255 and a release at 0 are turned away with CONFLICT. -/
theorem doHoldOp_limit {op k : Nat} {a : Acc} {n : Word} {d0 d : Dev}
    (hw : Written d0 a SE_HOLD_OP (BitVec.ofNat 32 (op * 2 ^ 30 + k)) d n)
    (h : (op % 2 = 0 ∧ fg d0 (SE_HOLD k) (holdFld op) = 255) ∨ (op % 2 = 1 ∧ fg d0 (SE_HOLD k) (holdFld op) = 0)) :
    doHoldOp op a k d0 = logErr (serveDomain d0 (domOf SE_HOLD_OP)).1 ecCONFLICT a.mid.toNat SE_HOLD_OP
      (BitVec.ofNat 32 (op * 2 ^ 30 + k)) a.secure := by
  unfold doHoldOp
  dsimp only
  rw [guardWrite_bad hw (if_pos h)]

/-- Settles O49. -/
theorem holdsStayInRange : Obligations.HoldsStayInRange := by
  unfold Obligations.HoldsStayInRange
  intro s a k d n
  refine ⟨fun hw h => ?_, fun hw h => ?_, fun hw h => ?_, fun hw h => ?_⟩
  · rw [← Nat.zero_add k.val, ← Nat.zero_mul (2 ^ 30)] at hw ⊢
    exact congrArg (after s) (doHoldOp_limit (op := 0) hw (.inl ⟨rfl, h⟩))
  · rw [← Nat.one_mul (2 ^ 30)] at hw ⊢
    exact congrArg (after s) (doHoldOp_limit (op := 1) hw (.inr ⟨rfl, h⟩))
  · exact congrArg (after s) (doHoldOp_limit (op := 2) hw (.inl ⟨rfl, h⟩))
  · exact congrArg (after s) (doHoldOp_limit (op := 3) hw (.inr ⟨rfl, h⟩))

/-! ### Stale records (R405) -/

/-- A record with an old crew epoch is counted and answered with REJECT, whatever it would have done. -/
theorem takeRec_stale {h : RecHdr} {d0 d : Dev} (h0 : dhState d0 ≠ 0) (h7 : dhState d0 ≠ 7) (hup : domUp d0 15 = true)
    (hd : d = onPair (count d0 637) (fun x => { x with authRun := 0 })) (hs : staleRec d h = true) (g : Dev → Dev) :
    takeRec h g d0 = bump (sendBack d 0x0D [crewEpoch d]) DH_REJECT DH_REJECT_COUNT := by
  subst hd
  unfold takeRec
  simp only [h0, h7, hup, hs, Bool.not_true, Bool.false_eq_true, or_self, if_false, if_true]

/-- Settles O50. -/
theorem staleRecordIsRejected : Obligations.StaleRecordIsRejected := by
  unfold Obligations.StaleRecordIsRejected
  intro s h d e h0 h7 hup hd hs he
  have hreject : ∀ g, takeRec h g s.dev = e := fun g => (takeRec_stale h0 h7 hup hd hs g).trans he.symm
  have hbanker : ∀ g, bankerRec h g s.dev = e := fun g => hreject _
  exact ⟨fun addr bytes mask => congrArg (after s) (hbanker (applyWrite addr bytes mask.toNat)),
    fun item => congrArg (after s) (hbanker (applyItem item)),
    fun f r slot ws tables => congrArg (after s) (hbanker (applyDesc f r slot ws tables)),
    fun upTo rtt => congrArg (after s) (hreject (applyAck upTo.toNat rtt))⟩

end Sys2Proof.Machine
end

section
/-! SUPPORT. Memory through a function's translation: where a normal function's accesses go (R132, R381), and which bytes a write
of the device changes (R131, R140). -/

namespace Sys2Proof.Machine

/-! ### Where a translation leads -/

/-- A leaf that answers a place in the local memory answers one that is installed, lies outside the Freight region, and that a
function which is not secure may reach (R132, R232, R381). -/
theorem leaf_dram {d : Dev} {e level iova : Nat} {isWr ats : Bool} {a : Nat}
    (h : leaf d e level iova isWr false ats = .ok (.dram a)) :
    dramSecureTop d ≤ a ∧ a < dramSize d ∧ inFreight d a = false := by
  unfold leaf at h
  simp only [ite_eq_iff, reduceCtorEq, and_false, false_or, MmuRes.ok.injEq, Place.dram.injEq, or_false] at h
  obtain ⟨-, -, -, -, hsize, hfreight, hsecure, rfl⟩ := h
  simp only [Bool.not_false, and_true, not_lt] at hsecure
  exact ⟨hsecure, not_le.1 hsize, Bool.eq_false_iff.2 hfreight⟩

/-- So does a walk: it ends in a leaf. -/
theorem walk_dram {d : Dev} {n iova : Nat} {isWr ats : Bool} {fuel level table a : Nat}
    (h : walk d n iova isWr false ats fuel level table = .ok (.dram a)) :
    dramSecureTop d ≤ a ∧ a < dramSize d ∧ inFreight d a = false := by
  induction fuel generalizing level table with
  | zero => cases h
  | succ fuel ih =>
    unfold walk at h
    dsimp only at h
    split at h
    · cases h
    · split at h
      · cases h
      · split at h
        · split at h
          · exact leaf_dram h
          · split at h
            · cases h
            · exact ih h
        · split at h
          · exact leaf_dram h
          · cases h

/-- Settles O38. -/
theorem normalFunctionsStayAboveTheWatermark : Obligations.NormalFunctionsStayAboveTheWatermark := by
  unfold Obligations.NormalFunctionsStayAboveTheWatermark
  intro d n iova isWr ats a hsec h
  unfold translate at h
  rw [hsec] at h
  split at h
  · cases h
  · split at h
    · cases h
    · exact walk_dram h

/-! ### The bytes that a store changes -/

theorem dramByte_store_of_lt {d : Dev} {a k : Nat} {bs : List Byte} (h : k < bs.length) :
    dramByte (dramStore d a bs) (a + k) = bs.getD k 0 := by
  rw [dramByte_dramStore, dif_pos ⟨Nat.le_add_right a k, Nat.add_lt_add_left h a⟩]
  simp [h]

theorem dramByte_store_of_outside {d : Dev} {a x : Nat} {bs : List Byte} (h : x < a ∨ a + bs.length ≤ x) :
    dramByte (dramStore d a bs) x = dramByte d x := by
  rw [dramByte_dramStore, dif_neg (by omega)]

theorem length_leBytes (n v : Nat) : (leBytes n v).length = n := by
  induction n generalizing v with
  | zero => rfl
  | succ n ih => simp [leBytes, ih]

/-! ### Mirroring and logging beside a store (R140, R413) -/

theorem AccessKeeps.setForward (d : Dev) (l : List Nat) : AccessKeeps d (setForward d l) :=
  ⟨rfl, rfl, rfl, rfl, rfl, rfl, rfl, rfl, rfl, rfl⟩

theorem AccessKeeps.forwardLine (d : Dev) (ws : List Nat) : AccessKeeps d (forwardLine d ws) := by
  unfold Machine.forwardLine
  dsimp only
  split
  · exact ((AccessKeeps.bump ..).trans (.setForward ..)).trans (.linkSend ..)
  · exact (AccessKeeps.setForward ..).trans (.linkSend ..)

theorem AccessKeeps.foldl {α : Type} {f : Dev → α → Dev} (h : ∀ d x, AccessKeeps d (f d x)) (l : List α) (d : Dev) :
    AccessKeeps d (l.foldl f d) := by
  induction l generalizing d with
  | nil => exact .refl d
  | cons x l ih => exact (h d x).trans (ih (f d x))

theorem AccessKeeps.mirrorLines (d : Dev) (a len : Nat) : AccessKeeps d (mirrorLines d a len) := by
  unfold Machine.mirrorLines
  split
  · refine .foldl (fun d k => ?_) ..
    dsimp only
    split
    · exact .forwardLine ..
    · exact .refl d
  · exact .refl d

theorem AccessKeeps.cleanLines (d : Dev) (a len : Nat) : AccessKeeps d (cleanLines d a len) := by
  unfold Machine.cleanLines
  split
  · exact .refl d
  · exact ⟨rfl, rfl, rfl, rfl, rfl, rfl, rfl, rfl, rfl, rfl⟩

/-- Bytes that go to the host change nothing that an access leaves alone. -/
theorem AccessKeeps.place_host (d : Dev) (n iova a : Nat) (bs : List Byte) : AccessKeeps d (place d n iova (.host a) bs) := by
  unfold place
  dsimp only
  split
  · exact ⟨rfl, rfl, rfl, rfl, rfl, rfl, rfl, rfl, rfl, rfl⟩
  · exact .emit ..

/-- Bytes that go to the local memory stand where they are put. -/
theorem place_byte_of_lt {d : Dev} {n iova a k : Nat} {bs : List Byte} (h : k < bs.length) :
    dramByte (place d n iova (.dram a) bs) (a + k) = bs.getD k 0 :=
  ((AccessKeeps.mirrorLines ..).byte _).trans (dramByte_store_of_lt h)

/-- Beside the bytes that it puts into the local memory a store changes none. -/
theorem place_byte_of_outside {d : Dev} {n iova x : Nat} {p : Place} {bs : List Byte}
    (h : ∀ a, p = .dram a → x < a ∨ a + bs.length ≤ x) : dramByte (place d n iova p bs) x = dramByte d x := by
  cases p with
  | dram a =>
    calc dramByte (place d n iova (.dram a) bs) x
        = dramByte (dramStore (cleanLines d a bs.length) a bs) x := (AccessKeeps.mirrorLines ..).byte x
      _ = dramByte (cleanLines d a bs.length) x := dramByte_store_of_outside (h a rfl)
      _ = dramByte d x := (AccessKeeps.cleanLines ..).byte x
  | host a => exact (AccessKeeps.place_host ..).byte x

theorem place_dirty (d : Dev) (n iova : Nat) (p : Place) (bs : List Byte) : (place d n iova p bs).dirty = d.dirty := by
  cases p with
  | dram a =>
    calc (place d n iova (.dram a) bs).dirty
        = (dramStore (cleanLines d a bs.length) a bs).dirty := (AccessKeeps.mirrorLines ..).dirty
      _ = d.dirty := (AccessKeeps.cleanLines ..).dirty
  | host a => exact (AccessKeeps.place_host ..).dirty

theorem place_fns (d : Dev) (n iova : Nat) (p : Place) (bs : List Byte) : (place d n iova p bs).fns = d.fns := by
  cases p with
  | dram a =>
    calc (place d n iova (.dram a) bs).fns
        = (dramStore (cleanLines d a bs.length) a bs).fns := (AccessKeeps.mirrorLines ..).fns
      _ = d.fns := (AccessKeeps.cleanLines ..).fns
  | host a => exact (AccessKeeps.place_host ..).fns

/-- A store moves no bitmap. -/
theorem dirtyMap_place (d : Dev) (n iova : Nat) (p : Place) (bs : List Byte) (f : Nat) :
    dirtyMap (place d n iova p bs) f = dirtyMap d f := by
  unfold dirtyMap fnSt
  rw [place_fns]

/-- The dirty cache has no part in a walk, nor in a translation. -/
theorem walk_dirty (d : Dev) (l : List DirtyWord) (n iova : Nat) (isWr sec ats : Bool) (fuel level table : Nat) :
    walk { d with dirty := l } n iova isWr sec ats fuel level table = walk d n iova isWr sec ats fuel level table := by
  induction fuel generalizing level table with
  | zero => rfl
  | succ fuel ih =>
    unfold walk
    simp only [ih]
    rfl

theorem translate_dirty (d : Dev) (l : List DirtyWord) (n iova : Nat) (isWr ats : Bool) :
    translate { d with dirty := l } n iova isWr ats = translate d n iova isWr ats := by
  unfold translate
  simp only [walk_dirty]
  rfl

theorem dirtyMap_dirty (d : Dev) (l : List DirtyWord) (f : Nat) : dirtyMap { d with dirty := l } f = dirtyMap d f := rfl

/-- A word of a bitmap that takes bits changes no byte beside its own eight. -/
theorem setMemBits_byte {d : Dev} {iova v x : Nat}
    (h : ∀ b, translate d 0 iova true = .ok (.dram b) → x < b ∨ b + 8 ≤ x) :
    dramByte (setMemBits d iova v).1 x = dramByte d x := by
  unfold setMemBits
  split
  · exact dramByte_congr rfl rfl x
  · next b hb =>
    refine ((AccessKeeps.mirrorLines ..).byte x).trans (dramByte_store_of_outside ?_)
    rw [length_leBytes]
    exact h b hb
  · exact (AccessKeeps.emit ..).byte x

/-- The address x lies outside the word of a bitmap that the dirty cache, where it is full, puts into memory to make room: F0's
translation on the device d puts it there (R140, notes/assumptions/100). -/
def EvictsBeside (d : Dev) (x : Nat) : Prop :=
  512 ≤ d.dirty.length → ∀ y b, d.dirty.getLast? = some y →
    translate d 0 (dirtyMap d y.f + 8 * y.word) true = .ok (.dram b) → x < b ∨ b + 8 ≤ x

/-- A page that is logged dirty changes no byte but those of the word that makes room. -/
theorem logDirty_byte {d : Dev} {n iova x : Nat} (h : EvictsBeside d x) : dramByte (logDirty d n iova) x = dramByte d x := by
  unfold logDirty
  dsimp only
  split
  · split
    · exact dramByte_congr rfl rfl x
    · unfold evictDirty
      split
      · next y hy =>
        split
        · next hlen =>
          have hfull : 512 ≤ d.dirty.length := Nat.le_of_lt_succ hlen
          have hlast : d.dirty.getLast? = some y := by
            rwa [List.getLast?_cons_of_ne_nil (List.ne_nil_of_length_pos (by omega))] at hy
          unfold writeDirty
          split
          · refine (setMemBits_byte fun b hb => ?_).trans (dramByte_congr rfl rfl x)
            rw [translate_dirty, dirtyMap_dirty] at hb
            exact h hfull y b hlast hb
          · exact dramByte_congr rfl rfl x
        · exact dramByte_congr rfl rfl x
      · exact dramByte_congr rfl rfl x
  · rfl

/-- A store leaves the dirty cache and the bitmaps where they were: the word that makes room is the device's before the store. -/
theorem evictsBeside_place {d : Dev} {n iova x : Nat} {p : Place} {bs : List Byte} (h : 512 ≤ d.dirty.length →
    ∀ y b, d.dirty.getLast? = some y →
      translate (place d n iova p bs) 0 (dirtyMap d y.f + 8 * y.word) true = .ok (.dram b) → x < b ∨ b + 8 ≤ x) :
    EvictsBeside (place d n iova p bs) x := by
  unfold EvictsBeside
  simpa only [place_dirty, dirtyMap_place] using h

/-! ### A write of the device (R131, R140) -/

/-- A write that translates leaves each byte as its store makes it, but for the word that makes room in the dirty cache. -/
theorem memWritePage_byte {d : Dev} {n mid iova x : Nat} {bs : List Byte} {p : Place} (hp : translate d n iova true = .ok p)
    (h : EvictsBeside (place d n iova p bs) x) :
    dramByte (memWritePage d n mid iova bs).1 x = dramByte (place d n iova p bs) x := by
  unfold memWritePage
  rw [hp]
  exact ((AccessKeeps.count ..).byte x).trans (logDirty_byte h)

/-- A write that faults is noted and stores nothing. -/
theorem memWritePage_fault {d : Dev} {n mid iova t : Nat} (bs : List Byte) (h : translate d n iova true = .fault t) :
    memWritePage d n mid iova bs = (noteFault d n mid t iova true, false) := by
  unfold memWritePage
  rw [h]

/-- A write whose pages do not all translate is noted and stores nothing. -/
theorem memWrite_fault {d : Dev} {n mid iova : Nat} {bs : List Byte} {y : Nat × Nat}
    (h : firstFault d n true false (pagesOf iova bs.length) = some y) :
    memWrite d n mid iova bs = (noteFault d n mid y.1 y.2 true, false) := by
  unfold memWrite
  rw [h]

/-- A range inside one page enters no other. -/
theorem pagesOf_inside {iova len : Nat} (h : iova % 4096 + len ≤ 4096) : pagesOf iova len = [iova] := by
  unfold pagesOf
  have hpages : (iova + len - 1) / 4096 - iova / 4096 = 0 := by omega
  rw [hpages]
  rfl

/-- A write inside one page is one store. -/
theorem memWrite_inside {d : Dev} {n mid iova : Nat} {bs : List Byte} (h : iova % 4096 + bs.length ≤ 4096) :
    memWrite d n mid iova bs = memWritePage d n mid iova bs := by
  unfold memWrite
  rw [pagesOf_inside h]
  cases ht : translate d n iova true with
  | fault t => simp [firstFault, ht, memWritePage_fault bs ht]
  | ok p => simp [firstFault, ht, h]

/-- Settles O39. -/
theorem translatedWriteFrame : Obligations.TranslatedWriteFrame := by
  unfold Obligations.TranslatedWriteFrame
  intro d n mid iova bs
  refine ⟨fun p x hp hout hevict => ?_, fun t ht => ?_, memWrite_inside, fun y hy => ?_⟩
  · exact (memWritePage_byte hp (evictsBeside_place hevict)).trans (place_byte_of_outside hout)
  · rw [memWritePage_fault bs ht]
    exact ⟨rfl, fun x => dramByte_congr rfl rfl x⟩
  · rw [memWrite_fault hy]
    exact ⟨rfl, fun x => dramByte_congr rfl rfl x⟩

/-- Settles O51. -/
theorem translatedWriteStores : Obligations.TranslatedWriteStores := by
  unfold Obligations.TranslatedWriteStores
  intro d e n mid iova bs a hw hp k hk hevict
  have hbyte := memWritePage_byte (mid := mid) (bs := bs) (x := a + k) hp (evictsBeside_place hevict)
  rw [hw] at hbyte
  exact hbyte.trans (place_byte_of_lt hk)

end Sys2Proof.Machine
end

section
/-! SUPPORT. The arithmetic of rasters: strip boundaries (R30, R70), and the lines of a raster in device time (R72, R80). -/

namespace Sys2Proof.Machine

/-! ### Strip boundaries -/

theorem cdiv_eq_ceilDiv (a b : Nat) : cdiv a b = a ⌈/⌉ b := rfl

/-- A number rounded up to a multiple lies at or below every multiple that it does not exceed. -/
theorem cdiv_mul_le {l h m : Nat} (hh : 0 < h) (hdvd : m % h = 0) (hle : l ≤ m) : cdiv l h * h ≤ m := by
  obtain ⟨c, rfl⟩ := Nat.dvd_of_mod_eq_zero hdvd
  rw [cdiv_eq_ceilDiv, Nat.mul_comm h c]
  exact Nat.mul_le_mul_right h ((ceilDiv_le_iff_le_mul hh).2 hle)

theorem le_cdiv_mul {l h : Nat} (hh : 0 < h) : l ≤ cdiv l h * h := by
  rw [cdiv_eq_ceilDiv]
  rw [Nat.mul_comm]
  exact (ceilDiv_le_iff_le_mul hh).1 le_rfl

/-- The first line of the last strip of a frame (R30). -/
def Raster.lastBoundary (x : Raster) (h : Nat) : Nat := (x.vact - 1) / h * h

theorem Raster.lastBoundary_lt {x : Raster} (h : Nat) (hact : 0 < x.vact) : x.lastBoundary h < x.vact :=
  Nat.lt_of_le_of_lt (Nat.div_mul_le_self ..) (Nat.sub_lt hact Nat.one_pos)

/-- No boundary of a frame lies behind the last. -/
theorem Raster.le_lastBoundary {x : Raster} {h l : Nat} (hl : l < x.vact) (hdvd : l % h = 0) : l ≤ x.lastBoundary h :=
  calc l = l / h * h := (Nat.div_mul_cancel (Nat.dvd_of_mod_eq_zero hdvd)).symm
    _ ≤ (x.vact - 1) / h * h := Nat.mul_le_mul_right h (Nat.div_le_div_right (Nat.le_sub_one_of_lt hl))

/-- Line l of frame f is a boundary where l is one inside the active height. -/
theorem Raster.boundary_line {x : Raster} {h l : Nat} (f : Nat) (hl : l < x.vact) (hfit : x.vact ≤ x.vtot) (hdvd : l % h = 0) :
    x.boundary h (f * x.vtot + l) := by
  unfold Raster.boundary
  rw [Nat.mul_add_mod', Nat.mod_eq_of_lt (Nat.lt_of_lt_of_le hl hfit)]
  exact ⟨hl, hdvd⟩

/-- The landing line: the line rounded up to a boundary of its frame, or the start of the next frame. -/
theorem boundaryFrom_cases (x : Raster) (h a : Nat) :
    (a % x.vtot ≤ x.lastBoundary h ∧ boundaryFrom x h a = a / x.vtot * x.vtot + cdiv (a % x.vtot) h * h) ∨
    (x.lastBoundary h < a % x.vtot ∧ boundaryFrom x h a = (a / x.vtot + 1) * x.vtot + 0) := by
  unfold boundaryFrom Raster.lastBoundary
  dsimp only
  split
  · exact .inl ⟨‹_›, rfl⟩
  · exact .inr ⟨not_le.1 ‹_›, rfl⟩

/-- Settles O41. -/
theorem landingIsTheNextBoundary : Obligations.LandingIsTheNextBoundary := by
  unfold Obligations.LandingIsTheNextBoundary
  intro x h a hh hact hfit
  have hlast := Raster.lastBoundary_lt h hact
  have ha := Nat.div_add_mod' a x.vtot
  have hline := Nat.mod_lt a (Nat.lt_of_lt_of_le hact hfit)
  have hnext : (a / x.vtot + 1) * x.vtot = a / x.vtot * x.vtot + x.vtot := Nat.succ_mul ..
  have hround := le_cdiv_mul (l := a % x.vtot) hh
  obtain ⟨hin, e⟩ | ⟨hbehind, e⟩ := boundaryFrom_cases x h a <;> rw [e]
  · have hup : cdiv (a % x.vtot) h * h ≤ x.lastBoundary h := cdiv_mul_le hh (Nat.mul_mod_left ..) hin
    refine ⟨Raster.boundary_line _ (by omega) hfit (Nat.mul_mod_left ..), by omega, fun b hb hab => ?_⟩
    have hbl := Nat.div_add_mod' b x.vtot
    obtain hsame | hlater := Nat.eq_or_lt_of_le (Nat.div_le_div_right hab : a / x.vtot ≤ b / x.vtot)
    · have : cdiv (a % x.vtot) h * h ≤ b % x.vtot := cdiv_mul_le hh hb.2 (by rw [hsame] at ha; omega)
      rw [hsame]
      omega
    · have : (a / x.vtot + 1) * x.vtot ≤ b / x.vtot * x.vtot := Nat.mul_le_mul_right x.vtot hlater
      omega
  · refine ⟨Raster.boundary_line _ hact hfit (Nat.zero_mod h), by omega, fun b hb hab => ?_⟩
    have hbl := Nat.div_add_mod' b x.vtot
    obtain hsame | hlater := Nat.eq_or_lt_of_le (Nat.div_le_div_right hab : a / x.vtot ≤ b / x.vtot)
    · have := Raster.le_lastBoundary hb.1 hb.2
      rw [hsame] at ha
      omega
    · have : (a / x.vtot + 1) * x.vtot ≤ b / x.vtot * x.vtot := Nat.mul_le_mul_right x.vtot hlater
      omega

/-! ### The lines of a raster in device time -/

/-- The reference line of a raster, as an absolute line. -/
def Raster.ref (x : Raster) : Nat := x.fRef * x.vtot + x.lRef

/-- Every line of the raster lasts a nanosecond or more, a line that carries its share of framelock's correction too. -/
structure Raster.Ticks (x : Raster) : Prop where
  den : 0 < x.pxDen
  lines : 0 < x.vtot
  plain : x.pxDen ≤ x.htot * x.pxNum
  corrected : (x.pxDen : Int) ≤ ((x.htot : Int) + x.corr / (x.vtot : Int)) * (x.pxNum : Int)

theorem Raster.Ticks.num_pos {x : Raster} (h : x.Ticks) : 0 < x.pxNum :=
  Nat.pos_of_mul_pos_left (Nat.lt_of_lt_of_le h.den h.plain)

theorem Raster.Ticks.htot_pos {x : Raster} (h : x.Ticks) : 0 < x.htot :=
  Nat.pos_of_mul_pos_right (Nat.lt_of_lt_of_le h.den h.plain)

/-- What framelock has added by the start of the k-th line after the reference line, while the frame that carries it runs. -/
theorem lineClocks_inside {x : Raster} {k : Nat} (hv : 0 < x.vtot) (hk : k ≤ x.vtot) :
    lineClocks x k = (k : Int) * x.htot + x.corr * k / x.vtot := by
  unfold lineClocks
  congr 1
  split
  · next h0 =>
    obtain h0 | h0 := h0
    · rw [h0]; simp
    · rw [le_antisymm h0 (Int.natCast_nonneg k)]; simp
  · split
    · rfl
    · have hkv : k = x.vtot := by omega
      rw [hkv, Int.mul_ediv_cancel _ (by omega)]

/-- Behind that frame the whole correction is in. -/
theorem lineClocks_behind {x : Raster} {k : Nat} (hv : 0 < x.vtot) (hk : x.vtot ≤ k) :
    lineClocks x k = (k : Int) * x.htot + x.corr := by
  unfold lineClocks
  congr 1
  split
  · next h0 =>
    obtain h0 | h0 := h0
    · exact h0.symm
    · omega
  · exact if_neg (by omega)

/-- Floors add up to no more than the floor of the sum. -/
theorem ediv_add_ediv_le (a b : Int) {v : Int} (hv : 0 < v) : a / v + b / v ≤ (a + b) / v := by
  rw [Int.le_ediv_iff_mul_le hv, Int.add_mul]
  exact Int.add_le_add (Int.ediv_mul_le a hv.ne') (Int.ediv_mul_le b hv.ne')

/-- From one line to the next pass the clocks of a nanosecond at least. -/
theorem lineClocks_step {x : Raster} (h : x.Ticks) (k : Nat) :
    lineClocks x k * x.pxNum + x.pxDen ≤ lineClocks x (k + 1 : Nat) * x.pxNum := by
  obtain hk | hk := Nat.lt_or_ge k x.vtot
  · have hfloor : x.corr * k / x.vtot + x.corr / x.vtot ≤ x.corr * (k + 1 : Nat) / x.vtot := by
      have := ediv_add_ediv_le (x.corr * k) x.corr (v := x.vtot) (by exact_mod_cast h.lines)
      rwa [Nat.cast_succ, mul_add, mul_one]
    rw [lineClocks_inside h.lines hk.le, lineClocks_inside h.lines hk]
    have hpx : (0 : Int) ≤ x.pxNum := Int.natCast_nonneg _
    have hstep := h.corrected
    push_cast at hfloor ⊢
    nlinarith
  · rw [lineClocks_behind h.lines hk, lineClocks_behind h.lines (by omega)]
    have hstep : (x.pxDen : Int) ≤ x.htot * x.pxNum := by exact_mod_cast h.plain
    push_cast
    linarith

/-- No line starts before the reference line. -/
theorem lineClocks_nonneg {x : Raster} (h : x.Ticks) (k : Nat) : 0 ≤ lineClocks x k := by
  induction k with
  | zero => simp [lineClocks]
  | succ k ih =>
    have hstep := lineClocks_step h k
    have hden : (0 : Int) < x.pxDen := by exact_mod_cast h.den
    have hnum : (0 : Int) < x.pxNum := by exact_mod_cast h.num_pos
    nlinarith

/-- The pixel clocks to the k-th line after the reference line, as a number. -/
def Raster.clocksTo (x : Raster) (k : Nat) : Nat := (lineClocks x k).toNat

theorem Raster.Ticks.clocksTo_cast {x : Raster} (h : x.Ticks) (k : Nat) : (x.clocksTo k : Int) = lineClocks x k :=
  Int.toNat_of_nonneg (lineClocks_nonneg h k)

theorem Raster.Ticks.clocksTo_step {x : Raster} (h : x.Ticks) (k : Nat) :
    x.clocksTo k * x.pxNum + x.pxDen ≤ x.clocksTo (k + 1) * x.pxNum := by
  have hstep := lineClocks_step h k
  rw [← h.clocksTo_cast, ← h.clocksTo_cast] at hstep
  exact_mod_cast hstep

/-- The device time of the k-th line after the reference line. -/
theorem Raster.Ticks.dtOfAbs_ref_add {x : Raster} (h : x.Ticks) (k : Nat) :
    dtOfAbs x (x.ref + k) = x.dtRef + x.clocksTo k * x.pxNum / x.pxDen := by
  unfold dtOfAbs
  have hk : ((x.ref + k : Nat) : Int) - (x.fRef * x.vtot + x.lRef : Nat) = k := by
    unfold Raster.ref
    push_cast
    ring
  rw [hk, ← h.clocksTo_cast]
  exact_mod_cast Int.toNat_natCast _

/-- Pixel clock j has begun τ nanoseconds after the reference exactly when its start, rounded down, is no later. -/
theorem Raster.Ticks.le_clocksAt {x : Raster} (h : x.Ticks) (τ j : Nat) :
    j ≤ clocksAt x (x.dtRef + τ) ↔ j * x.pxNum / x.pxDen ≤ τ := by
  unfold clocksAt
  have hbegun : j * x.pxNum / x.pxDen ≤ τ ↔ j * x.pxNum < (τ + 1) * x.pxDen :=
    Nat.lt_succ_iff.symm.trans (Nat.div_lt_iff_lt_mul h.den)
  rw [Nat.add_sub_cancel_left, Nat.le_div_iff_mul_le h.num_pos, hbegun]
  exact Nat.le_sub_one_iff_lt (Nat.mul_pos (Nat.succ_pos τ) h.den)

/-- The correction of a frame takes no more than the frame. -/
theorem Raster.Ticks.frame_pos {x : Raster} (h : x.Ticks) : 0 < (x.htot : Int) * x.vtot + x.corr := by
  have hden : (0 : Int) < x.pxDen := by exact_mod_cast h.den
  have hv : (0 : Int) < x.vtot := by exact_mod_cast h.lines
  have hline : 0 < (x.htot : Int) + x.corr / x.vtot :=
    pos_of_mul_pos_left (lt_of_lt_of_le hden h.corrected) (Int.natCast_nonneg _)
  have hfloor := Int.ediv_mul_le x.corr hv.ne'
  nlinarith

/-- The line count of a corrected frame: j lines have begun within n clocks exactly when the frame's clocks allow it. -/
theorem Raster.Ticks.le_frameLines {x : Raster} (h : x.Ticks) {j : Nat} (hj : j ≤ x.vtot) (n : Nat) :
    (j : Int) ≤ ((((n + 1) * x.vtot : Nat) : Int) - 1) / ((x.htot : Int) * x.vtot + x.corr) ↔ x.clocksTo j ≤ n := by
  have hv : (0 : Int) < x.vtot := by exact_mod_cast h.lines
  have hcast : x.clocksTo j ≤ n ↔ lineClocks x j ≤ n := by
    rw [← h.clocksTo_cast]
    exact Int.ofNat_le.symm
  have hfloor : x.corr * j / x.vtot < n - j * x.htot + 1 ↔ x.corr * j < (n - j * x.htot + 1) * x.vtot :=
    Int.ediv_lt_iff_lt_mul hv
  rw [hcast, lineClocks_inside h.lines hj, Int.le_ediv_iff_mul_le h.frame_pos]
  push_cast
  constructor
  · intro hle
    have := hfloor.2 (by nlinarith)
    linarith
  · intro hle
    have := hfloor.1 (by linarith)
    nlinarith

/-- The lines that n clocks make are those whose clocks are at most n. -/
theorem Raster.Ticks.linesIn_eq {x : Raster} (h : x.Ticks) {n k : Nat} (hle : x.clocksTo k ≤ n) (hlt : n < x.clocksTo (k + 1)) :
    linesIn x n = k := by
  have hleL : lineClocks x k ≤ n := h.clocksTo_cast k ▸ Int.ofNat_le.2 hle
  have hltL : (n : Int) < lineClocks x (k + 1 : Nat) := h.clocksTo_cast (k + 1) ▸ Int.ofNat_lt.2 hlt
  have hh : (0 : Int) < x.htot := by exact_mod_cast h.htot_pos
  unfold linesIn
  split
  · next hc =>
    simp only [lineClocks, hc, true_or, if_true, add_zero] at hleL hltL
    exact Nat.div_eq_of_lt_le (by exact_mod_cast hleL) (by exact_mod_cast hltL)
  · dsimp only
    obtain hk | hk := Nat.lt_or_ge k x.vtot
    · have hlow := (h.le_frameLines hk.le n).2 hle
      have hhigh := mt (h.le_frameLines hk n).1 (not_le.2 hlt)
      push_cast at hlow hhigh ⊢
      rw [if_pos (by omega)]
      omega
    · have hfull : x.clocksTo x.vtot ≤ n := by
        have hv : lineClocks x x.vtot ≤ lineClocks x k := by
          rw [lineClocks_behind h.lines le_rfl, lineClocks_behind h.lines hk]
          have : (x.vtot : Int) ≤ k := by exact_mod_cast hk
          nlinarith
        rw [← h.clocksTo_cast] at hv
        omega
      have hv := (h.le_frameLines le_rfl n).2 hfull
      rw [if_neg (not_lt.2 hv)]
      rw [lineClocks_behind h.lines hk] at hleL
      rw [lineClocks_behind h.lines (by omega)] at hltL
      have hlow : (k : Int) ≤ ((n : Int) - x.corr) / x.htot := (Int.le_ediv_iff_mul_le hh).2 (by linarith)
      have hhigh : ((n : Int) - x.corr) / x.htot < k + 1 := (Int.ediv_lt_iff_lt_mul hh).2 (by push_cast at hltL; linarith)
      omega

/-- The line that runs at the start of a line is that line. -/
theorem Raster.Ticks.absAt_dtOfAbs {x : Raster} (h : x.Ticks) (hold : x.hold = none) (k : Nat) :
    absAt x (dtOfAbs x (x.ref + k)) = x.ref + k := by
  have hstep := h.clocksTo_step k
  have hnext : x.clocksTo k * x.pxNum / x.pxDen < x.clocksTo (k + 1) * x.pxNum / x.pxDen := by
    rw [Nat.lt_iff_add_one_le, ← Nat.add_div_right _ h.den]
    exact Nat.div_le_div_right hstep
  rw [h.dtOfAbs_ref_add]
  unfold absAt
  rw [hold]
  dsimp only
  rw [if_neg (Nat.not_lt.2 (Nat.le_add_right ..)),
    h.linesIn_eq ((h.le_clocksAt _ _).2 le_rfl) (not_le.1 (mt (h.le_clocksAt _ _).1 (not_le.2 hnext)))]
  rfl

/-- Settles O40. -/
theorem lineTimesAreConsistent : Obligations.LineTimesAreConsistent := by
  unfold Obligations.LineTimesAreConsistent
  intro x a k hold ha hden hv hplain hcorr
  have h : x.Ticks := ⟨hden, hv, hplain, hcorr⟩
  obtain rfl : a = x.ref + k := ha
  refine ⟨h.absAt_dtOfAbs hold k, ?_, ?_⟩
  · rw [Nat.add_assoc, h.dtOfAbs_ref_add, h.dtOfAbs_ref_add, Nat.add_lt_add_iff_left, Nat.lt_iff_add_one_le,
      ← Nat.add_div_right _ h.den]
    exact Nat.div_le_div_right (h.clocksTo_step k)
  · have hspread : lineClocks x k =
        (k : Int) * x.htot + (if k < x.vtot then x.corr * (k : Int) / (x.vtot : Int) else x.corr) := by
      split
      · exact lineClocks_inside hv (Nat.le_of_lt ‹_›)
      · exact lineClocks_behind hv (not_lt.1 ‹_›)
    rw [h.dtOfAbs_ref_add, ← hspread, ← h.clocksTo_cast]
    push_cast
    rfl

end Sys2Proof.Machine
end

section
/-! SUPPORT. Events and messages: a post leaves the bells alone, and the messages of a channel wait in a line (R364, R368). -/

namespace Sys2Proof.Machine

/-! ### A post leaves the bells alone -/

theorem place_bells (d : Dev) (n iova : Nat) (p : Place) (bs : List Byte) : (place d n iova p bs).bells = d.bells := by
  cases p with
  | dram a =>
    calc (place d n iova (.dram a) bs).bells
        = (dramStore (cleanLines d a bs.length) a bs).bells := (AccessKeeps.mirrorLines ..).bells
      _ = d.bells := (AccessKeeps.cleanLines ..).bells
  | host a => exact (AccessKeeps.place_host ..).bells

theorem setMemBits_bells (d : Dev) (iova v : Nat) : (setMemBits d iova v).1.bells = d.bells := by
  unfold setMemBits
  split
  · rfl
  · exact (AccessKeeps.mirrorLines ..).bells
  · rfl

theorem logDirty_bells (d : Dev) (n iova : Nat) : (logDirty d n iova).bells = d.bells := by
  unfold logDirty
  dsimp only
  split
  · split
    · rfl
    · unfold evictDirty
      split
      · split
        · unfold writeDirty
          split
          · exact setMemBits_bells ..
          · rfl
        · rfl
      · rfl
  · rfl

theorem memWritePage_bells (d : Dev) (n mid iova : Nat) (bs : List Byte) : (memWritePage d n mid iova bs).1.bells = d.bells := by
  unfold memWritePage
  split
  · rfl
  · exact (logDirty_bells ..).trans (place_bells ..)

theorem memWritePages_bells (fuel : Nat) (d : Dev) (n mid iova : Nat) (bs : List Byte) :
    (memWritePages fuel d n mid iova bs).1.bells = d.bells := by
  induction fuel generalizing d iova bs with
  | zero => rfl
  | succ fuel ih =>
    unfold memWritePages
    dsimp only
    split
    · rfl
    · split
      · exact (ih ..).trans (memWritePage_bells ..)
      · exact memWritePage_bells ..

theorem memWrite_bells (d : Dev) (n mid iova : Nat) (bs : List Byte) : (memWrite d n mid iova bs).1.bells = d.bells := by
  unfold memWrite
  split
  · rfl
  · split
    · exact memWritePage_bells ..
    · exact memWritePages_bells ..

theorem sendMsi_bells (d : Dev) (n v : Nat) : (sendMsi d n v).bells = d.bells := by
  unfold sendMsi mdhIrq
  dsimp only
  split
  · split <;> rfl
  · split <;> rfl

theorem report_bells (d : Dev) (n v : Nat) (now : Bool) : (report d n v now).bells = d.bells := by
  unfold report
  dsimp only
  split
  · exact sendMsi_bells ..
  · rfl

/-- A fold of changes that leave the bells alone leaves them alone. -/
theorem foldl_bells {α : Type} {f : Dev → α → Dev} (h : ∀ d x, (f d x).bells = d.bells) (l : List α) (d : Dev) :
    (l.foldl f d).bells = d.bells := by
  induction l generalizing d with
  | nil => rfl
  | cons x l ih => exact (ih (f d x)).trans (h d x)

theorem sendOut_bells (d : Dev) (n r slot : Nat) (bs : List Byte) : (sendOut d n r slot bs).bells = d.bells :=
  (AccessKeeps.linkSend ..).bells

theorem postList_bells (fuel : Nat) (d : Dev) (n : Nat) (es : List Ev) : (postList fuel d n es).bells = d.bells := by
  induction fuel generalizing d es with
  | zero => rfl
  | succ fuel ih =>
    unfold postList
    refine foldl_bells (fun d e => ?_) es d
    dsimp only
    split
    · rfl
    · split
      · split <;> rfl
      · split
        · rw [report_bells, count_bells, onRing_bells, emit_bells, memWrite_bells, sendOut_bells]
        · rw [ih, onRing_bells, memWrite_bells, sendOut_bells]

theorem post_bells (d : Dev) (n cls code mid pay : Nat) : (post d n cls code mid pay).bells = d.bells := by
  unfold post
  split
  · rfl
  · split
    · exact postList_bells ..
    · rfl

/-! ### The messages of a channel (R362 to R368) -/

/-- Doorbells ring beside the channels. -/
theorem setDoorbells_chans (d : Dev) (mid pend mask : Nat) : (setDoorbells d mid pend mask).bells.chans = d.bells.chans := by
  unfold setDoorbells
  dsimp only
  split
  · rw [foldl_bells (fun d b => post_bells ..)]
  · split <;> rfl

theorem ring_chans (d : Dev) (mid b : Nat) : (ring d mid b).bells.chans = d.bells.chans := setDoorbells_chans ..

/-- A channel after its own change. -/
theorem bellChan_onBell {d : Dev} (c : Nat) (g : BellChan → BellChan) (h : SMap.rising d.bells.chans = true) :
    bellChan (onBell d c g) c = g (bellChan d c) := SMap.get_mod_same c g h

/-- A channel is what the list of channels holds. -/
theorem bellChan_congr {d e : Dev} (h : e.bells.chans = d.bells.chans) (c : Nat) : bellChan e c = bellChan d c :=
  congrArg (SMap.get · c) h

theorem rising_set {α : Type} [Inhabited α] [DecidableEq α] {m : SMap α} (i : Nat) (a : α) (h : SMap.rising m = true) :
    SMap.rising (SMap.set m i a) = true := by
  unfold SMap.set
  split
  · exact SMap.rising_erase m i h
  · exact SMap.rising_insert m i a h

theorem rising_onBell {d : Dev} (c : Nat) (g : BellChan → BellChan) (h : SMap.rising d.bells.chans = true) :
    SMap.rising (onBell d c g).bells.chans = true := rising_set c _ h

/-- The message that an accepted post makes of the staged words, with the channel's number and epoch (R362, R363). -/
def postedMsg (d : Dev) (c len : Nat) : BellMsg :=
  { words := (List.range len).map (SMap.get (bellChan d c).stage), seq := (bellChan d c).seq, epoch := (bellChan d c).sendEpoch,
    waits := receiverDown d (bellReceiver d c) }

/-- An accepted post puts its message behind those that wait. -/
theorem queueMsg_msgs {d : Dev} (c len : Nat) (h : SMap.rising d.bells.chans = true) :
    (bellChan (queueMsg d c len) c).msgs = (bellChan d c).msgs ++ [postedMsg d c len] := by
  unfold queueMsg
  dsimp only
  split
  · exact congrArg BellChan.msgs (bellChan_onBell (d := count d (514 + c)) c _ h)
  · exact congrArg BellChan.msgs ((bellChan_congr (ring_chans ..) c).trans (bellChan_onBell (d := count d (514 + c)) c _ h))

/-- A notification to the sender leaves the messages of the channel where they are. -/
theorem tellSender_msgs {d : Dev} (c code byte1 v : Nat) {flag : BellChan → BellChan} (h : SMap.rising d.bells.chans = true)
    (hflag : ∀ x, (flag x).msgs = x.msgs) : (bellChan (tellSender d c code byte1 v flag) c).msgs = (bellChan d c).msgs := by
  unfold tellSender
  dsimp only
  split
  · rw [bellChan_congr (congrArg Bells.chans (post_bells ..)) c]
  · rw [bellChan_congr (ring_chans ..) c, bellChan_onBell c flag h]
    exact hflag _

theorem AccessKeeps.viewWrite (a : Acc) (c role off : Nat) (v : Word) (d : Dev) : AccessKeeps d (viewWrite a c role off v d).1 := by
  have hserved : AccessKeeps d (Machine.bellServed d (bellHold d c && decide (off = 0x18))).1 := .bellServed ..
  unfold Machine.viewWrite
  dsimp only
  split
  · exact hserved
  · split
    · exact hserved.trans (.emit ..)
    · split
      · exact hserved.trans (.logErr ..)
      · split
        · exact hserved.trans (.logErr ..)
        · exact hserved

/-- A pop that finds a message takes the one in front. -/
theorem doBellPop_msgs {a : Acc} {c : Nat} {v : Word} {d0 d : Dev} {m : BellMsg} {ms : List BellMsg}
    (hw : viewWrite a c 2 0x1C v d0 = (d, true)) (hv : bit v 0 = true) (hseen : seenMsgs d c = m :: ms)
    (h : SMap.rising d.bells.chans = true) : (bellChan (doBellPop a c v d0) c).msgs = (bellChan d c).msgs.tail := by
  have hpop := bellChan_onBell c (fun x => { x with msgs := x.msgs.tail }) h
  unfold doBellPop
  dsimp only
  rw [hw, if_neg (by simp [hv])]
  dsimp only
  rw [hseen]
  dsimp only
  split
  · rw [tellSender_msgs (flag := fun x => { x with emptied := true }) c 3 0 m.seq (rising_onBell _ _ h) (fun _ => rfl), hpop]
  · rw [hpop]

/-- Settles O46. -/
theorem bellIsFirstInFirstOut : Obligations.BellIsFirstInFirstOut := by
  unfold Obligations.BellIsFirstInFirstOut
  refine ⟨fun d c len h => ⟨postedMsg d c len, queueMsg_msgs c len h, rfl, rfl⟩, fun s a c v d m ms hw hv hseen h => ?_⟩
  have hbells : d.bells = s.dev.bells := by
    have hk := (AccessKeeps.viewWrite a c.val 2 0x1C v s.dev).bells
    rwa [hw] at hk
  exact ⟨_, rfl, doBellPop_msgs hw hv hseen (hbells ▸ h)⟩

end Sys2Proof.Machine
end

section
/-! SUPPORT. Resets and register accesses complete. -/

namespace Sys2Proof.Machine

/-! ### Warm and section resets -/

/-- The host's request with its key takes the device into a warm reset. -/
theorem doWarmReset_host {a : Acc} {v n : Word} {d0 d : Dev} (hw : Written d0 a PM_WARM_REQ v d n) (hkey : bits v 31 16 = 0x57A3)
    (hgo : bit v 0 = true) : doWarmReset (.host a v) d0 = warm d 3 := by
  unfold Written at hw
  unfold doWarmReset
  dsimp only
  rw [hw]
  exact if_pos ⟨hkey, hgo⟩

/-- A pulse of a microsecond or more is taken. -/
theorem doWarmReset_pin {low : Nat} (h : 1000 ≤ low) (d : Dev) : doWarmReset (.pin low) d = warm d 1 := by
  unfold doWarmReset
  dsimp only
  rw [if_neg (by omega), if_neg (by omega)]

/-- The word with the bit of one section names that section alone. -/
theorem sects_of_bit (x : Sect) : allSects.filter (fun y => bit (BitVec.ofNat 32 (2 ^ sectNum x)) (sectNum y)) = [x] := by
  cases x <;> decide

/-- A write of GL_SECT_RST with the bit of one section resets that section. -/
theorem sectWrite_one {a : Acc} {x : Sect} {d0 d : Dev} {n : Word} (hmid : a.mid.toNat = 0)
    (hw : Written d0 a GL_SECT_RST (BitVec.ofNat 32 (2 ^ sectNum x)) d n) :
    sectWrite a (BitVec.ofNat 32 (2 ^ sectNum x)) d0 = sectReset (wr d GL_SECT_RST (rd d0 GL_SECT_RST)) x := by
  unfold sectWrite
  dsimp only
  rw [guardWrite_done hw (if_pos (.inl hmid)), sects_of_bit]
  rfl

/-- The reset of a section is over: its bit clears, and its unit goes on. -/
theorem doSectionResetDone_running {x : Sect} {d : Dev} (h : hasBit (rd d GL_SECT_RST).toNat (sectNum x) = true) :
    doSectionResetDone x d =
      (let e := wr d GL_SECT_RST (BitVec.ofNat 32 ((rd d GL_SECT_RST).toNat - 2 ^ sectNum x))
       if x = .tt then { e with tt := { e.tt with ownLost := none } } else if x = .raster then gpuRun e
       else if x = .media then audioReturn e else e) := by
  unfold doSectionResetDone
  dsimp only
  rw [h]
  cases x <;> rfl

/-! ### Register accesses -/

/-- The registers of the sections without an effect of their own take a plain write. -/
theorem writeBar0_plain {off : Nat} (a : Acc) (v : Word) (d : Dev) (h : off / 65536 ∈ [5, 6, 7, 0x1E, 0x1F]) :
    writeBar0 a off v d = plainWrite a off v d := by
  simp only [List.mem_cons, List.not_mem_nil, or_false] at h
  unfold writeBar0
  obtain h | h | h | h | h := h <;> rw [h]
  all_goals rfl

/-- A stage commit that its checks pass commits the staging copies (R28). -/
theorem doStageCommit_done {a : Acc} {v n : Word} {d0 d : Dev} (tables : List MemIn) (hw : Written d0 a GL_STAGE_COMMIT v d n)
    (hgood : commitBad d0 (fb d0 GL_STAGE_COMMIT GL_STAGE_COMMIT_BUSY) n = none) :
    doStageCommit a v tables d0 = commitStage d { fn := 0, island := false } (bits n 19 16) (bits n 15 0) tables := by
  unfold doStageCommit
  rw [guardWrite_done hw hgood]

/-- An offset outside an array names no register of it. -/
theorem arr_outside {base stride count off : Nat} (h : off < base ∨ base + stride * count ≤ off) :
    arr base stride count off = none := by
  unfold arr
  exact if_neg (by omega)

/-- In the sections whose registers show what they store, a read is the plain one. -/
theorem readBar0_plain {off : Nat} (a : Acc) (d : Dev) (h : off / 65536 ∈ [0, 3, 4, 8, 0x0A, 0x16, 0x1C, 0x1F])
    (hwo : writeOnly off = false) : readBar0 a off d = regRead a off (shownWord a off d) d := by
  have hsect : off < 0x10000 ∨ (0x30000 ≤ off ∧ off < 0x140000) ∨ (0x160000 ≤ off ∧ off < 0x170000) ∨
      (0x1C0000 ≤ off ∧ off < 0x1D0000) ∨ 0x1F0000 ≤ off := by
    simp only [List.mem_cons, List.not_mem_nil, or_false] at h
    omega
  have hconv : ¬ (off = TT_CONV_DT_LO ∨ off = TT_CONV_DT_HI) := by
    unfold TT_CONV_DT_LO TT_CONV_DT_HI
    omega
  have hdt : off ≠ TT_DT_LO := by
    unfold TT_DT_LO
    omega
  have hval : off ≠ CT_VAL_LO := by
    unfold CT_VAL_LO
    omega
  have hpos : arr (TT_RPOS_LINE 0) 16 16 off = none := arr_outside (by
    unfold TT_RPOS_LINE
    omega)
  unfold readBar0
  simp only [if_neg hconv, if_neg hdt, if_neg hval, hpos, hwo]
  rw [if_neg (by omega), if_neg (by omega)]
  rfl

/-- A whole read that nothing turns away shows its value and clears what reads clear. -/
theorem regRead_whole {a : Acc} {off : Nat} {val : Word} {d : Dev} {r : RRow} {k : List Nat} (hreach : reachesBar0 a = true)
    (hrun : domState d (domOf off) = 0) (hopen : windowShut d a off = false) (hsec : (inSecureRange off && !a.secure) = false)
    (hrow : rowOf off = some (r, k)) (hworld : r.world = .any) (hbe : a.be = 0xF) :
    regRead a off val d = emit (wr d off (clearRc (rd d off) r.fields)) (.readData a.mid.toNat off val) := by
  have hserve : serveDomain d (domOf off) = (d, true) := if_pos hrun
  unfold regRead
  simp [hreach, hserve, hopen, hsec, hrow, hworld, hbe]

/-- Settles O1. -/
theorem resetsAndRegistersRun : Obligations.ResetsAndRegistersRun := by
  unfold Obligations.ResetsAndRegistersRun
  refine ⟨fun s st => rfl, fun s low h => congrArg (after s) (doWarmReset_pin h s.dev), fun s => rfl,
    fun s a v d n hw hkey hgo => congrArg (after s) (doWarmReset_host hw hkey hgo), ?_, ?_, ?_, ?_, ?_,
    fun s f r q d hr => congrArg (after s) (startDesc_runs hr true actLock),
    fun s a v tables d n hw hgood => congrArg (after s) (doStageCommit_done tables hw hgood), ?_, fun s a f off v => rfl,
    fun s a f off v => rfl, fun s a off v => rfl, ?_, fun s a f off => rfl, fun s a f off => rfl, ?_⟩
  · intro s f hf hstate
    exact congrArg (after s) ((if_neg hf).trans (if_neg hstate))
  · rintro s f d hf rfl
    exact congrArg (after s) (if_pos hf)
  · intro s a d n hmid p hp hw
    simp only [List.mem_cons, List.not_mem_nil, or_false] at hp
    obtain rfl | rfl | rfl | rfl | rfl | rfl := hp
    · exact congrArg (after s) (sectWrite_one (x := .tt) hmid hw)
    · exact congrArg (after s) (sectWrite_one (x := .raster) hmid hw)
    · exact congrArg (after s) (sectWrite_one (x := .compose) hmid hw)
    · exact congrArg (after s) (sectWrite_one (x := .scanout) hmid hw)
    · exact congrArg (after s) (sectWrite_one (x := .media) hmid hw)
    · exact congrArg (after s) (sectWrite_one (x := .pair) hmid hw)
  · rintro s x d h rfl
    exact congrArg (after s) (doSectionResetDone_running h)
  · intro s a v d n hw
    exact congrArg (after s) (congrArg Prod.fst hw)
  · intro s a off v d n h hw
    exact congrArg (after s) ((writeBar0_plain a v s.dev h).trans (congrArg Prod.fst hw))
  · intro s a off r k h hrow hwo hworld hreach hrun hopen hsec hbe
    exact congrArg (after s) ((readBar0_plain a s.dev h hwo).trans (regRead_whole hreach hrun hopen hsec hrow hworld hbe))
  · intro s a off h
    exact congrArg (after s) (if_pos h)

end Sys2Proof.Machine
end

section
/-! SUPPORT. Composition completes. -/

namespace Sys2Proof.Machine

/-- A strip of an active raster begins: the commits that bind there, the references and the prefetches. -/
theorem doStripComposeBegin_open {d0 : Dev} {p frame line : Nat} (want : List (Lay × Nat)) (hat : stripAt d0 p line = true)
    (hopen : (platRun d0 p).openStrips.contains (frame * (raster d0 p).vtot + line) = false) :
    doStripComposeBegin p frame line want d0 =
      (let b := frame * (raster d0 p).vtot + line
       let d := bindCommits (restampUnacked (advance (dtOfAbs (raster d0 p) (b - leadLines d0 p)) d0) p frame line) p frame line
       prefetchAll (onPlat (bindAllRefs d p frame line) p (fun y => { y with openStrips := y.openStrips ++ [b] }))
         p frame want) := by
  unfold doStripComposeBegin
  rw [if_neg (by simp only [hat, hopen, Bool.not_true, Bool.false_eq_true, or_self, not_false_eq_true])]

/-- The commits that land at a line land there: at the time of the line where the platform has a timing, else at their own. -/
theorem doCommitLand_due {d0 : Dev} {p frame line : Nat} {z : Nat × Nat × Nat × Nat}
    (h : (landingNow d0 p frame line).head?.bind (fun c => landOf c p) = some z) :
    doCommitLand p frame line d0 =
      (let x := raster d0 p
       let t := if x.had then dtOf x z.2.1 z.2.2.1 else z.2.2.2
       resumeFetch d0 (gpuRun (showPending (touchSweep (closeDue (((landingNow d0 p frame line).map (fun c => c.id)).foldl
         (landOne p (if x.had then z.2.1 * x.vtot + z.2.2.1 else 0) t) (advance t d0)) p))))) := by
  unfold doCommitLand
  dsimp only
  rw [h]

/-- An open strip is composed and sent; one that was late is counted and told as re-composed (R244). -/
theorem doStripComposeDone_open {d : Dev} {p frame line : Nat} (px : List PixelIn)
    (hopen : (platRun d p).openStrips.contains (frame * (raster d p).vtot + line) = true) :
    doStripComposeDone p frame line px d =
      (let b := frame * (raster d p).vtot + line
       let late := (platRun d p).late.find? (fun s => s.1 == b)
       let v := readHeaders (viewAt d p b) p frame line
       let least := if inCaution v p b then 3 else if late.isSome then 2 else 0
       let out := ((stripPlaces d p line px).filterMap (fun q => outPixel v p frame q least)).map (latchPix v p)
       let d0 := { d with comp := { d.comp with hdrs := v.comp.hdrs } }
       let d1 := emit (sendUpdate (count (storeBand d0 p frame line) (266 + 4 * p)) p frame line out) (.strip p frame line out)
       closeStrip (match late with
         | some s => noteStrip (bump (postLate (count d1 (266 + 4 * p + 1)) p 1 frame line s.2) CM_STATUS CM_STATUS_RECOMPOSED) p b 1
         | none => d1) p b) := by
  unfold doStripComposeDone
  dsimp only
  (rw [if_neg (by simp only [hopen, Bool.not_true, Bool.false_eq_true, not_false_eq_true])]) <;> rfl

/-- A strip that falls back: the fallback is sent, counted and told. -/
def fallBack (d : Dev) (p frame line b outstanding : Nat) : Dev :=
  noteStrip (closeStrip (bump (postLate (count (sendFallback d p frame line) (266 + 4 * p + 2)) p 2 frame line outstanding)
    CM_STATUS CM_STATUS_FALLBACK) p b) p b 2

/-- An open strip that is not yet late is so at its checkpoint: it falls back, or waits for a late lane. -/
theorem doStripCheckpoint_open {d0 : Dev} {p frame line : Nat} (outstanding : Nat)
    (hopen : (platRun d0 p).openStrips.contains (frame * (raster d0 p).vtot + line) = true)
    (hfirst : (platRun d0 p).late.any (fun s => s.1 == frame * (raster d0 p).vtot + line) = false) :
    doStripCheckpoint p frame line outstanding d0 =
      (let b := frame * (raster d0 p).vtot + line
       let d := advance (dtOfAbs (raster d0 p) (b - checkDistance d0 p)) d0
       if lanesAt d p b = 0 then fallBack d p frame line b outstanding
       else onPlat d p (fun y => { y with late := y.late ++ [(b, outstanding)] })) := by
  unfold doStripCheckpoint
  dsimp only
  rw [if_neg (by simp only [hopen, hfirst, Bool.not_true, Bool.false_eq_true, or_self, not_false_eq_true])]
  rfl

/-- A late strip falls back at its line. -/
theorem doFallbackStrip_late {d0 : Dev} {p frame line : Nat} {z : Nat × Nat}
    (h : (platRun d0 p).late.find? (fun s => s.1 == frame * (raster d0 p).vtot + line) = some z) :
    doFallbackStrip p frame line d0 =
      (let b := frame * (raster d0 p).vtot + line
       fallBack (advance (dtOfAbs (raster d0 p) b) d0) p frame line b z.2) := by
  unfold doFallbackStrip
  dsimp only
  rw [h]
  rfl

/-- A fault that names a bad LBC state is counted, and told once a frame (R250). -/
theorem doFetchFault_lbc {d : Dev} {k p frame line iova : Nat} {z} {y : LaySnap} (hon : composedOn d k frame line = some (p, y))
    (hin : layerOut d p k frame = false) (hnew : d.comp.lbcTold.contains (k, frame) = false) :
    doFetchFault k (.lbcState z) frame line iova d =
      (let e := bufEntry d (handleIdx (wd y.words 1))
       let d1 := bump d BF_STATUS BF_STATUS_LBC_BAD
       post { d1 with comp := { d1.comp with lbcTold := (k, frame) :: d1.comp.lbcTold } } e.owner clBUFFER 3 midCOMPOSE
         (pb 0 k + pb 1 p + pw32 4 z.toNat + pw32 8 frame)) := by
  unfold doFetchFault
  rw [hon]
  dsimp only
  rw [hin, hnew]
  simp only [Bool.false_eq_true, if_false]

/-- A fetch that the device MMU, the memory or a header fails drops the layer, and is told with its code; the MMU's is noted in the
function's summary (R250). -/
theorem doFetchFault_drop {d : Dev} {k p frame line iova : Nat} {c : FetchCause} {y : LaySnap}
    (hon : composedOn d k frame line = some (p, y)) (hin : layerOut d p k frame = false) (hc : ∀ z, c ≠ .lbcState z) :
    doFetchFault k c frame line iova d =
      (let e := bufEntry d (handleIdx (wd y.words 1))
       let d1 := dropFetch d p k (frame * (raster d p).vtot + line) (bit (wd e.words 0) 22)
       let d2 := match c with
         | .dmmu t => noteFault d1 e.owner midCOMPOSE t.val iova false
         | _ => d1
       post d2 e.owner clBUFFER 2 midCOMPOSE (fetchPay p k (fetchCode c) frame line (wd y.words 1))) := by
  unfold doFetchFault
  rw [hon]
  dsimp only
  rw [hin]
  cases c with
  | lbcState z => exact absurd rfl (hc z)
  | _ => rfl

/-- Settles O2. -/
theorem compositionRuns : Obligations.CompositionRuns := by
  unfold Obligations.CompositionRuns
  refine ⟨?_, ?_, ?_, ?_, ?_, ?_, ?_, ?_, ?_, ?_, ?_⟩
  · rintro s p frame line want b d hat rfl hopen rfl
    exact congrArg (after s) (doStripComposeBegin_open want hat hopen)
  · intro s p frame line z h hhad
    exact congrArg (after s) ((doCommitLand_due h).trans (by simp only [hhad, if_true]))
  · intro s p frame line z h hhad
    exact congrArg (after s) ((doCommitLand_due h).trans (by simp only [hhad, Bool.false_eq_true, if_false]))
  · rintro s p frame line px b v out d rfl hopen hfirst rfl rfl rfl
    exact congrArg (after s) ((doStripComposeDone_open px hopen).trans (by simp only [hfirst, Option.isSome_none,
      Bool.false_eq_true, if_false]))
  · rintro s p frame line px b v out z d rfl hopen hlate rfl rfl rfl
    exact congrArg (after s) ((doStripComposeDone_open px hopen).trans (by simp only [hlate, Option.isSome_some, if_true]))
  · rintro s p frame line out b d rfl hopen hfirst rfl hlanes
    exact congrArg (after s) ((doStripCheckpoint_open out hopen hfirst).trans (if_neg hlanes))
  · rintro s p frame line out b d rfl hopen hfirst rfl hlanes
    exact congrArg (after s) ((doStripCheckpoint_open out hopen hfirst).trans (if_pos hlanes))
  · rintro s p frame line b z d rfl hlate rfl
    exact congrArg (after s) (doFallbackStrip_late hlate)
  · rintro s l z frame line iova p y e hon hin rfl hnew
    exact congrArg (after s) (doFetchFault_lbc hon hin hnew)
  · rintro s l t frame line iova p y e hon hin rfl
    exact congrArg (after s) (doFetchFault_drop hon hin (by simp))
  · rintro s l frame line iova p y e c hc hon hin rfl
    simp only [List.mem_cons, List.not_mem_nil, or_false] at hc
    obtain rfl | rfl := hc <;> exact congrArg (after s) (doFetchFault_drop hon hin (by simp))

end Sys2Proof.Machine
end

section
/-! SUPPORT. The Timetable completes. -/

namespace Sys2Proof.Machine

/-- A domain that runs serves at once. -/
theorem serveDomain_running {d : Dev} {k : Nat} (h : domState d k = 0) : serveDomain d k = (d, true) := if_pos h

/-- A read of device time latches the upper word for its master (R49). -/
theorem doDtRead_running {a : Acc} {d : Dev} (hreach : reachesBar0 a = true) (hrun : domState d 4 = 0) :
    doDtRead a d = emit { d with tt := { d.tt with dtHi := SMap.set d.tt.dtHi a.mid.toNat (d.dt / 2 ^ 32 % 2 ^ 32) } }
      (.readData a.mid.toNat TT_DT_LO (maskBytes a.be (loWord d.dt))) := by
  unfold doDtRead
  dsimp only
  rw [serveDomain_running hrun, hreach]
  exact if_neg (by simp)

/-- A read of the raster position of an active raster latches its frame and its time (R50). -/
theorem doRposRead_running {a : Acc} {p : Nat} {d : Dev} (hreach : reachesBar0 a = true) (hrun : domState d 4 = 0)
    (hhad : (raster d p).had = true) :
    doRposRead a p d = emit (wr64 (wr d (TT_RPOS_FRAME p) (BitVec.ofNat 32 (absAt (raster d p) d.dt / (raster d p).vtot)))
      (TT_RPOS_DT_LO p) (dtOfAbs (raster d p) (absAt (raster d p) d.dt)))
      (.readData a.mid.toNat (TT_RPOS_LINE p) (maskBytes a.be (rposWord d p))) := by
  unfold doRposRead
  dsimp only
  rw [serveDomain_running hrun, hreach, if_neg (by simp)]
  simp only [hhad, if_true]

/-- A new selection of a window master clears its staging copy (R60). -/
theorem doCpSelWrite_new {a : Acc} {v n : Word} {d0 d : Dev} (hw : Written d0 a TT_CP_SEL v d n) (ha : cpWindowMaster a = true)
    (hnew : bits v 9 0 ≠ cpSel (wr d TT_CP_SEL (rd d0 TT_CP_SEL)) a.mid.toNat) :
    doCpSelWrite a v d0 = { wr d TT_CP_SEL (rd d0 TT_CP_SEL) with
      tt := { d.tt with sel := SMap.set d.tt.sel a.mid.toNat (bits v 9 0), stage := SMap.set d.tt.stage a.mid.toNat [] } } := by
  unfold doCpSelWrite
  dsimp only
  rw [ha, maskedWrite_done hw]
  exact if_neg hnew

/-- A window master's word goes into its staging copy (R60). -/
theorem doCpStageWrite_done {a : Acc} {k : Nat} {v n : Word} {d0 d : Dev} (hw : Written d0 a (TT_CP_W (k + 1)) v d n)
    (ha : cpWindowMaster a = true) :
    doCpStageWrite a k v d0 = { wr d (TT_CP_W (k + 1)) (rd d0 (TT_CP_W (k + 1))) with
      tt := { d.tt with stage := SMap.mod d.tt.stage a.mid.toNat (fun m => SMap.set m (k + 1) (some v)) } } := by
  unfold doCpStageWrite
  dsimp only
  rw [ha, maskedWrite_done hw]
  rfl

/-- A point that may match fires at its trigger, behind those due before it (R54). -/
theorem doCpFire_due {c : Nat} {d0 d : Dev} {g : Trig} (h0 : mayMatch d0 c = true) (hd : d = (dueBefore d0 c).foldl matchPoint d0)
    (hg : waitsFor d c = some g) (h : mayMatch d c = true) :
    doCpFire c d0 = firePoint (advance g.dt d) c (matchOutcome d c) g.dt := by
  unfold doCpFire
  rw [if_pos h0, ← hd]
  unfold matchPoint
  rw [hg]
  exact if_pos h

/-- A point whose firing was deferred fires late (R64). -/
theorem doCpFireDeferred_armed {c : Nat} {d : Dev} (hen : (cpEntry d c).en = true) (harm : (cpRun d c).armed = true)
    (hdef : (cpRun d c).deferred = true) (hup : domUp d 4 = true) :
    doCpFireDeferred c d = firePoint d c 2 (cpRun d c).due := by
  unfold doCpFireDeferred
  dsimp only
  rw [hen, harm, hdef, hup]
  exact if_neg (by simp)

/-- A write of framelock control that its check passes starts or stops the framelock of the platform (R71, R74). -/
theorem doFlCtrlWrite_done {a : Acc} {p : Nat} {v n : Word} {d0 d : Dev} (hw : Written d0 a (TT_FL_CTRL p) v d n)
    (hgood : ¬ (bits n 29 28 = 2 ∧ flCycle d0 p 17 (bits n 27 24) = true)) :
    doFlCtrlWrite a p v d0 =
      if !bit n 31 then onFl (setFlState d p 0) p (fun x => { x with good := 0, bad := 0, out := false }) else d := by
  unfold doFlCtrlWrite
  rw [guardWrite_done hw (if_neg hgood)]

/-- What framelock of a platform needs to take a reference edge: it is enabled, the edge counts, and the raster runs. -/
structure FlTakes (d : Dev) (p : Nat) (pulse : Pulse) : Prop where
  en : bit (rd d (TT_FL_CTRL p)) 31 = true
  marks : flMarks d p pulse = true
  had : (raster d p).had = true
  vtot : (raster d p).vtot ≠ 0
  up : domUp d 4 = true
  real : (raster d p).virt = false

/-- An edge in range that ends a division of the reference jumps from unlocked, or steps by the error (R74). -/
theorem doFramelockRefEdge_step {p periodNs : Nat} {pulse : Pulse} {d0 d e : Dev} (ht : FlTakes d0 p pulse)
    (hd : d = onFl d0 p (fun z => { z with lastEdge := d0.dt, period := flPeriod d0 p periodNs, edges := z.edges + 1 }))
    (hin : flInRange d p (flPeriod d0 p periodNs) = true) (he : e = onFl d p (fun z => { z with out := false }))
    (hdiv : ((SMap.get d0.tt.fl p).edges + 1) % (bits (rd d0 (TT_FL_CTRL p)) 21 20 + 1) = 0) :
    doFramelockRefEdge p periodNs pulse d0 =
      if (bit (rd d0 (TT_FL_CTRL p)) 30 && decide (flState d0 p = 0)) = true then setFlState (flJump e p) p 1
      else flStep (fs e (TT_FL_STAT p) TT_FL_STAT_ERROR ((if flError e p ≥ 2 ^ 23 then 2 ^ 23 - 1
        else if flError e p < -(2 ^ 23) then -(2 ^ 23) else flError e p) % 2 ^ 24).toNat) p (flError e p) := by
  obtain ⟨hen, hmarks, hhad, hvtot, hup, hreal⟩ := ht
  unfold doFramelockRefEdge
  dsimp only
  rw [hen, hmarks, hhad, hup, hreal, if_neg (by simp [hvtot]), ← hd, hin, ← he, if_neg (by simp), if_neg (not_not.mpr hdiv),
    Bool.false_and, Bool.or_false]

/-- A conversion of a line of a platform with a timing starts (R514). -/
theorem doConvStart_done {a : Acc} {v n : Word} {d0 d : Dev} (hw : Written d0 a TT_CONV_LINE v d n)
    (hhad : (raster d0 (bits n 19 16)).had = true) :
    doConvStart a v d0 =
      { d with tt := { d.tt with
        convBusy := true
        convRes := convDt d (bits n 19 16) (rd d TT_CONV_FRAME).toNat (bits n 15 0) } } := by
  unfold Written at hw
  unfold doConvStart
  dsimp only
  rw [hw]
  dsimp only
  rw [hhad]
  rfl

/-- A timing that waits takes effect at its frame, or at the next one that can start (R262). -/
theorem doTimingTakeEffect_waiting {p f0 f t : Nat} {d : Dev} (hf0 : (platRun d p).timingFrame = some f0)
    (hhad : (raster d p).had = true)
    (hvtot : (raster d p).vtot ≠ 0) (hf : f = max f0 (frameFrom (raster d p) d.dt)) (ht : t = dtOf (raster d p) f 0) :
    doTimingTakeEffect p d = restampAll (forceTiming (advance t d) p f t) p := by
  unfold doTimingTakeEffect
  rw [hf0]
  dsimp only
  rw [if_neg (by simp [hhad, hvtot]), ← hf, ← ht]

/-- A raster that waits starts at its frame, unless framelock is to jump (R78). -/
theorem doRasterStart_waiting {p f0 f t : Nat} {d : Dev} (hf0 : (platRun d p).enFrame = some f0) (hhad : (raster d p).had = true)
    (hvtot : (raster d p).vtot ≠ 0) (hf : f = max f0 (frameFrom (raster d p) d.dt)) (ht : t = dtOf (raster d p) f 0)
    (hvirt : (raster d p).virt = true)
    (hjump : (fb d (TT_FL_CTRL p) TT_FL_CTRL_EN && fb d (TT_FL_CTRL p) TT_FL_CTRL_JUMP) = false) :
    doRasterStart p d = restampAll (goReal (setRaster (advance t d) p
      { (raster d p) with fRef := f, lRef := 0, dtRef := t, hold := teHold (advance t d) p f (raster d p).vtot }) p) p := by
  unfold doRasterStart
  rw [hf0]
  dsimp only
  rw [hjump, if_neg (by simp [hhad, hvtot, hvirt]), ← hf, ← ht]

/-- A platform that waits is disabled at its frame: its raster runs on virtually and its sinks go idle (R263). -/
theorem doPlatformDisable_waiting {p f0 f t : Nat} {d0 d : Dev} (hf0 : (platRun d0 p).disFrame = some f0)
    (hhad : (raster d0 p).had = true) (hvtot : (raster d0 p).vtot ≠ 0) (hf : f = max f0 (frameFrom (raster d0 p) d0.dt))
    (ht : t = dtOf (raster d0 p) f 0)
    (hd : d = onPlat (onFl (setRaster (advance t d0) p
      { (raster d0 p) with fRef := f, lRef := 0, dtRef := t, virt := true, hold := none, corr := 0 }) p (fun y =>
      { y with corr := 0 })) p (fun y =>
      { y with disFrame := none, openStrips := [], late := [], lanes := [], psr := false, psrFrame := none })) :
    doPlatformDisable p d0 = restampAll (showRate (settlePorts (idleSinks (adjustStrips (fs d (SO_PSTAT p) SO_PSTAT_STATE 0) p)
      (fun x => routeOn (rd d0) x && decide (routeSrc (rd d0) x = p))))) p := by
  unfold doPlatformDisable
  rw [hf0]
  dsimp only
  rw [if_neg (by simp [hhad, hvtot]), ← hf, ← ht, ← hd]

/-- Settles O3. -/
theorem timetableRuns : Obligations.TimetableRuns := by
  unfold Obligations.TimetableRuns
  refine ⟨?_, ?_, ?_, ?_, ?_, ?_, ?_, ?_, ?_, ?_, ?_, ?_, ?_, ?_, ?_, ?_, ?_, ?_, ?_, ?_⟩
  · intro s a hreach hrun
    exact congrArg (after s) (doDtRead_running hreach hrun)
  · intro s a p hreach hrun hhad
    exact congrArg (after s) (doRposRead_running hreach hrun hhad)
  · intro s a v d n hw ha hnew
    exact congrArg (after s) (doCpSelWrite_new hw ha hnew)
  · intro s a v k d n hw ha
    exact congrArg (after s) (doCpStageWrite_done hw ha)
  · intro s a v d c e h
    refine congrArg (after s) ?_
    unfold doCpStoreWrite
    rw [h]
  · intro s hup
    exact congrArg (after s) (if_pos hup)
  · intro s c d g h0 hd hg h
    exact congrArg (after s) (doCpFire_due h0 hd hg h)
  · rintro s d hcool rfl
    exact congrArg (after s) (if_neg hcool)
  · intro s c hen harm hdef hup
    exact congrArg (after s) (doCpFireDeferred_armed hen harm hdef hup)
  · intro s a v p d n hw hgood hon
    exact congrArg (after s) ((doFlCtrlWrite_done hw hgood).trans (if_neg (by simp [hon])))
  · intro s a v p d n hw hgood hoff
    exact congrArg (after s) ((doFlCtrlWrite_done hw hgood).trans (if_pos (by simp [hoff])))
  · rintro s p periodNs pulse y d e hen hmarks hhad hvtot hup hreal rfl hd hin he hdiv hjump
    exact congrArg (after s) ((doFramelockRefEdge_step ⟨hen, hmarks, hhad, hvtot, hup, hreal⟩ hd hin he hdiv).trans
      (if_neg (by simp [hjump])))
  · rintro s p periodNs pulse y d e hen hmarks hhad hvtot hup hreal rfl hd hin he hdiv hjump
    exact congrArg (after s) ((doFramelockRefEdge_step ⟨hen, hmarks, hhad, hvtot, hup, hreal⟩ hd hin he hdiv).trans
      (if_pos hjump))
  · intro s p h
    exact congrArg (after s) (if_pos h)
  · intro s p h
    exact congrArg (after s) (if_pos h)
  · intro s a v d n hw hhad
    exact congrArg (after s) (doConvStart_done hw hhad)
  · intro s h
    exact congrArg (after s) (if_neg (by simp [h]))
  · intro s p f0 f t hf0 hhad hvtot hf ht
    exact congrArg (after s) (doTimingTakeEffect_waiting hf0 hhad hvtot hf ht)
  · intro s p f0 f t hf0 hhad hvtot hf ht hvirt hjump
    exact congrArg (after s) (doRasterStart_waiting hf0 hhad hvtot hf ht hvirt hjump)
  · intro s p f0 f t d hf0 hhad hvtot hf ht hd
    exact congrArg (after s) (doPlatformDisable_waiting hf0 hhad hvtot hf ht hd)

end Sys2Proof.Machine
end

section
/-! SUPPORT. The rings complete. -/

namespace Sys2Proof.Machine

/-- A descriptor that runs at once has its effect e, and its ring lets go of what is done. -/
theorem after_startDesc {s : State} {f r key : Nat} {m : List MemIn} {chk : Dev → Nat → Nat → Desc → Option (Nat × Nat)} {q : Desc}
    {d e : Dev} (hr : Runs s.dev f r key m chk q d) (park : Bool) (act : Nat → Nat → Desc → Dev → Dev) (he : act f r q d = e) :
    after s (startDesc s.dev f r key m park chk act) = ran s f r e := by
  rw [startDesc_runs hr park act, he]
  rfl

/-- A kick of an active ring that nothing holds back has its doorbell record read (R92). -/
theorem doKick_active {a : Acc} {n r : Nat} {d0 d : Dev} (hk : kickArrives a n (BitVec.ofNat 32 r) d0 = (d, true))
    (hfn : fnState d n = 1) (hact : (ringSt d n r).state = .active) (hread : (ringSt d n r).reading = false)
    (hbank : bankerLike d = false) (hcut : d.pm.cut.window = false) (hqui : (fnSt d n).qui.on = false) :
    doKick a n r d0 = readDbr d n r := by
  unfold doKick
  dsimp only
  rw [hk]
  dsimp only
  rw [if_pos rfl]
  unfold kickRing
  dsimp only
  rw [if_neg (by simp [hact, hbank]), if_neg (by simp [hread, hcut, hqui, hfn])]

/-- A reload of an active function's ring takes the table entry that is read (R87, R88). -/
theorem doReloadRing_words {a : Acc} {n r : Nat} {m : MemIn} {d0 d e : Dev} {ws : List Word}
    (hk : kickArrives a n (BitVec.ofNat 32 (2 ^ 30 + r)) d0 = (d, true)) (hfn : fnState d n = 1) (hbank : bankerLike d = false)
    (hm : memRead d n n (fcbAddr d n + 64 * r) 16 m = (e, .words ws)) :
    doReloadRing a n r m d0 = takeEntry e n r ws := by
  unfold doReloadRing
  dsimp only
  rw [hk]
  dsimp only
  rw [if_neg (by simp), if_neg (by simp [hfn, hbank])]
  unfold reloadEntry
  rw [hm]

/-- A reload of an active function's vectors takes the moderation table that is read (R91). -/
theorem doReloadVectors_words {a : Acc} {n : Nat} {m : MemIn} {d0 d e : Dev} {ws : List Word}
    (hk : kickArrives a n (BitVec.ofNat 32 (2 ^ 31)) d0 = (d, true)) (hfn : fnState d n = 1) (hbank : bankerLike d = false)
    (hm : memRead d n n (fcbAddr d n + 0x800) 256 m = (e, .words ws)) (hgood : modsBad e n ws = none) :
    doReloadVectors a n m d0 = onFn (linkSend e 0x05 ([2 ^ 32 + 9, n] ++ ws.map (fun w => w.toNat))) n (fun x =>
      { x with mods := (List.range 64).foldl (fun t v => SMap.set t v (modOf ws v)) [] }) := by
  unfold doReloadVectors
  dsimp only
  rw [hk]
  dsimp only
  rw [if_neg (by simp), if_neg (by simp [hfn]), if_neg (by simp [hbank]), hm]
  dsimp only
  rw [hgood]

/-- A doorbell record that is whole, newer and in range moves PI and CCI, and a fetch is issued (R94). -/
theorem doDoorbellRecordArrive_newer {n r : Nat} {m : MemIn} {d0 d : Dev} {ws : List Word}
    (hread : (ringSt d0 n r).reading = true) (hact : (ringSt d0 n r).state = .active)
    (hm : memRead d0 n n (ringSt d0 n r).entry.dbr 16 m = (d, .words ws)) (hwhole : wd ws 0 = wd ws 15)
    (hnewer : (ringSt d n r).seqSeen.any (fun z => seqOlder (wd ws 0).toNat z) = false)
    (hfit : dbrOverrun (ringSt d n r) (wd ws 1).toNat (wd ws 2).toNat = false) (htype : (ringSt d n r).entry.type ≠ 4) :
    doDoorbellRecordArrive n r m d0 = endRead (issueFetch (onRing (onRing d n r (fun y =>
      { y with seqSeen := some (wd ws 0).toNat })) n r (fun y =>
      { y with pi := (wd ws 1).toNat, cci := (wd ws 2).toNat })) n r) n r := by
  unfold doDoorbellRecordArrive
  rw [if_neg (by simp [hread, hact])]
  dsimp only
  rw [hm]
  dsimp only
  rw [if_neg (not_not.mpr hwhole), hnewer, hfit, if_neg (by simp), if_neg (by simp), if_neg htype]

/-- A doorbell record that is torn is read again, up to three times (R94). -/
theorem doDoorbellRecordArrive_torn {n r : Nat} {m : MemIn} {d0 d : Dev} {ws : List Word}
    (hread : (ringSt d0 n r).reading = true) (hact : (ringSt d0 n r).state = .active)
    (hm : memRead d0 n n (ringSt d0 n r).entry.dbr 16 m = (d, .words ws)) (htorn : wd ws 0 ≠ wd ws 15)
    (htries : (ringSt d n r).tries < 3) :
    doDoorbellRecordArrive n r m d0 = onRing d n r (fun y => { y with tries := y.tries + 1 }) := by
  unfold doDoorbellRecordArrive
  rw [if_neg (by simp [hread, hact])]
  dsimp only
  rw [hm]
  dsimp only
  rw [if_pos htorn, if_pos htries]

/-- Descriptors that arrive at a ring that nothing holds back are fetched, and the ring starts what it can (R95). -/
theorem doDescriptorArrive_active {n r k : Nat} {m : MemIn} {d : Dev} (hact : (ringSt d n r).state = .active)
    (htype : (ringSt d n r).entry.type ≠ 4) (hfn : fnState d n = 1) (hqui : (fnSt d n).qui.on = false)
    (hcut : d.pm.cut.window = false) (hbank : bankerLike d = false) (hswap : d.pair.swapping = false)
    (hjob : jobHold d n r = false) (hcommit : commitHold d n r = false) :
    doDescriptorArrive n r k m d =
      (let e := fetchSlots (min k (fetchRoom (ringSt d n r))) d n r m
       purgeRing (if (ringSt e n r).state = .active then issueFetch e n r else e) n r) := by
  unfold doDescriptorArrive
  dsimp only
  rw [if_neg (by simp [hact, htype, hfn, hqui, hcut, hbank, hswap, hjob, hcommit])]

/-- A head of the commit ring that nothing holds runs, and its layers are accepted whole (R104). -/
theorem doCommitHead_accepted {f r : Nat} {tables : List MemIn} {q0 q : Desc} {d0 d : Dev} {items}
    (hq : (ringSt d0 f r).queue.head? = some q0) (hfree : commitHolds d0 f q0 = false)
    (hr : Runs d0 f r 0x200 tables chkCommitHead q d) (hall : chkCommitAll d f q = .ok items) :
    doCommitHead f r tables d0 = purgeRing (acceptCommit d f (.desc f r q.idx) (bits (at4 q.words 0x10) 3 0)
      (bits (at4 q.words 0x10) 31 16) q.cp (strictOf q.words) false items) f r := by
  obtain ⟨rest, hqueue⟩ := List.head?_eq_some_iff.mp hq
  unfold doCommitHead
  rw [hqueue]
  dsimp only
  rw [hfree, if_neg (by simp), startDesc_runs hr false actCommitHead]
  unfold actCommitHead
  rw [hall]

/-- The island's commit that its checks pass commits its staging copies (R236). -/
theorem doSiCommit_done {a : Acc} {v n : Word} {d0 d : Dev} (tables : List MemIn) (hw : Written d0 a CM_SI_COMMIT v d n)
    (hgood : commitBad d0 (fb d0 CM_SI_COMMIT CM_SI_COMMIT_BUSY) n = none) :
    doSiCommit a v tables d0 = commitStage d { fn := 0, island := true } (bits n 19 16) (bits n 15 0) tables := by
  unfold doSiCommit
  rw [guardWrite_done hw hgood]

/-- An unlocked authorisation of CC3 is the word written, and each function that loses it is demoted (R228). -/
theorem doCc3AuthWrite_unlocked {a : Acc} {v n : Word} {d0 d : Dev} (hw : Written d0 a CM_CC3_AUTH v d n)
    (hfree : locked d0 3 = false) :
    doCc3AuthWrite a v d0 = ((bitsOf 32 (rd d0 CM_CC3_AUTH).toNat).filter (fun f => !hasBit v.toNat f)).foldl demoteCc3
      (wr d CM_CC3_AUTH (BitVec.ofNat 32 v.toNat)) := by
  unfold Written at hw
  unfold doCc3AuthWrite
  dsimp only
  rw [hw]
  dsimp only
  rw [hfree, if_neg (by simp), if_neg (by simp)]

/-- Settles O4. -/
theorem ringsRun : Obligations.RingsRun := by
  unfold Obligations.RingsRun
  refine ⟨?_, ?_, ?_, ?_, ?_, ?_, ?_, ?_, fun s f r q d hr => congrArg (after s) (startDesc_runs hr true actNop),
    fun s f r q d hr => congrArg (after s) (startDesc_runs hr true actSignal),
    fun s f r q d hr => congrArg (after s) (startDesc_runs hr true actWait),
    fun s f r q d hr => congrArg (after s) (startDesc_runs hr true actCpWrite), ?_, ?_, ?_, ?_⟩
  · intro s a f r d hk hfn hact hread hbank hcut hqui
    exact congrArg (after s) (doKick_active hk hfn hact hread hbank hcut hqui)
  · intro s a f r m d e ws hk hfn hbank hm
    exact congrArg (after s) (doReloadRing_words hk hfn hbank hm)
  · intro s a f m d e ws hk hfn hbank hm hgood
    exact congrArg (after s) (doReloadVectors_words hk hfn hbank hm hgood)
  · rintro s f r m d ws e hread hact hm hwhole hnewer hfit htype rfl
    exact congrArg (after s) (doDoorbellRecordArrive_newer hread hact hm hwhole hnewer hfit htype)
  · intro s f r m d ws hread hact hm htorn htries
    exact congrArg (after s) (doDoorbellRecordArrive_torn hread hact hm htorn htries)
  · intro s f r hread htries
    exact congrArg (after s) (if_pos ⟨hread, htries⟩)
  · rintro s f r n m d hact htype hfn hqui hcut hbank hswap hjob hcommit rfl
    exact congrArg (after s) (doDescriptorArrive_active hact htype hfn hqui hcut hbank hswap hjob hcommit)
  · intro s f v hpend hoff
    exact congrArg (after s) (if_neg (not_or.mpr ⟨hpend, hoff⟩))
  · intro s f r q d e hr hm
    refine congrArg (after s) ((startDesc_runs hr true actCpRead).trans ?_)
    unfold actCpRead
    rw [hm]
    rfl
  · intro s f r tables q0 q d items hq hfree hr hall
    exact congrArg (after s) (doCommitHead_accepted hq hfree hr hall)
  · intro s a v tables d n hw hgood
    exact congrArg (after s) (doSiCommit_done tables hw hgood)
  · intro s a v d n hw hfree
    exact congrArg (after s) (doCc3AuthWrite_unlocked hw hfree)

end Sys2Proof.Machine
end

section
/-! SUPPORT. The packets of the GPU complete. -/

namespace Sys2Proof.Machine

section
variable {d e : Dev} {c code : Nat} {w : List Word} {j : JobRun} {ok : JobRun → Bool} {act : JobRun → Dev → Dev × Bool}

/-- A packet whose effect succeeds has it, and the front end goes on behind the packet. -/
theorem pktRun_done (h : Packet d c code w j) (hc : code ≤ 0x0E) (hok : ok j = true) (ha : act j d = (e, true)) :
    pktRun c code w ok act d = pktNext e c (pktN w) := by
  rw [pktRun_packet h hc hok act, ha, if_pos rfl]

/-- A packet whose effect moves the front end itself lets the slots go on. -/
theorem pktRun_moved (h : Packet d c code w j) (hc : code ≤ 0x0E) (hok : ok j = true) (ha : act j d = (e, false)) :
    pktRun c code w ok act d = gpuRun e := by
  rw [pktRun_packet h hc hok act, ha, if_neg (by simp)]

end

/-- A target whose pool and scratch hold it begins a pass (R161). -/
theorem actTarget_fits {c : Nat} {w : List Word} {d : Dev} (j : JobRun)
    (h : ¬ ((gctx d c).pool.pages * 4096 < toPages (2 * reserveOf (attsOf w)) ∨
      (gctx d c).scratch.pages * 4096 < scratchNeed (attsOf w))) :
    actTarget c w j d = (onJob { d with freeCtr := d.freeCtr + 1 } c (fun j =>
      { j with pass := some {
        atts := attsOf w, colours := bits (wd w 1) 3 0, q := reserveOf (attsOf w), used := 0, siding := false, lists := []
        ops := [], prims := 0, scissor := [], key := d.freeCtr, held := none } }), true) := by
  unfold actTarget
  exact if_neg h

/-- A state object that its checks pass is read. -/
theorem readObj_ok {d d1 d2 : Dev} {c f a : Nat} {m : MemIn} {ws us : List Word}
    (hhead : memRead d f (jobMid d c) a 4 m = (d1, .words ws))
    (hbody : memRead d1 f (jobMid d c) a (max 4 (cdiv (wd ws 2).toNat 4)) m = (d2, .words us)) (hok : objOk d2 us = true) :
    readObj d c f a m = (d2, .inl us) := by
  unfold readObj
  simp only [hhead, readFailed, readWords, hbody, hok, if_true]

/-- A state object that the job has not bound yet is read and bound (R156). -/
theorem actState_read {c : Nat} {w : List Word} {m : MemIn} {j : JobRun} {d e : Dev} {us : List Word}
    (hnew : j.psos.find? (fun p => decide (p.1 = wd64 w 1)) = none) (hread : readObj d c j.f (wd64 w 1) m = (e, .inl us)) :
    actState c w m j d = (onJob e c (fun j =>
      { j with pso := wd64 w 1, lock := Config.interlock us % 4, psos := (wd64 w 1, Config.interlock us % 4) :: j.psos }),
        true) := by
  unfold actState
  dsimp only
  rw [hnew]
  dsimp only
  rw [hread]

/-- A state object that the job knows is bound again without a read (R156). -/
theorem actState_known {c : Nat} {w : List Word} {m : MemIn} {j : JobRun} {d : Dev} {p : Nat × Nat}
    (h : j.psos.find? (fun p => decide (p.1 = wd64 w 1)) = some p) :
    actState c w m j d = (onJob d c (fun j => { j with pso := wd64 w 1, lock := p.2 }), true) := by
  unfold actState
  dsimp only
  rw [h]

/-- The bytes of the arguments of an indirect draw. -/
def indirectLen (w : List Word) : Nat :=
  if (wd w 3).toNat = 0 then 0 else ((wd w 3).toNat - 1) * (wd w 4).toNat + (if bit (wd w 5) 0 then 20 else 16)

/-- An indirect draw whose arguments can be read draws (R154). -/
theorem actDrawIndirect_readable {c : Nat} {w : List Word} {m : MemIn} {objs : List ObjIn} {prims : List Prim}
    {st : List ShaderStore} {j : JobRun} {d : Dev}
    (hfault : (if indirectLen w = 0 then none else firstFault d j.f false m.ats (pagesOf (wd64 w 1) (indirectLen w))) = none)
    (hecc : (m.ecc || (readPages (pagesFuel (indirectLen w)) d j.f (wd64 w 1) 0 (indirectLen w) []).isNone) = false) :
    actDrawIndirect c w m objs prims st j d = drawWith c objs prims st j d := by
  unfold indirectLen at hfault hecc
  unfold actDrawIndirect
  dsimp only
  rw [hfault]
  dsimp only
  rw [hecc]
  rfl

/-- A pass ends when its attachments are loaded and stored (R154). -/
theorem actPassEnd_stored {c : Nat} {j : JobRun} {d e : Dev} {p : PassRun} (hp : j.pass = some p)
    (hload : loadFault d j p = none) (hgood : loadBad d j p = false)
    (hstore : storePass (tellBadBlocks d c j p) c j p false = (e, true)) :
    actPassEnd c j d =
      (noteWrote (onJob e c (fun j => { j with pass := none })) c ((attStored p false).flatMap attRegions), true) := by
  have hr : renderPass d c j p false = (e, true) := by
    unfold renderPass
    rw [hload]
    dsimp only
    rw [hgood, hstore]
    rfl
  unfold actPassEnd
  rw [hp]
  dsimp only
  rw [hr]
  rfl

/-- The stores of a dispatch that reach memory end it (R154). -/
theorem withStores_stored {c : Nat} {st : List ShaderStore} {j : JobRun} {d e : Dev}
    (h : shaderStores (noteWrote d c (st.map (fun s => (s.iova.toNat, s.bytes.length)))) j.f (jobMid d c)
      (orderStores j.lock st) = (e, true)) : withStores c st j d = (e, true) := by
  unfold withStores
  dsimp only
  rw [h]
  rfl

/-- A time stamp that reaches memory is written (R154). -/
theorem actTimestamp_stored {c : Nat} {w : List Word} {j : JobRun} {d e : Dev}
    (h : memWrite (noteWrote d c [(wd64 w 1, 8)]) j.f (jobMid d c) (wd64 w 1) (leBytes 8 d.dt) = (e, true)) :
    actTimestamp c w j d = (e, true) := by
  unfold actTimestamp
  dsimp only
  rw [h]
  rfl

/-- Settles O5. -/
theorem packetsRun : Obligations.PacketsRun := by
  unfold Obligations.PacketsRun
  refine ⟨?_, ?_, ?_, ?_, ?_, ?_, ?_, ?_, ?_, ?_, ?_, ?_, ?_, ?_, ?_, ?_⟩
  · intro s c w j h
    exact congrArg (after s) (pktRun_done h (by decide) rfl rfl)
  · intro s c w j h hok hfits
    exact congrArg (after s) (pktRun_done h (by decide) hok (actTarget_fits j hfits))
  · intro s c w m j d e ws us h hn hnew hhead hbody hobj
    exact congrArg (after s) (pktRun_done h (by decide) (by simp [hn]) (actState_read hnew (readObj_ok hhead hbody hobj)))
  · intro s c w m j p h hn hknown
    exact congrArg (after s) (pktRun_done h (by decide) (by simp [hn]) (actState_known hknown))
  · intro s c w j h hn hres
    exact congrArg (after s) (pktRun_done h (by decide) (by simp [hn, hres]) rfl)
  · intro s c w objs prims st j e h hn hpass hdraw
    exact congrArg (after s) (pktRun_done h (by decide) (by simp [hn, hpass]) hdraw)
  · intro s c w objs prims st j e h hn hpass hres hdraw
    exact congrArg (after s) (pktRun_done h (by decide) (by simp [hn, hpass, hres]) hdraw)
  · intro s c w m objs prims st j e h hn hpass hres hfault hecc hdraw
    exact congrArg (after s) (pktRun_done h (by decide) (by simp [hn, hpass, hres])
      ((actDrawIndirect_readable hfault hecc).trans hdraw))
  · intro s c w j h hn hpass hres hres'
    exact congrArg (after s) (pktRun_done h (by decide) (by simp [hn, hpass, hres, hres']) rfl)
  · intro s c w j p e h hn hpass hp hload hgood hstore
    exact congrArg (after s) (pktRun_done h (by decide) (by simp [hn, hpass]) (actPassEnd_stored hp hload hgood hstore))
  · intro s c w st j e h hn hpass hstore
    exact congrArg (after s) (pktRun_done h (by decide) (by simp_all) (withStores_stored hstore))
  · intro s c w m st j d e ws h hn hpass hread hstore
    refine congrArg (after s) (pktRun_done h (by decide) (by simp_all) ?_)
    unfold actDispatchIndirect
    dsimp only
    rw [hread]
    exact withStores_stored hstore
  · intro s c w j h hn hres
    exact congrArg (after s) (pktRun_done h (by decide) (by simp [hn, hres]) rfl)
  · intro s c w j h hn hcall
    exact congrArg (after s) (pktRun_moved h (by decide) (by simp_all) rfl)
  · intro s c w j e h hn hstore
    exact congrArg (after s) (pktRun_done h (by decide) (by simp [hn]) (actTimestamp_stored hstore))
  · intro s c w j h hn hpass
    exact congrArg (after s) (pktRun_done h (by decide) (by simp [hn, hpass]) rfl)

end Sys2Proof.Machine
end

section
/-! SUPPORT. Jobs, contexts and clusters complete. -/

namespace Sys2Proof.Machine

/-! ### Jobs -/

/-- A job of a function below its limit is taken at once, or waits for the point that binds it (R152). -/
theorem doJobSubmit_runs {f r : Nat} {q : Desc} {d0 d : Dev} (hroom : jobsOf d0 f ≠ ptJobMax d0 f)
    (hr : Runs d0 f r 0x100 [] chkJobSubmit q d) :
    doJobSubmit f r d0 = purgeRing (if q.cp.isSome then d else gpuRun (onLive d f r q.idx (fun x => { x with rel
      := d.dt }))) f r := by
  unfold doJobSubmit
  rw [if_neg hroom, startDesc_runs hr false actJobSubmit]
  rfl

/-- A cancel finds the job by its tag and ends it or takes it from the queue (R151). -/
theorem actJobCancel_found {f r : Nat} {q : Desc} {d : Dev} {p}
    (h : jobByTag d f r (bits (at4 q.words 0x10) 15 0) = some p) :
    actJobCancel f r q d = gpuRun (complete (if runsNow d (ctxOfRing d f r) f r p.idx then endJob d (ctxOfRing d f r) stABORTED 0
      else cancelQueued d (ctxOfRing d f r) f r p.idx) f r q.idx stOK) := by
  unfold actJobCancel
  rw [h]

/-- A cancel that finds no job says so (R151). -/
theorem actJobCancel_absent {f r : Nat} {q : Desc} {d : Dev}
    (h : jobByTag d f r (bits (at4 q.words 0x10) 15 0) = none) : actJobCancel f r q d = complete d f r q.idx stOK 1 := by
  unfold actJobCancel
  rw [h]

/-- A job whose stream is at its end is over; inside a pass it was wrong (R153). -/
theorem doJobComplete_atEnd {c : Nat} {d : Dev} {j : JobRun} (hjob : (gctx d c).job = some j) (hrun : (gctx d c).state = 2)
    (hcall : j.call.isSome = false) (hend : ¬ j.off < j.dwords) :
    doJobComplete c d = if j.pass.isSome then endJobRun d c stBAD_DESC 0 else endJobRun d c stOK 0 := by
  unfold doJobComplete
  rw [hjob]
  dsimp only
  rw [if_neg (by simp [hrun, hcall, hend])]

/-- A fault ends the job that runs, and is noted by its kind (R175). -/
theorem doJobFault_running {c : Nat} {k : JobFaultKind} {lost : List (Nat × Nat)} {d : Dev} {j : JobRun}
    (hjob : (gctx d c).job = some j) (hrun : (gctx d c).state = 2) :
    doJobFault c k lost d = match k with
      | .translation t iova wr => endJobRun (noteFault (noteWrote d c lost) j.f (jobMid (noteWrote d c lost) c) t.val iova.toNat wr) c
          stERR_FAULT (jobOffset j)
      | .ecc => endJobRun (noteWrote d c lost) c stERR_ECC (jobOffset j) := by
  unfold doJobFault
  rw [hjob]
  dsimp only
  cases k with
  | translation t iova wr => exact if_neg (not_not.mpr hrun)
  | ecc => exact if_neg (not_not.mpr hrun)

/-! ### Slots and budgets -/

/-- An express job at its clear point takes the slots that it may, and the jobs on them yield (R186). -/
theorem doClearLine_due {c f rel dl : Nat} {d0 d : Dev} (hc : clearJob d0 c = some (f, rel, dl))
    (hd : d = advance (clearPoint d0 rel dl) d0) (hown : ownPoints d = true) :
    doClearLine c d0 = gpuRun ((clearSlots d f).foldl (fun d i => if (gslot d i).ctx.any (fun k => !(gctx d k).express) then
      yieldSlot d i (d.dt + graceOf d) else d)
      { d with gpu := { d.gpu with clears := SMap.set d.gpu.clears c (maskOfList (clearSlots d f)) } }) := by
  unfold doClearLine
  rw [hc]
  dsimp only
  rw [← hd, hown]
  exact if_neg (by simp)

/-- A slot that yields of itself is free for others (R187). -/
theorem doSoftYieldDone_yields {i c : Nat} {d : Dev} (hctx : (gslot d i).ctx = some c) (hy : (gslot d i).yields = true)
    (hsave : (gslot d i).saving = none) : doSoftYieldDone i d = gpuRun (preemptSlot (saveSlot d c false) i) := by
  unfold doSoftYieldDone
  rw [hctx]
  dsimp only
  rw [hy, hsave]
  exact if_neg (by simp)

/-- A slot that has not yielded in its grace is saved by force, and its cluster counts it (R187). -/
theorem doHardPreempt_late {i c : Nat} {d0 d : Dev} (hctx : (gslot d0 i).ctx = some c) (hy : (gslot d0 i).yields = true)
    (hsave : (gslot d0 i).saving = none) (hgrace : (gslot d0 i).graceEnd ≠ 0)
    (hd : d = onSlot (advance (gslot d0 i).graceEnd d0) i (fun x =>
      { x with saving := some (advance (gslot d0 i).graceEnd d0).dt })) :
    doHardPreempt i d0 = ((slotCluster d i).map (fun k => count d (182 + 4 * k + 3))).getD d := by
  unfold doHardPreempt
  dsimp only
  rw [if_neg (by simp [hctx, hy, hsave, hgrace]), ← hd]
  cases slotCluster d i with
  | none => rfl
  | some k => rfl

/-- The first part of a save frees the slot, and the rest of it follows while the job is there (R188). -/
theorem doSaveFirstPartDone_saving {i t c : Nat} {d0 d : Dev} (hsave : (gslot d0 i).saving = some t)
    (hctx : (gslot d0 i).ctx = some c)
    (hd : d = preemptSlot (saveSlot (advance (t + 3414) d0) c true) i) :
    doSaveFirstPartDone i d0 =
      gpuRun (if (gctx d c).job.isSome then onSlot d i (fun x => { x with tail := some (c, t + 11147) }) else d) := by
  unfold doSaveFirstPartDone
  rw [hsave, hctx]
  dsimp only
  rw [← hd]

/-- A context on a slot whose budget is used up is spent, and is told so once (R183). -/
theorem doBudgetExhausted_charged {c n : Nat} {d0 d e : Dev} (hn : n = (slotsHeld d0 c).length) (hcharge : charges d0 c = true)
    (hn0 : n ≠ 0) (hspent : (gctx d0 c).spent = false)
    (hd : d = chargeCtx (advance (d0.dt + cdiv ((gctx d0 c).budget * 16000 - (gctx (chargeCtx d0 c) c).charge) n) d0) c)
    (he : e = onCtx d c (fun x => { x with spent := true, told := true })) :
    doBudgetExhausted c d0 =
      (let x := if fb e GX_SCHED_CTRL GX_SCHED_CTRL_BUDGET_EVT = true ∧ (!(gctx d c).told) = true then
         jobEvent e c 0x11 (gctx d0 c).budget else e
       gpuRun { x with gpu := { x.gpu with clears := SMap.erase x.gpu.clears c } }) := by
  unfold doBudgetExhausted
  dsimp only
  rw [← hn, if_neg (by simp [hcharge, hn0, hspent]), ← hd, ← he]

/-- The budgets start again at the frame of their platform (R183). -/
theorem doBudgetReset_due {d0 d : Dev} {x : Raster} (hx : x = raster d0 (fg d0 GX_SCHED_CTRL GX_SCHED_CTRL_BUDGET_PLAT))
    (hd : d = (if x.had ∧ x.vtot ≠ 0 ∧ absAt x d0.dt % x.vtot ≠ 0 then advance (dtOf x (absAt x d0.dt / x.vtot + 1) 0) d0
      else d0))
    (hown : ownPoints d = true) :
    doBudgetReset d0 = gpuRun ((d.gpu.ctxs.map (fun q => q.1)).foldl (fun d c =>
      onCtx (chargeCtx d c) c (fun y => { y with charge := 0, spent := false, told := false })) d) := by
  unfold doBudgetReset
  dsimp only
  rw [← hx, ← hd, hown]
  exact if_neg (by simp)

/-- A time partition that is shut opens at its line (R192). -/
theorem doTpWindowStart_shut {f p : Nat} {d0 d : Dev} (hp : p = fg d0 HS_TP_CTRL HS_TP_CTRL_REF) (hact : tpActive d0 = true)
    (hvalid : ptValid d0 f = true) (htime : ptTimePart d0 f = true) (hhad : (raster d0 p).had = true)
    (hline : ¬ ptTpStart d0 f ≥ (raster d0 p).vtot) (hshut : d0.gpu.windows.contains f = false)
    (hd : d = chargeAll (advance (lineStart d0 p (ptTpStart d0 f)) d0)) (hown : ownPoints d = true) :
    doTpWindowStart f d0 = gpuRun { d with gpu := { d.gpu with windows := d.gpu.windows ++ [f] } } := by
  unfold doTpWindowStart
  dsimp only
  rw [← hp, hact, hvalid, htime, hhad, hshut, ← hd, hown, if_neg (by simpa using hline)]
  exact if_neg (by simp)

/-- A time partition that is open shuts at its last line (R192). -/
theorem doTpWindowEnd_open {f p e : Nat} {d0 d : Dev} (hopen : d0.gpu.windows.contains f = true)
    (hp : p = fg d0 HS_TP_CTRL HS_TP_CTRL_REF) (he : e = ptTpStart d0 f + ptTpLen d0 f)
    (hd : d = (if (raster d0 p).had = true ∧ (raster d0 p).vtot ≠ 0 then
      advance (lineStart d0 p (if e < (raster d0 p).vtot then e else 0)) d0 else d0)) (hown : ownPoints d = true) :
    doTpWindowEnd f d0 =
      gpuRun { chargeAll d with gpu := { (chargeAll d).gpu with
        windows := (chargeAll d).gpu.windows.filter (fun w => w != f) } } := by
  unfold doTpWindowEnd
  dsimp only
  rw [hopen, if_neg (by simp), ← hp, ← he, ← hd, hown]
  exact if_neg (by simp)

/-! ### Clusters -/

/-- The death of a cluster in use moves its work, and the spare of its group comes to its relief (R194). -/
theorem doClusterDead_used {k i : Nat} {cause : DeathCause} {d : Dev} (hlive : clState d k = 0)
    (hslot : (List.range 16).find? (fun i => decide (slotCluster d i = some k)) = some i)
    (hwork : ¬ (deathCode cause = 1 ∧ (gslot d i).ctx.isNone = true)) :
    doClusterDead k cause d = gpuRun (saveMap (relieve (recoverWork (rasterEvent (retireCluster d k (deathCode cause)) 0x12
      (k + deathCode cause * 256 + i * 65536)) i k true) (k / 5) (i % 4))) := by
  unfold doClusterDead
  dsimp only
  rw [if_pos hlive, hslot]
  exact if_neg hwork

/-- The death of a spare is noted (R194). -/
theorem doClusterDead_spare {k : Nat} {cause : DeathCause} {d : Dev} (hspare : clState d k = 1) (hcause : deathCode cause ≠ 1) :
    doClusterDead k cause d = spareDies d k (deathCode cause) := by
  unfold doClusterDead
  dsimp only
  rw [if_neg (by omega), if_pos ⟨hspare, hcause⟩]

/-- A relief that is over maps the spare in the place of the dead cluster (R194). -/
theorem doReliefDone_waiting {g i o : Nat} {d e : Dev} (hi : SMap.get d.gpu.relief g = some i)
    (ho : o = fg d (GX_CLMAP g) GX_CLMAP_SPARE)
    (he : e = setClState (fs { d with gpu := { d.gpu with relief := SMap.erase d.gpu.relief g } } (GX_CLMAP g) (clmapFld i) o)
      (5 * g + o) 0 (4 * g + i)) :
    doReliefDone g d = gpuRun (fillEmpty (rasterEvent (saveMap (fs e (GX_CLMAP g) GX_CLMAP_SPARE (spareOf e g))) 0x13
      (5 * g + o + (4 * g + i) * 65536)) g) := by
  unfold doReliefDone
  rw [hi]
  dsimp only
  rw [← ho, ← he]

/-- An error of the local memory of a cluster in use gives its work to others (R195). -/
theorem doLdsEccError_used {k i : Nat} {d : Dev}
    (hslot : (List.range 16).find? (fun i => decide (slotCluster d i = some k)) = some i)
    (hlive : clState d k = 0) : doLdsEccError k d = gpuRun (recoverWork d i k true) := by
  unfold doLdsEccError
  rw [hslot]
  exact if_pos hlive

/-- An access of a dead cluster is noted, and told once (R197). -/
theorem doPosthumous_dead {k : Nat} {isWr : Bool} {d : Dev} (hdead : clState d k = 2) :
    doPosthumous k isWr d = if d.gpu.posted.contains k then notePosthumous d k isWr
      else tellPosthumous (notePosthumous d k isWr) k isWr := by
  unfold doPosthumous
  rw [if_neg (not_not.mpr hdead)]

/-- The host starts a self-test of a dead cluster while none runs (R198). -/
theorem doBistStart_dead {a : Acc} {v n : Word} {d0 d : Dev} (hw : Written d0 a GX_BIST v d n) (hhost : a.mid.toNat = 0)
    (hidle : fb d0 GX_BIST GX_BIST_START = false) (hgo : bit v 31 = true) (hdead : clState d0 (bits v 4 0) = 2) :
    doBistStart a v d0 =
      startBist (saveMap (fs (setClState d (bits v 4 0) 3 0x1F) GX_BIST GX_BIST_RESULT 0)) (8 + bits v 4 0 / 5) := by
  unfold Written at hw
  unfold doBistStart
  dsimp only
  rw [hw]
  dsimp only
  rw [if_neg (by simp [hhost]), hidle, hgo, if_neg (by simp), if_neg (by simp), if_neg (not_not.mpr hdead)]

/-- The end of a self-test sets its result, and the domain goes off where the mode holds it off (R198). -/
theorem doBistDone_busy {pass : Bool} {k : Nat} {d e : Dev} (hbusy : fb d GX_BIST GX_BIST_START = true)
    (hk : k = fg d GX_BIST GX_BIST_CLUSTER) (he : e = bistResult pass d) :
    doBistDone pass d = if modeHeldOff e (8 + k / 5) ∧ domState e (8 + k / 5) ≠ 5 then modeOffDomain e (8 + k / 5) else e := by
  unfold doBistDone
  rw [hbusy, if_neg (by simp)]
  dsimp only
  rw [← hk, ← he]

/-- A self-test that fails leaves its cluster dead by its cause (R198). -/
theorem bistResult_failed {k : Nat} {d : Dev} (hbusy : fb d GX_BIST GX_BIST_START = true)
    (hk : k = fg d GX_BIST GX_BIST_CLUSTER) :
    bistResult false d = saveMap (fs (setClState (rasterEvent (fs (fs d GX_BIST GX_BIST_START 0) GX_BIST GX_BIST_RESULT 2) 0x16
      (k + 0)) k 2 0x1F) (GX_CL_STAT k) GX_CL_STAT_CAUSE 4) := by
  unfold bistResult
  rw [hbusy, if_neg (by simp)]
  dsimp only
  rw [← hk, if_neg (by simp), if_neg (by simp)]
  rfl

/-- A self-test that passes makes its cluster a spare again (R198). -/
theorem bistResult_passed {k : Nat} {d e : Dev} (hbusy : fb d GX_BIST GX_BIST_START = true)
    (hk : k = fg d GX_BIST GX_BIST_CLUSTER)
    (he : e = setClState (rasterEvent (fs (fs d GX_BIST GX_BIST_START 0) GX_BIST GX_BIST_RESULT 1) 0x16 (k + 256)) k 1 0x1F) :
    bistResult true d = fillEmpty (saveMap (if fg e (GX_CLMAP (k / 5)) GX_CLMAP_SPARE ≤ 4 then e
      else fs e (GX_CLMAP (k / 5)) GX_CLMAP_SPARE (k % 5))) (k / 5) := by
  unfold bistResult
  rw [hbusy, if_neg (by simp)]
  dsimp only
  rw [← hk, if_pos rfl, if_pos rfl, Bool.toNat_true, Nat.one_mul, ← he]

/-- Settles O6. -/
theorem gpuJobsRun : Obligations.GpuJobsRun := by
  unfold Obligations.GpuJobsRun
  refine ⟨?_, fun s f r q d hr => congrArg (after s) (startDesc_runs hr true actCtxItem),
    fun s f r q d hr => congrArg (after s) (startDesc_runs hr true actCtxItem),
    fun s f r q d hr => congrArg (after s) (startDesc_runs hr true actCtxDestroy),
    ?_, ?_, ?_, ?_, ?_, ?_, ?_, ?_, ?_, ?_, ?_, ?_, ?_, ?_, ?_, ?_, ?_, ?_, ?_, ?_, ?_, ?_, ?_⟩
  · intro s f r q d hroom hr
    exact congrArg (after s) (doJobSubmit_runs hroom hr)
  · intro s f r q d p hr hp
    exact after_startDesc hr true actJobCancel (actJobCancel_found hp)
  · intro s f r q d hr hp
    exact after_startDesc hr true actJobCancel (actJobCancel_absent hp)
  · intro s c j hjob hrun hcall hend
    exact congrArg (after s) (doJobComplete_atEnd hjob hrun hcall hend)
  · intro s c t iova wr lost j hjob hrun
    exact congrArg (after s) (doJobFault_running hjob hrun)
  · intro s c lost j hjob hrun
    exact congrArg (after s) (doJobFault_running hjob hrun)
  · intro s c f rel dl d hc hd hown
    exact congrArg (after s) (doClearLine_due hc hd hown)
  · intro s sl c hctx hy hsave
    exact congrArg (after s) (doSoftYieldDone_yields hctx hy hsave)
  · intro s sl c d hctx hy hsave hgrace hd
    exact congrArg (after s) (doHardPreempt_late hctx hy hsave hgrace hd)
  · intro s sl t c d hsave hctx hd
    exact congrArg (after s) (doSaveFirstPartDone_saving hsave hctx hd)
  · intro s c n d e hn hcharge hn0 hspent hd he
    exact congrArg (after s) (doBudgetExhausted_charged hn hcharge hn0 hspent hd he)
  · intro s x d hx hd hown
    exact congrArg (after s) (doBudgetReset_due hx hd hown)
  · intro s f p d hp hact hvalid htime hhad hline hshut hd hown
    exact congrArg (after s) (doTpWindowStart_shut hp hact hvalid htime hhad hline hshut hd hown)
  · intro s f p e d hopen hp he hd hown
    exact congrArg (after s) (doTpWindowEnd_open hopen hp he hd hown)
  · intro s k cause i hlive hslot hwork
    exact congrArg (after s) (doClusterDead_used hlive hslot hwork)
  · intro s k cause hspare hcause
    exact congrArg (after s) (doClusterDead_spare hspare hcause)
  · intro s g i o e hi ho he
    exact congrArg (after s) (doReliefDone_waiting hi ho he)
  · intro s k i hslot hlive
    exact congrArg (after s) (doLdsEccError_used hslot hlive)
  · intro s k isWr hdead hposted
    exact congrArg (after s) ((doPosthumous_dead hdead).trans (if_pos hposted))
  · intro s k isWr hdead hposted
    exact congrArg (after s) ((doPosthumous_dead hdead).trans (if_neg (by rw [hposted]; simp)))
  · intro s a v d n hw hhost hidle hgo hdead
    exact congrArg (after s) (doBistStart_dead hw hhost hidle hgo hdead)
  · intro s pass k e hbusy hk he
    exact congrArg (after s) (doBistDone_busy hbusy hk he)
  · intro s k hbusy hk
    exact bistResult_failed hbusy hk
  · intro s k e hbusy hk he
    exact bistResult_passed hbusy hk he

end Sys2Proof.Machine
end

section
/-! SUPPORT. The buffer descriptors complete. -/

namespace Sys2Proof.Machine

/-- A buffer is created at a free entry by a device that is no banker (R240). -/
theorem actBufCreate_lead {f r i : Nat} {q : Desc} {d : Dev} (hlead : bankerLike d = false)
    (hi : i = (freeEntries d).getD ((takeFree d).1 % (freeEntries d).length) 0) :
    actBufCreate f r q d =
      (let e := createEntry (takeFree d).2 i f (atN q.words 0x10 8)
       complete (sendBuf e i) f r q.idx stOK (handleOf e i).toNat) := by
  unfold actBufCreate
  rw [hlead, if_neg (by simp), hi]

section
variable {f r : Nat} {q : Desc} {d : Dev}

/-- A release of a buffer without references is over at once (R247). -/
theorem actRelease_unreferenced (h : refsOf d (handleIdx (at4 q.words 0x10)) = []) :
    actRelease false f r q d = complete d f r q.idx stOK 1 := by
  unfold actRelease
  dsimp only
  simp only [Bool.false_eq_true, if_false, if_pos h]

/-- A release of a referenced buffer waits (R247). -/
theorem actRelease_referenced (h : refsOf d (handleIdx (at4 q.words 0x10)) ≠ []) :
    actRelease false f r q d = onBuf d (handleIdx (at4 q.words 0x10)) (fun e =>
      { e with waits := e.waits ++ [{ fn := f, ring := r, idx := q.idx, upto := d.nextCommit, destroy := false, dt
        := d.dt }] }) := by
  unfold actRelease
  dsimp only
  simp only [Bool.false_eq_true, if_false, if_neg h]

/-- What a destroy makes of the entry that it names, before it looks at the references. -/
def markDestroyed (d : Dev) (i : Nat) : Dev := sendBuf (onBuf d i (fun e => { e with state := 2 })) i

/-- A destroy of a buffer without references frees its entry (R248). -/
theorem actDestroy_unreferenced {e : Dev} (he : e = markDestroyed d (handleIdx (at4 q.words 0x10)))
    (h : refsOf e (handleIdx (at4 q.words 0x10)) = []) :
    actRelease true f r q d = freeEntry (complete e f r q.idx stOK 1) (handleIdx (at4 q.words 0x10)) := by
  unfold markDestroyed at he
  unfold actRelease
  dsimp only
  rw [if_pos rfl, ← he, if_pos h, if_pos rfl]

/-- A destroy of a referenced buffer waits (R248). -/
theorem actDestroy_referenced {e : Dev} (he : e = markDestroyed d (handleIdx (at4 q.words 0x10)))
    (h : refsOf e (handleIdx (at4 q.words 0x10)) ≠ []) :
    actRelease true f r q d = onBuf e (handleIdx (at4 q.words 0x10)) (fun x =>
      { x with waits := x.waits ++ [{ fn := f, ring := r, idx := q.idx, upto := e.nextCommit, destroy := true, dt
        := e.dt }] }) := by
  unfold markDestroyed at he
  unfold actRelease
  dsimp only
  rw [if_pos rfl, ← he, if_neg h]

/-- A query whose answer reaches memory is over (R249). -/
theorem actBufQuery_stored {x : BufEntry} {e : Dev} (hx : x = bufEntry d (handleIdx (at4 q.words 0x10)))
    (hm : memWrite d f f (at8 q.words 0x18) (wordBytes (x.words ++ [BitVec.ofNat 32 (x.state * 2 ^ 30 +
      sat (refsOf d (handleIdx (at4 q.words 0x10))).length 65535),
      BitVec.ofNat 32 (sat (x.waits.filter (fun w => !w.destroy)).length 65535), 0, 0, 0, 0, 0, 0])) = (e, true)) :
    actBufQuery f r q d = complete e f r q.idx stOK := by
  unfold actBufQuery
  dsimp only
  rw [← hx, hm]
  dsimp only
  rw [if_pos rfl]

end

/-- Settles O7. -/
theorem buffersRun : Obligations.BuffersRun := by
  unfold Obligations.BuffersRun
  refine ⟨?_, ?_, ?_, ?_, ?_, ?_, ?_⟩
  · rintro s f r q d i e hr hlead hi rfl
    exact after_startDesc hr true actBufCreate (actBufCreate_lead hlead hi)
  · intro s f r q d hr h
    exact after_startDesc hr true (actRelease false) (actRelease_unreferenced h)
  · intro s f r q d hr h
    exact after_startDesc hr true (actRelease false) (actRelease_referenced h)
  · intro s f r q d hr h
    exact after_startDesc hr true (actRelease true) (actDestroy_unreferenced rfl h)
  · intro s f r q d hr h
    exact after_startDesc hr true (actRelease true) (actDestroy_referenced rfl h)
  · rintro s f r q d c n e hr rfl rfl rfl
    exact congrArg (after s) (startDesc_runs hr true actSkeinReserve)
  · intro s f r q d x e hr hx hm
    exact after_startDesc hr true actBufQuery (actBufQuery_stored hx hm)

end Sys2Proof.Machine
end

section
/-! SUPPORT. Scan-out completes. -/

namespace Sys2Proof.Machine

/-! ### DPLLs, routes and sinks -/

/-- A write of a DPLL that no platform uses, in range, drops its lock (R266). -/
theorem doDpllWrite_unused {a : Acc} {k w : Nat} {v n : Word} {d0 d : Dev}
    (hw : Written d0 a (if w = 0 then SO_DPLL_W0 k else SO_DPLL_W1 k) v d n) (hfree : dpllUsed d0 k = false)
    (hrange : (if w = 0 then dpllRangeOk n (rd d0 (SO_DPLL_W1 k)) else dpllRangeOk (rd d0 (SO_DPLL_W0 k)) n) = true) :
    doDpllWrite a k w v d0 = fs d (SO_DPLL_W2 k) SO_DPLL_W2_LOCK 0 := by
  unfold doDpllWrite
  dsimp only
  rw [guardWrite_done hw (by rw [hfree, hrange]; rfl)]

/-- A DPLL that is enabled locks and shows its rate (R265). -/
theorem doDpllLock_enabled {k : Nat} {d : Dev} (hen : fb d (SO_DPLL_W0 k) SO_DPLL_W0_EN = true) :
    doDpllLock k d = fs (fs d (SO_DPLL_W2 k) SO_DPLL_W2_LOCK 1) (SO_DPLL_W2 k) SO_DPLL_W2_FREQ_KHZ
      ((dpllHz d k).1 / (dpllHz d k).2 / 1000) := by
  unfold doDpllLock
  rw [hen, if_neg (by simp)]

/-- The sink that a route leaves, at the device e in which the old platform has reached its blank: it is idle. -/
def leaveRoute (e : Dev) (k : Nat) : Dev :=
  idleSinks (onScan e (fun x => { x with routes := SMap.set x.routes k default })) (fun o => decide (o = k))

/-- The end of a route: its sink goes idle, and its port trains again where the new route asks for it (R269). -/
theorem doRouteIdle_left {k : Nat} {d e : Dev} (hon : (SMap.get d.scan.routes k).on = true)
    (he : (match (SMap.get d.scan.routes k).old.filter (fun p => scans d p) with
      | some p => advance (dtOfAbs (raster d p) (blankFrom (raster d p) (SMap.get d.scan.routes k).from0 d.dt)) d
      | none => d) = e) :
    doRouteIdle k d = if (SMap.get d.scan.routes k).retrain = true ∧
        (portState (leaveRoute e k) (sinkPort k) = 2 ∨ portState (leaveRoute e k) (sinkPort k) = 3) then
      beginTrain (leaveRoute e k) (sinkPort k) else showSlots (settlePorts (leaveRoute e k)) (sinkPort k) := by
  subst he
  unfold doRouteIdle
  dsimp only
  rw [hon]
  exact if_neg (by simp)

/-- A sink that may go live does so at the next frame of its platform (R269). -/
theorem doSinkLive_may {k : Nat} {d : Dev} (h : mayGoLive d k = true) :
    doSinkLive k d = goLive (advance (nextFrameDt d (routeSrc (rd d) k)) d) k := by
  unfold doSinkLive
  rw [h, if_neg (by simp)]

/-! ### Ports -/

/-- The port of a training that ended well: it is trained, and its attempts start again. -/
def trained (d : Dev) (q : Nat) : Dev :=
  showSlots (setPortState (onScan d (fun x => { x with attempts := SMap.set x.attempts q 0 })) q 2) q

/-- A training that ends well is told with the rate, the gear or a free value (R271). -/
theorem doLinkTrainDone_good {q : Nat} {d : Dev} (h : portState d q = 1) :
    doLinkTrainDone q true d =
      if q < 4 then portEvent (trained d q) 0x23 q (fg (trained d q) (SO_DP_CFG q) SO_DP_CFG_RATE)
      else if q < 12 then portEvent (trained d q) 0x23 q (fg (trained d q) (SO_AP_CFG (q - 4)) SO_AP_CFG_GEAR)
      else portEvent (takeFree (trained d q)).2 0x23 q ((takeFree (trained d q)).1 % 2 ^ 32) := by
  unfold doLinkTrainDone
  rw [if_neg (not_not.mpr h), if_pos rfl]
  rfl

/-- A training that fails is tried again, or given up at the third time (R271). -/
theorem doLinkTrainDone_failed {q : Nat} {d : Dev} (h : portState d q = 1) :
    doLinkTrainDone q false d =
      (let n := SMap.get d.scan.attempts q + 1
       let e := if q < 4 then bump d (SO_DP_STAT q) SO_DP_STAT_TRAIN_FAILS else d
       if n ≥ 3 then portEvent (dropPort (onScan e (fun x => { x with attempts := SMap.set x.attempts q 0 })) q 0) 0x25 q n
       else
         let g := onScan e (fun x => { x with attempts := SMap.set x.attempts q n })
         if 4 ≤ q ∧ q < 12 then g else count g (426 + 2 * q + 1)) := by
  unfold doLinkTrainDone
  rw [if_neg (not_not.mpr h), if_neg (by simp)]

/-- A mute takes the sinks of a live port idle at their frames (R272). -/
theorem doMuteApply_muted {q : Nat} {d : Dev} (hmute : hasBit (fg d SO_MUTE SO_MUTE_MUTE) q = true) (hlive : portState d q = 3) :
    doMuteApply q d = dropPort ((byTime (fun x => nextFrameDt d (routeSrc (rd d) x)) ((portSinks q).filter
      (fun x => isLive d x && scans d (routeSrc (rd d) x)))).foldl (fun e x => idleSinks (advance
      (nextFrameDt d (routeSrc (rd d) x)) e) (fun o => decide (o = x))) d) q 2 := by
  unfold doMuteApply
  dsimp only
  rw [if_pos hmute, if_pos hlive]

/-- A port that is no longer muted takes its sinks live at their frames (R272). -/
theorem doMuteApply_unmuted {q : Nat} {d : Dev} (hmute : hasBit (fg d SO_MUTE SO_MUTE_MUTE) q = false)
    (hidle : portState d q = 2) :
    doMuteApply q d = (byTime (fun x => nextFrameDt d (routeSrc (rd d) x)) ((portSinks q).filter (mayGoLive d))).foldl
      (fun e x => goLive (advance (nextFrameDt d (routeSrc (rd d) x)) e) x) d := by
  unfold doMuteApply
  dsimp only
  rw [hmute, if_neg (by simp), if_pos hidle]

/-! ### AUX -/

/-- A command whose GO is set while no transfer runs is sent. -/
theorem doAuxGo_idle {code : Nat} {a : Acc} {p : Nat} {v n : Word} {d0 d : Dev} (hw : Written d0 a (SO_AUX_CMD p) v d n)
    (hidle : auxBusy d0 p = false) (hgo : bit n 31 = true) (hcode : bits n 29 28 = code) :
    doAuxGo code a p v d0 = auxSend (onScan d (fun x => { x with auxTries := SMap.set x.auxTries p 0 })) p := by
  unfold doAuxGo auxWindowWrite
  rw [guardWrite_done hw (by rw [hidle]; rfl)]
  exact if_pos ⟨hgo, hcode⟩

section
variable {p : Nat} {d : Dev} (hbusy : auxBusy d p = true)
include hbusy

/-- An acknowledged write ends its transfer. -/
theorem doAuxReply_ackWrite (bytes : List Byte) (hwr : fg d (SO_AUX_CMD p) SO_AUX_CMD_CMD % 2 = 0) :
    doAuxReply p (.ack bytes) d = auxEnd d p 0 ((fg d (SO_AUX_CMD p) SO_AUX_CMD_LEN + 1) - 1) := by
  unfold doAuxReply
  dsimp only
  rw [hbusy, if_neg (by simp), if_pos hwr]

/-- An acknowledged read stores its bytes, and fails without any. -/
theorem doAuxReply_ackRead (bytes : List Byte) (hrd : fg d (SO_AUX_CMD p) SO_AUX_CMD_CMD % 2 = 1) :
    doAuxReply p (.ack bytes) d =
      (let bs := bytes.take (fg d (SO_AUX_CMD p) SO_AUX_CMD_LEN + 1)
       if bs = [] then auxFail d p 0 else auxEnd (auxStore d p bs) p 0 (bs.length - 1)) := by
  unfold doAuxReply
  dsimp only
  rw [hbusy, if_neg (by simp), if_neg (by omega)]

/-- A refused transfer fails. -/
theorem doAuxReply_nack : doAuxReply p .nack d = auxFail d p 1 := by
  unfold doAuxReply
  rw [hbusy, if_neg (by simp)]

/-- A deferred transfer is sent again, up to seven times. -/
theorem doAuxReply_defer : doAuxReply p .defer d =
    if SMap.get d.scan.auxTries p < 7 then
      auxSend (onScan d (fun x => { x with auxTries := SMap.set x.auxTries p (SMap.get d.scan.auxTries p + 1) })) p
    else auxFail d p 2 := by
  unfold doAuxReply
  rw [hbusy, if_neg (by simp)]

end

/-! ### Hot plug, acknowledges and tearing effects -/

/-- A display is plugged in. -/
theorem doHpdPlug_absent {p : Nat} {d : Dev} (h : fb d (SO_DP_STAT p) SO_DP_STAT_HPD = false) :
    doHpdPlug p d = startPort (portEvent (fs d (SO_DP_STAT p) SO_DP_STAT_HPD 1) 0x20 p 0) p := by
  unfold doHpdPlug
  rw [h, if_neg (by simp)]

/-- A display is taken away. -/
theorem doHpdUnplug_present {p : Nat} {d : Dev} (h : fb d (SO_DP_STAT p) SO_DP_STAT_HPD = true) :
    doHpdUnplug p d = portOff (portEvent (fs d (SO_DP_STAT p) SO_DP_STAT_HPD 0) 0x21 p 0) p 0 := by
  unfold doHpdUnplug
  rw [h, if_neg (by simp)]

/-- An interrupt of a display that is there is told, and a lost link trains again. -/
theorem doHpdIrq_present {p : Nat} {lost : Bool} {d : Dev} (h : fb d (SO_DP_STAT p) SO_DP_STAT_HPD = true) :
    doHpdIrq p lost d = if lost then linkLoss (portEvent d 0x22 p 0) p 1 else portEvent d 0x22 p 0 := by
  unfold doHpdIrq
  rw [h, if_neg (by simp)]

/-- A packet without an acknowledge is sent again, up to twice, and then dropped; eight drops in a frame lose the link (R283). -/
theorem doAphyAckTimeout_trained {q sent : Nat} {d : Dev} (h : portState d (q + 4) = 2 ∨ portState d (q + 4) = 3) :
    doAphyAckTimeout q sent d =
      if sent < 2 then count (bump d (SO_AP_STAT q) SO_AP_STAT_RETRANS) (426 + 2 * (q + 4) + 1)
      else
        (let f := portFrame d (q + 4)
         let r := SMap.get d.scan.drops q
         let n := if r.frame = f then r.n + 1 else 1
         let e := onScan (bump d (SO_AP_STAT q) SO_AP_STAT_DROPS) (fun x =>
           { x with drops := SMap.set x.drops q { frame := f, n := if n ≥ 8 then 0 else n } })
         if n ≥ 8 then linkLoss e (q + 4) 2 else e) := by
  unfold doAphyAckTimeout
  rw [if_neg (by omega)]

/-- A panel whose tearing effect does not come in time is released, counted and told (R285). -/
theorem doTeTimeout_held {k p h t : Nat} {d0 d : Dev} (hp : teSource d0 k = some p) (hh : (raster d0 p).hold = some h)
    (hscan : scans d0 p = true) (ht : t = dtOfAbs (raster d0 p) (h + fg d0 (SO_DS_TE k) SO_DS_TE_TE_TIMEOUT))
    (hd : d = bump (advance t d0) (SO_DS_STAT k) SO_DS_STAT_TE_MISSED) :
    doTeTimeout k d0 = teRelease (platEvent d 0x27 p (h / (raster d0 p).vtot)) p (max t d0.dt) := by
  unfold doTeTimeout
  rw [hp]
  dsimp only
  rw [hh]
  dsimp only
  rw [hscan, if_neg (by simp), ← ht, ← hd]

/-! ### Underflow and panel self-refresh -/

/-- An underflow of a scanned platform is counted, and told once a frame (R286). -/
theorem doUnderflow_scanned {p line x f : Nat} {d0 d e g : Dev} (hscan : scans d0 p = true)
    (hmode : (platRun d0 p).mode = mFRT ∨ (platRun d0 p).mode = mHER) (hf : f = frameNow d0 p)
    (hd : d = onPlat (noteStrip d0 p (f * (raster d0 p).vtot + line) 3) p (fun y =>
      { y with gaps := (f * (raster d0 p).vtot + line, x) :: y.gaps }))
    (he : e = (if d.heritage then mdhIrq (setMdh d (0x114 + 0x40 * p)
      (BitVec.ofNat 32 (sat ((mdhReg d (0x114 + 0x40 * p)).toNat + 1) 65535))) (16 + p) else d))
    (hg : g = count (emit (bump e (SO_UFLOW p) SO_UFLOW_LINES) (.panel 2 p (line * 2 ^ 16 + x))) (394 + 2 * p + 1)) :
    doUnderflow p line x d0 = if (platRun d0 p).uflow = some f then g
      else platEvent (bump (onPlat g p (fun y => { y with uflow := some f })) (SO_UFLOW p) SO_UFLOW_FRAMES) 0x26 p f := by
  have hgo : ¬ ((!scans d0 p) = true ∨ ((platRun d0 p).mode ≠ mFRT ∧ (platRun d0 p).mode ≠ mHER)) := by
    rw [hscan]
    simpa [or_iff_not_imp_left] using hmode
  unfold doUnderflow
  dsimp only
  rw [if_neg hgo, ← hf, ← hd, ← he, ← hg]

/-- A platform that may enters panel self-refresh, and leaves it again for a commit that waits (R279). -/
theorem doPsrEnter_may {p : Nat} {d0 d e : Dev} (hmay : psrMay d0 p = true)
    (hd : d = onPlat (fs d0 (SO_PSTAT p) SO_PSTAT_STATE 2) p (fun y =>
      { y with psr := true, psrFrame := none, psrLast := some (frameNow d0 p - 1), openStrips := [], late := [] }))
    (he : e = platEvent d 0x28 p (frameNow d0 p)) :
    doPsrEnter p d0 =
      if e.commits.any (fun c => hasBit c.group p && !c.landed.contains p) then restampAll (psrWake e p) p else e := by
  unfold doPsrEnter
  rw [hmay, if_neg (by simp)]
  dsimp only
  rw [← hd, ← he]

/-- A platform in self-refresh leaves it at its frame (R280). -/
theorem doPsrExit_due {p f : Nat} {d : Dev} (hf : (platRun d p).psrFrame = some f) (hpsr : (platRun d p).psr = true) :
    doPsrExit p d = restampAll (platEvent (fs (onPlat (advance (dtOf (raster d p) f 0) d) p (fun y =>
      { y with psr := false, psrFrame := none, psrExit := some f })) (SO_PSTAT p) SO_PSTAT_STATE 1) 0x29 p f) p := by
  unfold doPsrExit
  rw [hf]
  dsimp only
  rw [hpsr, if_neg (by simp)]

/-- Settles O8. -/
theorem scanOutRuns : Obligations.ScanOutRuns := by
  unfold Obligations.ScanOutRuns
  refine ⟨?_, ?_, ?_, ?_, ?_, ?_, ?_, ?_, ?_, ?_, ?_, ?_, ?_, ?_, ?_, ?_, ?_, ?_, ?_, ?_, ?_, ?_, ?_, ?_, ?_, ?_, ?_, ?_, ?_, ?_,
    ?_, ?_, ?_, ?_, ?_⟩
  · intro s a k w v d n hw hfree hrange
    exact congrArg (after s) (doDpllWrite_unused hw hfree hrange)
  · intro s k hen
    exact congrArg (after s) (doDpllLock_enabled hen)
  · rintro s k q d hon rfl hold rfl hkeep
    exact congrArg (after s) ((doRouteIdle_left hon (by rw [hold])).trans (if_neg (by simp [hkeep])))
  · rintro s k q d hon rfl hold rfl hagain hport
    exact congrArg (after s) ((doRouteIdle_left hon (by rw [hold])).trans (if_pos ⟨hagain, hport⟩))
  · rintro s k q p d hon rfl hold rfl hkeep
    exact congrArg (after s) ((doRouteIdle_left hon (by rw [hold])).trans (if_neg (by simp [hkeep])))
  · rintro s k q p d hon rfl hold rfl hagain hport
    exact congrArg (after s) ((doRouteIdle_left hon (by rw [hold])).trans (if_pos ⟨hagain, hport⟩))
  · intro s k h
    exact congrArg (after s) (doSinkLive_may h)
  · rintro s p d h hdp rfl
    exact congrArg (after s) ((doLinkTrainDone_good h).trans (if_pos hdp))
  · rintro s p d h hdp hap rfl
    exact congrArg (after s) ((doLinkTrainDone_good h).trans ((if_neg hdp).trans (if_pos hap)))
  · rintro s p d h hdp hap rfl
    exact congrArg (after s) ((doLinkTrainDone_good h).trans ((if_neg hdp).trans (if_neg hap)))
  · rintro s p d h hlast rfl
    exact congrArg (after s) ((doLinkTrainDone_failed h).trans (if_pos hlast))
  · rintro s p d h hmore rfl
    exact congrArg (after s) ((doLinkTrainDone_failed h).trans (if_neg hmore))
  · intro s a v d n hw
    exact congrArg (after s) (congrArg Prod.fst hw)
  · intro s p hmute hlive
    exact congrArg (after s) (doMuteApply_muted hmute hlive)
  · intro s p hmute hidle
    exact congrArg (after s) (doMuteApply_unmuted hmute hidle)
  · intro s a p v d n hw hidle hgo hcode
    exact congrArg (after s) (doAuxGo_idle hw hidle hgo hcode)
  · intro s a p v d n hw hidle hgo hcode
    exact congrArg (after s) (doAuxGo_idle hw hidle hgo hcode)
  · intro s a p v d n hw hidle hgo hcode
    exact congrArg (after s) (doAuxGo_idle hw hidle hgo hcode)
  · intro s a p v d n hw hidle hgo hcode
    exact congrArg (after s) (doAuxGo_idle hw hidle hgo hcode)
  · intro s p bytes hbusy hwr
    exact congrArg (after s) (doAuxReply_ackWrite hbusy bytes hwr)
  · rintro s p bytes bs hbusy hrd rfl
    exact congrArg (after s) (doAuxReply_ackRead hbusy bytes hrd)
  · intro s p hbusy
    exact congrArg (after s) (doAuxReply_nack hbusy)
  · intro s p hbusy hmore
    exact congrArg (after s) ((doAuxReply_defer hbusy).trans (if_pos hmore))
  · intro s p hbusy hlast
    exact congrArg (after s) ((doAuxReply_defer hbusy).trans (if_neg hlast))
  · intro s p hbusy
    exact congrArg (after s) (if_pos hbusy)
  · intro s p h
    exact congrArg (after s) (doHpdPlug_absent h)
  · intro s p h
    exact congrArg (after s) (doHpdUnplug_present h)
  · intro s p lost h
    exact congrArg (after s) (doHpdIrq_present h)
  · intro s q sent h hmore
    exact congrArg (after s) ((doAphyAckTimeout_trained h).trans (if_pos hmore))
  · rintro s q sent n d h hlast rfl rfl
    exact congrArg (after s) ((doAphyAckTimeout_trained h).trans (if_neg hlast))
  · intro s t e hlong
    exact congrArg (after s) (if_neg hlong)
  · intro s k p h t d hp hh hscan ht hd
    exact congrArg (after s) (doTeTimeout_held hp hh hscan ht hd)
  · intro s p line x f d e g hscan hmode hf hd he hg
    exact congrArg (after s) (doUnderflow_scanned hscan hmode hf hd he hg)
  · intro s p d e hmay hd he
    exact congrArg (after s) (doPsrEnter_may hmay hd he)
  · intro s p f hf hpsr
    exact congrArg (after s) (doPsrExit_due hf hpsr)

end Sys2Proof.Machine
end

section
/-! SUPPORT. Touch completes. -/

namespace Sys2Proof.Machine

section
variable {f r : Nat} {q : Desc} {d : Dev}

/-- A pick is written at once (R309). -/
theorem actTouchCfg_pick (h : tcSel q = 2) :
    actTouchCfg f r q d = complete (wr d (TC_PICK (tcIndex q)) (at4 q.words 0x20)) f r q.idx stOK := if_pos h

/-- A panel's or a key's words are committed (R309). -/
theorem actTouchCfg_item (h : tcSel q ≠ 2) :
    actTouchCfg f r q d = acceptCommit d f (.desc f r q.idx)
      (touchItem d q).2 (2 ^ (touchItem d q).2) q.cp (strictOf q.words) false
      [(touchItem d q).1] := if_neg h

/-- A save with a store present waits for its write (R309). -/
theorem actBaseSave_there (h : storeThere d = true) :
    actBaseSave f r q d = storeWrite { d with freeCtr := d.freeCtr + 4096 } 3 (tbPanel q) (basePayload d (tbPanel q)).1
      (basePayload d (tbPanel q)).2 false (some (f, r, q.idx)) := by
  unfold actBaseSave
  rw [h, if_neg (by simp)]

/-- A save without a store fails (R309). -/
theorem actBaseSave_absent (h : storeThere d = false) : actBaseSave f r q d = complete d f r q.idx stERR_DOWN := by
  unfold actBaseSave
  rw [h, if_pos (by simp)]

/-- A test of a panel that has none begins (R310). -/
theorem actTouchTest_first (h : (panel d (tbPanel q)).tests = []) :
    actTouchTest f r q d = beginTest (onPanel d (tbPanel q) (fun x =>
      { x with tests := [{
        f := f, r := r, idx := q.idx, kind := bits (at4 q.words 0x10) 31 28, iova := at8 q.words 0x18
        prev := panelState d (tbPanel q) }] })) (tbPanel q) := if_pos h

/-- A test of a panel that has one waits behind it (R310). -/
theorem actTouchTest_behind (h : (panel d (tbPanel q)).tests ≠ []) :
    actTouchTest f r q d = onPanel d (tbPanel q) (fun x =>
      { x with tests := x.tests ++ [{
        f := f, r := r, idx := q.idx, kind := bits (at4 q.words 0x10) 31 28, iova := at8 q.words 0x18
        prev := x.tests.head?.map (fun y => y.prev) |>.getD 0 }] }) :=
  if_neg h

end

/-- The first test of a panel ends: its record is written, and the next test begins (R310). -/
theorem doTouchTestDone_first {t : Nat} {raw leaks refs : List Nat} {e : TTest} {es : List TTest} {fails : List Nat × List Nat}
    {d0 d g : Dev} {ok : Bool} (htests : (panel d0 t).tests = e :: es)
    (hfails : fails = testFails d0 (panelWords d0 t) e.kind raw leaks refs)
    (hd : d = showTesting (setPanelState (onPanel d0 t (fun x => { x with tests := es })) t
      (if !pnEn (panelWords d0 t) then 0 else if (panel d0 t).start then 1 else 2))) (hfn : e.f < 32)
    (hm : memWritePages 3 d e.f midTOUCH e.iova (leBytes 8 (maskOfList fails.1) ++ leBytes 8 (maskOfList fails.2) ++
      (List.range 48).flatMap (fun k => leBytes 2 (if e.kind = 0 then refs.getD k 0 else 0))) = (g, ok)) :
    doTouchTestDone t raw leaks refs d0 =
      (let x := complete g e.f e.r e.idx (if ok then stOK else stERR_FAULT) (fails.1.length + fails.2.length)
       if es = [] then x else beginTest x t) := by
  unfold doTouchTestDone
  rw [htests]
  dsimp only
  rw [← hfails, ← hd, if_pos hfn, if_pos hfn, hm]

/-- A frame that is ready is taken from its source (R304). -/
theorem doTouchFrameProcess_ready {t : Nat} {raw : List Nat} {selfTx selfRx : List Int} {x : PanelRun} {d : Dev}
    (hx : x = panel d t) (hscan : x.scanning = true) (hready : x.ready = true) (hstate : panelState d t ≠ 3) :
    doTouchFrameProcess t raw selfTx selfRx d = takeFrame (if pnSource x.words ≤ 1 then advance (afeEnd x) d else d) t
      (if pnSource x.words = 3 then x.tunRaw else raw) selfTx selfRx := by
  unfold doTouchFrameProcess
  dsimp only
  rw [← hx, hscan, hready, if_neg (by simp [hstate])]

section
variable {t : Nat} {x : PanelRun} {d0 : Dev} (hx : x = panel d0 t) (hscan : x.scanning = true) (hready : x.ready = false)
  (hspi : pnSource x.words = 2)
include hx hscan hready hspi

/-- The ready line of a panel that has one reads its frame (R296). -/
theorem doSpiDrdy_waiting (hline : pnDrdyGpio x.words ≠ 63) : doSpiDrdy t d0 = spiRead d0 t := by
  unfold doSpiDrdy
  dsimp only
  rw [← hx]
  exact if_pos ⟨hscan, by rw [hready]; rfl, hspi, hline⟩

/-- After the panel's time a frame is read where no ready line says so, and fails where one should have (R296). -/
theorem doSpiDrdyTimeout_waiting {d : Dev} (hd : d = advance (x.t0 + pnDrdyUs x.words * 1000) d0) :
    doSpiDrdyTimeout t d0 = if pnDrdyGpio x.words = 63 then spiRead d t
      else failFrame (onPanel d t (fun y => { y with scanning := false })) t 1 x.words := by
  unfold doSpiDrdyTimeout
  dsimp only
  rw [← hx, ← hd]
  exact if_pos ⟨hscan, by rw [hready]; rfl, hspi⟩

end

/-- A segment that goes on with its message is taken, and the last one ends the message (R298). -/
theorem doTunnelSegment_next {q n pos t0 : Nat} {bytes bs : List Byte} {x : TunRun} {d : Dev} (hx : x = SMap.get d.touch.tun q)
    (hn : n = (bytes.getD 3 0).toNat) (hpos : pos = (bytes.getD 1 0).toNat / 64) (hmark : (bytes.getD 0 0).toNat = 0xA7)
    (hfirst : (pos % 2 == 1) = !x.busy) (hseq : x.busy = false ∨ (bytes.getD 2 0).toNat = x.seq) (hlow : 1 ≤ n) (hhigh : n ≤ 60)
    (hlen : ((bytes.drop 4).take n).length = n) (hup : domUp d 14 = true) (ht0 : t0 = (if x.busy then x.t0 else d.dt))
    (hbs : bs = x.bytes ++ (bytes.drop 4).take n) :
    doTunnelSegment q bytes d = if pos ≥ 2 then tunMessage d q bs t0
      else if bs.length > 8212 then tunDiscard d q 3
      else onTun d q (fun _ => { busy := true, seq := (bytes.getD 2 0).toNat, bytes := bs, t0 := t0 }) := by
  have hkept : (if domUp d 14 = true ∧ (bytes.getD 0 0).toNat = 0xA7 ∧ (pos % 2 == 1) = true ∧ x.busy = true then tunDiscard d q 3
      else d) = d := if_neg (by rw [hfirst]; cases x.busy <;> simp)
  have hgood : ¬ ((bytes.getD 0 0).toNat ≠ 0xA7 ∨ (pos % 2 == 1) = x.busy ∨ (x.busy = true ∧ (bytes.getD 2 0).toNat ≠ x.seq) ∨
      n = 0 ∨ n > 60 ∨ ((bytes.drop 4).take n).length ≠ n) := by
    rintro (h | h | ⟨hb, h⟩ | h | h | h)
    · exact h hmark
    · rw [hfirst] at h
      cases hb : x.busy <;> simp [hb] at h
    · obtain hs | hs := hseq
      · simp [hb] at hs
      · exact h hs
    · omega
    · omega
    · exact h hlen
  have hstart : (if (pos % 2 == 1) = true then d.dt else x.t0) = t0 := by
    rw [ht0, hfirst]
    cases x.busy <;> rfl
  unfold doTunnelSegment
  dsimp only
  subst hpos hn hx hbs
  rw [hkept, hup, if_neg (by simp), if_neg hgood, hstart]

/-- A tunnel that brings no frame in time cancels its contacts (R296). -/
theorem doTunnelFrameTimeout_missing {t : Nat} {d0 d : Dev} (hen : pnEn (panelWords d0 t) = true)
    (hsrc : pnSource (panelWords d0 t) = 3)
    (hd : d = advance ((panel d0 t).lastValid + pnMissMax (panelWords d0 t) * 10000000) d0) :
    doTunnelFrameTimeout t d0 = cancelContacts d t (panelWords d0 t) d.dt (fun _ => true) := by
  unfold doTunnelFrameTimeout
  dsimp only
  rw [← hd]
  exact if_pos ⟨hen, hsrc⟩

section
variable {t id t0 : Nat} {ws : List Word} {c : Contact} {d : Dev} (hws : ws = panelWords d t)
  (hc : (panel d t).contacts.find? (fun c => c.id == id && c.told) = some c)
include hws hc

/-- A contact held for its panel's long time is told again (R302). -/
theorem doLongContact_held (hlong : pnLongS ws ≠ 0) (ht0 : t0 = c.down + (c.longs + 1) * pnLongS ws * 1000000000) :
    doLongContact t id d = onPanel (reportContact (advance t0 d) t ws c 2 c.state t0 false) t (fun x =>
      { x with contacts := x.contacts.map (fun e => if e.id = id then { e with longs := e.longs + 1 } else e) }) := by
  unfold doLongContact
  dsimp only
  rw [hc]
  dsimp only
  rw [← hws, if_neg hlong, ← ht0]

/-- A contact held for its panel's longest time is released, and its nodes take what they read as their base (R302). -/
theorem doForcedRelease_held (hmax : pnMaxS ws ≠ 0) (ht0 : t0 = c.down + pnMaxS ws * 1000000000) :
    doForcedRelease t id d = showPanel (onPanel (reportContact (advance t0 d) t ws c 1 2 t0 true) t (fun x =>
      { x with
        contacts := x.contacts.filter (fun e => e.id != id)
        nodes := (List.range x.nodes.length).map (fun k =>
          if c.nodes.contains k then { x.nodes.getD k default with base := 256 * Int.ofNat (x.lastRaw.getD k 0) }
          else x.nodes.getD k default) })) t := by
  unfold doForcedRelease
  dsimp only
  rw [hc]
  dsimp only
  rw [← hws, if_neg hmax, ← ht0]

end

/-- Settles O9. -/
theorem touchRuns : Obligations.TouchRuns := by
  unfold Obligations.TouchRuns
  refine ⟨?_, ?_, ?_, fun s f r q d hr => congrArg (after s) (startDesc_runs hr true actBaseRebase), ?_, ?_,
    fun s f r q d hr => congrArg (after s) (startDesc_runs hr true actBaseDump), ?_, ?_, ?_, ?_, ?_, ?_, ?_, ?_, ?_, ?_, ?_,
      ?_, ?_,
    ?_, ?_⟩
  · intro s f r q d hr h
    exact after_startDesc hr _ actTouchCfg (actTouchCfg_pick h)
  · intro s f r q d hr h
    exact after_startDesc hr _ actTouchCfg (actTouchCfg_item h)
  · rintro s f r q d e hr rfl
    exact congrArg (after s) (startDesc_runs hr true actBaseReload)
  · intro s f r q d hr h
    exact after_startDesc hr true actBaseSave (actBaseSave_there h)
  · intro s f r q d hr h
    exact after_startDesc hr true actBaseSave (actBaseSave_absent h)
  · intro s f r q d hr h
    exact after_startDesc hr true actTouchTest (actTouchTest_first h)
  · intro s f r q d hr h
    exact after_startDesc hr true actTouchTest (actTouchTest_behind h)
  · intro s f r q d hr h
    exact after_startDesc hr true actTouchTest (actTouchTest_first h)
  · intro s f r q d hr h
    exact after_startDesc hr true actTouchTest (actTouchTest_behind h)
  · intro s f r q d hr h
    exact after_startDesc hr true actTouchTest (actTouchTest_first h)
  · intro s f r q d hr h
    exact after_startDesc hr true actTouchTest (actTouchTest_behind h)
  · intro s t raw leaks refs e es fails d g ok htests hfails hd hfn hm
    exact congrArg (after s) (doTouchTestDone_first htests hfails hd hfn hm)
  · intro s t raw selfTx selfRx x hx hscan hready hstate
    exact congrArg (after s) (doTouchFrameProcess_ready hx hscan hready hstate)
  · intro s t x hx hscan hready hspi hline
    exact congrArg (after s) (doSpiDrdy_waiting hx hscan hready hspi hline)
  · intro s t x d hx hscan hready hspi hd
    exact congrArg (after s) (doSpiDrdyTimeout_waiting hx hscan hready hspi hd)
  · intro s q bytes x n pos t0 bs hx hn hpos hmark hfirst hseq hlow hhigh hlen hup ht0 hbs hlast
    exact congrArg (after s)
      ((doTunnelSegment_next hx hn hpos hmark hfirst hseq hlow hhigh hlen hup ht0 hbs).trans (if_pos hlast))
  · intro s q bytes x n pos t0 bs hx hn hpos hmark hfirst hseq hlow hhigh hlen hup ht0 hbs hmore hfits
    exact congrArg (after s) ((doTunnelSegment_next hx hn hpos hmark hfirst hseq hlow hhigh hlen hup ht0 hbs).trans
      ((if_neg hmore).trans (if_neg (by omega))))
  · intro s t d hen hsrc hd
    exact congrArg (after s) (doTunnelFrameTimeout_missing hen hsrc hd)
  · intro s t id ws c t0 hws hc hlong ht0
    exact congrArg (after s) (doLongContact_held hws hc hlong ht0)
  · intro s t id ws c t0 hws hc hmax ht0
    exact congrArg (after s) (doForcedRelease_held hws hc hmax ht0)

end Sys2Proof.Machine
end

section
/-! SUPPORT. Haptics complete. -/

namespace Sys2Proof.Machine

section
variable {f r : Nat} {q : Desc} {d : Dev}

/-- A load that erases its effect waits without words (R327). -/
theorem actHapticLoad_erase (h : bit (at4 q.words 0x10) 31 = true) :
    actHapticLoad f r q d = settleLoads { d with hap := { d.hap with
      loads := d.hap.loads ++ [{ f := f, r := r, idx := q.idx, effect := bits (at4 q.words 0x10) 7 0, words := [] }] } } :=
  if_pos h

/-- A load whose effect is read and good waits with its words (R327). -/
theorem actHapticLoad_words {e : Dev} {ws : List Word} (h : bit (at4 q.words 0x10) 31 = false)
    (hm : memRead d f midHAPTIC (at8 q.words 0x18) ((at4 q.words 0x20).toNat / 4)
      (q.mem.headD { data := [], ecc := false, ats := false }) = (e, .words ws)) (hgood : effectOk ws = true) :
    actHapticLoad f r q d = settleLoads { e with hap := { e.hap with
      loads := e.hap.loads ++ [{ f := f, r := r, idx := q.idx, effect := bits (at4 q.words 0x10) 7 0, words := ws }] } } := by
  unfold actHapticLoad
  dsimp only
  rw [h, if_neg (by simp), hm]
  dsimp only
  rw [if_pos hgood]

end

/-! ### The sense windows -/

/-- An actuator that drives or brakes takes its window with its drive off. -/
theorem doSenseWindow_moving {h : Nat} {hp : Option Nat} {mv : Nat} {d : Dev} (hmove : hapState d h = 2 ∨ hapState d h = 3) :
    doSenseWindow h hp mv d = takeWindow h hp mv (raiseEnable (dropEnable d h) h) := if_neg (by omega)

section
variable {h : Nat} {hp : Option Nat} {mv : Nat} {d0 d e : Dev} {slow : Bool} {x : HapRun} (hd : d = measure d0 h hp mv)
  (hslow : slow = (ermSlow (hapRun d h) mv && (driveAmp (hapRun d h)).isSome))
  (he : e = (if isErm (hapRun d h) then onHap d h (fun x => { x with missed := if slow then x.missed + 1 else 0 }) else d))
  (hx : x = hapRun e h)
include hd hslow he hx

/-- A motor that stays slow faults its actuator. -/
theorem takeWindow_slow (hs : slow = true ∧ x.missed ≥ bits (wd x.cfg 2) 7 4) : takeWindow h hp mv d0 = hapFault e h 2 mv := by
  unfold takeWindow
  dsimp only
  rw [← hd, ← hslow, ← he, ← hx]
  exact if_pos hs

variable (hs : ¬ (slow = true ∧ x.missed ≥ bits (wd x.cfg 2) 7 4))
include hs

/-- A window that shows a fault faults its actuator. -/
theorem takeWindow_fault {cv : Nat × Nat}
    (hcv : windowFault x hp mv = some cv) : takeWindow h hp mv d0 = hapFault e h cv.1 cv.2 := by
  unfold takeWindow
  dsimp only
  rw [← hd, ← hslow, ← he, ← hx, if_neg hs, hcv]

/-- A window without a fault drives on, brakes on, or ends its brake. -/
theorem takeWindow_clear (hgood : windowFault x hp mv = none) :
    takeWindow h hp mv d0 = if !x.braking then (if isErm x then e else showDrive e h)
      else if mv * 100 ≥ 2 * bits (wd x.cfg 1) 15 0 then showDrive (onHap e h (fun y => { y with quiet := 0 })) h
      else if x.quiet = 0 then showDrive (onHap e h (fun y => { y with quiet := 1 })) h
      else if x.final then brakeOver e h false
      else enterSeg segFuel e h (x.seg + 1) e.dt := by
  unfold takeWindow
  dsimp only
  rw [← hd, ← hslow, ← he, ← hx, if_neg hs, hgood]

end

/-! ### Segments and triggers -/

section
variable {h : Nat} {x : HapRun} {d : Dev} (hmove : hapState d h = 2 ∨ hapState d h = 3) (hx : x = hapRun d h)
include hmove hx

/-- A driven segment that ends is followed by the next one, at its zero crossing where it is a wave. -/
theorem doHapticSegmentEnd_driven (hb : x.braking = false) :
    doHapticSegmentEnd h d =
      (let t0 := x.segStart + bits (wd x.words (x.seg + 1)) 15 0 * 250000
       let t := if segKind (wd x.words (x.seg + 1)) = 0 then nextCross x t0 else t0
       enterSeg segFuel (advance t d) h (x.seg + 1) (max t d.dt)) := by
  unfold doHapticSegmentEnd
  dsimp only
  rw [if_neg (by omega), ← hx, hb, if_neg (by simp)]

/-- A brake that ends is followed by the next segment, or ends its play. -/
theorem doHapticSegmentEnd_braked (hb : x.braking = true) :
    doHapticSegmentEnd h d =
      (let t := x.brakeStart + x.brakeLen * 250000
       if x.final then (if x.pend.isSome then advance t d else brakeOver (advance t d) h false)
       else enterSeg segFuel (advance t d) h (x.seg + 1) (max t d.dt)) := by
  unfold doHapticSegmentEnd
  dsimp only
  rw [if_neg (by omega), ← hx, hb, if_pos rfl]

end

/-- A trigger that has waited its time behind a brake is refused (R322). -/
theorem doPendingTriggerTimeout_braking {h : Nat} {t : HapTrig} {d : Dev} (ht : (hapRun d h).pend = some t)
    (hs : hapState d h = 3) :
    doPendingTriggerTimeout h d = brakeOver (advance (t.dt + 8000000) d) h true := by
  unfold doPendingTriggerTimeout
  rw [ht]
  exact if_neg (not_not.mpr hs)

/-- Settles O10. -/
theorem hapticsRun : Obligations.HapticsRun := by
  unfold Obligations.HapticsRun
  refine ⟨fun s f r q d hr => congrArg (after s) (startDesc_runs hr true actHapticPlay), ?_, ?_,
    fun s f r q d hr => congrArg (after s) (startDesc_runs hr false actHapticWrite), ?_, ?_, ?_, ?_, ?_, ?_, ?_, ?_, ?_, ?_,
      ?_, ?_⟩
  · intro s f r q d m hr h
    exact after_startDesc hr true actHapticLoad (actHapticLoad_erase h)
  · intro s f r q d m e ws hr h hm hgood
    exact after_startDesc hr true actHapticLoad (actHapticLoad_words h hm hgood)
  · rintro s f r q d h hr rfl
    exact congrArg (after s) (startDesc_runs hr true actHapticClear)
  · intro s h hp mv d slow e x hmove hd hslow he hx hs
    exact congrArg (after s) ((doSenseWindow_moving hmove).trans (takeWindow_slow hd hslow he hx hs))
  · intro s h hp mv d slow e x cv hmove hd hslow he hx hs hcv
    exact congrArg (after s) ((doSenseWindow_moving hmove).trans (takeWindow_fault hd hslow he hx hs hcv))
  · intro s h hp mv d slow e x hmove hd hslow he hx hs hgood hb
    exact congrArg (after s) ((doSenseWindow_moving hmove).trans ((takeWindow_clear hd hslow he hx hs hgood).trans
      (if_pos (by rw [hb]; rfl))))
  · intro s h hp mv d slow e x hmove hd hslow he hx hs hgood hb hloud
    exact congrArg (after s) ((doSenseWindow_moving hmove).trans ((takeWindow_clear hd hslow he hx hs hgood).trans
      ((if_neg (by simp [hb])).trans (if_pos hloud))))
  · intro s h hp mv d slow e x hmove hd hslow he hx hs hgood hb hlow hquiet
    exact congrArg (after s) ((doSenseWindow_moving hmove).trans ((takeWindow_clear hd hslow he hx hs hgood).trans
      ((if_neg (by simp [hb])).trans ((if_neg hlow).trans (if_pos hquiet)))))
  · intro s h hp mv d slow e x hmove hd hslow he hx hs hgood hb hlow hquiet
    exact congrArg (after s) ((doSenseWindow_moving hmove).trans ((takeWindow_clear hd hslow he hx hs hgood).trans
      ((if_neg (by simp [hb])).trans ((if_neg hlow).trans (if_neg hquiet)))))
  · intro s h x hmove hx hb
    exact congrArg (after s) (doHapticSegmentEnd_driven hmove hx hb)
  · intro s h x hmove hx hb hfinal
    exact congrArg (after s) ((doHapticSegmentEnd_braked hmove hx hb).trans (if_pos hfinal))
  · intro s h x hmove hx hb hmore
    exact congrArg (after s) ((doHapticSegmentEnd_braked hmove hx hb).trans (if_neg (by simp [hmore])))
  · intro s h t ht hs
    exact congrArg (after s) (doPendingTriggerTimeout_braking ht hs)
  · intro s h hmove
    exact congrArg (after s) (if_pos hmove)

end Sys2Proof.Machine
end

section
/-! SUPPORT. Audio completes. -/

namespace Sys2Proof.Machine

/-! ### Streams by descriptor -/

section
variable {f r : Nat} {q : Desc} {d : Dev}

/-- A stopped stream starts with the blocks of its buffer (R348). -/
theorem actStreamStart_stopped {k : Nat} (h : streamState d (asStream q) = 0) (hk : k = fifoBlocks d (streamRun d (asStream q))) :
    actStreamStart f r q d = complete (showAudio (setStreamState (fs (onStream (skTakeHigh d 2 k (asStream q) f) (asStream q)
      (fun x => { x with owner := f, blocks := k })) (AU_ST (asStream q)) AU_ST_BLOCKS k) (asStream q) 1)) f r q.idx stOK := by
  unfold actStreamStart
  dsimp only
  rw [if_neg (not_not.mpr h), ← hk]

/-- A stream that runs ramps down to its stop (R351). -/
theorem actStreamStop_running (h : streamState d (asStream q) ≠ 0) :
    actStreamStop f r q d =
      (let e := onStream d (asStream q) (fun x => { x with stops := x.stops ++ [{ f := f, r := r, idx := q.idx }] })
       if streamState d (asStream q) = 3 then e else rampDown e (asStream q)) := if_neg h

/-- A stream that runs drains; one without data stops at once (R351). -/
theorem actStreamDrain_running (h : streamState d (asStream q) ≠ 0) :
    actStreamDrain f r q d =
      (let e := onStream d (asStream q) (fun x => { x with drains := x.drains ++ [{ f := f, r := r, idx := q.idx }] })
       if streamState d (asStream q) = 2 then stopStream e (asStream q) else e) := if_neg h

/-- Coefficients that are read go into their sections (R344). -/
theorem actAudioCoef_words {w : Word} {e : Dev} {ws : List Word} (hw : w = at4 q.words 0x10)
    (hm : memRead d f midAUDIO (at8 q.words 0x18) (5 * bits w 3 0)
      (q.mem.headD { data := [], ecc := false, ats := false }) = (e, .words ws)) :
    actAudioCoef f r q d = complete ((List.range (bits w 3 0)).foldl (fun d j =>
      eqMove (wrs d (AU_EQ (bits w 27 24) (bits w 10 8 + j) 0) ((List.range 5).map (fun i => wd ws (5 * j + i))))
        (bits w 27 24) (bits w 10 8 + j) ((List.range 5).map (fun i => wd ws (5 * j + i)))) e) f r q.idx stOK := by
  subst hw
  unfold actAudioCoef
  dsimp only
  rw [hm]

end

/-! ### Chimes -/

section
variable {a : Acc} {g : Nat} {v n : Word} {d0 d : Dev} (hw : Written d0 a (AU_CHIME g 0) (v &&& chimeMask 0) d n)
  (hmaster : 2 ≤ g ∨ a.mid.toNat = midSI ∨ a.mid.toNat = midPAIR)
include hw hmaster

/-- A permitted write that starts a whole chime plays it. -/
theorem chimeWrite_start (hop : bits n 31 28 = 0) (hok : chimeOk (n :: rds d0 (AU_CHIME g 1) 7) = true) :
    chimeWrite a g 0 v d0 = startChime d g (rds d (AU_CHIME g 0) 8) none := by
  unfold chimeWrite
  dsimp only
  rw [guardWrite_done hw (by rw [if_neg (by omega), if_neg (by omega), if_neg (by simp [hok])])]
  dsimp only
  rw [if_neg (by simp), if_pos hop]

/-- A permitted write that stops a chime ends it. -/
theorem chimeWrite_stop (hop : bits n 31 28 = 1) : chimeWrite a g 0 v d0 = endChime d g := by
  unfold chimeWrite
  dsimp only
  rw [guardWrite_done hw (by rw [if_neg (by omega), if_neg (by omega), if_neg (by omega)])]
  dsimp only
  rw [if_neg (by simp), if_neg (by omega)]

end

/-- A chime with a count of repeats ends after them. -/
theorem doChimeEnd_counted {g : Nat} {x : ChimeRun} {d : Dev} (hx : x = chimeRun d g) (hon : x.on = true)
    (hrep : bits (wd x.words 6) 7 0 ≠ 0) :
    doChimeEnd g d = endChime (advance (x.start + bits (wd x.words 6) 7 0 * chimePeriod x.words) d) g := by
  unfold doChimeEnd
  dsimp only
  rw [← hx, hon, if_neg (by simp [hrep])]

/-! ### Routes, gains and coefficients -/

/-- A fade between routes ends after 5 ms. -/
theorem doCrossfadeEnd_fading {n : Nat} {d : Dev} (h : fg d (AU_RT_ST n) AU_RT_ST_STATE = 2) :
    doCrossfadeEnd n d = showAudio (endFade (advance ((routeFade d n).start + 5000000) d) n) := if_neg (not_not.mpr h)

section
variable {kind idx k : Nat} {x : GainRamp} {d0 d : Dev} (hk : k = 128 * kind + idx) (hx : x = SMap.get d0.audio.ramps k)
  (hon : x.on = true) (hd : d = showGain (onAudio (advance (x.start + x.ms * 1000000) d0) (fun a =>
    { a with gains := SMap.set a.gains k x.to0, ramps := SMap.erase a.ramps k })) k)
include hk hx hon hd

/-- A gain that no descriptor waits for ends its ramp. -/
theorem doGainRampEnd_free (hw : x.wait = none) : doGainRampEnd kind idx d0 = d := by
  unfold doGainRampEnd
  dsimp only
  rw [← hk, ← hx, hon, if_neg (by simp), ← hd, hw]

/-- A gain that ends its ramp completes the descriptor that waits for it. -/
theorem doGainRampEnd_waited {w : AuWait} (hw : x.wait = some w) : doGainRampEnd kind idx d0 = auEnd d w stOK 0 := by
  unfold doGainRampEnd
  dsimp only
  rw [← hk, ← hx, hon, if_neg (by simp), ← hd, hw]

end

/-- The last word of a section moves its coefficients. -/
theorem doEqSectionMove_done {a : Acc} {m k : Nat} {v n : Word} {d0 d : Dev} (hw : Written d0 a (AU_EQ m k 4) v d n) :
    doEqSectionMove a m k v d0 = eqMove d m k (rds d (AU_EQ m k 0) 5) := by
  unfold Written at hw
  unfold doEqSectionMove
  rw [hw]

/-! ### Streams in time -/

/-- The frames that a period of a stream moves at most, up to the application's position. -/
def periodFrames (x : StreamRun) (ap : Nat) : Nat :=
  if stDir x = 0 then min (stPeriod x) (ap - x.hwPos) else min (stPeriod x) (ap + stFrames x - x.hwPos)

/-- A period of a running stream moves its frames, and a drained stream stops. -/
theorem doStreamPeriod_running {i appl ap : Nat} {d0 e g : Dev} {x : StreamRun} (hrun : streamState d0 i = 1)
    (hlead : bankerLike d0 = false) (ha : readAppl d0 i appl = (e, some ap)) (hx : x = streamRun e i)
    (hg : g = (let n := periodFrames x ap
      let c := crossFrames (onStream e i (fun y => { y with dropping := y.dropping && decide (n = 0) })) i n true
      linkSend c 0x09 [1, i, (streamRun c i).hwPos])) :
    doStreamPeriod i appl d0 =
      if streamState g i = 1 ∧ (streamRun g i).drains ≠ [] ∧ (streamRun g i).hwPos ≥ ap then stopStream g i else g := by
  unfold periodFrames at hg
  unfold doStreamPeriod
  rw [if_neg (by simp [hrun, hlead])]
  dsimp only
  rw [ha]
  dsimp only
  rw [← hx, ← hg]

/-- A playing stream without data has an underrun, which is counted and told. -/
theorem doStreamUnderrun_playing {i : Nat} {x : StreamRun} {d e : Dev} (hx : x = streamRun d i) (hrun : streamState d i = 1)
    (hdir : stDir x = 0) (hdrain : x.drains = [])
    (he : e = bump (setStreamState (crossFrames d i (x.appl - x.hwPos) false) i 2) AU_STATUS AU_STATUS_UNDERRUNS) :
    doStreamUnderrun i d = showAudio (auEvent e x.owner 1 i 0 ((streamRun e i).hwPos % 2 ^ 32)) := by
  unfold doStreamUnderrun
  dsimp only
  rw [← hx, if_neg (by simp [hrun, hdir, hdrain]), ← he]

/-- A stream that was empty runs on when its buffer is full again. -/
theorem doStreamRefill_full {i appl ap : Nat} {d e : Dev} (hempty : streamState d i = 2) (ha : readAppl d i appl = (e, some ap))
    (hfull : ¬ ap - (streamRun e i).hwPos < fifoFrames e (streamRun e i)) :
    doStreamRefill i appl d = showAudio (setStreamState e i 1) := by
  unfold doStreamRefill
  rw [if_neg (not_not.mpr hempty)]
  dsimp only
  rw [ha]
  exact if_neg hfull

/-- A recording stream without room has an overrun, which is counted, and told while none was. -/
theorem doStreamOverrun_recording {i : Nat} {x : StreamRun} {d e : Dev} (hx : x = streamRun d i) (hrun : streamState d i = 1)
    (hdir : stDir x = 1) (he : e = crossFrames d i (x.appl + stFrames x - x.hwPos) false) :
    doStreamOverrun i d = if x.dropping then bump e AU_STATUS AU_STATUS_OVERRUNS
      else auEvent (onStream (bump e AU_STATUS AU_STATUS_OVERRUNS) i (fun y => { y with dropping := true })) x.owner 2 i 0 1 := by
  unfold doStreamOverrun
  dsimp only
  rw [← hx, if_neg (by simp [hrun, hdir]), ← he]

/-- A stream that ramps down stops after 2 ms. -/
theorem doRampDownEnd_ramping {i : Nat} {d : Dev} (h : streamState d i = 3) :
    doRampDownEnd i d = stopStream (advance ((streamRun d i).rampStart + 2000000) d) i := if_neg (not_not.mpr h)

/-! ### Clocks, bridges and ports -/

/-- The loss of a locked clock of the outside is counted and told. -/
theorem doClockLoss_locked {k : Nat} {d : Dev} (hlock : auDomState d k = 2) (hsrc : fg d (AU_DOM k) AU_DOM_SRC ≠ 1) :
    doClockLoss k d = showAudio (auEvent (bump (fs d (AU_DOM_ST k) AU_DOM_ST_STATE 3) AU_STATUS AU_STATUS_CLK_LOSS) 0 4 k 0 0) :=
  if_neg (by omega)

/-- A bridge between clocks that run locks, and its ratio is a free value of the range. -/
theorem doBridgeLock_running {b : Nat} {d0 d : Dev} (hen : fb d0 (AU_BRIDGE b) AU_BRIDGE_EN = true)
    (hfree : fb d0 (AU_BRIDGE_ST b) AU_BRIDGE_ST_LOCK = false) (hin : auDomState d0 (fg d0 (AU_BRIDGE b) AU_BRIDGE_IN_DOM) ≠ 0)
    (hout : auDomState d0 (fg d0 (AU_BRIDGE b) AU_BRIDGE_OUT_DOM) ≠ 0)
    (hd : d = bridgeRamp (fs d0 (AU_BRIDGE_ST b) AU_BRIDGE_ST_LOCK 1) b 1) :
    doBridgeLock b d0 = showAudio (fs (takeFree d).2 (AU_BRIDGE_ST b) AU_BRIDGE_ST_RATIO_PPM
      (enc2 (Int.ofNat ((takeFree d).1 % 4001) - 2000) 16)) := by
  unfold doBridgeLock
  rw [if_neg (by simp [hen, hfree, hin, hout]), ← hd]

/-- A locked bridge whose clocks drift too far unlocks, and it is told. -/
theorem doBridgeUnlock_far {b : Nat} {ppm : Int} {d : Dev} (hlock : fb d (AU_BRIDGE_ST b) AU_BRIDGE_ST_LOCK = true)
    (hfar : ¬ ppm.natAbs ≤ 2000) :
    doBridgeUnlock b ppm d = showAudio (auEvent (bridgeRamp (fs (fs d (AU_BRIDGE_ST b) AU_BRIDGE_ST_LOCK 0) (AU_BRIDGE_ST b)
      AU_BRIDGE_ST_RATIO_PPM (enc2 ppm 16)) b 0) 0 5 b 0 (enc2 ppm 32)) := by
  unfold doBridgeUnlock
  rw [hlock, if_neg (by simp [hfar])]

/-- Settles O11. -/
theorem audioRuns : Obligations.AudioRuns := by
  unfold Obligations.AudioRuns
  refine ⟨fun s f r q d hr => congrArg (after s) (startDesc_runs hr true actStreamConfig), ?_, ?_, ?_,
    fun s f r q d hr => congrArg (after s) (startDesc_runs hr false actAudioRoute), ?_, ?_, ?_,
    fun s f r q d hr => congrArg (after s) (startDesc_runs hr true actChimeStop), ?_, ?_, ?_, fun s k => rfl, ?_, ?_, ?_, ?_,
      ?_, ?_,
    ?_, ?_, fun s st t => rfl, fun s st => rfl, ?_, ?_, ?_, ?_, ?_⟩
  · intro s f r q d k hr h hk
    exact after_startDesc hr true actStreamStart (actStreamStart_stopped h hk)
  · intro s f r q d hr h
    exact after_startDesc hr true actStreamStop (actStreamStop_running h)
  · intro s f r q d hr h
    exact after_startDesc hr true actStreamDrain (actStreamDrain_running h)
  · rintro s f r q d w e hr rfl rfl
    exact congrArg (after s) (startDesc_runs hr true actAudioGain)
  · intro s f r q d m w e ws hr hw hm
    exact after_startDesc hr true actAudioCoef (actAudioCoef_words hw hm)
  · rintro s f r q d g hr rfl
    exact congrArg (after s) (startDesc_runs hr true actChimeStart)
  · rintro s a g v w d n rfl hw hop hmaster hok
    exact congrArg (after s) (chimeWrite_start hw hmaster hop hok)
  · rintro s a g v w d n rfl hw hop hmaster
    exact congrArg (after s) (chimeWrite_stop hw hmaster hop)
  · intro s g x hx hon hrep
    exact congrArg (after s) (doChimeEnd_counted hx hon hrep)
  · intro s n h
    exact congrArg (after s) (doCrossfadeEnd_fading h)
  · intro s kind idx k x d hk hx hon hd hw
    exact congrArg (after s) (doGainRampEnd_free hk hx hon hd hw)
  · intro s kind idx k x d w hk hx hon hd hw
    exact congrArg (after s) (doGainRampEnd_waited hk hx hon hd hw)
  · intro s a m k v d n hw
    exact congrArg (after s) (doEqSectionMove_done hw)
  · rintro s st appl e ap x g y hrun hlead ha hx hg rfl
    exact congrArg (after s) (doStreamPeriod_running hrun hlead ha hx hg)
  · intro s st x e hx hrun hdir hdrain he
    exact congrArg (after s) (doStreamUnderrun_playing hx hrun hdir hdrain he)
  · intro s st appl e ap hempty ha hfull
    exact congrArg (after s) (doStreamRefill_full hempty ha hfull)
  · intro s st x e hx hrun hdir he
    exact congrArg (after s) (doStreamOverrun_recording hx hrun hdir he)
  · intro s st h
    exact congrArg (after s) (doRampDownEnd_ramping h)
  · intro s k hlock hsrc
    exact congrArg (after s) (doClockLoss_locked hlock hsrc)
  · intro s b d hen hfree hin hout hd
    exact congrArg (after s) (doBridgeLock_running hen hfree hin hout hd)
  · intro s b ppm hlock hfar
    exact congrArg (after s) (doBridgeUnlock_far hlock hfar)
  · intro s p hp hrun hslave
    exact congrArg (after s) (if_pos ⟨hp, hrun, by rw [hslave]; rfl⟩)

end Sys2Proof.Machine
end

section
/-! SUPPORT. Bells and tokens complete. -/

namespace Sys2Proof.Machine

/-- A binding that its check passes is taken: a channel that comes to be bound starts, one that ceases to be lets go (R360). -/
theorem doBellBindWrite_good {a : Acc} {c : Nat} {v n : Word} {d0 d : Dev} (hw : Written d0 a (BL_BIND c) v d n)
    (hgood : bindBad d0 a.mid.toNat c n = none) :
    doBellBindWrite a c v d0 = if bit n 31 ∧ !bellEn d0 c then enableBell d c
      else if !bit n 31 ∧ bellEn d0 c then skGive (receiverReset d c) (fun r => decide (r.pool = 3) && decide (r.user = c))
      else d := by
  unfold doBellBindWrite
  dsimp only
  rw [guardWrite_done hw hgood]

/-- A post that the channel accepts is queued (R362). -/
theorem doBellPost_accepted {a : Acc} {c : Nat} {v : Word} {d0 d : Dev} (hw : viewWrite a c 1 0x18 v d0 = (d, true))
    (hok : postStatus d c v = stOK) : doBellPost a c v d0 = queueMsg d c (bits v 2 0) := by
  unfold doBellPost
  dsimp only
  rw [hw]
  dsimp only
  rw [if_neg (by simp), if_pos hok]

/-- A pop takes the message in front, and tells a sender that asks when the channel is empty (R368). -/
theorem doBellPop_first {a : Acc} {c : Nat} {v : Word} {d0 d e : Dev} {m : BellMsg} {ms : List BellMsg}
    (hw : viewWrite a c 2 0x1C v d0 = (d, true)) (hgo : bit v 0 = true) (hseen : seenMsgs d c = m :: ms)
    (he : e = onBell d c (fun x => { x with msgs := x.msgs.tail })) :
    doBellPop a c v d0 = if (bellChan e c).msgs = [] ∧ fb e (BL_BIND c) BL_BIND_NOTE_EMPTY
      ∧ m.epoch = (bellChan e c).sendEpoch then
      tellSender e c 3 0 m.seq (fun x => { x with emptied := true }) else e := by
  unfold doBellPop
  dsimp only
  rw [hw]
  dsimp only
  rw [if_neg (by simp [hgo]), hseen]
  dsimp only
  rw [← he]

section
variable {a : Acc} {v : Word} {d0 d : Dev}

/-- A clear takes the doorbells that it names from those that wait (R369). -/
theorem doDoorbellClear_there (hw : dbWrite a 0x1800 v d0 = (d, true)) :
    doDoorbellClear a v d0 =
      setDoorbells d a.mid.toNat (dbPend d a.mid.toNat - (dbPend d a.mid.toNat &&& v.toNat)) (dbMask d a.mid.toNat) := by
  unfold doDoorbellClear
  dsimp only
  rw [hw]
  rfl

/-- A mask is the word written (R369). -/
theorem doDoorbellMaskWrite_there (hw : dbWrite a 0x1804 v d0 = (d, true)) :
    doDoorbellMaskWrite a v d0 = setDoorbells d a.mid.toNat (dbPend d a.mid.toNat) v.toNat := by
  unfold doDoorbellMaskWrite
  dsimp only
  rw [hw]
  rfl

/-- The holder of a token gives it back (R373). -/
theorem doTokenRelease_holder {t : Nat} (hw : dbWrite a (tokOff t) v d0 = (d, true))
    (hmine : (tok d t).holder = some a.mid.toNat) :
    doTokenRelease a t v d0 = setBroken (onTok d t (fun x => { x with holder := none })) t 0 := by
  unfold doTokenRelease
  dsimp only
  rw [hw]
  dsimp only
  rw [if_neg (by simp), if_pos hmine]

/-- A release by another master is counted as foreign (R373). -/
theorem doTokenRelease_foreign {t : Nat} (hw : dbWrite a (tokOff t) v d0 = (d, true))
    (hother : (tok d t).holder ≠ some a.mid.toNat) :
    doTokenRelease a t v d0 = bump d TK_STATUS TK_STATUS_FOREIGN := by
  unfold doTokenRelease
  dsimp only
  rw [hw]
  dsimp only
  rw [if_neg (by simp), if_neg hother]

end

section
variable {t : Nat} {readers rs : List Acc} {d0 d : Dev} (hsv : bellServed d0 false = (d, true))
  (hrs : rs = (readers.filter (fun a => windowThere d a.mid.toNat)).foldl (fun l a => insertReader (tok d t).ptr a l) [])
include hsv hrs

/-- Readers that contend for a token count the contest, and the pointer moves past the first of them (R372). -/
theorem doTokenAcquire_contested {x y : Acc} {l : List Acc} (hc : rs.filter (contends d t) = x :: y :: l) :
    doTokenAcquire t readers d0 = rs.foldl (tokenRead t) (onTok (bump d TK_STATUS TK_STATUS_CONTESTED) t
      (fun z => { z with ptr := (x.mid.toNat + 1) % 256 })) := by
  unfold doTokenAcquire
  dsimp only
  rw [hsv]
  dsimp only
  rw [if_neg (by simp), ← hrs, hc]

/-- Readers of which at most one contends are served in turn (R372). -/
theorem doTokenAcquire_uncontested (hc : (rs.filter (contends d t)).length ≤ 1) :
    doTokenAcquire t readers d0 = rs.foldl (tokenRead t) d := by
  unfold doTokenAcquire
  dsimp only
  rw [hsv]
  dsimp only
  rw [if_neg (by simp), ← hrs]
  match hl : rs.filter (contends d t) with
  | [] => rfl
  | [_] => rfl
  | _ :: _ :: _ =>
    rw [hl] at hc
    simp at hc

end

/-- Settles O12. -/
theorem bellsAndTokensRun : Obligations.BellsAndTokensRun := by
  unfold Obligations.BellsAndTokensRun
  refine ⟨?_, ?_, ?_, ?_, ?_, ?_, ?_, ?_, ?_, ?_⟩
  · intro s a c v d n hw hgood
    exact congrArg (after s) ((doBellBindWrite_good hw hgood).trans (if_congr (by simp) rfl rfl))
  · intro s a c v d hw hok
    exact congrArg (after s) (doBellPost_accepted hw hok)
  · intro s a c v d e m ms hw hgo hseen he
    exact congrArg (after s) (doBellPop_first hw hgo hseen he)
  · intro s a v d hw
    exact congrArg (after s) (doDoorbellClear_there hw)
  · intro s a v d hw
    exact congrArg (after s) (doDoorbellMaskWrite_there hw)
  · intro s t readers d rs x y l hsv hrs hc
    exact congrArg (after s) (doTokenAcquire_contested hsv hrs hc)
  · intro s t readers d rs x hsv hrs hc
    exact congrArg (after s) (doTokenAcquire_uncontested hsv hrs (by simp [hc]))
  · intro s t readers d rs hsv hrs hc
    exact congrArg (after s) (doTokenAcquire_uncontested hsv hrs (by simp [hc]))
  · intro s a t v d hw hmine
    exact congrArg (after s) (doTokenRelease_holder hw hmine)
  · intro s a t v d hw hother
    exact congrArg (after s) (doTokenRelease_foreign hw hother)

end Sys2Proof.Machine
end

section
/-! SUPPORT. Power completes. -/

namespace Sys2Proof.Machine

/-! ### Holds -/

section
variable {op k : Nat} {a : Acc} {d0 d : Dev} {n : Word} (hw : Written d0 a SE_HOLD_OP (BitVec.ofNat 32 (op * 2 ^ 30 + k)) d n)
include hw

/-- A hold that has room is taken, and a domain that is down comes up. -/
theorem doHoldOp_acquire (hop : op % 2 = 0) (hroom : fg d0 (SE_HOLD k) (if op ≤ 1 then SE_HOLD_PWR else SE_HOLD_CLK) ≠ 255) :
    doHoldOp op a k d0 =
      (let fld := if op ≤ 1 then SE_HOLD_PWR else SE_HOLD_CLK
       let e := fs d (SE_HOLD k) fld (fg d0 (SE_HOLD k) fld + 1)
       if domState e k ≥ 2 ∨ (op = 2 ∧ domState e k = 1) then wakeHeld e k else e) := by
  unfold doHoldOp
  dsimp only
  rw [guardWrite_done hw (if_neg (by omega))]
  exact if_pos hop

/-- A hold that is taken is given back, and the requests that waited for it run. -/
theorem doHoldOp_release (hop : op % 2 = 1) (hheld : fg d0 (SE_HOLD k) (if op ≤ 1 then SE_HOLD_PWR else SE_HOLD_CLK) ≠ 0) :
    doHoldOp op a k d0 =
      (let fld := if op ≤ 1 then SE_HOLD_PWR else SE_HOLD_CLK
       let e := fs d (SE_HOLD k) fld (fg d0 (SE_HOLD k) fld - 1)
       runReqs k e.pm.reqs.length e) := by
  unfold doHoldOp
  dsimp only
  rw [guardWrite_done hw (if_neg (by omega))]
  exact if_neg (by omega)

end

/-! ### Modes and depths -/

section
variable {f r : Nat} {q : Desc} {d e : Dev}

/-- A request of depths completes with the status of the request (R434). -/
theorem actModeDomain_asked {st : Nat} (h : askDomains d f 0 (bits (at4 q.words 0x14) 31 16) (bits (at4 q.words 0x14) 7 4)
    (bits (at4 q.words 0x14) 3 0) (some (tagOf q.words)) = (e, st)) : actModeDomain f r q d = complete e f r q.idx st := by
  unfold actModeDomain
  dsimp only
  rw [h]

/-- A hibernation that nothing prevents takes every domain down (R435). -/
theorem actHibernate_free (hfree : hibFails d = 0) (he : e = complete d f r q.idx stOK) :
    actHibernate f r q d = (List.range 15).foldl (fun d j => fs d (PM_DOM_STAT (j + 1)) PM_DOM_STAT_STATE 4) (stopComparators
      { e with pm := { e.pm with hib := true, waking := 0 }, safe := { e.safe with dmFrom := none } }) := by
  unfold actHibernate
  rw [if_neg (not_not.mpr hfree)]
  dsimp only
  rw [← he]

end

/-- A cause that wakes the device ends its hibernation: the dead-man timer starts again and every domain comes up (R436). -/
theorem doHibernateWake_cause {c : WakeCause} {d0 d e : Dev} (hhib : d0.pm.hib = true) (hwake : wakes d0 c = true)
    (he : e = advance (wakeTime d0 c) d0)
    (hd : d = { e with
      pm := { e.pm with hib := false }
      safe := { e.safe with
        dmFrom := (if e.pm.booted then some e.dt else none)
        dmMs := fg e SE_DEADMAN_CFG SE_DEADMAN_CFG_TIMEOUT_MS } }) :
    doHibernateWake c d0 = readAllRings ((List.range 15).foldl (fun d j => goUp d (j + 1)) d) := by
  unfold doHibernateWake
  rw [if_neg (by simp [hhib, hwake])]
  dsimp only
  rw [← he, ← hd]

/-- The time-out of a trip that a domain's control ends, once the device is cool. -/
def coolDomain (e : Dev) (k : Nat) : Dev :=
  if hasBit e.pm.tripCut k ∧ sext (fg e PM_TJ PM_TJ_TJ) 16 < 10 * (Int.ofNat (fg e PM_THERM PM_THERM_TRIP_C) - 10) then
    { e with pm := { e.pm with tripCut := e.pm.tripCut - 2 ^ k } } else e

/-- A write of a domain's control asks for its depth (R432). -/
theorem doDomainCtrlWrite_done {a : Acc} {k : Nat} {v : Word} {d0 d e : Dev} (hw : maskedWrite a (PM_DOM_CTRL k) v d0 = (d, true))
    (he : e = (askDomains d a.mid.toNat (PM_DOM_CTRL k) (2 ^ k) (bits v 7 4) (bits v 3 0) none).1) :
    doDomainCtrlWrite a k v d0 = coolDomain e k := by
  unfold doDomainCtrlWrite
  dsimp only
  rw [hw]
  dsimp only
  rw [if_neg (by simp), ← he]
  rfl

/-- An idle domain that nothing holds takes its depth (R430). -/
theorem doPmuDepthDecision_idle {k : Nat} {x : Nat} {d : Dev} (hhib : d.pm.hib = false) (hoff : d.pm.off = false)
    (hwaking : hasBit d.pm.waking k = false) (htrip : hasBit d.pm.tripCut k = false) (hmode : modeHeldOff d k = false)
    (hx : x = depthOfDom d k) :
    doPmuDepthDecision k true d = if depthRank (domState d k) < depthRank x then goDown d k x false
      else if depthRank x < depthRank (domState d k) then wakeHeld d k else d := by
  unfold doPmuDepthDecision
  rw [if_neg (by simp [hhib, hoff, hwaking, htrip, hmode])]
  dsimp only
  rw [← hx]

/-- A domain that is down, or wakes, comes up where nothing forbids it (R430). -/
theorem doDomainWake_free {k : Nat} {d : Dev} (hhib : d.pm.hib = false) (hoff : d.pm.off = false)
    (htrip : hasBit d.pm.tripCut k = false) (hmode : ¬ (modeHeldOff d k = true ∧ heldFrom d k 5 = false))
    (hdown : domState d k ≠ 0 ∨ hasBit d.pm.waking k = true)
    (hforced : (forcedState d k).any (fun f => decide (f ≠ 0) && !heldFrom d k f) = false ∨ domState d k = 0) :
    doDomainWake k d = goUp d k := by
  have hwake : ¬ (domState d k = 0 ∧ (!hasBit d.pm.waking k) = true) := by
    rintro ⟨hup, hno⟩
    exact hdown.elim (fun h => h hup) (fun h => by simp [h] at hno)
  have hfree : ¬ ((forcedState d k).any (fun f => decide (f ≠ 0) && !heldFrom d k f) = true ∧ domState d k ≠ 0) := by
    rintro ⟨hyes, hno⟩
    exact hforced.elim (fun h => by rw [h] at hyes; exact absurd hyes (by simp)) hno
  unfold doDomainWake
  rw [if_neg (by simp [hhib, hoff, htrip]), if_neg (by simpa using hmode), if_neg hwake, if_neg hfree]

/-! ### Power and heat -/

section
variable {mw avg cap : Nat} {es : List Nat} {d0 d e : Dev} (hd : d = advance (d0.pm.lastEst + 100000) d0)
  (hes : es = (mw :: d.pm.ests).take 10) (havg : avg = es.sum / es.length)
  (hcap : cap = fg d PM_STATUS PM_STATUS_CAP_W * 1000)
  (he : e = fs { d with pm := { d.pm with ests := es, lastEst := d.dt } } PM_STATUS PM_STATUS_POWER_W (sat (avg / 1000) 255))
include hd hes havg hcap he

/-- An estimate shows its mean; with a cap it caps above it, and lets go after 10 ms below 95 % of it (R433). -/
theorem doPowerEstimate_shown :
    doPowerEstimate mw d0 = if cap = 0 then e
      else if avg > cap then
        (let g := capStep { e with pm := { e.pm with capEpisode := true, underSince := none } }
         if e.pm.capEpisode then g else powerEvent g 2 0 avg)
      else if avg * 100 > cap * 95 then { e with pm := { e.pm with underSince := none } }
      else
        (let t := e.pm.underSince.getD e.dt
         let g := { e with pm := { e.pm with underSince := some t } }
         if g.pm.capEpisode ∧ t + 10000000 ≤ g.dt then capBack g else g) := by
  subst he hcap havg hes hd
  rfl

end

/-- A sample of the temperature keeps the levels that it is over and adds new ones, and ends what it is well below (R437). -/
theorem doThermalSample_levels {tj : Int} {d0 d e g : Dev} {keep new : List TjOver}
    (hd : d = fs d0 PM_TJ PM_TJ_TJ ((tj % 65536).toNat))
    (hkeep : keep = d.pm.tjOver.filter (fun o => decide (tj > tjLevel d o.level)))
    (hnew : new = ((List.range 4).filter (fun l => decide (tj > tjLevel d l) && keep.all (fun o => decide (o.level ≠ l)))).map
      (fun l => ({ level := l, since := d.dt } : TjOver)))
    (he : e = { d with pm := { d.pm with tjOver := keep ++ new } })
    (hg : g = (if tj < tjLevel e 0 - 50 then endTherm e 0 else e)) :
    doThermalSample tj d0 = if tj < tjLevel g 1 - 50 then endTherm g 1 else g := by
  unfold doThermalSample
  dsimp only
  rw [← hd, ← hkeep, ← hnew, ← he, ← hg]

/-- A trip cuts the domains of its mask (R388). -/
theorem doThermalTrip_begins {mask : Nat} {d0 d e : Dev} (h : beginTherm d0 2 = some d)
    (hmask : mask = fg d PM_THERM_MASK PM_THERM_MASK_TRIP_MASK - fg d PM_THERM_MASK PM_THERM_MASK_TRIP_MASK % 2)
    (he : e = forcedLoss (emit d (.pin 4 0)) mask) :
    doThermalTrip d0 = gpuRun (powerEvent (addCause ((bitsOf 16 mask).foldl (fun d k => goDown d k 5 true)
      { e with pm := { e.pm with tripCut := mask } }) 7 0 mask) 5 0 mask) := by
  unfold doThermalTrip
  rw [h]
  dsimp only
  rw [← hmask, ← he]

/-- The critical level takes every domain off (R437). -/
theorem doThermalCritical_acts {d0 d e : Dev} (h : tjActs d0 3 = some d)
    (he : e = (List.range 15).foldl (fun d j => goDown d (j + 1) 5 true)
      (forcedLoss (addCause (emit d (.pin 4 0)) 8 0 0xFFFE) 0xFFFE)) :
    doThermalCritical d0 = { e with pm := { e.pm with off := true } } := by
  unfold doThermalCritical
  rw [h]
  dsimp only
  rw [← he]

/-- Settles O13. -/
theorem powerRuns : Obligations.PowerRuns := by
  unfold Obligations.PowerRuns
  refine ⟨?_, ?_, ?_, ?_, fun s f r q d hr => congrArg (after s) (startDesc_runs hr false actSetMode), ?_, ?_, ?_, ?_, ?_, ?_,
    ?_, ?_,
    ?_, ?_, ?_, ?_, ?_, ?_, ?_, ?_⟩
  · rintro s a k d n e hw hroom rfl
    exact congrArg (after s) ((doHoldOp_acquire (op := 0) hw rfl hroom).trans (if_congr (by simp) rfl rfl))
  · rintro s a k d n e hw hheld rfl
    exact congrArg (after s) (doHoldOp_release (op := 1) hw rfl hheld)
  · rintro s a k d n e hw hroom rfl
    exact congrArg (after s) ((doHoldOp_acquire (op := 2) hw rfl hroom).trans (if_congr (by simp) rfl rfl))
  · rintro s a k d n e hw hheld rfl
    exact congrArg (after s) (doHoldOp_release (op := 3) hw rfl hheld)
  · intro s f r q d e st hr h
    exact after_startDesc hr true actModeDomain (actModeDomain_asked h)
  · intro s f r q d e hr hfree he
    exact after_startDesc hr true actHibernate (actHibernate_free hfree he)
  · intro s c d e hhib hwake he hd
    exact congrArg (after s) (doHibernateWake_cause hhib hwake he hd)
  · intro s a k v d e hw he
    exact congrArg (fun x => after s (tripOver x)) (doDomainCtrlWrite_done hw he)
  · intro s k x hhib hoff hwaking htrip hmode hx
    exact congrArg (after s) (doPmuDepthDecision_idle hhib hoff hwaking htrip hmode hx)
  · intro s k hhib hoff htrip hmode hdown hforced
    exact congrArg (after s) (doDomainWake_free hhib hoff htrip hmode hdown hforced)
  · intro s mw d es avg cap e hd hes havg hcap he hnone
    exact congrArg (after s) ((doPowerEstimate_shown hd hes havg hcap he).trans (if_pos hnone))
  · intro s mw d es avg cap e hd hes havg hcap he hsome hover
    exact congrArg (after s) ((doPowerEstimate_shown hd hes havg hcap he).trans ((if_neg hsome).trans (if_pos hover)))
  · intro s mw d es avg cap e hd hes havg hcap he hsome hunder hnear
    exact congrArg (after s) ((doPowerEstimate_shown hd hes havg hcap he).trans
      ((if_neg hsome).trans ((if_neg hunder).trans (if_pos hnear))))
  · rintro s mw d es avg cap e g hd hes havg hcap he hsome hunder hfar rfl
    exact congrArg (after s) ((doPowerEstimate_shown hd hes havg hcap he).trans
      ((if_neg hsome).trans ((if_neg hunder).trans (if_neg hfar))))
  · intro s tj d keep new e g hd hkeep hnew he hg
    exact congrArg (after s) (doThermalSample_levels hd hkeep hnew he hg)
  · intro s d h
    refine congrArg (after s) ?_
    unfold doThermalWarn
    rw [h]
  · intro s d h
    refine congrArg (after s) ?_
    unfold doThermalThrottle
    rw [h]
  · intro s d mask e h hmask he
    exact congrArg (after s) (doThermalTrip_begins h hmask he)
  · intro s d e h he
    exact congrArg (after s) (doThermalCritical_acts h he)
  · intro s t h
    refine congrArg (after s) ?_
    unfold doDeadmanExpire
    rw [h]

end Sys2Proof.Machine
end

section
/-! SUPPORT. The worlds and the safety island complete. -/

namespace Sys2Proof.Machine

/-! ### Signatures -/

/-- A signature that is not compared is latched. -/
theorem doSignatureResult_latched {p r : Nat} {px : List OutPix} {d0 d : Dev} (h : latchSig d0 p r px = (d, none)) :
    doSignatureResult p r px d0 = d := by
  unfold doSignatureResult
  dsimp only
  rw [h]

/-- A compared signature waits for its lead on a banker, and is sent and counted otherwise. -/
theorem doSignatureResult_compared {p r : Nat} {px : List OutPix} {d0 d : Dev} {out} (h : latchSig d0 p r px = (d, some out)) :
    doSignatureResult p r px d0 =
      (let f := (rd d (SO_SIG_RES_FRAME p r)).toNat
       let crc := rd d (SO_SIG_RES_CRC p r)
       let subst := fb d (SO_SIG_RES_OUT p r) SO_SIG_RES_OUT_SUBST
       let landIn := fb d (SO_SIG_RES_OUT p r) SO_SIG_RES_OUT_LAND_IN
       if bankerLike d then shadowOwn d { plat := p, region := r, frame := f, crc := crc }
       else countSig (linkSend d 0x08 [p, r, f, crc.toNat, subst.toNat, landIn.toNat]) p r out f crc subst landIn) := by
  unfold doSignatureResult
  dsimp only
  rw [h]

/-! ### SPDM and the link keys -/

section
variable {d : Dev} {f : Nat} {ok : Bool} {code param : Nat} {act : Dev → Dev} (hup : doeUp d f = true)
include hup

/-- A message in its order has its effect and its answer. -/
theorem spdmAsk_inOrder (hok : ok = true) : spdmAsk d f ok code param act = spdmSay (act d) f code param := by
  unfold spdmAsk
  simp only [hup, hok, Bool.not_true, Bool.false_eq_true, if_false, if_true]

/-- A message out of its order is refused. -/
theorem spdmAsk_outOfOrder (hok : ok = false) : spdmAsk d f ok code param act = spdmSay d f 0x7F 4 := by
  unfold spdmAsk
  simp only [hup, hok, Bool.not_true, Bool.false_eq_true, if_false]

variable (hconn : 3 ≤ spdmConn d f)
include hconn

/-- A message about a slot that is there is answered. -/
theorem spdmSlot_there {slot : Nat} (hslot : ¬ 2 ≤ slot) : spdmSlot d f slot code = spdmSay d f code slot := by
  unfold spdmSlot
  rw [if_neg (by omega)]
  exact spdmAsk_inOrder hup (by simpa using hconn)

/-- A message about a slot that is not there is refused. -/
theorem spdmSlot_absent {slot : Nat} (hslot : 2 ≤ slot) : spdmSlot d f slot code = spdmSay d f 0x7F 1 := by
  unfold spdmSlot
  exact if_pos ⟨hup, hconn, hslot⟩

/-- The measurements of an index that is there are answered. -/
theorem doSpdmGetMeasurements_there {index : Nat} (hindex : ¬ (9 < index ∧ index ≠ 0xFF)) :
    doSpdmGetMeasurements f index d = spdmSay d f 0x60 (if index = 0 then 9 else index) := by
  unfold doSpdmGetMeasurements
  rw [if_neg (fun h => hindex h.2.2)]
  exact spdmAsk_inOrder hup (by simpa using hconn)

end

/-! ### Watermarks and scrubs -/

section
variable {a : Acc} {k : WmKind} {v n : Word} {d0 d : Dev} {t : Nat} (ht : t = (if k = .dram then bits v 19 0 else bits v 12 0))
  (hidle : scrubRun d0 k = none) (hfree : fb d0 SE_LOCK SE_LOCK_WM = false)
include ht hidle hfree

/-- A watermark that rises scrubs what it takes, and the prefetches of the Skein pool above it are dropped. -/
theorem doWatermarkRaise_free (hw : Written d0 a (wmOff k) v d n) (hlow : ¬ t < wmNow d0 k)
    (hskein : ¬ (k = .skein ∧ skeinConflict d0 t = true)) (hdram : ¬ (k = .dram ∧ d0.dramUnits < t)) :
    doWatermarkRaise a k v d0 = if t = wmNow d0 k then d
      else if k = .skein then dropPrefetch (beginScrub d k (wmNow d0 k) t false) (wmNow d0 k) t
      else beginScrub d k (wmNow d0 k) t false := by
  unfold doWatermarkRaise
  dsimp only
  rw [← ht, guardWrite_done hw (by simp only [hidle, hfree, hlow, hskein, Option.isSome_none, Bool.false_eq_true, if_false])]
  dsimp only
  rw [hfree, if_neg (by simpa using hdram)]

/-- A watermark that falls scrubs what it gives. -/
theorem doWatermarkLower_free (hw : Written d0 a (scrubOff k) v d n) (hhigh : ¬ wmNow d0 k < t) :
    doWatermarkLower a k v d0 = if t = wmNow d0 k then d else beginScrub d k t (wmNow d0 k) true := by
  unfold doWatermarkLower
  dsimp only
  rw [← ht, guardWrite_done hw (by simp only [hidle, hfree, hhigh, Option.isSome_none, Bool.false_eq_true, if_false])]
  dsimp only
  rw [hfree]
  exact if_congr (by simp) rfl rfl

end

/-- A scrub of the local memory that ends shows where its watermark stands. -/
theorem doScrubDone_dram {x : Scrub} {d0 d : Dev} (hx : scrubRun d0 .dram = some x)
    (hd : d = setBusy (onSafe (advance (x.t0 + scrubNs .dram x) d0) (fun y =>
      { y with scrubs := SMap.erase y.scrubs (wmKey .dram) })) .dram 0) :
    doScrubDone .dram d0 = if x.lower then wr (fs d MC_SEC_STAT MC_SEC_STAT_AT x.hi) MC_SEC_WM (BitVec.ofNat 32 x.lo)
      else fs d MC_SEC_STAT MC_SEC_STAT_AT x.hi := by
  subst hd
  unfold doScrubDone
  rw [hx]
  rfl

/-- A scrub of the Skein pool that ends shows the pool. -/
theorem doScrubDone_skein {x : Scrub} {d0 d : Dev} (hx : scrubRun d0 .skein = some x)
    (hd : d = setBusy (onSafe (advance (x.t0 + scrubNs .skein x) d0) (fun y =>
      { y with scrubs := SMap.erase y.scrubs (wmKey .skein) })) .skein 0) :
    doScrubDone .skein d0 = if x.lower then showSkein (wr d SK_SEC_WM (BitVec.ofNat 32 x.lo)) else showSkein d := by
  subst hd
  unfold doScrubDone
  rw [hx]
  rfl

/-! ### The dead-man timer -/

section
variable {a : Acc} {v n : Word} {d0 d : Dev} (hw : Written d0 a SE_DEADMAN_KICK v d n)
include hw

/-- The first word of a kick is noted. -/
theorem doDeadmanKick_first (hv : v = 0x5A5A) (hnone : d0.safe.kick = none) :
    doDeadmanKick a v d0 = onSafe d (fun x => { x with kick := some d0.dt }) := by
  unfold Written at hw
  unfold doDeadmanKick
  rw [hw]
  exact if_pos ⟨hv, by rw [hnone]; rfl⟩

/-- The second word of a kick, in time, starts the timer again. -/
theorem doDeadmanKick_second {t : Nat} (hv : v = 0xA5A5) (hsome : d0.safe.kick = some t) (htime : d0.dt ≤ t + 1000000) :
    doDeadmanKick a v d0 =
      if d0.safe.dmFrom.isSome then startDeadman (onSafe d (fun x => { x with kick := none }))
      else onSafe d (fun x => { x with kick := none }) := by
  unfold Written at hw
  unfold doDeadmanKick
  rw [hw]
  dsimp only
  rw [hsome, if_neg (by simp), if_pos ⟨hv, by simpa using htime⟩]

/-- Any other word is a bad kick. -/
theorem doDeadmanKick_bad (hfirst : ¬ (v = 0x5A5A ∧ d0.safe.kick.isNone = true))
    (hsecond : ¬ (v = 0xA5A5 ∧ d0.safe.kick.any (fun t => decide (d0.dt ≤ t + 1000000)) = true)) :
    doDeadmanKick a v d0 = logErr (bump (onSafe d (fun x => { x with kick := none })) SE_DEADMAN_STAT SE_DEADMAN_STAT_BAD_KICKS)
      ecBAD_SEQUENCE a.mid.toNat SE_DEADMAN_KICK v a.secure := by
  unfold Written at hw
  unfold doDeadmanKick
  rw [hw]
  dsimp only
  rw [if_neg hfirst, if_neg hsecond]

end

/-! ### Monitors and lockstep -/

/-- A monitor that detects a fault while the island runs is latched. -/
theorem doMonitorDetect_running {k : Nat} {d : Dev} (hup : domUp d 2 = true) (hrun : d.safe.halted = false) :
    doMonitorDetect k d = latchMonitor d k := if_pos ⟨hup, by rw [hrun]; rfl⟩

/-- A lockstep fault halts the island in its safe state. -/
theorem doLockstepFault_running {d : Dev} (hup : domUp d 2 = true) (hrun : d.safe.halted = false) :
    doLockstepFault d =
      latchMonitor (safeState (fs (onSafe d (fun x => { x with halted := true })) SF_STATUS SF_STATUS_LOCKSTEP 1)) 9 := by
  unfold doLockstepFault
  rw [if_neg (by simp [hup, hrun])]

/-- Settles O14. -/
theorem worldsRun : Obligations.WorldsRun := by
  unfold Obligations.WorldsRun
  refine ⟨?_, ?_, ?_, ?_, ?_, ?_, ?_, ?_, ?_, ?_, ?_, ?_, ?_, ?_, ?_, ?_, ?_, ?_, ?_, ?_, ?_, ?_, ?_, ?_, ?_, ?_, ?_, ?_, ?_, ?_,
    ?_, ?_, ?_, ?_, ?_, ?_, ?_, ?_⟩
  · intro s p r px d h
    exact congrArg (after s) (doSignatureResult_latched h)
  · intro s p r px d out h hbank
    exact congrArg (after s) ((doSignatureResult_compared h).trans (if_pos hbank))
  · intro s p r px d out h hlead
    exact congrArg (after s) ((doSignatureResult_compared h).trans (if_neg (by simp [hlead])))
  · intro s f hup
    exact congrArg (after s) (spdmAsk_inOrder hup rfl)
  · intro s f hup hconn
    exact congrArg (after s) (spdmAsk_inOrder hup (decide_eq_true hconn))
  · intro s f hup hconn
    exact congrArg (after s) (spdmAsk_inOrder hup (decide_eq_true hconn))
  · intro s f hup hconn
    exact congrArg (after s) (spdmAsk_inOrder hup (decide_eq_true hconn))
  · intro s f slot hup hconn hslot
    exact congrArg (after s) (spdmSlot_there hup hconn hslot)
  · intro s f slot hup hconn hslot
    exact congrArg (after s) (spdmSlot_there hup hconn hslot)
  · intro s f index hup hconn hindex
    exact congrArg (after s) (doSpdmGetMeasurements_there hup hconn hindex)
  · intro s f hup hsec hconn hsess
    exact congrArg (after s) (spdmAsk_inOrder hup (by simp [hsec, hconn, hsess]))
  · intro s f hup hsess
    exact congrArg (after s) (spdmAsk_inOrder hup (decide_eq_true hsess))
  · intro s f hup hsess
    exact congrArg (after s) (spdmAsk_inOrder hup (decide_eq_true hsess))
  · intro s f hup hsess
    exact congrArg (after s) (spdmAsk_inOrder hup (decide_eq_true hsess))
  · intro s f hup hsess
    exact congrArg (after s) (spdmAsk_inOrder hup (decide_eq_true hsess))
  · intro s f k hup hsec hsess
    exact congrArg (after s) (spdmAsk_inOrder hup (by simp [hsec, hsess]))
  · intro s f k hup hsec hsess hkey
    exact congrArg (after s) (spdmAsk_inOrder hup (by simp [hsec, hsess, hkey]))
  · intro s f hup hconn
    exact congrArg (after s) (spdmAsk_outOfOrder hup (decide_eq_false hconn))
  · intro s f hup hconn
    exact congrArg (after s) (spdmAsk_outOfOrder hup (decide_eq_false hconn))
  · intro s f hup hconn
    exact congrArg (after s) (spdmAsk_outOfOrder hup (decide_eq_false hconn))
  · intro s f slot hup hconn hslot
    exact congrArg (after s) (spdmSlot_absent hup hconn hslot)
  · intro s f slot hup hconn hslot
    exact congrArg (after s) (spdmSlot_absent hup hconn hslot)
  · intro s f hup hsess
    exact congrArg (after s) (spdmAsk_outOfOrder hup (decide_eq_false hsess))
  · intro s f hup hsess
    exact congrArg (after s) (spdmAsk_outOfOrder hup (decide_eq_false hsess))
  · intro s f hup hsess
    exact congrArg (after s) (spdmAsk_outOfOrder hup (decide_eq_false hsess))
  · intro s f hup hsess
    exact congrArg (after s) (spdmAsk_outOfOrder hup (decide_eq_false hsess))
  · intro s k h
    exact congrArg (after s) (if_neg (not_not.mpr h))
  · intro s a k v d n t hw ht hidle hfree hlow hskein hdram
    exact congrArg (after s) (doWatermarkRaise_free ht hidle hfree hw hlow (of_eq_false hskein) (of_eq_false hdram))
  · intro s a k v d n t hw ht hidle hfree hhigh
    exact congrArg (after s) (doWatermarkLower_free ht hidle hfree hw hhigh)
  · intro s x d hx hd
    exact congrArg (after s) (doScrubDone_dram hx hd)
  · intro s x d hx hd
    exact congrArg (after s) (doScrubDone_skein hx hd)
  · intro s a v d n hw hv hnone
    exact congrArg (after s) (doDeadmanKick_first hw hv hnone)
  · intro s a v t d n hw hv hsome htime
    exact congrArg (after s) (doDeadmanKick_second hw hv hsome htime)
  · intro s a v d n hw hfirst hsecond
    exact congrArg (after s) (doDeadmanKick_bad hw (of_eq_false hfirst) (of_eq_false hsecond))
  · intro s k hup hrun
    exact congrArg (after s) (doMonitorDetect_running hup hrun)
  · intro s hup hrun
    exact congrArg (after s) (doLockstepFault_running hup hrun)
  · rintro s a v w d n rfl hw hgood henter
    exact congrArg (after s) ((cautionWrite_done hw hgood).trans (cautionTaken_enter henter))
  · rintro s a v w d n e rfl hw hgood hstay hexit rfl hmode
    exact congrArg (after s) ((cautionWrite_done hw hgood).trans (cautionTaken_exit hstay hexit hmode))

end Sys2Proof.Machine
end

section
/-! SUPPORT. Booting, firmware and the frame starts complete. -/

namespace Sys2Proof.Machine

/-! ### The loader -/

/-- The device as the boot ROM leaves it before it looks at the strap's mode: the store is found, the failures are shown, and the
memory is trained where the mode asks for it. -/
def bootPrepared (d0 : Dev) : Dev :=
  let d := showStore (fs (freshSector { d0 with pm := { d0.pm with begun := true } }) PM_STORE_STAT PM_STORE_STAT_PRESENT
    d0.pm.storePresent.toNat)
  let e := fs d PM_BOOT_STAT PM_BOOT_STAT_FAILS (sat (bootFails d) 15)
  let g := if d0.bootMode = 1 ∧ d0.pm.storePresent then trainDram e else e
  if d0.bootMode ≥ 3 then logErr g ecBOOT_STRAP 0 PM_BOOT_STAT (BitVec.ofNat 32 d0.bootMode) else g

/-- A boot that has not begun recovers where the strap or three failures ask for it, and waits for the host otherwise. -/
theorem doBootStart_first {d : Dev} (h : d.pm.begun = false) :
    doBootStart d = if d.bootMode ≥ 2 ∨ bootFails (bootPrepared d) ≥ 3 then enterRecovery (bootPrepared d) 0
      else setLdr (bootPrepared d) 0 0 :=
  if_neg (by simp [h])

section
variable {a : Acc} {w n : Word} {d0 d : Dev} (hw : Written d0 a PM_LDR_CMD w d n)
include hw

/-- A load that the loader can take counts an attempt and fetches the list of the image. -/
theorem ldrWrite_load {e : Dev} (hop : bits w 31 28 = 1) (hst : ldrState d = 0 ∨ ldrState d = 5 ∨ ldrState d = 6)
    (hbegun : d.pm.begun = true)
    (he : e = fs (setLdr { (writeBootState d (bootFails d + 1)) with
      pm := { (writeBootState d (bootFails d + 1)).pm with loading := true } } 1 0) PM_LDR_STAT PM_LDR_STAT_FETCHED 0) :
    ldrWrite a w d0 = emit e (.hostRead 0 (rd64 e PM_LDR_ADDR_LO) (16 * fg e PM_LDR_CNT PM_LDR_CNT_COUNT)) := by
  subst he
  unfold Written at hw
  unfold ldrWrite
  rw [hw]
  exact if_pos ⟨hop, hst, hbegun⟩

/-- A format in recovery formats the store. -/
theorem ldrWrite_format (hop : bits w 31 28 = 2) (hst : ldrState d = 6) : ldrWrite a w d0 = formatStore d := by
  unfold Written at hw
  unfold ldrWrite
  rw [hw]
  dsimp only
  rw [if_neg (by omega), if_pos ⟨hop, hst⟩]

end

section
variable {img : ImageInfo} {d0 d : Dev} (hload : d0.pm.loading = true)
  (hd : d = fs d0 PM_LDR_STAT PM_LDR_STAT_FETCHED (sat (img.bytes / 2 ^ 20) 65535))
include hload hd

/-- An image that is good is put into slot 0 and runs. -/
theorem doImageVerifyDone_good {e : Dev} (hgood : imageCause img = 0) (he : e = putImage (setLdr d 3 0) 0 (imageOf img)) :
    doImageVerifyDone img d0 =
      releaseOuts (startDeadman { e with pm := { e.pm with loading := false, verifyDt := e.dt, running := 0 } }) := by
  subst hd he
  unfold doImageVerifyDone
  rw [if_neg (by simp [hload])]
  exact if_neg (not_not.mpr hgood)

/-- An image that is bad fails the boot with its cause. -/
theorem doImageVerifyDone_bad (hbad : imageCause img ≠ 0) : doImageVerifyDone img d0 = bootFailed d (imageCause img) := by
  subst hd
  unfold doImageVerifyDone
  rw [if_neg (by simp [hload])]
  exact if_pos hbad

end

/-- An image that does not say in time that it runs fails the boot. -/
theorem doBootTimeout_verified {d : Dev} (h : ldrState d = 3) :
    doBootTimeout d = bootFailed (advance (d.pm.verifyDt + 2000000000) d) 0 := if_neg (not_not.mpr h)

/-- The device that runs its firmware: its slot is active, its failures are forgotten and its cluster map is back. -/
def bootDone (d0 : Dev) : Dev :=
  let e := setSlot (wr (setLdr d0 4 0) PM_FW_VER (slotImage d0 0).version) 0 3
  copyCauses (restoreMap (writeBootState (fs { e with pm := { e.pm with booted := true, recovery := false } } PM_BOOT_STAT
    PM_BOOT_STAT_SLOT 0) 0))

/-- Firmware that runs sets the displays up, or the Heritage interface. -/
theorem doBootRunning_verified {d : Dev} (h : ldrState d = 3) :
    doBootRunning d = if d.heritage then heritageBoot (bootDone d)
      else showRate ((List.range 4).foldl bootDisplayOf (bootDone d)) :=
  if_neg (not_not.mpr h)

/-! ### Staged images and cut-over -/

/-- What a load of an image waits for until its descriptor starts. -/
def stagedLoad (r idx : Nat) (img : ImageInfo) : StagedLoad :=
  { ring := r, idx := idx, cause := imageCause img, img := imageOf img }

/-- A load that runs stages its image, and forgets it where its descriptor is over. -/
theorem doFwStageLoad_runs {f r : Nat} {img : ImageInfo} {q0 q : Desc} {rest : List Desc} {d0 d e : Dev} {x : StagedLoad}
    (hq : (ringSt d0 f r).queue = q0 :: rest)
    (hr : Runs { d0 with pm := { d0.pm with stagedLoads := stagedLoad r q0.idx img :: d0.pm.stagedLoads } }
      f r 0x630 [] chkFwStage q d)
    (hx : d.pm.stagedLoads.find? (fun y => decide (y.ring = r) && decide (y.idx = q.idx)) = some x)
    (he : e = purgeRing (stageImage { d with pm := { d.pm with stagedLoads := d.pm.stagedLoads.filter (fun y => y != x) } } f r q
      x.cause x.img) f r) :
    doFwStageLoad f r img d0 = if (liveDesc e f r q0.idx).isSome then e
      else { e with pm := { e.pm with stagedLoads := e.pm.stagedLoads.filter (fun y => y != stagedLoad r q0.idx img) } } := by
  have hact : actFwLoad f r q d = stageImage { d with pm := { d.pm with
      stagedLoads := d.pm.stagedLoads.filter (fun y => y != x) } } f r q x.cause x.img := by
    unfold actFwLoad
    rw [hx]
  have hrun := startDesc_runs hr true actFwLoad
  rw [hact, ← he] at hrun
  unfold stagedLoad at hrun ⊢
  unfold doFwStageLoad
  rw [hq]
  dsimp only
  rw [hrun]

section
variable {f r : Nat} {q : Desc} {d : Dev}

/-- A cut-over with a platform that has a timing waits for its frame. -/
theorem actFwCutover_waits (hcp : q.cp = none) (hhad : (raster d (bits (at4 q.words 0x10) 7 4)).had = true)
    (hfree : d.pm.cut.pendingOn = none) :
    actFwCutover f r q d =
      onCut d (fun c => { c with pendingOn := some (bits (at4 q.words 0x10) 7 4), slot := fwSlot q, desc := some (r, q.idx) })
        := by
  unfold actFwCutover
  dsimp only
  rw [if_neg (by simp [hcp, hhad]), if_neg (by simp [hfree])]

/-- A cut-over without one opens its window at once. -/
theorem actFwCutover_now (hhad : (raster d (bits (at4 q.words 0x10) 7 4)).had = false) (hok : cutRefused d (fwSlot q) = none) :
    actFwCutover f r q d = openWindow d (fwSlot q) (some (r, q.idx)) := by
  unfold actFwCutover
  dsimp only
  rw [if_pos (by simp [hhad])]
  unfold actCutoverNow
  rw [hok]

end

section
variable {d0 : Dev} (hopen : d0.pm.cut.window = true) (htime : ¬ d0.pm.cut.tc + 40000000 < d0.dt)
include hopen htime

/-- The old firmware, ready after a rollback, closes the window late. -/
theorem doFirmwareReady_rolledBack (hback : d0.pm.cut.rollback = true) :
    doFirmwareReady d0 = closeWindow (addCause d0 0x0A 0 0) stLATE 0 := by
  unfold doFirmwareReady
  dsimp only
  rw [if_neg (by simp [hopen, htime]), if_pos hback]

/-- The new firmware, ready in time, takes the slot over. -/
theorem doFirmwareReady_new {us : Nat} {d e : Dev} (hnew : d0.pm.cut.rollback = false) (hus : us = (d0.dt - d0.pm.cut.tc) / 1000)
    (hd : d = setSlot (setSlot d0 d0.pm.running 2) d0.pm.cut.slot 3)
    (he : e = wr (fs { d with pm := { d.pm with running
      := d0.pm.cut.slot } } PM_BOOT_STAT PM_BOOT_STAT_SLOT d0.pm.cut.slot) PM_FW_VER
      (slotImage d d0.pm.cut.slot).version) :
    doFirmwareReady d0 = closeWindow (powerEvent (addCause e 9 0 0) 6 d0.pm.cut.slot us) stOK us := by
  subst hus hd he
  unfold doFirmwareReady
  rw [if_neg (by simp [hopen, htime])]
  exact if_neg (by simp [hnew])

end

/-- A window that is not closed in 40 ms rolls back, and a rollback that fails closes it late. -/
theorem doCutoverTimeout_open {d0 d : Dev} (hopen : d0.pm.cut.window = true) (hd : d = advance (d0.pm.cut.tc + 40000000) d0) :
    doCutoverTimeout d0 = if d0.pm.cut.rollback then closeWindow (addCause d 0x0A 0 0) stLATE 0
      else startDeadman (onCut (powerEvent (setSlot d d0.pm.cut.slot 4) 7 d0.pm.cut.slot 2)
        (fun c => { c with rollback := true, tc := d.dt })) := by
  subst hd
  exact if_neg (by simp [hopen])

/-! ### Frame starts -/

/-- A platform at the start of frame k: its raster, its framelock, its faults and its mode. -/
def frameBegun (d0 : Dev) (p k : Nat) : Dev :=
  let t := dtOf (raster d0 p) k 0
  let e := advance t d0
  let d := count (onPlat (setRaster e p (frameRaster e p k t)) p (fun y => { y with started := some k })) (162 + p)
  let g := takeMode (pruneCfgs (clearFaults (bklFrame (flOut (if fb d (TT_FL_CTRL p) TT_FL_CTRL_EN then d
    else onFl d p (fun y => { y with corr := 0 })) p) p) p k) p k) p
  if g.heritage && scans g p then mdhIrq g p else g

/-- A frame of an active raster that nothing holds starts. -/
theorem doFrameStart_active {p : Nat} {d0 : Dev} (hhad : (raster d0 p).had = true) (hvtot : (raster d0 p).vtot ≠ 0)
    (hte : teWaits d0 p = false)
    (hhold : (scans d0 p && (raster d0 p).hold.any (fun h => decide (h < frameNext d0 p * (raster d0 p).vtot))) = false) :
    doFrameStart p d0 =
      (let k := frameNext d0 p
       let z := frameBegun d0 p k
       let y := if scans z p then count z (394 + 2 * p) else z
       if scans z p = true ∧ (!(platRun z p).psr) = true ∧ (platRun z p).psrExit ≠ some k then frameCrc y p (k - 1) else y) := by
  have hgo : ¬ ((!(raster d0 p).had) = true ∨ (raster d0 p).vtot = 0 ∨ teWaits d0 p = true ∨ (scans d0 p = true ∧
      (raster d0 p).hold.any (fun h => decide (h < frameNext d0 p * (raster d0 p).vtot)) = true)) := by
    rw [hhad, hte, ← Bool.and_eq_true, hhold]
    simp [hvtot]
  exact if_neg hgo

/-- Settles O15. -/
theorem bootRuns : Obligations.BootRuns := by
  unfold Obligations.BootRuns
  refine ⟨?_, ?_, ?_, ?_, ?_, ?_, ?_, ?_, ?_, fun s f r q d hr => congrArg (after s) (startDesc_runs hr true actFwDiscard),
    ?_, ?_, ?_,
    ?_, ?_, ?_, ?_⟩
  · rintro s d e g h rfl rfl rfl
    exact congrArg (after s) (doBootStart_first h)
  · rintro s a v w d n e rfl hw hop hst hbegun he
    exact congrArg (after s) (ldrWrite_load hw hop hst hbegun he)
  · rintro s a v w d n rfl hw hop hst
    exact congrArg (after s) (ldrWrite_format hw hop hst)
  · intro s img d e hload hd hgood he
    exact congrArg (after s) (doImageVerifyDone_good hload hd hgood he)
  · intro s img d hload hd hbad
    exact congrArg (after s) (doImageVerifyDone_bad hload hd hbad)
  · intro s h
    exact congrArg (after s) (doBootTimeout_verified h)
  · rintro s d e h rfl rfl hher
    exact congrArg (after s) ((doBootRunning_verified h).trans (if_pos hher))
  · rintro s d e h rfl rfl hhome
    exact congrArg (after s) ((doBootRunning_verified h).trans (if_neg (by simp [hhome])))
  · intro s f r img q0 rest q d x e hq hr hx he
    exact congrArg (after s) (doFwStageLoad_runs hq hr hx he)
  · intro s f r q d hr hcp hhad hfree
    exact after_startDesc hr true actFwCutover (actFwCutover_waits hcp hhad hfree)
  · intro s f r q d hr hhad hok
    exact after_startDesc hr true actFwCutover (actFwCutover_now hhad hok)
  · intro s hopen htime hback
    exact congrArg (after s) (doFirmwareReady_rolledBack hopen htime hback)
  · intro s us d e hopen htime hnew hus hd he
    exact congrArg (after s) (doFirmwareReady_new hopen htime hnew hus hd he)
  · intro s d hopen hd hback
    exact congrArg (after s) ((doCutoverTimeout_open hopen hd).trans (if_pos hback))
  · intro s d hopen hd hnew
    exact congrArg (after s) ((doCutoverTimeout_open hopen hd).trans (if_neg (by simp [hnew])))
  · rintro s p x k t e d g z rfl hhad hvtot hte hhold rfl rfl rfl rfl rfl rfl
    exact congrArg (fun y => after s (cutoverFrame y p.val)) (doFrameStart_active hhad hvtot hte hhold)

end Sys2Proof.Machine
end

section
/-! SUPPORT. The store, the counters and the error log complete. -/

namespace Sys2Proof.Machine

/-! ### The store -/

section
variable {f r : Nat} {q : Desc} {d e : Dev}

/-- A read of a record that is not there says so. -/
theorem actStoreRead_absent (h : currentRec d (storeName q).1 (storeName q).2 = none) :
    actStoreRead f r q d = complete d f r q.idx stOK 0xFFFFFFFF := by
  unfold actStoreRead
  rw [h]

/-- A read of a record that fits its room is written to memory. -/
theorem actStoreRead_stored {x : StoreRec} (h : currentRec d (storeName q).1 (storeName q).2 = some x)
    (hfits : ¬ (at4 q.words 0x20).toNat < x.len)
    (hm : memWritePages (pagesFuel x.len) d f f (at8 q.words 0x18) ((wordBytes x.payload).take x.len) = (e, true)) :
    actStoreRead f r q d = complete e f r q.idx stOK x.len := by
  unfold actStoreRead
  rw [h]
  dsimp only
  rw [if_neg hfits, hm]
  rfl

/-- A write without bytes is stored without a read. -/
theorem actStoreWrite_empty (h : (at4 q.words 0x20).toNat = 0) :
    actStoreWrite f r q d = storeWrite d (storeName q).1 (storeName q).2 [] 0 false (some (f, r, q.idx)) := if_pos h

/-- A write whose bytes are read is stored. -/
theorem actStoreWrite_words {ws : List Word} (h : (at4 q.words 0x20).toNat ≠ 0)
    (hm : memRead d f f (at8 q.words 0x18) (cdiv (at4 q.words 0x20).toNat 4)
      (q.mem.headD { data := [], ecc := false, ats := false }) = (e, .words ws)) :
    actStoreWrite f r q d = storeWrite e (storeName q).1 (storeName q).2 (padWords ws (at4 q.words 0x20).toNat)
      (at4 q.words 0x20).toNat false (some (f, r, q.idx)) := by
  unfold actStoreWrite
  dsimp only
  rw [if_neg h, hm]

/-- The figures of the store are written to memory. -/
theorem actStoreInfo_written {ok : Bool} (hm : memWrite d f f (at8 q.words 0x18) ([d.pm.storeSectors * 65536,
    (erasedSectors d).length,
      ((topRecs d).filter (fun r => !r.deleted)).length,
        d.pm.storeErases.foldl (fun m p => max m p.2) 0].flatMap (leBytes 4)) = (e, ok)) :
    actStoreInfo f r q d = complete e f r q.idx (if ok then stOK else stERR_FAULT) := by
  unfold actStoreInfo
  dsimp only
  rw [hm]

end

section
variable {j : StoreJob} {js : List StoreJob} {d0 d : Dev} (hj : d0.pm.storeJobs = j :: js)
  (hd : d = { d0 with pm := { d0.pm with storeJobs := js } })
include hj hd

/-- A write that waits and has room is done. -/
theorem doStoreWriteDone_room {e : Dev} (hroom : appendRec d { j.item with seq := d.pm.storeSeq } = some e) :
    doStoreWriteDone d0 = storeAnswer (showStore { e with pm := { e.pm with storeSeq := e.pm.storeSeq + 1 } }) j.waiter stOK := by
  subst hd
  unfold doStoreWriteDone
  rw [hj]
  dsimp only at hroom ⊢
  rw [hroom]

/-- A write that waits and has no room fails. -/
theorem doStoreWriteDone_full (hfull : appendRec d { j.item with seq := d.pm.storeSeq } = none) :
    doStoreWriteDone d0 = storeAnswer (showStore d) j.waiter stNO_RESOURCE := by
  subst hd
  unfold doStoreWriteDone
  rw [hj]
  dsimp only at hfull ⊢
  rw [hfull]

end

/-- A compaction copies what lives in the oldest sector and erases it. -/
theorem doStoreCompaction_copied {k : Nat} {d0 d : Dev} (hfew : ¬ (erasedSectors d0).length ≥ 2) (hk : oldestSector d0 = some k)
    (hcopy : copyRecs ((topRecs d0).filter (fun r => decide (r.sector = k) && !r.deleted)) d0 = some d) :
    doStoreCompaction d0 = showStore { d with pm := { d.pm with
      store := d.pm.store.filter (fun r => r.sector != k), storeErases := SMap.mod d.pm.storeErases k (fun n => n + 1) } } := by
  unfold doStoreCompaction
  rw [if_neg hfew, hk]
  dsimp only
  rw [hcopy]

/-! ### Snapshots and counters -/

/-- A snapshot that nothing refuses freezes the counters. -/
theorem doSnapshot_runs {f r : Nat} {q0 q : Desc} {rest : List Desc} {d0 d : Dev} (hq : (ringSt d0 f r).queue = q0 :: rest)
    (hgood : descRefusal d0 f r q0 chkSnapshot = none) (hr : Runs d0 f r 0x660 [] chkSnapshot q d) :
    doSnapshot f r d0 = purgeRing (freeze d 0xFFFF [(r, q.idx, at8 q.words 0x18)]) f r := by
  unfold doSnapshot
  dsimp only
  rw [startDesc_runs hr true actSnapshot, hq]
  dsimp only
  rw [hgood]
  exact ite_self _

/-- The snapshots that wait are written, and the number of the snapshot is shown. -/
theorem doSnapshotDone_busy {n : Nat} {d0 d e x : Dev} (hbusy : d0.ctr.busy = true) (hx : x = advance d0.ctr.freezeDt d0)
    (hn : n = (x.ctr.seq + 1) % 2 ^ 32) (hd : d = x.ctr.jobs.foldl (fun d j => writeSnap d n j) x)
    (he : e = { d with ctr := { d.ctr with busy := false, jobs := [], seq := n } }) :
    doSnapshotDone d0 = fs (fs e CT_SNAP_STAT CT_SNAP_STAT_BUSY 0) CT_SNAP_STAT CT_SNAP_STAT_SEQ (n % 65536) := by
  subst he hd hn hx
  exact if_neg (by simp [hbusy])

/-- A read of the counter clock latches its upper word for its master. -/
theorem doCounterRead_served {a : Acc} {d0 d e : Dev} (hsv : serveDomain d0 4 = (d, true)) (hreach : reachesBar0 a = true)
    (he : e = { d with tt := { d.tt with ctHi := SMap.set d.tt.ctHi a.mid.toNat (ctShown d / 2 ^ 32) }, freeCtr
      := d.freeCtr + 1 }) :
    doCounterRead a d0 = emit e (.readData a.mid.toNat CT_VAL_LO (maskBytes a.be (loWord (ctShown d)))) := by
  unfold doCounterRead
  dsimp only
  rw [hsv, hreach]
  dsimp only
  rw [if_neg (by simp), ← he]

/-! ### Errors of the memories -/

/-- A corrected error of a memory is counted, and told when its channel has more in a second than the threshold. -/
theorem memCorrected_counted {src : EccSource} {addr c n : Nat} {d0 d e : Dev} (hc : c = eccChannel src addr)
    (hn : n = (if (SMap.get d0.ctr.ceRun (16 * eccCode src + c)).1 = d0.dt / 10 ^ 9 then
      (SMap.get d0.ctr.ceRun (16 * eccCode src + c)).2 + 1 else 1))
    (hd : d = eccRegs { d0 with ctr := { d0.ctr with ceRun := SMap.set d0.ctr.ceRun (16 * eccCode src + c) (d0.dt / 10 ^ 9, n) } }
      src addr false) (he : e = (if src = .dram then count d (578 + 4 * c + 2) else d)) :
    memCorrected src addr d0 = if fg d0 MC_ECC_CFG MC_ECC_CFG_CE_THR ≠ 0 ∧ n = fg d0 MC_ECC_CFG MC_ECC_CFG_CE_THR + 1 then
      post e 0 clERROR 3 0 (pb 0 (eccCode src) + pb 1 c + pw32 4 n) else e := by
  subst he hd hn hc
  rfl

/-- A patrol of the local memory looks at one line, and starts again at its end. -/
theorem doPatrolScrub_dram {d0 d : Dev} (hup : domState d0 5 < 3)
    (hd : d = (if SMap.get d0.err.badLines d0.err.patrol then eccUe d0 .dram (64 * d0.err.patrol) 0xFF else d0)) :
    doPatrolScrub .dram d0 = if 64 * (d0.err.patrol + 1) ≥ dramSize d0 then
        fs { d with err := { d.err with patrol
          := 0 } } MC_SCRUB_STAT MC_SCRUB_STAT_PASSES (fg d MC_SCRUB_STAT MC_SCRUB_STAT_PASSES + 1)
      else { d with err := { d.err with patrol := d0.err.patrol + 1 } } := by
  subst hd
  exact if_neg (by simp [hup])

/-- What the telling of records makes of the device at its time. -/
def tellErrors (d0 d : Dev) : Dev :=
  post { d with err := { d.err with unreported := 0, lastPost := some d.dt } } 0 clERROR 1 0 (pw32 4 d0.err.unreported)

/-- Records that were not told are told together, a millisecond after the last telling. -/
theorem doErrLogged_untold {d0 d : Dev} (hnew : d0.err.unreported ≠ 0) (hen : fb d0 ER_CTRL ER_CTRL_EVT_EN = true)
    (hd : d = (d0.err.lastPost.map (fun t => advance (t + 10 ^ 6) d0)).getD d0) :
    doErrLogged d0 = tellErrors d0 d := by
  unfold doErrLogged tellErrors
  rw [if_neg (by simp [hnew, hen])]
  dsimp only
  split
  case h_1 t ht =>
    rw [ht, Option.map_some, Option.getD_some] at hd
    rw [hd]
  case h_2 ht =>
    rw [ht, Option.map_none, Option.getD_none] at hd
    rw [hd]

/-- Settles O16. -/
theorem storeAndCountersRun : Obligations.StoreAndCountersRun := by
  unfold Obligations.StoreAndCountersRun
  refine ⟨?_, ?_, ?_, ?_, fun s f r q d hr => congrArg (after s) (startDesc_runs hr true actStoreDelete), ?_, ?_, ?_, ?_, ?_,
    ?_, ?_, ?_,
    fun s k addr => rfl, ?_, ?_, ?_⟩
  · intro s f r q d hr h
    exact after_startDesc hr true actStoreRead (actStoreRead_absent h)
  · intro s f r q d x e hr h hfits hm
    exact after_startDesc hr true actStoreRead (actStoreRead_stored h hfits hm)
  · intro s f r q d m hr h
    exact after_startDesc hr true actStoreWrite (actStoreWrite_empty h)
  · intro s f r q d m e ws hr h hm
    exact after_startDesc hr true actStoreWrite (actStoreWrite_words h hm)
  · intro s f r q d e ok hr hm
    exact after_startDesc hr true actStoreInfo (actStoreInfo_written hm)
  · intro s j js d e hj hd hroom
    exact congrArg (after s) (doStoreWriteDone_room hj hd hroom)
  · intro s j js d hj hd hfull
    exact congrArg (after s) (doStoreWriteDone_full hj hd hfull)
  · intro s k d hfew hk hcopy
    exact congrArg (after s) (doStoreCompaction_copied hfew hk hcopy)
  · intro s f r q0 rest q d hq hgood hr
    exact congrArg (after s) (doSnapshot_runs hq hgood hr)
  · intro s n d e x hbusy hx hn hd he
    exact congrArg (after s) (doSnapshotDone_busy hbusy hx hn hd he)
  · intro s a d e hsv hreach he
    exact congrArg (after s) (doCounterRead_served hsv hreach he)
  · intro s src addr c n d e hc hn hd he
    exact congrArg (after s) (memCorrected_counted hc hn hd he)
  · rintro s src addr mid pw d rfl
    rfl
  · intro s d hup hd
    exact congrArg (after s) (doPatrolScrub_dram hup hd)
  · intro s d hnew hen hd
    exact congrArg (after s) (doErrLogged_untold hnew hen hd)

end Sys2Proof.Machine
end

section
/-! SUPPORT. The pair completes. -/

namespace Sys2Proof.Machine

/-! ### Fences, forming and swapping -/

/-- A fence input that comes shuts the ports of a device alone, and is obeyed in a pair that does not ignore it. -/
theorem doFenceInAssert_new {d0 d : Dev} (h : d0.pair.fenceIn = false) (hd : d = onPair d0 (fun x => { x with fenceIn
    := true })) :
    doFenceInAssert d0 = if dhState d = 0 then fs (fencePorts d) GL_MODE GL_MODE_FENCED 1
      else if fenceIgnored d then d else obeyFence d false := by
  subst hd
  exact if_neg (by simp [h])

/-- A fence input that goes opens the ports. -/
theorem doFenceInRelease_held {d : Dev} (h : d.pair.fenceIn = true) :
    doFenceInRelease d = unfence (onPair d (fun x => { x with fenceIn := false })) := if_neg (by simp [h])

/-- A forming that runs begins while none does, and meets the partner that is there. -/
theorem doPairForm_runs {f r : Nat} {p : Option Partner} {q : Desc} {d0 d e g : Dev} (hfree : d0.pair.form = none)
    (hr : Runs d0 f r 0x650 [] chkForm q d)
    (he : e = onPair d (fun x => { x with form := some { ring := r, idx := q.idx, role := bits (at4 q.words 0x10) 27 27, t0
      := d.dt } }))
    (hg : g = purgeRing (if dhState d = 0 ∨ dhState d = 7 then
      setHeartbeat (setDh (setRole e (bits (at4 q.words 0x10) 27 27 == 1)) 1) true else e) f r) :
    doPairForm f r p d0 = (p.map (fun x => if domUp g 15 then formMeets g x else g)).getD g := by
  have hrun : startDesc d0 f r 0x650 [] true chkForm actForm = g := by
    rw [startDesc_runs hr true actForm, hg, he]
    rfl
  unfold doPairForm
  dsimp only
  rw [hfree, if_neg (by simp), hrun]
  cases p with
  | none => rfl
  | some x => rfl

/-- A swap that no calling point binds is accepted, and the pair is swapping. -/
theorem actSwap_unbound {f r : Nat} {q : Desc} {d : Dev} (h : q.cp = none) :
    actSwap f r q d = onPair (acceptCommit d f (.desc f r q.idx) (bits (at4 q.words 0x10) 3 0)
      (maskOfList (bits (at4 q.words 0x10) 3 0 :: enabledPlats d)) q.cp false true [.swap]) (fun x => { x with swapping
        := true }) :=
  if_pos (by rw [h]; rfl)

/-- A forming that finds no partner ends after a second. -/
theorem doFormTimeout_forming {j : FormJob} {d0 d : Dev} (hj : d0.pair.form = some j) (hstate : dhState d0 ≠ 2)
    (hd : d = endForm (advance (j.t0 + 1000000000) d0) stERR_DOWN 0) :
    doFormTimeout d0 = if dhState d = 1 then toStandalone d else d := by
  unfold doFormTimeout
  rw [hj]
  dsimp only
  rw [if_neg hstate, ← hd]

section
variable {d : Dev} (hsync : dhState d = 2)
include hsync

/-- A banker that has the copy, and whose platforms are locked, is hot. -/
theorem doBankerHot_banker (hbank : dhBanker d = true) (hcopy : d.pair.copyDone = true)
    (hlock : (enabledPlats d).all (fun p => flState d p == 2) = true) :
    doBankerHot d = pairEvent (endForm (setDh d 4) stOK 0) 1 1 := by
  unfold doBankerHot
  rw [if_neg (not_not.mpr hsync), if_pos hbank, if_pos (by simp only [hcopy, hlock, Bool.and_self])]

/-- A lead whose banker is hot leads. -/
theorem doBankerHot_lead (hlead : dhBanker d = false) : doBankerHot d = pairEvent (endForm (setDh d 3) stOK 0) 1 0 := by
  unfold doBankerHot
  rw [if_neg (not_not.mpr hsync), hlead, if_neg (by simp)]

end

/-- A lead gives the lead away when its jobs are done, its records are acknowledged and the swap has landed. -/
theorem doSwapTakeEffect_lead {d : Dev} (hlead : dhState d = 3) (hswap : d.pair.swapping = true)
    (hjobs : (ctxKeys d).all (fun c => (gctx d c).job.isNone) = true) (hacked : d.pair.acked ≥ d.pair.seqOut)
    (hlanded : swapLanded d = true) : doSwapTakeEffect d = giveLead d := by
  unfold doSwapTakeEffect
  rw [if_pos ⟨hlead, hswap⟩, hjobs, hlanded, if_pos (by simpa using hacked)]

/-- A banker takes the lead with the swap that it holds. -/
theorem doSwapTakeEffect_banker {x} {d : Dev} (hbank : dhState d = 4) (hx : heldSwap d = some x) :
    doSwapTakeEffect d = takeLead d x := by
  unfold doSwapTakeEffect
  rw [if_neg (by omega), if_pos hbank, hx]

/-! ### The link -/

/-- Records without an acknowledgement are sent again, up to three times, and then the link is lost. -/
theorem doLinkRetransmitTimeout_waiting {d : Dev} (hrun : linkRuns d = true) (hwait : ¬ d.pair.acked ≥ d.pair.seqOut) :
    doLinkRetransmitTimeout d = if d.pair.retries ≥ 3 then linkLost (onPair d (fun x => { x with retries := 0 })) 1
      else bump (onPair (count d 638) (fun x => { x with retries := x.retries + 1 })) DH_LINK_STAT DH_LINK_STAT_RETRIES := by
  unfold doLinkRetransmitTimeout
  rw [if_neg (by simp [hrun, hwait])]

/-- The loss of the heartbeat lets a hot banker take over, and breaks a pair that syncs or leads. -/
theorem doHeartbeatLost_by {d0 d : Dev} (hd : d = fs (setForward d0 []) DH_STATUS DH_STATUS_HB_ALIVE 0) :
    doHeartbeatLost d0 = if dhState d = 4 then takeover d
      else if dhState d = 2 ∨ dhState d = 6 then
        pairEvent (setDh (endForm d stERR_DOWN 0) 6) 4 (1 - (dhBanker (setDh (endForm d stERR_DOWN 0) 6)).toNat)
      else if dhState d = 3 then
        pairEvent (setFenceOut (setDh d 5) true) 4 (1 - (dhBanker (setFenceOut (setDh d 5) true)).toNat)
      else d := by
  subst hd
  rfl

section
variable {a : Acc} {v n : Word} {d0 d : Dev}

/-- The host's word that its mappings are back ends the polling. -/
theorem doRemapDone_done (hw : Written d0 a DH_CTRL v d n) :
    doRemapDone a v d0 = if bit n 0 then onPair d (fun x => { x with polling := false }) else d := by
  unfold Written at hw
  unfold doRemapDone
  rw [hw]

/-- The software's word that it lives is noted, and beats in a pair. -/
theorem doAliveWrite_done (hw : Written d0 a DH_ALIVE v d n) :
    doAliveWrite a v d0 = (let e := onPair d (fun x => { x with aliveDt := d.dt })
      if dhState e = 0 then e else setHeartbeat e true) := by
  unfold Written at hw
  unfold doAliveWrite
  rw [hw]

end

/-- A record that fails its authentication is counted; the third in a row loses the link. -/
theorem doAuthenticationFail_running {d0 d : Dev} (hrun : linkRuns d0 = true)
    (hd : d = bump d0 DH_LINK_STAT DH_LINK_STAT_AUTH_FAILS) :
    doAuthenticationFail d0 = if d0.pair.authRun ≥ 2 then linkLost (onPair d (fun x => { x with authRun := 0 })) 2
      else onPair d (fun x => { x with authRun := x.authRun + 1 }) := by
  subst hd
  exact if_neg (by simp [hrun])

/-- Settles O17. -/
theorem pairRuns : Obligations.PairRuns := by
  unfold Obligations.PairRuns
  refine ⟨?_, ?_, ?_, ?_, fun s f r q d hr => congrArg (after s) (startDesc_runs hr true actLeave), ?_, ?_, ?_, ?_, ?_, ?_, ?_,
    fun s => rfl, ?_, ?_, ?_, ?_, ?_, ?_, ?_, ?_, ?_, ?_, ?_, ?_, ?_, ?_⟩
  · intro s d h hd
    exact congrArg (after s) (doFenceInAssert_new h hd)
  · intro s h
    exact congrArg (after s) (doFenceInRelease_held h)
  · intro s f r q d e g hfree hr he hg
    exact congrArg (after s) (doPairForm_runs hfree hr he hg)
  · intro s f r q d e g x hfree hr he hg hup
    exact congrArg (after s) ((doPairForm_runs (p := some x) hfree hr he hg).trans (if_pos hup))
  · rintro s f r q d a hr rfl hcp
    exact after_startDesc hr false actSwap (actSwap_unbound hcp)
  · intro s j d hj hstate hd
    exact congrArg (after s) (doFormTimeout_forming hj hstate hd)
  · intro s hsync hbank hcopy hlock
    exact congrArg (after s) (doBankerHot_banker hsync hbank hcopy hlock)
  · intro s hsync hlead
    exact congrArg (after s) (doBankerHot_lead hsync hlead)
  · intro s hlead hswap hjobs hacked hlanded
    exact congrArg (after s) (doSwapTakeEffect_lead hlead hswap hjobs hacked hlanded)
  · intro s x hbank hx
    exact congrArg (after s) (doSwapTakeEffect_banker hbank hx)
  · intro s h
    exact congrArg (after s) (if_pos h)
  · intro s hrun hwait hlast
    exact congrArg (after s) ((doLinkRetransmitTimeout_waiting hrun hwait).trans (if_pos hlast))
  · intro s hrun hwait hmore
    exact congrArg (after s) ((doLinkRetransmitTimeout_waiting hrun hwait).trans (if_neg hmore))
  · intro s hrun hbeat
    exact congrArg (after s) (if_pos ⟨hrun, hbeat⟩)
  · intro s d hd hstate
    exact congrArg (after s) ((doHeartbeatLost_by hd).trans (if_pos hstate))
  · intro s d hd hstate
    exact congrArg (after s) ((doHeartbeatLost_by hd).trans ((if_neg (by omega)).trans (if_pos (.inl hstate))))
  · intro s d hd hstate
    exact congrArg (after s) ((doHeartbeatLost_by hd).trans ((if_neg (by omega)).trans (if_pos (.inr hstate))))
  · intro s d hd hstate
    exact congrArg (after s) ((doHeartbeatLost_by hd).trans
      ((if_neg (by omega)).trans ((if_neg (by omega)).trans (if_pos hstate))))
  · intro s h
    exact congrArg (after s) (if_pos h)
  · intro s a v d n hw
    exact congrArg (after s) (doRemapDone_done hw)
  · intro s a v d n hw
    exact congrArg (after s) (doAliveWrite_done hw)
  · intro s hms hstate
    exact congrArg (after s) (if_neg (not_or.mpr ⟨hms, hstate⟩))
  · intro s f flr h
    exact congrArg (after s) (if_pos h)
  · intro s d hrun hd hlast
    exact congrArg (after s) ((doAuthenticationFail_running hrun hd).trans (if_pos hlast))
  · intro s d hrun hd hmore
    exact congrArg (after s) ((doAuthenticationFail_running hrun hd).trans (if_neg hmore))

end Sys2Proof.Machine
end

section
/-! SUPPORT. The records of the link complete. -/

namespace Sys2Proof.Machine

/-- A record whose epoch is not old is taken where the link runs, and its epoch is the crew's. -/
theorem takeRec_fresh {h : RecHdr} {d0 d : Dev} (halone : dhState d0 ≠ 0) (hoff : dhState d0 ≠ 7) (hup : domUp d0 15 = true)
    (hd : d = onPair (count d0 637) (fun x => { x with authRun := 0 })) (hfresh : staleRec d h = false) (g : Dev → Dev) :
    takeRec h g d0 = g (if crewEpoch d = h.epoch.toNat then d else fs d DH_STATUS DH_STATUS_CREW_EPOCH h.epoch.toNat) := by
  unfold takeRec
  rw [if_neg (by simp [halone, hoff, hup])]
  dsimp only
  rw [← hd, hfresh, if_neg (by simp)]

/-- A rejection whose epoch is not old fences the device. -/
theorem doRecReject_fresh {h : RecHdr} {d : Dev} (halone : dhState d ≠ 0) (hoff : dhState d ≠ 7) (hup : domUp d 15 = true)
    (hfresh : staleRec d h = false) : doRecReject h d = obeyFence (count d 637) true := by
  unfold doRecReject
  rw [hfresh, if_neg (by simp), if_neg (by simp [halone, hoff, hup])]

/-- Settles O18. -/
theorem recordsRun : Obligations.RecordsRun := by
  unfold Obligations.RecordsRun
  refine ⟨?_, ?_, ?_, ?_, ?_, ?_, ?_, ?_, ?_, ?_, ?_, ?_, ?_⟩
  · intro s h f r slot ws tables d hn
    exact congrArg (after s) (bankerRec_next hn _)
  · intro s h id o anchor group land d hn
    exact congrArg (after s) (bankerRec_next hn _)
  · intro s h id land d hn
    exact congrArg (after s) (bankerRec_next hn _)
  · intro s h addr bytes mask d hn
    exact congrArg (after s) (bankerRec_next hn _)
  · intro s h item d hn
    exact congrArg (after s) (bankerRec_next hn _)
  · intro s h f r slot w d hn
    exact congrArg (after s) (bankerRec_next hn _)
  · intro s h last d hn
    exact congrArg (after s) (bankerRec_next hn _)
  · intro s h p r frame crc subst landIn d hn
    exact congrArg (after s) (bankerRec_next hn _)
  · intro s h bs pos d hn
    exact congrArg (after s) (bankerRec_next hn _)
  · intro s h leadDt rpos d hn
    exact congrArg (after s) (bankerRec_next hn _)
  · intro s h addr bytes items last d hn
    exact congrArg (after s) (bankerRec_next hn _)
  · intro s h upTo rttNs d halone hoff hup hd hfresh
    exact congrArg (after s) (takeRec_fresh halone hoff hup hd hfresh (applyAck upTo.toNat rttNs))
  · intro s h theirs halone hoff hup hfresh
    exact congrArg (after s) (doRecReject_fresh halone hoff hup hfresh)

end Sys2Proof.Machine
end

section
/-! SUPPORT. The commands of the guests complete. -/

namespace Sys2Proof.Machine

/-! ### The partition window -/

/-- The words that a submit of the partition window names: the one written, and the staged ones, over what the partition will be. -/
def submitWords (d : Dev) (a : Acc) (v : Word) : List Word :=
  v :: (List.range 15).map (fun j => (SMap.get (SMap.get d.ptStage a.mid.toNat) (j + 1)).getD
    (wd (futurePt d (ptSelOf d a.mid.toNat)) (j + 1)))

section
variable {a : Acc} {v : Word} {k : Nat} {ws : List Word} {d0 d e : Dev} (hw : ptWordWrite a 0 v d0 = (d, true))
  (hk : k = ptSelOf d a.mid.toNat) (hws : ws = submitWords d a v)
  (he : e = { d with ptStage := SMap.set d.ptStage a.mid.toNat [] }) (hhome : d.heritage = false)
include hw hk hws he hhome

/-- A submit of words that are bad is discarded, and says why. -/
theorem doPartitionWindowSubmit_bad {b : Nat × Nat} (hbad : ptBad e k ws = some b) :
    doPartitionWindowSubmit a v d0 =
      logErr (fs e HS_PT_STAT HS_PT_STAT_LAST b.1) ecCONFLICT a.mid.toNat (HS_PT_W 0) v a.secure := by
  have hnorm : ¬ d.heritage = true := by simp [hhome]
  subst he
  unfold submitWords at hws
  unfold doPartitionWindowSubmit
  dsimp only
  rw [hw]
  dsimp only
  rw [if_neg (by simp), ← hws, ← hk, if_neg hnorm, hbad]

/-- A submit of words that are good commits the partition. -/
theorem doPartitionWindowSubmit_good (hgood : ptBad e k ws = none) (hcut : d.pm.cut.window = false) :
    doPartitionWindowSubmit a v d0 =
      (let g := ptGroup e k ws
       acceptCommit (fs e HS_PT_STAT HS_PT_STAT_BUSY 1) 0 (.window a.mid.toNat)
         (lowestOf g) g none false true [.partition k ws]) := by
  have hnorm : ¬ d.heritage = true := by simp [hhome]
  subst he
  unfold submitWords at hws
  unfold doPartitionWindowSubmit
  dsimp only
  rw [hw]
  dsimp only
  rw [if_neg (by simp), ← hws, ← hk, if_neg hnorm, hgood]
  dsimp only
  rw [hcut, if_neg (by simp)]

end

/-- A selection of the partition window clears the staging copy where it is new. -/
theorem doPtSelWrite_done {a : Acc} {v : Word} {d0 d : Dev} (hw : maskedWrite a HS_PT_SEL v d0 = (d, true)) :
    doPtSelWrite a v d0 = if bits v 4 0 = ptSelOf d a.mid.toNat then d
      else { d with ptSel := SMap.set d.ptSel a.mid.toNat (bits v 4 0), ptStage := SMap.set d.ptStage a.mid.toNat [] } := by
  unfold doPtSelWrite
  dsimp only
  rw [hw]
  exact if_neg (by simp)

/-! ### Quiescing, saving and restoring -/

section
variable {f : Nat} {d : Dev} (hon : (fnSt d f).qui.on = true)
include hon

/-- A function whose work is over is quiesced. -/
theorem doQuiesceDone_over (hover : quiesceOver d f = true) :
    doQuiesceDone f d = endQuiesce (setFnState (onFn (noteQuiesced d f) f (fun x =>
      { x with qui := { x.qui with done := true } })) f 3) f stOK := if_neg (by simp [hon, hover])

/-- A function that is not quiesced in its time runs on. -/
theorem doQuiesceTimeout_on : doQuiesceTimeout f d = gpuRun (rerunRings (resumeStreams (unholdAll
    (endQuiesce (advance (fnSt d f).qui.limit d) f stLATE) f) f) f) := if_neg (by simp [hon])

end

section
variable {f r : Nat} {q : Desc} {d e : Dev}

/-- A save that its room holds is written. -/
theorem actSave_fits {len : Nat} {ok : Bool} (hlen : len = 0x9C + (fnSt d (fcFn q)).qui.blobLen)
    (hroom : ¬ (at4 q.words 0x30).toNat < len)
    (hm : memWritePages (pagesFuel len) d 0 0 (at8 q.words 0x18) (blobBytes d (fcFn q)) = (e, ok)) :
    actSave f r q d = complete e f r q.idx (if ok then stOK else stERR_FAULT) := by
  unfold actSave
  dsimp only
  rw [← hlen, if_neg hroom, hm]

/-- A save without room says how much it needs. -/
theorem actSave_short {len : Nat} (hlen : len = 0x9C + (fnSt d (fcFn q)).qui.blobLen) (hroom : (at4 q.words 0x30).toNat < len) :
    actSave f r q d = complete d f r q.idx stNO_RESOURCE len := by
  unfold actSave
  dsimp only
  rw [← hlen, if_pos hroom]

/-- A harvest changes the bitmap that is written. -/
theorem actHarvest_written {ok : Bool} (h : writeBack d (fcFn q) = (e, ok)) :
    actHarvest f r q d = complete (onFn e (fcFn q) (fun x => { x with dl := { x.dl with activeB := !x.dl.activeB } })) f r q.idx
      (if ok then stOK else stERR_FAULT) := by
  unfold actHarvest
  dsimp only
  rw [h]

/-- The end of the log writes the bitmap back. -/
theorem actDlStop_written {ok : Bool} (h : writeBack d (fcFn q) = (e, ok)) :
    actDlStop f r q d = complete (onFn e (fcFn q) (fun x => { x with dl := default })) f r q.idx (if ok then stOK
      else stERR_FAULT) := by
  unfold actDlStop
  dsimp only
  rw [h]

end

/-- The blob that comes with a restore, for the descriptor in front of its ring. -/
def withBlob (d : Dev) (f r : Nat) (blob : BlobIn) : Dev :=
  { d with blobs := d.blobs ++ [{ ring := r, idx := ((ringSt d f r).queue.head?.map (fun q => q.idx)).getD 0, blob := blob }] }

/-- A restore that runs takes its blob, and blobs whose descriptors are over are dropped. -/
theorem doFnCtrlRestore_runs {f r : Nat} {blob : BlobIn} {m : MemIn} {q : Desc} {d0 d e : Dev} {x : ParkedBlob}
    (hr : Runs (withBlob d0 f r blob) f r 0x615 [m] chkRestore q d)
    (hx : d.blobs.find? (fun x => decide (x.ring = r) && decide (x.idx = q.idx)) = some x)
    (he : e = purgeRing (restoreBlob x.blob f r q d) f r) :
    doFnCtrlRestore f r blob m d0 = { e with blobs := e.blobs.filter (fun x => (liveDesc e 0 x.ring x.idx).isSome) } := by
  have hact : actRestore f r q d = restoreBlob x.blob f r q d := by
    unfold actRestore
    rw [hx]
  have hrun := startDesc_runs hr true actRestore
  rw [hact, ← he] at hrun
  unfold withBlob at hrun
  unfold doFnCtrlRestore
  dsimp only
  rw [hrun]

/-! ### VFs and departures -/

/-- VFs that are enabled again are counted, and those that come run. -/
theorem doVfEnableSet_home {num : Nat} {d : Dev} (hhome : d.heritage = false) (hrun : d.pm.recovery = false) :
    doVfEnableSet num d = if d.vfEnable then ((List.range d.numVfs).map (fun k => k + 1)).foldl countEnable d
      else ((List.range num).map (fun k => k + 1)).foldl (fun d n => if fnState d n = 0 then setFnState d n 1
        else countEnable d n)
        { d with vfEnable := true, numVfs := num } := if_neg (by simp [hhome, hrun])

/-- VFs that are disabled depart. -/
theorem doVfEnableClear_home {num : Nat} {d : Dev} (hhome : d.heritage = false) :
    doVfEnableClear num d = (vfsThere d).foldl (fun d n => startDeparture (addCause d 4 n 0) n 1)
      { d with vfEnable := false, numVfs := num } := if_neg (by simp [hhome])

/-- A departure that is over leaves its function new: the PF runs on, a VF is gone and its departure is told. -/
theorem doFunctionDeparted_over {f : Nat} {d0 d e : Dev} (hstate : fnState d0 f = 2) (hover : departOver d0 f = true)
    (hd : d = departLast (leaveAll d0 f) f) (he : e = onFn d f (fun x => { (default : FnSt) with rings := x.rings })) :
    doFunctionDeparted f d0 = if f = 0 then { setFnState e 0 1 with vfEnable := false }
      else (fnSt d f).dep.waiters.foldl (fun d w => complete d 0 w.1 w.2 stOK)
        (post (setFnState e f 0) 0 clFUNCTION 1 f (departPay f (fnSt d f).dep false)) := by
  subst he hd
  exact if_neg (by simp [hstate, hover])

/-- The departure of the PF starts when no VF is there. -/
theorem doF0DepartureStart_alone {d : Dev} (hon : (fnSt d 0).dep.on = true) (hrun : fnState d 0 = 1) (hnone : vfsThere d = []) :
    doF0DepartureStart d = startDeparture d 0 0 := if_neg (by simp [hon, hrun, hnone])

/-! ### The MMU -/

section
variable {a : Acc} {v n : Word} {d0 d : Dev}

/-- A new root of a function invalidates. -/
theorem doMmuRootWrite_done {f : Nat} (hw : Written d0 a (MM_ROOT_LO f) v d n) : doMmuRootWrite a f v d0 = beginInval d := by
  unfold Written at hw
  unfold doMmuRootWrite
  rw [hw]

/-- An invalidation that its check passes begins while none runs. -/
theorem mmInval_idle (hw : Written d0 a MM_INVAL v d n) (hidle : fb d0 MM_INVAL_STAT MM_INVAL_STAT_DONE = true)
    (hrange : ¬ (bits n 31 30 = 1 ∧ bits n 29 13 = 0)) : mmInval a v d0 = beginInval d := by
  unfold mmInval
  rw [guardWrite_done hw (by rw [hidle, if_neg (by simp)]; exact if_neg hrange)]

end

/-- Settles O19. -/
theorem guestsRun : Obligations.GuestsRun := by
  unfold Obligations.GuestsRun
  refine ⟨fun s f r q d hr => congrArg (after s) (startDesc_runs hr false actPartition), ?_, ?_, ?_, ?_,
    fun s f r q d hr => congrArg (after s) (startDesc_runs hr true actDepart), ?_, ?_, ?_, ?_, ?_, ?_, ?_,
    fun s f r q d hr => congrArg (after s) (startDesc_runs hr true actDlStart), ?_, ?_, ?_, ?_, ?_, ?_, ?_, ?_, ?_, ?_, ?_, ?_,
    fun s => rfl, fun s f iova pages => rfl⟩
  · rintro s a v d k ws e b hw rfl hws he hhome hbad
    exact congrArg (after s) (doPartitionWindowSubmit_bad hw rfl hws he hhome hbad)
  · rintro s a v d k ws e g hw rfl hws he hhome hgood hcut rfl
    exact congrArg (after s) (doPartitionWindowSubmit_good hw rfl hws he hhome hgood hcut)
  · intro s a v d hw hnew
    exact congrArg (after s) ((doPtSelWrite_done hw).trans (if_neg hnew))
  · intro s a v d hw hsame
    exact congrArg (after s) ((doPtSelWrite_done hw).trans (if_pos hsame))
  · rintro s f r q d k e hr rfl rfl
    exact congrArg (after s) (startDesc_runs hr true actQuiesce)
  · intro s f hon hover
    exact congrArg (after s) (doQuiesceDone_over hon hover)
  · intro s f hon
    exact congrArg (after s) (doQuiesceTimeout_on hon)
  · rintro s f r q d k x e hr rfl rfl rfl
    exact congrArg (after s) (startDesc_runs hr true actResume)
  · intro s f r q d len g ok hr hlen hroom hm
    exact after_startDesc hr true actSave (actSave_fits hlen hroom hm)
  · intro s f r q d len hr hlen hroom
    exact after_startDesc hr true actSave (actSave_short hlen hroom)
  · intro s f r blob m q d x e hr hx he
    exact congrArg (after s) (doFnCtrlRestore_runs hr hx he)
  · intro s f r q d e ok hr h
    exact after_startDesc hr true actHarvest (actHarvest_written h)
  · intro s f r q d e ok hr h
    exact after_startDesc hr true actDlStop (actDlStop_written h)
  · intro s num hhome hoff hrun
    exact congrArg (after s) ((doVfEnableSet_home hhome hrun).trans (if_neg (by simp [hoff])))
  · intro s num hhome hon hrun
    exact congrArg (after s) ((doVfEnableSet_home hhome hrun).trans (if_pos hon))
  · intro s num hhome
    exact congrArg (after s) (doVfEnableClear_home hhome)
  · intro s f d e hstate hover hd he hpf
    exact congrArg (after s) ((doFunctionDeparted_over hstate hover hd he).trans (if_pos hpf))
  · intro s f d e hstate hover hd he hvf
    exact congrArg (after s) ((doFunctionDeparted_over hstate hover hd he).trans (if_neg hvf))
  · intro s hon hrun hnone
    exact congrArg (after s) (doF0DepartureStart_alone hon hrun hnone)
  · intro s a v f d n hw
    exact congrArg (after s) (doMmuRootWrite_done hw)
  · rintro s a v w d n rfl hw hidle hrange
    exact congrArg (after s) (mmInval_idle hw hidle hrange)
  · rintro s a v w d n rfl hw hidle hrange
    exact congrArg (after s) (mmInval_idle hw hidle hrange)
  · rintro s a v w d n rfl hw hidle hrange
    exact congrArg (after s) (mmInval_idle hw hidle hrange)

end Sys2Proof.Machine
end

section
/-! SUPPORT. The Heritage interface completes. -/

namespace Sys2Proof.Machine

/-! ### Captures -/

section
variable {i : Nat} {d0 d e : Dev} (hher : d0.heritage = true) (harmed : bit (mdhReg d0 (dispCtrl i + 8)) 0 = true)
  (hd : d = (if dispOn d0 i then advance (nextFrameDt d0 i) d0 else d0))
  (he : e = mdhIrq (setMdh d (dispCtrl i + 8) 0) (8 + i))
include hher harmed hd he

/-- An armed capture of words that fail is refused whole. -/
theorem doCapture_refused {x} (hbad : captureFails i (captureWords d i) = some x) : doCapture i d0 = mdhError e i x := by
  unfold doCapture
  rw [if_neg (by simp [hher, harmed])]
  dsimp only
  rw [← hd, ← he, hbad]

/-- An armed capture of words that hold lands. -/
theorem doCapture_lands (hgood : captureFails i (captureWords d i) = none) :
    doCapture i d0 = acceptCapture e i (captureWords d i) := by
  unfold doCapture
  rw [if_neg (by simp [hher, harmed])]
  dsimp only
  rw [← hd, ← he, hgood]

end

/-! ### Shadows and the soft reset -/

/-- A write of an occupied shadow stores the bits of its mask in the bytes that it enables. -/
theorem mdhWrite_shadow {be : BitVec 4} {off m : Nat} {v : Word} {d : Dev} (hher : d.heritage = true)
    (hocc : mdhOccupied off = true) (hm : shadowMask off = some m) :
    mdhWrite be off v d = setMdh d off (BitVec.ofNat 32 ((mdhReg d off).toNat - ((mdhReg d off).toNat &&& (byteMask be &&& m)) +
      (v.toNat &&& (byteMask be &&& m)))) := by
  unfold mdhWrite
  dsimp only
  rw [hher, hocc, if_neg (by simp), if_neg (by simp), hm]

/-- The control register is no shadow. -/
theorem shadowMask_ctrl : shadowMask 0x08 = none := by decide

/-- A write that asks for a soft reset while none runs starts one. -/
theorem mdhWrite_softReset {be : BitVec 4} {v : Word} {d : Dev} (hher : d.heritage = true) (hbyte : hasBit be.toNat 0 = true)
    (hgo : bit v 0 = true) (hidle : bit (mdhReg d 0x08) 0 = false) :
    mdhWrite be 0x08 v d = softReset (setMdh d 0x08 (putBits (mdhReg d 0x08) 1 1 (bits v 1 1))) := by
  unfold mdhWrite
  dsimp only
  rw [hher, if_neg (by simp), if_neg (by decide), shadowMask_ctrl]
  dsimp only
  rw [if_pos rfl]
  unfold mdhCtrl
  rw [hbyte, if_neg (by simp)]
  exact if_pos ⟨hgo, by rw [hidle]; rfl⟩

/-- The end of a soft reset disables what still waits for it, and clears its bit. -/
theorem doSoftRstDone_running {t : Nat} {d0 d : Dev} (ht : d0.mdh.softAt = some t)
    (hd : d = (List.range 8).foldl (fun d n => if (platRun d n).disFrame.isSome then doPlatformDisable n d else d)
      (advance t d0)) :
    doSoftRstDone d0 = setMdh (onMdh d (fun m => { m with softAt := none })) 0x08 (putBits (mdhReg d 0x08) 0 0 0) := by
  unfold doSoftRstDone
  rw [ht]
  dsimp only
  rw [← hd]

/-! ### The extension key -/

section
variable {a : Acc} {v n : Word} {d0 d e : Dev} (hw : Written d0 a GL_EXT_KEY v d n) (he : e = onMdh d (fun m => { m with key
    := none }))
include hw he

/-- A key of zero closes the window. -/
theorem doExtKeyWrite_close (hv : v = 0) : doExtKeyWrite a v d0 = fs e GL_EXT_STAT GL_EXT_STAT_STATE 0 := by
  unfold Written at hw
  unfold doExtKeyWrite
  rw [hw, he]
  exact if_pos hv

/-- The first word of the key is noted with its time. -/
theorem doExtKeyWrite_first (hv : v = 0xA11E) (hnone : d0.mdh.key = none) :
    doExtKeyWrite a v d0 = onMdh e (fun m => { m with key := some d.dt }) := by
  unfold Written at hw
  unfold doExtKeyWrite
  rw [hw]
  dsimp only
  rw [← he, hnone, if_neg (by rw [hv]; decide), if_pos hv]
  rfl

/-- The second word of the key, in time, opens the window. -/
theorem doExtKeyWrite_second {t : Nat} (hv : v = 0xE11A) (hsome : d0.mdh.key = some t) (htime : d.dt ≤ t + 1000000) :
    doExtKeyWrite a v d0 = fs e GL_EXT_STAT GL_EXT_STAT_STATE 1 := by
  unfold Written at hw
  unfold doExtKeyWrite
  rw [hw]
  dsimp only
  rw [← he, hsome, if_neg (by rw [hv]; decide), if_neg (by rw [hv]; decide), if_pos ⟨hv, by simpa using htime⟩]

/-- Any other word is a bad sequence. -/
theorem doExtKeyWrite_other (h0 : v ≠ 0) (h1 : v ≠ 0xA11E) (h2 : v ≠ 0xE11A) :
    doExtKeyWrite a v d0 = logErr e ecBAD_SEQUENCE a.mid.toNat GL_EXT_KEY v a.secure := by
  unfold Written at hw
  unfold doExtKeyWrite
  rw [hw]
  dsimp only
  rw [← he, if_neg h0, if_neg h1, if_neg (fun h => h2 h.1)]

end

/-! ### The aperture -/

section
variable {off a : Nat} {d : Dev} (hher : d.heritage = true) (ha : a = apertureBase d + off)
include hher ha

/-- A write of the aperture stores its bytes. -/
theorem doApertureAccess_write (bs : List Byte) (len : Nat) :
    doApertureAccess off (some bs) len d =
      dramStore (cleanLines d a (bs.take (2 ^ 28 - off)).length) a (bs.take (2 ^ 28 - off)) := by
  subst ha
  exact if_neg (by simp [hher])

/-- A read of the aperture shows its bytes. -/
theorem doApertureAccess_read (len : Nat) :
    doApertureAccess off none len d = emit d (.aperture off (dramBytes d a (min len (2 ^ 28 - off)))) := by
  subst ha
  exact if_neg (by simp [hher])

end

/-- Settles O20. -/
theorem heritageRuns : Obligations.HeritageRuns := by
  unfold Obligations.HeritageRuns
  refine ⟨fun s be n v => rfl, ?_, ?_, ?_, ?_, ?_, ?_, ?_, ?_, ?_, ?_, ?_⟩
  · intro s n d e x hher harmed hd he hbad
    exact congrArg (after s) (doCapture_refused hher harmed hd he hbad)
  · intro s n d e hher harmed hd he hgood
    exact congrArg (after s) (doCapture_lands hher harmed hd he hgood)
  · intro s be off v m hher hocc hm
    exact congrArg (after s) (mdhWrite_shadow hher hocc hm)
  · intro s be v hher hbyte hgo hidle
    exact congrArg (after s) (mdhWrite_softReset hher hbyte hgo hidle)
  · intro s t d ht hd
    exact congrArg (after s) (doSoftRstDone_running ht hd)
  · intro s a v e d n hw hv he
    exact congrArg (after s) (doExtKeyWrite_close hw he hv)
  · intro s a v e d n hw hv hnone he
    exact congrArg (after s) (doExtKeyWrite_first hw he hv hnone)
  · intro s a v t e d n hw hv hsome htime he
    exact congrArg (after s) (doExtKeyWrite_second hw he hv hsome htime)
  · intro s a v e d n hw h0 h1 h2 he
    exact congrArg (after s) (doExtKeyWrite_other hw he h0 h1 h2)
  · intro s off bs len a hher ha
    exact congrArg (after s) (doApertureAccess_write hher ha bs len)
  · intro s off len a hher ha
    exact congrArg (after s) (doApertureAccess_read hher ha len)

end Sys2Proof.Machine
end
